-- ==== Sys2Proof/Word.lean ====
section
/-!
DEFINITION. The word types of the KVZ-4811: 32-bit register words (R13), bytes, 16-bit angles within a mains
cycle (spec/00_scope.md, Time and durations) and binary64 bit patterns.
-/

namespace Sys2Proof

/-- A register word (R13). -/
abbrev Word := BitVec 32

/-- An octet. -/
abbrev Byte := BitVec 8

/-- An angle within the mains cycle, 65,536 ticks per cycle. -/
abbrev Angle := BitVec 16

/-- A binary64 bit pattern (spec/08_custody_arithmetic.md). -/
abbrev F64 := BitVec 64

end Sys2Proof
end

