-- ==== Sys2Proof/Machine/Bits.lean ====
section
/-!
DEFINITION. Bit fields, octet strings and small integer helpers that every family uses.
-/

namespace Sys2Proof.Machine

/-- Bits hi:lo of a natural number. -/
def bits (hi lo n : Nat) : Nat := (n >>> lo) % 2 ^ (hi - lo + 1)

/-- Bit i of a natural number. -/
def bit (i n : Nat) : Bool := n.testBit i

/-- 1 for true, 0 for false. -/
def b2n (b : Bool) : Nat := if b then 1 else 0

/-- `n` with bits hi:lo replaced by the low bits of `v`. -/
def setBits (hi lo v n : Nat) : Nat :=
  n - (bits hi lo n) * 2 ^ lo + (v % 2 ^ (hi - lo + 1)) * 2 ^ lo

/-- `n` with bit i set to `b`. -/
def setBit (i : Nat) (b : Bool) (n : Nat) : Nat := setBits i i (b2n b) n

/-- The signed value of a `w`-bit pattern. -/
def toSigned (w n : Nat) : Int :=
  let m := n % 2 ^ w
  if m < 2 ^ (w - 1) then m else (m : Int) - 2 ^ w

/-- The `w`-bit pattern of an integer, modulo 2^w. -/
def ofSigned (w : Nat) (i : Int) : Nat := (i % (2 ^ w : Int)).toNat

/-- An integer held to the range of a signed `w`-bit field. -/
def satSigned (w : Nat) (i : Int) : Int :=
  max (-(2 ^ (w - 1) : Int)) (min i (2 ^ (w - 1) - 1 : Int))

/-- A sum held at the largest `w`-bit value (a saturating counter). -/
def satAdd (w a b : Nat) : Nat := min (a + b) (2 ^ w - 1)

/-- Division rounded up; 0 for a divisor of 0. -/
def ceilDiv (a b : Nat) : Nat := if b = 0 then 0 else (a + b - 1) / b

/-- Division rounded to the nearest integer, ties to even. -/
def divNearestEven (a : Int) (b : Nat) : Int :=
  let q := a / (b : Int)
  let r := a % (b : Int)
  if 2 * r < b then q else if 2 * r > b then q + 1 else if q % 2 = 0 then q else q + 1

/-- A value held between two limits. -/
def clampNat (least most v : Nat) : Nat := max least (min v most)

/-- `n` octets of a natural number, least significant first. -/
def leBytes : Nat → Nat → List Byte
  | 0, _ => []
  | n + 1, v => BitVec.ofNat 8 v :: leBytes n (v / 256)

/-- `n` octets of a natural number, most significant first. -/
def beBytes (n v : Nat) : List Byte := (leBytes n v).reverse

/-- The natural number of octets, least significant first. -/
def ofLe : List Byte → Nat
  | [] => 0
  | b :: bs => b.toNat + 256 * ofLe bs

/-- The natural number of octets, most significant first. -/
def ofBe (bs : List Byte) : Nat := ofLe bs.reverse

/-- `n` zero octets. -/
def zeros (n : Nat) : List Byte := List.replicate n 0

/-- The octets of a field at an offset, least significant first. -/
def leAt (bs : List Byte) (off n : Nat) : Nat := ofLe ((bs.drop off).take n)

/-- The octets of a field at an offset, most significant first. -/
def beAt (bs : List Byte) (off n : Nat) : Nat := ofBe ((bs.drop off).take n)

/-- The first index in a list at which a test holds. -/
def indexWhere {α : Type} (p : α → Bool) (l : List α) : Option Nat := l.findIdx? p

/-- Octets made exactly n long. -/
def fixLen : Nat → List Byte → List Byte
  | 0, _ => []
  | n + 1, b => b.headD 0 :: fixLen n b.tail

end Sys2Proof.Machine
end

