-- ==== Sys2Proof/Machine/SMap.lean ====
section
/-!
DEFINITION. Sparse tables: a list of (key, value) pairs with strictly rising keys. One form serves the register
file, the node, channel and account tables and the ledger, so that equal tables are equal lists.
-/

namespace Sys2Proof.Machine

/-- A list in order with one more element, before the first that may not stand before it. -/
def insertBy {α : Type} (le : α → α → Bool) (x : α) : List α → List α
  | [] => [x]
  | y :: ys => if le x y then x :: y :: ys else y :: insertBy le x ys

/-- The elements of a list in order; those that are equal keep theirs. -/
def sortBy {α : Type} (le : α → α → Bool) (l : List α) : List α := l.foldr (insertBy le) []

/-- A sparse table with keys in strictly rising order. -/
abbrev SMap (α : Type) := List (Nat × α)

/-- The value at a key. -/
def SMap.find {α : Type} : SMap α → Nat → Option α
  | [], _ => none
  | (k, v) :: m, i => if i = k then some v else SMap.find m i

/-- The value at a key, or a default. -/
def SMap.getD {α : Type} (m : SMap α) (i : Nat) (d : α) : α := (m.find i).getD d

/-- The table with a value at a key. -/
def SMap.put {α : Type} : SMap α → Nat → α → SMap α
  | [], i, v => [(i, v)]
  | (k, w) :: m, i, v =>
    if i < k then (i, v) :: (k, w) :: m
    else if i = k then (i, v) :: m
    else (k, w) :: SMap.put m i v

/-- The table without a key. -/
def SMap.del {α : Type} (m : SMap α) (i : Nat) : SMap α := m.filter (fun p => p.1 != i)

/-- The table with the value at a key changed, where the key is present. -/
def SMap.modify {α : Type} (m : SMap α) (i : Nat) (f : α → α) : SMap α :=
  match m.find i with
  | some v => m.put i (f v)
  | none => m

/-- The table with the value at a key changed, starting from a default where the key is absent. -/
def SMap.update {α : Type} (m : SMap α) (i : Nat) (d : α) (f : α → α) : SMap α :=
  m.put i (f (m.getD i d))

/-- The table with every value changed. -/
def SMap.mapVals {α : Type} (m : SMap α) (f : Nat → α → α) : SMap α := m.map (fun p => (p.1, f p.1 p.2))

/-- The keys of a table. -/
def SMap.keys {α : Type} (m : SMap α) : List Nat := m.map (·.1)

/-- The values of a table. -/
def SMap.vals {α : Type} (m : SMap α) : List α := m.map (·.2)

/-- The keys of a table stand in strictly rising order. -/
def SMap.sorted {α : Type} : SMap α → Bool
  | [] => true
  | (k, _) :: m => (match m with | [] => true | (k', _) :: _ => decide (k < k')) && SMap.sorted m

end Sys2Proof.Machine
end

