-- ==== Sys2Proof/Machine/Records.lean ====
section
/-!
DEFINITION. The tables' entries that the Pairs link mirrors from one twin to the other (Table 16.2), as plain data: they
stand ahead of the commands because MIRROR_ITEM carries them.
-/

namespace Sys2Proof.Machine

/-- What a civil instant was requested for: a boundary of a tariff program, an interval end of a channel with the
length code, or a CIVIL window end of a balance zone. -/
inductive InstantOwner where
  | boundary (prog : Nat)
  | interval (ilen : Nat)
  | window (zone : Nat)
  deriving DecidableEq, Repr

/-- A requested civil instant (R32): its owner, its local civil time in seconds on the TAI second axis, whether its
second occurrence is named, and, once pinned, its sweep time and whether it lay beyond the schedule. -/
structure Instant where
  owner : InstantOwner
  civil : Int
  second : Bool := false
  pin : Option Nat := none
  beyond : Bool := false
  /-- Kinds of a boundary (Table 11.4), and for an instant that a civil step skipped the step in ms (R219). -/
  kinds : Nat := 0
  skipped : Option Int := none
  /-- Pinned at a tick after its instant: processed LATE (R217, R34). -/
  late : Bool := false
  deriving DecidableEq, Repr

/-- The repeat of a failed exchange (R40, R69, R80): the node and the SEQ it keeps, its work, whether that was drawn from the retry
share or from capacity admitted to no one, the repeats so far, and whether it has been placed in a slot or an airtime. -/
structure Retry where
  node : Nat
  seq : Nat
  work : Nat
  share : Bool
  tries : Nat := 1
  placed : Bool := false
  deriving DecidableEq, Repr

/-- Records that firmware wants to send to a node in capacity admitted to no one; a repeat keeps its SEQ (R80, R113). -/
structure FirmwareCmd where
  node : Nat
  records : List Byte
  tries : Nat := 0
  seq : Option Nat := none
  deriving DecidableEq, Repr

/-- An admitted obligation (spec/02_slalom_admission.md, Obligations). `rest` is the work still to do on each
resource of Table 2.12, in busy ticks. -/
structure Obligation where
  cls : Nat
  deadline : Nat
  node : Nat := 0
  group : Bool := false
  /-- The target is a field node or a multicast group. -/
  field : Bool := false
  op : Nat := 0
  handle : Nat := 0
  len : Nat := 0
  preempt : Bool := false
  /-- Created by the host (R53). -/
  host : Bool := false
  gen : Nat := 1
  /-- Order of admission. -/
  order : Nat := 0
  rest : SMap Nat := []
  /-- Octets of records that the response of its poll is expected to carry (log 39). -/
  up : Nat := 6
  /-- The most energy its records can need, in units of 1/4096 mJ (R41). -/
  energy : Nat := 0
  /-- The target node was marked ABSENT and the work released (R38). -/
  absent : Bool := false
  /-- The repeat of a failed exchange that it waits for or makes, by resource (R40, R69). -/
  retries : SMap Retry := []
  /-- The records that a COMMAND carries, a host's payload in an APP record (Table 4.3); or the payload of a local interlock or a
  BULK request (R226, R405). -/
  records : List Byte := []
  /-- The exchange that carries it has been answered, the readings it carries that are not yet accepted, and the RSNs
  of accepted records that are not yet committed (R37). -/
  answered : Bool := false
  readings : Nat := 0
  rsns : List Nat := []
  /-- A frame of it has been put on the medium (R53). -/
  sent : Bool := false
  /-- The members of a group that have acknowledged it (R37). -/
  members : List Nat := []
  /-- BULK: frames still to send on each lane, by resource (R406). -/
  frames : SMap Nat := []
  deriving DecidableEq, Repr

/-- An entry of the outcome ring (Table 2.7). -/
structure OutcomeEntry where
  id : Nat
  word1 : Nat
  time : Nat
  deriving DecidableEq, Repr

/-- A channel of the billing channel table (R208 to R212). -/
structure BillChan where
  /-- CT_W0 and CT_W1 in force, and the CT_W1 that waits for the next billing-period boundary (R208). -/
  w0 : Nat
  w1 : Nat
  nextW1 : Option Nat := none
  valid : Bool := true
  /-- T1 to T8, and whether one of them has saturated (R209). -/
  regs : List Nat := [0, 0, 0, 0, 0, 0, 0, 0]
  regSat : Bool := false
  /-- The open interval: number, start, units, worst quality, and its PART and STEP flags. -/
  inum : Nat := 0
  start : Nat := 0
  units : Nat := 0
  qual : Nat := 0
  part : Bool := true
  step : Bool := false
  /-- Boundaries of the closed intervals, newest first, and the intervals that have a record. -/
  bounds : List Nat := []
  recorded : List Nat := []
  /-- The units of each closed interval, by number (R187); the last closed one as (S, units), and the net energy of the
  last one as (S, units) where the channel is paired (R181). -/
  closedUnits : SMap Nat := []
  /-- Register data (R212): the flags of closed intervals that have no record yet, and the intervals whose first record has
  units still to be placed. -/
  waitFlags : SMap Nat := []
  firsts : List Nat := []
  lastClosed : Option (Nat × Nat) := none
  net : Option (Nat × Int) := none
  /-- Units by demand interval of the open period (R221). -/
  demand : SMap Nat := []
  /-- The demand interval in which the channel joined its program, which is PART for it. -/
  joined : Option Nat := none
  /-- By program, what of T1 to T8 has been charged up to its last boundary (R223), or late since then (R224). -/
  charged : SMap (List Nat) := []
  /-- The last closed period: number, T1 to T8, MD, MD_AT, MD_REG. -/
  lastPeriod : Option (Nat × List Nat × Nat × Nat × Nat) := none
  deriving DecidableEq, Repr

/-- A demand interval of a program (R221): number, start, end, register at its end, and whether it counts toward MD. -/
structure DemandRec where
  num : Nat
  start : Nat
  stop : Nat
  reg : Nat
  counts : Bool
  deriving DecidableEq, Repr

/-- A tariff program (R213 to R221): the image in force and the pending one, the register in force, the register
switches processed as (S, register), newest first, the closed demand intervals of the open period, the open demand
interval with its flags, the open period, the starts of periods as (S, number), newest first, and a civil step that the
next boundary record has to carry. -/
structure Program where
  image : Option (List Byte) := none
  pending : Option (List Byte) := none
  reg : Nat := 0
  switches : List (Nat × Nat) := []
  demands : List DemandRec := []
  dnum : Nat := 0
  dstart : Nat := 0
  dpart : Bool := true
  dstep : Bool := false
  period : Nat := 1
  periods : List (Nat × Nat) := []
  step : Option Int := none
  /-- A CLOSE asks for a PERIOD at the first DEMAND boundary at or after this sweep time (R214). -/
  closeFrom : Option Nat := none
  /-- The last processed boundary. -/
  lastS : Option Nat := none
  /-- The first boundary, and the register in force before it (R210). -/
  first : Option (Nat × Nat) := none
  deriving DecidableEq, Repr

/-- A credit account (R222 to R225): balance, remainder, prices in force and pending by set × 8 + register with the EFF of
the pending ones, the committed thresholds WARN, CUT and RESTORE, and the RSNs of top-ups that wait for their commit. -/
structure Account where
  balance : Int := 0
  rest : Int := 0
  prices : SMap Int := []
  pending : Option (Nat × SMap Int) := none
  limits : List Int := [0, 0, 0]
  busy : List Nat := []
  deriving DecidableEq, Repr

/-- The transmit counter of a key (R300): the next value, the blocks of 4,096 reserved in Keeper NV, the blocks the twin
has acknowledged, and whether a reservation is being written. -/
structure TxKey where
  next : Nat := 0
  blocks : Nat := 0
  acked : Nat := 0
  asked : Bool := false
  /-- The key's counter has reached the value at which a forced rekey begins (R302). -/
  forced : Bool := false
  deriving DecidableEq, Repr

/-- A join whose JACC has been sent (R82): cycle of the JACC, the version and lane it named, its challenge, and the
medium and route on which it travelled. -/
structure JoinAttempt where
  /-- The cycle in which the JACC is sent. -/
  cycle : Nat
  ver : Nat
  lane : Nat
  challenge : Nat
  medium : Nat := 1
  route : List Nat := []
  /-- Rendezvous that an air JACC assigned: interval, offset and angle. -/
  rdv : Nat × Nat × Nat := (0, 0, 0)
  canRepeat : Bool := false
  sleeps : Bool := false
  deriving DecidableEq, Repr

/-- A field node's record (Tables 4.8 and 5.13, R105) and what the module holds of its link and its session. -/
structure Node where
  serial : Nat := 0
  keyslot : Nat := 0
  /-- 0 FREE, 1 PROVISIONED, 2 JOINING, 3 ACTIVE, 4 ABSENT, 5 BARRED. -/
  state : Nat := 0
  /-- Medium on which it is joined: 0 none, 1 line, 2 air, 3 loop; and the lane or loop of that medium. -/
  medium : Nat := 0
  lane : Nat := 7
  /-- Negotiated version code. -/
  ver : Nat := 0
  canRepeat : Bool := false
  sleeps : Bool := false
  /-- Mode of the last link, and consecutive frames towards the next rung (R70). -/
  mode : Nat := 0
  good : Nat := 0
  rpt : Bool := false
  level : Nat := 0
  miss : Nat := 0
  routeAbs : Bool := false
  snrDn : Int := 0
  snrUp : Int := 0
  /-- Sweep time of the last valid frame, and the last accepted frame counter. -/
  heard : Nat := 0
  fcnt : Option Nat := none
  /-- SEQ of the last new exchange, and whether the response of `rspSeq` is to be acknowledged (R80). -/
  seq : Nat := 0
  ackDue : Bool := false
  /-- Readings of the last response that are not yet accepted, and the RSNs of accepted ones whose mirror the twin has
  not acknowledged (R80, R45, R329). -/
  waiting : List (Nat × Nat × Nat) := []
  unmirrored : List Nat := []
  /-- SEQ of the last response. -/
  rspSeq : Option Nat := none
  /-- Repeaters of its route, nearest the module first, and its cost in cycles. -/
  route : List Nat := []
  cost : Nat := 0
  /-- Cycle in which a route last used it as a repeater (R85). -/
  lastUsed : Nat := 0
  /-- Named by FORCE_SEARCH (R88). -/
  forced : Bool := false
  join : Option JoinAttempt := none
  /-- Cycle until which its JREQs are ignored after a failed proof (R82). -/
  ignoreUntil : Nat := 0
  /-- A session key is held. -/
  session : Bool := false
  /-- Records already taken: tag, channel index and interval, total or sample number (R80). -/
  seen : List (Nat × Nat × Nat) := []
  /-- Multicast group (R404). -/
  group : Option Nat := none
  /-- Air: rendezvous in force, the one an RDV record is to set, and the end of the lease in uptime units (R106). -/
  rdv : Nat × Nat × Nat := (0, 0, 0)
  rdvNext : Option (Nat × Nat × Nat) := none
  leaseEnd : Option Nat := none
  /-- Uptime of the last module frame that the node answered (R110). -/
  answered : Nat := 0
  /-- The session key, and whether the CMD that brings the group key is still to be the first one under it (R82, Table 14.6). -/
  key : Nat := 0
  gkeyDue : Bool := false
  /-- Session key index, and a rekey under way: its start cycle, the next key, and the last counter accepted under that (R104). -/
  keyIdx : Nat := 1
  rekey : Option Nat := none
  nextKey : Nat := 0
  fcntNext : Option Nat := none
  /-- Cycle until which the old key is still accepted. -/
  oldKeyUntil : Option Nat := none
  /-- Loop: address and declared latency in µs. -/
  addr : Nat := 0
  latency : Nat := 0
  deriving DecidableEq, Repr

/-- A frame to the node under a SEQ acknowledges the response of the SEQ before it (R80). -/
def Node.acks (n : Node) (seq : Nat) : Bool := n.ackDue && n.rspSeq == some ((seq + 255) % 256)

/-- A SEQ goes out to the node: that of a new exchange is its last one from now on, a retry's is not (R80, R102). -/
def Node.drawn (n : Node) (seq : Nat) : Node := if seq = (n.seq + 1) % 256 then { n with seq := seq } else n

/-- A secured KFP record that is not yet acknowledged (R269). -/
structure TxRecord where
  seq : Nat
  ftype : Nat
  body : List Byte
  retx : Nat := 0
  /-- Uptime at which it was sent last, and the datagram, which is sent again as it is (R269). -/
  sentAt : Nat := 0
  octets : List Byte := []
  deriving DecidableEq, Repr

/-- A FWD record that a hub has not acknowledged yet (R278): its SEQ, its readings that are not accepted, and the RSNs under
which the accepted ones stand. -/
structure FwdRecord where
  seq : Nat
  left : Nat
  rsns : List Nat := []
  deriving DecidableEq, Repr

/-- A KFP session (R267 to R275). -/
structure Session where
  /-- Peer index of Table 13.10. -/
  peer : Nat
  version : Nat
  /-- The session is open; before that it is in its handshake. -/
  isOpen : Bool := false
  /-- This module started the handshake. -/
  initiator : Bool := false
  /-- A newer session of the same peer has taken over (R272). -/
  old : Bool := false
  /-- The highest SEQ accepted plus one, and the accepted SEQs of the last 1,024 (R268). -/
  rxTop : Nat := 0
  rxSeen : List Nat := []
  unacked : List TxRecord := []
  /-- REGRSP of the last 64 REG records, newest first (R275). -/
  cache : List (Nat × List Byte) := []
  /-- The type and octets of a message whose last record has not come (R267). -/
  part : Option (Nat × List Byte) := none
  /-- Cycle of the last valid record, and of the last record sent. -/
  lastRx : Nat := 0
  lastTx : Nat := 0
  /-- FWD records received and not acknowledged yet. -/
  fwds : List FwdRecord := []
  /-- Records that wait for a reservation of the session's SEQ block (R300): type and body. -/
  held : List (Nat × List Byte) := []
  /-- The last handshake message sent with its type, how often it was sent again, HELLO_I and the nonce behind it, the transcript T, the
  signature of HELLO_R, the peer's public key, and the session keys with their nonce fields (R270). -/
  sent : Nat × List Byte := (0, [])
  retx : Nat := 0
  /-- Uptime at which that message was sent last (R269). -/
  sentAt : Nat := 0
  hello : List Byte := []
  transcript : BitVec 512 := 0
  sig : List Byte := []
  peerKey : List Byte := []
  keys : List Byte := []
  /-- The instant, in uptime units, at which a newer session took over (R272). -/
  oldAt : Nat := 0
  /-- Forwarding: the last RSN sent, the next cycle whose entry is to be sent, and the FWD messages not yet acknowledged as first SEQ,
  last SEQ and last RSN (R277, R278). -/
  fwdAt : Nat := 0
  perAt : Nat := 0
  spans : List (Nat × Nat × Nat) := []
  /-- The PER messages not yet acknowledged, as first SEQ, last SEQ and the cycle after their last entry, and the SEG message under way with
  the first cycle of its segment (R277). -/
  perSpans : List (Nat × Nat × Nat) := []
  segSpan : Option (Nat × Nat × Nat) := none
  /-- The pair identity that the peer has named in its handshake (R273, Table 13.4). -/
  pair : Nat := 0
  /-- The session ID that the responder has chosen, where that is the peer (Table 13.2). -/
  sess : Nat := 0
  deriving DecidableEq, Repr

end Sys2Proof.Machine
end

