-- ==== Sys2Proof/Syntax.lean ====
section
/-!
DEFINITION. The commands of the KVZ-4811 block: one constructor of Instr for each row of spec/opcode_table.json,
with the operands that the spec's rules give the step. Operands that describe the outside world (what a detector,
a wire, an engine or a verification delivered) are plain data of the command (log 4).
-/

namespace Sys2Proof

/-- The access path of a register access (R276, Table 23.5): PCI Express, the service port, or the KFP tunnel of a
session of a peer index. -/
inductive Path where
  | pcie
  | svc
  | kfp (peer : BitVec 9) (sess : Nat)
  deriving DecidableEq, Repr

/-- A mains phase. -/
inductive Phase where
  | l1 | l2 | l3
  deriving DecidableEq, Repr

/-- What accompanies a detected crossing: the interval since the last crossing that counts on the same phase
(R442), the PTP counter at the instant, both in units of 125 ps, and T_out in ticks of 32.768 kHz (R27). -/
structure CrossingInput where
  ival : Nat
  cap : Nat
  tOut : Nat
  deriving DecidableEq, Repr

/-- An AES key length, and the operations of an AES job with their lengths in bytes; for key wrap and unwrap the number of 64-bit
blocks of the key data (R314). -/
inductive AesKey where
  | k128 | k192 | k256
  deriving DecidableEq, Repr
inductive AesJob where
  | ctr (p : Nat)
  | gcm (a p : Nat)
  | ccm (a p : Nat)
  | cmac (m : Nat)
  | wrap (n : Nat)
  deriving DecidableEq, Repr

/-- A firmware job on an engine (R312): on AES0 or AES1 with whether the previous job used the same key and the bytes of decrypted
output that it releases, a number of Keccak permutations on HASH, or an operation of the PQC engine (R324). -/
inductive EngineJob where
  | aes (second : Bool) (key : AesKey) (sameKey : Bool) (job : AesJob) (release : Nat)
  | hash (perms : Nat)
  | sign | verify | encaps | decaps
  deriving DecidableEq, Repr

/-- What work needs of the module's own units (R38): stripe programs of the ledger (R242), flow points of an FCA lane (R163), an engine
job, a frame on ETH0 or ETH1 (R260), and ticks of the control cores or of PCI Express (log 36). -/
inductive Need where
  | programs (n : Nat)
  | points (lane : Fin 16) (n : Nat)
  | engine (job : EngineJob)
  | frame (second : Bool) (octets : Nat)
  | cores (ticks : Nat)
  | pcie (ticks : Nat)
  deriving DecidableEq, Repr

/-- What an exchange is started for (R76, R109, R133): an admitted obligation by its ID; a poll that the firmware's poll
schedule creates as a CUSTODY obligation with a deadline (R37), with the octets of records that its response is expected to carry
(log 39) and what it needs beside its lane (log 36); or firmware records in capacity admitted to no one. -/
inductive Work where
  | obligation (id : Nat)
  | poll (node deadline up : Nat) (units : List Need)
  | spare (node : Nat)
  deriving DecidableEq, Repr

/-- A balance parameter: the insulation coefficient of a class, an ambient temperature, a correlation coefficient
(Table 10.13). -/
inductive BalanceParam where
  | insulation
  | ambient (j : Fin 4)
  | correlation
  deriving DecidableEq, Repr

/-- What a read of a flash stripe finds (R250, R254, R255): the highest number of bit errors corrected in a codeword
and how many codewords were corrected, a page rebuilt from parity, or the dies whose pages cannot be rebuilt. -/
inductive StripeRead where
  | corrected (n words : Nat)
  | rebuilt
  | failed (die : Fin 8)
  | lost (dies : BitVec 8) (supplied : List (BitVec 64))
  deriving DecidableEq, Repr

/-- An error in a word of the DRAM (R233): corrected, or uncorrectable in one copy of a charged record or elsewhere. -/
inductive DramError where
  | corrected
  | charged
  | elsewhere
  deriving DecidableEq, Repr

/-- The symbols of a line frame as the FFT gives them (R60, R63): the SNR weight of each carrier, measured on the preamble; the
carrier phases of the last preamble symbol; and those of the header symbols and of the payload symbols. Phases are in 1/65536 of a
turn. -/
structure LineSymbols where
  weights : List Nat
  reference : List Nat
  header : List (List Nat)
  body : List (List Nat)
  deriving DecidableEq, Repr

/-- A line frame at the receiver (R60 to R67), at the end of which the command comes: the 32-bit header, the preamble SNR in 0.25 dB,
for each payload symbol its samples and its SNR, the payload octets, the check received behind them, and whether the KLP MIC
verifies under the counter of R79. `ago` is how many cycles before the present one the frame began, `search` holds the samples of
preamble search, `head` those of each header symbol, and where `raw` gives the symbols, header, payload and check are decoded from
them. `found` is false where the search has ended without a frame: only its samples have passed the receiver then (R65). -/
structure LineRx where
  header : BitVec 32
  snr : Int
  syms : List (List Int × Int)
  payload : List Byte
  check : BitVec 16
  micOk : Bool
  ago : Nat := 0
  search : List Int := []
  head : List (List Int) := []
  found : Bool := true
  raw : Option LineSymbols := none
  deriving DecidableEq, Repr

/-- A join request (Tables 4.2 and 5.5): the medium, 1 line and 2 air, and the lane on which it came; its serial, range
octet, capabilities and nonce; the repeaters through which it came, nearest the module first; and the PAN identifier of an air frame
(R99). -/
structure JoinRequest where
  medium : Nat
  lane : Nat
  serial : Nat
  range : Nat
  caps : Nat
  nonce : Nat
  via : List Nat
  pan : Nat := 0
  deriving DecidableEq, Repr

/-- A pilot symbol at the receiver (R91, R93): its normalised correlation in 1/256, the rotation of its lower sub-band
in π/8, and whether its upper sub-band carries a failure report. -/
structure PilotRx where
  corr : Nat
  rot : Nat
  fail : Bool
  deriving DecidableEq, Repr

/-- An air frame at the receiver (R95, R99, R100, R103): its level in 0.25 dBm; the PHR and MAC options it uses, a mode switch among them; the
source, as a short address or by extended address; its security level, key index and counter and whether its MIC verifies;
its MAC sequence number; the sweep time of its first preamble octet; the KAP payload in plain; its PAN identifier; and its key identifier
mode and whether its frame counter is suppressed. -/
structure AirRx where
  rssi : Int
  fec : Bool
  shortFcs : Bool
  modeSwitch : Bool := false
  fcsOk : Bool
  version : Nat
  macType : Nat
  short : Option (BitVec 13)
  ext : Nat
  level : Nat
  keyIdx : Nat
  counter : Nat
  micOk : Bool
  macSeq : Nat
  start : Nat
  kap : List Byte
  pan : Nat
  keyMode : Nat := 1
  noCounter : Bool := false
  deriving DecidableEq, Repr

/-- The commanded sample schedule of a stream (R131): sample n falls at EFF + SOFS + n × SINT : SANG. -/
structure StreamSched where
  sint : Nat
  sofs : Nat
  sang : Nat
  eff : Nat
  deriving DecidableEq, Repr

/-- An item that the STANDBY twin receives over the Pairs link (Table 16.2): a journal record under its ACTIVE RSN; the entries
of the tables that are mirrored, whole; the counter reserve blocks of a key; the outcome of an obligation; the sweep time of
a channel's last evaluated point; the end of the working state that opens a sync (R331). -/
inductive MirrorItem where
  | record (rsn cls leaf leafRsn : Nat) (payload : List Byte)
  | channel (ch : Nat) (b : Machine.BillChan)
  | program (n : Nat) (x : Machine.Program)
  | account (n : Nat) (x : Machine.Account)
  | instant (id : Nat) (x : Option Machine.Instant)
  | session (sid : Nat) (x : Machine.Session)
  | obligation (idx : Nat) (o : Machine.Obligation)
  | outcome (idx place : Nat) (e : Machine.OutcomeEntry)
  | node (id : Nat) (n : Machine.Node)
  | key (key : Nat) (blocks : Nat)
  | evaluated (ch at' : Nat)
  deriving DecidableEq, Repr

/-- What a HELLO of the Pairs link carries (R327): the versions offered, serial, role, band plan, air region, pair identity, epoch,
PREFER, whether the twin is in custody service, whether it holds a persisted pairing with this identity, its cycle count, and,
from a twin that becomes STANDBY, the last RSN it holds and whether the record has the hash that this twin holds (R331), and
its records above it that were acknowledged (R332). `authentic` is false where the frame fails authentication, and `drivesFirst`
tells that the twin's fence output was driving before this one's. -/
structure PairHello where
  lo : Nat
  hi : Nat
  serial : BitVec 128
  role : Nat
  plan : Nat
  region : Nat
  pairId : BitVec 128
  epoch : Nat
  prefer : Bool
  inService : Bool
  persisted : Bool
  drivesFirst : Bool
  cycle : Nat
  lastRsn : Nat
  sameHash : Bool
  divergent : List (Nat × Nat × List Byte)
  authentic : Bool
  deriving DecidableEq, Repr

/-- A link heartbeat as received (Table 16.4). -/
structure Heartbeat where
  version : Nat
  state : Nat
  flags : Nat
  epoch : Nat
  time : Nat
  rsn : Nat
  units : Nat
  h : Nat
  pairId : BitVec 128
  authentic : Bool
  deriving DecidableEq, Repr

/-- A secured KFP record as received (R267, R268): the session by its number, the epoch and SEQ of its header, the MORE flag,
whether its tag verifies, and its body in plain. -/
structure KfpRx where
  sid : Nat
  /-- SESS as the header carries it. -/
  sess : BitVec 32 := 0
  epoch : Nat
  seq : Nat
  more : Bool
  tagOk : Bool
  body : List Byte
  deriving DecidableEq, Repr

/-- What a PTP message says (Table 13.1), its times in units of 125 ps: an Announce with the grandmaster's identity, currentUtcOffset, whether
the timescale is PTP, and its interval in ms; a Sync, with its Follow_Up where the master is two-step, with the master's time and the MAC
timestamp of its receipt; a Delay_Resp with the MAC timestamp of the Delay_Req and the master's time of its receipt; a Pdelay_Req; the
answer to a Pdelay_Req with the MAC timestamp of the request, the peer's two times, and the MAC timestamp of the answer; a management
message. -/
inductive PtpMsg where
  | announce (gm : BitVec 64) (utc : BitVec 16) (ptpScale : Bool) (interval : Nat)
  | sync (origin mac : Nat)
  | delayResp (mac received : Nat)
  | pdelayReq
  | pdelayResp (mac received sent back : Nat)
  | management
  deriving DecidableEq, Repr

/-- A PTP message as received (R261, R262): the port, ETH0 or ETH1; its domain and its transport, 0 UDP over IPv4, 1 UDP over IPv6, 2 IEEE
802.3; what it says; and the state of Table 13.8 that the IEEE 1588 state machine then has, from LISTENING to FAULTY. -/
structure PtpRx where
  port : Fin 2
  domain : BitVec 8
  transport : Fin 3
  msg : PtpMsg
  state : Fin 6
  deriving DecidableEq, Repr

/-- A microSD card as initialisation finds it (R395): SDHC 1, SDXC 2, or an unsupported type 3; the bus mode, 0 default speed, 1
high speed, 2 SDR50; whether initialisation succeeded; and the files of the directory KVZ4811 as name and content. -/
structure CardRx where
  kind : Nat
  mode : Nat
  ok : Bool
  files : List (List Byte × List Byte)
  deriving DecidableEq, Repr

/-- A transaction on the service port (R284): the target address that it names; the pointer it writes, if it writes one, as page and offset; the words it writes;
how many it reads, and the bytes that came while the port was busy. -/
structure SvcRx where
  addr : BitVec 7
  pointer : Option (BitVec 8 × BitVec 12)
  words : List Word
  reads : Nat
  naks : Nat
  deriving DecidableEq, Repr

/-- What the start-up test finds of a block (R374, R375): its last signature, and whether it is UNUSABLE. -/
structure BlockTest where
  blk : Nat
  sig : BitVec 64
  bad : Bool
  deriving DecidableEq, Repr

/-- A start-up step (Table 18.1) with what its work finds outside the block: 2 the card in the slot, once initialised; 5 the duration in ms,
the tests of the blocks, and the Lift queues whose memory failed; 6 the capacitance in µF and the cell voltage in mV; 7 whether the
superblock table and a map checkpoint can be read, and whether the SHUTDOWN commit is discarded (R257); 8 whether the link trained;
4 whether Keeper NV holds the owner root intact; 10 the ms since mains-on. -/
inductive StartStep where
  | supply
  | boot (card : Option CardRx)
  | sweep
  | keeper (intact : Bool)
  | selfTest (ms : Nat) (blocks : List BlockTest) (queues : List (Fin 32))
  | bank (cMeas vCell : BitVec 16)
  | mount (readable : Bool) (stop : Option (BitVec 64)) (reads : List (BitVec 19 × StripeRead))
  | pairing (link : Bool)
  | catchUp
  | fieldStart (ms : Nat)
  deriving DecidableEq, Repr

/-- How an in-service slice ends (R379, R380): with its reference signature, with another one, revoked, or cut short. -/
inductive SliceEnd where
  | pass | differs (queues : List (Fin 32)) | revoked | cut
  deriving DecidableEq, Repr

/-- The commands of the block, one constructor for each row of spec/opcode_table.json. `t` is the angle within the
current cycle at which the command takes effect, `p` the access path of a host access and `v` the value written. -/
inductive Instr where
  /-- CROSSING_DETECTED (R442): A zero-crossing detector reports a crossing on one phase; the timebase tests its window and frequency and accepts or rejects it. -/
  | crossingDetected (t : Angle) (phase : Phase) (w : CrossingInput)
  /-- CROSSING_MISS (R22): A predicted crossing of the tracked phase passes with no accepted crossing, and the timebase coasts at the last measured period. -/
  | crossingMiss (t : Angle) (phase : Phase)
  /-- CYCLE_START (R25): At each angle-0 tick the PTP counter is captured, the period entry is written, and the VIGIL counter and cycle stamp are latched. -/
  | cycleStart (cap vigil : Nat) (busy : BitVec 25)
  /-- SWEEP_NOW_READ (R17): A read of SWEEP.NOW_LO returns bits 31:0 and latches bits 63:32 for NOW_HI on that access path. -/
  | sweepNowRead (t : Angle) (p : Path)
  /-- LATCHING_READ (R276): A read of a low word that latches its high word (CAP_CYC, RG_LO, AC_BAL_LO, CSN_LO, RSN_LO, BNUM_LO, SIG_LO, FP_LO) latches it for that access path. -/
  | latchingRead (t : Angle) (p : Path) (page : BitVec 8) (off : BitVec 12) (whole : Bool)
  /-- PREC_DATA_READ (R26): A read of SWEEP.PREC_DATA returns the period entry of the cursor's cycle, or zero, and advances the cursor. -/
  | precDataRead (t : Angle) (p : Path)
  /-- ZCOMMIT (R30): A write of 1 to SWEEP.ZCOMMIT commits the zone-rule schedule and ZVALID together, or refuses an unordered schedule. -/
  | zcommit (t : Angle) (p : Path) (v : Word)
  /-- INSTANT_PIN (R32): Eight cycles before the predicted sweep time of a requested civil instant, the instant is pinned once and for all. -/
  | instantPin (t : Angle) (id : Nat)
  /-- SCHED_SHORT (R34): ZVALID comes to lie less than 48 hours ahead, so SCHED_SHORT becomes 1 and event 4 fires. -/
  | schedShort (t : Angle)
  /-- MARK_AT_HI_WRITE (R36): A write of MARKn.AT_HI commits the staged target of the mark. -/
  | markAtHiWrite (t : Angle) (p : Path) (n : Fin 16) (v : Word)
  /-- MARK_FIRED (R35): A SWEEP mark reaches its target tick, or is armed late or into GAP cycles, and fires, flagged LATE where so. -/
  | markFired (t : Angle) (n : Fin 16)
  /-- REQ_GO (R41): A write of SLALOM.REQ_GO runs the admission test on the staged request and writes the response. -/
  | reqGo (t : Angle) (p : Path) (v : Word) (img : List Byte)
  /-- CANCEL (R53): A write of SLALOM.CANCEL ends the named host obligation CANCELLED and releases its remaining work. -/
  | cancel (t : Angle) (p : Path) (v : Word)
  /-- HWM_CLR (R41): A write of 1 to CAL_HWM.HWM_CLR sets HWM to CAL_USED. -/
  | hwmClr (t : Angle) (p : Path) (v : Word)
  /-- RECOMPUTE_END (R49): A recomputation ends within 2 cycles, revoking obligations that no longer fit, in victim order. -/
  | recomputeEnd (t : Angle)
  /-- OBLIGATION_DEADLINE (R39): An obligation reaches its deadline without an outcome and ends UNDELIVERABLE-ABSENT or is revoked OVERRUN. -/
  | obligationDeadline (t : Angle) (id : Nat)
  /-- SUPPLY_MEASURE (R343): At each quarter-cycle angle the supply monitor measures the bank and computes E_USABLE and COVER_HOLD. -/
  | supplyMeasure (t : Angle) (v vin1 vin2 : BitVec 16)
  /-- COVER_WAIT_EXPIRY (R45): A reading that has waited COVER_WAIT cycles is discarded unacknowledged and counted in COVER_DROP. -/
  | coverWaitExpiry (t : Angle)
  /-- BOUNDARY_PREBUILD (R46): One poll slot before a boundary, its record is built and its cost pre-reserved ahead of readings. -/
  | boundaryPrebuild (t : Angle) (prog : BitVec 6)
  /-- BOUNDARY_RESERVATION (R46): A waiting boundary pre-reservation is made once commits release enough energy, and a boundary past its S is then processed. -/
  | boundaryReservation (t : Angle)
  /-- PLAN_WRITE (R57): A write of LINEC.BANDCFG.PLAN takes effect only while all LINE lanes are disabled, and then triggers a recomputation. -/
  | planWrite (t : Angle) (p : Path) (v : Word)
  /-- EXCHANGE_START (R76): At its scheduled poll slot, the module starts an exchange on a line lane, moving it later if a sister lane would conflict. -/
  | exchangeStart (t : Angle) (lane : Fin 6) (w : Work)
  /-- LINE_FRAME_RECEIVED (R61): A line frame is received, blanked and decoded, and its header and payload checks pass or discard it. -/
  | lineFrameReceived (t : Angle) (lane : Fin 6) (start : Angle) (rx : LineRx)
  /-- DRIVER_TEMPERATURE (R72): A line driver temperature crosses 125 °C or 140 °C, derating the phase or stopping it and losing its lanes. -/
  | driverTemperature (t : Angle) (phase : Phase) (temp : BitVec 8) (clipLower clipUpper : Nat)
  /-- PHASE_RESUME (R72): A stopped phase resumes after its driver has stayed below 115 °C for 3,000 cycles. -/
  | phaseResume (t : Angle) (phase : Phase)
  /-- BEACON (R81): At each multiple of BCN_INT the module starts a line beacon at DBPSK ×4 and holds the beacon and join spans. -/
  | beacon (t : Angle) (lane : Fin 6)
  /-- REPEATER_DEMOTE (R85): A repeater unused by any route for DEMOTE_CYC cycles receives ROLE 0. -/
  | repeaterDemote (t : Angle) (node : BitVec 13)
  /-- JREQ (R82): A JREQ is received; for a provisioned serial the module answers with JACC and the record enters JOINING. -/
  | jreq (t : Angle) (j : JoinRequest)
  /-- JCONF (R82): A JCONF is received and its presence proof checked; on success the node becomes ACTIVE with a new session. -/
  | jconf (t : Angle) (node : BitVec 13) (resp : BitVec 128) (nonce : BitVec 64)
  /-- JOIN_TIMEOUT (R82): No JCONF arrives within 2 × BCN_INT cycles of the JACC, so the record returns to its previous state. -/
  | joinTimeout (t : Angle) (node : BitVec 13)
  /-- DATA_RESPONSE (R80): A DATA response is received; its records are parsed, duplicates discarded, and readings offered for acceptance. -/
  | dataResponse (t : Angle) (r : Fin 16) (node : BitVec 13) (seq : BitVec 8) (records : List Byte) (scheds : List (Nat × StreamSched))
  /-- CACK_RESPONSE (R37): A CACK is received and completes the COMMAND obligation it answers, or counts in CANCEL_LATE. -/
  | cackResponse (t : Angle) (r : Fin 16) (node : BitVec 13) (seq : BitVec 8) (records : List Byte)
  /-- RFAIL (R86): An RFAIL from a repeater names the hop that did not answer and the miss counts against that node. -/
  | rfail (t : Angle) (lane : Fin 6) (failed : BitVec 13)
  /-- EXCHANGE_MISS (R87): The frame due from a node does not arrive valid in time, counting a miss and scheduling a retry or failure. -/
  | exchangeMiss (t : Angle) (r : Fin 16)
  /-- SEARCH_WINDOW (R88): Each SEARCH_INT cycles a line lane holds a search window and polls one ABSENT node behind a long preamble. -/
  | searchWindow (t : Angle) (lane : Fin 6)
  /-- PILOT_WINDOW (R91): In each cycle the pilot window passes; the twins send their pilot symbols and the result for the cycle goes to Pairs. -/
  | pilotWindow (t : Angle) (rx : Option PilotRx)
  /-- PILOT_CONFIG_WRITE (R92): A write of PILOT_PH or FSA is refused with cause pilot if a frame's first symbol would overlap a pilot window. -/
  | pilotConfigWrite (t : Angle) (p : Path) (reg : Fin 4) (v : Word)
  /-- BEACON_CONFIG_WRITE (R88): A write of BCNCFG or LONGPRE takes effect only under R57 and is discarded if a search window would no longer fit. -/
  | beaconConfigWrite (t : Angle) (p : Path) (reg : Fin 3) (v : Word)
  /-- NODE_PROVISION (R82): NODE_CTL.CMD = PROVISION puts a FREE node record into PROVISIONED, refusing a duplicate serial. -/
  | nodeProvision (t : Angle) (p : Path) (v : Word)
  /-- NODE_BAR (R82): NODE_CTL.CMD = BAR bars a node, refused while an admitted obligation targets it. -/
  | nodeBar (t : Angle) (p : Path) (v : Word)
  /-- NODE_RELEASE (R82): NODE_CTL.CMD = RELEASE returns a PROVISIONED or BARRED record to FREE. -/
  | nodeRelease (t : Angle) (p : Path) (v : Word)
  /-- FORCE_SEARCH (R88): NODE_CTL.CMD = FORCE_SEARCH makes an ABSENT node the first served by the next search window. -/
  | forceSearch (t : Angle) (p : Path) (v : Word)
  /-- REGION_WRITE (R94): A write of AIRC.REGCFG.REGION takes effect only while both air lanes are disabled, and triggers a recomputation. -/
  | regionWrite (t : Angle) (p : Path) (v : Word)
  /-- CHAN_WRITE (R96): A write of AIRn.CHAN is refused for an unusable channel, one within 1 MHz of the other lane, or an enabled lane. -/
  | chanWrite (t : Angle) (p : Path) (lane : Fin 2) (v : Word)
  /-- HOP_CONFIG_WRITE (R98): A write of US_MASK or HOP_MUL is refused if it leaves too few channels or a multiplier sharing a factor with N. -/
  | hopConfigWrite (t : Angle) (p : Path) (reg : Fin 6) (v : Word)
  /-- HOP_SLOT_START (R98): Under US915 a new hop slot begins and each lane moves to its hopping channel. -/
  | hopSlotStart (t : Angle)
  /-- AIR_FRAME_RECEIVED (R103): An air frame is received and checked for supported options, security level, counter and MIC before dispatch by KAP type. -/
  | airFrameReceived (t : Angle) (lane : Fin 2) (rx : AirRx)
  /-- AIR_BEACON (R108): At each multiple of BCN_INT an air beacon is sent at angle 0 if the duty budget permits, or skipped. -/
  | airBeacon (t : Angle) (lane : Fin 2)
  /-- RENDEZVOUS (R109): A node's rendezvous arrives and the module sends POLL or CMD, or a keep-alive POLL, within the guard and budget. -/
  | rendezvous (t : Angle) (lane : Fin 2) (node : BitVec 13) (w : Option Work)
  /-- REJOIN (R107): A REJOIN under a running lease is verified and answered with RJACC, returning the node to ACTIVE. -/
  | rejoin (t : Angle) (lane : Fin 2) (node : BitVec 13) (pan : BitVec 16) (counter : BitVec 32) (micOk : Bool) (off : Nat)
  /-- SEEK (R112): A valid SEEK is answered with SYNC 1 ms after it ends. -/
  | seek (t : Angle) (lane : Fin 2) (source : BitVec 64) (pan : BitVec 16)
  /-- AIR_SEARCH_WINDOW (R112): Each SEARCH_INT cycles an air lane listens on its anchor channel for SRCH_LEN cycles, sending only beacons and SYNC. -/
  | airSearchWindow (t : Angle) (lane : Fin 2)
  /-- LEASE_EXPIRY (R106): A node's short-address lease expires and the node must send a full JREQ before other frames are accepted. -/
  | leaseExpiry (t : Angle) (node : BitVec 13)
  /-- REKEY_TIMEOUT (R104): The old session key stops being accepted 2 × BCN_INT cycles after a rekey, leaving an unfinished rekey node ABSENT. -/
  | rekeyTimeout (t : Angle) (node : BitVec 13)
  /-- BUDGET_BIN_EXPIRY (R114): A one-second duty bin leaves the rolling window, freeing budget and clearing COLD when the last preloaded bin expires. -/
  | budgetBinExpiry (t : Angle)
  /-- LOOP_SRC_EN (R126): A write of LOOPn.SUPCFG.SRC_EN requests or removes the loop source, starting sensing when permitted. -/
  | loopSrcEn (t : Angle) (p : Path) (n : Fin 4) (v : Word)
  /-- LOOP_SENSE_END (R125): A 1 ms sensing period ends; below 2.0 V the source enables, otherwise CONFLICT is set and sensing repeats. -/
  | loopSenseEnd (t : Angle) (n : Fin 4) (mv : Nat)
  /-- LOOP_MEASURE (R124): Every 1 ms the port measures terminal voltage and loop current and updates the UV and EARTH monitors. -/
  | loopMeasure (t : Angle) (n : Fin 4) (mv : BitVec 16) (ma10 : BitVec 16) (kohm : Nat)
  /-- LOOP_TRIP_RETRY (R124): 250 cycles after a trip the port tries to enable again by sensing. -/
  | loopTripRetry (t : Angle) (n : Fin 4)
  /-- LOOP_RESTORE (R124): A write of LOOPn.RESTORE leaves LOCKOUT and starts sensing. -/
  | loopRestore (t : Angle) (p : Path) (n : Fin 4) (v : Word)
  /-- LOOP_DWELL_END (R127): 5 ms after a takeover twin asserts the fence, its loop ports begin sensing. -/
  | loopDwellEnd (t : Angle)
  /-- LOOP_SYNC (R132): At angle SYNC_ANG of every cycle an enabled loop sends a SYNC frame. -/
  | loopSync (t : Angle) (n : Fin 4)
  /-- LOOP_EXCHANGE_START (R133): At its scheduled time the module sends a POLL or CMD on a loop and awaits the response after TURN. -/
  | loopExchangeStart (t : Angle) (n : Fin 4) (w : Work)
  /-- LOOP_FRAME_RECEIVED (R130): A KLL frame is received and checked by CRC and header before dispatch. -/
  | loopFrameReceived (t : Angle) (n : Fin 4) (octets : List Byte) (check : BitVec 16)
  /-- IDENT (R135): Each IDENT_INT cycles, and after each enabling, an IDENT goes to every valid address whose node is not ACTIVE. -/
  | ident (t : Angle) (n : Fin 4) (m : Fin 8)
  /-- IDRSP (R135): An IDRSP is checked; with a valid proof the node becomes ACTIVE on the loop and receives SCHED records. -/
  | idrsp (t : Angle) (n : Fin 4) (m : Fin 8) (serial range latency resp : Nat) (scheds : List (Nat × StreamSched))
  /-- PACKET_OFFER (R139): A MEDIA or FEED producer offers a packet to a Lift queue; it is opened if space and Q_EN allow, or waits. -/
  | packetOffer (t : Angle) (feed : Bool)
  /-- PACKET_RESUME (R139): A waiting packet is written once space is released or Q_EN is set, in arrival order. -/
  | packetResume (t : Angle) (q : Fin 32)
  /-- HOST_INTAKE_WORD (R282): The host writes a header or data word to a queue's intake window; the word is taken, opens a packet or is discarded. -/
  | hostIntakeWord (t : Angle) (q : Fin 32) (index : Fin 2048) (w : BitVec 128)
  /-- WM_CAUSE_CLEAR (R143): Writing 1 to a queue's WM cause clears it with PEAK and WMAT, setting again at once if LEVEL is above the mark. -/
  | wmCauseClear (t : Angle) (p : Path) (g : Fin 4) (v : Word)
  /-- LIFT_WORD_READ (R140): An FCA lane reads the word at R with its tag and advances R, moving K at the end of a packet. -/
  | liftWordRead (t : Angle) (q : Fin 32)
  /-- LIFT_LANE_WRITE (R140): A write of QCFG.LANE takes effect at the next header word. -/
  | liftLaneWrite (t : Angle) (p : Path) (q : Fin 32) (v : Word)
  /-- PEEK_READ (R140): A read of LIFTg.PEEK_TAG latches the word at R into PEEK_D0 to D3 without moving R. -/
  | peekRead (t : Angle) (p : Path) (g : Fin 4)
  /-- FLUSH (R142): A write of FLUSH.GO empties a queue at once or waits for the open packet to end. -/
  | flush (t : Angle) (p : Path) (q : Fin 32) (v : Word)
  /-- FLUSH_TIMEOUT (R142): Two cycles after FLUSH.GO with the packet still open, the words are discarded and an abort word is published. -/
  | flushTimeout (t : Angle) (q : Fin 32)
  /-- FLOW_POINT_WAIT_EXPIRY (R169): WAIT_CYC cycles after a point's instant without all secondary samples, the point is evaluated with what is staged. -/
  | flowPointWaitExpiry (t : Angle) (ch : BitVec 20)
  /-- LANE_MODE_WRITE (R164): A write of LCFG.MODE changes the lane's mode, or is refused while points are staged or if the remaining lanes cannot carry its work. -/
  | laneModeWrite (t : Angle) (p : Path) (lane : Fin 16) (v : Word)
  /-- FCA_LANE_LOST (R165): An FCA lane detects an internal fault and is lost; its descriptors are re-homed and its queues' packets redelivered. -/
  | fcaLaneLost (t : Angle) (lane : Fin 16)
  /-- DESC_COMMIT (R166): DW_CMD.CMD = COMMIT checks the staged descriptor and journals it or refuses it with a code. -/
  | descCommit (t : Angle) (p : Path) (v : Word)
  /-- DESC_READ (R166): DW_CMD.CMD = READ loads DW_D0 to D15 with the descriptor in force, else the earliest pending one, else zeros. -/
  | descRead (t : Angle) (p : Path) (v : Word)
  /-- DESC_RETIRE (R166): DW_CMD.CMD = RETIRE ends a channel at the given EFF. -/
  | descRetire (t : Angle) (p : Path) (v : Word)
  /-- PB_SLOT_COMMIT (R167): A write of PB_HI commits a parameter block slot, refused if the block is fixed. -/
  | pbSlotCommit (t : Angle) (p : Path) (v : Word)
  /-- TK_ACK (R185): A write of TK_ACK retires every ready result slot up to the named SEQ. -/
  | tkAck (t : Angle) (p : Path) (lane : Fin 16) (v : Word)
  /-- RESULT_READ (R185): A read of a result slot's word at 0x18 marks it read, with REREAD set on later reads. -/
  | resultRead (t : Angle) (p : Path) (lane : Fin 16) (place : Option (Fin 256))
  /-- CLOSE_PUSH (R186): A write of CLOSE_HI pushes a boundary into a REDERIVE lane's close list. -/
  | closePush (t : Angle) (p : Path) (lane : Fin 16) (v : Word)
  /-- CLOSE_END (R186): A write of CLOSE_END closes every remaining boundary for every descriptor of the lane. -/
  | closeEnd (t : Angle) (p : Path) (lane : Fin 16) (v : Word)
  /-- GRAPH_COMMIT (R191): GCMD.CMD = COMMIT checks the graph image and journals it as the pending graph or refuses it. -/
  | graphCommit (t : Angle) (p : Path) (img : List Byte)
  /-- GRAPH_DROP (R191): GCMD.CMD = DROP discards the pending graph if no zone has changed over. -/
  | graphDrop (t : Angle) (p : Path)
  /-- ZONE_PARAM_COMMIT (R192): A write of ZP_HI commits a zone parameter slot if in range, or discards it with cause value. -/
  | zoneParamCommit (t : Angle) (p : Path) (v : Word)
  /-- BALANCE_PARAM_COMMIT (R195): A write of IC_HI, a TAMB high word or CG_HI commits an insulation, ambient or correlation value, or discards it. -/
  | balanceParamCommit (t : Angle) (p : Path) (which : BalanceParam) (v : Word)
  /-- WINDOW_EVALUATE (R194): WAIT cycles after a window ends, each zone's imbalance, uncertainty and detectors are evaluated and the record written. -/
  | windowEvaluate (t : Angle) (zone : BitVec 12)
  /-- ZONE_RESTART (R202): A write of ZRESET.RESTART restarts the zone in warm-up and clears its active alarms. -/
  | zoneRestart (t : Angle) (p : Path) (v : Word)
  /-- CHANNEL_TABLE_WRITE (R208): CT_CMD.CMD = WRITE writes a channel-table entry, or refuses it with a code. -/
  | channelTableWrite (t : Angle) (p : Path)
  /-- CHANNEL_TABLE_READ (R208): CT_CMD.CMD = READ loads the channel-table window with the entry of CT_CH. -/
  | channelTableRead (t : Angle) (p : Path)
  /-- CHANNEL_TABLE_INVALIDATE (R208): CT_CMD.CMD = INVALIDATE ends billing of the channel. -/
  | channelTableInvalidate (t : Angle) (p : Path)
  /-- INTERVAL_CLOSE (R212): A pinned interval boundary closes a channel's open interval and writes its interval record and CLOSE state. -/
  | intervalClose (t : Angle)
  /-- PROGRAM_COMMIT (R213): PCMD.CMD = COMMIT checks a tariff program image and makes it the pending generation or refuses it. -/
  | programCommit (t : Angle) (p : Path) (img : List Byte)
  /-- PROGRAM_WITHDRAW (R214): PCMD.CMD = WITHDRAW removes the pending generation of a program. -/
  | programWithdraw (t : Angle) (p : Path) (v : Word)
  /-- PERIOD_CLOSE_CMD (R214): PCMD.CMD = CLOSE places a PERIOD boundary at the first DEMAND boundary at least 2 cycles ahead. -/
  | periodCloseCmd (t : Angle) (p : Path) (v : Word)
  /-- BOUNDARY_PROCESS (R215): At a pinned S, the program's demand interval closes, the register switches, the period closes and the boundary record is journalled. -/
  | boundaryProcess (t : Angle)
  /-- PRICE_COMMIT (R224): A write of PR_EFF_HI commits an account's pending price table with its effective time. -/
  | priceCommit (t : Angle) (p : Path) (v : Word)
  /-- TOPUP (R224): A write of TOPUP_HI adds a signed amount to the balance, journalled as a CREDIT record. -/
  | topup (t : Angle) (p : Path) (v : Word)
  /-- ACCOUNT_LIMIT_COMMIT (R225): A write of AC_WARN_HI, AC_CUT_HI or AC_REST_HI commits the account's threshold. -/
  | accountLimitCommit (t : Angle) (p : Path) (limit : Fin 3) (v : Word)
  /-- MEMBER_COMMIT (R222): A write of MB_W commits an account member, or refuses it with cause member. -/
  | memberCommit (t : Angle) (p : Path) (v : Word)
  /-- INTERLOCK_ON (R226): ILk_CTL.CMD = ON, or an ON from the account or Slalom, pulses the output to ON after any running pulse. -/
  | interlockOn (t : Angle) (p : Path) (k : Fin 4) (v : Word)
  /-- INTERLOCK_OFF (R226): ILk_CTL.CMD = OFF pulses the output to OFF after any running pulse. -/
  | interlockOff (t : Angle) (p : Path) (k : Fin 4) (v : Word)
  /-- PULSE_END (R226): An interlock pulse of PULSE × 10 ms ends and the driver returns to high impedance. -/
  | pulseEnd (t : Angle) (k : Fin 4) (short : Bool)
  /-- FEEDBACK_WAIT_EXPIRY (R227): FB_WAIT cycles after a pulse without agreeing feedback, the output pulses again or enters FAULT. -/
  | feedbackWaitExpiry (t : Angle) (k : Fin 4)
  /-- FEEDBACK_CHANGE (R227): An interlock feedback input changes without a command and the output enters MISMATCH. -/
  | feedbackChange (t : Angle) (k : Fin 4) (level : Bool)
  /-- TAMPER_INPUT (R230): A tamper input changes after debounce, writing a log entry and setting LATCH on opening. -/
  | tamperInput (t : Angle) (input : Fin 3) (opened : Bool) (vigil : BitVec 48)
  /-- TAMPER_LATCH_CLEAR (R230): The host clears a tamper LATCH bit, which writes a log entry of its own. -/
  | tamperLatchClear (t : Angle) (p : Path) (v : Word) (vigil : BitVec 48)
  /-- TAMPER_LOG_CLEAR (R231): A write of LOG_CLR empties the tamper log and writes itself as entry 0. -/
  | tamperLogClear (t : Angle) (p : Path) (v : Word) (vigil : BitVec 48)
  /-- GROUP_CLOSE (R240): COMMIT_CYC cycles after its oldest record, or at a checkpoint or overflow, the commit group closes and its stripes are issued. -/
  | groupClose (t : Angle)
  /-- LEDG_SYNC (R240): A write of LEDG.SYNC closes the open commit group. -/
  | ledgSync (t : Angle) (p : Path) (v : Word)
  /-- STRIPE_PROGRAMMED (R239): A stripe reports program success and the group's last stripe may then be issued. -/
  | stripeProgrammed (t : Angle)
  /-- COMMIT_COMPLETE (R239): The last stripe of a group programs; map deltas apply, charged records are released, obligations end DONE and CSN advances. -/
  | commitComplete (t : Angle) (supplied : Bool)
  /-- PROGRAM_FAIL (R251): A stripe fails to program on a die; it is rewritten, the superblock closes and the block is later retired. -/
  | programFail (t : Angle) (die : Fin 8) (gc dead : Bool)
  /-- ERASE_FAIL (R252): A block fails to erase and is retired, its superblock formed again. -/
  | eraseFail (t : Angle) (sb : BitVec 11) (die : Fin 8) (dead : Bool)
  /-- DRAM_ERROR (R233): An uncorrectable DRAM error is repaired from a second copy, or raises DRAM and leads to a commit and restart. -/
  | dramError (t : Angle) (e : DramError)
  /-- GC_STEP (R247): While free superblocks are below GC_LOW, garbage collection copies a victim's valid pages into its stream. -/
  | gcStep (t : Angle) (reads : List (BitVec 19 × StripeRead))
  /-- REBUILD_STEP (R253): REBUILD relocates a superblock of the lost width into one of reduced width. -/
  | rebuildStep (t : Angle) (reads : List (BitVec 19 × StripeRead))
  /-- CHECKPOINT (R256): Every CKPT_CYC cycles the working state and map are written to the inactive areas. -/
  | checkpoint (t : Angle)
  /-- ARCHIVE_COMMIT (R243): A write of ARCH_HI records the archived RSN and releases pages at or below it. -/
  | archiveCommit (t : Angle) (p : Path) (v : Word)
  /-- LEDGER_READ (R235): A write of RD_GO delivers record frames from the named RSN into the read window. -/
  | ledgerRead (t : Angle) (p : Path) (v : Word) (reads : List (BitVec 19 × StripeRead))
  /-- GROOM_STEP (R255): The Groomer reads the next stripe of its pass in the background share and queues refreshes. -/
  | groomStep (t : Angle) (r : StripeRead)
  /-- GROOM_LATE (R255): A Groomer pass overruns DAYS days, continues, and is counted LATE. -/
  | groomLate (t : Angle)
  /-- ETH_FRAME_RECEIVED (R259): A frame arrives on an Ethernet port and goes to KFP, PTP, ARP/ND/echo or the host receive ring, or is dropped. -/
  | ethFrameReceived (t : Angle) (port : Fin 2) (bad : Bool) (frame : List Byte) (mac : Nat)
  /-- ETH_LINK_CHANGE (R260): An Ethernet port's link changes and KFP sessions move to the other port as a lane loss. -/
  | ethLinkChange (t : Angle) (port : Fin 2) (speed : Fin 3)
  /-- PTP_MESSAGE (R262): A PTP message updates the servo, which slews or steps the PTP counter. -/
  | ptpMessage (t : Angle) (m : PtpRx)
  /-- PTP_ANNOUNCE_TIMEOUT (R261): Three announce intervals without a valid Announce move PTP under AUTO to the other port. -/
  | ptpAnnounceTimeout (t : Angle)
  /-- HOST_TX (R283): The host advances HTX_WR and the module sends the frame, queueing its timestamp if TS_REQ is set. -/
  | hostTx (t : Angle) (p : Path) (v : Word) (slots : List (BitVec 8 × List Byte)) (stamps : List Nat)
  /-- TSQ_POP (R264): A write of TSQ_POP removes the oldest transmit timestamp. -/
  | tsqPop (t : Angle) (p : Path) (v : Word)
  /-- TRIGGER_ARM (R265): A write of TRIGn_NS arms the trigger and pins its TAI instant to a tick. -/
  | triggerArm (t : Angle) (p : Path) (n : Fin 4) (v : Word)
  /-- TRIGGER_FIRE (R265): A trigger fires at its tick, raising TRIG, ringing the doorbell or taking an FCA snapshot, and re-arms if repeating. -/
  | triggerFire (t : Angle) (n : Fin 4)
  /-- CAPTURE_EVENT (R266): An edge on a capture source latches the corrected PTP time of the event. -/
  | captureEvent (t : Angle) (src : Fin 8) (falling : Bool) (cap : Nat)
  /-- HELLO_I (R270): A responder receives HELLO_I, checks the peer key hash and answers with HELLO_R or REFUSE. -/
  | helloI (t : Angle) (msg : List Byte)
  /-- HELLO_R (R270): An initiator receives HELLO_R, derives the session keys and answers with FIN_I. -/
  | helloR (t : Angle) (sid : Nat) (msg : List Byte)
  /-- FIN_I (R270): A responder receives FIN_I, checks the signature and opens the session. -/
  | finI (t : Angle) (sid : Nat) (sig : List Byte)
  /-- REFUSE (R270): A REFUSE record ends a handshake with its reason. -/
  | refuse (t : Angle) (sid : Nat) (reason : BitVec 8)
  /-- HANDSHAKE_START (R270): The initiating side of a valid peer entry without an open session sends HELLO_I. -/
  | handshakeStart (t : Angle) (peer : BitVec 9)
  /-- KFP_ACK (R269): An ACK record acknowledges secured records up to its cumulative SEQ and bitmap. -/
  | kfpAck (t : Angle) (r : KfpRx)
  /-- PING (R269): A PING is received and acknowledged, keeping the session alive. -/
  | ping (t : Angle) (r : KfpRx)
  /-- KFP_CLOSE (R269): A CLOSE record closes the session. -/
  | kfpClose (t : Angle) (r : KfpRx)
  /-- STALE (R273): A STALE record with a higher epoch stops FWD, REG and EVT and is reported to Pairs. -/
  | stale (t : Angle) (r : KfpRx)
  /-- FWD (R278): A hub receives forwarded leaf records, accepts readings, creates CUSTODY obligations and acknowledges when accepted. -/
  | fwd (t : Angle) (r : KfpRx)
  /-- PER (R280): A hub receives a leaf's period entries, records them and re-evaluates the cycle offset D. -/
  | per (t : Angle) (r : KfpRx)
  /-- SEG (R280): A hub receives a leaf's closed period segment and commits it. -/
  | seg (t : Angle) (r : KfpRx)
  /-- REG (R274): A REG record runs its register operations back to back under the session's rights and returns REGRSP, or resends the cached response. -/
  | reg (t : Angle) (r : KfpRx)
  /-- REGRSP (R274): A REGRSP carrying the status and results of register operations is received. -/
  | regrsp (t : Angle) (r : KfpRx)
  /-- EVT (R426): An EVT record carrying a page's EV_PEND and sweep time is received by a host. -/
  | evt (t : Angle) (r : KfpRx)
  /-- KFP_RETRANSMIT (R269): RTO expires for an unacknowledged record, which is sent again identically with RTO doubled. -/
  | kfpRetransmit (t : Angle) (sid seq : Nat)
  /-- SESSION_DEAD (R269): RETX_MAX retransmissions or DEAD_CYC cycles without a valid record make a session dead. -/
  | sessionDead (t : Angle) (sid : Nat)
  /-- KEEPALIVE (R269): A sender with nothing to send sends PING after KA_CYC cycles. -/
  | keepalive (t : Angle) (sid : Nat)
  /-- OLD_SESSION_CLOSE (R272): 2 s after a new session opens, the old session of that peer closes. -/
  | oldSessionClose (t : Angle) (sid : Nat)
  /-- FORWARD_SEND (R277): A FIELD module forwards committed records, period entries and segments to its hub in spare ETH capacity. -/
  | forwardSend (t : Angle) (sid : Nat)
  /-- PEER_ENTRY_WRITE (R270): A write of PEER_W0 puts a peer entry into effect, or closes its session when VALID is 0. -/
  | peerEntryWrite (t : Angle) (p : Path) (v : Word)
  /-- REPORT_POST (R283): A REPORT record is placed in the next report ring slot, RPT_WR advances and the doorbell rings. -/
  | reportPost (t : Angle) (id : Nat)
  /-- REPORT_RING_ADVANCE (R283): A write of RPT_RD frees report slots so held reports may be posted. -/
  | reportRingAdvance (t : Angle) (p : Path) (v : Word)
  /-- ENDPOINT_RESET (R281): PERST# or loss of the PCI Express link resets only the endpoint. -/
  | endpointReset (t : Angle)
  /-- SVC_TRANSACTION (R284): An I2C transaction to the service port writes a pointer and reads or writes words under the port's rights. -/
  | svcTransaction (t : Angle) (x : SvcRx)
  /-- SVC_UNLOCK (R285): A write of SVC.RESP3 checks the presence response over SVC_CHAL and unlocks the port if it passes. -/
  | svcUnlock (t : Angle) (p : Path) (v : Word)
  /-- SVC_UNLOCK_EXPIRY (R285): UNLOCK_CYC cycles pass without a service-port access and the unlock ends. -/
  | svcUnlockExpiry (t : Angle)
  /-- LC_SUBMIT (R290): LC_CMD.CMD = SUBMIT checks a transition token and records the transition for the life-cycle reset, or refuses it. -/
  | lcSubmit (t : Angle) (p : Path) (img : List Byte)
  /-- LC_PROVISION (R290): LC_CMD.CMD = PROVISION in FACTORY sets the authority hashes and creates the owner root and fixed slots. -/
  | lcProvision (t : Angle) (p : Path) (img : List Byte)
  /-- KEY_GENERATE (R294): KC_CMD.CMD = GENERATE draws a key into the target slot through the two-half update. -/
  | keyGenerate (t : Angle) (p : Path) (cut : Option Bool)
  /-- KEY_IMPORT (R294): KC_CMD.CMD = IMPORT unwraps a key blob under an ANY wrap slot into the target slot. -/
  | keyImport (t : Angle) (p : Path) (img : List Byte) (cut : Option Bool)
  /-- KEY_IMPORT_KEM (R294): KC_CMD.CMD = IMPORT_KEM decapsulates with slot 2 and unwraps the key into the target slot. -/
  | keyImportKem (t : Angle) (p : Path) (img : List Byte) (cut : Option Bool)
  /-- KEY_DERIVE (R295): KC_CMD.CMD = DERIVE derives a key by one of the defined forms. -/
  | keyDerive (t : Angle) (p : Path) (img : List Byte) (cut : Option Bool)
  /-- KEY_ZEROIZE (R298): KC_CMD.CMD = ZEROIZE empties both halves of a slot. -/
  | keyZeroize (t : Angle) (p : Path) (cut : Option Bool)
  /-- PUB_READ (R293): A read of KEEP.PUB_D returns a public-key word and advances PUB_IDX. -/
  | pubRead (t : Angle) (p : Path)
  /-- RESERVATION_WRITTEN (R300): A counter reserve block reservation is written to Keeper NV (and mirrored), releasing frames that waited for it. -/
  | reservationWritten (t : Angle) (key : Nat) (acked : Bool)
  /-- BATCH_CLOSE (R305): A Merkle batch closes at MAXLEAF, BATCH_CYC or five segments, and its root is sent for signing. -/
  | batchClose (t : Angle)
  /-- BATCH_SIGNED (R305): The signature of a batch root completes and the BATCHROOT record is appended, or signing is retried. -/
  | batchSigned (t : Angle) (ok : Bool) (iters : BitVec 10)
  /-- PROOF (R308): A write of MERK.PRF_GO builds the inclusion proof of the named record. -/
  | proof (t : Angle) (p : Path) (v : Word)
  /-- JOB_SUBMIT (R311): A write of JR_WR queues host crypto jobs on an engine, or is ignored past the ring size. -/
  | jobSubmit (t : Angle) (p : Path) (e : Fin 4) (v : Word) (imgs : List (BitVec 23 × List Byte))
  /-- JOB_SEGMENT_END (R312): A host job segment ends and a waiting firmware job runs before the host job continues. -/
  | jobSegmentEnd (t : Angle) (e : Fin 4)
  /-- JOB_COMPLETE (R311): A crypto job completes, writes its output and STATUS with DONE last, and advances JR_DONE. -/
  | jobComplete (t : Angle) (e : Fin 4) (iters : BitVec 10) (fault : Bool)
  /-- JR_ACK (R325): A write of JR_ACK retires completed jobs up to the index. -/
  | jrAck (t : Angle) (p : Path) (e : Fin 4) (v : Word)
  /-- RNG_FAIL (R318): The random generator fails its health test and every crypto engine stalls. -/
  | rngFail (t : Angle)
  /-- RNG_TIMEOUT (R318): The generator has not recovered within 1 ms and running jobs end with status RNG. -/
  | rngTimeout (t : Angle)
  /-- CRYPTO_ALARM (R319): A crypto-domain sensor trips; keys in the engines are erased and running jobs stop. -/
  | cryptoAlarm (t : Angle) (sensors : BitVec 5)
  /-- ALARM_CLEAR (R319): The tripped sensors clear; stopped jobs end ALARM and the engines reload keys. -/
  | alarmClear (t : Angle)
  /-- PAIRS_HELLO (R327): The Pairs link trains and HELLO frames are exchanged, deciding versions and roles or refusing the pairing. -/
  | pairsHello (t : Angle) (h : PairHello)
  /-- SYNC_COMPLETE (R331): The STANDBY has applied the stream to less than one cycle behind and becomes SYNCED. -/
  | syncComplete (t : Angle)
  /-- MIRROR_ITEM (R328): The STANDBY receives a mirrored item, applies it, charges custody records and returns a mirror acknowledgement. -/
  | mirrorItem (t : Angle) (m : MirrorItem)
  /-- MIRROR_ACK (R329): The ACTIVE twin receives a mirror acknowledgement, releasing acknowledgements, forwards and batching of those records. -/
  | mirrorAck (t : Angle) (rsn : Nat)
  /-- MIRROR_ACK_TIMEOUT (R330): 3 cycles without a mirror acknowledgement put the ACTIVE twin in DEGRADED. -/
  | mirrorAckTimeout (t : Angle)
  /-- HEARTBEAT_SEND (R334): At angles 0x0000 and 0x8000 a twin sends its link heartbeat and evaluates the takeover condition. -/
  | heartbeatSend (t : Angle)
  /-- HEARTBEAT_RECEIVED (R334): A link heartbeat from the twin is checked and updates path faults, failure reports and the takeover condition. -/
  | heartbeatReceived (t : Angle) (h : Heartbeat)
  /-- SWITCHOVER_GAP_END (R338): At M+4:0000 the switch-over gap ends and line, air and loop service resumes. -/
  | switchoverGapEnd (t : Angle)
  /-- FENCE_INPUT (R336): The fence line changes; a fenced ACTIVE or SOLO twin stops, commits and enters FENCED, and dual driving is resolved. -/
  | fenceInput (t : Angle) (drives : Bool)
  /-- SUPERVISOR_RELEASE (R333): The supervisor releases a twin's fence output on supply failure, reset, or a heartbeat gap of 1 cycle. -/
  | supervisorRelease (t : Angle)
  /-- PAIRS_PAIR (R327): PAIRS.CMD = PAIR starts a pairing. -/
  | pairsPair (t : Angle) (p : Path)
  /-- PAIRS_UNPAIR (R413): PAIRS.CMD = UNPAIR makes a STANDBY twin SOLO with lanes disabled, or an out-of-step ACTIVE twin SOLO. -/
  | pairsUnpair (t : Angle) (p : Path)
  /-- PAIRS_SWITCH (R339): PAIRS.CMD = SWITCH on the ACTIVE twin starts the takeback sequence at once. -/
  | pairsSwitch (t : Angle) (p : Path)
  /-- PAIRS_YIELD (R335): PAIRS.CMD = YIELD makes the ACTIVE twin send a failure report and release its fence. -/
  | pairsYield (t : Angle) (p : Path)
  /-- PAIRS_FORCE (R337): PAIRS.CMD = FORCE makes an unsynced STANDBY take over while the twin is silent, writing a FORCE EVENT record. -/
  | pairsForce (t : Angle) (p : Path)
  /-- TAKEBACK_REQUEST (R339): The home twin has held healthy for HOLD_CYC cycles and sets TAKEBACK, answered with the takeback cycle H. -/
  | takebackRequest (t : Angle)
  /-- TAKEBACK_STOP (R339): At H:0000 the ACTIVE twin stops transmitting and releases its fence output. -/
  | takebackStop (t : Angle)
  /-- TAKEBACK_SWITCH (R339): At H:8000 the home twin takes over as in a takeover. -/
  | takebackSwitch (t : Angle)
  /-- SUPPLY_PHASE_MOVE (R341): The supply phase input stays below 60 V for 2 ms while the other phase is healthy, and the supply moves. -/
  | supplyPhaseMove (t : Angle)
  /-- PWR_FAIL_WARN (R345): The power-fail warning fires by CROSSING, ENERGY or THERMAL; domains are shed and the shutdown commit runs. -/
  | pwrFailWarn (t : Angle) (cause : Fin 3)
  /-- VIGIL_ENTRY (R345): After PARKED the bank reaches V_MIN and the module enters VIGIL. -/
  | vigilEntry (t : Angle)
  /-- SUPPLY_RETURN (R345): Accepted crossings return while the bank is above V_MIN after PARKED, and the module restarts through power-on. -/
  | supplyReturn (t : Angle)
  /-- DOMAIN_DOZE (R348): A domain's idle counter reaches its timer and the domain enters DOZE unless a refuser holds it. -/
  | domainDoze (t : Angle) (d : BitVec 5) (refusers : List (BitVec 8)) (abort : Option (BitVec 8))
  /-- DOMAIN_RETAIN (R348): A domain has been in DOZE for RET_CYC cycles and enters RETAIN where permitted. -/
  | domainRetain (t : Angle) (d : BitVec 5) (refusers : List (BitVec 8)) (abort : Option (BitVec 8))
  /-- PRE_WAKE (R349): A sleeping domain is woken at the start of the cycle before admitted work on it begins. -/
  | preWake (t : Angle) (d : BitVec 5)
  /-- WAKE_SOURCE (R351): An enabled wake source (energy detect, preamble, wake pattern, KLP wake, service address) wakes a sleeping domain. -/
  | wakeSource (t : Angle) (src : Fin 6) (lane : Fin 6) (frame : List Byte)
  /-- WAKE_ACCESS_TIMEOUT (R352): An access to a waking domain not in RUN after 60 µs completes as an OFF access with cause wake. -/
  | wakeAccessTimeout (t : Angle) (p : Path) (page : BitVec 8) (off : BitVec 12) (write : Bool)
  /-- DOMAIN_OFF (R354): DOM_CMD.CMD = OFF turns off a domain permitted OFF by policy; its units count as lost. -/
  | domainOff (t : Angle) (p : Path)
  /-- DOMAIN_ON (R354): DOM_CMD.CMD = ON returns a domain to RUN through the supervised wake, as a block reset. -/
  | domainOn (t : Angle) (p : Path)
  /-- WAKE_FAIL (R355): A wake misses its regulator or oscillator deadline, is retried once, and then puts the domain in FAILED. -/
  | wakeFail (t : Angle) (d : BitVec 5)
  /-- CLOCK_FAIL (R355): A clock stays more than 2 % off nominal for 1 ms, is marked FAIL and its domains become FAILED. -/
  | clockFail (t : Angle) (cd : Fin 14)
  /-- THERMAL_LEVEL (R358): A temperature enters or leaves WARN, LIMIT or CRIT and the level's action applies. -/
  | thermalLevel (t : Angle) (base die bank : BitVec 8)
  /-- THERMAL_HOLD_END (R358): After a CRIT hold the baseplate falls to 90 °C and the module starts up with a THERMAL reset. -/
  | thermalHoldEnd (t : Angle) (base : BitVec 8)
  /-- MAINS_ON (R360): Mains-on after VIGIL or OFF starts the POWER reset and the start-up sequence. -/
  | mainsOn (t : Angle) (vigilLost l1 : Bool)
  /-- STARTUP_STEP (R360): A start-up step begins once the steps it depends on have ended. -/
  | startupStep (t : Angle) (x : StartStep)
  /-- PAIRING_TIMEOUT (R368): No valid HELLO within 100 cycles of step 8; the module enters service as ACTIVE or FENCED by its fence input. -/
  | pairingTimeout (t : Angle)
  /-- SYS_RESET (R365): A write of the key to SYS.RESET requests a SYSTEM reset one cycle later, other values discarded. -/
  | sysReset (t : Angle) (p : Path) (v : Word)
  /-- WATCHDOG_RESET (R365): The watchdog expires and a SYSTEM reset follows the shutdown commit. -/
  | watchdogReset (t : Angle)
  /-- RESET_PIN (R440): RESET# held low for 10 µs and released requests a SYSTEM reset. -/
  | resetPin (t : Angle)
  /-- BLOCK_RESET (R365): CTRL.SRESET performs a BLOCK reset of the page's block; its units count as lost then regained. -/
  | blockReset (t : Angle) (p : Path) (page : BitVec 8)
  /-- BIST_SLICE (R378): A scheduled in-service slice tests a block for 2 ms and compares its signature. -/
  | bistSlice (t : Angle) (blk : BitVec 6) (sig : BitVec 64) (finish : SliceEnd)
  /-- BIST_PASS_LATE (R378): A block's in-service pass overruns PERIOD_H and is counted LATE. -/
  | bistPassLate (t : Angle) (blk : BitVec 6)
  /-- SCAN_REQUEST (R382): A write of SCANCTL.REQ before step 5 in permitted states opens external scan after zeroizing keys and DRAM. -/
  | scanRequest (t : Angle) (p : Path) (v : Word)
  /-- INSTRUMENT_CONFIG (R387): A write of I_W commits LO and W and clears the instrument's bins and N. -/
  | instrumentConfig (t : Angle) (p : Path) (v : Word)
  /-- INSTRUMENT_CLEAR_BINS (R387): I_CMD = 1 clears the bins and N of the selected instrument. -/
  | instrumentClearBins (t : Angle) (p : Path)
  /-- INSTRUMENT_CLEAR_EXTREMES (R387): I_CMD = 2 clears the extremes of the selected instrument. -/
  | instrumentClearExtremes (t : Angle) (p : Path)
  /-- INSTRUMENT_CLEAR_BOTH (R387): I_CMD = 3 clears bins, N and extremes of the selected instrument. -/
  | instrumentClearBoth (t : Angle) (p : Path)
  /-- LOGBOOK_FREEZE (R389): Writing CTRL.freeze = 1 on LOGB stops recording and holds new entries. -/
  | logbookFreeze (t : Angle) (p : Path)
  /-- LOGBOOK_THAW (R389): Writing CTRL.freeze = 0 resumes recording and stores held entries. -/
  | logbookThaw (t : Angle) (p : Path)
  /-- FREEZE_TIMEOUT (R389): After FRZ_MAX cycles frozen, recording resumes with FRZ_END and a code 0x0008 entry. -/
  | freezeTimeout (t : Angle)
  /-- CURSOR_READ (R390): A read of CUR_DATA returns the word at the cursor and advances it. -/
  | cursorRead (t : Angle) (p : Path)
  /-- HOST_SAMPLE (R392): A write of HOST_VAL feeds a sample to the host instrument named by HOST_IDX. -/
  | hostSample (t : Angle) (p : Path) (v : Word)
  /-- HOST_NOTE (R392): A write of NOTE_GO writes a host note entry of the given class. -/
  | hostNote (t : Angle) (p : Path) (v : Word)
  /-- CLR_ALL (R392): A write of the key to CLR_ALL clears the whole Logbook in permitted states. -/
  | clrAll (t : Angle) (p : Path) (v : Word)
  /-- UPD_STAGE (R396): UPD.CMD = STAGE starts a cartridge download into the stage or node entry. -/
  | updStage (t : Angle) (p : Path)
  /-- UPD_CHUNK (R396): UPD.CMD = CHUNK takes a host chunk into the download. -/
  | updChunk (t : Angle) (p : Path) (img : List Byte)
  /-- UPD_END (R396): UPD.CMD = END ends a host download and starts verification. -/
  | updEnd (t : Angle) (p : Path)
  /-- DOWNLOAD_END (R396): An SD download reaches the end of its file and verification starts. -/
  | downloadEnd (t : Angle) (crc timeouts : BitVec 8)
  /-- VERIFY_COMPLETE (R394): Cartridge verification completes, to VERIFIED or with a refusal. -/
  | verifyComplete (t : Angle)
  /-- UPD_ACTIVATE (R397): UPD.CMD = ACTIVATE checks core capacity and starts the handover onto cores 2 and 3. -/
  | updActivate (t : Angle) (p : Path)
  /-- HANDOVER_READY (R397): The new image reports READY and the switch cycle W is chosen. -/
  | handoverReady (t : Angle)
  /-- HANDOVER_SWITCH (R398): At W:0000 the new image takes control, appends the handover record and closes the group. -/
  | handoverSwitch (t : Angle)
  /-- HANDOVER_ABORT (R397): HOVER_MAX expires or a warning, fence or takeover comes before W, and the handover aborts. -/
  | handoverAbort (t : Angle)
  /-- UPD_CONFIRM (R399): UPD.CMD = CONFIRM, or HEALTHY reaching CONF_CYC, confirms the trial image. -/
  | updConfirm (t : Angle) (p : Path)
  /-- TRIAL_EXPIRY (R400): The trial window ends without confirmation and control returns to the ACTIVE image. -/
  | trialExpiry (t : Angle)
  /-- UPD_ROLLBACK (R400): UPD.CMD = ROLLBACK ends a trial, or activates the ROLLBACK image as a trial. -/
  | updRollback (t : Angle) (p : Path)
  /-- UPD_DISCARD (R396): UPD.CMD = DISCARD empties a stage that holds no ACTIVE, TRIAL or ROLLBACK image. -/
  | updDiscard (t : Angle) (p : Path)
  /-- CARD_CHANGE (R395): A microSD card is inserted or removed, ending a running download on removal. -/
  | cardChange (t : Angle) (card : Option CardRx)
  /-- CARD_RESCAN (R395): A write of SDC.RESCAN initialises the card again and rebuilds the file list. -/
  | cardRescan (t : Angle) (p : Path) (v : Word) (card : Option CardRx)
  /-- GROUP_JOIN (R404): A write of GRP_W sends a GRP record to the node as a COMMAND obligation. -/
  | groupJoin (t : Angle) (p : Path) (v : Word)
  /-- BULK_SEGMENT (R406): A BULK segment frame is sent to a group on a line or air lane. -/
  | bulkSegment (t : Angle) (r : Fin 10) (id : Nat)
  /-- ROLE_NEXT_WRITE (R410): A write of SYS.PROV.ROLE_NEXT sets the role for the next restart, or is discarded by state, variant or pairing. -/
  | roleNextWrite (t : Angle) (p : Path) (v : Word)
  /-- IFSEL_WRITE (R421): A write of IFSEL selects or locks the interface version, or is discarded. -/
  | ifselWrite (t : Angle) (p : Path) (page : BitVec 8) (v : Word)
  /-- EV_RAW_WRITE (R424): Writing 1 to EV_RAW bits sets those causes for test. -/
  | evRawWrite (t : Angle) (p : Path) (page : BitVec 8) (v : Word)
  /-- EV_PEND_CLEAR (R424): Writing 1 to EV_PEND bits clears those causes. -/
  | evPendClear (t : Angle) (p : Path) (page : BitVec 8) (v : Word)
  /-- EV_EN_SET (R424): Writing 1 to EV_EN_SET bits enables those causes. -/
  | evEnSet (t : Angle) (p : Path) (page : BitVec 8) (v : Word)
  /-- EV_EN_CLR (R424): Writing 1 to EV_EN_CLR bits disables those causes. -/
  | evEnClr (t : Angle) (p : Path) (page : BitVec 8) (v : Word)
  /-- RESEND (R426): A write of EVT.RESEND sends the MSI-X message again for each active line written 1. -/
  | resend (t : Angle) (p : Path) (hi : Bool) (v : Word)
  /-- ERRCAP_CLEAR (R423): Writing 1 to ERRCAP.VALID clears VALID and MORE of the capture. -/
  | errcapClear (t : Angle) (p : Path) (page : BitVec 8) (v : Word)
  /-- COUNTER_CLEAR (R422): A write of 1 to a page's CNT_CLR or REF_CLR clears its counters. -/
  | counterClear (t : Angle) (p : Path) (page : BitVec 8) (q : Fin 8) (v : Word)
  /-- REGISTER_WRITE (R422): A write to a register with no row of its own is checked for width, page, domain state and rights and applied or discarded. -/
  | registerWrite (t : Angle) (p : Path) (page : BitVec 8) (off : BitVec 12) (whole : Bool) (v : Word)
  /-- ERASE_COMPLETE (R241): An erase issued for a superblock listed in a completed commit finishes successfully and the superblock becomes free. -/
  | eraseComplete (t : Angle) (sb : BitVec 11)
  /-- PCIE_LINK_UP (R281): The PCI Express link trains and LINK_UP becomes 1, raising the LINK cause on line 59. -/
  | pcieLinkUp (t : Angle) (gen : Fin 4) (width : Fin 3)
  /-- RNG_RECOVERY (R318): The random generator passes its health test again and the stalled or waiting crypto jobs continue. -/
  | rngRecovery (t : Angle)
  /-- CARD_ERROR (R395): A microSD card fails initialisation or reports a read error after two retries, setting SDC.STAT.ERR, raising ERROR and ending a running download. -/
  | cardError (t : Angle) (init : Bool) (crc timeouts : BitVec 8)
  deriving DecidableEq, Repr

end Sys2Proof
end

