-- ==== Sys2Proof/Decode.lean ====
section
/-!
DEFINITION. The command that a word of the command table spells. The table gives no row any bits: the block takes its
commands from outside (register accesses, frames, pins, ends of engine operations), and no word spells one.
-/

namespace Sys2Proof

/-- The command a word spells by the table's bits: none, since no row of spec/opcode_table.json gives bits. -/
def decodeTableWord (_nbits _w : Nat) : Option Instr := none

end Sys2Proof
end

