-- ==== Sys2Proof/Config.lean ====
section
/-!
DEFINITION. What the spec leaves open, as constants without a body: nothing in Lean can evaluate them, and a
statement about one holds for every value. `Config.free` is the free value of the model (log 2): the step applies it
to the counter `State.fresh`, which it advances. The other constants are functions that the spec names by their
standard (hashes, MACs, signatures) and does not restate (log 3).
-/

namespace Sys2Proof

/-- A free value: bits the spec does not fix (log 2). -/
opaque Config.free : Nat → Nat

/-- SHA3-512 of an octet string (FIPS 202, named by R25 and R303). -/
opaque Config.sha3 : List Byte → BitVec 512

/-- A key derivation or MAC the spec names by standard, applied to a key handle and an octet string (log 3). -/
opaque Config.kdf : Nat → List Byte → BitVec 512

/-- CRC-32C of an octet string (named by Table 12.2; the standard's polynomial is not restated). -/
opaque Config.crc32c : List Byte → BitVec 32

/-- The work of a REPORT of a length on the PCI Express resource, in ticks: the spec gives no figure (log 11). -/
opaque Config.reportWork : Nat → Nat

/-- The presence proof over a challenge under a secret (R296): KMAC256, which the spec names and does not restate (log 3). -/
opaque Config.presence : Nat → Nat → BitVec 256

/-- A function that the spec names by its standard, by a number of its own, applied to a key and octet strings: the outputs of the
ciphers, MACs, hashes, signatures and key generations of Tables 14.9 and 15.2 (log 3). -/
opaque Config.std : Nat → Nat → List (List Byte) → List Byte

/-- A check that the spec names by its standard: the verification of a signature under a public key (log 3). -/
opaque Config.verify : List Byte → List Byte → List Byte → List Byte → Bool

/-- The RFC 3394 unwrap of a key under a wrapping key, if its check passes (R294; log 3). -/
opaque Config.unwrap : Nat → List Byte → Option Nat

/-- The hash of the Goeveard key that is fused at manufacture (Transitions, R364). -/
opaque Config.goeveardHash : BitVec 512

/-- The image key that is fused at manufacture (Cartridges). -/
opaque Config.imageKey : Nat

/-- The reference signature of a test block in the boot ROM (Table 19.5). -/
opaque Config.bistRef : Nat → BitVec 64

/-- A secured payload on a medium: the key, the nonce, the authenticated octets and the plaintext give the encrypted
octets and the MIC (CCM*, named by R79 and R103; log 3). -/
opaque Config.ccm : Nat → List Byte → List Byte → List Byte → List Byte

/-- The measure that a received phase advance, in 1/65536 of a turn, gives a bit of a carrier that carries some number of bits: R63 has
soft decisions and does not say how a phase gives one (log 99). -/
opaque Config.softBit : Nat → Nat → Nat → Int

/-- Which of two paths of equal measure the Viterbi decoder keeps, by step and state: R63 does not say (log 99). -/
opaque Config.trellisTie : Nat → Nat → Bool

end Sys2Proof
end

