-- ==== Sys2Proof/Machine/RegTable.lean ====
section
/-!
DEFINITION. The register directory: for every register at offset 0x040 and above of every defined page, the
field masks, reset value and held ranges that the register tables of spec/01 to spec/23 give, and one name per
register (its page times 0x1000 plus its offset, R417). The common header (Tables 23.2 to 23.5 and 17.7) is
handled in Bus.lean.
-/

namespace Sys2Proof.Machine

/-- A field whose values a register table "holds to" a range: bits hi:lo hold the nearest limit (log 12). -/
structure FieldClamp where
  hi : Nat
  lo : Nat
  least : Nat
  most : Nat
  deriving DecidableEq, Repr

/-- One register of a page: its offset, its reset value, and the masks of its RW, RWL, W1C and W1S fields
(Table 0.4). Every other bit is RO, WO or reserved and is not changed by a plain write. -/
structure RegSpec where
  off : Nat
  reset : Nat
  rw : Nat
  rwl : Nat
  w1c : Nat
  w1s : Nat
  clamps : List FieldClamp
  deriving DecidableEq, Repr

/-- `n` copies of a register, `stride` bytes apart. -/
def specArray (stride n : Nat) (r : RegSpec) : List RegSpec :=
  (List.range n).map (fun i => { r with off := r.off + stride * i })

abbrev Reg.SYS_INFO : Nat := 0x40
abbrev Reg.SYS_SERIAL0 : Nat := 0x44
abbrev Reg.SYS_SERIAL1 : Nat := 0x48
abbrev Reg.SYS_SERIAL2 : Nat := 0x4C
abbrev Reg.SYS_SERIAL3 : Nat := 0x50
abbrev Reg.SYS_BOOTSTAT : Nat := 0x60
abbrev Reg.SYS_RSTCAUSE : Nat := 0x64
abbrev Reg.SYS_RESET : Nat := 0x68
abbrev Reg.SYS_LANE_EN : Nat := 0x70
abbrev Reg.SYS_ALERT_SRC : Nat := 0x78
abbrev Reg.SYS_ERR_WR : Nat := 0x80
abbrev Reg.SYS_ERR_RD : Nat := 0x84
abbrev Reg.SYS_ERR_D0 : Nat := 0x88
abbrev Reg.SYS_ERR_D1 : Nat := 0x8C
abbrev Reg.SYS_ERR_D2 : Nat := 0x90
abbrev Reg.SYS_ERR_D3 : Nat := 0x94
abbrev Reg.SYS_ERR_OVF : Nat := 0x98
abbrev Reg.SYS_MODE : Nat := 0xC0
abbrev Reg.SYS_PROV : Nat := 0xC4
abbrev Reg.CLK_CLK_SEL : Nat := 0x1040
abbrev Reg.CLK_CLK_STAT : Nat := 0x1044
abbrev Reg.PWR_PWRSTAT : Nat := 0x2040
abbrev Reg.PWR_BANKCAL : Nat := 0x2044
abbrev Reg.PWR_BANKPAR : Nat := 0x2048
abbrev Reg.PWR_BANKCFG : Nat := 0x204C
abbrev Reg.PWR_INPUT : Nat := 0x2050
abbrev Reg.PWR_DOM_SEL : Nat := 0x2060
abbrev Reg.PWR_DOM_STAT : Nat := 0x2064
abbrev Reg.PWR_DOM_CMD : Nat := 0x2068
abbrev Reg.PWR_DOM_CFG : Nat := 0x206C
abbrev Reg.PWR_DOM_WAKES : Nat := 0x2070
abbrev Reg.PWR_WAKEPAT0 : Nat := 0x2080
abbrev Reg.PWR_WAKEPAT1 : Nat := 0x2084
abbrev Reg.PWR_WAKEPAT2 : Nat := 0x2088
abbrev Reg.PWR_WAKEPAT3 : Nat := 0x208C
abbrev Reg.PWR_WAKEMASK0 : Nat := 0x2090
abbrev Reg.PWR_WAKEMASK1 : Nat := 0x2094
abbrev Reg.PWR_WAKEMASK2 : Nat := 0x2098
abbrev Reg.PWR_WAKEMASK3 : Nat := 0x209C
abbrev Reg.PWR_WPOFS : Nat := 0x20A0
abbrev Reg.PWR_LASTREF : Nat := 0x20B0
abbrev Reg.PWR_LASTREF_AT_LO : Nat := 0x20B4
abbrev Reg.PWR_LASTREF_AT_HI : Nat := 0x20B8
abbrev Reg.PWR_REF_ID (n : Nat) : Nat := 0x2100 + 0x8 * n
abbrev Reg.PWR_REF_CNT (n : Nat) : Nat := 0x2104 + 0x8 * n
abbrev Reg.PWR_REF_OTHER : Nat := 0x2200
abbrev Reg.PWR_REF_CLR : Nat := 0x2204
abbrev Reg.PWR_CELL : Nat := 0x2210
abbrev Reg.EVT_LINE_LO : Nat := 0x3040
abbrev Reg.EVT_LINE_HI : Nat := 0x3044
abbrev Reg.EVT_DB_MASK_LO : Nat := 0x3048
abbrev Reg.EVT_DB_MASK_HI : Nat := 0x304C
abbrev Reg.EVT_RESEND_LO : Nat := 0x3050
abbrev Reg.EVT_RESEND_HI : Nat := 0x3054
abbrev Reg.EVT_SRC_LINE : Nat := 0x3060
abbrev Reg.EVT_SRC0 : Nat := 0x3064
abbrev Reg.EVT_SRC1 : Nat := 0x3068
abbrev Reg.EVT_SRC2 : Nat := 0x306C
abbrev Reg.EVT_SRC3 : Nat := 0x3070
abbrev Reg.EVT_SRC4 : Nat := 0x3074
abbrev Reg.EVT_SRC5 : Nat := 0x3078
abbrev Reg.EVT_SRC6 : Nat := 0x307C
abbrev Reg.EVT_SRC7 : Nat := 0x3080
abbrev Reg.EVT_MSG_CNT : Nat := 0x3084
abbrev Reg.SWEEP_NOW_LO : Nat := 0x4040
abbrev Reg.SWEEP_NOW_HI : Nat := 0x4044
abbrev Reg.SWEEP_LOCKCTL : Nat := 0x4048
abbrev Reg.SWEEP_LOCKSTAT : Nat := 0x404C
abbrev Reg.SWEEP_PERIOD : Nat := 0x4050
abbrev Reg.SWEEP_FREQ : Nat := 0x4054
abbrev Reg.SWEEP_HOLDCYC : Nat := 0x4058
abbrev Reg.SWEEP_PHOFS : Nat := 0x405C
abbrev Reg.SWEEP_OUT_EST : Nat := 0x4060
abbrev Reg.SWEEP_OUT_VIG : Nat := 0x4064
abbrev Reg.SWEEP_CAP_CYC : Nat := 0x4070
abbrev Reg.SWEEP_CAP_SEC_LO : Nat := 0x4074
abbrev Reg.SWEEP_CAP_SEC_HI : Nat := 0x4078
abbrev Reg.SWEEP_CAP_NS : Nat := 0x407C
abbrev Reg.SWEEP_CIVSTAT : Nat := 0x4080
abbrev Reg.SWEEP_ZCOMMIT : Nat := 0x4084
abbrev Reg.SWEEP_ZVALID_LO : Nat := 0x4088
abbrev Reg.SWEEP_ZVALID_HI : Nat := 0x408C
abbrev Reg.SWEEP_CSTEP : Nat := 0x4090
abbrev Reg.SWEEP_CSTEP_AT_LO : Nat := 0x4094
abbrev Reg.SWEEP_CSTEP_AT_HI : Nat := 0x4098
abbrev Reg.SWEEP_PREC_CUR_LO : Nat := 0x40A0
abbrev Reg.SWEEP_PREC_CUR_HI : Nat := 0x40A4
abbrev Reg.SWEEP_PREC_DATA : Nat := 0x40A8
abbrev Reg.SWEEP_MARK_AT_LO (n : Nat) : Nat := 0x4100 + 0x10 * n
abbrev Reg.SWEEP_MARK_AT_HI (n : Nat) : Nat := 0x4104 + 0x10 * n
abbrev Reg.SWEEP_MARK_CTL (n : Nat) : Nat := 0x4108 + 0x10 * n
abbrev Reg.SWEEP_MARK_STAT (n : Nat) : Nat := 0x410C + 0x10 * n
abbrev Reg.SWEEP_ZONE_EFF_LO (n : Nat) : Nat := 0x4200 + 0x10 * n
abbrev Reg.SWEEP_ZONE_EFF_HI (n : Nat) : Nat := 0x4204 + 0x10 * n
abbrev Reg.SWEEP_ZONE_OFFS (n : Nat) : Nat := 0x4208 + 0x10 * n
abbrev Reg.SWEEP_ZONE_RSV (n : Nat) : Nat := 0x420C + 0x10 * n
abbrev Reg.SLALOM_CFG : Nat := 0x5040
abbrev Reg.SLALOM_STATUS : Nat := 0x5044
abbrev Reg.SLALOM_CAL_HWM : Nat := 0x5048
abbrev Reg.SLALOM_CLS0 : Nat := 0x5060
abbrev Reg.SLALOM_CLS1 : Nat := 0x5064
abbrev Reg.SLALOM_CLS2 : Nat := 0x5068
abbrev Reg.SLALOM_CLS3 : Nat := 0x506C
abbrev Reg.SLALOM_CLS4 : Nat := 0x5070
abbrev Reg.SLALOM_E_USABLE : Nat := 0x5080
abbrev Reg.SLALOM_E_FIX : Nat := 0x5084
abbrev Reg.SLALOM_E_GUARD : Nat := 0x5088
abbrev Reg.SLALOM_E_UNC : Nat := 0x508C
abbrev Reg.SLALOM_E_HEAD : Nat := 0x5090
abbrev Reg.SLALOM_COVER : Nat := 0x5094
abbrev Reg.SLALOM_COVER_DROP : Nat := 0x5098
abbrev Reg.SLALOM_RES_SEL : Nat := 0x50A0
abbrev Reg.SLALOM_RES_STAT : Nat := 0x50A4
abbrev Reg.SLALOM_RES_RETRY : Nat := 0x50A8
abbrev Reg.SLALOM_RES_LOAD : Nat := 0x50AC
abbrev Reg.SLALOM_RES_RUSED : Nat := 0x50B0
abbrev Reg.SLALOM_REQ_CTL : Nat := 0x50C0
abbrev Reg.SLALOM_REQ_TGT : Nat := 0x50C4
abbrev Reg.SLALOM_REQ_HANDLE : Nat := 0x50C8
abbrev Reg.SLALOM_REQ_LEN : Nat := 0x50CC
abbrev Reg.SLALOM_REQ_DL_LO : Nat := 0x50D0
abbrev Reg.SLALOM_REQ_DL_HI : Nat := 0x50D4
abbrev Reg.SLALOM_REQ_GO : Nat := 0x50D8
abbrev Reg.SLALOM_RESP_STAT : Nat := 0x50E0
abbrev Reg.SLALOM_RESP_OBL : Nat := 0x50E4
abbrev Reg.SLALOM_RESP_EFD_LO : Nat := 0x50E8
abbrev Reg.SLALOM_RESP_EFD_HI : Nat := 0x50EC
abbrev Reg.SLALOM_CANCEL : Nat := 0x50F0
abbrev Reg.SLALOM_OUT_WR : Nat := 0x5100
abbrev Reg.SLALOM_OUT_RD : Nat := 0x5104
abbrev Reg.SLALOM_OUT_OVF : Nat := 0x5108
abbrev Reg.SLALOM_OUT_DATA0 : Nat := 0x5110
abbrev Reg.SLALOM_OUT_DATA1 : Nat := 0x5114
abbrev Reg.SLALOM_OUT_DATA2 : Nat := 0x5118
abbrev Reg.SLALOM_OUT_DATA3 : Nat := 0x511C
abbrev Reg.SLALOM_REV_SEL : Nat := 0x5120
abbrev Reg.SLALOM_REV_CNT : Nat := 0x5124
abbrev Reg.SLALOM_CANCEL_LATE : Nat := 0x5128
abbrev Reg.PTP_CFG : Nat := 0x6040
abbrev Reg.PTP_STEP_TH : Nat := 0x6044
abbrev Reg.PTP_STAT : Nat := 0x6048
abbrev Reg.PTP_OFS : Nat := 0x604C
abbrev Reg.PTP_MPD : Nat := 0x6050
abbrev Reg.PTP_GM_LO : Nat := 0x6054
abbrev Reg.PTP_GM_HI : Nat := 0x6058
abbrev Reg.PTP_TSQ_STAT : Nat := 0x6060
abbrev Reg.PTP_TSQ_D0 : Nat := 0x6064
abbrev Reg.PTP_TSQ_D1 : Nat := 0x6068
abbrev Reg.PTP_TSQ_D2 : Nat := 0x606C
abbrev Reg.PTP_TSQ_D3 : Nat := 0x6070
abbrev Reg.PTP_TSQ_POP : Nat := 0x6074
abbrev Reg.PTP_TSQ_OVF : Nat := 0x6078
abbrev Reg.PTP_TRIG_SEC_LO (n : Nat) : Nat := 0x6100 + 0x20 * n
abbrev Reg.PTP_TRIG_SEC_HI (n : Nat) : Nat := 0x6104 + 0x20 * n
abbrev Reg.PTP_TRIG_NS (n : Nat) : Nat := 0x6108 + 0x20 * n
abbrev Reg.PTP_TRIG_CTL (n : Nat) : Nat := 0x610C + 0x20 * n
abbrev Reg.PTP_TRIG_STAT (n : Nat) : Nat := 0x6110 + 0x20 * n
abbrev Reg.PTP_SNAP_CH (n : Nat) : Nat := 0x6180 + 0x4 * n
abbrev Reg.PTP_SNAP_SEL : Nat := 0x61C0
abbrev Reg.PTP_SNAP_D0 : Nat := 0x61C4
abbrev Reg.PTP_SNAP_D1 : Nat := 0x61C8
abbrev Reg.PTP_SNAP_D2 : Nat := 0x61CC
abbrev Reg.PTP_SNAP_D3 : Nat := 0x61D0
abbrev Reg.PTP_SNAP_D4 : Nat := 0x61D4
abbrev Reg.PTP_SNAP_D5 : Nat := 0x61D8
abbrev Reg.PTP_SNAP_D6 : Nat := 0x61DC
abbrev Reg.PTP_SNAP_D7 : Nat := 0x61E0
abbrev Reg.PTP_CAP_CTL (n : Nat) : Nat := 0x6200 + 0x10 * n
abbrev Reg.PTP_CAP_SEC_LO (n : Nat) : Nat := 0x6204 + 0x10 * n
abbrev Reg.PTP_CAP_SEC_HI (n : Nat) : Nat := 0x6208 + 0x10 * n
abbrev Reg.PTP_CAP_NS (n : Nat) : Nat := 0x620C + 0x10 * n
abbrev Reg.LINE_PHYCFG (i : Nat) : Nat := 0x8040 + 0x1000 * i
abbrev Reg.LINE_BLANKCFG (i : Nat) : Nat := 0x8044 + 0x1000 * i
abbrev Reg.LINE_STAT (i : Nat) : Nat := 0x8048 + 0x1000 * i
abbrev Reg.LINE_SNR (i : Nat) : Nat := 0x804C + 0x1000 * i
abbrev Reg.LINE_FR_OK (i : Nat) : Nat := 0x8050 + 0x1000 * i
abbrev Reg.LINE_FR_CRC (i : Nat) : Nat := 0x8054 + 0x1000 * i
abbrev Reg.LINE_FR_HDR (i : Nat) : Nat := 0x8058 + 0x1000 * i
abbrev Reg.LINE_FR_XTALK (i : Nat) : Nat := 0x805C + 0x1000 * i
abbrev Reg.LINE_FR_ABORT (i : Nat) : Nat := 0x8060 + 0x1000 * i
abbrev Reg.LINE_BLANK_SAMP (i : Nat) : Nat := 0x8064 + 0x1000 * i
abbrev Reg.LINE_SYM_ERASED (i : Nat) : Nat := 0x8068 + 0x1000 * i
abbrev Reg.LINE_CLIP (i : Nat) : Nat := 0x806C + 0x1000 * i
abbrev Reg.LINE_CNT_CLR (i : Nat) : Nat := 0x8070 + 0x1000 * i
abbrev Reg.LINEC_BANDCFG : Nat := 0xE040
abbrev Reg.LINEC_FSA_P1 : Nat := 0xE044
abbrev Reg.LINEC_FSA_P2 : Nat := 0xE048
abbrev Reg.LINEC_FSA_P3 : Nat := 0xE04C
abbrev Reg.LINEC_THRESH : Nat := 0xE050
abbrev Reg.LINEC_STEPCFG : Nat := 0xE054
abbrev Reg.LINEC_LINKCFG : Nat := 0xE058
abbrev Reg.LINEC_LONGPRE : Nat := 0xE05C
abbrev Reg.LINEC_PHTEMP : Nat := 0xE060
abbrev Reg.LINEC_PHFOLD : Nat := 0xE064
abbrev Reg.LINEC_LVLMAX : Nat := 0xE068
abbrev Reg.LINEM_KLPCFG : Nat := 0xF040
abbrev Reg.LINEM_BCNCFG : Nat := 0xF044
abbrev Reg.LINEM_SRCHCFG : Nat := 0xF048
abbrev Reg.LINEM_RPTCFG : Nat := 0xF04C
abbrev Reg.LINEM_PILOTCFG : Nat := 0xF050
abbrev Reg.LINEM_PILOTSTAT : Nat := 0xF054
abbrev Reg.LINEM_PILOT_MISS : Nat := 0xF058
abbrev Reg.LINEM_NODE_SEL : Nat := 0xF080
abbrev Reg.LINEM_NODE_SER_LO : Nat := 0xF084
abbrev Reg.LINEM_NODE_SER_HI : Nat := 0xF088
abbrev Reg.LINEM_NODE_CTL : Nat := 0xF08C
abbrev Reg.LINEM_NODE_STAT : Nat := 0xF090
abbrev Reg.LINEM_NODE_SNR : Nat := 0xF094
abbrev Reg.LINEM_NODE_HRD_LO : Nat := 0xF098
abbrev Reg.LINEM_NODE_HRD_HI : Nat := 0xF09C
abbrev Reg.LINEM_NODE_FCNT : Nat := 0xF0A0
abbrev Reg.LINEM_ROUTE_HDR : Nat := 0xF0C0
abbrev Reg.LINEM_ROUTE_A : Nat := 0xF0C4
abbrev Reg.LINEM_ROUTE_B : Nat := 0xF0C8
abbrev Reg.LINEM_ROUTE_C : Nat := 0xF0CC
abbrev Reg.LINEM_JOIN_OK : Nat := 0xF0E0
abbrev Reg.LINEM_JOIN_UNK : Nat := 0xF0E4
abbrev Reg.LINEM_AUTH_FAIL : Nat := 0xF0E8
abbrev Reg.LINEM_HDR_ERR : Nat := 0xF0EC
abbrev Reg.LINEM_MIC_FAIL : Nat := 0xF0F0
abbrev Reg.LINEM_SEQ_ERR : Nat := 0xF0F4
abbrev Reg.LINEM_RFAIL_RX : Nat := 0xF0F8
abbrev Reg.LINEM_REC_ERR : Nat := 0xF0FC
abbrev Reg.LINEM_UNK_SER_LO : Nat := 0xF100
abbrev Reg.LINEM_UNK_SER_HI : Nat := 0xF104
abbrev Reg.LINEM_CNT_CLR : Nat := 0xF108
abbrev Reg.AIR_RFCFG (i : Nat) : Nat := 0x10040 + 0x1000 * i
abbrev Reg.AIR_CHAN (i : Nat) : Nat := 0x10044 + 0x1000 * i
abbrev Reg.AIR_STAT (i : Nat) : Nat := 0x10048 + 0x1000 * i
abbrev Reg.AIR_RSSI (i : Nat) : Nat := 0x1004C + 0x1000 * i
abbrev Reg.AIR_FR_OK (i : Nat) : Nat := 0x10050 + 0x1000 * i
abbrev Reg.AIR_FR_FCS (i : Nat) : Nat := 0x10054 + 0x1000 * i
abbrev Reg.AIR_FR_HDR (i : Nat) : Nat := 0x10058 + 0x1000 * i
abbrev Reg.AIR_SEC_FAIL (i : Nat) : Nat := 0x1005C + 0x1000 * i
abbrev Reg.AIR_TX_FR (i : Nat) : Nat := 0x10060 + 0x1000 * i
abbrev Reg.AIR_TX_HELD (i : Nat) : Nat := 0x10064 + 0x1000 * i
abbrev Reg.AIR_BCN_SKIP (i : Nat) : Nat := 0x10068 + 0x1000 * i
abbrev Reg.AIR_RETRY (i : Nat) : Nat := 0x1006C + 0x1000 * i
abbrev Reg.AIR_CNT_CLR (i : Nat) : Nat := 0x10070 + 0x1000 * i
abbrev Reg.AIRC_REGCFG : Nat := 0x12040
abbrev Reg.AIRC_ANTGAIN : Nat := 0x12044
abbrev Reg.AIRC_HOPCFG : Nat := 0x12048
abbrev Reg.AIRC_US_MASK0 : Nat := 0x12050
abbrev Reg.AIRC_US_MASK1 : Nat := 0x12054
abbrev Reg.AIRC_US_MASK2 : Nat := 0x12058
abbrev Reg.AIRC_US_MASK3 : Nat := 0x1205C
abbrev Reg.AIRC_US_MASK4 : Nat := 0x12060
abbrev Reg.AIRC_SB_SEL : Nat := 0x12070
abbrev Reg.AIRC_SB_LIMIT : Nat := 0x12074
abbrev Reg.AIRC_SB_USED : Nat := 0x12078
abbrev Reg.AIRC_SB_PEAK : Nat := 0x1207C
abbrev Reg.AIRC_DUTYSTAT : Nat := 0x12080
abbrev Reg.AIRC_LOWMARK : Nat := 0x12084
abbrev Reg.AIRC_LOW_AT0 : Nat := 0x12088
abbrev Reg.AIRC_LOW_AT1 : Nat := 0x1208C
abbrev Reg.AIRC_LOW_AT2 : Nat := 0x12090
abbrev Reg.AIRM_KAPCFG : Nat := 0x13040
abbrev Reg.AIRM_BCNCFG : Nat := 0x13044
abbrev Reg.AIRM_SRCHCFG : Nat := 0x13048
abbrev Reg.AIRM_TIMECFG : Nat := 0x1304C
abbrev Reg.AIRM_LEASECFG : Nat := 0x13050
abbrev Reg.AIRM_PANCFG : Nat := 0x13054
abbrev Reg.AIRM_RETRYCFG : Nat := 0x13058
abbrev Reg.AIRM_NODE_SEL : Nat := 0x13080
abbrev Reg.AIRM_NODE_STAT : Nat := 0x13090
abbrev Reg.AIRM_NODE_RDV : Nat := 0x13094
abbrev Reg.AIRM_NODE_ANG : Nat := 0x13098
abbrev Reg.AIRM_NODE_LEASE : Nat := 0x1309C
abbrev Reg.AIRM_NODE_HRD_LO : Nat := 0x130A0
abbrev Reg.AIRM_NODE_HRD_HI : Nat := 0x130A4
abbrev Reg.AIRM_NODE_FCNT : Nat := 0x130A8
abbrev Reg.AIRM_JOIN_OK : Nat := 0x130E0
abbrev Reg.AIRM_JOIN_UNK : Nat := 0x130E4
abbrev Reg.AIRM_AUTH_FAIL : Nat := 0x130E8
abbrev Reg.AIRM_REJOIN_OK : Nat := 0x130EC
abbrev Reg.AIRM_SEQ_ERR : Nat := 0x130F0
abbrev Reg.AIRM_REC_ERR : Nat := 0x130F4
abbrev Reg.AIRM_REKEY_OK : Nat := 0x130F8
abbrev Reg.AIRM_REKEY_FAIL : Nat := 0x130FC
abbrev Reg.AIRM_CNT_CLR : Nat := 0x13100
abbrev Reg.LOOP_SUPCFG (i : Nat) : Nat := 0x14040 + 0x1000 * i
abbrev Reg.LOOP_SUPSTAT (i : Nat) : Nat := 0x14044 + 0x1000 * i
abbrev Reg.LOOP_VOLT (i : Nat) : Nat := 0x14048 + 0x1000 * i
abbrev Reg.LOOP_CURR (i : Nat) : Nat := 0x1404C + 0x1000 * i
abbrev Reg.LOOP_RESTORE (i : Nat) : Nat := 0x14050 + 0x1000 * i
abbrev Reg.LOOP_KLLCFG (i : Nat) : Nat := 0x14054 + 0x1000 * i
abbrev Reg.LOOP_IDENTCFG (i : Nat) : Nat := 0x14058 + 0x1000 * i
abbrev Reg.LOOP_ADDR_CFG (i : Nat) (n : Nat) : Nat := 0x14080 + 0x1000 * i + 0x10 * n
abbrev Reg.LOOP_ADDR_STAT (i : Nat) (n : Nat) : Nat := 0x14084 + 0x1000 * i + 0x10 * n
abbrev Reg.LOOP_FR_OK (i : Nat) : Nat := 0x14100 + 0x1000 * i
abbrev Reg.LOOP_FR_CRC (i : Nat) : Nat := 0x14104 + 0x1000 * i
abbrev Reg.LOOP_FR_HDR (i : Nat) : Nat := 0x14108 + 0x1000 * i
abbrev Reg.LOOP_AUTH_FAIL (i : Nat) : Nat := 0x1410C + 0x1000 * i
abbrev Reg.LOOP_SEQ_ERR (i : Nat) : Nat := 0x14110 + 0x1000 * i
abbrev Reg.LOOP_REC_ERR (i : Nat) : Nat := 0x14114 + 0x1000 * i
abbrev Reg.LOOP_TRIP_TOT (i : Nat) : Nat := 0x14118 + 0x1000 * i
abbrev Reg.LOOP_SYNC_TX (i : Nat) : Nat := 0x1411C + 0x1000 * i
abbrev Reg.LOOP_CNT_CLR (i : Nat) : Nat := 0x14120 + 0x1000 * i
abbrev Reg.LIFT_PEEK_SEL (i : Nat) : Nat := 0x18040 + 0x1000 * i
abbrev Reg.LIFT_PEEK_TAG (i : Nat) : Nat := 0x18044 + 0x1000 * i
abbrev Reg.LIFT_PEEK_D0 (i : Nat) : Nat := 0x18048 + 0x1000 * i
abbrev Reg.LIFT_PEEK_D1 (i : Nat) : Nat := 0x1804C + 0x1000 * i
abbrev Reg.LIFT_PEEK_D2 (i : Nat) : Nat := 0x18050 + 0x1000 * i
abbrev Reg.LIFT_PEEK_D3 (i : Nat) : Nat := 0x18054 + 0x1000 * i
abbrev Reg.LIFT_Q_QCFG (i : Nat) (n : Nat) : Nat := 0x18100 + 0x1000 * i + 0x40 * n
abbrev Reg.LIFT_Q_QPTR (i : Nat) (n : Nat) : Nat := 0x18104 + 0x1000 * i + 0x40 * n
abbrev Reg.LIFT_Q_QPTR2 (i : Nat) (n : Nat) : Nat := 0x18108 + 0x1000 * i + 0x40 * n
abbrev Reg.LIFT_Q_QSTAT (i : Nat) (n : Nat) : Nat := 0x1810C + 0x1000 * i + 0x40 * n
abbrev Reg.LIFT_Q_WMCFG (i : Nat) (n : Nat) : Nat := 0x18110 + 0x1000 * i + 0x40 * n
abbrev Reg.LIFT_Q_WMPEAK (i : Nat) (n : Nat) : Nat := 0x18114 + 0x1000 * i + 0x40 * n
abbrev Reg.LIFT_Q_WMAT_LO (i : Nat) (n : Nat) : Nat := 0x18118 + 0x1000 * i + 0x40 * n
abbrev Reg.LIFT_Q_WMAT_HI (i : Nat) (n : Nat) : Nat := 0x1811C + 0x1000 * i + 0x40 * n
abbrev Reg.LIFT_Q_FLUSH (i : Nat) (n : Nat) : Nat := 0x18120 + 0x1000 * i + 0x40 * n
abbrev Reg.LIFT_Q_PKT_IN (i : Nat) (n : Nat) : Nat := 0x18124 + 0x1000 * i + 0x40 * n
abbrev Reg.LIFT_Q_HOLD (i : Nat) (n : Nat) : Nat := 0x18128 + 0x1000 * i + 0x40 * n
abbrev Reg.LIFT_Q_ABORTS (i : Nat) (n : Nat) : Nat := 0x1812C + 0x1000 * i + 0x40 * n
abbrev Reg.LIFT_Q_ORPHAN (i : Nat) (n : Nat) : Nat := 0x18130 + 0x1000 * i + 0x40 * n
abbrev Reg.LIFT_Q_FL_DISC (i : Nat) (n : Nat) : Nat := 0x18134 + 0x1000 * i + 0x40 * n
abbrev Reg.LIFT_Q_CNT_CLR (i : Nat) (n : Nat) : Nat := 0x18138 + 0x1000 * i + 0x40 * n
abbrev Reg.FCAC_INFO : Nat := 0x1C040
abbrev Reg.FCAC_DW_CH : Nat := 0x1C044
abbrev Reg.FCAC_DW_CMD : Nat := 0x1C048
abbrev Reg.FCAC_DW_STAT : Nat := 0x1C04C
abbrev Reg.FCAC_PB_IDX : Nat := 0x1C050
abbrev Reg.FCAC_PB_SLOT : Nat := 0x1C054
abbrev Reg.FCAC_PB_LO : Nat := 0x1C058
abbrev Reg.FCAC_PB_HI : Nat := 0x1C05C
abbrev Reg.FCAC_DW_D0 : Nat := 0x1C080
abbrev Reg.FCAC_DW_D1 : Nat := 0x1C084
abbrev Reg.FCAC_DW_D2 : Nat := 0x1C088
abbrev Reg.FCAC_DW_D3 : Nat := 0x1C08C
abbrev Reg.FCAC_DW_D4 : Nat := 0x1C090
abbrev Reg.FCAC_DW_D5 : Nat := 0x1C094
abbrev Reg.FCAC_DW_D6 : Nat := 0x1C098
abbrev Reg.FCAC_DW_D7 : Nat := 0x1C09C
abbrev Reg.FCAC_DW_D8 : Nat := 0x1C0A0
abbrev Reg.FCAC_DW_D9 : Nat := 0x1C0A4
abbrev Reg.FCAC_DW_D10 : Nat := 0x1C0A8
abbrev Reg.FCAC_DW_D11 : Nat := 0x1C0AC
abbrev Reg.FCAC_DW_D12 : Nat := 0x1C0B0
abbrev Reg.FCAC_DW_D13 : Nat := 0x1C0B4
abbrev Reg.FCAC_DW_D14 : Nat := 0x1C0B8
abbrev Reg.FCAC_DW_D15 : Nat := 0x1C0BC
abbrev Reg.FCAC_XD_CNT : Nat := 0x1C0C0
abbrev Reg.FCAC_XD_CH : Nat := 0x1C0C4
abbrev Reg.FCAC_XD_LO : Nat := 0x1C0C8
abbrev Reg.FCAC_XD_HI : Nat := 0x1C0CC
abbrev Reg.FCAC_FP_LO : Nat := 0x1C0D0
abbrev Reg.FCAC_FP_HI : Nat := 0x1C0D4
abbrev Reg.FCAC_NOMATCH : Nat := 0x1C0D8
abbrev Reg.FCA_LCFG (i : Nat) : Nat := 0x20040 + 0x1000 * i
abbrev Reg.FCA_LSTAT (i : Nat) : Nat := 0x20044 + 0x1000 * i
abbrev Reg.FCA_DESCN (i : Nat) : Nat := 0x20048 + 0x1000 * i
abbrev Reg.FCA_TK_STAT (i : Nat) : Nat := 0x20050 + 0x1000 * i
abbrev Reg.FCA_TK_ACK (i : Nat) : Nat := 0x20054 + 0x1000 * i
abbrev Reg.FCA_RING_OFS (i : Nat) : Nat := 0x20058 + 0x1000 * i
abbrev Reg.FCA_TK_D0 (i : Nat) : Nat := 0x20060 + 0x1000 * i
abbrev Reg.FCA_TK_D1 (i : Nat) : Nat := 0x20064 + 0x1000 * i
abbrev Reg.FCA_TK_D2 (i : Nat) : Nat := 0x20068 + 0x1000 * i
abbrev Reg.FCA_TK_D3 (i : Nat) : Nat := 0x2006C + 0x1000 * i
abbrev Reg.FCA_TK_D4 (i : Nat) : Nat := 0x20070 + 0x1000 * i
abbrev Reg.FCA_TK_D5 (i : Nat) : Nat := 0x20074 + 0x1000 * i
abbrev Reg.FCA_TK_D6 (i : Nat) : Nat := 0x20078 + 0x1000 * i
abbrev Reg.FCA_TK_D7 (i : Nat) : Nat := 0x2007C + 0x1000 * i
abbrev Reg.FCA_CLOSE_LO (i : Nat) : Nat := 0x20080 + 0x1000 * i
abbrev Reg.FCA_CLOSE_HI (i : Nat) : Nat := 0x20084 + 0x1000 * i
abbrev Reg.FCA_CLOSE_N (i : Nat) : Nat := 0x20088 + 0x1000 * i
abbrev Reg.FCA_CLOSE_END (i : Nat) : Nat := 0x2008C + 0x1000 * i
abbrev Reg.FCA_PT_OK (i : Nat) : Nat := 0x200A0 + 0x1000 * i
abbrev Reg.FCA_PT_NORATE (i : Nat) : Nat := 0x200A4 + 0x1000 * i
abbrev Reg.FCA_OLDSAMP (i : Nat) : Nat := 0x200A8 + 0x1000 * i
abbrev Reg.FCA_HOLES (i : Nat) : Nat := 0x200AC + 0x1000 * i
abbrev Reg.FCA_ABORTPKT (i : Nat) : Nat := 0x200B0 + 0x1000 * i
abbrev Reg.FCA_HOSTDROP (i : Nat) : Nat := 0x200B4 + 0x1000 * i
abbrev Reg.FCA_FAULTS (i : Nat) : Nat := 0x200B8 + 0x1000 * i
abbrev Reg.FCA_CNT_CLR (i : Nat) : Nat := 0x200C0 + 0x1000 * i
abbrev Reg.BAL_CFG : Nat := 0x30040
abbrev Reg.BAL_STAT : Nat := 0x30044
abbrev Reg.BAL_ZSEL : Nat := 0x30050
abbrev Reg.BAL_ZSTAT : Nat := 0x30054
abbrev Reg.BAL_ZWNUM : Nat := 0x30058
abbrev Reg.BAL_ZREC0 : Nat := 0x30080
abbrev Reg.BAL_ZREC1 : Nat := 0x30084
abbrev Reg.BAL_ZREC2 : Nat := 0x30088
abbrev Reg.BAL_ZREC3 : Nat := 0x3008C
abbrev Reg.BAL_ZREC4 : Nat := 0x30090
abbrev Reg.BAL_ZREC5 : Nat := 0x30094
abbrev Reg.BAL_ZREC6 : Nat := 0x30098
abbrev Reg.BAL_ZREC7 : Nat := 0x3009C
abbrev Reg.BAL_ZREC8 : Nat := 0x300A0
abbrev Reg.BAL_ZREC9 : Nat := 0x300A4
abbrev Reg.BAL_ZREC10 : Nat := 0x300A8
abbrev Reg.BAL_ZREC11 : Nat := 0x300AC
abbrev Reg.BAL_ZREC12 : Nat := 0x300B0
abbrev Reg.BAL_ZREC13 : Nat := 0x300B4
abbrev Reg.BAL_ZREC14 : Nat := 0x300B8
abbrev Reg.BAL_ZREC15 : Nat := 0x300BC
abbrev Reg.BAL_ZREC16 : Nat := 0x300C0
abbrev Reg.BAL_ZREC17 : Nat := 0x300C4
abbrev Reg.BAL_ZREC18 : Nat := 0x300C8
abbrev Reg.BAL_ZREC19 : Nat := 0x300CC
abbrev Reg.BAL_ZREC20 : Nat := 0x300D0
abbrev Reg.BAL_ZREC21 : Nat := 0x300D4
abbrev Reg.BAL_ZREC22 : Nat := 0x300D8
abbrev Reg.BAL_ZREC23 : Nat := 0x300DC
abbrev Reg.BAL_ZREC24 : Nat := 0x300E0
abbrev Reg.BAL_ZREC25 : Nat := 0x300E4
abbrev Reg.BAL_ZREC26 : Nat := 0x300E8
abbrev Reg.BAL_ZREC27 : Nat := 0x300EC
abbrev Reg.BAL_ZREC28 : Nat := 0x300F0
abbrev Reg.BAL_ZREC29 : Nat := 0x300F4
abbrev Reg.BAL_ZREC30 : Nat := 0x300F8
abbrev Reg.BAL_ZREC31 : Nat := 0x300FC
abbrev Reg.BAL_ZRESET : Nat := 0x30100
abbrev Reg.BAL_AL_WR : Nat := 0x30110
abbrev Reg.BAL_AL_RD : Nat := 0x30114
abbrev Reg.BAL_AL_OVF : Nat := 0x30118
abbrev Reg.BAL_LATE_INC : Nat := 0x30120
abbrev Reg.BAL_WIN_TOT : Nat := 0x30124
abbrev Reg.BAL_AL_TOT : Nat := 0x30128
abbrev Reg.BAL_AL_D0 : Nat := 0x30140
abbrev Reg.BAL_AL_D1 : Nat := 0x30144
abbrev Reg.BAL_AL_D2 : Nat := 0x30148
abbrev Reg.BAL_AL_D3 : Nat := 0x3014C
abbrev Reg.BAL_AL_D4 : Nat := 0x30150
abbrev Reg.BAL_AL_D5 : Nat := 0x30154
abbrev Reg.BAL_AL_D6 : Nat := 0x30158
abbrev Reg.BAL_AL_D7 : Nat := 0x3015C
abbrev Reg.BAL_AL_D8 : Nat := 0x30160
abbrev Reg.BAL_AL_D9 : Nat := 0x30164
abbrev Reg.BAL_AL_D10 : Nat := 0x30168
abbrev Reg.BAL_AL_D11 : Nat := 0x3016C
abbrev Reg.BAL_AL_D12 : Nat := 0x30170
abbrev Reg.BAL_AL_D13 : Nat := 0x30174
abbrev Reg.BAL_AL_D14 : Nat := 0x30178
abbrev Reg.BAL_AL_D15 : Nat := 0x3017C
abbrev Reg.BALG_GIMG_OFS : Nat := 0x31040
abbrev Reg.BALG_GIMG_LEN : Nat := 0x31044
abbrev Reg.BALG_GEFF_LO : Nat := 0x31048
abbrev Reg.BALG_GEFF_HI : Nat := 0x3104C
abbrev Reg.BALG_GCMD : Nat := 0x31050
abbrev Reg.BALG_GSTAT : Nat := 0x31054
abbrev Reg.BALG_GERR : Nat := 0x31058
abbrev Reg.BALG_ZP_ZONE : Nat := 0x31060
abbrev Reg.BALG_ZP_SLOT : Nat := 0x31064
abbrev Reg.BALG_ZP_LO : Nat := 0x31068
abbrev Reg.BALG_ZP_HI : Nat := 0x3106C
abbrev Reg.BALG_IC_SEL : Nat := 0x31070
abbrev Reg.BALG_IC_LO : Nat := 0x31074
abbrev Reg.BALG_IC_HI : Nat := 0x31078
abbrev Reg.BALG_IC_AMB : Nat := 0x3107C
abbrev Reg.BALG_TAMB0_LO : Nat := 0x31080
abbrev Reg.BALG_TAMB0_HI : Nat := 0x31084
abbrev Reg.BALG_TAMB1_LO : Nat := 0x31088
abbrev Reg.BALG_TAMB1_HI : Nat := 0x3108C
abbrev Reg.BALG_TAMB2_LO : Nat := 0x31090
abbrev Reg.BALG_TAMB2_HI : Nat := 0x31094
abbrev Reg.BALG_TAMB3_LO : Nat := 0x31098
abbrev Reg.BALG_TAMB3_HI : Nat := 0x3109C
abbrev Reg.BALG_CG_SEL : Nat := 0x310A0
abbrev Reg.BALG_CG_LO : Nat := 0x310A4
abbrev Reg.BALG_CG_HI : Nat := 0x310A8
abbrev Reg.BILL_CT_CH : Nat := 0x32040
abbrev Reg.BILL_CT_W0 : Nat := 0x32044
abbrev Reg.BILL_CT_W1 : Nat := 0x32048
abbrev Reg.BILL_CT_CMD : Nat := 0x3204C
abbrev Reg.BILL_CT_STAT : Nat := 0x32050
abbrev Reg.BILL_RG_CH : Nat := 0x32060
abbrev Reg.BILL_RG_SEL : Nat := 0x32064
abbrev Reg.BILL_RG_LO : Nat := 0x32068
abbrev Reg.BILL_RG_HI : Nat := 0x3206C
abbrev Reg.BILL_MD_AT_LO : Nat := 0x32070
abbrev Reg.BILL_MD_AT_HI : Nat := 0x32074
abbrev Reg.BILL_MD_INFO : Nat := 0x32078
abbrev Reg.BILL_IV_NUM : Nat := 0x32080
abbrev Reg.BILL_IV_UNITS : Nat := 0x32084
abbrev Reg.BILL_NOBILL : Nat := 0x32090
abbrev Reg.BILL_BF_INC : Nat := 0x32094
abbrev Reg.BILL_LATE_B : Nat := 0x32098
abbrev Reg.TARIF_PIMG_OFS : Nat := 0x33040
abbrev Reg.TARIF_PIMG_LEN : Nat := 0x33044
abbrev Reg.TARIF_PCMD : Nat := 0x33048
abbrev Reg.TARIF_PSTAT : Nat := 0x3304C
abbrev Reg.TARIF_PSEL : Nat := 0x33050
abbrev Reg.TARIF_PINFO : Nat := 0x33054
abbrev Reg.TARIF_NEXT_LO : Nat := 0x33058
abbrev Reg.TARIF_NEXT_HI : Nat := 0x3305C
abbrev Reg.TARIF_NEXT_KIND : Nat := 0x33060
abbrev Reg.TARIF_HORIZON : Nat := 0x33064
abbrev Reg.CRED_AC_SEL : Nat := 0x34040
abbrev Reg.CRED_AC_CFG : Nat := 0x34044
abbrev Reg.CRED_AC_BAL_LO : Nat := 0x34048
abbrev Reg.CRED_AC_BAL_HI : Nat := 0x3404C
abbrev Reg.CRED_AC_WARN_LO : Nat := 0x34050
abbrev Reg.CRED_AC_WARN_HI : Nat := 0x34054
abbrev Reg.CRED_AC_CUT_LO : Nat := 0x34058
abbrev Reg.CRED_AC_CUT_HI : Nat := 0x3405C
abbrev Reg.CRED_AC_REST_LO : Nat := 0x34060
abbrev Reg.CRED_AC_REST_HI : Nat := 0x34064
abbrev Reg.CRED_TOPUP_LO : Nat := 0x34068
abbrev Reg.CRED_TOPUP_HI : Nat := 0x3406C
abbrev Reg.CRED_AC_STAT : Nat := 0x34070
abbrev Reg.CRED_PR_SEL : Nat := 0x34080
abbrev Reg.CRED_PR_NOW : Nat := 0x34084
abbrev Reg.CRED_PR_PEND : Nat := 0x34088
abbrev Reg.CRED_PR_EFF_LO : Nat := 0x3408C
abbrev Reg.CRED_PR_EFF_HI : Nat := 0x34090
abbrev Reg.CRED_MB_SEL : Nat := 0x340A0
abbrev Reg.CRED_MB_W : Nat := 0x340A4
abbrev Reg.CRED_RV_SEL : Nat := 0x340B0
abbrev Reg.CRED_RV_W : Nat := 0x340B4
abbrev Reg.CRED_IL_CTL (n : Nat) : Nat := 0x340C0 + 0x10 * n
abbrev Reg.CRED_IL_STAT (n : Nat) : Nat := 0x340C4 + 0x10 * n
abbrev Reg.TAMP_TP_STAT : Nat := 0x35040
abbrev Reg.TAMP_TP_CFG : Nat := 0x35044
abbrev Reg.TAMP_LOG_WR : Nat := 0x35050
abbrev Reg.TAMP_LOG_RD : Nat := 0x35054
abbrev Reg.TAMP_LOG_OVF : Nat := 0x35058
abbrev Reg.TAMP_LOG_CLR : Nat := 0x3505C
abbrev Reg.TAMP_LOG_D0 : Nat := 0x35060
abbrev Reg.TAMP_LOG_D1 : Nat := 0x35064
abbrev Reg.TAMP_LOG_D2 : Nat := 0x35068
abbrev Reg.TAMP_LOG_D3 : Nat := 0x3506C
abbrev Reg.TAMP_LOG_D4 : Nat := 0x35070
abbrev Reg.TAMP_LOG_D5 : Nat := 0x35074
abbrev Reg.TAMP_OPHRS : Nat := 0x35080
abbrev Reg.TAMP_PWRCYC : Nat := 0x35084
abbrev Reg.LEDG_CFG : Nat := 0x38040
abbrev Reg.LEDG_CKPTCFG : Nat := 0x38044
abbrev Reg.LEDG_SPACECFG : Nat := 0x38048
abbrev Reg.LEDG_STAT : Nat := 0x3804C
abbrev Reg.LEDG_CSN_LO : Nat := 0x38050
abbrev Reg.LEDG_CSN_HI : Nat := 0x38054
abbrev Reg.LEDG_RSN_LO : Nat := 0x38058
abbrev Reg.LEDG_RSN_HI : Nat := 0x3805C
abbrev Reg.LEDG_CMT_AT_LO : Nat := 0x38060
abbrev Reg.LEDG_CMT_AT_HI : Nat := 0x38064
abbrev Reg.LEDG_ARCH_LO : Nat := 0x38070
abbrev Reg.LEDG_ARCH_HI : Nat := 0x38074
abbrev Reg.LEDG_RING_REL_LO : Nat := 0x38078
abbrev Reg.LEDG_RING_REL_HI : Nat := 0x3807C
abbrev Reg.LEDG_PART_SEL : Nat := 0x38080
abbrev Reg.LEDG_PART_SIZE : Nat := 0x38084
abbrev Reg.LEDG_PART_FREE : Nat := 0x38088
abbrev Reg.LEDG_PART_OLD_LO : Nat := 0x3808C
abbrev Reg.LEDG_PART_OLD_HI : Nat := 0x38090
abbrev Reg.LEDG_LOW_AT_LO : Nat := 0x38094
abbrev Reg.LEDG_LOW_AT_HI : Nat := 0x38098
abbrev Reg.LEDG_LOW_MIN : Nat := 0x3809C
abbrev Reg.LEDG_SYNC : Nat := 0x380A0
abbrev Reg.LEDG_RD_RSN_LO : Nat := 0x380B0
abbrev Reg.LEDG_RD_RSN_HI : Nat := 0x380B4
abbrev Reg.LEDG_RD_CNT : Nat := 0x380B8
abbrev Reg.LEDG_RD_OFS : Nat := 0x380BC
abbrev Reg.LEDG_RD_GO : Nat := 0x380C0
abbrev Reg.LEDG_RD_STAT : Nat := 0x380C4
abbrev Reg.LEDG_DRAM_CE : Nat := 0x380D0
abbrev Reg.LEDG_DRAM_UE : Nat := 0x380D4
abbrev Reg.LEDG_LOSS_CNT : Nat := 0x380E0
abbrev Reg.LEDG_LOSS_FIRST_LO : Nat := 0x380E4
abbrev Reg.LEDG_LOSS_FIRST_HI : Nat := 0x380E8
abbrev Reg.LEDG_LOSS_N : Nat := 0x380EC
abbrev Reg.NAND_INFO : Nat := 0x39040
abbrev Reg.NAND_SBSTAT : Nat := 0x39044
abbrev Reg.NAND_REBUILD : Nat := 0x39048
abbrev Reg.NAND_DIE_SEL : Nat := 0x39050
abbrev Reg.NAND_DIE_STAT : Nat := 0x39054
abbrev Reg.NAND_DIE_WEAR : Nat := 0x39058
abbrev Reg.NAND_GCCFG : Nat := 0x3905C
abbrev Reg.NAND_WEARCFG : Nat := 0x39060
abbrev Reg.NAND_PROG_FAIL : Nat := 0x39070
abbrev Reg.NAND_ERASE_FAIL : Nat := 0x39074
abbrev Reg.NAND_CORR_CW : Nat := 0x39078
abbrev Reg.NAND_REBUILT : Nat := 0x3907C
abbrev Reg.NAND_UNREC : Nat := 0x39080
abbrev Reg.NAND_RELOC : Nat := 0x39084
abbrev Reg.NAND_SB_ERASED : Nat := 0x39088
abbrev Reg.NAND_TWIN_FETCH : Nat := 0x3908C
abbrev Reg.NAND_CNT_CLR : Nat := 0x39090
abbrev Reg.GROOM_CFG : Nat := 0x3A040
abbrev Reg.GROOM_PASS_POS : Nat := 0x3A044
abbrev Reg.GROOM_PASS_TOT : Nat := 0x3A048
abbrev Reg.GROOM_PASS_CNT : Nat := 0x3A04C
abbrev Reg.GROOM_PASS_END_LO : Nat := 0x3A050
abbrev Reg.GROOM_PASS_END_HI : Nat := 0x3A054
abbrev Reg.GROOM_MAXBITS : Nat := 0x3A058
abbrev Reg.GROOM_REFRESHES : Nat := 0x3A05C
abbrev Reg.GROOM_LATE : Nat := 0x3A060
abbrev Reg.KEEP_LC_STAT : Nat := 0x40040
abbrev Reg.KEEP_LC_CNT : Nat := 0x40044
abbrev Reg.KEEP_LC_NONCE0 : Nat := 0x40048
abbrev Reg.KEEP_LC_NONCE1 : Nat := 0x4004C
abbrev Reg.KEEP_LC_NONCE2 : Nat := 0x40050
abbrev Reg.KEEP_LC_NONCE3 : Nat := 0x40054
abbrev Reg.KEEP_LC_OFS : Nat := 0x40058
abbrev Reg.KEEP_LC_CMD : Nat := 0x4005C
abbrev Reg.KEEP_LC_RES : Nat := 0x40060
abbrev Reg.KEEP_SL_SEL : Nat := 0x40080
abbrev Reg.KEEP_SL_ATTR : Nat := 0x40084
abbrev Reg.KEEP_SL_GEN : Nat := 0x40088
abbrev Reg.KEEP_SL_KCV : Nat := 0x4008C
abbrev Reg.KEEP_KC_ATTR : Nat := 0x40090
abbrev Reg.KEEP_KC_SLOT : Nat := 0x40094
abbrev Reg.KEEP_KC_OFS : Nat := 0x40098
abbrev Reg.KEEP_KC_LEN : Nat := 0x4009C
abbrev Reg.KEEP_KC_CMD : Nat := 0x400A0
abbrev Reg.KEEP_KC_RES : Nat := 0x400A4
abbrev Reg.KEEP_PUB_SEL : Nat := 0x400C0
abbrev Reg.KEEP_PUB_IDX : Nat := 0x400C4
abbrev Reg.KEEP_PUB_D : Nat := 0x400C8
abbrev Reg.KEEP_SESS : Nat := 0x400D0
abbrev Reg.KEEP_SESS_FULL : Nat := 0x400E0
abbrev Reg.KEEP_DEST_DENY : Nat := 0x400E4
abbrev Reg.KEEP_RSV_WAIT : Nat := 0x400E8
abbrev Reg.KEEP_RSV_WRITES : Nat := 0x400EC
abbrev Reg.KEEP_REKEY_FORCED : Nat := 0x400F0
abbrev Reg.KEEP_KEY_STOP : Nat := 0x400F4
abbrev Reg.CRY_JR_OFS (i : Nat) : Nat := 0x41040 + 0x1000 * i
abbrev Reg.CRY_JR_SIZE (i : Nat) : Nat := 0x41044 + 0x1000 * i
abbrev Reg.CRY_JR_WR (i : Nat) : Nat := 0x41048 + 0x1000 * i
abbrev Reg.CRY_JR_RD (i : Nat) : Nat := 0x4104C + 0x1000 * i
abbrev Reg.CRY_JR_DONE (i : Nat) : Nat := 0x41050 + 0x1000 * i
abbrev Reg.CRY_JR_ACK (i : Nat) : Nat := 0x41054 + 0x1000 * i
abbrev Reg.CRY_ESTAT (i : Nat) : Nat := 0x41058 + 0x1000 * i
abbrev Reg.CRY_JOBS (i : Nat) : Nat := 0x41060 + 0x1000 * i
abbrev Reg.CRY_ERRS (i : Nat) : Nat := 0x41064 + 0x1000 * i
abbrev Reg.CRY_CNT_CLR (i : Nat) : Nat := 0x41070 + 0x1000 * i
abbrev Reg.CRY_ALM_STAT (i : Nat) : Nat := 0x41080 + 0x1000 * i
abbrev Reg.CRY_ALM_NOW (i : Nat) : Nat := 0x41084 + 0x1000 * i
abbrev Reg.CRY_ALM_CNT (i : Nat) : Nat := 0x41088 + 0x1000 * i
abbrev Reg.CRY_AUTHFAIL (i : Nat) : Nat := 0x4108C + 0x1000 * i
abbrev Reg.MERK_CFG : Nat := 0x45040
abbrev Reg.MERK_STAT : Nat := 0x45044
abbrev Reg.MERK_BNUM_LO : Nat := 0x45048
abbrev Reg.MERK_BNUM_HI : Nat := 0x4504C
abbrev Reg.MERK_ROOT0 : Nat := 0x45050
abbrev Reg.MERK_ROOT1 : Nat := 0x45054
abbrev Reg.MERK_ROOT2 : Nat := 0x45058
abbrev Reg.MERK_ROOT3 : Nat := 0x4505C
abbrev Reg.MERK_ROOT4 : Nat := 0x45060
abbrev Reg.MERK_ROOT5 : Nat := 0x45064
abbrev Reg.MERK_ROOT6 : Nat := 0x45068
abbrev Reg.MERK_ROOT7 : Nat := 0x4506C
abbrev Reg.MERK_ROOT8 : Nat := 0x45070
abbrev Reg.MERK_ROOT9 : Nat := 0x45074
abbrev Reg.MERK_ROOT10 : Nat := 0x45078
abbrev Reg.MERK_ROOT11 : Nat := 0x4507C
abbrev Reg.MERK_ROOT12 : Nat := 0x45080
abbrev Reg.MERK_ROOT13 : Nat := 0x45084
abbrev Reg.MERK_ROOT14 : Nat := 0x45088
abbrev Reg.MERK_ROOT15 : Nat := 0x4508C
abbrev Reg.MERK_PRF_RSN_LO : Nat := 0x450A0
abbrev Reg.MERK_PRF_RSN_HI : Nat := 0x450A4
abbrev Reg.MERK_PRF_GO : Nat := 0x450A8
abbrev Reg.MERK_PRF_STAT : Nat := 0x450AC
abbrev Reg.MERK_PRF_BNUM_LO : Nat := 0x450B0
abbrev Reg.MERK_PRF_BNUM_HI : Nat := 0x450B4
abbrev Reg.MERK_PRF_N : Nat := 0x450B8
abbrev Reg.MERK_PRF_HSEL : Nat := 0x450BC
abbrev Reg.MERK_PRF_H0 : Nat := 0x450C0
abbrev Reg.MERK_PRF_H1 : Nat := 0x450C4
abbrev Reg.MERK_PRF_H2 : Nat := 0x450C8
abbrev Reg.MERK_PRF_H3 : Nat := 0x450CC
abbrev Reg.MERK_PRF_H4 : Nat := 0x450D0
abbrev Reg.MERK_PRF_H5 : Nat := 0x450D4
abbrev Reg.MERK_PRF_H6 : Nat := 0x450D8
abbrev Reg.MERK_PRF_H7 : Nat := 0x450DC
abbrev Reg.MERK_PRF_H8 : Nat := 0x450E0
abbrev Reg.MERK_PRF_H9 : Nat := 0x450E4
abbrev Reg.MERK_PRF_H10 : Nat := 0x450E8
abbrev Reg.MERK_PRF_H11 : Nat := 0x450EC
abbrev Reg.MERK_PRF_H12 : Nat := 0x450F0
abbrev Reg.MERK_PRF_H13 : Nat := 0x450F4
abbrev Reg.MERK_PRF_H14 : Nat := 0x450F8
abbrev Reg.MERK_PRF_H15 : Nat := 0x450FC
abbrev Reg.MERK_SIGNED : Nat := 0x45100
abbrev Reg.MERK_LEAVES : Nat := 0x45104
abbrev Reg.BIST_CFG : Nat := 0x48040
abbrev Reg.BIST_SCANCTL : Nat := 0x48044
abbrev Reg.BIST_STAT : Nat := 0x48048
abbrev Reg.BIST_BLK_SEL : Nat := 0x48050
abbrev Reg.BIST_BLK_STAT : Nat := 0x48054
abbrev Reg.BIST_SIG_LO : Nat := 0x48058
abbrev Reg.BIST_SIG_HI : Nat := 0x4805C
abbrev Reg.BIST_REF_LO : Nat := 0x48060
abbrev Reg.BIST_REF_HI : Nat := 0x48064
abbrev Reg.BIST_FAIL_AT_LO : Nat := 0x48068
abbrev Reg.BIST_FAIL_AT_HI : Nat := 0x4806C
abbrev Reg.BIST_SLICES : Nat := 0x48080
abbrev Reg.BIST_MISMATCH : Nat := 0x48084
abbrev Reg.BIST_ABORTED : Nat := 0x48088
abbrev Reg.BIST_REVOKED : Nat := 0x4808C
abbrev Reg.BIST_LATE_PASS : Nat := 0x48090
abbrev Reg.BIST_CNT_CLR : Nat := 0x480A0
abbrev Reg.LOGB_CFG : Nat := 0x49040
abbrev Reg.LOGB_STAT : Nat := 0x49044
abbrev Reg.LOGB_ENT_SEQ : Nat := 0x49048
abbrev Reg.LOGB_CUR_SEL : Nat := 0x49050
abbrev Reg.LOGB_CUR_DATA : Nat := 0x49054
abbrev Reg.LOGB_I_SEL : Nat := 0x49060
abbrev Reg.LOGB_I_LO : Nat := 0x49064
abbrev Reg.LOGB_I_W : Nat := 0x49068
abbrev Reg.LOGB_I_CMD : Nat := 0x4906C
abbrev Reg.LOGB_HOST_IDX : Nat := 0x49070
abbrev Reg.LOGB_HOST_VAL : Nat := 0x49074
abbrev Reg.LOGB_NOTE_D0 : Nat := 0x49078
abbrev Reg.LOGB_NOTE_D1 : Nat := 0x4907C
abbrev Reg.LOGB_NOTE_GO : Nat := 0x49080
abbrev Reg.LOGB_DROP0 : Nat := 0x490A0
abbrev Reg.LOGB_DROP1 : Nat := 0x490A4
abbrev Reg.LOGB_DROP2 : Nat := 0x490A8
abbrev Reg.LOGB_DROP3 : Nat := 0x490AC
abbrev Reg.LOGB_FRZ_LOST : Nat := 0x490B0
abbrev Reg.LOGB_CLR_ALL : Nat := 0x490B4
abbrev Reg.UPD_CFG : Nat := 0x4A040
abbrev Reg.UPD_CONFCFG : Nat := 0x4A044
abbrev Reg.UPD_HOVER : Nat := 0x4A048
abbrev Reg.UPD_SRC : Nat := 0x4A04C
abbrev Reg.UPD_HCHUNK_OFS : Nat := 0x4A050
abbrev Reg.UPD_HCHUNK_LEN : Nat := 0x4A054
abbrev Reg.UPD_CMD : Nat := 0x4A058
abbrev Reg.UPD_STAT : Nat := 0x4A05C
abbrev Reg.UPD_PROG : Nat := 0x4A060
abbrev Reg.UPD_VER_ACT : Nat := 0x4A064
abbrev Reg.UPD_VER_TRIAL : Nat := 0x4A068
abbrev Reg.UPD_VER_RB : Nat := 0x4A06C
abbrev Reg.UPD_MIN_LEVEL : Nat := 0x4A070
abbrev Reg.UPD_HEALTHY : Nat := 0x4A074
abbrev Reg.UPD_TRIAL_LEFT : Nat := 0x4A078
abbrev Reg.UPD_BOOTS : Nat := 0x4A07C
abbrev Reg.UPD_W_LO : Nat := 0x4A080
abbrev Reg.UPD_W_HI : Nat := 0x4A084
abbrev Reg.UPD_NC_SEL : Nat := 0x4A090
abbrev Reg.UPD_NC_STAT : Nat := 0x4A094
abbrev Reg.UPD_NC_IMG : Nat := 0x4A098
abbrev Reg.UPD_NC_NSEG : Nat := 0x4A09C
abbrev Reg.UPD_GRP_NODE : Nat := 0x4A0A0
abbrev Reg.UPD_GRP_W : Nat := 0x4A0A4
abbrev Reg.PAIRS_CFG : Nat := 0x4C040
abbrev Reg.PAIRS_HOLD : Nat := 0x4C044
abbrev Reg.PAIRS_PAIR_ID0 : Nat := 0x4C050
abbrev Reg.PAIRS_PAIR_ID1 : Nat := 0x4C054
abbrev Reg.PAIRS_PAIR_ID2 : Nat := 0x4C058
abbrev Reg.PAIRS_PAIR_ID3 : Nat := 0x4C05C
abbrev Reg.PAIRS_STAT : Nat := 0x4C060
abbrev Reg.PAIRS_HOLD_LEFT : Nat := 0x4C064
abbrev Reg.PAIRS_LAG : Nat := 0x4C068
abbrev Reg.PAIRS_SYNC_LEFT : Nat := 0x4C06C
abbrev Reg.PAIRS_LAST_HB_LO : Nat := 0x4C070
abbrev Reg.PAIRS_LAST_HB_HI : Nat := 0x4C074
abbrev Reg.PAIRS_CMD : Nat := 0x4C080
abbrev Reg.PAIRS_LASTSW : Nat := 0x4C084
abbrev Reg.PAIRS_SW_AT_LO : Nat := 0x4C088
abbrev Reg.PAIRS_SW_AT_HI : Nat := 0x4C08C
abbrev Reg.PAIRS_TWIN_SER0 : Nat := 0x4C090
abbrev Reg.PAIRS_TWIN_SER1 : Nat := 0x4C094
abbrev Reg.PAIRS_TWIN_SER2 : Nat := 0x4C098
abbrev Reg.PAIRS_TWIN_SER3 : Nat := 0x4C09C
abbrev Reg.PAIRS_TWIN_UNITS : Nat := 0x4C0A0
abbrev Reg.PAIRS_HB_MISS : Nat := 0x4C0B0
abbrev Reg.PAIRS_LINK_AUTH : Nat := 0x4C0B4
abbrev Reg.PAIRS_SWITCHES : Nat := 0x4C0B8
abbrev Reg.PAIRS_TAKEBACKS : Nat := 0x4C0BC
abbrev Reg.PAIRS_REFUSALS : Nat := 0x4C0C0
abbrev Reg.PAIRS_DUALS : Nat := 0x4C0C4
abbrev Reg.PAIRS_CNT_CLR : Nat := 0x4C0D0
abbrev Reg.ETH_CFG (i : Nat) : Nat := 0x50040 + 0x1000 * i
abbrev Reg.ETH_MAC_LO (i : Nat) : Nat := 0x50044 + 0x1000 * i
abbrev Reg.ETH_MAC_HI (i : Nat) : Nat := 0x50048 + 0x1000 * i
abbrev Reg.ETH_STAT (i : Nat) : Nat := 0x5004C + 0x1000 * i
abbrev Reg.ETH_IP4 (i : Nat) : Nat := 0x50050 + 0x1000 * i
abbrev Reg.ETH_IP4_MASK (i : Nat) : Nat := 0x50054 + 0x1000 * i
abbrev Reg.ETH_IP4_GW (i : Nat) : Nat := 0x50058 + 0x1000 * i
abbrev Reg.ETH_IP6_0 (i : Nat) : Nat := 0x50060 + 0x1000 * i
abbrev Reg.ETH_IP6_1 (i : Nat) : Nat := 0x50064 + 0x1000 * i
abbrev Reg.ETH_IP6_2 (i : Nat) : Nat := 0x50068 + 0x1000 * i
abbrev Reg.ETH_IP6_3 (i : Nat) : Nat := 0x5006C + 0x1000 * i
abbrev Reg.ETH_IP6_GW0 (i : Nat) : Nat := 0x50070 + 0x1000 * i
abbrev Reg.ETH_IP6_GW1 (i : Nat) : Nat := 0x50074 + 0x1000 * i
abbrev Reg.ETH_IP6_GW2 (i : Nat) : Nat := 0x50078 + 0x1000 * i
abbrev Reg.ETH_IP6_GW3 (i : Nat) : Nat := 0x5007C + 0x1000 * i
abbrev Reg.ETH_IP6_PFX (i : Nat) : Nat := 0x50080 + 0x1000 * i
abbrev Reg.ETH_ING_CAL (i : Nat) : Nat := 0x50090 + 0x1000 * i
abbrev Reg.ETH_EG_CAL (i : Nat) : Nat := 0x50094 + 0x1000 * i
abbrev Reg.ETH_ING_ADJ (i : Nat) : Nat := 0x50098 + 0x1000 * i
abbrev Reg.ETH_EG_ADJ (i : Nat) : Nat := 0x5009C + 0x1000 * i
abbrev Reg.ETH_RX_OK (i : Nat) : Nat := 0x500A0 + 0x1000 * i
abbrev Reg.ETH_RX_ERR (i : Nat) : Nat := 0x500A4 + 0x1000 * i
abbrev Reg.ETH_TX_OK (i : Nat) : Nat := 0x500A8 + 0x1000 * i
abbrev Reg.ETH_DROP (i : Nat) : Nat := 0x500AC + 0x1000 * i
abbrev Reg.ETH_LINKDOWN (i : Nat) : Nat := 0x500B0 + 0x1000 * i
abbrev Reg.ETH_CNT_CLR (i : Nat) : Nat := 0x500C0 + 0x1000 * i
abbrev Reg.FEED_CFG : Nat := 0x52040
abbrev Reg.FEED_UDP_PORT : Nat := 0x52044
abbrev Reg.FEED_TIMERS : Nat := 0x52048
abbrev Reg.FEED_RTO : Nat := 0x5204C
abbrev Reg.FEED_EPOCH : Nat := 0x52050
abbrev Reg.FEED_PEER_SEL : Nat := 0x52080
abbrev Reg.FEED_PEER_W0 : Nat := 0x52084
abbrev Reg.FEED_PEER_KH0 : Nat := 0x52090
abbrev Reg.FEED_PEER_KH1 : Nat := 0x52094
abbrev Reg.FEED_PEER_KH2 : Nat := 0x52098
abbrev Reg.FEED_PEER_KH3 : Nat := 0x5209C
abbrev Reg.FEED_PEER_KH4 : Nat := 0x520A0
abbrev Reg.FEED_PEER_KH5 : Nat := 0x520A4
abbrev Reg.FEED_PEER_KH6 : Nat := 0x520A8
abbrev Reg.FEED_PEER_KH7 : Nat := 0x520AC
abbrev Reg.FEED_PEER_KH8 : Nat := 0x520B0
abbrev Reg.FEED_PEER_KH9 : Nat := 0x520B4
abbrev Reg.FEED_PEER_KH10 : Nat := 0x520B8
abbrev Reg.FEED_PEER_KH11 : Nat := 0x520BC
abbrev Reg.FEED_PEER_KH12 : Nat := 0x520C0
abbrev Reg.FEED_PEER_KH13 : Nat := 0x520C4
abbrev Reg.FEED_PEER_KH14 : Nat := 0x520C8
abbrev Reg.FEED_PEER_KH15 : Nat := 0x520CC
abbrev Reg.FEED_PEER_ADDR0 : Nat := 0x520D0
abbrev Reg.FEED_PEER_ADDR1 : Nat := 0x520D4
abbrev Reg.FEED_PEER_ADDR2 : Nat := 0x520D8
abbrev Reg.FEED_PEER_ADDR3 : Nat := 0x520DC
abbrev Reg.FEED_PEER_UDP : Nat := 0x520E0
abbrev Reg.FEED_PEER_EVT : Nat := 0x520E4
abbrev Reg.FEED_PEER_STAT : Nat := 0x520E8
abbrev Reg.FEED_PEER_EPOCH : Nat := 0x520EC
abbrev Reg.FEED_PEER_ACKRSN_LO : Nat := 0x520F0
abbrev Reg.FEED_PEER_ACKRSN_HI : Nat := 0x520F4
abbrev Reg.FEED_PEER_D : Nat := 0x520F8
abbrev Reg.FEED_HS_OK : Nat := 0x52100
abbrev Reg.FEED_HS_FAIL : Nat := 0x52104
abbrev Reg.FEED_REPLAY : Nat := 0x52108
abbrev Reg.FEED_AUTH_FAIL : Nat := 0x5210C
abbrev Reg.FEED_STALE_RX : Nat := 0x52110
abbrev Reg.FEED_RETX : Nat := 0x52114
abbrev Reg.FEED_TUN_OPS : Nat := 0x52118
abbrev Reg.FEED_CNT_CLR : Nat := 0x52120
abbrev Reg.PCIE_STAT : Nat := 0x53040
abbrev Reg.PCIE_PERST : Nat := 0x53044
abbrev Reg.PCIE_RPT_WR : Nat := 0x53050
abbrev Reg.PCIE_RPT_RD : Nat := 0x53054
abbrev Reg.PCIE_HTX_WR : Nat := 0x53058
abbrev Reg.PCIE_HTX_RD : Nat := 0x5305C
abbrev Reg.PCIE_HRX_WR : Nat := 0x53060
abbrev Reg.PCIE_HRX_RD : Nat := 0x53064
abbrev Reg.SVC_CFG : Nat := 0x54040
abbrev Reg.SVC_STAT : Nat := 0x54044
abbrev Reg.SVC_UNLOCK : Nat := 0x54048
abbrev Reg.SVC_CHAL0 : Nat := 0x54050
abbrev Reg.SVC_CHAL1 : Nat := 0x54054
abbrev Reg.SVC_RESP0 : Nat := 0x54058
abbrev Reg.SVC_RESP1 : Nat := 0x5405C
abbrev Reg.SVC_RESP2 : Nat := 0x54060
abbrev Reg.SVC_RESP3 : Nat := 0x54064
abbrev Reg.SVC_NAK : Nat := 0x54070
abbrev Reg.SVC_DENIED : Nat := 0x54074
abbrev Reg.SDC_STAT : Nat := 0x55040
abbrev Reg.SDC_FILE_N : Nat := 0x55044
abbrev Reg.SDC_FILE_SEL : Nat := 0x55048
abbrev Reg.SDC_FILE_NAME0 : Nat := 0x5504C
abbrev Reg.SDC_FILE_NAME1 : Nat := 0x55050
abbrev Reg.SDC_FILE_NAME2 : Nat := 0x55054
abbrev Reg.SDC_FILE_NAME3 : Nat := 0x55058
abbrev Reg.SDC_FILE_NAME4 : Nat := 0x5505C
abbrev Reg.SDC_FILE_NAME5 : Nat := 0x55060
abbrev Reg.SDC_FILE_NAME6 : Nat := 0x55064
abbrev Reg.SDC_FILE_NAME7 : Nat := 0x55068
abbrev Reg.SDC_FILE_LEN_LO : Nat := 0x5506C
abbrev Reg.SDC_FILE_LEN_HI : Nat := 0x55070
abbrev Reg.SDC_RESCAN : Nat := 0x55074
abbrev Reg.SDC_CRC_ERR : Nat := 0x55078
abbrev Reg.SDC_TIMEOUT : Nat := 0x5507C
abbrev Reg.THERM_TNOW : Nat := 0x58040
abbrev Reg.THERM_TMAX : Nat := 0x58044
abbrev Reg.THERM_TCFG : Nat := 0x58048
abbrev Reg.THERM_TSTAT : Nat := 0x5804C
abbrev Reg.CRY_HASH_CORES : Nat := 0x43080
abbrev Reg.CRY_PQC_FAULTS : Nat := 0x44080
abbrev Reg.CRY_PQC_RUN : Nat := 0x44084
abbrev Reg.CRY_PQC_ITER_MAX : Nat := 0x44088

/-- The registers of page kind SYS at 0x040 and above. -/
def specsSYS : List RegSpec :=
  [ ⟨0x040, 0x0, 0x0, 0x0, 0x0, 0x0, []⟩ /- INFO -/,
    ⟨0x044, 0x0, 0x0, 0x0, 0x0, 0x0, []⟩ /- SERIAL0 -/,
    ⟨0x048, 0x0, 0x0, 0x0, 0x0, 0x0, []⟩ /- SERIAL1 -/,
    ⟨0x04C, 0x0, 0x0, 0x0, 0x0, 0x0, []⟩ /- SERIAL2 -/,
    ⟨0x050, 0x0, 0x0, 0x0, 0x0, 0x0, []⟩ /- SERIAL3 -/,
    ⟨0x060, 0x0, 0x0, 0x0, 0x0, 0x0, []⟩ /- BOOTSTAT -/,
    ⟨0x064, 0x0, 0x0, 0x0, 0x0, 0x0, []⟩ /- RSTCAUSE -/,
    ⟨0x068, 0x0, 0x0, 0x0, 0x0, 0x0, []⟩ /- RESET -/,
    ⟨0x070, 0x0, 0xF33F, 0x0, 0x0, 0x0, []⟩ /- LANE_EN -/,
    ⟨0x078, 0x0, 0x0, 0x0, 0x0, 0x0, []⟩ /- ALERT_SRC -/,
    ⟨0x080, 0x0, 0x0, 0x0, 0x0, 0x0, []⟩ /- ERR_WR -/,
    ⟨0x084, 0x0, 0x1F, 0x0, 0x0, 0x0, []⟩ /- ERR_RD -/,
    ⟨0x088, 0x0, 0x0, 0x0, 0x0, 0x0, []⟩ /- ERR_D0 -/,
    ⟨0x08C, 0x0, 0x0, 0x0, 0x0, 0x0, []⟩ /- ERR_D1 -/,
    ⟨0x090, 0x0, 0x0, 0x0, 0x0, 0x0, []⟩ /- ERR_D2 -/,
    ⟨0x094, 0x0, 0x0, 0x0, 0x0, 0x0, []⟩ /- ERR_D3 -/,
    ⟨0x098, 0x0, 0x0, 0x0, 0x0, 0x0, []⟩ /- ERR_OVF -/,
    ⟨0x0C0, 0x0, 0x0, 0x0, 0x0, 0x0, []⟩ /- MODE -/,
    ⟨0x0C4, 0x0, 0x30000, 0x0, 0x0, 0x0, []⟩ /- PROV -/ ]

/-- The registers of page kind CLK at 0x040 and above. -/
def specsCLK : List RegSpec :=
  [ ⟨0x040, 0x0, 0xF, 0x0, 0x0, 0x0, []⟩ /- CLK_SEL -/,
    ⟨0x044, 0x0, 0x0, 0x0, 0x0, 0x0, []⟩ /- CLK_STAT -/ ]

/-- The registers of page kind PWR at 0x040 and above. -/
def specsPWR : List RegSpec :=
  [ ⟨0x040, 0x0, 0x0, 0x0, 0x0, 0x0, []⟩ /- PWRSTAT -/,
    ⟨0x044, 0x0, 0x0, 0x0, 0x0, 0x0, []⟩ /- BANKCAL -/,
    ⟨0x048, 0x0, 0x0, 0x0, 0x0, 0x0, []⟩ /- BANKPAR -/,
    ⟨0x04C, 0x12C0, 0x0, 0xFFFF, 0x0, 0x80000000, [⟨15, 0, 4500, 4900⟩]⟩ /- BANKCFG -/,
    ⟨0x050, 0x0, 0x0, 0x0, 0x0, 0x0, []⟩ /- INPUT -/,
    ⟨0x060, 0x0, 0x1F, 0x0, 0x0, 0x0, []⟩ /- DOM_SEL -/,
    ⟨0x064, 0x0, 0x0, 0x0, 0x0, 0x0, []⟩ /- DOM_STAT -/,
    ⟨0x068, 0x0, 0x0, 0x0, 0x0, 0x0, []⟩ /- DOM_CMD -/,
    ⟨0x06C, 0x0, 0x1, 0x0, 0x0, 0x0, []⟩ /- DOM_CFG -/,
    ⟨0x070, 0x0, 0x0, 0x0, 0x0, 0x0, []⟩ /- DOM_WAKES -/,
    ⟨0x080, 0x0, 0xFFFFFFFF, 0x0, 0x0, 0x0, []⟩ /- WAKEPAT0 -/,
    ⟨0x084, 0x0, 0xFFFFFFFF, 0x0, 0x0, 0x0, []⟩ /- WAKEPAT1 -/,
    ⟨0x088, 0x0, 0xFFFFFFFF, 0x0, 0x0, 0x0, []⟩ /- WAKEPAT2 -/,
    ⟨0x08C, 0x0, 0xFFFFFFFF, 0x0, 0x0, 0x0, []⟩ /- WAKEPAT3 -/,
    ⟨0x090, 0x0, 0xFFFFFFFF, 0x0, 0x0, 0x0, []⟩ /- WAKEMASK0 -/,
    ⟨0x094, 0x0, 0xFFFFFFFF, 0x0, 0x0, 0x0, []⟩ /- WAKEMASK1 -/,
    ⟨0x098, 0x0, 0xFFFFFFFF, 0x0, 0x0, 0x0, []⟩ /- WAKEMASK2 -/,
    ⟨0x09C, 0x0, 0xFFFFFFFF, 0x0, 0x0, 0x0, []⟩ /- WAKEMASK3 -/,
    ⟨0x0A0, 0x0, 0x7FF, 0x0, 0x0, 0x0, []⟩ /- WPOFS -/,
    ⟨0x0B0, 0x0, 0x0, 0x0, 0x0, 0x0, []⟩ /- LASTREF -/,
    ⟨0x0B4, 0x0, 0x0, 0x0, 0x0, 0x0, []⟩ /- LASTREF_AT_LO -/,
    ⟨0x0B8, 0x0, 0x0, 0x0, 0x0, 0x0, []⟩ /- LASTREF_AT_HI -/,
    ⟨0x200, 0x0, 0x0, 0x0, 0x0, 0x0, []⟩ /- REF_OTHER -/,
    ⟨0x204, 0x0, 0x0, 0x0, 0x0, 0x0, []⟩ /- REF_CLR -/,
    ⟨0x210, 0x0, 0x0, 0x0, 0x80000000, 0x0, []⟩ /- CELL -/ ]
  ++ specArray 0x8 32 ⟨0x100, 0x0, 0xFF, 0x0, 0x0, 0x0, []⟩ /- REF_ID -/
  ++ specArray 0x8 32 ⟨0x104, 0x0, 0x0, 0x0, 0x0, 0x0, []⟩ /- REF_CNT -/

/-- The registers of page kind EVT at 0x040 and above. -/
def specsEVT : List RegSpec :=
  [ ⟨0x040, 0x0, 0x0, 0x0, 0x0, 0x0, []⟩ /- LINE_LO -/,
    ⟨0x044, 0x0, 0x0, 0x0, 0x0, 0x0, []⟩ /- LINE_HI -/,
    ⟨0x048, 0x0, 0xFFFFFFFF, 0x0, 0x0, 0x0, []⟩ /- DB_MASK_LO -/,
    ⟨0x04C, 0x80000000, 0xFFFFFFFF, 0x0, 0x0, 0x0, []⟩ /- DB_MASK_HI -/,
    ⟨0x050, 0x0, 0x0, 0x0, 0x0, 0x0, []⟩ /- RESEND_LO -/,
    ⟨0x054, 0x0, 0x0, 0x0, 0x0, 0x0, []⟩ /- RESEND_HI -/,
    ⟨0x060, 0x0, 0x3F, 0x0, 0x0, 0x0, []⟩ /- SRC_LINE -/,
    ⟨0x064, 0x0, 0x0, 0x0, 0x0, 0x0, []⟩ /- SRC0 -/,
    ⟨0x068, 0x0, 0x0, 0x0, 0x0, 0x0, []⟩ /- SRC1 -/,
    ⟨0x06C, 0x0, 0x0, 0x0, 0x0, 0x0, []⟩ /- SRC2 -/,
    ⟨0x070, 0x0, 0x0, 0x0, 0x0, 0x0, []⟩ /- SRC3 -/,
    ⟨0x074, 0x0, 0x0, 0x0, 0x0, 0x0, []⟩ /- SRC4 -/,
    ⟨0x078, 0x0, 0x0, 0x0, 0x0, 0x0, []⟩ /- SRC5 -/,
    ⟨0x07C, 0x0, 0x0, 0x0, 0x0, 0x0, []⟩ /- SRC6 -/,
    ⟨0x080, 0x0, 0x0, 0x0, 0x0, 0x0, []⟩ /- SRC7 -/,
    ⟨0x084, 0x0, 0x0, 0x0, 0x0, 0x0, []⟩ /- MSG_CNT -/ ]

/-- The registers of page kind SWEEP at 0x040 and above. -/
def specsSWEEP : List RegSpec :=
  [ ⟨0x040, 0x0, 0x0, 0x0, 0x0, 0x0, []⟩ /- NOW_LO -/,
    ⟨0x044, 0x0, 0x0, 0x0, 0x0, 0x0, []⟩ /- NOW_HI -/,
    ⟨0x048, 0x1080, 0x0, 0xFFF3, 0x0, 0x80000000, []⟩ /- LOCKCTL -/,
    ⟨0x04C, 0x1000, 0x0, 0x0, 0x0, 0x0, []⟩ /- LOCKSTAT -/,
    ⟨0x050, 0x0, 0x0, 0x0, 0x0, 0x0, []⟩ /- PERIOD -/,
    ⟨0x054, 0x0, 0x0, 0x0, 0x0, 0x0, []⟩ /- FREQ -/,
    ⟨0x058, 0x0, 0x0, 0x0, 0x0, 0x0, []⟩ /- HOLDCYC -/,
    ⟨0x05C, 0x0, 0x0, 0x0, 0x0, 0x0, []⟩ /- PHOFS -/,
    ⟨0x060, 0x0, 0x0, 0x0, 0x0, 0x0, []⟩ /- OUT_EST -/,
    ⟨0x064, 0x0, 0x0, 0x0, 0x0, 0x0, []⟩ /- OUT_VIG -/,
    ⟨0x070, 0x0, 0x0, 0x0, 0x0, 0x0, []⟩ /- CAP_CYC -/,
    ⟨0x074, 0x0, 0x0, 0x0, 0x0, 0x0, []⟩ /- CAP_SEC_LO -/,
    ⟨0x078, 0x0, 0x0, 0x0, 0x0, 0x0, []⟩ /- CAP_SEC_HI -/,
    ⟨0x07C, 0x0, 0x0, 0x0, 0x0, 0x0, []⟩ /- CAP_NS -/,
    ⟨0x080, 0x4, 0x0, 0x0, 0x8, 0x0, []⟩ /- CIVSTAT -/,
    ⟨0x084, 0x0, 0x0, 0x0, 0x0, 0x0, []⟩ /- ZCOMMIT -/,
    ⟨0x088, 0x0, 0xFFFFFFFF, 0x0, 0x0, 0x0, []⟩ /- ZVALID_LO -/,
    ⟨0x08C, 0x0, 0xFFFF, 0x0, 0x0, 0x0, []⟩ /- ZVALID_HI -/,
    ⟨0x090, 0x0, 0x0, 0x0, 0x0, 0x0, []⟩ /- CSTEP -/,
    ⟨0x094, 0x0, 0x0, 0x0, 0x0, 0x0, []⟩ /- CSTEP_AT_LO -/,
    ⟨0x098, 0x0, 0x0, 0x0, 0x0, 0x0, []⟩ /- CSTEP_AT_HI -/,
    ⟨0x0A0, 0x0, 0xFFFFFFFF, 0x0, 0x0, 0x0, []⟩ /- PREC_CUR_LO -/,
    ⟨0x0A4, 0x0, 0xFFFF, 0x0, 0x0, 0x0, []⟩ /- PREC_CUR_HI -/,
    ⟨0x0A8, 0x0, 0x0, 0x0, 0x0, 0x0, []⟩ /- PREC_DATA -/ ]
  ++ specArray 0x10 16 ⟨0x100, 0x0, 0xFFFFFFFF, 0x0, 0x0, 0x0, []⟩ /- MARK_AT_LO -/
  ++ specArray 0x10 16 ⟨0x104, 0x0, 0xFFFFFFFF, 0x0, 0x0, 0x0, []⟩ /- MARK_AT_HI -/
  ++ specArray 0x10 16 ⟨0x108, 0x0, 0xFFFF0007, 0x0, 0x0, 0x0, []⟩ /- MARK_CTL -/
  ++ specArray 0x10 16 ⟨0x10C, 0x0, 0x0, 0x0, 0x3, 0x0, []⟩ /- MARK_STAT -/
  ++ specArray 0x10 32 ⟨0x200, 0x0, 0xFFFFFFFF, 0x0, 0x0, 0x0, []⟩ /- ZONE_EFF_LO -/
  ++ specArray 0x10 32 ⟨0x204, 0x0, 0x8000FFFF, 0x0, 0x0, 0x0, []⟩ /- ZONE_EFF_HI -/
  ++ specArray 0x10 32 ⟨0x208, 0x0, 0xFFFFFFFF, 0x0, 0x0, 0x0, []⟩ /- ZONE_OFFS -/
  ++ specArray 0x10 32 ⟨0x20C, 0x0, 0x0, 0x0, 0x0, 0x0, []⟩ /- ZONE_RSV -/

/-- The registers of page kind SLALOM at 0x040 and above. -/
def specsSLALOM : List RegSpec :=
  [ ⟨0x040, 0x20801, 0x2, 0xFFFF01, 0x0, 0x80000000, []⟩ /- CFG -/,
    ⟨0x044, 0x0, 0x0, 0x0, 0x0, 0x0, []⟩ /- STATUS -/,
    ⟨0x048, 0x0, 0x0, 0x0, 0x0, 0x0, []⟩ /- CAL_HWM -/,
    ⟨0x060, 0x0, 0x0, 0x0, 0x0, 0x0, []⟩ /- CLS0 -/,
    ⟨0x064, 0x0, 0x0, 0x0, 0x0, 0x0, []⟩ /- CLS1 -/,
    ⟨0x068, 0x0, 0x0, 0x0, 0x0, 0x0, []⟩ /- CLS2 -/,
    ⟨0x06C, 0x0, 0x0, 0x0, 0x0, 0x0, []⟩ /- CLS3 -/,
    ⟨0x070, 0x0, 0x0, 0x0, 0x0, 0x0, []⟩ /- CLS4 -/,
    ⟨0x080, 0x0, 0x0, 0x0, 0x0, 0x0, []⟩ /- E_USABLE -/,
    ⟨0x084, 0x0, 0x0, 0x0, 0x0, 0x0, []⟩ /- E_FIX -/,
    ⟨0x088, 0x64, 0x0, 0xFFFF, 0x0, 0x0, []⟩ /- E_GUARD -/,
    ⟨0x08C, 0x0, 0x0, 0x0, 0x0, 0x0, []⟩ /- E_UNC -/,
    ⟨0x090, 0x0, 0x0, 0x0, 0x0, 0x0, []⟩ /- E_HEAD -/,
    ⟨0x094, 0x0, 0x0, 0x0, 0x0, 0x0, []⟩ /- COVER -/,
    ⟨0x098, 0x0, 0x0, 0x0, 0x0, 0x0, []⟩ /- COVER_DROP -/,
    ⟨0x0A0, 0x0, 0xFF, 0x0, 0x0, 0x0, []⟩ /- RES_SEL -/,
    ⟨0x0A4, 0x0, 0x0, 0x0, 0x0, 0x0, []⟩ /- RES_STAT -/,
    ⟨0x0A8, 0x0, 0x0, 0xFF, 0x0, 0x0, []⟩ /- RES_RETRY -/,
    ⟨0x0AC, 0x0, 0x0, 0x0, 0x0, 0x0, []⟩ /- RES_LOAD -/,
    ⟨0x0B0, 0x0, 0x0, 0x0, 0x0, 0x0, []⟩ /- RES_RUSED -/,
    ⟨0x0C0, 0x0, 0x8E00FF00, 0x0, 0x0, 0x0, []⟩ /- REQ_CTL -/,
    ⟨0x0C4, 0x0, 0x80001FFF, 0x0, 0x0, 0x0, []⟩ /- REQ_TGT -/,
    ⟨0x0C8, 0x0, 0xFFFFFFFF, 0x0, 0x0, 0x0, []⟩ /- REQ_HANDLE -/,
    ⟨0x0CC, 0x0, 0xFFFFFF, 0x0, 0x0, 0x0, []⟩ /- REQ_LEN -/,
    ⟨0x0D0, 0x0, 0xFFFFFFFF, 0x0, 0x0, 0x0, []⟩ /- REQ_DL_LO -/,
    ⟨0x0D4, 0x0, 0xFFFFFFFF, 0x0, 0x0, 0x0, []⟩ /- REQ_DL_HI -/,
    ⟨0x0D8, 0x0, 0x0, 0x0, 0x0, 0x0, []⟩ /- REQ_GO -/,
    ⟨0x0E0, 0x0, 0x0, 0x0, 0x0, 0x0, []⟩ /- RESP_STAT -/,
    ⟨0x0E4, 0x0, 0x0, 0x0, 0x0, 0x0, []⟩ /- RESP_OBL -/,
    ⟨0x0E8, 0x0, 0x0, 0x0, 0x0, 0x0, []⟩ /- RESP_EFD_LO -/,
    ⟨0x0EC, 0x0, 0x0, 0x0, 0x0, 0x0, []⟩ /- RESP_EFD_HI -/,
    ⟨0x0F0, 0x0, 0x0, 0x0, 0x0, 0x0, []⟩ /- CANCEL -/,
    ⟨0x100, 0x0, 0x0, 0x0, 0x0, 0x0, []⟩ /- OUT_WR -/,
    ⟨0x104, 0x0, 0xFFF, 0x0, 0x0, 0x0, []⟩ /- OUT_RD -/,
    ⟨0x108, 0x0, 0x0, 0x0, 0x0, 0x0, []⟩ /- OUT_OVF -/,
    ⟨0x110, 0x0, 0x0, 0x0, 0x0, 0x0, []⟩ /- OUT_DATA0 -/,
    ⟨0x114, 0x0, 0x0, 0x0, 0x0, 0x0, []⟩ /- OUT_DATA1 -/,
    ⟨0x118, 0x0, 0x0, 0x0, 0x0, 0x0, []⟩ /- OUT_DATA2 -/,
    ⟨0x11C, 0x0, 0x0, 0x0, 0x0, 0x0, []⟩ /- OUT_DATA3 -/,
    ⟨0x120, 0x0, 0xFF, 0x0, 0x0, 0x0, []⟩ /- REV_SEL -/,
    ⟨0x124, 0x0, 0x0, 0x0, 0x0, 0x0, []⟩ /- REV_CNT -/,
    ⟨0x128, 0x0, 0x0, 0x0, 0x0, 0x0, []⟩ /- CANCEL_LATE -/ ]

/-- The registers of page kind PTP at 0x040 and above. -/
def specsPTP : List RegSpec :=
  [ ⟨0x040, 0x101, 0x0, 0x37F0311, 0x0, 0x80000000, []⟩ /- CFG -/,
    ⟨0x044, 0xF4240, 0x0, 0xFFFFFFFF, 0x0, 0x0, [⟨31, 0, 1000, 1000000000⟩]⟩ /- STEP_TH -/,
    ⟨0x048, 0x0, 0x0, 0x0, 0x0, 0x0, []⟩ /- STAT -/,
    ⟨0x04C, 0x0, 0x0, 0x0, 0x0, 0x0, []⟩ /- OFS -/,
    ⟨0x050, 0x0, 0x0, 0x0, 0x0, 0x0, []⟩ /- MPD -/,
    ⟨0x054, 0x0, 0x0, 0x0, 0x0, 0x0, []⟩ /- GM_LO -/,
    ⟨0x058, 0x0, 0x0, 0x0, 0x0, 0x0, []⟩ /- GM_HI -/,
    ⟨0x060, 0x0, 0x0, 0x0, 0x0, 0x0, []⟩ /- TSQ_STAT -/,
    ⟨0x064, 0x0, 0x0, 0x0, 0x0, 0x0, []⟩ /- TSQ_D0 -/,
    ⟨0x068, 0x0, 0x0, 0x0, 0x0, 0x0, []⟩ /- TSQ_D1 -/,
    ⟨0x06C, 0x0, 0x0, 0x0, 0x0, 0x0, []⟩ /- TSQ_D2 -/,
    ⟨0x070, 0x0, 0x0, 0x0, 0x0, 0x0, []⟩ /- TSQ_D3 -/,
    ⟨0x074, 0x0, 0x0, 0x0, 0x0, 0x0, []⟩ /- TSQ_POP -/,
    ⟨0x078, 0x0, 0x0, 0x0, 0x0, 0x0, []⟩ /- TSQ_OVF -/,
    ⟨0x1C0, 0x0, 0xF, 0x0, 0x0, 0x0, []⟩ /- SNAP_SEL -/,
    ⟨0x1C4, 0x0, 0x0, 0x0, 0x0, 0x0, []⟩ /- SNAP_D0 -/,
    ⟨0x1C8, 0x0, 0x0, 0x0, 0x0, 0x0, []⟩ /- SNAP_D1 -/,
    ⟨0x1CC, 0x0, 0x0, 0x0, 0x0, 0x0, []⟩ /- SNAP_D2 -/,
    ⟨0x1D0, 0x0, 0x0, 0x0, 0x0, 0x0, []⟩ /- SNAP_D3 -/,
    ⟨0x1D4, 0x0, 0x0, 0x0, 0x0, 0x0, []⟩ /- SNAP_D4 -/,
    ⟨0x1D8, 0x0, 0x0, 0x0, 0x0, 0x0, []⟩ /- SNAP_D5 -/,
    ⟨0x1DC, 0x0, 0x0, 0x0, 0x0, 0x0, []⟩ /- SNAP_D6 -/,
    ⟨0x1E0, 0x0, 0x0, 0x0, 0x0, 0x0, []⟩ /- SNAP_D7 -/ ]
  ++ specArray 0x20 4 ⟨0x100, 0x0, 0xFFFFFFFF, 0x0, 0x0, 0x0, []⟩ /- TRIG_SEC_LO -/
  ++ specArray 0x20 4 ⟨0x104, 0x0, 0xFFFF, 0x0, 0x0, 0x0, []⟩ /- TRIG_SEC_HI -/
  ++ specArray 0x20 4 ⟨0x108, 0x0, 0x3FFFFFFF, 0x0, 0x0, 0x0, []⟩ /- TRIG_NS -/
  ++ specArray 0x20 4 ⟨0x10C, 0x0, 0xFFFF000F, 0x0, 0x0, 0x0, []⟩ /- TRIG_CTL -/
  ++ specArray 0x20 4 ⟨0x110, 0x0, 0x0, 0x0, 0x3, 0x0, []⟩ /- TRIG_STAT -/
  ++ specArray 0x4 16 ⟨0x180, 0x0, 0x800FFFFF, 0x0, 0x0, 0x0, []⟩ /- SNAP_CH -/
  ++ specArray 0x10 8 ⟨0x200, 0x0, 0xF3, 0x0, 0x0, 0x0, []⟩ /- CAP_CTL -/
  ++ specArray 0x10 8 ⟨0x204, 0x0, 0x0, 0x0, 0x0, 0x0, []⟩ /- CAP_SEC_LO -/
  ++ specArray 0x10 8 ⟨0x208, 0x0, 0x0, 0x0, 0x0, 0x0, []⟩ /- CAP_SEC_HI -/
  ++ specArray 0x10 8 ⟨0x20C, 0x0, 0x0, 0x0, 0x0, 0x0, []⟩ /- CAP_NS -/

/-- The registers of page kind LINE at 0x040 and above. -/
def specsLINE : List RegSpec :=
  [ ⟨0x040, 0x0, 0x0, 0x1F07, 0x0, 0x80000000, []⟩ /- PHYCFG -/,
    ⟨0x044, 0x80002024, 0x8000FFFF, 0x0, 0x0, 0x0, []⟩ /- BLANKCFG -/,
    ⟨0x048, 0x0, 0x0, 0x0, 0x0, 0x0, []⟩ /- STAT -/,
    ⟨0x04C, 0x0, 0x0, 0x0, 0x0, 0x0, []⟩ /- SNR -/,
    ⟨0x050, 0x0, 0x0, 0x0, 0x0, 0x0, []⟩ /- FR_OK -/,
    ⟨0x054, 0x0, 0x0, 0x0, 0x0, 0x0, []⟩ /- FR_CRC -/,
    ⟨0x058, 0x0, 0x0, 0x0, 0x0, 0x0, []⟩ /- FR_HDR -/,
    ⟨0x05C, 0x0, 0x0, 0x0, 0x0, 0x0, []⟩ /- FR_XTALK -/,
    ⟨0x060, 0x0, 0x0, 0x0, 0x0, 0x0, []⟩ /- FR_ABORT -/,
    ⟨0x064, 0x0, 0x0, 0x0, 0x0, 0x0, []⟩ /- BLANK_SAMP -/,
    ⟨0x068, 0x0, 0x0, 0x0, 0x0, 0x0, []⟩ /- SYM_ERASED -/,
    ⟨0x06C, 0x0, 0x0, 0x0, 0x0, 0x0, []⟩ /- CLIP -/,
    ⟨0x070, 0x0, 0x0, 0x0, 0x0, 0x0, []⟩ /- CNT_CLR -/ ]

/-- The registers of page kind LINEC at 0x040 and above. -/
def specsLINEC : List RegSpec :=
  [ ⟨0x040, 0x0, 0x0, 0x3, 0x0, 0x80000000, []⟩ /- BANDCFG -/,
    ⟨0x044, 0x400, 0xFFFF, 0x0, 0x0, 0x0, []⟩ /- FSA_P1 -/,
    ⟨0x048, 0x400, 0xFFFF, 0x0, 0x0, 0x0, []⟩ /- FSA_P2 -/,
    ⟨0x04C, 0x400, 0xFFFF, 0x0, 0x0, 0x0, []⟩ /- FSA_P3 -/,
    ⟨0x050, 0x382010FC, 0xFFFFFFFF, 0x0, 0x0, 0x0, []⟩ /- THRESH -/,
    ⟨0x054, 0xF4082848, 0xFFFFFFFF, 0x0, 0x0, 0x0, []⟩ /- STEPCFG -/,
    ⟨0x058, 0x3E80303, 0xFFFF0F07, 0x0, 0x0, 0x0, []⟩ /- LINKCFG -/,
    ⟨0x05C, 0x1C0, 0xFFF, 0x0, 0x0, 0x0, []⟩ /- LONGPRE -/,
    ⟨0x060, 0x0, 0x0, 0x0, 0x0, 0x0, []⟩ /- PHTEMP -/,
    ⟨0x064, 0x0, 0x0, 0x0, 0x0, 0x0, []⟩ /- PHFOLD -/,
    ⟨0x068, 0x0, 0x0, 0x0, 0x0, 0x0, []⟩ /- LVLMAX -/ ]

/-- The registers of page kind LINEM at 0x040 and above. -/
def specsLINEM : List RegSpec :=
  [ ⟨0x040, 0x21, 0x0, 0xFF, 0x0, 0x80000000, []⟩ /- KLPCFG -/,
    ⟨0x044, 0x1002003, 0x0, 0xFFFFF007, 0x0, 0x0, [⟨31, 16, 64, 4096⟩]⟩ /- BCNCFG -/,
    ⟨0x048, 0xBB8, 0xFFFF, 0x0, 0x0, 0x0, []⟩ /- SRCHCFG -/,
    ⟨0x04C, 0x3A9820C0, 0xFFFFFFFF, 0x0, 0x0, 0x0, []⟩ /- RPTCFG -/,
    ⟨0x050, 0x36000, 0xFF00, 0x30000, 0x0, 0x0, []⟩ /- PILOTCFG -/,
    ⟨0x054, 0x0, 0x0, 0x0, 0x0, 0x0, []⟩ /- PILOTSTAT -/,
    ⟨0x058, 0x0, 0x0, 0x0, 0x0, 0x0, []⟩ /- PILOT_MISS -/,
    ⟨0x080, 0x0, 0x1FFF, 0x0, 0x0, 0x0, []⟩ /- NODE_SEL -/,
    ⟨0x084, 0x0, 0xFFFFFFFF, 0x0, 0x0, 0x0, []⟩ /- NODE_SER_LO -/,
    ⟨0x088, 0x0, 0xFFFFFFFF, 0x0, 0x0, 0x0, []⟩ /- NODE_SER_HI -/,
    ⟨0x08C, 0x0, 0xFF, 0x0, 0x0, 0x0, []⟩ /- NODE_CTL -/,
    ⟨0x090, 0x1C000000, 0x0, 0x0, 0x0, 0x0, []⟩ /- NODE_STAT -/,
    ⟨0x094, 0x0, 0x0, 0x0, 0x0, 0x0, []⟩ /- NODE_SNR -/,
    ⟨0x098, 0x0, 0x0, 0x0, 0x0, 0x0, []⟩ /- NODE_HRD_LO -/,
    ⟨0x09C, 0x0, 0x0, 0x0, 0x0, 0x0, []⟩ /- NODE_HRD_HI -/,
    ⟨0x0A0, 0x0, 0x0, 0x0, 0x0, 0x0, []⟩ /- NODE_FCNT -/,
    ⟨0x0C0, 0x0, 0x0, 0x0, 0x0, 0x0, []⟩ /- ROUTE_HDR -/,
    ⟨0x0C4, 0x0, 0x0, 0x0, 0x0, 0x0, []⟩ /- ROUTE_A -/,
    ⟨0x0C8, 0x0, 0x0, 0x0, 0x0, 0x0, []⟩ /- ROUTE_B -/,
    ⟨0x0CC, 0x0, 0x0, 0x0, 0x0, 0x0, []⟩ /- ROUTE_C -/,
    ⟨0x0E0, 0x0, 0x0, 0x0, 0x0, 0x0, []⟩ /- JOIN_OK -/,
    ⟨0x0E4, 0x0, 0x0, 0x0, 0x0, 0x0, []⟩ /- JOIN_UNK -/,
    ⟨0x0E8, 0x0, 0x0, 0x0, 0x0, 0x0, []⟩ /- AUTH_FAIL -/,
    ⟨0x0EC, 0x0, 0x0, 0x0, 0x0, 0x0, []⟩ /- HDR_ERR -/,
    ⟨0x0F0, 0x0, 0x0, 0x0, 0x0, 0x0, []⟩ /- MIC_FAIL -/,
    ⟨0x0F4, 0x0, 0x0, 0x0, 0x0, 0x0, []⟩ /- SEQ_ERR -/,
    ⟨0x0F8, 0x0, 0x0, 0x0, 0x0, 0x0, []⟩ /- RFAIL_RX -/,
    ⟨0x0FC, 0x0, 0x0, 0x0, 0x0, 0x0, []⟩ /- REC_ERR -/,
    ⟨0x100, 0x0, 0x0, 0x0, 0x0, 0x0, []⟩ /- UNK_SER_LO -/,
    ⟨0x104, 0x0, 0x0, 0x0, 0x0, 0x0, []⟩ /- UNK_SER_HI -/,
    ⟨0x108, 0x0, 0x0, 0x0, 0x0, 0x0, []⟩ /- CNT_CLR -/ ]

/-- The registers of page kind AIR at 0x040 and above. -/
def specsAIR : List RegSpec :=
  [ ⟨0x040, 0xE0008, 0x0, 0x1F03FF, 0x0, 0x80000000, [⟨7, 0, 4, 64⟩]⟩ /- RFCFG -/,
    ⟨0x044, 0x20, 0x0, 0xFF, 0x0, 0x0, []⟩ /- CHAN -/,
    ⟨0x048, 0x0, 0x0, 0x0, 0x0, 0x0, []⟩ /- STAT -/,
    ⟨0x04C, 0x0, 0x0, 0x0, 0x0, 0x0, []⟩ /- RSSI -/,
    ⟨0x050, 0x0, 0x0, 0x0, 0x0, 0x0, []⟩ /- FR_OK -/,
    ⟨0x054, 0x0, 0x0, 0x0, 0x0, 0x0, []⟩ /- FR_FCS -/,
    ⟨0x058, 0x0, 0x0, 0x0, 0x0, 0x0, []⟩ /- FR_HDR -/,
    ⟨0x05C, 0x0, 0x0, 0x0, 0x0, 0x0, []⟩ /- SEC_FAIL -/,
    ⟨0x060, 0x0, 0x0, 0x0, 0x0, 0x0, []⟩ /- TX_FR -/,
    ⟨0x064, 0x0, 0x0, 0x0, 0x0, 0x0, []⟩ /- TX_HELD -/,
    ⟨0x068, 0x0, 0x0, 0x0, 0x0, 0x0, []⟩ /- BCN_SKIP -/,
    ⟨0x06C, 0x0, 0x0, 0x0, 0x0, 0x0, []⟩ /- RETRY -/,
    ⟨0x070, 0x0, 0x0, 0x0, 0x0, 0x0, []⟩ /- CNT_CLR -/ ]

/-- The registers of page kind AIRC at 0x040 and above. -/
def specsAIRC : List RegSpec :=
  [ ⟨0x040, 0x0, 0x0, 0x3, 0x0, 0x80000000, []⟩ /- REGCFG -/,
    ⟨0x044, 0x808, 0x0, 0xFFFF, 0x0, 0x0, []⟩ /- ANTGAIN -/,
    ⟨0x048, 0x250010, 0x0, 0xFF00FF, 0x0, 0x0, []⟩ /- HOPCFG -/,
    ⟨0x050, 0xFFFFFFFF, 0x0, 0xFFFFFFFF, 0x0, 0x0, []⟩ /- US_MASK0 -/,
    ⟨0x054, 0xFFFFFFFF, 0x0, 0xFFFFFFFF, 0x0, 0x0, []⟩ /- US_MASK1 -/,
    ⟨0x058, 0xFFFFFFFF, 0x0, 0xFFFFFFFF, 0x0, 0x0, []⟩ /- US_MASK2 -/,
    ⟨0x05C, 0xFFFFFFFF, 0x0, 0xFFFFFFFF, 0x0, 0x0, []⟩ /- US_MASK3 -/,
    ⟨0x060, 0xFFFFFFFF, 0x0, 0xFFFFFFFF, 0x0, 0x0, []⟩ /- US_MASK4 -/,
    ⟨0x070, 0x0, 0xFF, 0x0, 0x0, 0x0, []⟩ /- SB_SEL -/,
    ⟨0x074, 0x0, 0x0, 0x0, 0x0, 0x0, []⟩ /- SB_LIMIT -/,
    ⟨0x078, 0x0, 0x0, 0x0, 0x0, 0x0, []⟩ /- SB_USED -/,
    ⟨0x07C, 0x0, 0x0, 0x0, 0x0, 0x0, []⟩ /- SB_PEAK -/,
    ⟨0x080, 0x1, 0x0, 0x0, 0x0, 0x0, []⟩ /- DUTYSTAT -/,
    ⟨0x084, 0xE6, 0xFF, 0x0, 0x0, 0x0, []⟩ /- LOWMARK -/,
    ⟨0x088, 0x0, 0x0, 0x0, 0x0, 0x0, []⟩ /- LOW_AT0 -/,
    ⟨0x08C, 0x0, 0x0, 0x0, 0x0, 0x0, []⟩ /- LOW_AT1 -/,
    ⟨0x090, 0x0, 0x0, 0x0, 0x0, 0x0, []⟩ /- LOW_AT2 -/ ]

/-- The registers of page kind AIRM at 0x040 and above. -/
def specsAIRM : List RegSpec :=
  [ ⟨0x040, 0x31, 0x0, 0xFF, 0x0, 0x80000000, []⟩ /- KAPCFG -/,
    ⟨0x044, 0x1002000, 0x0, 0xFFFFF000, 0x0, 0x0, [⟨31, 16, 64, 4096⟩]⟩ /- BCNCFG -/,
    ⟨0x048, 0xBB80100, 0xFFFFFFFF, 0x0, 0x0, 0x0, []⟩ /- SRCHCFG -/,
    ⟨0x04C, 0x1F40FA0, 0xFFFFFFFF, 0x0, 0x0, 0x0, []⟩ /- TIMECFG -/,
    ⟨0x050, 0x5A0, 0xFFFF, 0x0, 0x0, 0x0, [⟨15, 0, 60, 10080⟩]⟩ /- LEASECFG -/,
    ⟨0x054, 0x0, 0x0, 0xFFFF, 0x0, 0x0, []⟩ /- PANCFG -/,
    ⟨0x058, 0x3, 0xF, 0x0, 0x0, 0x0, []⟩ /- RETRYCFG -/,
    ⟨0x080, 0x0, 0x1FFF, 0x0, 0x0, 0x0, []⟩ /- NODE_SEL -/,
    ⟨0x090, 0x0, 0x0, 0x0, 0x0, 0x0, []⟩ /- NODE_STAT -/,
    ⟨0x094, 0x0, 0xFFFFFFFF, 0x0, 0x0, 0x0, []⟩ /- NODE_RDV -/,
    ⟨0x098, 0x0, 0xFFFF, 0x0, 0x0, 0x0, []⟩ /- NODE_ANG -/,
    ⟨0x09C, 0x0, 0x0, 0x0, 0x0, 0x0, []⟩ /- NODE_LEASE -/,
    ⟨0x0A0, 0x0, 0x0, 0x0, 0x0, 0x0, []⟩ /- NODE_HRD_LO -/,
    ⟨0x0A4, 0x0, 0x0, 0x0, 0x0, 0x0, []⟩ /- NODE_HRD_HI -/,
    ⟨0x0A8, 0x0, 0x0, 0x0, 0x0, 0x0, []⟩ /- NODE_FCNT -/,
    ⟨0x0E0, 0x0, 0x0, 0x0, 0x0, 0x0, []⟩ /- JOIN_OK -/,
    ⟨0x0E4, 0x0, 0x0, 0x0, 0x0, 0x0, []⟩ /- JOIN_UNK -/,
    ⟨0x0E8, 0x0, 0x0, 0x0, 0x0, 0x0, []⟩ /- AUTH_FAIL -/,
    ⟨0x0EC, 0x0, 0x0, 0x0, 0x0, 0x0, []⟩ /- REJOIN_OK -/,
    ⟨0x0F0, 0x0, 0x0, 0x0, 0x0, 0x0, []⟩ /- SEQ_ERR -/,
    ⟨0x0F4, 0x0, 0x0, 0x0, 0x0, 0x0, []⟩ /- REC_ERR -/,
    ⟨0x0F8, 0x0, 0x0, 0x0, 0x0, 0x0, []⟩ /- REKEY_OK -/,
    ⟨0x0FC, 0x0, 0x0, 0x0, 0x0, 0x0, []⟩ /- REKEY_FAIL -/,
    ⟨0x100, 0x0, 0x0, 0x0, 0x0, 0x0, []⟩ /- CNT_CLR -/ ]

/-- The registers of page kind LOOP at 0x040 and above. -/
def specsLOOP : List RegSpec :=
  [ ⟨0x040, 0x43C02, 0x1, 0xFFFF02, 0x0, 0x80000000, [⟨23, 16, 1, 50⟩, ⟨15, 8, 20, 100⟩]⟩ /- SUPCFG -/,
    ⟨0x044, 0x0, 0x0, 0x0, 0x7, 0x0, []⟩ /- SUPSTAT -/,
    ⟨0x048, 0x0, 0x0, 0x0, 0x0, 0x0, []⟩ /- VOLT -/,
    ⟨0x04C, 0x0, 0x0, 0x0, 0x0, 0x0, []⟩ /- CURR -/,
    ⟨0x050, 0x0, 0x0, 0x0, 0x0, 0x0, []⟩ /- RESTORE -/,
    ⟨0x054, 0x43, 0xF, 0xFFFF00F0, 0x0, 0x0, [⟨7, 4, 2, 15⟩]⟩ /- KLLCFG -/,
    ⟨0x058, 0xBB8, 0xFFFF, 0x0, 0x0, 0x0, []⟩ /- IDENTCFG -/,
    ⟨0x100, 0x0, 0x0, 0x0, 0x0, 0x0, []⟩ /- FR_OK -/,
    ⟨0x104, 0x0, 0x0, 0x0, 0x0, 0x0, []⟩ /- FR_CRC -/,
    ⟨0x108, 0x0, 0x0, 0x0, 0x0, 0x0, []⟩ /- FR_HDR -/,
    ⟨0x10C, 0x0, 0x0, 0x0, 0x0, 0x0, []⟩ /- AUTH_FAIL -/,
    ⟨0x110, 0x0, 0x0, 0x0, 0x0, 0x0, []⟩ /- SEQ_ERR -/,
    ⟨0x114, 0x0, 0x0, 0x0, 0x0, 0x0, []⟩ /- REC_ERR -/,
    ⟨0x118, 0x0, 0x0, 0x0, 0x0, 0x0, []⟩ /- TRIP_TOT -/,
    ⟨0x11C, 0x0, 0x0, 0x0, 0x0, 0x0, []⟩ /- SYNC_TX -/,
    ⟨0x120, 0x0, 0x0, 0x0, 0x0, 0x0, []⟩ /- CNT_CLR -/ ]
  ++ specArray 0x10 16 ⟨0x080, 0x0, 0x80001FFF, 0x0, 0x0, 0x0, []⟩ /- ADDR_CFG -/
  ++ specArray 0x10 16 ⟨0x084, 0x0, 0x0, 0x0, 0x0, 0x0, []⟩ /- ADDR_STAT -/

/-- The registers of page kind LIFT at 0x040 and above. -/
def specsLIFT : List RegSpec :=
  [ ⟨0x040, 0x0, 0x7, 0x0, 0x0, 0x0, []⟩ /- PEEK_SEL -/,
    ⟨0x044, 0x0, 0x0, 0x0, 0x0, 0x0, []⟩ /- PEEK_TAG -/,
    ⟨0x048, 0x0, 0x0, 0x0, 0x0, 0x0, []⟩ /- PEEK_D0 -/,
    ⟨0x04C, 0x0, 0x0, 0x0, 0x0, 0x0, []⟩ /- PEEK_D1 -/,
    ⟨0x050, 0x0, 0x0, 0x0, 0x0, 0x0, []⟩ /- PEEK_D2 -/,
    ⟨0x054, 0x0, 0x0, 0x0, 0x0, 0x0, []⟩ /- PEEK_D3 -/ ]
  ++ specArray 0x40 8 ⟨0x100, 0x0, 0x8000030F, 0x0, 0x0, 0x0, []⟩ /- Q_QCFG -/
  ++ specArray 0x40 8 ⟨0x104, 0x0, 0x0, 0x0, 0x0, 0x0, []⟩ /- Q_QPTR -/
  ++ specArray 0x40 8 ⟨0x108, 0x0, 0x0, 0x0, 0x0, 0x0, []⟩ /- Q_QPTR2 -/
  ++ specArray 0x40 8 ⟨0x10C, 0x80000000, 0x0, 0x0, 0x0, 0x0, []⟩ /- Q_QSTAT -/
  ++ specArray 0x40 8 ⟨0x110, 0x180, 0x3FF, 0x0, 0x0, 0x0, []⟩ /- Q_WMCFG -/
  ++ specArray 0x40 8 ⟨0x114, 0x0, 0x0, 0x0, 0x0, 0x0, []⟩ /- Q_WMPEAK -/
  ++ specArray 0x40 8 ⟨0x118, 0x0, 0x0, 0x0, 0x0, 0x0, []⟩ /- Q_WMAT_LO -/
  ++ specArray 0x40 8 ⟨0x11C, 0x0, 0x0, 0x0, 0x0, 0x0, []⟩ /- Q_WMAT_HI -/
  ++ specArray 0x40 8 ⟨0x120, 0x0, 0x0, 0x0, 0x0, 0x0, []⟩ /- Q_FLUSH -/
  ++ specArray 0x40 8 ⟨0x124, 0x0, 0x0, 0x0, 0x0, 0x0, []⟩ /- Q_PKT_IN -/
  ++ specArray 0x40 8 ⟨0x128, 0x0, 0x0, 0x0, 0x0, 0x0, []⟩ /- Q_HOLD -/
  ++ specArray 0x40 8 ⟨0x12C, 0x0, 0x0, 0x0, 0x0, 0x0, []⟩ /- Q_ABORTS -/
  ++ specArray 0x40 8 ⟨0x130, 0x0, 0x0, 0x0, 0x0, 0x0, []⟩ /- Q_ORPHAN -/
  ++ specArray 0x40 8 ⟨0x134, 0x0, 0x0, 0x0, 0x0, 0x0, []⟩ /- Q_FL_DISC -/
  ++ specArray 0x40 8 ⟨0x138, 0x0, 0x0, 0x0, 0x0, 0x0, []⟩ /- Q_CNT_CLR -/

/-- The registers of page kind FCAC at 0x040 and above. -/
def specsFCAC : List RegSpec :=
  [ ⟨0x040, 0x1, 0x0, 0x0, 0x0, 0x0, []⟩ /- INFO -/,
    ⟨0x044, 0x0, 0xFFFFF, 0x0, 0x0, 0x0, []⟩ /- DW_CH -/,
    ⟨0x048, 0x0, 0x0, 0x0, 0x0, 0x0, []⟩ /- DW_CMD -/,
    ⟨0x04C, 0x0, 0x0, 0x0, 0x0, 0x0, []⟩ /- DW_STAT -/,
    ⟨0x050, 0x0, 0xFFFFF, 0x0, 0x0, 0x0, []⟩ /- PB_IDX -/,
    ⟨0x054, 0x0, 0x1F, 0x0, 0x0, 0x0, []⟩ /- PB_SLOT -/,
    ⟨0x058, 0x0, 0xFFFFFFFF, 0x0, 0x0, 0x0, []⟩ /- PB_LO -/,
    ⟨0x05C, 0x0, 0xFFFFFFFF, 0x0, 0x0, 0x0, []⟩ /- PB_HI -/,
    ⟨0x080, 0x0, 0xFFFFFFFF, 0x0, 0x0, 0x0, []⟩ /- DW_D0 -/,
    ⟨0x084, 0x0, 0xFFFFFFFF, 0x0, 0x0, 0x0, []⟩ /- DW_D1 -/,
    ⟨0x088, 0x0, 0xFFFFFFFF, 0x0, 0x0, 0x0, []⟩ /- DW_D2 -/,
    ⟨0x08C, 0x0, 0xFFFFFFFF, 0x0, 0x0, 0x0, []⟩ /- DW_D3 -/,
    ⟨0x090, 0x0, 0xFFFFFFFF, 0x0, 0x0, 0x0, []⟩ /- DW_D4 -/,
    ⟨0x094, 0x0, 0xFFFFFFFF, 0x0, 0x0, 0x0, []⟩ /- DW_D5 -/,
    ⟨0x098, 0x0, 0xFFFFFFFF, 0x0, 0x0, 0x0, []⟩ /- DW_D6 -/,
    ⟨0x09C, 0x0, 0xFFFFFFFF, 0x0, 0x0, 0x0, []⟩ /- DW_D7 -/,
    ⟨0x0A0, 0x0, 0xFFFFFFFF, 0x0, 0x0, 0x0, []⟩ /- DW_D8 -/,
    ⟨0x0A4, 0x0, 0xFFFFFFFF, 0x0, 0x0, 0x0, []⟩ /- DW_D9 -/,
    ⟨0x0A8, 0x0, 0xFFFFFFFF, 0x0, 0x0, 0x0, []⟩ /- DW_D10 -/,
    ⟨0x0AC, 0x0, 0xFFFFFFFF, 0x0, 0x0, 0x0, []⟩ /- DW_D11 -/,
    ⟨0x0B0, 0x0, 0xFFFFFFFF, 0x0, 0x0, 0x0, []⟩ /- DW_D12 -/,
    ⟨0x0B4, 0x0, 0xFFFFFFFF, 0x0, 0x0, 0x0, []⟩ /- DW_D13 -/,
    ⟨0x0B8, 0x0, 0xFFFFFFFF, 0x0, 0x0, 0x0, []⟩ /- DW_D14 -/,
    ⟨0x0BC, 0x0, 0xFFFFFFFF, 0x0, 0x0, 0x0, []⟩ /- DW_D15 -/,
    ⟨0x0C0, 0x0, 0x0, 0x0, 0x0, 0x0, []⟩ /- XD_CNT -/,
    ⟨0x0C4, 0x0, 0x0, 0x0, 0x0, 0x0, []⟩ /- XD_CH -/,
    ⟨0x0C8, 0x0, 0x0, 0x0, 0x0, 0x0, []⟩ /- XD_LO -/,
    ⟨0x0CC, 0x0, 0x0, 0x0, 0x0, 0x0, []⟩ /- XD_HI -/,
    ⟨0x0D0, 0x0, 0x0, 0x0, 0x0, 0x0, []⟩ /- FP_LO -/,
    ⟨0x0D4, 0x0, 0x0, 0x0, 0x0, 0x0, []⟩ /- FP_HI -/,
    ⟨0x0D8, 0x0, 0x0, 0x0, 0x0, 0x0, []⟩ /- NOMATCH -/ ]

/-- The registers of page kind FCA at 0x040 and above. -/
def specsFCA : List RegSpec :=
  [ ⟨0x040, 0x1, 0x13, 0x0, 0x0, 0x0, []⟩ /- LCFG -/,
    ⟨0x044, 0x0, 0x0, 0x0, 0x0, 0x0, []⟩ /- LSTAT -/,
    ⟨0x048, 0x0, 0x0, 0x0, 0x0, 0x0, []⟩ /- DESCN -/,
    ⟨0x050, 0x0, 0x0, 0x0, 0x0, 0x0, []⟩ /- TK_STAT -/,
    ⟨0x054, 0x0, 0x0, 0x0, 0x0, 0x0, []⟩ /- TK_ACK -/,
    ⟨0x058, 0x0, 0x0, 0x0, 0x0, 0x0, []⟩ /- RING_OFS -/,
    ⟨0x060, 0x0, 0x0, 0x0, 0x0, 0x0, []⟩ /- TK_D0 -/,
    ⟨0x064, 0x0, 0x0, 0x0, 0x0, 0x0, []⟩ /- TK_D1 -/,
    ⟨0x068, 0x0, 0x0, 0x0, 0x0, 0x0, []⟩ /- TK_D2 -/,
    ⟨0x06C, 0x0, 0x0, 0x0, 0x0, 0x0, []⟩ /- TK_D3 -/,
    ⟨0x070, 0x0, 0x0, 0x0, 0x0, 0x0, []⟩ /- TK_D4 -/,
    ⟨0x074, 0x0, 0x0, 0x0, 0x0, 0x0, []⟩ /- TK_D5 -/,
    ⟨0x078, 0x0, 0x0, 0x0, 0x0, 0x0, []⟩ /- TK_D6 -/,
    ⟨0x07C, 0x0, 0x0, 0x0, 0x0, 0x0, []⟩ /- TK_D7 -/,
    ⟨0x080, 0x0, 0x0, 0x0, 0x0, 0x0, []⟩ /- CLOSE_LO -/,
    ⟨0x084, 0x0, 0x0, 0x0, 0x0, 0x0, []⟩ /- CLOSE_HI -/,
    ⟨0x088, 0x0, 0x0, 0x0, 0x0, 0x0, []⟩ /- CLOSE_N -/,
    ⟨0x08C, 0x0, 0x0, 0x0, 0x0, 0x0, []⟩ /- CLOSE_END -/,
    ⟨0x0A0, 0x0, 0x0, 0x0, 0x0, 0x0, []⟩ /- PT_OK -/,
    ⟨0x0A4, 0x0, 0x0, 0x0, 0x0, 0x0, []⟩ /- PT_NORATE -/,
    ⟨0x0A8, 0x0, 0x0, 0x0, 0x0, 0x0, []⟩ /- OLDSAMP -/,
    ⟨0x0AC, 0x0, 0x0, 0x0, 0x0, 0x0, []⟩ /- HOLES -/,
    ⟨0x0B0, 0x0, 0x0, 0x0, 0x0, 0x0, []⟩ /- ABORTPKT -/,
    ⟨0x0B4, 0x0, 0x0, 0x0, 0x0, 0x0, []⟩ /- HOSTDROP -/,
    ⟨0x0B8, 0x0, 0x0, 0x0, 0x0, 0x0, []⟩ /- FAULTS -/,
    ⟨0x0C0, 0x0, 0x0, 0x0, 0x0, 0x0, []⟩ /- CNT_CLR -/ ]

/-- The registers of page kind BAL at 0x040 and above. -/
def specsBAL : List RegSpec :=
  [ ⟨0x040, 0x1, 0x2, 0x1, 0x0, 0x80000000, []⟩ /- CFG -/,
    ⟨0x044, 0x0, 0x0, 0x0, 0x0, 0x0, []⟩ /- STAT -/,
    ⟨0x050, 0x0, 0xFFF, 0x0, 0x0, 0x0, []⟩ /- ZSEL -/,
    ⟨0x054, 0x0, 0x0, 0x0, 0x0, 0x0, []⟩ /- ZSTAT -/,
    ⟨0x058, 0x0, 0x0, 0x0, 0x0, 0x0, []⟩ /- ZWNUM -/,
    ⟨0x080, 0x0, 0x0, 0x0, 0x0, 0x0, []⟩ /- ZREC0 -/,
    ⟨0x084, 0x0, 0x0, 0x0, 0x0, 0x0, []⟩ /- ZREC1 -/,
    ⟨0x088, 0x0, 0x0, 0x0, 0x0, 0x0, []⟩ /- ZREC2 -/,
    ⟨0x08C, 0x0, 0x0, 0x0, 0x0, 0x0, []⟩ /- ZREC3 -/,
    ⟨0x090, 0x0, 0x0, 0x0, 0x0, 0x0, []⟩ /- ZREC4 -/,
    ⟨0x094, 0x0, 0x0, 0x0, 0x0, 0x0, []⟩ /- ZREC5 -/,
    ⟨0x098, 0x0, 0x0, 0x0, 0x0, 0x0, []⟩ /- ZREC6 -/,
    ⟨0x09C, 0x0, 0x0, 0x0, 0x0, 0x0, []⟩ /- ZREC7 -/,
    ⟨0x0A0, 0x0, 0x0, 0x0, 0x0, 0x0, []⟩ /- ZREC8 -/,
    ⟨0x0A4, 0x0, 0x0, 0x0, 0x0, 0x0, []⟩ /- ZREC9 -/,
    ⟨0x0A8, 0x0, 0x0, 0x0, 0x0, 0x0, []⟩ /- ZREC10 -/,
    ⟨0x0AC, 0x0, 0x0, 0x0, 0x0, 0x0, []⟩ /- ZREC11 -/,
    ⟨0x0B0, 0x0, 0x0, 0x0, 0x0, 0x0, []⟩ /- ZREC12 -/,
    ⟨0x0B4, 0x0, 0x0, 0x0, 0x0, 0x0, []⟩ /- ZREC13 -/,
    ⟨0x0B8, 0x0, 0x0, 0x0, 0x0, 0x0, []⟩ /- ZREC14 -/,
    ⟨0x0BC, 0x0, 0x0, 0x0, 0x0, 0x0, []⟩ /- ZREC15 -/,
    ⟨0x0C0, 0x0, 0x0, 0x0, 0x0, 0x0, []⟩ /- ZREC16 -/,
    ⟨0x0C4, 0x0, 0x0, 0x0, 0x0, 0x0, []⟩ /- ZREC17 -/,
    ⟨0x0C8, 0x0, 0x0, 0x0, 0x0, 0x0, []⟩ /- ZREC18 -/,
    ⟨0x0CC, 0x0, 0x0, 0x0, 0x0, 0x0, []⟩ /- ZREC19 -/,
    ⟨0x0D0, 0x0, 0x0, 0x0, 0x0, 0x0, []⟩ /- ZREC20 -/,
    ⟨0x0D4, 0x0, 0x0, 0x0, 0x0, 0x0, []⟩ /- ZREC21 -/,
    ⟨0x0D8, 0x0, 0x0, 0x0, 0x0, 0x0, []⟩ /- ZREC22 -/,
    ⟨0x0DC, 0x0, 0x0, 0x0, 0x0, 0x0, []⟩ /- ZREC23 -/,
    ⟨0x0E0, 0x0, 0x0, 0x0, 0x0, 0x0, []⟩ /- ZREC24 -/,
    ⟨0x0E4, 0x0, 0x0, 0x0, 0x0, 0x0, []⟩ /- ZREC25 -/,
    ⟨0x0E8, 0x0, 0x0, 0x0, 0x0, 0x0, []⟩ /- ZREC26 -/,
    ⟨0x0EC, 0x0, 0x0, 0x0, 0x0, 0x0, []⟩ /- ZREC27 -/,
    ⟨0x0F0, 0x0, 0x0, 0x0, 0x0, 0x0, []⟩ /- ZREC28 -/,
    ⟨0x0F4, 0x0, 0x0, 0x0, 0x0, 0x0, []⟩ /- ZREC29 -/,
    ⟨0x0F8, 0x0, 0x0, 0x0, 0x0, 0x0, []⟩ /- ZREC30 -/,
    ⟨0x0FC, 0x0, 0x0, 0x0, 0x0, 0x0, []⟩ /- ZREC31 -/,
    ⟨0x100, 0x0, 0x0, 0x0, 0x0, 0x0, []⟩ /- ZRESET -/,
    ⟨0x110, 0x0, 0x0, 0x0, 0x0, 0x0, []⟩ /- AL_WR -/,
    ⟨0x114, 0x0, 0x3FF, 0x0, 0x0, 0x0, []⟩ /- AL_RD -/,
    ⟨0x118, 0x0, 0x0, 0x0, 0x0, 0x0, []⟩ /- AL_OVF -/,
    ⟨0x120, 0x0, 0x0, 0x0, 0x0, 0x0, []⟩ /- LATE_INC -/,
    ⟨0x124, 0x0, 0x0, 0x0, 0x0, 0x0, []⟩ /- WIN_TOT -/,
    ⟨0x128, 0x0, 0x0, 0x0, 0x0, 0x0, []⟩ /- AL_TOT -/,
    ⟨0x140, 0x0, 0x0, 0x0, 0x0, 0x0, []⟩ /- AL_D0 -/,
    ⟨0x144, 0x0, 0x0, 0x0, 0x0, 0x0, []⟩ /- AL_D1 -/,
    ⟨0x148, 0x0, 0x0, 0x0, 0x0, 0x0, []⟩ /- AL_D2 -/,
    ⟨0x14C, 0x0, 0x0, 0x0, 0x0, 0x0, []⟩ /- AL_D3 -/,
    ⟨0x150, 0x0, 0x0, 0x0, 0x0, 0x0, []⟩ /- AL_D4 -/,
    ⟨0x154, 0x0, 0x0, 0x0, 0x0, 0x0, []⟩ /- AL_D5 -/,
    ⟨0x158, 0x0, 0x0, 0x0, 0x0, 0x0, []⟩ /- AL_D6 -/,
    ⟨0x15C, 0x0, 0x0, 0x0, 0x0, 0x0, []⟩ /- AL_D7 -/,
    ⟨0x160, 0x0, 0x0, 0x0, 0x0, 0x0, []⟩ /- AL_D8 -/,
    ⟨0x164, 0x0, 0x0, 0x0, 0x0, 0x0, []⟩ /- AL_D9 -/,
    ⟨0x168, 0x0, 0x0, 0x0, 0x0, 0x0, []⟩ /- AL_D10 -/,
    ⟨0x16C, 0x0, 0x0, 0x0, 0x0, 0x0, []⟩ /- AL_D11 -/,
    ⟨0x170, 0x0, 0x0, 0x0, 0x0, 0x0, []⟩ /- AL_D12 -/,
    ⟨0x174, 0x0, 0x0, 0x0, 0x0, 0x0, []⟩ /- AL_D13 -/,
    ⟨0x178, 0x0, 0x0, 0x0, 0x0, 0x0, []⟩ /- AL_D14 -/,
    ⟨0x17C, 0x0, 0x0, 0x0, 0x0, 0x0, []⟩ /- AL_D15 -/ ]

/-- The registers of page kind BALG at 0x040 and above. -/
def specsBALG : List RegSpec :=
  [ ⟨0x040, 0x0, 0xFFFFFFFF, 0x0, 0x0, 0x0, []⟩ /- GIMG_OFS -/,
    ⟨0x044, 0x0, 0xFFFFFFFF, 0x0, 0x0, 0x0, []⟩ /- GIMG_LEN -/,
    ⟨0x048, 0x0, 0xFFFFFFFF, 0x0, 0x0, 0x0, []⟩ /- GEFF_LO -/,
    ⟨0x04C, 0x0, 0xFFFFFFFF, 0x0, 0x0, 0x0, []⟩ /- GEFF_HI -/,
    ⟨0x050, 0x0, 0x0, 0x0, 0x0, 0x0, []⟩ /- GCMD -/,
    ⟨0x054, 0x0, 0x0, 0x0, 0x0, 0x0, []⟩ /- GSTAT -/,
    ⟨0x058, 0x0, 0x0, 0x0, 0x0, 0x0, []⟩ /- GERR -/,
    ⟨0x060, 0x0, 0xFFF, 0x0, 0x0, 0x0, []⟩ /- ZP_ZONE -/,
    ⟨0x064, 0x0, 0x1F, 0x0, 0x0, 0x0, []⟩ /- ZP_SLOT -/,
    ⟨0x068, 0x0, 0xFFFFFFFF, 0x0, 0x0, 0x0, []⟩ /- ZP_LO -/,
    ⟨0x06C, 0x0, 0xFFFFFFFF, 0x0, 0x0, 0x0, []⟩ /- ZP_HI -/,
    ⟨0x070, 0x0, 0xF, 0x0, 0x0, 0x0, []⟩ /- IC_SEL -/,
    ⟨0x074, 0x0, 0xFFFFFFFF, 0x0, 0x0, 0x0, []⟩ /- IC_LO -/,
    ⟨0x078, 0x0, 0xFFFFFFFF, 0x0, 0x0, 0x0, []⟩ /- IC_HI -/,
    ⟨0x07C, 0x0, 0x3, 0x0, 0x0, 0x0, []⟩ /- IC_AMB -/,
    ⟨0x080, 0x0, 0xFFFFFFFF, 0x0, 0x0, 0x0, []⟩ /- TAMB0_LO -/,
    ⟨0x084, 0x0, 0xFFFFFFFF, 0x0, 0x0, 0x0, []⟩ /- TAMB0_HI -/,
    ⟨0x088, 0x0, 0xFFFFFFFF, 0x0, 0x0, 0x0, []⟩ /- TAMB1_LO -/,
    ⟨0x08C, 0x0, 0xFFFFFFFF, 0x0, 0x0, 0x0, []⟩ /- TAMB1_HI -/,
    ⟨0x090, 0x0, 0xFFFFFFFF, 0x0, 0x0, 0x0, []⟩ /- TAMB2_LO -/,
    ⟨0x094, 0x0, 0xFFFFFFFF, 0x0, 0x0, 0x0, []⟩ /- TAMB2_HI -/,
    ⟨0x098, 0x0, 0xFFFFFFFF, 0x0, 0x0, 0x0, []⟩ /- TAMB3_LO -/,
    ⟨0x09C, 0x0, 0xFFFFFFFF, 0x0, 0x0, 0x0, []⟩ /- TAMB3_HI -/,
    ⟨0x0A0, 0x0, 0xFF, 0x0, 0x0, 0x0, []⟩ /- CG_SEL -/,
    ⟨0x0A4, 0x0, 0xFFFFFFFF, 0x0, 0x0, 0x0, []⟩ /- CG_LO -/,
    ⟨0x0A8, 0x0, 0xFFFFFFFF, 0x0, 0x0, 0x0, []⟩ /- CG_HI -/ ]

/-- The registers of page kind BILL at 0x040 and above. -/
def specsBILL : List RegSpec :=
  [ ⟨0x040, 0x0, 0xFFFFF, 0x0, 0x0, 0x0, []⟩ /- CT_CH -/,
    ⟨0x044, 0x0, 0x8FF1FFFF, 0x0, 0x0, 0x0, []⟩ /- CT_W0 -/,
    ⟨0x048, 0x20000000, 0x70BFBFFF, 0x0, 0x0, 0x0, []⟩ /- CT_W1 -/,
    ⟨0x04C, 0x0, 0x0, 0x0, 0x0, 0x0, []⟩ /- CT_CMD -/,
    ⟨0x050, 0x0, 0x0, 0x0, 0x0, 0x0, []⟩ /- CT_STAT -/,
    ⟨0x060, 0x0, 0xFFFFF, 0x0, 0x0, 0x0, []⟩ /- RG_CH -/,
    ⟨0x064, 0x0, 0x1F, 0x0, 0x0, 0x0, []⟩ /- RG_SEL -/,
    ⟨0x068, 0x0, 0x0, 0x0, 0x0, 0x0, []⟩ /- RG_LO -/,
    ⟨0x06C, 0x0, 0x0, 0x0, 0x0, 0x0, []⟩ /- RG_HI -/,
    ⟨0x070, 0x0, 0x0, 0x0, 0x0, 0x0, []⟩ /- MD_AT_LO -/,
    ⟨0x074, 0x0, 0x0, 0x0, 0x0, 0x0, []⟩ /- MD_AT_HI -/,
    ⟨0x078, 0x0, 0x0, 0x0, 0x0, 0x0, []⟩ /- MD_INFO -/,
    ⟨0x080, 0x0, 0x0, 0x0, 0x0, 0x0, []⟩ /- IV_NUM -/,
    ⟨0x084, 0x0, 0x0, 0x0, 0x0, 0x0, []⟩ /- IV_UNITS -/,
    ⟨0x090, 0x0, 0x0, 0x0, 0x0, 0x0, []⟩ /- NOBILL -/,
    ⟨0x094, 0x0, 0x0, 0x0, 0x0, 0x0, []⟩ /- BF_INC -/,
    ⟨0x098, 0x0, 0x0, 0x0, 0x0, 0x0, []⟩ /- LATE_B -/ ]

/-- The registers of page kind TARIF at 0x040 and above. -/
def specsTARIF : List RegSpec :=
  [ ⟨0x040, 0x0, 0xFFFFFFFF, 0x0, 0x0, 0x0, []⟩ /- PIMG_OFS -/,
    ⟨0x044, 0x0, 0xFFFFFFFF, 0x0, 0x0, 0x0, []⟩ /- PIMG_LEN -/,
    ⟨0x048, 0x0, 0x0, 0x0, 0x0, 0x0, []⟩ /- PCMD -/,
    ⟨0x04C, 0x0, 0x0, 0x0, 0x0, 0x0, []⟩ /- PSTAT -/,
    ⟨0x050, 0x0, 0x3F, 0x0, 0x0, 0x0, []⟩ /- PSEL -/,
    ⟨0x054, 0x0, 0x0, 0x0, 0x0, 0x0, []⟩ /- PINFO -/,
    ⟨0x058, 0x0, 0x0, 0x0, 0x0, 0x0, []⟩ /- NEXT_LO -/,
    ⟨0x05C, 0x0, 0x0, 0x0, 0x0, 0x0, []⟩ /- NEXT_HI -/,
    ⟨0x060, 0x0, 0x0, 0x0, 0x0, 0x0, []⟩ /- NEXT_KIND -/,
    ⟨0x064, 0x0, 0x0, 0x0, 0x0, 0x0, []⟩ /- HORIZON -/ ]

/-- The registers of page kind CRED at 0x040 and above. -/
def specsCRED : List RegSpec :=
  [ ⟨0x040, 0x0, 0x3FFF, 0x0, 0x0, 0x0, []⟩ /- AC_SEL -/,
    ⟨0x044, 0xFF, 0xC03F0FFF, 0x0, 0x0, 0x0, []⟩ /- AC_CFG -/,
    ⟨0x048, 0x0, 0x0, 0x0, 0x0, 0x0, []⟩ /- AC_BAL_LO -/,
    ⟨0x04C, 0x0, 0x0, 0x0, 0x0, 0x0, []⟩ /- AC_BAL_HI -/,
    ⟨0x050, 0x0, 0xFFFFFFFF, 0x0, 0x0, 0x0, []⟩ /- AC_WARN_LO -/,
    ⟨0x054, 0x0, 0xFFFFFFFF, 0x0, 0x0, 0x0, []⟩ /- AC_WARN_HI -/,
    ⟨0x058, 0x0, 0xFFFFFFFF, 0x0, 0x0, 0x0, []⟩ /- AC_CUT_LO -/,
    ⟨0x05C, 0x0, 0xFFFFFFFF, 0x0, 0x0, 0x0, []⟩ /- AC_CUT_HI -/,
    ⟨0x060, 0x0, 0xFFFFFFFF, 0x0, 0x0, 0x0, []⟩ /- AC_REST_LO -/,
    ⟨0x064, 0x0, 0xFFFFFFFF, 0x0, 0x0, 0x0, []⟩ /- AC_REST_HI -/,
    ⟨0x068, 0x0, 0x0, 0x0, 0x0, 0x0, []⟩ /- TOPUP_LO -/,
    ⟨0x06C, 0x0, 0x0, 0x0, 0x0, 0x0, []⟩ /- TOPUP_HI -/,
    ⟨0x070, 0x0, 0x0, 0x0, 0x0, 0x0, []⟩ /- AC_STAT -/,
    ⟨0x080, 0x0, 0x1F, 0x0, 0x0, 0x0, []⟩ /- PR_SEL -/,
    ⟨0x084, 0x0, 0x0, 0x0, 0x0, 0x0, []⟩ /- PR_NOW -/,
    ⟨0x088, 0x0, 0xFFFFFFFF, 0x0, 0x0, 0x0, []⟩ /- PR_PEND -/,
    ⟨0x08C, 0x0, 0xFFFFFFFF, 0x0, 0x0, 0x0, []⟩ /- PR_EFF_LO -/,
    ⟨0x090, 0x0, 0xFFFFFFFF, 0x0, 0x0, 0x0, []⟩ /- PR_EFF_HI -/,
    ⟨0x0A0, 0x0, 0x1F, 0x0, 0x0, 0x0, []⟩ /- MB_SEL -/,
    ⟨0x0A4, 0x0, 0xF00FFFFF, 0x0, 0x0, 0x0, []⟩ /- MB_W -/,
    ⟨0x0B0, 0x0, 0x3, 0x0, 0x0, 0x0, []⟩ /- RV_SEL -/,
    ⟨0x0B4, 0x0, 0x80001FFF, 0x0, 0x0, 0x0, []⟩ /- RV_W -/ ]
  ++ specArray 0x10 4 ⟨0x0C0, 0x190A00, 0xFFFFFF80, 0x0, 0x0, 0x0, [⟨15, 8, 2, 100⟩]⟩ /- IL_CTL -/
  ++ specArray 0x10 4 ⟨0x0C4, 0x0, 0x0, 0x0, 0x0, 0x0, []⟩ /- IL_STAT -/

/-- The registers of page kind TAMP at 0x040 and above. -/
def specsTAMP : List RegSpec :=
  [ ⟨0x040, 0x0, 0x0, 0x0, 0x70, 0x0, []⟩ /- TP_STAT -/,
    ⟨0x044, 0x1400, 0xFF01, 0x0, 0x0, 0x0, [⟨15, 8, 5, 200⟩]⟩ /- TP_CFG -/,
    ⟨0x050, 0x0, 0x0, 0x0, 0x0, 0x0, []⟩ /- LOG_WR -/,
    ⟨0x054, 0x0, 0x3F, 0x0, 0x0, 0x0, []⟩ /- LOG_RD -/,
    ⟨0x058, 0x0, 0x0, 0x0, 0x0, 0x0, []⟩ /- LOG_OVF -/,
    ⟨0x05C, 0x0, 0x0, 0x0, 0x0, 0x0, []⟩ /- LOG_CLR -/,
    ⟨0x060, 0x0, 0x0, 0x0, 0x0, 0x0, []⟩ /- LOG_D0 -/,
    ⟨0x064, 0x0, 0x0, 0x0, 0x0, 0x0, []⟩ /- LOG_D1 -/,
    ⟨0x068, 0x0, 0x0, 0x0, 0x0, 0x0, []⟩ /- LOG_D2 -/,
    ⟨0x06C, 0x0, 0x0, 0x0, 0x0, 0x0, []⟩ /- LOG_D3 -/,
    ⟨0x070, 0x0, 0x0, 0x0, 0x0, 0x0, []⟩ /- LOG_D4 -/,
    ⟨0x074, 0x0, 0x0, 0x0, 0x0, 0x0, []⟩ /- LOG_D5 -/,
    ⟨0x080, 0x0, 0x0, 0x0, 0x0, 0x0, []⟩ /- OPHRS -/,
    ⟨0x084, 0x0, 0x0, 0x0, 0x0, 0x0, []⟩ /- PWRCYC -/ ]

/-- The registers of page kind LEDG at 0x040 and above. -/
def specsLEDG : List RegSpec :=
  [ ⟨0x040, 0x400100, 0x1, 0xFF0F00, 0x0, 0x80000000, [⟨23, 16, 16, 192⟩]⟩ /- CFG -/,
    ⟨0x044, 0xBB8, 0x0, 0xFFFF, 0x0, 0x0, [⟨15, 0, 500, 15000⟩]⟩ /- CKPTCFG -/,
    ⟨0x048, 0x14, 0xFF, 0x0, 0x0, 0x0, [⟨7, 0, 2, 90⟩]⟩ /- SPACECFG -/,
    ⟨0x04C, 0x0, 0x0, 0x0, 0x0, 0x0, []⟩ /- STAT -/,
    ⟨0x050, 0x0, 0x0, 0x0, 0x0, 0x0, []⟩ /- CSN_LO -/,
    ⟨0x054, 0x0, 0x0, 0x0, 0x0, 0x0, []⟩ /- CSN_HI -/,
    ⟨0x058, 0x0, 0x0, 0x0, 0x0, 0x0, []⟩ /- RSN_LO -/,
    ⟨0x05C, 0x0, 0x0, 0x0, 0x0, 0x0, []⟩ /- RSN_HI -/,
    ⟨0x060, 0x0, 0x0, 0x0, 0x0, 0x0, []⟩ /- CMT_AT_LO -/,
    ⟨0x064, 0x0, 0x0, 0x0, 0x0, 0x0, []⟩ /- CMT_AT_HI -/,
    ⟨0x070, 0x0, 0xFFFFFFFF, 0x0, 0x0, 0x0, []⟩ /- ARCH_LO -/,
    ⟨0x074, 0x0, 0xFFFFFFFF, 0x0, 0x0, 0x0, []⟩ /- ARCH_HI -/,
    ⟨0x078, 0x0, 0x0, 0x0, 0x0, 0x0, []⟩ /- RING_REL_LO -/,
    ⟨0x07C, 0x0, 0x0, 0x0, 0x0, 0x0, []⟩ /- RING_REL_HI -/,
    ⟨0x080, 0x0, 0x3, 0x0, 0x0, 0x0, []⟩ /- PART_SEL -/,
    ⟨0x084, 0x0, 0x0, 0x0, 0x0, 0x0, []⟩ /- PART_SIZE -/,
    ⟨0x088, 0x0, 0x0, 0x0, 0x0, 0x0, []⟩ /- PART_FREE -/,
    ⟨0x08C, 0x0, 0x0, 0x0, 0x0, 0x0, []⟩ /- PART_OLD_LO -/,
    ⟨0x090, 0x0, 0x0, 0x0, 0x0, 0x0, []⟩ /- PART_OLD_HI -/,
    ⟨0x094, 0x0, 0x0, 0x0, 0x0, 0x0, []⟩ /- LOW_AT_LO -/,
    ⟨0x098, 0x0, 0x0, 0x0, 0x0, 0x0, []⟩ /- LOW_AT_HI -/,
    ⟨0x09C, 0x0, 0x0, 0x0, 0x0, 0x0, []⟩ /- LOW_MIN -/,
    ⟨0x0A0, 0x0, 0x0, 0x0, 0x0, 0x0, []⟩ /- SYNC -/,
    ⟨0x0B0, 0x0, 0xFFFFFFFF, 0x0, 0x0, 0x0, []⟩ /- RD_RSN_LO -/,
    ⟨0x0B4, 0x0, 0xFFFFFFFF, 0x0, 0x0, 0x0, []⟩ /- RD_RSN_HI -/,
    ⟨0x0B8, 0x0, 0x1FFF, 0x0, 0x0, 0x0, []⟩ /- RD_CNT -/,
    ⟨0x0BC, 0x0, 0x0, 0x0, 0x0, 0x0, []⟩ /- RD_OFS -/,
    ⟨0x0C0, 0x0, 0x0, 0x0, 0x0, 0x0, []⟩ /- RD_GO -/,
    ⟨0x0C4, 0x0, 0x0, 0x0, 0x0, 0x0, []⟩ /- RD_STAT -/,
    ⟨0x0D0, 0x0, 0x0, 0x0, 0x0, 0x0, []⟩ /- DRAM_CE -/,
    ⟨0x0D4, 0x0, 0x0, 0x0, 0x0, 0x0, []⟩ /- DRAM_UE -/,
    ⟨0x0E0, 0x0, 0x0, 0x0, 0x0, 0x0, []⟩ /- LOSS_CNT -/,
    ⟨0x0E4, 0x0, 0x0, 0x0, 0x0, 0x0, []⟩ /- LOSS_FIRST_LO -/,
    ⟨0x0E8, 0x0, 0x0, 0x0, 0x0, 0x0, []⟩ /- LOSS_FIRST_HI -/,
    ⟨0x0EC, 0x0, 0x0, 0x0, 0x0, 0x0, []⟩ /- LOSS_N -/ ]

/-- The registers of page kind NAND at 0x040 and above. -/
def specsNAND : List RegSpec :=
  [ ⟨0x040, 0x0, 0x0, 0x0, 0x0, 0x0, []⟩ /- INFO -/,
    ⟨0x044, 0x0, 0x0, 0x0, 0x0, 0x0, []⟩ /- SBSTAT -/,
    ⟨0x048, 0x0, 0x0, 0x0, 0x0, 0x0, []⟩ /- REBUILD -/,
    ⟨0x050, 0x0, 0x7, 0x0, 0x0, 0x0, []⟩ /- DIE_SEL -/,
    ⟨0x054, 0x0, 0x0, 0x0, 0x0, 0x0, []⟩ /- DIE_STAT -/,
    ⟨0x058, 0x0, 0x0, 0x0, 0x0, 0x0, []⟩ /- DIE_WEAR -/,
    ⟨0x05C, 0x400010, 0xFFF0FFF, 0x0, 0x0, 0x0, [⟨27, 16, 24, 512⟩]⟩ /- GCCFG -/,
    ⟨0x060, 0x3E8, 0xFFFF, 0x0, 0x0, 0x0, []⟩ /- WEARCFG -/,
    ⟨0x070, 0x0, 0x0, 0x0, 0x0, 0x0, []⟩ /- PROG_FAIL -/,
    ⟨0x074, 0x0, 0x0, 0x0, 0x0, 0x0, []⟩ /- ERASE_FAIL -/,
    ⟨0x078, 0x0, 0x0, 0x0, 0x0, 0x0, []⟩ /- CORR_CW -/,
    ⟨0x07C, 0x0, 0x0, 0x0, 0x0, 0x0, []⟩ /- REBUILT -/,
    ⟨0x080, 0x0, 0x0, 0x0, 0x0, 0x0, []⟩ /- UNREC -/,
    ⟨0x084, 0x0, 0x0, 0x0, 0x0, 0x0, []⟩ /- RELOC -/,
    ⟨0x088, 0x0, 0x0, 0x0, 0x0, 0x0, []⟩ /- SB_ERASED -/,
    ⟨0x08C, 0x0, 0x0, 0x0, 0x0, 0x0, []⟩ /- TWIN_FETCH -/,
    ⟨0x090, 0x0, 0x0, 0x0, 0x0, 0x0, []⟩ /- CNT_CLR -/ ]

/-- The registers of page kind GROOM at 0x040 and above. -/
def specsGROOM : List RegSpec :=
  [ ⟨0x040, 0x71801, 0x0, 0x1F3F01, 0x0, 0x80000000, [⟨20, 16, 2, 30⟩, ⟨13, 8, 8, 36⟩]⟩ /- CFG -/,
    ⟨0x044, 0x0, 0x0, 0x0, 0x0, 0x0, []⟩ /- PASS_POS -/,
    ⟨0x048, 0x0, 0x0, 0x0, 0x0, 0x0, []⟩ /- PASS_TOT -/,
    ⟨0x04C, 0x0, 0x0, 0x0, 0x0, 0x0, []⟩ /- PASS_CNT -/,
    ⟨0x050, 0x0, 0x0, 0x0, 0x0, 0x0, []⟩ /- PASS_END_LO -/,
    ⟨0x054, 0x0, 0x0, 0x0, 0x0, 0x0, []⟩ /- PASS_END_HI -/,
    ⟨0x058, 0x0, 0x0, 0x0, 0x0, 0x0, []⟩ /- MAXBITS -/,
    ⟨0x05C, 0x0, 0x0, 0x0, 0x0, 0x0, []⟩ /- REFRESHES -/,
    ⟨0x060, 0x0, 0x0, 0x0, 0x0, 0x0, []⟩ /- LATE -/ ]

/-- The registers of page kind KEEP at 0x040 and above. -/
def specsKEEP : List RegSpec :=
  [ ⟨0x040, 0x0, 0x0, 0x0, 0x0, 0x0, []⟩ /- LC_STAT -/,
    ⟨0x044, 0x0, 0x0, 0x0, 0x0, 0x0, []⟩ /- LC_CNT -/,
    ⟨0x048, 0x0, 0x0, 0x0, 0x0, 0x0, []⟩ /- LC_NONCE0 -/,
    ⟨0x04C, 0x0, 0x0, 0x0, 0x0, 0x0, []⟩ /- LC_NONCE1 -/,
    ⟨0x050, 0x0, 0x0, 0x0, 0x0, 0x0, []⟩ /- LC_NONCE2 -/,
    ⟨0x054, 0x0, 0x0, 0x0, 0x0, 0x0, []⟩ /- LC_NONCE3 -/,
    ⟨0x058, 0x0, 0xFFFFFFFF, 0x0, 0x0, 0x0, []⟩ /- LC_OFS -/,
    ⟨0x05C, 0x0, 0x0, 0x0, 0x0, 0x0, []⟩ /- LC_CMD -/,
    ⟨0x060, 0x0, 0x0, 0x0, 0x0, 0x0, []⟩ /- LC_RES -/,
    ⟨0x080, 0x0, 0xFF, 0x0, 0x0, 0x0, []⟩ /- SL_SEL -/,
    ⟨0x084, 0x0, 0x0, 0x0, 0x0, 0x0, []⟩ /- SL_ATTR -/,
    ⟨0x088, 0x0, 0x0, 0x0, 0x0, 0x0, []⟩ /- SL_GEN -/,
    ⟨0x08C, 0x0, 0x0, 0x0, 0x0, 0x0, []⟩ /- SL_KCV -/,
    ⟨0x090, 0x0, 0xFFFF0000, 0x0, 0x0, 0x0, []⟩ /- KC_ATTR -/,
    ⟨0x094, 0x0, 0xFFFF, 0x0, 0x0, 0x0, []⟩ /- KC_SLOT -/,
    ⟨0x098, 0x0, 0xFFFFFFFF, 0x0, 0x0, 0x0, []⟩ /- KC_OFS -/,
    ⟨0x09C, 0x0, 0xFFFFFFFF, 0x0, 0x0, 0x0, []⟩ /- KC_LEN -/,
    ⟨0x0A0, 0x0, 0x0, 0x0, 0x0, 0x0, []⟩ /- KC_CMD -/,
    ⟨0x0A4, 0x0, 0x0, 0x0, 0x0, 0x0, []⟩ /- KC_RES -/,
    ⟨0x0C0, 0x0, 0x3, 0x0, 0x0, 0x0, []⟩ /- PUB_SEL -/,
    ⟨0x0C4, 0x0, 0x3FF, 0x0, 0x0, 0x0, []⟩ /- PUB_IDX -/,
    ⟨0x0C8, 0x0, 0x0, 0x0, 0x0, 0x0, []⟩ /- PUB_D -/,
    ⟨0x0D0, 0x0, 0x0, 0x0, 0x0, 0x0, []⟩ /- SESS -/,
    ⟨0x0E0, 0x0, 0x0, 0x0, 0x0, 0x0, []⟩ /- SESS_FULL -/,
    ⟨0x0E4, 0x0, 0x0, 0x0, 0x0, 0x0, []⟩ /- DEST_DENY -/,
    ⟨0x0E8, 0x0, 0x0, 0x0, 0x0, 0x0, []⟩ /- RSV_WAIT -/,
    ⟨0x0EC, 0x0, 0x0, 0x0, 0x0, 0x0, []⟩ /- RSV_WRITES -/,
    ⟨0x0F0, 0x0, 0x0, 0x0, 0x0, 0x0, []⟩ /- REKEY_FORCED -/,
    ⟨0x0F4, 0x0, 0x0, 0x0, 0x0, 0x0, []⟩ /- KEY_STOP -/ ]

/-- The registers that every crypto engine page has (Table 15.6). -/
def specsCRY : List RegSpec :=
  [ ⟨0x040, 0x0, 0xFFFFFFFF, 0x0, 0x0, 0x0, []⟩ /- JR_OFS -/,
    ⟨0x044, 0x40, 0x1FF, 0x0, 0x0, 0x0, []⟩ /- JR_SIZE -/,
    ⟨0x048, 0x0, 0x1FF, 0x0, 0x0, 0x0, []⟩ /- JR_WR -/,
    ⟨0x04C, 0x0, 0x0, 0x0, 0x0, 0x0, []⟩ /- JR_RD -/,
    ⟨0x050, 0x0, 0x0, 0x0, 0x0, 0x0, []⟩ /- JR_DONE -/,
    ⟨0x054, 0x0, 0x0, 0x0, 0x0, 0x0, []⟩ /- JR_ACK -/,
    ⟨0x058, 0x0, 0x0, 0x0, 0x0, 0x0, []⟩ /- ESTAT -/,
    ⟨0x060, 0x0, 0x0, 0x0, 0x0, 0x0, []⟩ /- JOBS -/,
    ⟨0x064, 0x0, 0x0, 0x0, 0x0, 0x0, []⟩ /- ERRS -/,
    ⟨0x070, 0x0, 0x0, 0x0, 0x0, 0x0, []⟩ /- CNT_CLR -/ ]

/-- The registers of page kind CRYAES at 0x040 and above. -/
def specsCRYAES : List RegSpec :=
  specsCRY ++ [ ⟨0x080, 0x0, 0x0, 0x0, 0x1F, 0x0, []⟩ /- ALM_STAT -/,
    ⟨0x084, 0x0, 0x0, 0x0, 0x0, 0x0, []⟩ /- ALM_NOW -/,
    ⟨0x088, 0x0, 0x0, 0x0, 0x0, 0x0, []⟩ /- ALM_CNT -/,
    ⟨0x08C, 0x0, 0x0, 0x0, 0x0, 0x0, []⟩ /- AUTHFAIL -/ ]

/-- The registers of page kind MERK at 0x040 and above. -/
def specsMERK : List RegSpec :=
  [ ⟨0x040, 0x10000032, 0x0, 0x1FFFFFFF, 0x0, 0x80000000, [⟨28, 16, 64, 4096⟩, ⟨15, 0, 5, 3000⟩]⟩ /- CFG -/,
    ⟨0x044, 0x0, 0x0, 0x0, 0x0, 0x0, []⟩ /- STAT -/,
    ⟨0x048, 0x0, 0x0, 0x0, 0x0, 0x0, []⟩ /- BNUM_LO -/,
    ⟨0x04C, 0x0, 0x0, 0x0, 0x0, 0x0, []⟩ /- BNUM_HI -/,
    ⟨0x050, 0x0, 0x0, 0x0, 0x0, 0x0, []⟩ /- ROOT0 -/,
    ⟨0x054, 0x0, 0x0, 0x0, 0x0, 0x0, []⟩ /- ROOT1 -/,
    ⟨0x058, 0x0, 0x0, 0x0, 0x0, 0x0, []⟩ /- ROOT2 -/,
    ⟨0x05C, 0x0, 0x0, 0x0, 0x0, 0x0, []⟩ /- ROOT3 -/,
    ⟨0x060, 0x0, 0x0, 0x0, 0x0, 0x0, []⟩ /- ROOT4 -/,
    ⟨0x064, 0x0, 0x0, 0x0, 0x0, 0x0, []⟩ /- ROOT5 -/,
    ⟨0x068, 0x0, 0x0, 0x0, 0x0, 0x0, []⟩ /- ROOT6 -/,
    ⟨0x06C, 0x0, 0x0, 0x0, 0x0, 0x0, []⟩ /- ROOT7 -/,
    ⟨0x070, 0x0, 0x0, 0x0, 0x0, 0x0, []⟩ /- ROOT8 -/,
    ⟨0x074, 0x0, 0x0, 0x0, 0x0, 0x0, []⟩ /- ROOT9 -/,
    ⟨0x078, 0x0, 0x0, 0x0, 0x0, 0x0, []⟩ /- ROOT10 -/,
    ⟨0x07C, 0x0, 0x0, 0x0, 0x0, 0x0, []⟩ /- ROOT11 -/,
    ⟨0x080, 0x0, 0x0, 0x0, 0x0, 0x0, []⟩ /- ROOT12 -/,
    ⟨0x084, 0x0, 0x0, 0x0, 0x0, 0x0, []⟩ /- ROOT13 -/,
    ⟨0x088, 0x0, 0x0, 0x0, 0x0, 0x0, []⟩ /- ROOT14 -/,
    ⟨0x08C, 0x0, 0x0, 0x0, 0x0, 0x0, []⟩ /- ROOT15 -/,
    ⟨0x0A0, 0x0, 0xFFFFFFFF, 0x0, 0x0, 0x0, []⟩ /- PRF_RSN_LO -/,
    ⟨0x0A4, 0x0, 0xFFFFFFFF, 0x0, 0x0, 0x0, []⟩ /- PRF_RSN_HI -/,
    ⟨0x0A8, 0x0, 0x0, 0x0, 0x0, 0x0, []⟩ /- PRF_GO -/,
    ⟨0x0AC, 0x0, 0x0, 0x0, 0x0, 0x0, []⟩ /- PRF_STAT -/,
    ⟨0x0B0, 0x0, 0x0, 0x0, 0x0, 0x0, []⟩ /- PRF_BNUM_LO -/,
    ⟨0x0B4, 0x0, 0x0, 0x0, 0x0, 0x0, []⟩ /- PRF_BNUM_HI -/,
    ⟨0x0B8, 0x0, 0x0, 0x0, 0x0, 0x0, []⟩ /- PRF_N -/,
    ⟨0x0BC, 0x0, 0xF, 0x0, 0x0, 0x0, []⟩ /- PRF_HSEL -/,
    ⟨0x0C0, 0x0, 0x0, 0x0, 0x0, 0x0, []⟩ /- PRF_H0 -/,
    ⟨0x0C4, 0x0, 0x0, 0x0, 0x0, 0x0, []⟩ /- PRF_H1 -/,
    ⟨0x0C8, 0x0, 0x0, 0x0, 0x0, 0x0, []⟩ /- PRF_H2 -/,
    ⟨0x0CC, 0x0, 0x0, 0x0, 0x0, 0x0, []⟩ /- PRF_H3 -/,
    ⟨0x0D0, 0x0, 0x0, 0x0, 0x0, 0x0, []⟩ /- PRF_H4 -/,
    ⟨0x0D4, 0x0, 0x0, 0x0, 0x0, 0x0, []⟩ /- PRF_H5 -/,
    ⟨0x0D8, 0x0, 0x0, 0x0, 0x0, 0x0, []⟩ /- PRF_H6 -/,
    ⟨0x0DC, 0x0, 0x0, 0x0, 0x0, 0x0, []⟩ /- PRF_H7 -/,
    ⟨0x0E0, 0x0, 0x0, 0x0, 0x0, 0x0, []⟩ /- PRF_H8 -/,
    ⟨0x0E4, 0x0, 0x0, 0x0, 0x0, 0x0, []⟩ /- PRF_H9 -/,
    ⟨0x0E8, 0x0, 0x0, 0x0, 0x0, 0x0, []⟩ /- PRF_H10 -/,
    ⟨0x0EC, 0x0, 0x0, 0x0, 0x0, 0x0, []⟩ /- PRF_H11 -/,
    ⟨0x0F0, 0x0, 0x0, 0x0, 0x0, 0x0, []⟩ /- PRF_H12 -/,
    ⟨0x0F4, 0x0, 0x0, 0x0, 0x0, 0x0, []⟩ /- PRF_H13 -/,
    ⟨0x0F8, 0x0, 0x0, 0x0, 0x0, 0x0, []⟩ /- PRF_H14 -/,
    ⟨0x0FC, 0x0, 0x0, 0x0, 0x0, 0x0, []⟩ /- PRF_H15 -/,
    ⟨0x100, 0x0, 0x0, 0x0, 0x0, 0x0, []⟩ /- SIGNED -/,
    ⟨0x104, 0x0, 0x0, 0x0, 0x0, 0x0, []⟩ /- LEAVES -/ ]

/-- The registers of page kind BIST at 0x040 and above. -/
def specsBIST : List RegSpec :=
  [ ⟨0x040, 0x1801, 0x0, 0xFF01, 0x0, 0x80000000, [⟨15, 8, 1, 168⟩]⟩ /- CFG -/,
    ⟨0x044, 0x0, 0x0, 0x0, 0x0, 0x1, []⟩ /- SCANCTL -/,
    ⟨0x048, 0x0, 0x0, 0x0, 0x0, 0x0, []⟩ /- STAT -/,
    ⟨0x050, 0x0, 0x3F, 0x0, 0x0, 0x0, []⟩ /- BLK_SEL -/,
    ⟨0x054, 0x0, 0x0, 0x0, 0x0, 0x0, []⟩ /- BLK_STAT -/,
    ⟨0x058, 0x0, 0x0, 0x0, 0x0, 0x0, []⟩ /- SIG_LO -/,
    ⟨0x05C, 0x0, 0x0, 0x0, 0x0, 0x0, []⟩ /- SIG_HI -/,
    ⟨0x060, 0x0, 0x0, 0x0, 0x0, 0x0, []⟩ /- REF_LO -/,
    ⟨0x064, 0x0, 0x0, 0x0, 0x0, 0x0, []⟩ /- REF_HI -/,
    ⟨0x068, 0x0, 0x0, 0x0, 0x0, 0x0, []⟩ /- FAIL_AT_LO -/,
    ⟨0x06C, 0x0, 0x0, 0x0, 0x0, 0x0, []⟩ /- FAIL_AT_HI -/,
    ⟨0x080, 0x0, 0x0, 0x0, 0x0, 0x0, []⟩ /- SLICES -/,
    ⟨0x084, 0x0, 0x0, 0x0, 0x0, 0x0, []⟩ /- MISMATCH -/,
    ⟨0x088, 0x0, 0x0, 0x0, 0x0, 0x0, []⟩ /- ABORTED -/,
    ⟨0x08C, 0x0, 0x0, 0x0, 0x0, 0x0, []⟩ /- REVOKED -/,
    ⟨0x090, 0x0, 0x0, 0x0, 0x0, 0x0, []⟩ /- LATE_PASS -/,
    ⟨0x0A0, 0x0, 0x0, 0x0, 0x0, 0x0, []⟩ /- CNT_CLR -/ ]

/-- The registers of page kind LOGB at 0x040 and above. -/
def specsLOGB : List RegSpec :=
  [ ⟨0x040, 0xFA02, 0x3, 0xFFFF00, 0x0, 0x80000000, []⟩ /- CFG -/,
    ⟨0x044, 0x0, 0x0, 0x0, 0x0, 0x0, []⟩ /- STAT -/,
    ⟨0x048, 0x0, 0x0, 0x0, 0x0, 0x0, []⟩ /- ENT_SEQ -/,
    ⟨0x050, 0x0, 0x80FF07FF, 0x0, 0x0, 0x0, []⟩ /- CUR_SEL -/,
    ⟨0x054, 0x0, 0x0, 0x0, 0x0, 0x0, []⟩ /- CUR_DATA -/,
    ⟨0x060, 0x0, 0xFF, 0x0, 0x0, 0x0, []⟩ /- I_SEL -/,
    ⟨0x064, 0x0, 0xFFFFFFFF, 0x0, 0x0, 0x0, []⟩ /- I_LO -/,
    ⟨0x068, 0x0, 0xFFFFFFFF, 0x0, 0x0, 0x0, []⟩ /- I_W -/,
    ⟨0x06C, 0x0, 0x0, 0x0, 0x0, 0x0, []⟩ /- I_CMD -/,
    ⟨0x070, 0x0, 0x3F, 0x0, 0x0, 0x0, []⟩ /- HOST_IDX -/,
    ⟨0x074, 0x0, 0x0, 0x0, 0x0, 0x0, []⟩ /- HOST_VAL -/,
    ⟨0x078, 0x0, 0xFFFFFFFF, 0x0, 0x0, 0x0, []⟩ /- NOTE_D0 -/,
    ⟨0x07C, 0x0, 0xFFFFFFFF, 0x0, 0x0, 0x0, []⟩ /- NOTE_D1 -/,
    ⟨0x080, 0x0, 0x0, 0x0, 0x0, 0x0, []⟩ /- NOTE_GO -/,
    ⟨0x0A0, 0x0, 0x0, 0x0, 0x0, 0x0, []⟩ /- DROP0 -/,
    ⟨0x0A4, 0x0, 0x0, 0x0, 0x0, 0x0, []⟩ /- DROP1 -/,
    ⟨0x0A8, 0x0, 0x0, 0x0, 0x0, 0x0, []⟩ /- DROP2 -/,
    ⟨0x0AC, 0x0, 0x0, 0x0, 0x0, 0x0, []⟩ /- DROP3 -/,
    ⟨0x0B0, 0x0, 0x0, 0x0, 0x0, 0x0, []⟩ /- FRZ_LOST -/,
    ⟨0x0B4, 0x0, 0x0, 0x0, 0x0, 0x0, []⟩ /- CLR_ALL -/ ]

/-- The registers of page kind UPD at 0x040 and above. -/
def specsUPD : List RegSpec :=
  [ ⟨0x040, 0x203, 0x0, 0xF03, 0x0, 0x80000000, [⟨11, 8, 1, 8⟩]⟩ /- CFG -/,
    ⟨0x044, 0x75300BB8, 0x0, 0xFFFFFFFF, 0x0, 0x0, []⟩ /- CONFCFG -/,
    ⟨0x048, 0xFA, 0xFFFF, 0x0, 0x0, 0x0, [⟨15, 0, 50, 1500⟩]⟩ /- HOVER -/,
    ⟨0x04C, 0x0, 0x10F, 0x0, 0x0, 0x0, []⟩ /- SRC -/,
    ⟨0x050, 0x0, 0xFFFFFFFF, 0x0, 0x0, 0x0, []⟩ /- HCHUNK_OFS -/,
    ⟨0x054, 0x0, 0xFFFFFFFF, 0x0, 0x0, 0x0, []⟩ /- HCHUNK_LEN -/,
    ⟨0x058, 0x0, 0x0, 0x0, 0x0, 0x0, []⟩ /- CMD -/,
    ⟨0x05C, 0x0, 0x0, 0x0, 0x0, 0x0, []⟩ /- STAT -/,
    ⟨0x060, 0x0, 0x0, 0x0, 0x0, 0x0, []⟩ /- PROG -/,
    ⟨0x064, 0x0, 0x0, 0x0, 0x0, 0x0, []⟩ /- VER_ACT -/,
    ⟨0x068, 0x0, 0x0, 0x0, 0x0, 0x0, []⟩ /- VER_TRIAL -/,
    ⟨0x06C, 0x0, 0x0, 0x0, 0x0, 0x0, []⟩ /- VER_RB -/,
    ⟨0x070, 0x0, 0x0, 0x0, 0x0, 0x0, []⟩ /- MIN_LEVEL -/,
    ⟨0x074, 0x0, 0x0, 0x0, 0x0, 0x0, []⟩ /- HEALTHY -/,
    ⟨0x078, 0x0, 0x0, 0x0, 0x0, 0x0, []⟩ /- TRIAL_LEFT -/,
    ⟨0x07C, 0x0, 0x0, 0x0, 0x0, 0x0, []⟩ /- BOOTS -/,
    ⟨0x080, 0x0, 0x0, 0x0, 0x0, 0x0, []⟩ /- W_LO -/,
    ⟨0x084, 0x0, 0x0, 0x0, 0x0, 0x0, []⟩ /- W_HI -/,
    ⟨0x090, 0x0, 0x7, 0x0, 0x0, 0x0, []⟩ /- NC_SEL -/,
    ⟨0x094, 0x0, 0x0, 0x0, 0x0, 0x0, []⟩ /- NC_STAT -/,
    ⟨0x098, 0x0, 0x0, 0x0, 0x0, 0x0, []⟩ /- NC_IMG -/,
    ⟨0x09C, 0x0, 0x0, 0x0, 0x0, 0x0, []⟩ /- NC_NSEG -/,
    ⟨0x0A0, 0x0, 0x1FFF, 0x0, 0x0, 0x0, []⟩ /- GRP_NODE -/,
    ⟨0x0A4, 0x0, 0x80001FFF, 0x0, 0x0, 0x0, []⟩ /- GRP_W -/ ]

/-- The registers of page kind PAIRS at 0x040 and above. -/
def specsPAIRS : List RegSpec :=
  [ ⟨0x040, 0x2104, 0x0, 0xFF07, 0x0, 0x80000000, []⟩ /- CFG -/,
    ⟨0x044, 0x3A98, 0x0, 0xFFFF, 0x0, 0x0, []⟩ /- HOLD -/,
    ⟨0x050, 0x0, 0x0, 0xFFFFFFFF, 0x0, 0x0, []⟩ /- PAIR_ID0 -/,
    ⟨0x054, 0x0, 0x0, 0xFFFFFFFF, 0x0, 0x0, []⟩ /- PAIR_ID1 -/,
    ⟨0x058, 0x0, 0x0, 0xFFFFFFFF, 0x0, 0x0, []⟩ /- PAIR_ID2 -/,
    ⟨0x05C, 0x0, 0x0, 0xFFFFFFFF, 0x0, 0x0, []⟩ /- PAIR_ID3 -/,
    ⟨0x060, 0x0, 0x0, 0x0, 0x0, 0x0, []⟩ /- STAT -/,
    ⟨0x064, 0x0, 0x0, 0x0, 0x0, 0x0, []⟩ /- HOLD_LEFT -/,
    ⟨0x068, 0x0, 0x0, 0x0, 0x0, 0x0, []⟩ /- LAG -/,
    ⟨0x06C, 0x0, 0x0, 0x0, 0x0, 0x0, []⟩ /- SYNC_LEFT -/,
    ⟨0x070, 0x0, 0x0, 0x0, 0x0, 0x0, []⟩ /- LAST_HB_LO -/,
    ⟨0x074, 0x0, 0x0, 0x0, 0x0, 0x0, []⟩ /- LAST_HB_HI -/,
    ⟨0x080, 0x0, 0x0, 0x0, 0x0, 0x0, []⟩ /- CMD -/,
    ⟨0x084, 0x0, 0x0, 0x0, 0x0, 0x0, []⟩ /- LASTSW -/,
    ⟨0x088, 0x0, 0x0, 0x0, 0x0, 0x0, []⟩ /- SW_AT_LO -/,
    ⟨0x08C, 0x0, 0x0, 0x0, 0x0, 0x0, []⟩ /- SW_AT_HI -/,
    ⟨0x090, 0x0, 0x0, 0x0, 0x0, 0x0, []⟩ /- TWIN_SER0 -/,
    ⟨0x094, 0x0, 0x0, 0x0, 0x0, 0x0, []⟩ /- TWIN_SER1 -/,
    ⟨0x098, 0x0, 0x0, 0x0, 0x0, 0x0, []⟩ /- TWIN_SER2 -/,
    ⟨0x09C, 0x0, 0x0, 0x0, 0x0, 0x0, []⟩ /- TWIN_SER3 -/,
    ⟨0x0A0, 0x0, 0x0, 0x0, 0x0, 0x0, []⟩ /- TWIN_UNITS -/,
    ⟨0x0B0, 0x0, 0x0, 0x0, 0x0, 0x0, []⟩ /- HB_MISS -/,
    ⟨0x0B4, 0x0, 0x0, 0x0, 0x0, 0x0, []⟩ /- LINK_AUTH -/,
    ⟨0x0B8, 0x0, 0x0, 0x0, 0x0, 0x0, []⟩ /- SWITCHES -/,
    ⟨0x0BC, 0x0, 0x0, 0x0, 0x0, 0x0, []⟩ /- TAKEBACKS -/,
    ⟨0x0C0, 0x0, 0x0, 0x0, 0x0, 0x0, []⟩ /- REFUSALS -/,
    ⟨0x0C4, 0x0, 0x0, 0x0, 0x0, 0x0, []⟩ /- DUALS -/,
    ⟨0x0D0, 0x0, 0x0, 0x0, 0x0, 0x0, []⟩ /- CNT_CLR -/ ]

/-- The registers of page kind ETH at 0x040 and above. -/
def specsETH : List RegSpec :=
  [ ⟨0x040, 0x1, 0x0, 0xFFFF301, 0x0, 0x80000000, []⟩ /- CFG -/,
    ⟨0x044, 0x0, 0x0, 0x0, 0x0, 0x0, []⟩ /- MAC_LO -/,
    ⟨0x048, 0x0, 0x0, 0x0, 0x0, 0x0, []⟩ /- MAC_HI -/,
    ⟨0x04C, 0x0, 0x0, 0x0, 0x0, 0x0, []⟩ /- STAT -/,
    ⟨0x050, 0x0, 0x0, 0xFFFFFFFF, 0x0, 0x0, []⟩ /- IP4 -/,
    ⟨0x054, 0x0, 0x0, 0xFFFFFFFF, 0x0, 0x0, []⟩ /- IP4_MASK -/,
    ⟨0x058, 0x0, 0x0, 0xFFFFFFFF, 0x0, 0x0, []⟩ /- IP4_GW -/,
    ⟨0x060, 0x0, 0x0, 0xFFFFFFFF, 0x0, 0x0, []⟩ /- IP6_0 -/,
    ⟨0x064, 0x0, 0x0, 0xFFFFFFFF, 0x0, 0x0, []⟩ /- IP6_1 -/,
    ⟨0x068, 0x0, 0x0, 0xFFFFFFFF, 0x0, 0x0, []⟩ /- IP6_2 -/,
    ⟨0x06C, 0x0, 0x0, 0xFFFFFFFF, 0x0, 0x0, []⟩ /- IP6_3 -/,
    ⟨0x070, 0x0, 0x0, 0xFFFFFFFF, 0x0, 0x0, []⟩ /- IP6_GW0 -/,
    ⟨0x074, 0x0, 0x0, 0xFFFFFFFF, 0x0, 0x0, []⟩ /- IP6_GW1 -/,
    ⟨0x078, 0x0, 0x0, 0xFFFFFFFF, 0x0, 0x0, []⟩ /- IP6_GW2 -/,
    ⟨0x07C, 0x0, 0x0, 0xFFFFFFFF, 0x0, 0x0, []⟩ /- IP6_GW3 -/,
    ⟨0x080, 0x40, 0x0, 0xFF, 0x0, 0x0, []⟩ /- IP6_PFX -/,
    ⟨0x090, 0x0, 0x0, 0x0, 0x0, 0x0, []⟩ /- ING_CAL -/,
    ⟨0x094, 0x0, 0x0, 0x0, 0x0, 0x0, []⟩ /- EG_CAL -/,
    ⟨0x098, 0x0, 0xFFFF, 0x0, 0x0, 0x0, []⟩ /- ING_ADJ -/,
    ⟨0x09C, 0x0, 0xFFFF, 0x0, 0x0, 0x0, []⟩ /- EG_ADJ -/,
    ⟨0x0A0, 0x0, 0x0, 0x0, 0x0, 0x0, []⟩ /- RX_OK -/,
    ⟨0x0A4, 0x0, 0x0, 0x0, 0x0, 0x0, []⟩ /- RX_ERR -/,
    ⟨0x0A8, 0x0, 0x0, 0x0, 0x0, 0x0, []⟩ /- TX_OK -/,
    ⟨0x0AC, 0x0, 0x0, 0x0, 0x0, 0x0, []⟩ /- DROP -/,
    ⟨0x0B0, 0x0, 0x0, 0x0, 0x0, 0x0, []⟩ /- LINKDOWN -/,
    ⟨0x0C0, 0x0, 0x0, 0x0, 0x0, 0x0, []⟩ /- CNT_CLR -/ ]

/-- The registers of page kind FEED at 0x040 and above. -/
def specsFEED : List RegSpec :=
  [ ⟨0x040, 0x2042, 0x0, 0xFFFF, 0x0, 0x80000000, []⟩ /- CFG -/,
    ⟨0x044, 0xBAC3, 0x0, 0xFFFF, 0x0, 0x0, []⟩ /- UDP_PORT -/,
    ⟨0x048, 0xFA05DC, 0xFFFFFFFF, 0x0, 0x0, 0x0, []⟩ /- TIMERS -/,
    ⟨0x04C, 0x80032, 0xFFFFFF, 0x0, 0x0, 0x0, [⟨15, 0, 10, 1000⟩]⟩ /- RTO -/,
    ⟨0x050, 0x0, 0x0, 0x0, 0x0, 0x0, []⟩ /- EPOCH -/,
    ⟨0x080, 0x0, 0x1FF, 0x0, 0x0, 0x0, []⟩ /- PEER_SEL -/,
    ⟨0x084, 0x0, 0xB3038000, 0x0, 0x0, 0x0, []⟩ /- PEER_W0 -/,
    ⟨0x090, 0x0, 0xFFFFFFFF, 0x0, 0x0, 0x0, []⟩ /- PEER_KH0 -/,
    ⟨0x094, 0x0, 0xFFFFFFFF, 0x0, 0x0, 0x0, []⟩ /- PEER_KH1 -/,
    ⟨0x098, 0x0, 0xFFFFFFFF, 0x0, 0x0, 0x0, []⟩ /- PEER_KH2 -/,
    ⟨0x09C, 0x0, 0xFFFFFFFF, 0x0, 0x0, 0x0, []⟩ /- PEER_KH3 -/,
    ⟨0x0A0, 0x0, 0xFFFFFFFF, 0x0, 0x0, 0x0, []⟩ /- PEER_KH4 -/,
    ⟨0x0A4, 0x0, 0xFFFFFFFF, 0x0, 0x0, 0x0, []⟩ /- PEER_KH5 -/,
    ⟨0x0A8, 0x0, 0xFFFFFFFF, 0x0, 0x0, 0x0, []⟩ /- PEER_KH6 -/,
    ⟨0x0AC, 0x0, 0xFFFFFFFF, 0x0, 0x0, 0x0, []⟩ /- PEER_KH7 -/,
    ⟨0x0B0, 0x0, 0xFFFFFFFF, 0x0, 0x0, 0x0, []⟩ /- PEER_KH8 -/,
    ⟨0x0B4, 0x0, 0xFFFFFFFF, 0x0, 0x0, 0x0, []⟩ /- PEER_KH9 -/,
    ⟨0x0B8, 0x0, 0xFFFFFFFF, 0x0, 0x0, 0x0, []⟩ /- PEER_KH10 -/,
    ⟨0x0BC, 0x0, 0xFFFFFFFF, 0x0, 0x0, 0x0, []⟩ /- PEER_KH11 -/,
    ⟨0x0C0, 0x0, 0xFFFFFFFF, 0x0, 0x0, 0x0, []⟩ /- PEER_KH12 -/,
    ⟨0x0C4, 0x0, 0xFFFFFFFF, 0x0, 0x0, 0x0, []⟩ /- PEER_KH13 -/,
    ⟨0x0C8, 0x0, 0xFFFFFFFF, 0x0, 0x0, 0x0, []⟩ /- PEER_KH14 -/,
    ⟨0x0CC, 0x0, 0xFFFFFFFF, 0x0, 0x0, 0x0, []⟩ /- PEER_KH15 -/,
    ⟨0x0D0, 0x0, 0xFFFFFFFF, 0x0, 0x0, 0x0, []⟩ /- PEER_ADDR0 -/,
    ⟨0x0D4, 0x0, 0xFFFFFFFF, 0x0, 0x0, 0x0, []⟩ /- PEER_ADDR1 -/,
    ⟨0x0D8, 0x0, 0xFFFFFFFF, 0x0, 0x0, 0x0, []⟩ /- PEER_ADDR2 -/,
    ⟨0x0DC, 0x0, 0xFFFFFFFF, 0x0, 0x0, 0x0, []⟩ /- PEER_ADDR3 -/,
    ⟨0x0E0, 0xBAC3, 0xFFFF, 0x0, 0x0, 0x0, []⟩ /- PEER_UDP -/,
    ⟨0x0E4, 0x0, 0xFFFFFFFF, 0x0, 0x0, 0x0, []⟩ /- PEER_EVT -/,
    ⟨0x0E8, 0x0, 0x0, 0x0, 0x0, 0x0, []⟩ /- PEER_STAT -/,
    ⟨0x0EC, 0x0, 0x0, 0x0, 0x0, 0x0, []⟩ /- PEER_EPOCH -/,
    ⟨0x0F0, 0x0, 0x0, 0x0, 0x0, 0x0, []⟩ /- PEER_ACKRSN_LO -/,
    ⟨0x0F4, 0x0, 0x0, 0x0, 0x0, 0x0, []⟩ /- PEER_ACKRSN_HI -/,
    ⟨0x0F8, 0x0, 0x0, 0x0, 0x0, 0x0, []⟩ /- PEER_D -/,
    ⟨0x100, 0x0, 0x0, 0x0, 0x0, 0x0, []⟩ /- HS_OK -/,
    ⟨0x104, 0x0, 0x0, 0x0, 0x0, 0x0, []⟩ /- HS_FAIL -/,
    ⟨0x108, 0x0, 0x0, 0x0, 0x0, 0x0, []⟩ /- REPLAY -/,
    ⟨0x10C, 0x0, 0x0, 0x0, 0x0, 0x0, []⟩ /- AUTH_FAIL -/,
    ⟨0x110, 0x0, 0x0, 0x0, 0x0, 0x0, []⟩ /- STALE_RX -/,
    ⟨0x114, 0x0, 0x0, 0x0, 0x0, 0x0, []⟩ /- RETX -/,
    ⟨0x118, 0x0, 0x0, 0x0, 0x0, 0x0, []⟩ /- TUN_OPS -/,
    ⟨0x120, 0x0, 0x0, 0x0, 0x0, 0x0, []⟩ /- CNT_CLR -/ ]

/-- The registers of page kind PCIE at 0x040 and above. -/
def specsPCIE : List RegSpec :=
  [ ⟨0x040, 0x0, 0x0, 0x0, 0x0, 0x0, []⟩ /- STAT -/,
    ⟨0x044, 0x0, 0x0, 0x0, 0x0, 0x0, []⟩ /- PERST -/,
    ⟨0x050, 0x0, 0x0, 0x0, 0x0, 0x0, []⟩ /- RPT_WR -/,
    ⟨0x054, 0x0, 0xFFF, 0x0, 0x0, 0x0, []⟩ /- RPT_RD -/,
    ⟨0x058, 0x0, 0xFF, 0x0, 0x0, 0x0, []⟩ /- HTX_WR -/,
    ⟨0x05C, 0x0, 0x0, 0x0, 0x0, 0x0, []⟩ /- HTX_RD -/,
    ⟨0x060, 0x0, 0x0, 0x0, 0x0, 0x0, []⟩ /- HRX_WR -/,
    ⟨0x064, 0x0, 0xFF, 0x0, 0x0, 0x0, []⟩ /- HRX_RD -/ ]

/-- The registers of page kind SVC at 0x040 and above. -/
def specsSVC : List RegSpec :=
  [ ⟨0x040, 0x2C, 0x0, 0x7F, 0x0, 0x80000000, []⟩ /- CFG -/,
    ⟨0x044, 0x0, 0x0, 0x0, 0x0, 0x0, []⟩ /- STAT -/,
    ⟨0x048, 0x3A98, 0xFFFF, 0x0, 0x0, 0x0, []⟩ /- UNLOCK -/,
    ⟨0x050, 0x0, 0x0, 0x0, 0x0, 0x0, []⟩ /- CHAL0 -/,
    ⟨0x054, 0x0, 0x0, 0x0, 0x0, 0x0, []⟩ /- CHAL1 -/,
    ⟨0x058, 0x0, 0x0, 0x0, 0x0, 0x0, []⟩ /- RESP0 -/,
    ⟨0x05C, 0x0, 0x0, 0x0, 0x0, 0x0, []⟩ /- RESP1 -/,
    ⟨0x060, 0x0, 0x0, 0x0, 0x0, 0x0, []⟩ /- RESP2 -/,
    ⟨0x064, 0x0, 0x0, 0x0, 0x0, 0x0, []⟩ /- RESP3 -/,
    ⟨0x070, 0x0, 0x0, 0x0, 0x0, 0x0, []⟩ /- NAK -/,
    ⟨0x074, 0x0, 0x0, 0x0, 0x0, 0x0, []⟩ /- DENIED -/ ]

/-- The registers of page kind SDC at 0x040 and above. -/
def specsSDC : List RegSpec :=
  [ ⟨0x040, 0x0, 0x0, 0x0, 0x0, 0x0, []⟩ /- STAT -/,
    ⟨0x044, 0x0, 0x0, 0x0, 0x0, 0x0, []⟩ /- FILE_N -/,
    ⟨0x048, 0x0, 0xF, 0x0, 0x0, 0x0, []⟩ /- FILE_SEL -/,
    ⟨0x04C, 0x0, 0x0, 0x0, 0x0, 0x0, []⟩ /- FILE_NAME0 -/,
    ⟨0x050, 0x0, 0x0, 0x0, 0x0, 0x0, []⟩ /- FILE_NAME1 -/,
    ⟨0x054, 0x0, 0x0, 0x0, 0x0, 0x0, []⟩ /- FILE_NAME2 -/,
    ⟨0x058, 0x0, 0x0, 0x0, 0x0, 0x0, []⟩ /- FILE_NAME3 -/,
    ⟨0x05C, 0x0, 0x0, 0x0, 0x0, 0x0, []⟩ /- FILE_NAME4 -/,
    ⟨0x060, 0x0, 0x0, 0x0, 0x0, 0x0, []⟩ /- FILE_NAME5 -/,
    ⟨0x064, 0x0, 0x0, 0x0, 0x0, 0x0, []⟩ /- FILE_NAME6 -/,
    ⟨0x068, 0x0, 0x0, 0x0, 0x0, 0x0, []⟩ /- FILE_NAME7 -/,
    ⟨0x06C, 0x0, 0x0, 0x0, 0x0, 0x0, []⟩ /- FILE_LEN_LO -/,
    ⟨0x070, 0x0, 0x0, 0x0, 0x0, 0x0, []⟩ /- FILE_LEN_HI -/,
    ⟨0x074, 0x0, 0x0, 0x0, 0x0, 0x0, []⟩ /- RESCAN -/,
    ⟨0x078, 0x0, 0x0, 0x0, 0x0, 0x0, []⟩ /- CRC_ERR -/,
    ⟨0x07C, 0x0, 0x0, 0x0, 0x0, 0x0, []⟩ /- TIMEOUT -/ ]

/-- The registers of page kind THERM at 0x040 and above. -/
def specsTHERM : List RegSpec :=
  [ ⟨0x040, 0x0, 0x0, 0x0, 0x0, 0x0, []⟩ /- TNOW -/,
    ⟨0x044, 0x0, 0x0, 0x0, 0x0, 0x0, []⟩ /- TMAX -/,
    ⟨0x048, 0x5F, 0x0, 0xFF, 0x0, 0x80000000, [⟨7, 0, 70, 100⟩]⟩ /- TCFG -/,
    ⟨0x04C, 0x0, 0x0, 0x0, 0x0, 0x0, []⟩ /- TSTAT -/ ]

/-- The registers of page kind CRYHASH at 0x040 and above. -/
def specsCRYHASH : List RegSpec :=
  specsCRY ++ [ ⟨0x080, 0x0, 0x0, 0x0, 0x0, 0x0, []⟩ /- HASH_CORES -/ ]

/-- The registers of page kind CRYPQC at 0x040 and above. -/
def specsCRYPQC : List RegSpec :=
  specsCRY ++ [ ⟨0x080, 0x0, 0x0, 0x0, 0x0, 0x0, []⟩ /- PQC_FAULTS -/,
    ⟨0x084, 0x0, 0x0, 0x0, 0x0, 0x0, []⟩ /- PQC_RUN -/,
    ⟨0x088, 0x0, 0x0, 0x0, 0x0, 0x0, []⟩ /- PQC_ITER_MAX -/ ]

/-- The kind of a page index: the index of its instance-0 page (Table 23.1); none for a reserved index. The four
crypto engines AES0, AES1, HASH and PQC are three kinds (R419). -/
def pageKind (p : Nat) : Option Nat :=
  if p ≤ 0x06 then some p
  else if 0x08 ≤ p ∧ p ≤ 0x0D then some 0x08
  else if p = 0x0E ∨ p = 0x0F then some p
  else if p = 0x10 ∨ p = 0x11 then some 0x10
  else if p = 0x12 ∨ p = 0x13 then some p
  else if 0x14 ≤ p ∧ p ≤ 0x17 then some 0x14
  else if 0x18 ≤ p ∧ p ≤ 0x1B then some 0x18
  else if p = 0x1C then some p
  else if 0x20 ≤ p ∧ p ≤ 0x2F then some 0x20
  else if 0x30 ≤ p ∧ p ≤ 0x35 then some p
  else if 0x38 ≤ p ∧ p ≤ 0x3A then some p
  else if p = 0x40 then some p
  else if p = 0x41 ∨ p = 0x42 then some 0x41
  else if p = 0x43 ∨ p = 0x44 ∨ p = 0x45 then some p
  else if p = 0x48 ∨ p = 0x49 ∨ p = 0x4A ∨ p = 0x4C then some p
  else if p = 0x50 ∨ p = 0x51 then some 0x50
  else if 0x52 ≤ p ∧ p ≤ 0x55 then some p
  else if p = 0x58 then some p
  else none

/-- The registers of a page at 0x040 and above. -/
def pageSpecs (p : Nat) : List RegSpec :=
  match pageKind p with
  | some 0x00 => specsSYS | some 0x01 => specsCLK | some 0x02 => specsPWR | some 0x03 => specsEVT
  | some 0x04 => specsSWEEP | some 0x05 => specsSLALOM | some 0x06 => specsPTP | some 0x08 => specsLINE
  | some 0x0E => specsLINEC | some 0x0F => specsLINEM | some 0x10 => specsAIR | some 0x12 => specsAIRC
  | some 0x13 => specsAIRM | some 0x14 => specsLOOP | some 0x18 => specsLIFT | some 0x1C => specsFCAC
  | some 0x20 => specsFCA | some 0x30 => specsBAL | some 0x31 => specsBALG | some 0x32 => specsBILL
  | some 0x33 => specsTARIF | some 0x34 => specsCRED | some 0x35 => specsTAMP | some 0x38 => specsLEDG
  | some 0x39 => specsNAND | some 0x3A => specsGROOM | some 0x40 => specsKEEP | some 0x41 => specsCRYAES
  | some 0x43 => specsCRYHASH | some 0x44 => specsCRYPQC | some 0x45 => specsMERK | some 0x48 => specsBIST
  | some 0x49 => specsLOGB | some 0x4A => specsUPD | some 0x4C => specsPAIRS | some 0x50 => specsETH
  | some 0x52 => specsFEED | some 0x53 => specsPCIE | some 0x54 => specsSVC | some 0x55 => specsSDC
  | some 0x58 => specsTHERM
  | _ => []

/-- The register of a page at an offset, if a table names one. -/
def findSpec (p off : Nat) : Option RegSpec := (pageSpecs p).find? (fun r => r.off == off)

/-- Table 17.4: the refuser that counter n of PWR names at reset. -/
def refIdReset : List Nat :=
  [0x01, 0x02, 0x03, 0x04, 0x05, 0x06, 0x07, 0x08, 0x09, 0x0A, 0x0B, 0x0C, 0x0D, 0x0E, 0x0F, 0x10,
   0x20, 0x21, 0x22, 0x23, 0x24, 0x25, 0x26, 0x27, 0xFF]

end Sys2Proof.Machine
end

