-- ==== Sys2Proof/Machine/State.lean ====
section
/-!
DEFINITION. The state of the block as plain data: every register, table, queue, counter, mode and pin that the spec
gives the KVZ-4811, and the queue of waiting commands. Registers live in `regs`, keyed by page times 0x1000 plus
offset (R417); an unlisted register holds the reset value of its table (RegTable.lean). Tables that the registers
only show through a window have structures of their own.
-/

namespace Sys2Proof.Machine

/-- Why a step can fault. No command of the table faults in this model; the type is here for the interface. -/
inductive Fault where
  /-- Raised by no command: the spec gives every access of the block an outcome (R13, R417). Safe. -/
  | none
  deriving DecidableEq, Repr

/-- Why a step can be refused. -/
inductive Refusal where
  /-- The command has no meaning yet; raised by its arm of exec alone. Safe: nothing can be proved about it. -/
  | notModelled (mnemonic : String)
  deriving DecidableEq, Repr


/-- The ordering variants of Table 0.3. -/
inductive Variant where
  | f | s | n | h
  deriving DecidableEq, Repr

/-- Factory values: set at manufacture, kept by every reset (R365). Their values here are log 5's. -/
structure Factory where
  variant : Variant := .f
  stepping : Nat := 0
  serial : BitVec 128 := 0
  /-- E_FIX in mJ (Table 2.10). -/
  eFix : Nat := 700
  /-- C_FACT in µF, V_MIN in 10 mV and ETA in 1/256 (Table 17.8). -/
  cFact : Nat := 2000
  vMin : Nat := 2000
  eta : Nat := 250
  mac0 : BitVec 48 := 0
  mac1 : BitVec 48 := 0
  /-- ING_CAL and EG_CAL of ETH0 and ETH1 (Table 13.9). -/
  ingCal0 : Word := 0
  egCal0 : Word := 0
  ingCal1 : Word := 0
  egCal1 : Word := 0
  deriving DecidableEq, Repr

/-- One captured access (R423): ERRCAP and ERRADDR words and the sweep time. -/
structure ErrEntry where
  cap : Word
  addr : Word
  time : Nat
  deriving DecidableEq, Repr

/-- The destination of an air frame: none, a short address, or an extended one (R99, R112). -/
inductive AirDest where
  | none
  | short (a : Nat)
  | extended (a : Nat)
  deriving DecidableEq, Repr

/-- What a beacon's MAC header holds beside the addresses (Table 5.4): the superframe specification; its GTS and pending-address fields
are empty. -/
structure BeaconFields where
  beaconOrder : Nat := 15
  superframeOrder : Nat := 15
  coordinator : Bool := true
  permit : Bool
  deriving DecidableEq, Repr

/-- The MAC header and the security of a frame that the module sends on the air (Table 5.4, R103): the PAN identifier, its extended
address, the MAC sequence number of a POLL or CMD (R102; the spec gives other frames none), the destination, the fields of a beacon,
and the security level with key index and frame counter, 0 at level 0. -/
structure MacHeader where
  pan : Nat
  source : Nat
  seq : Option Nat
  dest : AirDest
  beacon : Option BeaconFields
  level : Nat
  keyIdx : Nat
  counter : Nat
  deriving DecidableEq, Repr

/-- The way of a datagram (R259): source address, neighbour, destination address, and the UDP ports; an IPv4 address is mapped into IPv6. -/
structure IpRoute where
  source : Nat
  hop : Nat
  dest : Nat
  fromPort : Nat
  toPort : Nat
  deriving DecidableEq, Repr

/-- What the block sends out: answers to reads, frames, messages and pin levels, newest first in `State.out`. -/
inductive Output where
  /-- The word a read answers on its path. -/
  | word (p : Path) (w : Word)
  /-- A service-port byte answered with NACK. -/
  | svcNack
  /-- An MSI-X message of a vector (R426). -/
  | msix (vector : Nat)
  /-- The level of the doorbell pin (R426). -/
  | doorbell (level : Bool)
  /-- A frame on a line lane: lane, destination node, frame type, mode and payload (R62, R77). -/
  | line (lane node ftype mode : Nat) (payload : List Byte)
  /-- The signal of that frame: lane, sweep time at which it starts, attenuation in dB, and the phases of the carriers of each symbol
  in units of 1/(8 N_c) of a turn (R58, R60 to R63, R71). -/
  | lineSignal (lane start atten : Nat) (symbols : List (List Nat))
  /-- From one sweep time to another both lanes of a phase transmit: a lane, the two times, and the attenuation of its signal between
  them in dB (R71). -/
  | lineLevel (lane start stop atten : Nat)
  /-- A pilot symbol on a phase, and whether it carries a failure report (R91). -/
  | pilot (phase : Nat) (fail : Bool)
  /-- The signal of that pilot: phase, sweep time at which it starts, and attenuation and carrier phases of the lower and of the upper
  sub-band (R91). -/
  | pilotSignal (phase start attenLower attenUpper : Nat) (lower upper : List Nat)
  /-- A frame on an air lane: lane, short address (for SYNC the source of the SEEK), frame type, channel, the extended address of the sender (R99) and the KAP payload. -/
  | air (lane node ftype channel source : Nat) (payload : List Byte)
  /-- The frame that carries it: lane, sweep time of its first preamble octet, MAC header, and the KAP payload as it is secured
  (R99, R100, R103). -/
  | airFrame (lane start : Nat) (h : MacHeader) (octets : List Byte)
  /-- A frame on a field loop: loop, address, type and payload. -/
  | loop (loop addr ftype : Nat) (payload : List Byte)
  /-- A KFP record to a peer: type, sequence number and body. -/
  | kfp (peer ftype seq : Nat) (body : List Byte)
  /-- The datagram that carries a KFP record or a handshake message: peer, Ethernet port and its tag, the way, and the header, body and
  tag as they are sent (R259, R260, R267, R268). -/
  | datagram (peer port : Nat) (vlan : Option Nat) (route : Option IpRoute) (octets : List Byte)
  /-- A handshake message to a peer, 0 where no peer entry names the initiator: type and body (R270). -/
  | handshake (peer ftype : Nat) (body : List Byte)
  /-- The answer to an ARP, Neighbor Discovery or echo frame that came on a port, with the port's tag (R259). -/
  | ethAnswer (port : Nat) (vlan : Option Nat) (request : List Byte)
  /-- A PTP message on a port: its messageType of IEEE 1588, 1 Delay_Req, 2 Pdelay_Req, 3 Pdelay_Resp, 10 Pdelay_Resp_Follow_Up, domain and
  transport (R261). -/
  | ptp (port kind domain transport : Nat)
  /-- A frame on an Ethernet port. -/
  | eth (port : Nat) (frame : List Byte)
  /-- A message on the Pairs link: kind and fields. -/
  | pairs (kind : Nat) (fields : List Nat)
  /-- An interlock drive: output and whether it is the ON or the OFF coil; or its end. -/
  | drive (output : Nat) (on : Bool) (active : Bool)
  /-- A stripe issued to the dies of a superblock: superblock, stripe, and each die's page with its header (R234, R235). -/
  | stripe (sb page : Nat) (pages : List (Nat × List Byte))
  /-- A mark routed to PTP capture input 3 (Table 1.12). -/
  | mark (n : Nat)
  /-- The fence output (R333). -/
  | fence (level : Bool)
  deriving DecidableEq, Repr

/-- What the timebase holds about the crossings of one phase (R19, R20, R442). -/
structure PhaseRec where
  /-- A reference crossing is held: the first crossing after reset, or the first one in HOLDOVER. -/
  ref : Bool := false
  /-- Cycle and signed error of the last accepted crossing, once there is one. -/
  accepted : Option (Nat × Int) := none
  /-- The same of the accepted crossing before it: a crossing of the next cycle may come just before the tick that ends a cycle (R19). -/
  before : Option (Nat × Int) := none
  /-- Consecutive predicted crossings without an accepted crossing. -/
  misses : Nat := 0
  /-- The last measured angle differences to L1, newest first, at most 64 (R19). -/
  diffs : List Nat := []
  /-- The offset held, and whether it was learned rather than nominal. -/
  ofs : Nat := 0
  learned : Bool := false
  deriving DecidableEq, Repr

/-- A run of cycles with equal period entries: first cycle, number of cycles, entry word (Table 1.6). -/
structure PeriodRun where
  first : Nat
  count : Nat
  entry : Nat
  deriving DecidableEq, Repr

/-- An entry of the zone-rule schedule (Table 1.10): TAI second of effect, TAI − UTC in seconds, local − UTC in
minutes. -/
structure ZoneRule where
  eff : Nat
  taiUtc : Int
  localUtc : Int
  deriving DecidableEq, Repr

/-- The sweep timebase beyond its registers (spec/01_sweep_timebase.md). Times of the PTP counter are in units of
125 ps from the PTP epoch. -/
structure Sweep where
  phases : SMap PhaseRec := []
  /-- Consecutive in-tolerance crossings towards LOCKED. -/
  lockRun : Nat := 0
  /-- The crossing that ends REALIGN has come: the next CYCLE_START ends the stretched cycle. -/
  realigned : Bool := false
  /-- The cycle in which REALIGN was entered (R24). -/
  realignAt : Nat := 0
  /-- The period before the last cycle that counted as bounded by accepted crossings: it holds again where that cycle's end crossing
  proves to be missed (R23). -/
  periodBefore : Nat := 160000000
  /-- The period measured for the last cycle bounded by accepted crossings, and the start capture of this cycle. -/
  period : Nat := 160000000
  startCap : Nat := 0
  /-- That capture as it was taken, before a step of the PTP counter in this cycle moved `startCap` with it (R25). -/
  tickCap : Nat := 0
  startDisc : Bool := false
  /-- The source of the cycle in progress so far (Table 1.6). -/
  src : Nat := 0
  /-- F_NOM of instrument 0x11, fixed at the first LOCKED (Table 20.1). -/
  fNom : Option Nat := none
  /-- The period record, newest run first. -/
  record : List PeriodRun := []
  /-- The open segment: first cycle, entries, start capture, and the closed segments committed. -/
  segFirst : Nat := 0
  segCount : Nat := 0
  segCap : Nat := 0
  /-- VIGIL memory: the latched counter, the cycle stamp, and whether VIGIL timing is valid (R27, R362, R357). -/
  vigilLatch : Nat := 0
  stamp : Option Nat := none
  /-- The PTP capture of the tick that the stamp names, and whether PTP was disciplined there (R27, R362). -/
  stampCap : Nat := 0
  stampDisc : Bool := false
  vigilValid : Bool := true
  /-- The last SHUTDOWN record: C_last, its period entry, and whether PTP was disciplined at its end and when. -/
  shutdown : Option (Nat × Nat) := none
  discAtLast : Bool := false
  capAtLast : Nat := 0
  /-- Civil instants were mapped at the end of C_last (R217), and the outage before the present sweep: its first GAP cycle, the
  number of its cycles, their DUR, and the VIGIL counter at its start (R217, R232). -/
  mappedAtLast : Bool := false
  outage : Option (Nat × Nat × Nat) := none
  outFrom : Nat := 0
  /-- The committed zone-rule schedule and ZVALID. -/
  zones : List ZoneRule := []
  zvalid : Nat := 0
  /-- TAI has been known since reset (R34). -/
  taiKnown : Bool := false
  /-- The requested instants, by identifier, and the next identifier. -/
  instants : SMap Instant := []
  nextInstant : Nat := 0
  /-- The TAI seconds of the instants pinned since reset, newest first (R33). -/
  pinned : List Int := []
  /-- Targets of the marks in force (R36). -/
  marks : SMap Nat := []
  /-- The marks that are armed and have still to fire, and whether their target was past when they were armed (R35). -/
  armed : SMap Bool := []
  /-- Time towards the next 0.01 h of the operating hours, in units of 125 ps (R356). -/
  hourAcc : Nat := 0
  /-- Time on the 25 MHz reference up to the start of this cycle, with the outages that VIGIL timed, in units of 125 ps (R12, R117). -/
  uptime : Nat := 0
  deriving DecidableEq, Repr

/-- A revoked CUSTODY obligation whose accepted records are still to be committed (R50): its ring words and the
RSNs. -/
structure LateCommit where
  id : Nat
  word1 : Nat
  rsns : List Nat
  deriving DecidableEq, Repr

/-- Slalom beyond its registers. -/
structure Slalom where
  calendar : SMap Obligation := []
  /-- Last generation used at each calendar index (R53). -/
  gens : SMap Nat := []
  order : Nat := 0
  ring : SMap OutcomeEntry := []
  late : List LateCommit := []
  /-- The reason of the last trigger of a recomputation, and of the trigger that concerns a resource first in the one in progress
  (R48, R49). -/
  trigger : Nat := 0
  triggers : SMap Nat := []
  /-- A host request that waits for the recomputation to end, and those of the firmware, oldest first (R44, R48). -/
  held : Option Obligation := none
  heldOwn : List Obligation := []
  /-- Writes of BANDCFG and REGCFG that wait for it (R416). -/
  heldPlan : Option Word := none
  heldRegion : Option Word := none
  /-- Retries placed in a resource and not yet past, as (end, ticks), by resource (R40). -/
  placed : SMap (List (Nat × Nat)) := []
  /-- Slots waited for in capacity admitted to no one, as (end, ticks), by resource (R77). -/
  drawn : SMap (List (Nat × Nat)) := []
  /-- Retry share used, as (cycle, ticks) over the last 256 cycles, by resource. -/
  used : SMap (List (Nat × Nat)) := []
  /-- Units lost, by resource, with the reason code of their loss (R48). -/
  lost : SMap Nat := []
  /-- The nodes of cancelled commands that had been sent, whose VSTAT can still come (R53, R228). -/
  cancelled : List Nat := []
  /-- Boundaries whose cost is pre-reserved, and those whose reservation waits (R46): the boundary's key. -/
  reserved : List Nat := []
  waiting : List Nat := []
  deriving DecidableEq, Repr


/-- An extreme of a Logbook instrument with its stamps (R386). -/
structure Extreme where
  value : Int
  hours : Nat
  cycles : Nat
  time : Nat
  deriving DecidableEq, Repr

/-- A Logbook instrument (R385): origin, width, bins, sample count and extremes. -/
structure Instrument where
  lo : Int
  width : Nat
  bins : SMap Nat := []
  count : Nat := 0
  least : Option Extreme := none
  most : Option Extreme := none
  deriving DecidableEq, Repr

/-- A Logbook entry (Table 20.2). -/
structure LogEntry where
  time : Nat
  eseq : Nat
  hours : Nat
  cycles : Nat
  cls : Nat
  page : Nat
  code : Nat
  data : Nat
  deriving DecidableEq, Repr

/-- The Logbook beyond its registers (spec/20_logbook.md). -/
structure Logbook where
  instruments : SMap Instrument := []
  entries : SMap LogEntry := []
  /-- Entries that wait while the Logbook is frozen, oldest first (R389). -/
  hold : List LogEntry := []
  frozenAt : Nat := 0
  /-- Per path: space, record and word of the cursor (R390). -/
  cursors : SMap (Nat × Nat × Nat) := []
  /-- The contents that SYSDATA records hold (R391): the RSN of the record, its instruments and its entries, newest first. -/
  copies : List (Nat × SMap Instrument × SMap LogEntry) := []
  deriving DecidableEq, Repr

/-- A ledger record (Tables 12.3 and 12.11 to 12.18). -/
structure LedgerRecord where
  cls : Nat
  payload : List Byte
  charged : Bool
  /-- Sweep time at which it was appended. -/
  time : Nat
  /-- Leaf whose record it is, at a hub; 0 for the module's own. -/
  leaf : Nat := 0
  /-- The RSN under which the leaf forwarded it (R279). -/
  leafRsn : Nat := 0
  /-- Obligation it helps to complete. -/
  obl : Option Nat := none
  /-- Its RSN is void (R245), or its page was lost (R254). -/
  void : Bool := false
  lost : Bool := false
  deriving DecidableEq, Repr

/-- What a mapped flash page holds (Table 12.2): kind, RSNs of its first and last frame, its frames, for a period segment the cycles it
covers, its flags and its start capture, for a page of kind STATE or MAP the free value that it holds; and the CSN and sweep time of the
header. -/
structure PageInfo where
  kind : Nat
  first : Nat := 0
  last : Nat := 0
  frames : Nat := 0
  loCycle : Nat := 0
  hiCycle : Nat := 0
  flags : Nat := 0
  cap : Nat := 0
  free : Nat := 0
  /-- The leaf whose period segment it is, with the octets that came (R280). -/
  leaf : Nat := 0
  octets : List Byte := []
  csn : Nat := 0
  built : Nat := 0
  /-- The page could not be rebuilt (R254). -/
  lost : Bool := false
  deriving DecidableEq, Repr

/-- A key slot (R292, R298): ATTR of Table 14.4 in 16 bits, the active half, the generations of the active and the other half,
the key, and LC_CNT when the key was created, which the service root depends on (R287). A slot of TYPE EMPTY has attributes 0. -/
structure KeySlot where
  attr : Nat := 0
  half : Bool := false
  genAct : Nat := 0
  genOther : Nat := 0
  key : Nat := 0
  made : Nat := 0
  deriving DecidableEq, Repr

/-- The half of a key slot that an update was writing when power failed (R299): the slot, what the half holds, and whether its
commit marker was written. -/
structure HalfUpdate where
  slot : Nat
  new : KeySlot
  marked : Bool
  deriving DecidableEq, Repr

/-- An accepted transition that takes effect at the next restart (R291): its target, and the new OWNER and RECOVERY hashes of
a TRANSFER. -/
structure LcNext where
  target : Nat
  transfer : Option (BitVec 512 × BitVec 512) := none
  deriving DecidableEq, Repr

/-- Keeper NV (R286, R410): it survives every reset. -/
structure Nv where
  /-- Life-cycle state and the state before the last transition (Table 14.1). Modules leave manufacture in FACTORY. -/
  lc : Nat := 1
  prev : Nat := 0
  lcCnt : Nat := 0
  nonce : BitVec 128 := 0
  /-- The provisioned role, band plan and air region, ROLE_NEXT, and the role in force (R3, R410). -/
  role : Nat := 0
  roleProv : Nat := 0
  planProv : Nat := 0
  regionProv : Nat := 0
  roleNext : Nat := 0
  /-- The pair epoch (R337) and the persisted pairing (R414): the twin's serial, or none. -/
  epoch : Nat := 0
  pairing : Option (BitVec 128) := none
  /-- The pair identity of the persisted pairing (R326, R327). -/
  pairedAs : Nat := 0
  /-- Transmit counters by key: 0x10000 plus a node, 0x20000 plus a line lane's group key, 0x20010 plus an air lane's,
  0x100000 plus a KFP session. -/
  txKeys : SMap TxKey := []
  /-- By group key: the number of keys that have replaced the lane's first one, and the cycle from which the next one is
  used while it is being distributed (R104, R302). -/
  groupGen : SMap Nat := []
  groupNext : SMap Nat := []
  /-- The lane group keys by handle: the lane's key number and the generation (Table 14.6). -/
  groupKeys : SMap Nat := []
  /-- The key slots, the authority hashes, the owner root while one is held, and a transition that is pending. -/
  slots : SMap KeySlot := []
  /-- An update of a key slot that a power failure broke off; the restart completes or discards it (R299). -/
  half : Option HalfUpdate := none
  ownerHash : BitVec 512 := 0
  recoveryHash : BitVec 512 := 0
  ownerRoot : Option Nat := none
  next : Option LcNext := none
  /-- MIN_LEVEL and the boots of the trial image (R399, R401). -/
  minLevel : Nat := 0
  boots : Nat := 0
  deriving DecidableEq, Repr

/-- A closed Merkle batch (R305, Table 14.7): its number, the RSNs of its record leaves in order, its segments as first
cycle and header, its flags, the sweep time of its close, and its root. -/
structure Batch where
  num : Nat
  recs : List Nat
  segs : List (Nat × List Byte) := []
  flags : Nat := 0
  closedAt : Nat
  root : BitVec 512
  /-- RSN of its BATCHROOT record once it is signed. -/
  rsn : Nat := 0
  deriving DecidableEq, Repr

/-- The Merkle batcher: the segments of the open batch (first cycle, header, cycle of the close), the last RSN that a closed
batch covers, the closed batches that await their signature, oldest first, the signed ones by number, the last number, the
flags that the next batch carries up to an RSN (R307), and the last proof: path, leaf hash and root. -/
structure Merkle where
  segs : List (Nat × List Byte × Nat) := []
  upto : Nat := 0
  closed : List Batch := []
  signed : SMap Batch := []
  num : Nat := 0
  restart : Option (Nat × Nat) := none
  path : List (BitVec 512) := []
  leafHash : BitVec 512 := 0
  root : BitVec 512 := 0
  deriving DecidableEq, Repr

/-- A running crypto job (R311): its ring index, the key under which it started with its slot and generation, and the status that
the start gave it: 0, or KEY (R313). -/
structure CryptoJob where
  idx : Nat
  key : Nat := 0
  slot : Nat := 0
  gen : Nat := 0
  code : Nat := 0
  deriving DecidableEq, Repr

/-- A crypto engine beyond its registers: its running host jobs, oldest first, the key it holds as slot and generation, the jobs
retired by JR_ACK up to an index, and whether Slalom has lost it to an alarm. -/
structure Engine where
  running : List CryptoJob := []
  held : Option (Nat × Nat) := none
  acked : Nat := 0
  lost : Bool := false
  deriving DecidableEq, Repr

/-- The crypto domain: AES0, AES1, HASH and PQC by number; the uptime at which the random
generator failed, and the cycle in which an alarm began. -/
structure Crypto where
  engines : SMap Engine := []
  rngBad : Option Nat := none
  alarmAt : Option Nat := none
  deriving DecidableEq, Repr

/-- A descriptor as it stands in a table (R166): its bits, COLDSTART, whether it is a retirement, and the RSN of its
DESC record. -/
structure DescEntry where
  eff : Nat
  raw : Nat
  cold : Bool := false
  retire : Bool := false
  rsn : Nat := 0
  /-- The parameter blocks first journalled with it (R167). -/
  blocks : List Nat := []
  deriving DecidableEq, Repr

/-- The last evaluated point of a channel (R159, R182): its time on the evaluating axis of its leaf, its rate, whether
it had one, its quality, flags and sample number. -/
structure PrevPoint where
  t : Nat
  rate : F64
  has : Bool
  qual : Nat
  flags : Nat
  sseq : Nat
  deriving DecidableEq, Repr

/-- A primary sample that waits for its evaluation (R169, R171). -/
structure StagedPoint where
  t : Nat
  code : Nat
  sseq : Nat
  deriving DecidableEq, Repr

/-- The total of a channel with its saturation and the previous point, as a point or a register record left them at a time of the
module's axis (R159). -/
structure ChanMark where
  t : Nat
  total : Int
  sat : Bool
  prev : Option PrevPoint
  /-- Its points so far that were not GOOD. -/
  notGood : Nat := 0
  deriving DecidableEq, Repr

/-- The state of a channel in a descriptor table: its total A in units of 2^-40 with its saturation (R156), the previous
point, the RSN of the descriptor of that point, the last good value of each input under it, the staged primary samples in
sweep order, the samples of each secondary input newest first (by input and key), the sum of INC since the last TOTAL and that TOTAL
(R183), the boundaries already closed and the points that were not GOOD since (R186), and that its next point opens a run. -/
structure ChanState where
  total : Int := 0
  sat : Bool := false
  prev : Option PrevPoint := none
  descRsn : Option Nat := none
  lastGood : SMap F64 := []
  staged : List StagedPoint := []
  secs : SMap (List (Nat × Nat)) := []
  carried : Nat := 0
  lastTotal : Option Nat := none
  closed : Nat := 0
  notGood : Nat := 0
  opens : Bool := false
  /-- The last point that a mirror named as evaluated: later ones alone are committed after a takeover (R338). -/
  mirrored : Option Nat := none
  /-- Its totals since the start of the open interval, newest first, with the last one before that (R159). -/
  trail : List ChanMark := []
  /-- The lane that read its last packet, in the re-derivation table (R184; log 23). -/
  reader : Nat := 0
  deriving DecidableEq, Repr

/-- A slot of a lane's host ring (R185): its eight words and whether it has been read. -/
structure RingSlot where
  words : List Nat
  read : Bool := false
  deriving DecidableEq, Repr

/-- An FCA lane: lost or not, the SEQ of its next result, the ready unretired results by SEQ counted without limit, and
its close list (R186): the boundaries pushed, oldest first, how many have been pushed before these, the last one pushed,
and whether CLOSE_END is closing every remaining one. -/
structure LaneRec where
  lost : Bool := false
  head : Nat := 0
  next : Nat := 0
  ring : SMap RingSlot := []
  closes : List Nat := []
  dropped : Nat := 0
  lastClose : Option Nat := none
  ending : Bool := false
  deriving DecidableEq, Repr

/-- What a point or a register record left for the Balance Engine and for the quality of its interval: time on the
module's axis, increment, quality, whether it had a rate, its density. -/
structure PointEvent where
  t : Nat
  q : Int
  qual : Nat
  has : Bool
  rho : F64
  deriving DecidableEq, Repr

/-- The Flow Computing Array beyond its registers (spec/09_flow_computing_array.md): the live descriptors by channel, the newest
last, and those of the re-derivation table, the newest first with the one that it replaces until its commit; the state of the channels of
both tables. -/
structure Fca where
  live : SMap (List DescEntry) := []
  redo : SMap (List DescEntry) := []
  /-- Parameter blocks by index, the fixed ones, and the staged slots of blocks that are not fixed. -/
  blocks : SMap (List (Nat × Nat)) := []
  fixed : List Nat := []
  chans : SMap ChanState := []
  redoChans : SMap ChanState := []
  /-- The lanes to which descriptors have moved from their home (R165), by channel + EFF × 2^20. -/
  moved : SMap Nat := []
  lanes : SMap LaneRec := []
  /-- The RSN whose commit ends the running descriptor command (R166). -/
  waitRsn : Option Nat := none
  /-- Flow points since reset. -/
  points : Nat := 0
  /-- Point events by channel, newest first. -/
  events : SMap (List PointEvent) := []
  deriving DecidableEq, Repr

/-- Billing (spec/11_billing_tariffs_credit.md). -/
structure Billing where
  chans : SMap BillChan := []
  programs : SMap Program := []
  accounts : SMap Account := []
  /-- Units that wait for a pinned boundary at or before their time (R215, R216): channel, time, units, quality, late. -/
  held : List (Nat × Nat × Nat × Nat) := []
  /-- Units of field cross-check figures held by a hub: channel × 2^32 + interval number (R187). -/
  xcheck : SMap Nat := []
  /-- The local minute up to which boundaries are compiled (R214), as a TAI second. -/
  compiledTo : Int := 0
  /-- The local time up to which civil time has been lived through when a step set it back (R218). -/
  livedTo : Int := 0
  /-- Interval records of FCA channels that the headroom could not take yet, oldest first: channel, quality, flags, interval number and
  units (R47). -/
  heldIvs : List (Nat × Nat × Nat × Nat × Nat) := []
  /-- PERIOD records that wait for the commit of their boundary record, by its RSN (R216). -/
  periodsDue : List (Nat × List (List Byte)) := []
  deriving DecidableEq, Repr

/-- A member of a zone (R190). -/
structure Member where
  ch : Nat
  inflow : Bool
  group : Nat
  uRel : F64
  uFloor : F64
  deriving DecidableEq, Repr

/-- An edge of a zone as the localisation needs it (R204). -/
structure ZoneEdge where
  idx : Nat
  slot : Nat
  volume : F64
  prior : F64
  deriving DecidableEq, Repr

/-- A zone as a graph commit defines it, with its named intermediates (R195): members in ascending channel ID, the
channels of the valid density slots, the slot volumes, the insulation sums, the edges, CFG, and the correlation
coefficients in force. -/
structure ZoneDef where
  cfg : Nat
  members : List Member
  slots : SMap Nat
  volumes : SMap F64
  losses : List F64
  edges : List ZoneEdge
  corr : SMap F64
  deriving DecidableEq, Repr

/-- The learned and detector values of a zone, and its alarms (R198 to R202). -/
structure ZoneRun where
  sp : F64 := 0
  sn : F64 := 0
  e : Option F64 := none
  base : F64 := 0
  means : SMap F64 := []
  /-- Active alarms KSIG, CUSUM, EWMA, and for each the counting windows without a firing. -/
  active : List Bool := [false, false, false]
  quiet : List Nat := [0, 0, 0]
  warmLeft : Nat := 0
  first : Bool := true
  deriving DecidableEq, Repr

/-- A window that has ended and waits for its evaluation: start, end, number, and the parameter slots ambient
temperatures and zone definition of its start (R192, R194). -/
structure Window where
  start : Nat
  stop : Nat
  num : Nat
  params : SMap Nat
  ambients : List F64
  defn : ZoneDef
  deriving DecidableEq, Repr

/-- A zone in force (R191, R193): its definition and parameter slots, the start and number of its open window, the
windows that wait for their evaluation, the end of the last evaluated window, its state, its last window record, and the
records with the states that went with them as (RSN, state, end of the window, record), newest first, back to a committed one (R203);
without the state where the zone has restarted since. -/
structure Zone where
  gen : Nat
  defn : ZoneDef
  params : SMap Nat
  ambients : List F64
  start : Nat
  wnum : Nat
  ended : List Window := []
  evaluated : Nat := 0
  run : ZoneRun := {}
  record : List Byte := []
  lastNum : Nat := 0
  saves : List (Nat × Option ZoneRun × Nat × List Byte) := []
  /-- The states after the last windows that a STANDBY twin has evaluated, by their end, newest first (R207). -/
  silent : List (Nat × ZoneRun) := []
  /-- The sweep time from which it has had its members. -/
  since : Nat := 0
  deriving DecidableEq, Repr

/-- A graph that waits for its zones to change over (R191): whether one has, the zones that have still to open or to
change over, and the zones that it removes. -/
structure PendingGraph where
  gen : Nat
  eff : Nat
  begun : Bool := false
  zones : SMap ZoneDef
  drops : List Nat
  deriving DecidableEq, Repr

/-- The Balance Engine (spec/10_balance_engine.md). -/
structure Balance where
  gen : Nat := 0
  zones : SMap Zone := []
  pending : Option PendingGraph := none
  /-- Graphs before the pending one that some zones have taken and others have still to take, the oldest first (R191). -/
  begun : List PendingGraph := []
  /-- Zones that were changed, removed or restarted with windows still to evaluate, oldest first. -/
  retired : List (Nat × Zone) := []
  /-- Spans whose windows zones that are no more have evaluated, with their members (R194). -/
  past : List (Nat × Nat × List Nat) := []
  /-- Parameter slots as committed: zone × 32 + slot (R192); unlisted ones hold their default. -/
  slots : SMap Nat := []
  /-- Class coefficients U, ambient temperatures and correlation coefficients as committed. -/
  insulation : SMap F64 := []
  ambient : SMap F64 := []
  corr : SMap F64 := []
  /-- The alarm ring (R206). -/
  alarms : SMap (List Byte) := []
  deriving DecidableEq, Repr

/-- A leaf module as its hub holds it (R29, R280): the cycle offset D and whether it is unverified, and the leaf's
period record. -/
structure Leaf where
  offset : Int := 0
  known : Bool := false
  unver : Bool := true
  record : List PeriodRun := []
  /-- A GAP entry of the leaf came since D was evaluated, and the hub's cycle at that evaluation (R280). -/
  gap : Bool := false
  evalAt : Nat := 0
  /-- The RSN that the hub has accepted for the leaf (R279). -/
  acked : Nat := 0
  deriving DecidableEq, Repr

/-- The working state of the DRAM as the records up to a commit leave it (R233, R256, R257): the descriptor and channel tables, billing and
credit, the zones, the Slalom calendar, the node records, the packets not yet evaluated, and the register words. -/
structure Working where
  fca : Fca := {}
  billing : Billing := {}
  balance : Balance := {}
  calendar : SMap Obligation := []
  nodes : SMap Node := []
  packets : List (Nat × List Nat) := []
  regs : SMap Word := []
  /-- The zone-rule schedule and ZVALID. -/
  zones : List ZoneRule := []
  zvalid : Nat := 0
  /-- The leaves of a hub, and the highest epochs of leaf pairs (R273, R279, R280). -/
  leaves : SMap Leaf := []
  epochs : SMap Nat := []
  deriving DecidableEq, Repr

/-- A commit group under way (R239). -/
structure CommitGroup where
  csn : Nat
  first : Nat
  last : Nat
  closedAt : Nat
  /-- COMMIT page flags: bit 0 SHUTDOWN, bit 1 CKPT, bit 2 RESUMED. -/
  flags : Nat := 0
  /-- Page entries: page key (partition and LPN) and PPA. -/
  pages : List (Nat × Nat) := []
  rels : List (Nat × Nat) := []
  erases : List Nat := []
  voids : List (Nat × Nat) := []
  /-- What the mapped pages hold. -/
  infos : SMap PageInfo := []
  /-- The stripes that have not reported yet, by superblock times 256 plus stripe, the last one last: it is issued when it
  is the only one left. -/
  stripes : List Nat := []
  /-- Charged RSNs that the group releases. -/
  charged : List Nat := []
  /-- Period segments that the group commits: first cycle, count, flags, start capture. -/
  segs : List (Nat × Nat × Nat × Nat) := []
  /-- The first record of a STANDBY's own that it does not hold (R258). -/
  sideEnd : Nat := 2 ^ 63
  /-- The working state at its close (R257). -/
  work : Working := {}
  deriving DecidableEq, Repr

/-- A superblock (Table 12.1). An unlisted one is erased, of full width, with no erase counted in service. -/
structure Superblock where
  dies : List Nat := [0, 1, 2, 3, 4, 5, 6, 7]
  /-- The next stripe to program. -/
  next : Nat := 0
  /-- 0 free, 1 open, 2 closed, 3 listed for erase, 4 dissolved (R251). -/
  phase : Nat := 0
  erases : Nat := 0
  /-- It belongs to the garbage-collection stream. -/
  gc : Bool := false
  deriving DecidableEq, Repr

/-- A NAND die: STATE of Table 12.9, factory bad blocks, blocks retired in service. -/
structure Die where
  state : Nat := 0
  factBad : Nat := 0
  retired : Nat := 0
  deriving DecidableEq, Repr

/-- What the commits before a group had left (R239, R257): the group's CSN and first RSN and whether it carries SHUTDOWN; the map, its pages,
the superblocks, the committed register words and the working state before it. -/
structure StoreUndo where
  csn : Nat
  first : Nat
  shutdown : Bool
  map : SMap Nat
  pages : SMap PageInfo
  sbs : SMap Superblock
  cfg : SMap Word
  cfgLost : List Nat
  work : Working
  deriving DecidableEq, Repr

/-- The ledger store beyond its registers (spec/12_ledger_store.md). Page keys are the partition times 2^22 plus the
LPN; PPAs are those of Table 12.5. -/
structure Ledger where
  recs : SMap LedgerRecord := []
  /-- The divergent records of a twin that rejoined under Pairs 1, for the host to read (R332). -/
  divergent : SMap LedgerRecord := []
  nextRsn : Nat := 1
  nextCsn : Nat := 1
  /-- The first RSN that no closed group holds, and the cycle in which the open group's oldest record was appended. -/
  openFirst : Nat := 1
  openSince : Nat := 0
  groups : List CommitGroup := []
  /-- Period segments closed and not yet in a group: first cycle, count, flags, start capture. -/
  segments : List (Nat × Nat × Nat × Nat) := []
  /-- Period segments of leaves not yet in a group: leaf and page (R280). -/
  leafSegs : List (Nat × List Byte) := []
  map : SMap Nat := []
  pages : SMap PageInfo := []
  /-- The next LPN of the raw ring, the log area and the system partition. -/
  ringHead : Nat := 0
  logHead : Nat := 0
  sysHead : Nat := 0
  sbs : SMap Superblock := []
  sbTotal : Nat := 2048
  dies : SMap Die := []
  /-- The raw ring's size in pages (R238). -/
  ringPages : Nat := 1835008
  /-- Garbage collection: the victim, the copies programmed and not yet committed, superblocks whose commit lists
  them for erase, superblocks queued for refresh or relocation. -/
  victim : Option Nat := none
  copies : List (Nat × Nat) := []
  eraseQueue : List Nat := []
  refresh : List Nat := []
  /-- Blocks to retire once their superblock is relocated: superblock and die (R251); the superblocks that REBUILD has
  still to relocate (R253). -/
  retire : List (Nat × Nat) := []
  rebuild : List Nat := []
  /-- State checkpoint: CSN in force, whether one is being written, and the cycle of the last one. -/
  ckptCsn : Nat := 0
  ckptOpen : Bool := false
  ckptAt : Nat := 0
  /-- The next COMMIT page carries RESUMED (R246). -/
  resumed : Bool := false
  /-- The RSN up to which the hub has acknowledged forwarded packets (R243). -/
  hubAck : Nat := 0
  /-- The register words that committed CONFIG records hold, and the registers whose later record is void (R367). -/
  cfg : SMap Word := []
  cfgLost : List Nat := []
  /-- Sweep time at which the state checkpoint in force was begun. -/
  ckptTime : Nat := 0
  /-- The store was formatted or mounted: it holds a valid superblock table. -/
  formatted : Bool := false
  /-- Sweep time and time on the reference at which the Groomer's pass began, and whether it has been counted late (R255). -/
  passStart : Nat := 0
  passUp : Nat := 0
  passLate : Bool := false
  /-- The stripes that the Groomer's pass has read, rising (R255). -/
  groomed : List Nat := []
  /-- A stripe of the oldest group that failed to program waits for a free superblock (R251). -/
  stalled : Bool := false
  /-- The state-checkpoint area that the next checkpoint writes (R256). -/
  ckptArea : Nat := 0
  /-- What the commits since the checkpoint in force replaced, newest first, and the working state of the last one (R257). -/
  undo : List StoreUndo := []
  kept : Working := {}
  /-- The records that a STANDBY twin makes itself, which take no ACTIVE RSN (R258): by numbers from 2^63 on; the next number, the first
  that no closed group holds, and the first that is not committed. -/
  side : SMap LedgerRecord := []
  sideNext : Nat := 2 ^ 63
  sideOpen : Nat := 2 ^ 63
  sideDone : Nat := 2 ^ 63
  deriving DecidableEq, Repr

/-- An entry of the tamper log (Table 11.6), its sweep time once it has one, and whether it was written without mains. -/
structure TamperEntry where
  source : Nat
  bits : Nat
  vigil : Nat
  hours : Nat
  cycles : Nat
  time : Option Nat
  /-- It has been raised and written to the ledger (R230, R232). -/
  logged : Bool := false
  deriving DecidableEq, Repr

/-- An image slot (Staging and verification): its role, 0 free, 1 ACTIVE, 2 TRIAL, 3 ROLLBACK, 4 STAGE, and its cartridge. -/
structure ImageSlot where
  role : Nat := 0
  cart : List Byte := []
  deriving DecidableEq, Repr

/-- A handover under way (R397): the cycle in which it began, whether it goes back to ACTIVE (R400), the slot whose image is
to take control, the switch cycle W once READY has come, and the RSN of the handover record once it is appended. -/
structure Handover where
  since : Nat
  back : Bool := false
  slot : Nat
  w : Option Nat := none
  rsn : Option Nat := none
  was : Nat := 3
  deriving DecidableEq, Repr

/-- Field update (spec/21_field_update.md): the image slots and node cartridges; where the present stage stands: an image slot
plus 4 times the node entry that NC_SEL named; whether a card file is being downloaded and the octets so far; the handover; the cycle W of the
trial; a confirmation record that waits for its commit; whether the cycle was unhealthy; the files of the card as name and content. -/
structure Update where
  images : SMap ImageSlot := [(0, { role := 1 })]
  nodes : SMap (List Byte) := []
  target : Option Nat := none
  fromCard : Bool := false
  data : List Byte := []
  hover : Option Handover := none
  trial : Option Nat := none
  confirm : Option Nat := none
  unhealthy : Bool := false
  files : List (List Byte × List Byte) := []
  deriving DecidableEq, Repr

/-- Start-up and resets (spec/18_startup.md): the steps of Table 18.1 that have ended, a reset that is requested as kind, source
and the cycle in which it falls due, the reset that the shutdown commit under way leads to, and whether the module
is held in VIGIL, in the CRIT hold or for good. -/
structure Boot where
  done : List Nat := []
  due : Option (Nat × Nat × Nat) := none
  kind : Option (Nat × Nat) := none
  /-- 0 powered, 1 VIGIL, 2 CRIT hold, 3 stopped in its step. -/
  hold : Nat := 0
  /-- The words of RW and RWL fields that mount restores (R367), by register. -/
  restore : SMap Word := []
  /-- The domains that the warning has turned off (R345), and a resume that waits for the next cycle start (R246). -/
  shed : List Nat := []
  resumed : Bool := false
  /-- The first RSN of the last SHUTDOWN commit (R257). -/
  shutFirst : Nat := 0
  /-- Cycle in which step 8 began. -/
  pairAt : Nat := 0
  /-- The test slice that stands in the calendar: its block and its TEST obligation; and the sweep time at which the pass of a block
  began (R378). -/
  slice : Option (Nat × Nat) := none
  passAt : SMap Nat := []
  /-- The SHUTDOWN commit was discarded at this start (R117, R257). -/
  shutLost : Bool := false
  /-- A slice whose signature differed and that is to be repeated: block, slice and cycle (R380). -/
  again : Option (Nat × Nat × Nat) := none
  /-- The uptime from which every measured temperature has stood at the CRIT level (R358). -/
  critSince : Option Nat := none
  /-- Lift queues whose memory failed its test (Table 19.1). -/
  queuesBad : List Nat := []
  deriving DecidableEq, Repr


/-- A peer entry in force (Table 13.10): its W0 word, the hash of its public key (octet 0 most significant), its address and UDP
port, and the event lines that it takes. -/
structure Peer where
  w0 : Nat
  hash : BitVec 512
  addr : List Nat := []
  udp : Nat := 47811
  evt : Nat := 0
  deriving DecidableEq, Repr

/-- A timestamp of the transmit queue (Table 13.8): ID, port, seconds and nanoseconds. -/
structure TxStamp where
  id : Nat
  port : Nat
  sec : Nat
  ns : Nat
  deriving DecidableEq, Repr

/-- An armed trigger (R265): its TAI instant in units of 125 ps, the tick it is pinned to, whether it was past when it was armed. -/
structure Trigger where
  tai : Nat
  pin : Option Nat := none
  late : Bool := false
  deriving DecidableEq, Repr

/-- PTP beyond its registers: the transmit timestamp queue, oldest first (R264), the armed triggers and their firing counts, the last
snapshot of each place of the channel list as the eight words of a close result (R265). -/
structure Ptp where
  tsq : List TxStamp := []
  trigs : SMap Trigger := []
  fired : SMap Nat := []
  snaps : SMap (List Nat) := []
  /-- The run of Announce messages on ETH0 while AUTO runs on ETH1: uptime of its first and of its last one (R261). -/
  backRun : Option (Nat × Nat) := none
  /-- By how much the servo has moved the counter against the reference's own count, and what it has still to slew, in units of
  125 ps (R262). -/
  adj : Int := 0
  slew : Int := 0
  /-- The last Sync: the master's time and the corrected time of its receipt; and the mean path delay once it is measured, in units of
  1/16 ns (R262). -/
  sync : Option (Int × Int) := none
  path : Option Int := none
  deriving DecidableEq, Repr


/-- A packet on its way into a Lift queue: its header word (Table 7.1), the data words its producer has delivered so
far, whether a later header of the host has taken its place (R141), and its producer as SRC numbers it (0 MEDIA, 1 FEED,
2 HOST, R136). -/
structure LiftPacket where
  header : Nat
  words : List Nat := []
  src : Nat := 0
  superseded : Bool := false
  deriving DecidableEq, Repr

/-- A Lift queue (spec/07_lift_queues.md): its 512 words with their tags, the four pointers of 10 bits, the lane that
reads the packet under way, the open packet, the packets that wait with their producer in arrival order, the sweep time
of a flush request that waits, the last host header (for the sample counts of discarded words), and what the consumer
holds of the packet it is reading. -/
structure LiftQueue where
  cells : SMap (Nat × Nat) := []
  w : Nat := 0
  p : Nat := 0
  r : Nat := 0
  k : Nat := 0
  reading : Nat := 0
  opened : Option LiftPacket := none
  waiting : List LiftPacket := []
  flushAt : Option Nat := none
  hostHeader : Option Nat := none
  taken : Option (Nat × List Nat) := none
  deriving DecidableEq, Repr

/-- An accepted packet that its producer has not yet offered (R136): the queue, whether the producer is FEED, and the
packet. -/
structure LiftOffer where
  queue : Nat
  feed : Bool
  packet : LiftPacket
  deriving DecidableEq, Repr

/-- The Lift queues and the accepted packets on their way to them. -/
structure Lift where
  queues : SMap LiftQueue := []
  offers : List LiftOffer := []
  deriving DecidableEq, Repr

/-- Pairs (spec/16_pairs_redundancy.md): consecutive missed and consecutive valid link heartbeats, whether one has come since the
last heartbeat angle, the sweep time of the last valid one once there is one, whether the ACTIVE pilot was seen after it; the
twin's output drives the fence line; what the twin's last heartbeat said: pairing state, flags and epoch; this twin reports its
failure; cycles of healthy hold; TAKEBACK is set in the heartbeats; the takeback under way as cycle H, LASTSW code and whether this
twin takes over; the cycle of the last mirror acknowledgement; mirrored records that wait for headroom; UNPAIR waits for the next
cycle; the RSN up to which the twin holds the records of the stream. -/
structure Pairs where
  missed : Nat := 0
  valid : Nat := 0
  seen : Bool := false
  lastHb : Option Nat := none
  pilot : Bool := false
  twinDrives : Bool := false
  twinEpoch : Nat := 0
  failing : Bool := false
  healthy : Nat := 0
  asking : Bool := false
  takeback : Option (Nat × Nat × Bool) := none
  ackAt : Nat := 0
  waiting : List MirrorItem := []
  unpairing : Bool := false
  /-- REFUSED stands for the present takeover condition (R334). -/
  refused : Bool := false
  /-- Uptime at which this twin asserted the fence, while it does (R127). -/
  fenceAt : Option Nat := none
  /-- A takeback has stopped the media (R339). -/
  stopped : Bool := false
  /-- PAIR was written to a module in service: it serves as SOLO until a HELLO comes (log 43). -/
  seeking : Bool := false
  /-- The sessions that the mirror has brought, by session ID (R272, R273). -/
  kept : SMap Session := []
  /-- The records that were never acknowledged, as the mirror held them back when the twin was fenced or reset: those above the first RSN up
  to the second (R329, R332). -/
  unacked : Option (Nat × Nat) := none
  deriving DecidableEq, Repr

/-- An exchange under way on a lane or loop (R76, R109, R133). -/
structure Exchange where
  node : Nat
  /-- Sweep time at which an air exchange starts (R109). -/
  start : Nat := 0
  /-- Calendar index of the obligation it serves. -/
  obl : Option Nat
  isCmd : Bool
  seq : Nat
  route : List Nat := []
  /-- Mode of each hop, the last one the node's. -/
  modes : List Nat := []
  /-- First and last cycle it occupies, the last one in which the module sends, and the first one in which the
  module expects a frame. -/
  first : Nat
  last : Nat
  txLast : Nat
  rxFirst : Nat := 0
  /-- Work charged, in ticks. -/
  work : Nat
  /-- Records of a CMD: the octets. -/
  records : List Byte := []
  /-- A search poll (R88). -/
  search : Bool := false
  /-- A collapse was recognised in its response (R67). -/
  collapsed : Bool := false
  /-- Firmware records sent in capacity admitted to no one, and the repeats they have had (R113). -/
  spare : Bool := false
  tries : Nat := 0
  /-- Its obligation was cancelled while it ran: its response is counted (R53). -/
  cancelled : Bool := false
  deriving DecidableEq, Repr

/-- A link SNR the module keeps (R84): its two ends (0x2000 is the module), the SNR in 0.25 dB, the cycle of the
report. -/
structure LinkSnr where
  near : Nat
  far : Nat
  snr : Int
  cycle : Nat
  deriving DecidableEq, Repr

/-- A duty bin (R114): its second of uptime, and its charge in ms. -/
structure DutyBin where
  sec : Nat
  ms : Nat
  deriving DecidableEq, Repr

/-- A reading that waits in the cover queue (R45). -/
structure CoverItem where
  cycle : Nat
  /-- Record class it is charged as. -/
  cls : Nat
  node : Nat
  /-- Leaf whose reading it is; 0 for the module's own field. -/
  leaf : Nat
  /-- The octets of the record (Table 4.3), tag first. -/
  octets : List Byte
  /-- Sweep time of arrival. -/
  time : Nat
  /-- What identifies it among the records of its node (R80), and the obligations that carry it. -/
  ident : Nat × Nat × Nat := (0, 0, 0)
  obls : List Nat := []
  /-- Session and SEQ of the FWD record that brought a forwarded reading, and the leaf's RSN (R278). -/
  fwd : Option (Nat × Nat × Nat) := none
  deriving DecidableEq, Repr

/-- The field side: line channel, air channel and field loops (spec/03 to spec/06). -/
structure Field where
  nodes : SMap Node := []
  /-- Exchanges by resource index (Table 2.12). -/
  exch : SMap Exchange := []
  links : List LinkSnr := []
  /-- Modes of the links of repeater hops: near end × 8192 + far end. -/
  hopModes : SMap Nat := []
  /-- By air lane: the cycle of its last beacon, sent or skipped (R108). -/
  beaconAt : SMap Nat := []
  /-- By loop: the cycle in which sensing last found another source (R125). -/
  conflictAt : SMap Nat := []
  /-- Consecutive frames of those links towards the next rung (R70). -/
  hopGood : SMap Nat := []
  /-- Last preamble SNRs or RSSIs by resource, newest first, at most 64. -/
  levels : SMap (List Int) := []
  /-- Node last served by a search window, by lane. -/
  searchAt : SMap Nat := []
  /-- Phases: cycle since which the driver has stayed below 115 °C. -/
  coolSince : SMap Nat := []
  /-- Consecutive pilots seen from the twin (R93). -/
  seenRun : Nat := 0
  /-- Duty bins by EU868 sub-band, or 256 plus US915 channel. -/
  bins : SMap (List DutyBin) := []
  /-- The second of uptime at which the preloaded bins end (R117), while one is in a window. -/
  coldUntil : Option Nat := none
  /-- Selections above LOWMARK. -/
  low : List Nat := []
  /-- Search windows under way on the air lanes: lane, last cycle. -/
  airSearch : SMap Nat := []
  /-- Loops: measurements over TRIP_MA in a row, cycles of trips, start of the low-voltage span, offered challenges. -/
  overMs : SMap Nat := []
  tripAt : SMap (List Nat) := []
  uvSince : SMap Nat := []
  /-- Challenges of the IDENTs under way: loop × 8 + address. -/
  idents : SMap Nat := []
  /-- Cycle of the last IDENT: loop × 8 + address. -/
  identAt : SMap Nat := []
  /-- The cover queue, oldest first (R45). -/
  cover : List CoverItem := []
  /-- Commands that firmware wants to send to a node (ROLE, GKEY, SCHED, BFQ, RDV). -/
  firmware : List FirmwareCmd := []
  /-- The commanded schedules, by node × 16 + channel index (R131). -/
  streams : SMap StreamSched := []
  /-- The end of the switch-over gap on the media, in sweep time (R338). -/
  gapUntil : Nat := 0
  /-- By loop: the uptime at which STATE last changed, and the cycle of the last SYNC (R125, R127, R132). -/
  loopSince : SMap Nat := []
  syncAt : SMap Nat := []
  /-- By line lane: the sweep times at which the frames that the module sends on it start and stop, and those of the cycles in which a
  JCONF is due, of the last 512 cycles (R56, R71, R77). -/
  txSpans : SMap (List (Nat × Nat)) := []
  dueSpans : SMap (List (Nat × Nat)) := []
  /-- By line lane: the last unblanked samples of the receiver, newest first (R65). -/
  blankWin : SMap (List Int) := []
  deriving DecidableEq, Repr


/-- A command for an interlock output (R226): the output, ON or OFF, the ID of the obligation it serves, and whether
the account commanded it. -/
structure DriveCmd where
  output : Nat
  on : Bool
  obl : Option Nat := none
  account : Bool := false
  /-- Its obligation was cancelled: no further pulse follows (R53). -/
  cancelled : Bool := false
  deriving DecidableEq, Repr

/-- An interlock output: the last command, whether its feedback is awaited and since which cycle, whether the second
pulse has been given, and whether the host has commanded it since the last change of account state (R225, R227). -/
structure OutputRec where
  cmd : Option DriveCmd := none
  since : Option Nat := none
  second : Bool := false
  host : Bool := false
  deriving DecidableEq, Repr

/-- The interlock outputs: the running pulse, the commands that wait for it, oldest first (R432), and each output. -/
structure Interlock where
  pulse : Option DriveCmd := none
  /-- The uptime at which the running pulse began (R226). -/
  pulseAt : Nat := 0
  queue : List DriveCmd := []
  outputs : SMap OutputRec := []
  deriving DecidableEq, Repr


/-- The state of the block. -/
structure State where
  /-- The commands that are waiting, first in, first out. -/
  pending : List Instr := []
  /-- Sweep time: cycle count times 65,536 plus angle (R15). -/
  now : Nat := 0
  /-- The registers that do not hold their reset value, by page times 0x1000 plus offset, and banked copies behind a selector above 2^24. -/
  regs : SMap Word := []
  /-- The words latched by reads, for each path (R276): path index times 2^20 plus register. -/
  latch : SMap Word := []
  /-- The BAR2 data window (Table 13.7): octets that are not zero, addresses rising. -/
  mem : List Host.Cell := []
  /-- The SYS error ring of 32 entries (R423). -/
  errRing : SMap ErrEntry := []
  /-- The model's own field: how many free values the run has drawn (log 2). -/
  fresh : Nat := 0
  /-- The model's own field: what the block has sent, newest first (log 7). -/
  out : List Output := []
  /-- Factory values. -/
  fac : Factory := {}
  /-- Event lines that are active (R425). -/
  lineActive : List Nat := []
  /-- MSI-X vectors that the host has masked (R281, R426). -/
  msixMasked : List Nat := []
  /-- MSI-X vectors with their pending bit set (R426). -/
  msixPending : List Nat := []
  /-- Clocks marked FAIL or measured, by clock domain (Table 17.9). -/
  clocks : SMap Nat := []
  /-- Cycle of the last service-port access (R285). -/
  svcLast : Nat := 0
  /-- The pointer of the service port: page times 4,096 plus offset (R284). -/
  svcPtr : Nat := 0
  /-- Domains in which something has happened in this cycle (R348). -/
  touched : List Nat := []
  /-- Cycles each domain has spent in DOZE (R348). -/
  idleRetain : SMap Nat := []
  /-- The sweep timebase. -/
  sweep : Sweep := {}
  /-- Slalom. -/
  slalom : Slalom := {}
  /-- The Logbook. -/
  log : Logbook := {}
  /-- The ledger store and its flash. -/
  led : Ledger := {}
  /-- Keeper NV. -/
  nv : Nv := {}
  /-- The highest RSN whose mirror the twin has acknowledged (R328). -/
  ackedRsn : Nat := 0
  /-- The Merkle batcher. -/
  merk : Merkle := {}
  /-- A life-cycle command that waits for the end of the switch-over gap (R416): path and CMD. -/
  lcWait : Option (Path × Nat) := none
  /-- The cycle by which the restart of an accepted transition follows a failure report (R409). -/
  lcYield : Option Nat := none
  /-- The crypto engines. -/
  crypto : Crypto := {}
  /-- The Flow Computing Array. -/
  fca : Fca := {}
  /-- Billing registers, tariffs and credit. -/
  billing : Billing := {}
  /-- The Balance Engine. -/
  balance : Balance := {}
  /-- Leaf modules by leaf number. -/
  leaves : SMap Leaf := []
  /-- The tamper log in VIGIL memory, by slot (R231). -/
  tamper : SMap TamperEntry := []
  /-- Field update. -/
  upd : Update := {}
  /-- Start-up and resets. -/
  boot : Boot := {}
  /-- The KFP sessions by session ID. -/
  sessions : SMap Session := []
  /-- The next session ID. -/
  nextSess : Nat := 1
  /-- A STALE above the module's own epoch has come: FWD, REG and EVT are stopped (R273). -/
  staleStop : Bool := false
  /-- The highest epoch seen of each leaf pair (R273): by pair identity × 512, plus the peer index where the identity is 0. -/
  epochs : SMap Nat := []
  /-- By hub peer: the first cycle whose period entry it has not acknowledged; by port resource: the last cycle in which the module
  forwarded on it, with the ticks that this took (R277). -/
  fwdDone : SMap Nat := []
  fwdUsed : SMap (Nat × Nat) := []
  /-- The peer entries in force, by peer index (Table 13.10). -/
  peers : SMap Peer := []
  /-- PTP. -/
  ptp : Ptp := {}
  /-- Committed period segments to forward, as first cycle, count, flags and start capture (R277). -/
  segOut : List (Nat × Nat × Nat × Nat) := []
  /-- The Lift queues. -/
  lift : Lift := {}
  /-- Twin operation. -/
  pairs : Pairs := {}
  /-- The field side: nodes, exchanges, duty budgets, loops and the cover queue. -/
  field : Field := {}
  /-- The interlock outputs. -/
  interlock : Interlock := {}
  deriving DecidableEq, Repr

/-- The block right after a POWER reset, before its first start-up step: every field at the value the spec states
for reset, or at the value its log entry names (logs 5, 6). -/
def State.reset : State := { pending := [] }


end Sys2Proof.Machine
end

