-- ==== Sys2Proof/Machine/Ops.lean ====
section
/-!
DEFINITION. The named operations over the register file, the sweep clock, the free values, the outputs and the BAR2
data window.
-/

namespace Sys2Proof.Machine

/-- The next state as an outcome. -/
abbrev Outcome := Host.Outcome State Fault Refusal

/-- The first key of the banked copies of a register behind a selector value (a window register, for example the
peer window of Table 13.10). -/
def bankKey (sel k : Nat) : Nat := k + 0x1000000 * (sel + 1)

/-- The causes of every page and the event line each goes to (Table 23.7): page, first bit, last bit, line. -/
def eventRoutes : List (Nat × Nat × Nat × Nat) :=
  [ (0x00, 0, 2, 0), (0x02, 1, 4, 0), (0x01, 0, 0, 0), (0x02, 0, 0, 1), (0x04, 0, 2, 2), (0x04, 3, 3, 3),
    (0x04, 4, 5, 4), (0x05, 0, 2, 5), (0x05, 3, 5, 6), (0x06, 0, 3, 7), (0x06, 4, 4, 8),
    (0x08, 0, 6, 9), (0x09, 0, 6, 10), (0x0A, 0, 6, 11), (0x0B, 0, 6, 12), (0x0C, 0, 6, 13), (0x0D, 0, 6, 14),
    (0x0E, 0, 2, 15), (0x0F, 8, 14, 15), (0x10, 0, 4, 16), (0x11, 0, 4, 17), (0x13, 0, 4, 16), (0x13, 8, 12, 17),
    (0x12, 0, 3, 18), (0x14, 0, 4, 19), (0x15, 0, 4, 20), (0x16, 0, 4, 21), (0x17, 0, 4, 22) ]
  ++ [ (0x14, 8, 11, 23), (0x15, 8, 11, 23), (0x16, 8, 11, 23), (0x17, 8, 11, 23),
    (0x18, 0, 31, 24), (0x19, 0, 31, 25), (0x1A, 0, 31, 26), (0x1B, 0, 31, 27),
    (0x1C, 0, 2, 28), (0x1C, 3, 3, 29) ]
  ++ (List.range 16).map (fun i => (0x20 + i, 0, 2, 28)) ++ (List.range 16).map (fun i => (0x20 + i, 3, 4, 29))
  ++ [ (0x30, 0, 1, 30), (0x31, 0, 0, 30), (0x30, 2, 4, 31), (0x32, 0, 1, 32), (0x33, 0, 0, 32), (0x32, 2, 4, 33),
    (0x34, 0, 0, 34), (0x34, 1, 3, 35), (0x35, 0, 0, 36), (0x38, 0, 3, 37), (0x38, 8, 11, 38), (0x39, 0, 5, 39),
    (0x3A, 0, 3, 40), (0x40, 0, 5, 41), (0x41, 0, 0, 42), (0x42, 0, 0, 42), (0x41, 1, 2, 43), (0x42, 1, 2, 43),
    (0x43, 0, 0, 44), (0x44, 0, 0, 45), (0x44, 1, 2, 46), (0x45, 0, 1, 47), (0x48, 0, 1, 48), (0x48, 2, 3, 49) ]
  ++ [ (0x49, 0, 2, 50), (0x4A, 0, 1, 51), (0x55, 0, 0, 51), (0x4A, 2, 4, 52), (0x55, 1, 1, 52), (0x4C, 0, 1, 53),
    (0x4C, 2, 4, 54), (0x4C, 5, 7, 55), (0x50, 0, 1, 56), (0x51, 0, 1, 57), (0x52, 0, 4, 58), (0x53, 0, 2, 59),
    (0x54, 0, 2, 60), (0x02, 5, 5, 61), (0x58, 0, 2, 62), (0x53, 3, 3, 63) ]

/-- The mask of a page's causes that go to a line. -/
def routeMask (page line : Nat) : Nat :=
  eventRoutes.foldl (fun m r => if r.1 = page ∧ r.2.2.2 = line then m ||| ((2 ^ (r.2.2.1 + 1) - 1) - (2 ^ r.2.1 - 1)) else m) 0

/-- The mask of the causes a page has. -/
def causeMask (page : Nat) : Nat :=
  eventRoutes.foldl (fun m r => if r.1 = page then m ||| ((2 ^ (r.2.2.1 + 1) - 1) - (2 ^ r.2.1 - 1)) else m) 0

/-- The lines a page's causes go to. -/
def pageLines (page : Nat) : List Nat :=
  ((eventRoutes.filter (fun r => r.1 = page)).map (fun r => r.2.2.2)).eraseDups

/-- LO and W of an instrument at reset (Table 20.1). -/
def instrumentReset (i : Nat) : Int × Nat :=
  if i ≤ 0x05 then (-40, 4) else if i ≤ 0x07 then (-520, 12) else if i ≤ 0x0B then (9000, 200)
  else if i ≤ 0x10 then (0, 8) else if i = 0x11 then (-300, 20) else if i ≤ 0x14 then (-40, 5)
  else if i = 0x15 then (0, 80) else if i = 0x16 then (0, 2)
  else if 0x18 ≤ i ∧ i ≤ 0x37 then (0, 17) else if 0x38 ≤ i ∧ i ≤ 0x3D then (0, 9)
  else if 0x40 ≤ i ∧ i ≤ 0x45 then (-450, 30) else if 0x50 ≤ i ∧ i ≤ 0x5F then (0, 128)
  else if i = 0x60 then (0, 100) else if i = 0x61 then (0, 2) else (0, 1)

/-- The reset value of a register (Tables 23.3, 23.4 and the page tables; R424 for the enables; Table 2.3 for
RES_RETRY; Table 5.9 for CHAN of AIR1; Table 20.1 for I_LO and I_W; Table 17.4 for REF_IDn). -/
def regReset (k : Nat) : Nat :=
  have bank := k / 0x1000000
  have base := k % 0x1000000
  have page := base / 0x1000
  have off := base % 0x1000
  if off < 0x040 then
    if off = 0x008 then 0x0100
    else if off = 0x00C then 1
    else if off = 0x018 then routeMask page 0 ||| routeMask page 1
    else 0
  else if base = Reg.SLALOM_RES_RETRY then
    have sel := bank - 1
    if sel ≤ 0x05 then 0x40 else if sel = 0x08 ∨ sel = 0x09 then 0x33
    else if 0x0C ≤ sel ∧ sel ≤ 0x0F then 0x1A else 0
  else if base = Reg.AIR_CHAN 1 then 15
  else if base = Reg.LOGB_I_LO ∧ 0 < bank then ofSigned 32 (instrumentReset (bank - 1)).1
  else if base = Reg.LOGB_I_W ∧ 0 < bank then (instrumentReset (bank - 1)).2
  else if base = Reg.SYS_LANE_EN then 0xF33F
  else if page = 0x02 ∧ 0x100 ≤ off ∧ off < 0x200 ∧ off % 8 = 0 then refIdReset.getD ((off - 0x100) / 8) 0
  else match findSpec page off with
    | some r => r.reset
    | none => 0

/-- A register's word as a number. -/
def State.reg (s : State) (k : Nat) : Nat :=
  match s.regs.find k with
  | some w => w.toNat
  | none => regReset k

/-- The register file with a word at a key: a word equal to the reset value is not listed. -/
def regsPut (m : SMap Word) (k v : Nat) : SMap Word :=
  if v % 2 ^ 32 = regReset k then m.del k else m.put k (BitVec.ofNat 32 v)

/-- The state with a register's word set. -/
def State.setReg (s : State) (k v : Nat) : State := { s with regs := regsPut s.regs k v }

/-- Field hi:lo of a register. -/
def State.fld (s : State) (k hi lo : Nat) : Nat := bits hi lo (s.reg k)

/-- Bit i of a register. -/
def State.flag (s : State) (k i : Nat) : Bool := bit i (s.reg k)

/-- The state with field hi:lo of a register set. -/
def State.setFld (s : State) (k hi lo v : Nat) : State := s.setReg k (setBits hi lo v (s.reg k))

/-- The state with bit i of a register set to a value. -/
def State.setFlag (s : State) (k i : Nat) (b : Bool) : State := s.setFld k i i (b2n b)

/-- The state with a saturating 32-bit counter raised. -/
def State.bump (s : State) (k : Nat) (n : Nat := 1) : State := s.setReg k (satAdd 32 (s.reg k) n)

/-- The state with a 64-bit value in a pair of registers, low word first. -/
def State.setReg64 (s : State) (klo khi v : Nat) : State := (s.setReg klo (v % 2 ^ 32)).setReg khi (v / 2 ^ 32)

/-- The 64-bit value of a pair of registers, low word first. -/
def State.reg64 (s : State) (klo khi : Nat) : Nat := s.reg klo + 2 ^ 32 * s.reg khi

/-- The cycle count and the angle of the sweep time. -/
def State.cycle (s : State) : Nat := s.now / 65536
def State.angle (s : State) : Nat := s.now % 65536

/-- LOCKSTAT.STATE (Table 1.2). -/
def State.timebase (s : State) : Nat := s.fld Reg.SWEEP_LOCKSTAT 2 0

/-- The command takes effect at angle `t` of the current cycle: sweep time moves forward to it, never back (R15).
Before the first accepted crossing the sweep stands (Table 1.2, UNLOCKED). -/
def State.tick (s : State) (t : Angle) : State :=
  if s.timebase = 0 then s else { s with now := max s.now (s.cycle * 65536 + t.toNat) }

/-- A free value (log 2) and the state after drawing it. -/
def State.draw (s : State) : Nat × State := (Config.free s.fresh, { s with fresh := s.fresh + 1 })

/-- A free bit and the state after drawing it. -/
def State.drawBit (s : State) : Bool × State := (Config.free s.fresh % 2 == 1, { s with fresh := s.fresh + 1 })

/-- The state after sending something. -/
def State.send (s : State) (o : Output) : State := { s with out := o :: s.out }

/-- The index of a path among the latches of R276. -/
def pathIdx : Path → Nat
  | .pcie => 0
  | .svc => 1
  | .kfp p sess => 2 + (p.toNat + 512 * sess)

/-- The word a path has latched for a register (R276). -/
def State.latched (s : State) (p : Path) (k : Nat) : Nat :=
  match s.latch.find (pathIdx p * 2 ^ 20 + k) with
  | some w => w.toNat
  | none => 0

/-- The state after a path latches a word for a register. -/
def State.latchAt (s : State) (p : Path) (k v : Nat) : State :=
  { s with latch := s.latch.put (pathIdx p * 2 ^ 20 + k) (BitVec.ofNat 32 v) }

/-- The octet at an address of the BAR2 window: an octet that nothing has written reads 0 (log 8). -/
def memByte : List Host.Cell → Nat → Byte
  | [], _ => 0
  | (a, b) :: m, i => if i = a then b else if i < a then 0 else memByte m i

/-- The window with an octet written: an octet of 0 is not listed. -/
def memSet : List Host.Cell → Nat → Byte → List Host.Cell
  | [], i, v => if v = 0 then [] else [(i, v)]
  | (a, b) :: m, i, v =>
    if i < a then (if v = 0 then (a, b) :: m else (i, v) :: (a, b) :: m)
    else if i = a then (if v = 0 then m else (i, v) :: m)
    else (a, b) :: memSet m i v

/-- The canonical form of the window: addresses strictly rising, every one inside BAR2 and below the reserved half
(Table 13.7), and no octet of 0. -/
def memWf : List Host.Cell → Bool
  | [] => true
  | (a, b) :: m =>
    decide (a < 0x2000000) && decide (b ≠ 0) &&
      (match m with | [] => true | (a', _) :: _ => decide (a < a')) && memWf m

/-- Whether octets can be written at an address: the last 32 MiB are reserved (Table 13.7). -/
def State.store8 (s : State) (a : Nat) (b : Byte) : State :=
  if a < 0x2000000 then { s with mem := memSet s.mem a b } else s

/-- The octets from an address on; outside the 64 MiB of BAR2, and in its reserved half, they read zero. -/
def State.load (s : State) (a n : Nat) : List Byte :=
  (List.range n).map (fun i => if a + i < 0x2000000 then memByte s.mem (a + i) else 0)

/-- The state with octets written from an address on. -/
def State.store (s : State) (a : Nat) : List Byte → State
  | [] => s
  | b :: bs => (s.store8 a b).store (a + 1) bs

/-- A 32-bit little-endian word of the window. -/
def State.load32 (s : State) (a : Nat) : Nat := ofLe (s.load a 4)

end Sys2Proof.Machine
end

