-- ==== Sys2Proof/Machine/Ether.lean ====
section
/-!
DEFINITION. The addresses of an Ethernet port, its tag, and the way of a datagram (R259, R260): RFC 791, RFC 4291 and IEEE 802.1Q by name
(PRESUMED, log 103).
-/

namespace Sys2Proof.Machine

/-- The MAC address of a port, and its IPv4 and IPv6 address (Table 13.9). -/
def State.ethMac (s : State) (i : Nat) : Nat := (if i = 0 then s.fac.mac0 else s.fac.mac1).toNat
def State.ip4 (s : State) (i : Nat) : Nat := s.reg (Reg.ETH_IP4 i)
def words128 (f : Nat → Nat) : Nat := ((f 0 * 2 ^ 32 + f 1) * 2 ^ 32 + f 2) * 2 ^ 32 + f 3
def State.ip6 (s : State) (i : Nat) : Nat := words128 (fun k => s.reg (Reg.ETH_IP6_0 i + 4 * k))

/-- The link-local address of a MAC address. -/
def linkLocal (mac : Nat) : Nat :=
  0xFE80 * 2 ^ 112 + ((mac / 2 ^ 24 ^^^ 0x020000) * 2 ^ 40 + 0xFFFE * 2 ^ 24 + mac % 2 ^ 24)

/-- An IPv6 address is the port's own: the one the host has written, or the link-local one (R259). -/
def State.ownIp6 (s : State) (i a : Nat) : Bool := (s.ip6 i != 0 && a == s.ip6 i) || a == linkLocal (s.ethMac i)

/-- The tag with which a port sends: PCP and VID (Table 13.9). -/
def State.ethTag (s : State) (i : Nat) : Option Nat :=
  if s.flag (Reg.ETH_CFG i) 15 then some (s.fld (Reg.ETH_CFG i) 14 12 * 2 ^ 13 + s.fld (Reg.ETH_CFG i) 27 16) else none

/-- The IPv4 address that an address of a peer maps (Table 13.10). -/
def mapped4 (a : Nat) : Option Nat := if a / 2 ^ 32 = 0xFFFF then some (a % 2 ^ 32) else none

/-- The neighbour to which a port sends a datagram for an address: the address itself on its own network, else the gateway. -/
def State.nextHop (s : State) (i a : Nat) : Nat :=
  match mapped4 a with
  | some d =>
    have mask := s.reg (Reg.ETH_IP4_MASK i)
    if d &&& mask = s.ip4 i &&& mask then a else 0xFFFF * 2 ^ 32 + s.reg (Reg.ETH_IP4_GW i)
  | none =>
    have rest := 128 - min 128 (s.fld (Reg.ETH_IP6_PFX i) 7 0)
    if a / 2 ^ 118 = 0x3FA ∨ a / 2 ^ rest = s.ip6 i / 2 ^ rest then a else words128 (fun k => s.reg (Reg.ETH_IP6_GW0 i + 4 * k))

/-- The address from which a port sends to an address. -/
def State.ipSource (s : State) (i a : Nat) : Nat :=
  if (mapped4 a).isSome then 0xFFFF * 2 ^ 32 + s.ip4 i
  else if a / 2 ^ 118 = 0x3FA ∨ s.ip6 i = 0 then linkLocal (s.ethMac i) else s.ip6 i

/-- The port on which a peer's records leave (R260): its preferred one, or the other while that has no link. -/
def State.kfpPort (s : State) (peer : Nat) : Nat :=
  have p := ((s.peers.find peer).map (fun (x : Peer) => bits 16 16 x.w0)).getD 0
  if s.flag (Reg.ETH_STAT p) 31 then p else 1 - p

/-- The way of a datagram to a peer on a port (R259, Table 13.10); a datagram for no entry goes back to where the handshake came from. -/
def State.ipRoute (s : State) (peer i : Nat) : Option IpRoute :=
  (s.peers.find peer).map (fun (x : Peer) =>
    have dest := words128 (fun k => x.addr.getD k 0)
    { source := s.ipSource i dest
      hop := s.nextHop i dest
      dest := dest
      fromPort := s.fld Reg.FEED_UDP_PORT 15 0
      toPort := x.udp % 65536 })

/-- A datagram to a peer leaves (R260); none to an IPv4 address from a port whose IPv4 is disabled (Table 13.9). -/
def State.sendDatagram (s : State) (peer : Nat) (octets : List Byte) : State :=
  have i := s.kfpPort peer
  match s.ipRoute peer i with
  | some r => if (mapped4 r.dest).isSome ∧ s.ip4 i = 0 then s else s.send (.datagram peer i (s.ethTag i) (some r) octets)
  | none => s.send (.datagram peer i (s.ethTag i) none octets)

end Sys2Proof.Machine
end

