-- ==== Sys2Proof/Machine/Events.lean ====
section
/-!
DEFINITION. Causes, event lines and what the host receives of them (R424 to R427), the capture of refused accesses
(R423), and the sending of KFP records that the EVT push shares with the feeder link.
-/

namespace Sys2Proof.Machine

/-- Time on the 25 MHz reference since reset, in units of 125 ps (R12). -/
def State.uptime (s : State) : Nat := s.sweep.uptime + s.angle * s.sweep.period / 65536

/-- EV_RAW and the enables of a page (Table 23.2). -/
abbrev evRaw (page : Nat) : Nat := page * 0x1000 + 0x014
abbrev evEn (page : Nat) : Nat := page * 0x1000 + 0x018

/-- The PTP counter where the reference has counted `raw`: what the servo has moved it by is added (R262). -/
def State.ptpTime (s : State) (raw : Nat) : Nat := ((raw : Int) + s.ptp.adj).toNat

/-- The causes of a page that are set and enabled: EV_PEND (R424). -/
def State.pend (s : State) (page : Nat) : Nat := s.reg (evRaw page) &&& s.reg (evEn page)

/-- The defined page indices (Table 23.1). -/
def definedPages : List Nat := (List.range 0x59).filter (fun p => (pageKind p).isSome)

/-- The pages with a cause on a line that is set and enabled. -/
def State.linePages (s : State) (n : Nat) : List Nat :=
  ((eventRoutes.filter (fun r => r.2.2.2 = n)).map (·.1)).eraseDups.filter
    (fun p => s.pend p &&& routeMask p n ≠ 0)

/-- Event line n is active (R425). -/
def State.lineOn (s : State) (n : Nat) : Bool := !(s.linePages n).isEmpty

/-- The lines of the 64 that are active, as a word pair (EVT.LINE_LO and LINE_HI). -/
def State.lineWord (s : State) : Nat := s.lineActive.foldl (fun m n => m ||| 2 ^ n) 0

/-- The doorbell pin: active while a line of EVT.DB_MASK is active (R426, R283). -/
def State.doorbell (s : State) : Bool :=
  s.lineWord &&& s.reg64 Reg.EVT_DB_MASK_LO Reg.EVT_DB_MASK_HI ≠ 0

/-- The MSI-X message of a line: counted and sent, or left pending while the vector is masked (R426). -/
def State.msiFor (s : State) (n : Nat) : State :=
  if s.msixMasked.contains n then
    { s with msixPending := if s.msixPending.contains n then s.msixPending else n :: s.msixPending }
  else (s.bump (bankKey n Reg.EVT_MSG_CNT)).send (.msix n)

/-- A line's own state and its message after its causes changed. -/
def State.showLine (s : State) (n : Nat) : State :=
  have was := s.lineActive.contains n
  have now := s.lineOn n
  if now && !was then { s with lineActive := n :: s.lineActive }.msiFor n
  else if !now && was then { s with lineActive := s.lineActive.filter (· ≠ n) }
  else s

/-- The doorbell pin after the lines changed. -/
def State.updateDoorbell (s0 s : State) : State :=
  if s.doorbell = s0.doorbell then s else s.send (.doorbell s.doorbell)

/-- A cause of Keeper's page is set while a record is sent (R300, R302): its line 41 is none of the 32 that EVT pushes name (log 9). -/
def State.raiseKeep (s : State) (i : Nat) : State :=
  s.updateDoorbell ((s.setReg (evRaw 0x40) (s.reg (evRaw 0x40) ||| 2 ^ i)).showLine 41)

/-- What drawing the next counter of a key comes to (R300, R302): a value, a wait for the reservation of its block, or a
key that has reached its last value. -/
inductive Draw where
  | value (n : Nat)
  | wait
  | stop
  deriving DecidableEq, Repr

/-- The pairing state and the synchronisation state (Table 16.7). -/
def State.pairState (s : State) : Nat := s.fld Reg.PAIRS_STAT 31 29
def State.syncState (s : State) : Nat := s.fld Reg.PAIRS_STAT 28 27

/-- The blocks of a key whose values may be sent (R300): those that Keeper NV holds; of these, on an ACTIVE twin, those that its twin
has acknowledged, and in DEGRADED at most 255 above them. -/
def State.openBlocks (s : State) (k : TxKey) : Nat :=
  if s.pairState ≠ 1 then k.blocks else min k.blocks (if s.syncState = 3 then k.acked + 255 else k.acked)

/-- The next counter of a key, up to the key's last value; the next block is reserved when 3,072 values of the current
one have been drawn (R300). `opened` is the number of blocks that may be drawn from. -/
def drawKey (k : TxKey) (opened last : Nat) : Draw × TxKey :=
  if last < k.next then (.stop, k)
  else if k.next / 4096 < opened then
    (.value k.next, { k with next := k.next + 1, asked := k.asked || (k.next % 4096 == 3071 && k.blocks == k.next / 4096 + 1) })
  else (.wait, { k with asked := true })

/-- A key's transmit counter, and the state with it set. -/
def State.txKey (s : State) (key : Nat) : TxKey := s.nv.txKeys.getD key {}
def State.setTxKey (s : State) (key : Nat) (k : TxKey) : State :=
  { s with nv := { s.nv with txKeys := s.nv.txKeys.put key k } }

/-- The transmit key of a KFP session. -/
abbrev sessKey (sid : Nat) : Nat := 0x100000 + sid

/-- The header of a KFP record (Table 13.2); bit 8 of `ftype` stands for MORE. -/
def kfpHeader (ver ftype sess epoch seq : Nat) : List Byte :=
  beBytes 1 ver ++ beBytes 1 (ftype % 256) ++ beBytes 1 (ftype / 256 % 2) ++ zeros 1 ++ beBytes 4 sess ++ beBytes 4 epoch ++ beBytes 8 seq

/-- A secured record (R267, R268): header, body under the key of the module's direction, and tag; the nonce is the direction's fixed
field and SEQ, the authenticated data the header. -/
def Session.securedRecord (x : Session) (sid ftype epoch seq : Nat) (body : List Byte) : List Byte :=
  have key := ofBe (if x.initiator then x.keys.take 32 else (x.keys.drop 32).take 32)
  have nonce := (x.keys.drop (if x.initiator then 64 else 68)).take 4 ++ beBytes 8 seq
  have head := kfpHeader x.version ftype (if x.initiator then x.sess else sid) epoch seq
  have out := fixLen body.length (Config.std 0x02 key [nonce, body])
  head ++ out ++ fixLen 16 (Config.std 0x102 key [nonce, head, out])

/-- FWD, REG and EVT records, which a STALE of a higher epoch stops (R273). -/
def stoppedType (ftype : Nat) : Bool := ftype % 256 == 0x20 || ftype % 256 == 0x30 || ftype % 256 == 0x40

/-- A secured record is sent on a session: it takes the next SEQ and waits for its acknowledgement, except ACK and
STALE (R267, R269). FWD, REG and EVT are held after a STALE of a higher epoch (R273), and every record while its SEQ
block is not reserved (R300); a key at its last SEQ sends nothing more and raises STOP (R302). A STANDBY or FENCED twin keeps only its sessions with
hosts (Table 16.3), and the keys of a sealed session table cannot be used (R287). -/
def State.sendSecured (s : State) (sid ftype : Nat) (body : List Byte) : State :=
  match s.sessions.find sid with
  | none => s
  | some x =>
    if !x.isOpen || ((s.pairState == 2 || s.pairState == 3) && decide (x.peer < 260)) || (s.staleStop && stoppedType ftype) || (s.nv.lc != 2 && s.nv.lc != 3) then s
    else
      have k := s.txKey (sessKey sid)
      have d := drawKey k (s.openBlocks k) (2 ^ 64 - 1)
      have s := s.setTxKey (sessKey sid) d.2
      match d.1 with
      | .value n =>
        have x := { x with
          lastTx := s.cycle
          unacked := if ftype = 0x10 ∨ ftype = 0x13 then x.unacked
            else x.unacked ++ [⟨n, ftype, body, 0, s.uptime, x.securedRecord sid ftype s.nv.epoch n body⟩] }
        ({ s with sessions := s.sessions.put sid x }.sendDatagram x.peer (x.securedRecord sid ftype s.nv.epoch n body)).send
          (.kfp x.peer ftype n body)
      | .wait =>
        ({ s with sessions := s.sessions.put sid { x with held := x.held ++ [(ftype, body)] } }.bump Reg.KEEP_RSV_WAIT).raiseKeep 5
      | .stop => (s.bump Reg.KEEP_KEY_STOP).raiseKeep 3

/-- The open sessions with host peers that take EVT pushes of a line: KFP 4 and the line in EVT_MASK, whose 32 bits
name lines 0 to 31 (R271, R426; log 9). -/
def State.evtSessions (s : State) (n : Nat) : List Nat :=
  (s.sessions.filter (fun x =>
    x.2.isOpen && !x.2.old && x.2.version == 4 && decide (260 ≤ x.2.peer) && decide (n < 32) &&
    (((s.peers.find x.2.peer).map (fun (p : Peer) => p.evt)).getD 0).testBit n)).map (·.1)

/-- The EVT records of a line's change to active: one for each page with an enabled, set cause on it (R426). -/
def State.pushEvt (s : State) (n : Nat) : State :=
  (s.linePages n).foldl (fun s p =>
    (s.evtSessions n).foldl (fun s sid =>
      s.sendSecured sid 0x40 (beBytes 1 p ++ beBytes 4 (s.pend p) ++ beBytes 8 s.now)) s) s

/-- A line after its causes changed: a change to active sends the message, the doorbell and the EVT pushes. -/
def State.updateLine (s : State) (n : Nat) : State :=
  if s.lineOn n && !s.lineActive.contains n then (s.showLine n).pushEvt n else s.showLine n

/-- The lines of a page after its causes or enables changed. -/
def State.updateLines (s : State) (page : Nat) : State :=
  s.updateDoorbell ((pageLines page).foldl State.updateLine s)

/-- Causes of a page are set: their happening occurred (R424). -/
def State.raiseMask (s : State) (page mask : Nat) : State :=
  (s.setReg (evRaw page) (s.reg (evRaw page) ||| (mask &&& causeMask page))).updateLines page

/-- One cause of a page is set. -/
def State.raise (s : State) (page i : Nat) : State := s.raiseMask page (2 ^ i)

/-- Causes of a page are cleared. -/
def State.clearCauses (s : State) (page mask : Nat) : State :=
  (s.setReg (evRaw page) (s.reg (evRaw page) &&& (0xFFFFFFFF - (mask &&& 0xFFFFFFFF)))).updateLines page

/-- Event 0 SYS_ALERT fires for a page (R427); the cycle is no healthy one (R399). -/
def State.alert (s : State) (page : Nat) : State :=
  have first := !(s.flag (evRaw 0) 0)
  have s := s.setFld Reg.SYS_ALERT_SRC 31 16 (satAdd 16 (s.fld Reg.SYS_ALERT_SRC 31 16) 1)
  have s := if first then s.setFld Reg.SYS_ALERT_SRC 7 0 page else s
  ({ s with upd := { s.upd with unhealthy := true } }).raise 0 0

/-- A happening that raises a cause of a page and fires event 0. -/
def State.raiseAlert (s : State) (page i : Nat) : State := (s.raise page i).alert page

/-- PATH of Table 23.5. -/
def pathCode : Path → Nat
  | .pcie => 0
  | .svc => 1
  | .kfp _ _ => 2

/-- PEER of Table 23.5. -/
def pathPeer : Path → Nat
  | .kfp p _ => p.toNat
  | _ => 0

/-- A capture in the ERRCAP and ERRADDR of one page header: the fields while VALID is 0, else MORE (R423). -/
def State.captureHeader (s : State) (page cap addr : Nat) : State :=
  have kc := page * 0x1000 + 0x028
  if s.flag kc 31 then s.setFlag kc 30 true
  else (s.setReg kc cap).setReg (page * 0x1000 + 0x02C) addr

/-- Every access that a rule discards, ignores with a record, or refuses with a record is captured: in the header of
its page, in the SYS header and in the error ring (R423). -/
def State.capture (s : State) (p : Path) (page off cause : Nat) : State :=
  have cap := 0x80000000 + pathCode p * 2 ^ 28 + cause * 2 ^ 16 + page * 2 ^ 8
  have addr := pathPeer p * 2 ^ 23 + off
  have s := if (pageKind page).isSome && page ≠ 0 then s.captureHeader page cap addr else s
  have s := s.captureHeader 0 cap addr
  have wr := s.fld Reg.SYS_ERR_WR 4 0
  have s := if (s.errRing.find wr).isSome then s.bump Reg.SYS_ERR_OVF else s
  have s := { s with errRing := s.errRing.put wr ⟨BitVec.ofNat 32 cap, BitVec.ofNat 32 addr, s.now⟩ }
  (s.setFld Reg.SYS_ERR_WR 4 0 (wr + 1)).raise 0 1

/-- A frame counter is drawn under a key for a medium's frame, with the causes of R300 and R302: a wait is counted and
raises RSV, a stopped key is counted and raises STOP. -/
def State.drawCounter (s : State) (key : Nat) : Draw × State :=
  have k := s.txKey key
  have d := drawKey k (s.openBlocks k) (2 ^ 32 - 1)
  have s := s.setTxKey key d.2
  match d.1 with
  | .value n => (.value n, s)
  | .wait => (.wait, (s.bump Reg.KEEP_RSV_WAIT).raiseKeep 5)
  | .stop => (.stop, (s.bump Reg.KEEP_KEY_STOP).raiseKeep 3)

/-- A session changed. -/
def State.modSession (s : State) (sid : Nat) (f : Session → Session) : State :=
  { s with sessions := s.sessions.modify sid f }

/-- The peer entry in force, while it is valid (Table 13.10). -/
def State.peer (s : State) (p : Nat) : Option Peer :=
  match s.peers.find p with
  | some x => if x.w0.testBit 31 then some x else none
  | none => none

/-- PEER_STAT.SESS and KFPV follow the sessions of a peer; REFUSED stays until the next handshake (Table 13.10). -/
def State.showPeer (s : State) (p : Nat) (refused : Bool := false) : State :=
  have mine := (s.sessions.filter (fun x => x.2.peer == p)).map (·.2)
  have k := bankKey p Reg.FEED_PEER_STAT
  have opened := mine.filter (fun (x : Session) => x.isOpen)
  have code := if !opened.isEmpty then 2 else if !mine.isEmpty then 1 else if refused || s.fld k 31 29 == 3 then 3 else 0
  (s.setFld k 31 29 code).setFld k 27 24 ((opened.getLast?.map (fun (x : Session) => x.version)).getD 0)

/-- A session ends; an open one raises SESSION. -/
def State.closeSession (s : State) (sid : Nat) (refused : Bool := false) : State :=
  match s.sessions.find sid with
  | none => s
  | some x =>
    have s := { s with
      sessions := s.sessions.del sid
      nv := { s.nv with txKeys := s.nv.txKeys.del (sessKey sid) } }
    have s := s.showPeer x.peer refused
    if x.isOpen then s.raise 0x52 0 else s

/-- A session goes on at a twin that takes over or after a restart (R273, R297): what it has not seen acknowledged is sent again. -/
def State.renewed (s : State) (x : Session) : Session :=
  { x with
    unacked := []
    held := []
    part := none
    fwds := []
    spans := []
    perSpans := []
    segSpan := none
    fwdAt := s.led.hubAck
    perAt := s.fwdDone.getD x.peer x.perAt }

/-- The key of a leaf pair among the highest epochs (R273). -/
def Session.epochKey (x : Session) : Nat := x.pair * 512 + (if x.pair = 0 then x.peer else 0)
/-- The peer of a session is a leaf. -/
def Session.ofLeaf (x : Session) : Bool := decide (1 ≤ x.peer) && decide (x.peer ≤ 255)

/-- The epoch below which a record of a session is discarded (R273): for a leaf, the highest that this hub has seen from its pair; for any
other peer, the module's own. -/
def State.peerEpoch (s : State) (x : Session) : Nat := if x.ofLeaf then s.epochs.getD x.epochKey 0 else s.nv.epoch

end Sys2Proof.Machine
end

