-- ==== Sys2Proof/Machine/Journal.lean ====
section
/-!
DEFINITION. Appending a record to the ledger (R239, Table 12.3), what it charges (Table 2.5), and its mirror to the
twin (R328). The Logbook's recording (R385, R386, R388) stands here too, because every family records through it.
-/

namespace Sys2Proof.Machine

/-- The energy cost of a record class in units of 1/4096 mJ (Table 2.5); uncharged classes cost nothing. -/
def recordCost (cls : Nat) : Nat :=
  if cls = 0x01 then 2 else if cls = 0x02 then 3 else if cls = 0x03 then 30 else if cls = 0x04 then 6
  else if cls = 0x05 then 7 else if cls = 0x06 then 28 else if cls = 0x07 then 516 else 0

/-- Whether a record class is charged (Table 12.3). -/
def chargedClass (cls : Nat) : Bool := decide (1 ≤ cls) && decide (cls ≤ 7)

/-- The headroom h of R45 in units of 1/4096 mJ, before it is held at 0. -/
def State.headroom (s : State) : Int :=
  have guard := max 50 (s.fld Reg.SLALOM_E_GUARD 15 0)
  have a : Int := (s.fld Reg.SLALOM_E_USABLE 15 0 : Int) - s.fac.eFix - guard
  min a (1200 - s.fac.eFix : Nat) * 4096

/-- E_UNC and the headroom register after a change of the charge. -/
def State.setUnc (s : State) (u : Nat) : State :=
  (s.setReg Reg.SLALOM_E_UNC u).setReg Reg.SLALOM_E_HEAD s.headroom.toNat

/-- The energy that the records of a later state charge beyond those of a state, in units. -/
def State.chargedBy (s u : State) : Nat := u.reg Reg.SLALOM_E_UNC - s.reg Reg.SLALOM_E_UNC

/-- The last committed RSN. -/
def State.committed (s : State) : Nat := s.reg64 Reg.LEDG_RSN_LO Reg.LEDG_RSN_HI

/-- The store is read-only: no record is appended (R238, R363). -/
def State.readOnly (s : State) : Bool := s.fld Reg.LEDG_STAT 31 29 == 3

/-- The records of the journal, and behind them those that a STANDBY twin has made itself (R258). -/
def State.heldRecs (s : State) : SMap LedgerRecord := s.led.recs ++ s.led.side

/-- A record is committed: one of the journal by its RSN, one of a STANDBY's own by its number (R239, R258). -/
def State.recDone (s : State) (rsn : Nat) : Bool := if 2 ^ 63 ≤ rsn then decide (rsn < s.led.sideDone) else decide (rsn ≤ s.committed)

/-- The open group holds a record. -/
def State.hasOpen (s : State) : Bool := decide (s.led.openFirst < s.led.nextRsn) || decide (s.led.sideOpen < s.led.sideNext)

/-- A record enters the open group: under the next RSN, or, a STANDBY's own, beside the mirrored ones, whose RSNs are the ACTIVE twin's
(R258). Answers its number. -/
def State.enterRecord (s : State) (r : LedgerRecord) : Nat × State :=
  have s := { s with led := { s.led with openSince := if s.hasOpen then s.led.openSince else s.cycle } }
  if s.pairState = 2 then
    (s.led.sideNext, { s with led := { s.led with side := s.led.side.put s.led.sideNext r, sideNext := s.led.sideNext + 1 } })
  else (s.led.nextRsn, { s with led := { s.led with recs := s.led.recs.put s.led.nextRsn r, nextRsn := s.led.nextRsn + 1 } })

/-- A record is appended under the next RSN: it enters the open group, is charged where its class is charged, and is
sent to the twin where one is being mirrored (R239, R45, R328). Answers its RSN; 0 in a read-only store. -/
def State.append (s : State) (cls : Nat) (payload : List Byte) (obl : Option Nat := none) (leaf : Nat := 0) :
    Nat × State :=
  if s.readOnly then (0, s)
  else
    have r := s.enterRecord { cls := cls, payload := payload, charged := chargedClass cls, time := s.now, leaf := leaf, obl := obl }
    have s := r.2
    have s := if chargedClass cls then s.setUnc (satAdd 32 (s.reg Reg.SLALOM_E_UNC) (recordCost cls)) else s
    have s := if s.pairState = 1 ∧ s.syncState ≠ 0 then s.send (.pairs 1 [r.1, cls]) else s
    (r.1, s)

/-- A record is appended and its RSN not needed. -/
def State.journal (s : State) (cls : Nat) (payload : List Byte) : State := (s.append cls payload).2

/-- An EVENT record (Table 12.13): type, bits 23:0, and the octets that follow, filled to 64. -/
def State.journalEvent (s : State) (type low : Nat) (body : List Byte) : State :=
  s.journal 0x05 (leBytes 8 s.now ++ leBytes 4 (type * 2 ^ 24 + low % 2 ^ 24) ++ (body ++ zeros 52).take 52)

/-- A SYSDATA record (Table 12.18), and its number. -/
def State.appendSysdata (s : State) (subtype : Nat) (body : List Byte) : Nat × State :=
  s.append 0x29 (leBytes 2 subtype ++ leBytes 2 1 ++ leBytes 4 body.length ++ leBytes 8 s.now ++ body)
def State.sysdata (s : State) (subtype : Nat) (body : List Byte) : State := (s.appendSysdata subtype body).2

/-- The twin has acknowledged a record's mirror, or no twin is in step (R329). -/
def State.mirrored (s : State) (rsn : Nat) : Bool :=
  !(s.pairState == 1 && s.syncState == 2) || decide (rsn ≤ s.ackedRsn)

/-- The mirrored records that the twin has not acknowledged, which LAG shows (Table 16.7). -/
def State.mirrorLag (s : State) : Nat := if s.pairState = 1 ∧ s.syncState ≠ 0 then s.led.nextRsn - 1 - s.ackedRsn else 0

/-- The range of records that no acknowledgement has left for: on an ACTIVE twin whose twin is SYNCED, those whose mirror is not
acknowledged (R329, R332). -/
def State.heldBack (s : State) : Option (Nat × Nat) :=
  if s.pairState = 1 ∧ s.syncState = 2 then some (s.ackedRsn, s.led.nextRsn - 1) else s.pairs.unacked

/-- The operating hours and the power-cycle count of D0 (R356). -/
def State.hours (s : State) : Nat := s.reg Reg.TAMP_OPHRS
def State.powerCycles (s : State) : Nat := s.reg Reg.TAMP_PWRCYC

/-- The octets of a Logbook entry (Table 20.2). -/
def logEntryBytes (e : LogEntry) : List Byte :=
  leBytes 8 e.time ++ leBytes 4 e.eseq ++ leBytes 4 e.hours ++ leBytes 4 e.cycles ++ leBytes 1 e.cls ++
    leBytes 1 e.page ++ leBytes 2 e.code ++ leBytes 8 e.data

/-- The slot that a new entry of a class takes in the store (R388): a free one, or the oldest entry of the lowest
class present if that class is at or below the new one's; none where the entry is discarded. -/
def logSlot (m : SMap LogEntry) (cls : Nat) : Option Nat :=
  if m.length < 2048 then (List.range 2049).find? (fun i => (m.find i).isNone)
  else
    have low := m.foldl (fun c p => min c p.2.cls) 3
    if low ≤ cls then
      ((m.filter (fun p => p.2.cls = low)).foldl
        (fun (b : Option (Nat × Nat)) p => match b with
          | none => some (p.1, p.2.eseq)
          | some (i, e) => if p.2.eseq < e then some (p.1, p.2.eseq) else some (i, e)) none).map (·.1)
    else none

/-- An entry enters the store, or is discarded and counted (R388). A class 3 entry is also a SYSDATA record (R391). -/
def State.logStore (s : State) (e : LogEntry) : State :=
  match logSlot s.log.entries e.cls with
  | some i =>
    have e := { e with eseq := s.reg Reg.LOGB_ENT_SEQ }
    have s := { s with log := { s.log with entries := s.log.entries.put i e } }
    have s := (s.setReg Reg.LOGB_ENT_SEQ (e.eseq + 1)).setFld Reg.LOGB_STAT 11 0 s.log.entries.length
    have s := if e.cls = 3 then s.sysdata 0x04 (logEntryBytes e) else s
    if s.fld Reg.LOGB_CFG 1 0 ≤ e.cls then s.raise 0x49 0 else s
  | none => (s.bump (Reg.LOGB_DROP0 + 4 * e.cls)).raise 0x49 1

/-- The Logbook is frozen (R389). -/
def State.frozen (s : State) : Bool := s.flag Reg.LOGB_STAT 31

/-- An entry waits in the hold queue of 64 under the rule of R388 applied to the queue (R389). -/
def State.logHold (s : State) (e : LogEntry) : State :=
  have q := s.log.hold
  have put := fun (q : List LogEntry) =>
    { s with log := { s.log with hold := q } }.setFld Reg.LOGB_STAT 22 16 q.length
  if q.length < 64 then put (q ++ [e])
  else
    have low := q.foldl (fun c x => min c x.cls) 3
    if low ≤ e.cls then put (q.eraseP (fun x => x.cls = low) ++ [e])
    else (s.bump (Reg.LOGB_DROP0 + 4 * e.cls)).raise 0x49 1

/-- The hold queue is empty. -/
def State.dropHold (s : State) : State := { s with log := { s.log with hold := [] } }

/-- An entry enters the Logbook, with the stamps of its happening (R388, R389). -/
def State.logEntry (s : State) (cls page code data : Nat) : State :=
  have e : LogEntry := ⟨s.now, 0, s.hours, s.powerCycles, cls, page, code, data⟩
  if s.frozen then s.logHold e else s.logStore e

/-- The instrument indices that Table 20.1 names. -/
def instrumentKnown (i : Nat) : Bool :=
  decide (i ≤ 0x16) || (decide (0x18 ≤ i) && decide (i ≤ 0x3D)) || (decide (0x40 ≤ i) && decide (i ≤ 0x45)) ||
    (decide (0x50 ≤ i) && decide (i ≤ 0x61)) || (decide (0xC0 ≤ i) && decide (i ≤ 0xFF))

/-- An instrument as it stands. -/
def State.instrument (s : State) (i : Nat) : Instrument :=
  s.log.instruments.getD i { lo := (instrumentReset i).1, width := (instrumentReset i).2 }

/-- The bin of a sample (R385). -/
def sampleBin (lo : Int) (w : Nat) (v : Int) : Nat :=
  if v < lo then 0 else 1 + min ((v - lo) / (max w 1 : Nat)).toNat 30

/-- A sample folded into an instrument (R385, R386). -/
def foldSample (x : Instrument) (v : Int) (hours cycles time : Nat) : Instrument :=
  have b := sampleBin x.lo x.width v
  have e : Extreme := ⟨v, hours, cycles, time⟩
  { x with
    bins := x.bins.put b (satAdd 32 (x.bins.getD b 0) 1),
    count := (x.count + 1) % 2 ^ 64,
    least := (match x.least with | none => some e | some m => if v < m.value then some e else some m),
    most := (match x.most with | none => some e | some m => if m.value < v then some e else some m) }

/-- An instrument takes a sample, or counts it lost while the Logbook is frozen (R385, R389). -/
def State.sample (s : State) (i : Nat) (v : Int) : State :=
  if !instrumentKnown i then s
  else if s.frozen then s.bump Reg.LOGB_FRZ_LOST
  else
    have x := foldSample (s.instrument i) (satSigned 32 v) s.hours s.powerCycles s.now
    { s with log := { s.log with instruments := s.log.instruments.put i x } }

end Sys2Proof.Machine
end

