-- ==== Sys2Proof/Machine/Bus.lean ====
section
/-!
DEFINITION. The register bus that every access path shares: power domains and what an access does to them (R346 to
R353), rights (R274, R285), the gate of an access (R13, R417, R423), a plain register write under the field types of
Table 0.4, and the common header (R418 to R424).
-/

namespace Sys2Proof.Machine

/-- The power domain of a page (Table 23.1, Table 17.3). -/
def pageDomain (p : Nat) : Nat :=
  if 0x08 ≤ p ∧ p ≤ 0x0D then 11 + (p - 0x08) / 2
  else if p = 0x10 then 14 else if p = 0x11 then 15
  else if 0x14 ≤ p ∧ p ≤ 0x17 then 16 + (p - 0x14)
  else if 0x18 ≤ p ∧ p ≤ 0x1B then 6
  else if p = 0x1C ∨ (0x20 ≤ p ∧ p ≤ 0x27) then 7
  else if 0x28 ≤ p ∧ p ≤ 0x2F then 8
  else if 0x30 ≤ p ∧ p ≤ 0x35 then 9
  else if p = 0x38 then 4
  else if p = 0x39 ∨ p = 0x3A then 5
  else if 0x41 ≤ p ∧ p ≤ 0x44 then 10
  else if p = 0x4A ∨ p = 0x55 then 23
  else if p = 0x4C then 22
  else if 0x50 ≤ p ∧ p ≤ 0x52 then 20
  else if p = 0x53 then 21
  else if p = 0x54 then 24
  else 1

/-- Table 17.3: the states a domain may enter. -/
def mayDoze (d : Nat) : Bool := [2, 3, 5, 6, 7, 8, 9, 10, 11, 12, 13, 14, 15, 16, 17, 18, 19, 20, 21, 22, 23, 24].contains d
def mayRetain (d : Nat) : Bool := [3, 6, 7, 8, 10, 11, 12, 13, 14, 15, 16, 17, 18, 19, 20, 21, 23, 24].contains d
def mayOff (d : Nat) : Bool := [3, 7, 8, 10, 11, 12, 13, 14, 15, 16, 17, 18, 19, 20, 22, 23].contains d
/-- Table 17.3: the domains needed for the shutdown commit. -/
def commitDomain (d : Nat) : Bool := [0, 1, 2, 4, 5].contains d

/-- Whether a page is that of a unit absent in the variant (Tables 0.3 and 23.1). -/
def pageAbsent (v : Variant) (p : Nat) : Bool :=
  match v with
  | .f => false
  | .s => decide (0x10 ≤ p) && decide (p ≤ 0x13)
  | .n => decide (0x14 ≤ p) && decide (p ≤ 0x17)
  | .h => decide (0x08 ≤ p) && decide (p ≤ 0x17)

/-- DOM_STAT of a domain: state codes 0 RUN, 1 DOZE, 2 RETAIN, 3 OFF, 4 FAILED, 5 ENTERING, 6 WAKING. -/
abbrev domKey (d : Nat) : Nat := bankKey d Reg.PWR_DOM_STAT
def State.dom (s : State) (d : Nat) : Nat := s.fld (domKey d) 31 29
def State.setDom (s : State) (d v : Nat) : State := s.setFld (domKey d) 31 29 v

/-- The idle count of a domain starts again (R348). -/
def State.touch (s : State) (d : Nat) : State :=
  { s.setFld (domKey d) 15 0 0 with
    idleRetain := s.idleRetain.del d
    touched := if s.touched.contains d then s.touched else d :: s.touched }

/-- A domain returns to RUN: the wake is counted (Table 17.8). -/
def State.wake (s : State) (d : Nat) : State :=
  if s.dom d = 1 ∨ s.dom d = 2 ∨ s.dom d = 6 then ((s.setDom d 0).touch d).bump (bankKey d Reg.PWR_DOM_WAKES) else s

/-- A refused or aborted entry is recorded (R350). -/
def State.refusal (s : State) (id dom : Nat) (abort : Bool) : State :=
  have s := s.setReg Reg.PWR_LASTREF (id * 2 ^ 24 + dom * 2 ^ 16 + b2n abort)
  have s := s.setReg64 Reg.PWR_LASTREF_AT_LO Reg.PWR_LASTREF_AT_HI s.now
  have hits := (List.range 32).filter (fun n => s.fld (Reg.PWR_REF_ID n) 7 0 = id)
  if hits.isEmpty then s.bump Reg.PWR_REF_OTHER
  else hits.foldl (fun s n => s.bump (Reg.PWR_REF_CNT n)) s

/-- An access to a page wakes its domain or aborts its entry into a state (R352). -/
def State.accessWake (s : State) (page : Nat) : State :=
  have d := pageDomain page
  if s.dom d = 5 then ((s.setDom d 0).refusal 0x26 d true).touch d
  else if s.dom d = 0 then s.touch d
  else s.wake d

/-- A page whose accesses behave as those of an OFF domain: absent, OFF or FAILED (R10, R353). -/
def State.pageOff (s : State) (page : Nat) : Bool :=
  pageAbsent s.fac.variant page || s.dom (pageDomain page) == 3 || s.dom (pageDomain page) == 4

/-- An access that completes as to an OFF domain (R353), with the cause "off" or "wake". -/
def State.offAccess (s : State) (p : Path) (page off cause : Nat) : State :=
  (s.capture p page off cause).raise 0x02 5

/-- The service port has full access: in FACTORY, SERVICE and RECOVERY (R285). -/
def State.svcFull (s : State) : Bool := s.nv.lc == 1 || s.nv.lc == 4 || s.nv.lc == 5

/-- The service port is refused an access (R285). -/
def State.svcDenies (s : State) (page : Nat) (write : Bool) : Bool :=
  if s.svcFull then false
  else if write then page != 0x54 && !(s.flag Reg.SVC_STAT 0)
  else decide (0x40 ≤ page) && decide (page ≤ 0x44)

/-- A tunnel operation outside the rights of its session (R274): on a STANDBY twin no write but to the PAIRS page (Table 16.7). -/
def State.tunnelDenies (s : State) (peer page : Nat) (write : Bool) : Bool :=
  have rights := s.fld (bankKey peer Reg.FEED_PEER_W0) 25 24
  (s.pairState == 2 && write && page != 0x4C) || (if rights = 1 then write else rights != 2)

/-- What an access comes to before it reaches its register: it proceeds in a state, or it is complete in one. -/
inductive Gate where
  | proceed (s : State)
  | complete (s : State)

/-- An access of the service port is refused (R285): cause "rights". -/
def State.refuseSvc (s : State) (p : Path) (page off : Nat) : State := ((s.capture p page off 0x07).bump Reg.SVC_DENIED).raise 0x54 2

/-- The gate of an access to a defined register (R417, R353, R352, R418, R285, R274; the order among the checks is
log 10's). -/
def State.gate (s : State) (p : Path) (page off : Nat) (write : Bool) : Gate :=
  have denied := match p with | .kfp peer _ => s.tunnelDenies peer.toNat page write | _ => false
  if denied then .complete s
  else
    have s := match p with
      | .kfp _ _ => s.bump Reg.FEED_TUN_OPS
      | .svc => { s with svcLast := s.cycle }
      | .pcie => s
    if (pageKind page).isNone then .complete (s.capture p page off 0x04)
    else if off < 0x040 ∧ !write then (if p = .svc ∧ s.svcDenies page write then .complete (s.refuseSvc p page off) else .proceed s)
    else if s.pageOff page then .complete (s.offAccess p page off 0x02)
    else if p = .svc ∧ s.svcDenies page write then .complete (s.refuseSvc p page off)
    else if off < 0x040 then
      if off = 0x008 ∨ off = 0x00C then .proceed (s.accessWake page) else .proceed s
    else
      have s := s.accessWake page
      if (findSpec page off).isNone then .complete (s.capture p page off 0x05) else .proceed s

/-- What a write to a register comes to: accepted, ignored without a record, or discarded with a capture cause. -/
inductive WriteResult where
  | done (s : State)
  | ignored (s : State)
  | discard (s : State) (cause : Nat)

/-- What follows a write that is accepted. -/
def WriteResult.andThen (r : WriteResult) (f : State → State) : WriteResult :=
  match r with
  | .done s => .done (f s)
  | r => r

/-- The state that an effect leaves, before the gate counts or captures it. -/
def WriteResult.state : WriteResult → State
  | .done s => s
  | .ignored s => s
  | .discard s _ => s

/-- The state after a write: an accepted write to IFSEL, CTRL or an offset from 0x040 on counts in SEQ (R422); a
discarded one is captured (R423). -/
def State.finish (p : Path) (page off : Nat) : WriteResult → State
  | .done s =>
    if off = 0x008 ∨ off = 0x00C ∨ 0x040 ≤ off then
      s.setReg (page * 0x1000 + 0x030) (s.reg (page * 0x1000 + 0x030) + 1)
    else s
  | .ignored s => s
  | .discard s cause => s.capture p page off cause

/-- A host write through its gate, with the effect of its register. -/
def State.hostWrite (s : State) (p : Path) (page off : Nat) (eff : State → WriteResult) : State :=
  match s.gate p page off true with
  | .complete s => s
  | .proceed s => State.finish p page off (eff s)

/-- Registers that are selectors, cursors or window indices: their fields are no working state (R367). -/
def selectorKeys : List Nat :=
  [ Reg.SYS_ERR_RD, Reg.EVT_SRC_LINE, Reg.CLK_CLK_SEL, Reg.PWR_DOM_SEL, Reg.SWEEP_PREC_CUR_LO, Reg.SWEEP_PREC_CUR_HI,
    Reg.SLALOM_RES_SEL, Reg.SLALOM_OUT_RD, Reg.SLALOM_REV_SEL, Reg.LINEM_NODE_SEL, Reg.AIRC_SB_SEL, Reg.AIRM_NODE_SEL,
    Reg.FCAC_DW_CH, Reg.FCAC_PB_IDX, Reg.FCAC_PB_SLOT, Reg.BAL_ZSEL, Reg.BAL_AL_RD, Reg.BALG_ZP_ZONE,
    Reg.BALG_ZP_SLOT, Reg.BALG_IC_SEL, Reg.BALG_CG_SEL, Reg.BILL_CT_CH, Reg.BILL_RG_CH, Reg.BILL_RG_SEL,
    Reg.TARIF_PSEL, Reg.CRED_AC_SEL, Reg.CRED_PR_SEL, Reg.CRED_MB_SEL, Reg.CRED_RV_SEL, Reg.TAMP_LOG_RD,
    Reg.LEDG_PART_SEL, Reg.NAND_DIE_SEL, Reg.PTP_SNAP_SEL, Reg.FEED_PEER_SEL, Reg.PCIE_RPT_RD, Reg.PCIE_HTX_WR,
    Reg.PCIE_HRX_RD, Reg.KEEP_SL_SEL, Reg.KEEP_PUB_SEL, Reg.KEEP_PUB_IDX, Reg.MERK_PRF_HSEL, Reg.BIST_BLK_SEL,
    Reg.LOGB_CUR_SEL, Reg.LOGB_I_SEL, Reg.LOGB_HOST_IDX, Reg.UPD_NC_SEL, Reg.UPD_GRP_NODE, Reg.SDC_FILE_SEL ]
  ++ (List.range 4).map (fun g => Reg.LIFT_PEEK_SEL g)

/-- The register that holds a page's CFG_LOCK, at bit 31 (one for each page that has one). -/
def lockOffset (page : Nat) : Option Nat :=
  match (pageSpecs page).find? (fun r => r.w1s.testBit 31) with
  | some r => some r.off
  | none => none

/-- The RWL fields of a page are locked (Table 0.4). -/
def State.locked (s : State) (page : Nat) : Bool :=
  match lockOffset page with
  | some off => s.flag (page * 0x1000 + off) 31
  | none => false

/-- A word with each held field moved to the nearest limit of its range (log 12). -/
def holdFields (cs : List FieldClamp) (w : Nat) : Nat :=
  cs.foldl (fun w c => setBits c.hi c.lo (clampNat c.least c.most (bits c.hi c.lo w)) w) w

/-- The word a register holds after a plain write: RW fields, RWL fields while unlocked, W1S and W1C bits. -/
def plainWord (r : RegSpec) (locked : Bool) (old v : Nat) : Nat :=
  have wm := if locked then r.rw else r.rw ||| r.rwl
  have w := (old &&& (0xFFFFFFFF ^^^ wm)) ||| (v &&& wm)
  have w := w &&& (0xFFFFFFFF ^^^ (v &&& r.w1c))
  holdFields r.clamps (w ||| (v &&& r.w1s))

/-- A CONFIG record of a register write (R367): a mark, the register and its word; no other CONFIG record has 13 octets. -/
def State.journalConfig (s : State) (k : Nat) : State :=
  s.journal 0x26 (leBytes 1 1 ++ leBytes 8 k ++ leBytes 4 (s.reg k))
def configWord (r : LedgerRecord) : Option (Nat × Word) :=
  if r.cls = 0x26 ∧ r.payload.length = 13 then some (leAt r.payload 1 8, BitVec.ofNat 32 (leAt r.payload 9 4)) else none

/-- The key at which a window register stands: the copy behind its page's selector, or the register itself. -/
def State.windowKey (s : State) (page off : Nat) : Nat :=
  have k := page * 0x1000 + off
  have via := fun sel => bankKey sel k
  if page = 0x02 ∧ (off = 0x064 ∨ off = 0x06C ∨ off = 0x070) then via (s.fld Reg.PWR_DOM_SEL 4 0)
  else if k = Reg.EVT_MSG_CNT then via (s.fld Reg.EVT_SRC_LINE 5 0)
  else if k = Reg.SLALOM_RES_RETRY then via (s.fld Reg.SLALOM_RES_SEL 7 0)
  else if k = Reg.SLALOM_REV_CNT then via (s.fld Reg.SLALOM_REV_SEL 7 0)
  else if page = 0x52 ∧ 0x084 ≤ off ∧ off ≤ 0x0F8 then via (s.fld Reg.FEED_PEER_SEL 8 0)
  else if page = 0x31 ∧ 0x074 ≤ off ∧ off ≤ 0x07C then via (s.fld Reg.BALG_IC_SEL 3 0)
  else if page = 0x31 ∧ 0x0A4 ≤ off ∧ off ≤ 0x0A8 then via (s.fld Reg.BALG_CG_SEL 7 0)
  else if page = 0x34 ∧ 0x044 ≤ off ∧ off ≤ 0x070 then via (s.fld Reg.CRED_AC_SEL 13 0)
  else if page = 0x34 ∧ (off = 0x084 ∨ off = 0x088) then via (s.fld Reg.CRED_AC_SEL 13 0 * 32 + s.fld Reg.CRED_PR_SEL 4 0)
  else if page = 0x34 ∧ (off = 0x08C ∨ off = 0x090) then via (s.fld Reg.CRED_AC_SEL 13 0)
  else if k = Reg.CRED_MB_W then via (s.fld Reg.CRED_AC_SEL 13 0 * 32 + s.fld Reg.CRED_MB_SEL 4 0)
  else if k = Reg.CRED_RV_W then via (s.fld Reg.CRED_AC_SEL 13 0 * 4 + s.fld Reg.CRED_RV_SEL 1 0)
  else if k = Reg.LOGB_I_LO ∨ k = Reg.LOGB_I_W then via (s.fld Reg.LOGB_I_SEL 7 0)
  else if k = Reg.UPD_GRP_W then via (s.fld Reg.UPD_GRP_NODE 12 0)
  else k

/-- A plain write of a register with no effect of its own. -/
def State.plainWrite (s : State) (page off : Nat) (v : Word) : WriteResult :=
  match findSpec page off with
  | none => .ignored s
  | some r =>
    if r.rw = 0 ∧ r.rwl = 0 ∧ r.w1c = 0 ∧ r.w1s = 0 then .ignored s
    else
      have k := s.windowKey page off
      have locked := s.locked page
      if r.rw = 0 ∧ r.w1c = 0 ∧ r.w1s = 0 ∧ locked then .ignored s
      else
        have s := s.setReg k (plainWord r locked (s.reg k) v.toNat)
        if selectorKeys.contains (page * 0x1000 + off) ∨ (r.rw = 0 ∧ r.rwl = 0) then .done s
        else .done (s.journalConfig k)

/-- The units of SYS.LANE_EN that a LINE, AIR or LOOP page's ENABLE aliases (R422). -/
def laneBit (page : Nat) : Option Nat :=
  if 0x08 ≤ page ∧ page ≤ 0x0D then some (page - 0x08)
  else if page = 0x10 ∨ page = 0x11 then some (8 + (page - 0x10))
  else if 0x14 ≤ page ∧ page ≤ 0x17 then some (12 + (page - 0x14))
  else none

/-- The bits of SYS.LANE_EN of the units the variant has. -/
def laneMask (v : Variant) : Nat :=
  match v with
  | .f => 0xF33F | .s => 0xF03F | .n => 0x033F | .h => 0

/-- Lanes, loops and interlocks are held by the life-cycle state (Table 22.2), or by the role: a HUB has no own
field (Table 22.3). -/
def State.fieldHeld (s : State) : Bool := s.nv.lc != 2 && s.nv.lc != 3
def State.roleHeld (s : State) : Bool := s.nv.role == 2

/-- A lane or loop is enabled (R422). -/
def State.laneEnabled (s : State) (page : Nat) : Bool :=
  match laneBit page with
  | some i => s.flag Reg.SYS_LANE_EN i && (laneMask s.fac.variant).testBit i && !s.fieldHeld && !s.roleHeld
  | none => s.flag (page * 0x1000 + 0x00C) 0

/-- The thermal level is LIMIT or above: REDERIVE lanes, host crypto jobs, the Groomer and garbage collection above GC_CRIT pause
(R358). -/
def State.hot (s : State) : Bool := decide (2 ≤ s.fld Reg.THERM_TSTAT 1 0)

/-- A test block is UNUSABLE (Table 19.5). -/
def State.blockBad (s : State) (id : Nat) : Bool := s.fld (bankKey id Reg.BIST_BLK_STAT) 31 29 == 1

/-- The lowest start-up step that has not ended, as BOOTSTAT shows it: 11 in service (R360). -/
def nextStep (done : List Nat) : Nat := ((List.range 10).map (· + 1)).find? (fun n => !(done.contains n)) |>.getD 11
def State.showStep (s : State) : State := s.setFld Reg.SYS_BOOTSTAT 3 0 (nextStep s.boot.done)

/-- A step of the start-up has ended. -/
def State.endStep (s : State) (n : Nat) : State :=
  ({ s with boot := { s.boot with done := if s.boot.done.contains n then s.boot.done else n :: s.boot.done } }).showStep

/-- NOSERVICE (R415): a "Module" block of Table 19.1 is UNUSABLE, the store is READ_ONLY, or the owner-root keys are sealed. -/
def State.noService (s : State) : Bool :=
  s.blockBad 0x04 || s.blockBad 0x05 || s.blockBad 0x06 || s.readOnly || (s.nv.lc != 2 && s.nv.lc != 3)

/-- The module is in service (R360, Table 22.5 SERVICE): step 10 has ended, the life-cycle state is PROVISIONED or
FIELD, and the degraded state is not NOSERVICE. -/
def State.inService (s : State) : Bool := s.fld Reg.SYS_BOOTSTAT 3 0 == 11 && !s.noService

/-- A change of role, band plan or air region is busy: the pairing is ACTIVE or STANDBY (R410), a handover runs, or the shutdown
commit does (R416). -/
def State.modeBusy (s : State) : Bool :=
  s.pairState == 1 || s.pairState == 2 || s.upd.hover.isSome || s.flag Reg.SLALOM_STATUS 29

/-- A host read through its gate: the state after it and the word it answers; a refused read answers 0. -/
def State.hostRead (s : State) (p : Path) (page off : Nat) (f : State → State × Nat) : State × Nat :=
  match s.gate p page off false with
  | .complete s => (s, 0)
  | .proceed s => f s

/-- The state after the answer of a read has left on its path. -/
def answer (p : Path) (r : State × Nat) : State := r.1.send (.word p (BitVec.ofNat 32 r.2))

end Sys2Proof.Machine
end

