-- ==== Sys2Proof/Machine/Keys.lean ====
section
/-!
DEFINITION. Keeper's key slots as other families use them (R286, R287, R292), presence (R296), and the session table's size
(R297).
-/

namespace Sys2Proof.Machine

/-- A slot as it stands. -/
def State.slot (s : State) (n : Nat) : KeySlot := s.nv.slots.getD n {}
def State.setSlot (s : State) (n : Nat) (k : KeySlot) : State :=
  { s with nv := { s.nv with slots := (if k = ({} : KeySlot) then s.nv.slots.del n else s.nv.slots.put n k) } }

/-- TYPE, ROOT, DEST and a usage bit of attributes (Table 14.4): usage 3 ENC, 2 DEC, 1 WRAP, 0 DERIVE. -/
def attrType (a : Nat) : Nat := bits 15 12 a
def attrRoot (a : Nat) : Nat := bits 11 10 a
def attrDest (a : Nat) : Nat := bits 9 6 a
def attrUse (a i : Nat) : Bool := a.testBit (2 + i)

/-- The owner-root keys are sealed (R287): the state is not PROVISIONED or FIELD. -/
def State.sealedRoot (s : State) : Bool := s.nv.lc != 2 && s.nv.lc != 3

/-- The root that the life-cycle state selects, as ROOT codes it (R286). -/
def State.currentRoot (s : State) : Option Nat :=
  if s.nv.lc = 1 then some 0 else if s.nv.lc = 2 ∨ s.nv.lc = 3 then some 1
  else if s.nv.lc = 4 then some 2 else if s.nv.lc = 5 then some 3 else none

/-- A slot's key can be used: it is not EMPTY, and its root is the one in force; a service-root key only in the service session
in which it was created (R287). -/
def State.slotOpen (s : State) (n : Nat) : Bool :=
  have k := s.slot n
  attrType k.attr != 0 && s.currentRoot == some (attrRoot k.attr) && (attrRoot k.attr != 2 || k.made == s.nv.lcCnt)

/-- A slot that a node's join or the service port takes its secret from: SECRET-256 bound to HASH (Table 14.6). -/
def State.secretOpen (s : State) (n : Nat) : Bool :=
  s.slotOpen n && attrType (s.slot n).attr == 4 && attrDest (s.slot n).attr == 2

/-- The node secret ns (Table 14.6). -/
def nodeLabel : List Byte := [0x4B, 0x56, 0x5A, 0x20, 0x6E, 0x6F, 0x64, 0x65]
def State.nodeSecret (s : State) (slot serial : Nat) : Nat :=
  (Config.kdf (s.slot slot).key (beBytes 8 serial ++ nodeLabel)).toNat % 2 ^ 256

/-- The session key that a join derives (Table 14.6): "KLP session" on the line, "KAP session" on the air. -/
def sessionLabel (medium : Nat) : List Byte :=
  [0x4B, if medium = 1 then 0x4C else 0x41, 0x50, 0x20, 0x73, 0x65, 0x73, 0x73, 0x69, 0x6F, 0x6E]
def State.sessionKey (s : State) (medium slot serial challenge nonce : Nat) : Nat :=
  (Config.kdf (s.nodeSecret slot serial) (beBytes 8 challenge ++ beBytes 8 nonce ++ sessionLabel medium)).toNat % 2 ^ 128

/-- The response of a node's secret over a challenge (R296): the first 16 octets of the presence proof of the node secret, which is
derived from the slot and the serial (Table 14.6). -/
def State.proof (s : State) (slot serial challenge : Nat) : Nat :=
  (Config.presence (s.nodeSecret slot serial) challenge).toNat / 2 ^ 128

/-- The entries of the session table in use (R297): one for each node session, one more during a rekey, two for each KFP
session. -/
def State.sessUsed (s : State) : Nat :=
  s.field.nodes.foldl (fun n x => n + b2n x.2.session + b2n (x.2.oldKeyUntil.isSome || x.2.rekey.isSome)) 0 + 2 * (s.sessions.filter (fun x => !x.2.keys.isEmpty)).length

/-- The session table has room for more entries; otherwise SESS_FULL counts and FULL is raised (R297). -/
def State.sessRoom (s : State) (n : Nat) : Bool := decide (s.sessUsed + n ≤ 16384)
def State.sessFull (s : State) : State := (s.bump Reg.KEEP_SESS_FULL).raise 0x40 4

/-- SESS after entries were created. -/
def State.sessMark (s : State) : State :=
  have u := s.sessUsed
  s.setReg Reg.KEEP_SESS (max u (s.fld Reg.KEEP_SESS 30 16) * 65536 + u)

end Sys2Proof.Machine
end

