-- ==== Sys2Proof/Machine/Sweep.lean ====
section
/-!
DEFINITION. The sweep timebase (spec/01_sweep_timebase.md): crossings, lock, holdover and realignment, the period
record, the restart count, and the marks.
-/

namespace Sys2Proof.Machine

/-- The number of a phase. -/
def phaseNo : Phase → Nat
  | .l1 => 1
  | .l2 => 2
  | .l3 => 3

/-- The angle phase: the one REF_SEL names, or L1 (R16). -/
def State.anglePhase (s : State) : Nat :=
  have r := s.fld Reg.SWEEP_LOCKCTL 1 0
  if r = 0 then 1 else r

/-- What the timebase holds about a phase. -/
def State.phase (s : State) (p : Nat) : PhaseRec := s.sweep.phases.getD p {}

/-- The state with a phase's record set. -/
def State.setPhase (s : State) (p : Nat) (r : PhaseRec) : State :=
  { s with sweep := { s.sweep with phases := s.sweep.phases.put p r } }

/-- The offset of a phase against L1: learned, or nominal for a positive phase sequence (R19). -/
def State.phaseOfs (s : State) (p : Nat) : Nat :=
  if p = 1 then 0
  else if (s.phase p).learned then (s.phase p).ofs
  else if p = 2 then 0x5555 else 0xAAAB

/-- The predicted angle of a phase's crossing (R19). -/
def State.predicted (s : State) (p : Nat) : Nat := (s.phaseOfs p + 65536 - s.phaseOfs s.anglePhase) % 65536

/-- The phase error of a crossing: its angle less the predicted one, as a signed 16-bit number. -/
def State.phaseError (s : State) (p : Nat) : Int := toSigned 16 (s.angle + 65536 - s.predicted p)

/-- The cycle to which a crossing at the present instant belongs: the one whose predicted crossing it is. -/
def State.crossingCycle (s : State) (p : Nat) : Nat := ((s.now : Int) - s.predicted p - s.phaseError p).toNat / 65536

/-- The mean period over n cycles corresponds to 45 to 66 Hz; the interval is in units of 125 ps (R442). -/
def periodOk (ival n : Nat) : Bool := decide (ival * 45 ≤ n * 8000000000) && decide (n * 8000000000 ≤ ival * 66)

/-- STATE of LOCKSTAT changes, with its event (Table 1.13). -/
def State.setTimebase (s : State) (v : Nat) : State :=
  if s.timebase = v then s else (s.setFld Reg.SWEEP_LOCKSTAT 2 0 v).raise 0x04 0

/-- PH_PRESENT: the phases with an accepted crossing in the last 3 cycles. -/
def State.present (s : State) : State :=
  have on := fun p => match (s.phase p).accepted with
    | some (c, _) => decide (s.cycle < c + 3)
    | none => false
  s.setFld Reg.SWEEP_LOCKSTAT 10 8 (b2n (on 1) + 2 * b2n (on 2) + 4 * b2n (on 3))

/-- PTP disciplines the reference: PTP.STAT.STATE is SLAVE (R262). -/
def State.ptpSlave (s : State) : Bool := s.fld Reg.PTP_STAT 31 29 == 3

/-- F_NOM of instrument 0x11: 500,000 or 600,000, the nearer to FREQ at the first LOCKED (Table 20.1). -/
def State.fixNominal (s : State) : State :=
  match s.sweep.fNom with
  | some _ => s
  | none => { s with sweep := { s.sweep with fNom := some (if s.reg Reg.SWEEP_FREQ ≤ 550000 then 500000 else 600000) } }

/-- The period entry of a cycle, if the record holds it. -/
def findEntry : List PeriodRun → Nat → Option Nat
  | [], _ => none
  | r :: rs, c => if r.first ≤ c ∧ c < r.first + r.count then some r.entry else findEntry rs c
def State.entry (s : State) (c : Nat) : Option Nat := findEntry s.sweep.record c

/-- The entries of a segment as they are stored: 4 octets each, little-endian (Table 1.7). -/
def State.segEntries (s : State) (first count : Nat) : List Byte :=
  (List.range count).flatMap (fun i => leBytes 4 ((s.entry (first + i)).getD 0))

/-- The octets of a module's serial identity: word 0 first, the most significant octet of each word first. -/
def serialBytes (n : BitVec 128) : List Byte := beBytes 16 n.toNat

/-- The header of a period segment (Table 1.7): `cap` is the start capture of its first entry. -/
def State.segHeader (s : State) (first count flags cap : Nat) : List Byte :=
  leBytes 4 0x4B535052 ++ leBytes 2 1 ++ leBytes 2 flags ++ leBytes 8 first ++ leBytes 8 (cap / 8000000000) ++
    leBytes 4 (cap % 8000000000 / 8) ++ leBytes 4 count ++ serialBytes s.fac.serial ++ leBytes 1 s.anglePhase ++ zeros 15 ++
    beBytes 64 (Config.sha3 (s.segEntries first count)).toNat ++ zeros 128

/-- The open segment closes and waits for its page (R25): it becomes a leaf of the Merkle batch. -/
def State.closeSegment (s : State) (flags : Nat) : State :=
  if s.sweep.segCount = 0 then s
  else
    have head := s.segHeader s.sweep.segFirst s.sweep.segCount flags s.sweep.segCap
    { s with
      led := { s.led with segments := s.led.segments ++ [(s.sweep.segFirst, s.sweep.segCount, flags, s.sweep.segCap)] }
      merk := { s.merk with segs := s.merk.segs ++ [(s.sweep.segFirst, head, s.cycle)] }
      sweep := { s.sweep with segCount := 0 } }

/-- A run of equal entries joins the period record. -/
def recordRun (rs : List PeriodRun) (first n entry : Nat) : List PeriodRun :=
  match rs with
  | r :: rest =>
    if r.entry = entry ∧ r.first + r.count = first then { r with count := r.count + n } :: rest
    else ⟨first, n, entry⟩ :: rs
  | [] => [⟨first, n, entry⟩]

/-- Entries of consecutive cycles are written: they join the record and the open segment, which closes at 4,032
entries (R25). `cap` is the start capture of the first. -/
def State.addEntries (s : State) (first n entry cap : Nat) : Nat → State
  | 0 => s
  | fuel + 1 =>
    if n = 0 then s
    else
      have s := if s.sweep.segCount = 0 then { s with sweep := { s.sweep with segFirst := first, segCap := cap } } else s
      have k := min n (4032 - s.sweep.segCount)
      have s := { s with sweep := { s.sweep with
        record := recordRun s.sweep.record first k entry, segCount := s.sweep.segCount + k } }
      have s := if s.sweep.segCount ≥ 4032 then s.closeSegment 0 else s
      s.addEntries (first + k) (n - k) entry (cap + k * (entry / 8)) fuel

/-- Entries of a run, with fuel enough for every segment it fills. -/
def State.addRun (s : State) (first n entry cap : Nat) : State := s.addEntries first n entry cap (n / 4032 + 2)

/-- The source of a cycle's entry is changed where its end crossing was missed: it is bounded by accepted crossings
no longer and counts as HOLD (R23, R25; log 14). -/
def amendHold : List PeriodRun → Nat → List PeriodRun
  | [], _ => []
  | r :: rs, c =>
    if r.first ≤ c ∧ c < r.first + r.count ∧ r.entry % 4 = 0 then
      have e := r.entry + 1
      (if c + 1 < r.first + r.count then [⟨c + 1, r.first + r.count - (c + 1), r.entry⟩] else [])
        ++ [⟨c, 1, e⟩] ++ (if r.first < c then [⟨r.first, c - r.first, r.entry⟩] else []) ++ rs
    else r :: amendHold rs c

/-- The header of a closed segment with its hash taken anew over the entries as they stand. -/
def State.rehash (s : State) (first : Nat) (head : List Byte) : List Byte :=
  head.take 64 ++ beBytes 64 (Config.sha3 (s.segEntries first (leAt head 0x1C 4))).toNat ++ head.drop 128

/-- Cycle c proves to be bounded by a missed crossing: its entry counts as HOLD, in the record, in SWEEP.PERIOD and in the leaf of its segment,
and the period measured before it holds again (R23, R25). An entry whose segment is a leaf of a closed batch stands as that leaf has it
(log 14). -/
def State.amendEnd (s : State) (c : Nat) : State :=
  have running := decide (s.sweep.segFirst ≤ c) && decide (0 < s.sweep.segCount)
  have leaf := s.merk.segs.any (fun x => decide (x.1 ≤ c) && decide (c < x.1 + leAt x.2.1 0x1C 4))
  match s.entry c with
  | none => s
  | some e =>
    if e % 4 ≠ 0 ∨ !(running || leaf) then s
    else
      have s := { s with sweep := { s.sweep with record := amendHold s.sweep.record c, period := s.sweep.periodBefore } }
      { s.setFld Reg.SWEEP_PERIOD 1 0 1 with merk := { s.merk with segs := s.merk.segs.map (fun x =>
        if x.1 ≤ c ∧ c < x.1 + leAt x.2.1 0x1C 4 then (x.1, s.rehash x.1 x.2.1, x.2.2) else x) } }

/-- What R27 and R362 compute at the first accepted crossing: the restart cycle count, the number of GAP cycles,
their entry word, and OUT_EST. `start` is the counter at the instant at which the sweep starts. -/
structure Restart where
  count : Nat
  gaps : Nat
  gapEntry : Nat
  src : Nat
  est : Nat

/-- PTP's state at the end of C_last, and the capture of that instant (R27): from the last SHUTDOWN record, or from the tick that the VIGIL
stamp names where that is later (R362). -/
def State.lastDisc (s : State) : Bool × Nat :=
  match s.sweep.shutdown, s.sweep.stamp with
  | some (c, _), some t => if c + 1 < t then (s.sweep.stampDisc, s.sweep.stampCap) else (s.sweep.discAtLast, s.sweep.capAtLast)
  | none, some _ => (s.sweep.stampDisc, s.sweep.stampCap)
  | _, none => (s.sweep.discAtLast, s.sweep.capAtLast)

/-- The restart computation (R27, R362, R363). DESIGN CHOICE (log 96): where both estimates exist, the GAP entries divide the outage time of
the larger one, and VIGIL's where they are equal. -/
def State.restart (s : State) (tOut start : Nat) : Restart :=
  match s.sweep.shutdown, s.sweep.stamp with
  | none, none => ⟨1, 0, 0, 3, 0⟩
  | sd, st =>
    have fromSd := match sd with | some (c, _) => c | none => 0
    have fromSt := match st with | some c => c - 1 | none => 0
    have last := max fromSd fromSt
    have pLast := match sd with
      | some (c, e) => if fromSt ≤ c then e / 8 else 160000000
      | none => 160000000
    have vigil := s.sweep.vigilValid && !(s.flag Reg.PWR_CELL 31)
    have ptp := s.lastDisc.1 && s.ptpSlave
    have estV := if vigil then ceilDiv (tOut * 1953125) (8 * pLast) else 0
    have estP := if ptp then ceilDiv (start - s.lastDisc.2) pLast else 0
    have n := max 1 (max estV estP)
    have time := if vigil && (!ptp || decide (estP ≤ estV)) then tOut * 1953125 / (8 * n)
      else if ptp then (start - s.lastDisc.2) / n else pLast
    have src := if vigil && ptp then 2 else if vigil then 0 else if ptp then 1 else 3
    ⟨last + n + 1, n, min (max 1 time) (2 ^ 29 - 1) * 8 + 7, src, n⟩

/-- The first accepted crossing after reset: the sweep starts at `C_new:0000`, the skipped cycles receive GAP
entries, and the timebase enters ACQUIRE (R16, R27, R362, R363). -/
def State.firstCrossing (s : State) (p : Nat) (w : CrossingInput) : State :=
  have ahead := (s.phaseOfs s.anglePhase + 65536 - s.phaseOfs p) % 65536
  have start := s.ptpTime w.cap + w.ival * ahead / 65536
  have r := s.restart w.tOut start
  have s := if r.gaps = 0 then s else s.addRun (r.count - r.gaps) r.gaps r.gapEntry s.lastDisc.2
  have known := r.src == 0 || r.src == 2
  have s := { s with sweep := { s.sweep with
    outage := if r.gaps = 0 then none else some (r.count - r.gaps, r.gaps, r.gapEntry / 8)
    outFrom := s.sweep.vigilLatch
    uptime := s.sweep.uptime + (if known then w.tOut * 1953125 / 8 else 0) } }
  have s := s.setReg Reg.SWEEP_OUT_EST (r.src * 2 ^ 30 + min r.est (2 ^ 30 - 1))
  have s := s.setReg Reg.SWEEP_OUT_VIG (min w.tOut (2 ^ 32 - 1))
  have s := { s with
    now := max s.now (r.count * 65536)
    sweep := { s.sweep with
      period := w.ival, periodBefore := w.ival, startCap := start, tickCap := start, startDisc := s.ptpSlave, src := 0, lockRun := 0, realigned := false
      stamp := some r.count, stampCap := start, stampDisc := s.ptpSlave } }
  have s := s.setPhase p { s.phase p with
    accepted := some (if ahead = 0 then r.count else r.count - 1, 0), before := none, misses := 0 }
  have s := s.setReg Reg.SWEEP_PHOFS (s.phaseOfs 2 + 65536 * s.phaseOfs 3)
  have s := (s.setFld Reg.SWEEP_LOCKSTAT 31 16 0).setFld Reg.SWEEP_LOCKSTAT 5 4 p
  have s := s.present.setTimebase 1
  if r.gaps = 0 then s else s.raise 0x04 1

/-- The tracked phase (LOCKSTAT.TRACK). -/
def State.tracked (s : State) : Nat := s.fld Reg.SWEEP_LOCKSTAT 5 4

/-- The lowest-numbered phase with an accepted crossing and no miss since. -/
def State.lowestAccepted (s : State) : Nat :=
  have ok := fun p => (s.phase p).accepted.isSome && (s.phase p).misses == 0
  if ok 1 then 1 else if ok 2 then 2 else 3

/-- Tracking moves to the crossing's phase when the tracked phase has missed three and this is the lowest-numbered
accepted phase (R20). -/
def State.trackMove (s : State) (p : Nat) : State :=
  if s.tracked ≠ p ∧ 3 ≤ (s.phase s.tracked).misses ∧ s.lowestAccepted = p then
    (s.setFld Reg.SWEEP_LOCKSTAT 5 4 p).raise 0x04 2
  else s

/-- The count towards LOCKED after an accepted crossing of the tracked phase (R22, Table 1.2). -/
def State.lockCount (s : State) (p : Nat) (e : Int) : State :=
  if s.tracked ≠ p ∨ s.timebase ≠ 1 then s
  else
    have run := if e.natAbs ≤ 4 * s.fld Reg.SWEEP_LOCKCTL 15 8 then s.sweep.lockRun + 1 else 0
    have s := { s with sweep := { s.sweep with lockRun := run } }
    if max 4 (s.fld Reg.SWEEP_LOCKCTL 7 4) ≤ run then (s.setTimebase 2).fixNominal else s

/-- The crossing that ends REALIGN (R24, R16): that of the angle phase, which becomes angle 0; while that phase is missing, that of the tracked
one (log 96). -/
def State.endsRealign (s : State) (p : Nat) : Bool :=
  p == s.anglePhase || (p == s.tracked && decide (3 ≤ (s.phase s.anglePhase).misses))

/-- A crossing is accepted: its phase's record, the phase error, and what follows from it. Where the tick that the crossing brings has come
before it, the stretched cycle has ended already. -/
def State.acceptCrossing (s : State) (p : Nat) : State :=
  have e := s.phaseError p
  have ends := s.timebase == 4 && s.endsRealign p
  have s := s.setPhase p { s.phase p with
    ref := true, accepted := some (s.crossingCycle p, e), before := (s.phase p).accepted, misses := 0 }
  have s := (s.setFld Reg.SWEEP_LOCKSTAT 31 16 (ofSigned 16 e)).present
  if ends then
    { s with sweep := { s.sweep with realigned := decide (s.cycle = s.sweep.realignAt), lockRun := 0 } }.setTimebase 1
  else if s.timebase = 4 then s
  else (s.trackMove p).lockCount p e

/-- A crossing that ends HOLDOVER is accepted, `e` from its predicted angle (R24). -/
def State.takeCrossing (s : State) (p : Nat) (e : Int) : State :=
  have s := s.setPhase p { s.phase p with accepted := some (s.crossingCycle p, e), before := none, misses := 0 }
  ((s.setFld Reg.SWEEP_LOCKSTAT 31 16 (ofSigned 16 e)).setFld Reg.SWEEP_LOCKSTAT 5 4 p).present
/-- The count towards LOCKED starts again, and REALIGN where the source calls for it (R24). -/
def State.endHoldover (s : State) (e : Int) : State :=
  have s := { s with sweep := { s.sweep with lockRun := 0, realigned := false, realignAt := s.cycle } }
  if e.natAbs ≤ 0x0800 then s.setTimebase 1
  else { s with sweep := { s.sweep with src := 2 } }.setTimebase 4

/-- A crossing in HOLDOVER (R24): the first one on a phase is its reference; the second, at an interval of 45 to
66 Hz, ends the holdover in ACQUIRE or REALIGN. DESIGN CHOICE (log 96): the phase of the two crossings is then the tracked one, without an
event PHSWAP. -/
def State.holdoverCrossing (s : State) (p : Nat) (ival : Nat) : State :=
  if !(s.phase p).ref || !periodOk ival 1 then s.setPhase p { s.phase p with ref := true }
  else (s.takeCrossing p (s.phaseError p)).endHoldover (s.phaseError p)

/-- CROSSING_DETECTED (R442): the window and frequency tests, and what an accepted crossing does. -/
def execCrossingDetected (t : Angle) (phase : Phase) (w : CrossingInput) (s : State) : Outcome :=
  have s := s.tick t
  have p := phaseNo phase
  .next (
    if s.timebase = 0 then
      if (s.phase p).ref then (if periodOk w.ival 1 then s.firstCrossing p w else s)
      else s.setPhase p { s.phase p with ref := true }
    else if s.timebase = 3 then s.holdoverCrossing p w.ival
    else if (s.phaseError p).natAbs ≤ 0x0800 ∧ periodOk w.ival ((s.phase p).misses + 1) then s.acceptCrossing p
    else s)

/-- Three misses in a row on all three phases: HOLDOVER, with its Logbook entry (R23). -/
def State.enterHoldover (s : State) : State :=
  have clear := fun (s : State) p => s.setPhase p { s.phase p with ref := false }
  have s := clear (clear (clear s 1) 2) 3
  have s := (s.setReg Reg.SWEEP_HOLDCYC 0).setTimebase 3
  s.logEntry 1 0x04 0x0005 (s.cycle % 2 ^ 32)

/-- CROSSING_MISS (R22, R23): a predicted crossing of a phase passes; the cycles it bounded count as HOLD, the count
towards LOCKED starts again, and the third miss on all phases enters HOLDOVER. DESIGN CHOICE (log 102): where the last of these misses is one of
L2 or L3, HOLDOVER is entered at that miss, 0x0800 behind its own predicted angle. -/
def execCrossingMiss (t : Angle) (phase : Phase) (s : State) : Outcome :=
  have s := s.tick t
  have p := phaseNo phase
  .next (
    if s.timebase = 0 ∨ s.timebase = 3 then s
    else
      have s := s.setPhase p { s.phase p with misses := (s.phase p).misses + 1 }
      have s :=
        if s.tracked = p then
          have s := if s.predicted p = 0 then s.amendEnd (s.cycle - 1) else s
          { s with sweep := { s.sweep with
            lockRun := 0
            src := if s.sweep.src = 0 then 1 else s.sweep.src } }
        else s
      if 3 ≤ (s.phase 1).misses ∧ 3 ≤ (s.phase 2).misses ∧ 3 ≤ (s.phase 3).misses then s.enterHoldover else s)

/-- The error of a phase's accepted crossing of a cycle. -/
def PhaseRec.errorIn (x : PhaseRec) (c : Nat) : Option Int :=
  ((x.accepted.toList ++ x.before.toList).find? (fun a => a.1 == c)).map (·.2)

/-- The learned offset of a phase from its differences: their mean, to the nearest tick; a mean half-way between two
ticks goes to a free one of the two (R19; log 2). -/
def State.learn (s : State) (p : Nat) : State :=
  match (s.phase 1).errorIn s.cycle, (s.phase p).errorIn s.cycle with
  | some e1, some ep =>
    if s.timebase = 2 then
      have d := ((s.predicted p : Int) + ep - (s.predicted 1 : Int) - e1) % 65536
      have ds := (d.toNat :: (s.phase p).diffs).take 64
      have sum := ds.foldl (· + ·) 0
      have q := sum / ds.length
      have r := sum % ds.length
      have up := s.drawBit
      have s := if 2 * r = ds.length then up.2 else s
      have ofs := if 2 * r < ds.length then q else if 2 * r > ds.length then q + 1 else q + b2n up.1
      s.setPhase p { s.phase p with diffs := ds, ofs := ofs % 65536, learned := true }
    else s
  | _, _ => s

/-- FREQ of a cycle of `dur` units of 125 ps, in 0.1 mHz; where the quotient is not whole, one of its two neighbours,
free (log 2). -/
def State.setFreq (s : State) (dur : Nat) : State :=
  if dur = 0 then s
  else
    have up := s.drawBit
    have q := 80000000000000 / dur
    if 80000000000000 % dur = 0 then s.setFld Reg.SWEEP_FREQ 23 0 q
    else up.2.setFld Reg.SWEEP_FREQ 23 0 (q + b2n up.1)

/-- The operating hours count while mains are present (R356): 36 s are 0.01 h. -/
def State.countHours (s : State) (dur : Nat) : State :=
  have a := s.sweep.hourAcc + dur
  have s := s.setReg Reg.TAMP_OPHRS (satAdd 32 (s.reg Reg.TAMP_OPHRS) (a / 288000000000))
  { s with sweep := { s.sweep with hourAcc := a % 288000000000, uptime := s.sweep.uptime + dur } }

/-- The angle-0 tick: the cycle count advances by one, the entry of the ended cycle is written, and the VIGIL counter
and the cycle stamp are latched (R25, R27, R362, R19). The entry holds the difference of the two captures as they were taken; the period,
FREQ and the operating hours count the time that passed (DESIGN CHOICE, log 102). -/
def State.sweepCycle (s : State) (cap vigil : Nat) : State :=
  have c := s.cycle
  have held := min (max 1 (cap - s.sweep.tickCap)) (2 ^ 29 - 1)
  have dur := min (max 1 (cap - s.sweep.startCap)) (2 ^ 29 - 1)
  have disc := s.ptpSlave
  have src := if s.timebase = 3 then 1 else if s.timebase = 4 ∨ s.sweep.realigned then 2 else s.sweep.src
  have refq := b2n (!(disc && s.sweep.startDisc))
  have entry := held * 8 + refq * 4 + src
  have s := (s.learn 2).learn 3
  have s := s.setReg Reg.SWEEP_PHOFS (s.phaseOfs 2 + 65536 * s.phaseOfs 3)
  have s := s.setFlag Reg.SWEEP_LOCKSTAT 12 (!((s.phase 2).learned && (s.phase 3).learned))
  have s := s.addRun c 1 entry s.sweep.tickCap
  have s := (s.setReg Reg.SWEEP_PERIOD entry).setFreq dur
  have s := if s.timebase = 3 then s.bump Reg.SWEEP_HOLDCYC else s
  have s := s.countHours dur
  have s := { s with
    now := (c + 1) * 65536
    sweep := { s.sweep with
      period := if src = 0 then dur else s.sweep.period
      periodBefore := if src = 0 then s.sweep.period else s.sweep.periodBefore
      startCap := cap, tickCap := cap, startDisc := disc, vigilLatch := vigil, realigned := false
      stamp := some (c + 1), stampCap := cap, stampDisc := disc
      src := if s.timebase = 3 then 1 else 0 } }
  s.present

/-- The period entries of skipped cycles and the advance of a forward alignment (R28). DESIGN CHOICE (log 96): the open segment closes first, and
the GAP entries of the skipped cycles stand in the next one. -/
def State.forwardAlign (s : State) (target : Nat) : State :=
  if target ≤ s.cycle then s
  else
    have c := s.cycle
    have s := s.closeSegment 2
    have s := s.addRun c (target - c) (b2n (!s.ptpSlave) * 4 + 3) s.sweep.tickCap
    { s with now := max s.now (target * 65536 + s.angle), sweep := { s.sweep with stamp := some target } }.raise 0x04 1

/-- The target of a mark in force: 0 before the first one (Table 1.12). -/
def State.markTarget (s : State) (n : Nat) : Nat := s.sweep.marks.getD n 0

/-- An enabled mark is armed, LATE where its target is past already; one that is not enabled is not (R35). -/
def State.armMark (s : State) (n : Nat) : State :=
  { s with sweep := { s.sweep with armed :=
    (if s.flag (Reg.SWEEP_MARK_CTL n) 0 then s.sweep.armed.put n (decide (s.markTarget n < s.now)) else s.sweep.armed.del n) } }

/-- The target of a mark takes effect (R36). -/
def State.setMark (s : State) (n : Nat) : State :=
  { s with sweep := { s.sweep with marks := s.sweep.marks.put n (s.reg64 (Reg.SWEEP_MARK_AT_LO n) (Reg.SWEEP_MARK_AT_HI n)) } }

/-- The cycles between two sweep times carry GAP entries at a target (R35): the target's own cycle does. -/
def State.inGap (s : State) (target : Nat) : Bool :=
  match s.entry (target / 65536) with
  | some e => e % 4 == 3
  | none => false

/-- A mark fires (R35): FIRED, LATE and MISSED, its routes, and its next repetition. `late` says that the target was
past when the mark was armed, or fell into a GAP. A one-shot is armed no longer. -/
def State.fireMark (s : State) (n : Nat) (late : Bool) : State :=
  have target := s.markTarget n
  have rep := s.fld (Reg.SWEEP_MARK_CTL n) 31 16
  have step := rep * 65536
  have skipped := if rep = 0 then 0 else (s.now - target) / step
  have s := s.setFlag (Reg.SWEEP_MARK_STAT n) 0 true
  have s := if late then (s.setFlag (Reg.SWEEP_MARK_STAT n) 1 true).setFld (Reg.SWEEP_MARK_STAT n) 15 8 (min skipped 255) else s
  have s := if rep = 0 then { s with sweep := { s.sweep with armed := s.sweep.armed.del n } }
    else { s with sweep := { s.sweep with
      marks := s.sweep.marks.put n (target + (skipped + 1) * step), armed := s.sweep.armed.put n false } }
  if s.flag (Reg.SWEEP_MARK_CTL n) 1 then s.raise 0x04 3 else s

/-- The marks that are due with a mark, itself included, in order of their targets (R35): those of an earlier target fire before it. -/
def State.markDue (s : State) (n : Nat) : Bool := (s.sweep.armed.find n).isSome && decide (s.markTarget n ≤ s.now)
def State.dueMarks (s : State) (n : Nat) : List Nat :=
  if s.markDue n then
    sortBy (fun a b => decide (s.markTarget a ≤ s.markTarget b)) ((List.range 16).filter (fun m =>
      m == n || (s.markDue m && decide (s.markTarget m < s.markTarget n))))
  else []

/-- MARK_AT_HI_WRITE (R36): the staged target takes effect, also while the mark is enabled. -/
def effMarkAtHi (n : Nat) (v : Word) (s : State) : WriteResult :=
  .done (((s.setReg (Reg.SWEEP_MARK_AT_HI n) v.toNat).setMark n).armMark n |>.journalConfig (Reg.SWEEP_MARK_AT_HI n))

def execMarkAtHiWrite (t : Angle) (p : Path) (n : Fin 16) (v : Word) (s : State) : Outcome :=
  .next ((s.tick t).hostWrite p 0x04 (0x104 + 0x10 * n.val) (effMarkAtHi n.val v))

/-- A write of MARKn_CTL: a mark that becomes enabled is armed for the target in force (R35, Table 1.12). -/
def effMarkCtl (n : Nat) (v : Word) (s : State) : WriteResult :=
  have was := s.flag (Reg.SWEEP_MARK_CTL n) 0
  (s.plainWrite 0x04 (0x108 + 0x10 * n) v).andThen (fun s => if was && s.flag (Reg.SWEEP_MARK_CTL n) 0 then s else s.armMark n)

/-- The reading of NOW_LO: bits 31:0 of the sweep time, and bits 63:32 into the path's NOW_HI (R17, R276). -/
def State.readNowLo (s : State) (p : Path) : State × Nat :=
  (s.latchAt p Reg.SWEEP_NOW_HI (s.now / 2 ^ 32), s.now % 2 ^ 32)

/-- SWEEP_NOW_READ (R17). -/
def execSweepNowRead (t : Angle) (p : Path) (s : State) : Outcome :=
  .next (answer p ((s.tick t).hostRead p 0x04 0x040 (fun s => s.readNowLo p)))

/-- The cursor of the period record of a path: the cycle it stands at (R26). DESIGN CHOICE (log 96): each path has a cursor of its own, as it has
latches of its own (R276). -/
def State.precCursor (s : State) (p : Path) : Nat :=
  s.latched p Reg.SWEEP_PREC_CUR_LO + 2 ^ 32 * (s.latched p Reg.SWEEP_PREC_CUR_HI % 65536)

/-- A read of PREC_DATA: the entry of the cursor's cycle, 0 where the record does not hold it; the cursor advances
by one in either case (R26). -/
def State.readPrecData (s : State) (p : Path) : State × Nat :=
  have c := s.precCursor p
  have s' := (s.latchAt p Reg.SWEEP_PREC_CUR_LO ((c + 1) % 2 ^ 32)).latchAt p Reg.SWEEP_PREC_CUR_HI ((c + 1) / 2 ^ 32 % 65536)
  (s', (s.entry c).getD 0)

/-- PREC_DATA_READ (R26). -/
def execPrecDataRead (t : Angle) (p : Path) (s : State) : Outcome :=
  .next (answer p ((s.tick t).hostRead p 0x04 0x0A8 (fun s => s.readPrecData p)))

end Sys2Proof.Machine
end

