-- ==== Sys2Proof/Machine/Timing.lean ====
section
/-!
DEFINITION. How long things last on the media: frames and exchanges of the line channel (R55 to R60, R76, R81, R88,
R91, R92), of the air channel (R95, R98, R108, R109) and of the field loops (R129, R132, R133), in cycles or ticks.
-/

namespace Sys2Proof.Machine

/-- SWEEP.FREQ in 0.1 mHz; 50 Hz before it has been measured. -/
def State.freqWord (s : State) : Nat :=
  have f := s.fld Reg.SWEEP_FREQ 23 0
  if f = 0 then 500000 else f

/-- A time in ns as ticks at the present frequency, to the nearest tick. -/
def State.nsTicks (s : State) (ns : Nat) : Nat := (2 * ns * s.freqWord * 65536 + 10000000000000) / 20000000000000

/-- A time in ns as ticks at the present frequency, rounded up. -/
def State.nsTicksUp (s : State) (ns : Nat) : Nat := ceilDiv (ns * s.freqWord * 65536) 10000000000000

/-- The band plan in force: 0 OFF, 1 CEN-A, 2 FCC-L (Table 3.11). -/
def State.plan (s : State) : Nat :=
  have p := s.fld Reg.LINEC_BANDCFG 1 0
  if p = 3 then 0 else p

/-- A symbol with its prefix in ns, and the carriers of a sub-band (Table 3.1). -/
def symbolNs (plan : Nat) : Nat := if plan = 2 then 560000 else 2240000
def carriers (plan : Nat) : Nat := if plan = 2 then 85 else 49

/-- Bits per carrier and repetition of a mode (Table 3.4); a value above 4 would be ×6 (log 99). -/
def modeBits (mode : Nat) : Nat := if mode = 0 then 3 else if mode = 1 then 2 else 1
def modeRep (mode : Nat) : Nat := if mode = 3 then 4 else if 4 ≤ mode then 6 else 1

/-- Symbols of a frame with a payload of `len` octets (Table 3.2). -/
def frameSymbols (plan mode len : Nat) : Nat :=
  have r := modeRep mode
  if mode ≤ 2 then 4 + ceilDiv (2 * (8 * len + 22)) (carriers plan * modeBits mode)
  else 4 + 2 * r + ceilDiv (2 * r * (8 * len + 22)) (carriers plan)

/-- The SYNC-A symbols of a long preamble (Table 3.11). -/
def State.longSym (s : State) : Nat := max 16 (s.fld Reg.LINEC_LONGPRE 11 0)

/-- The inter-frame space in ns (Table 3.11). -/
def State.ifsNs (s : State) : Nat := 1000 * max 500 (s.fld Reg.LINEC_LINKCFG 31 16)

/-- The phase of a line lane (R56). -/
def lanePhase (lane : Nat) : Nat := lane / 2 + 1

/-- The frame start angle of a lane's phase, as ticks from the start of a cycle (R58). -/
def State.frameStart (s : State) (lane : Nat) : Nat :=
  s.predicted (lanePhase lane) + s.fld (Reg.LINEC_FSA_P1 + 4 * (lanePhase lane - 1)) 15 0

/-- The pilot phase, and whether pilot windows are kept (R91, Table 4.7). -/
def State.pilotPhase (s : State) : Nat :=
  have p := s.fld Reg.LINEM_PILOTCFG 17 16
  if p = 0 then 3 else p
def State.pilotOn (s : State) : Bool := s.pairState == 1 || s.pairState == 2

/-- The pilot window of a cycle, as ticks from the start of that cycle: first tick, and the tick after it (R91). -/
def State.pilotWindow (s : State) (cycle : Nat) : Nat × Nat :=
  have sym := s.nsTicks (symbolNs s.plan)
  have g := s.nsTicks 200000
  (0x2000 - g, if cycle % 8 = 0 then 0x2000 + 2 * sym + 3 * g else 0x2000 + sym + g)

/-- The start of a symbol that would start at `pos`: the end of the pilot window where it would overlap one (R92). -/
def State.pilotPause (s : State) (pos sym : Nat) : Nat :=
  have c := (pos + sym) / 65536
  have w := s.pilotWindow c
  if pos < c * 65536 + w.2 ∧ c * 65536 + w.1 < pos + sym then c * 65536 + w.2 else pos

/-- The end of n symbols sent from `pos` on around the pilot windows (R92). -/
def State.walkSymbols (s : State) (sym : Nat) : Nat → Nat → Nat
  | 0, pos => pos
  | n + 1, pos => s.walkSymbols sym n (s.pilotPause pos sym + sym)

/-- Cycles that a frame of n symbols occupies on a lane when it starts in a cycle (R59): up to the first frame start
angle that follows its last sample by at least IFS, with the margin of 1 %; with the pause of R92 on the pilot
phase. -/
def State.occupies (s : State) (lane n cycle : Nat) : Nat :=
  if s.pilotOn ∧ lanePhase lane = s.pilotPhase then
    have start := cycle * 65536 + s.frameStart lane
    have stop := s.walkSymbols (s.nsTicks (symbolNs s.plan)) n start
    ceilDiv ((stop - start + s.nsTicksUp s.ifsNs) * 101) 6553600
  else ceilDiv ((n * symbolNs s.plan + s.ifsNs) * 101 * s.freqWord) 1000000000000000

/-- Cycles that a frame of a mode and length occupies. -/
def State.frameCycles (s : State) (lane mode len cycle : Nat) : Nat :=
  s.occupies lane (frameSymbols s.plan mode len) cycle

/-- Cycles after a start cycle at which a sequence of frames, as (mode, length), ends (R76). -/
def State.framesEnd (s : State) (lane : Nat) : List (Nat × Nat) → Nat → Nat
  | [], c => c
  | (mode, len) :: fs, c => s.framesEnd lane fs (c + s.frameCycles lane mode len c)

/-- The frames of an exchange over hops with the given modes: all downward ones, then all upward ones (R76, R85). -/
def exchangeFrames (modes : List Nat) (down up : Nat) : List (Nat × Nat) :=
  modes.map (fun m => (m, down)) ++ modes.reverse.map (fun m => (m, up))

/-- Slots that an exchange spans from its start cycle: 2 cycles each (R76). -/
def State.exchangeSlots (s : State) (lane : Nat) (modes : List Nat) (down up cycle : Nat) : Nat :=
  ceilDiv (s.framesEnd lane (exchangeFrames modes down up) cycle - cycle) 2

/-- The line beacon settings in force (Table 4.7): BCN_INT, JOIN_N, LEVEL_MAX. -/
def State.lineBcn (s : State) : Nat := clampNat 64 4096 (s.fld Reg.LINEM_BCNCFG 31 16)
def State.lineJoinN (s : State) : Nat := s.fld Reg.LINEM_BCNCFG 15 12
def State.levelMax (s : State) : Nat := min 6 (s.fld Reg.LINEM_BCNCFG 2 0)

/-- A beacon span and a join span of a lane, in cycles, and the whole beacon hold (R81): a BEACON has 26 octets and a
JREQ 23. On the pilot phase, where an occupancy depends on its cycle, every span of a hold is taken as that of the beacon's cycle
(DESIGN CHOICE, log 102). -/
def State.beaconSpan (s : State) (lane cycle : Nat) : Nat := s.frameCycles lane 3 26 cycle
def State.joinSpan (s : State) (lane cycle : Nat) : Nat := s.frameCycles lane 3 23 cycle
def State.beaconHold (s : State) (lane cycle : Nat) : Nat :=
  (1 + s.levelMax) * s.beaconSpan lane cycle + s.lineJoinN * s.joinSpan lane cycle

/-- The first cycle after the beacon hold of a line lane, or the present one outside a hold (R81, R82). -/
def State.lineHoldEnd (s : State) (lane : Nat) : Nat :=
  have c := s.cycle / s.lineBcn * s.lineBcn
  max s.cycle (c + s.beaconHold lane c)

/-- Cycles that n symbols and the inter-frame space fill on a lane from a cycle on, without the margin of R59, with the pauses of R92
on the pilot phase. -/
def State.bareCycles (s : State) (lane n cycle : Nat) : Nat :=
  if s.pilotOn ∧ lanePhase lane = s.pilotPhase then
    have start := cycle * 65536 + s.frameStart lane
    ceilDiv (s.walkSymbols (s.nsTicks (symbolNs s.plan)) n start - start + s.nsTicksUp s.ifsNs) 65536
  else ceilDiv ((n * symbolNs s.plan + s.ifsNs) * s.freqWord) 10000000000000

/-- The length in cycles of a line search window that begins in a cycle: the POLL at ×4 behind a long preamble, and a 24-octet response
at ×4 (R88, which gives 60 and 71 cycles; log 15). -/
def State.searchLen (s : State) (lane cycle : Nat) : Nat :=
  have poll := s.bareCycles lane (s.longSym + frameSymbols s.plan 3 8) cycle
  poll + s.bareCycles lane (frameSymbols s.plan 3 24) (cycle + poll)

/-- SEARCH_INT of the line channel. -/
def State.lineSearchInt (s : State) : Nat := max 500 (s.fld Reg.LINEM_SRCHCFG 15 0)

/-- The first even cycle at or after `c` from which `len` cycles lie clear of every beacon hold (R88). -/
def clearStart (bcn : Nat) (hold len : Nat → Nat) : Nat → Nat → Nat
  | 0, c => c
  | fuel + 1, c =>
    have c := c + c % 2
    have b := c - c % bcn
    if c % bcn < hold b then clearStart bcn hold len fuel (b + hold b)
    else if bcn < c % bcn + len c then clearStart bcn hold len fuel (b + bcn + hold (b + bcn))
    else c

/-- The start of the search window that is due in the k-th span of SEARCH_INT cycles (R88). -/
def State.windowOf (s : State) (lane k : Nat) : Nat :=
  clearStart s.lineBcn (s.beaconHold lane) (s.searchLen lane) 4 (k * s.lineSearchInt + s.lineSearchInt / 2)

/-- The start of the search window that a cycle lies in or before: that of the span before, where beacon holds have pushed it on, or
that of the cycle's own (R88). -/
def State.searchStart (s : State) (lane cycle : Nat) : Nat :=
  have k := cycle / s.lineSearchInt
  have prev := s.windowOf lane (k - 1)
  if cycle < prev + s.searchLen lane prev then prev else s.windowOf lane k

/-- The part of [a, b) that recurring spans of length l, at offset o in every t, cover. -/
def spanUpTo (t o l x : Nat) : Nat := if x ≤ o then 0 else (x - o) / t * l + min ((x - o) % t) l
def spanOverlap (t o l a b : Nat) : Nat := spanUpTo t o l b - spanUpTo t o l a

/-- The part of [a, b) that spans take which recur on a line lane every t cycles from a cycle on, each as long as `len` says for its
cycle. On the pilot phase their lengths recur with every eighth of them, as the pilot windows do (R92). -/
def State.laneOverlap (s : State) (lane t first : Nat) (len : Nat → Nat) (a b : Nat) : Nat :=
  if s.pilotOn ∧ lanePhase lane = s.pilotPhase then
    (List.range 8).foldl (fun n j =>
      n + spanOverlap (8 * t * 65536) ((first + j * t) * 65536) (len (first + j * t) * 65536) a b) 0
  else spanOverlap (t * 65536) (first * 65536) (len first * 65536) a b

/-- The octet time of a rate code in thirds of a µs (Table 5.2). -/
def octetTime (rate : Nat) : Nat := if rate = 1 then 240 else if rate = 2 then 160 else 480

/-- The rate code of an air lane; 3 acts as 0 (Table 5.9). -/
def State.airRate (s : State) (lane : Nat) : Nat :=
  have r := s.fld (Reg.AIR_RFCFG lane) 9 8
  if r = 3 then 0 else r

/-- The airtime of a frame with a PSDU of n octets on a lane, in thirds of a µs (R95). -/
def State.airtime (s : State) (lane n : Nat) : Nat :=
  (clampNat 4 64 (s.fld (Reg.AIR_RFCFG lane) 7 0) + 4 + n) * octetTime (s.airRate lane)

/-- A frame's charge against a duty budget: its airtime in ms, rounded up (R114). -/
def State.airCharge (s : State) (lane n : Nat) : Nat := ceilDiv (s.airtime lane n) 3000

/-- A time in thirds of a µs as ticks at the present frequency, rounded up (R109). -/
def State.thirdsTicks (s : State) (u : Nat) : Nat := ceilDiv (u * s.freqWord * 65536) 30000000000

/-- The ticks an air exchange occupies its lane: module's frame, 1 ms, node's frame, 1 ms (R109). -/
def State.airExchange (s : State) (lane down up : Nat) : Nat :=
  s.thirdsTicks (s.airtime lane down + s.airtime lane up + 6000)

/-- Air beacon settings (Table 5.13), and the beacon hold in thirds of a µs (R108). -/
def State.airBcn (s : State) : Nat := clampNat 64 4096 (s.fld Reg.AIRM_BCNCFG 31 16)
def State.airJoinN (s : State) : Nat := s.fld Reg.AIRM_BCNCFG 15 12
def State.airHold (s : State) (lane : Nat) : Nat :=
  s.airtime lane 47 + 3000 + s.airJoinN * (s.airtime lane 32 + 3000)

/-- The end of the beacon hold of an air lane, or the present sweep time outside one (R107, R108). -/
def State.airHoldEnd (s : State) (lane : Nat) : Nat :=
  max s.now (s.cycle / s.airBcn * s.airBcn * 65536 + s.thirdsTicks (s.airHold lane))

/-- SEARCH_INT and SRCH_LEN of the air channel (Table 5.13). -/
def State.airSearchInt (s : State) : Nat := max 500 (s.fld Reg.AIRM_SRCHCFG 31 16)
def State.airSearchLen (s : State) : Nat := clampNat 16 (s.airSearchInt / 4) (s.fld Reg.AIRM_SRCHCFG 15 0)

/-- A loop's time in octets as ns (R129), and TURN (Table 6.7). -/
def loopOctetNs : Nat := 256000
def State.loopTurn (s : State) (n : Nat) : Nat := clampNat 2 15 (s.fld (Reg.LOOP_KLLCFG n) 7 4)

/-- The ticks a loop exchange occupies its loop: the module's frame, TURN, the response and TURN again (R133). -/
def State.loopExchange (s : State) (n down up : Nat) : Nat :=
  s.nsTicksUp ((down + up + 2 * s.loopTurn n) * loopOctetNs)

end Sys2Proof.Machine
end

