-- ==== Sys2Proof/Machine/Capacity.lean ====
section
/-!
DEFINITION. The channels and duty budgets of the air lanes (R94, R96, R98, R114 to R117), and the capacity of every
resource up to a deadline (Capacity and the retry reserve, R40, Table 2.12).
-/

namespace Sys2Proof.Machine

/-- The region in force: 0 OFF, 1 EU868, 2 US915; 3 acts as OFF, and so does the PAN identifier 0xFFFF. -/
def State.region (s : State) : Nat :=
  have r := s.fld Reg.AIRC_REGCFG 1 0
  if r = 3 ∨ s.fld Reg.AIRM_PANCFG 15 0 = 0xFFFF then 0 else r

/-- A rate's channels lie on the 400 kHz grid (Table 5.2). -/
def wideGrid (rate : Nat) : Bool := rate == 1 || rate == 2

/-- The centre of a channel in kHz (R96). -/
def channelKhz (region rate ch : Nat) : Nat :=
  if region = 1 then (if wideGrid rate then 863225 + 400 * ch else 863125 + 200 * ch)
  else (if wideGrid rate then 902400 + 400 * ch else 902200 + 200 * ch)

/-- The number of channels of a grid (R96). -/
def channelCount (region rate : Nat) : Nat :=
  if region = 1 then (if wideGrid rate then 17 else 34) else (if wideGrid rate then 64 else 129)

/-- The EU868 sub-bands: first and last kHz, budget in ms per hour, ERP limit in dBm (Table 5.3). -/
def subBands : List (Nat × Nat × Nat × Nat) :=
  [(863000, 865000, 3600, 14), (865000, 868000, 36000, 14), (868000, 868600, 36000, 14),
   (868700, 869200, 3600, 14), (869400, 869650, 360000, 27), (869700, 870000, 36000, 14)]

/-- The sub-band that holds a channel's whole grid width, if any (R96). -/
def subBandOf (rate ch : Nat) : Option Nat :=
  have half := if wideGrid rate then 200 else 100
  have c := channelKhz 1 rate ch
  if channelCount 1 rate ≤ ch then none
  else subBands.findIdx? (fun b => decide (b.1 ≤ c - half) && decide (c + half ≤ b.2.1))

/-- The enabled US915 channels of a grid, lowest first (US_MASK0 to 4). -/
def State.usChannels (s : State) (rate : Nat) : List Nat :=
  (List.range (channelCount 2 rate)).filter (fun c => s.flag (Reg.AIRC_US_MASK0 + 4 * (c / 32)) (c % 32))

/-- HOP_CYC and HOP_MUL (Table 5.11). -/
def State.hopCyc (s : State) : Nat := clampNat 4 16 (s.fld Reg.AIRC_HOPCFG 7 0)
def State.hopMul (s : State) : Nat := s.fld Reg.AIRC_HOPCFG 23 16

/-- The channel of a lane in a US915 hop slot (R98). -/
def State.hopChannel (s : State) (lane slot : Nat) : Nat :=
  have cs := s.usChannels (s.airRate lane)
  have n := cs.length
  if n = 0 then 0 else cs.getD ((slot * s.hopMul + lane * (n / 2)) % n) 0

/-- The channel of a lane in a cycle (R98). -/
def State.airChannel (s : State) (lane cycle : Nat) : Nat :=
  if s.region = 2 then s.hopChannel lane (cycle / s.hopCyc) else s.fld (Reg.AIR_CHAN lane) 7 0

/-- The budget of a US915 channel, by its number on the 200 kHz or on the 400 kHz grid (R115). -/
def gridKey (rate ch : Nat) : Nat := if wideGrid rate then 512 + ch else 256 + ch

/-- The selection a lane's transmissions of a cycle are charged to: a sub-band, or a US915 channel's. -/
def State.budgetKey (s : State) (lane cycle : Nat) : Option Nat :=
  if s.region = 1 then subBandOf (s.airRate lane) (s.airChannel lane cycle)
  else if s.region = 2 then some (gridKey (s.airRate lane) (s.airChannel lane cycle)) else none

/-- The budget of a selection in ms, and its window in seconds (R114, R115). -/
def budgetOf (key : Nat) : Nat := if key < 256 then (subBands.getD key (0, 0, 0, 0)).2.2.1 else 400
def budgetWindow (key : Nat) : Nat := if key < 256 then 3600 else if key < 512 then 20 else 10

/-- The second of uptime that the current bin covers. -/
def State.second (s : State) : Nat := s.uptime / 8000000000

/-- What the preloaded bins still add at a second (R117). -/
def State.preloaded (s : State) (key sec : Nat) : Nat :=
  match s.field.coldUntil with
  | some c => (c + budgetWindow key - sec) * (budgetOf key / budgetWindow key)
  | none => 0

/-- The usage of a selection's window at a second (R114, R115). -/
def State.usageAt (s : State) (key sec : Nat) : Nat :=
  ((s.field.bins.getD key []).filter (fun b => sec < b.sec + budgetWindow key)).foldl (fun a b => a + b.ms) 0
    + s.preloaded key sec
/-- The second of uptime in which a later sweep time falls. -/
def State.secondAt (s : State) (time : Nat) : Nat := (s.uptime + (time - s.now) * s.sweep.period / 65536) / 8000000000
def State.usage (s : State) (key : Nat) : Nat := s.usageAt key s.second

/-- Whether a variant has a resource (Tables 0.3 and 2.12). -/
def resourceInVariant (v : Variant) (r : Nat) : Bool :=
  if r ≤ 5 then v != .h
  else if r = 8 ∨ r = 9 then v == .f || v == .n
  else if 0x0C ≤ r ∧ r ≤ 0x0F then v == .f || v == .s
  else decide (0x10 ≤ r ∧ r ≤ 0x23) || r == 0x28 || decide (0x30 ≤ r ∧ r ≤ 0x32) || r == 0x38

/-- The page of a lane, loop, FCA lane, engine or port (Table 23.1). -/
def resourcePage (r : Nat) : Nat :=
  if r ≤ 5 then 0x08 + r else if r = 8 then 0x10 else if r = 9 then 0x11
  else if 0x0C ≤ r ∧ r ≤ 0x0F then 0x14 + (r - 0x0C)
  else if 0x10 ≤ r ∧ r ≤ 0x1F then 0x20 + (r - 0x10)
  else if 0x20 ≤ r ∧ r ≤ 0x23 then 0x41 + (r - 0x20)
  else if r = 0x28 then 0x38 else if r = 0x30 then 0x50 else if r = 0x31 then 0x51 else if r = 0x32 then 0x53
  else 0x05

/-- The test block of a resource (Table 19.1); the stripe programs of 0x28 need LEDGER-CALC. -/
def resourceBlock (r : Nat) : Option Nat :=
  if r ≤ 5 then some (0x20 + r / 2) else if r = 8 ∨ r = 9 then some (0x23 + (r - 8))
  else if 0x0C ≤ r ∧ r ≤ 0x0F then some (0x25 + (r - 0x0C))
  else if 0x10 ≤ r ∧ r ≤ 0x1F then some r
  else if 0x20 ≤ r ∧ r ≤ 0x22 then some (0x08 + (r - 0x20))
  else if r = 0x23 then some 0x07 else if r = 0x28 then some 0x06
  else if r = 0x30 ∨ r = 0x31 then some 0x0B else if r = 0x32 then some 0x0C else none

/-- A unit is FAILED: its domain, its test block (R377), or the PQC engine itself (R323). -/
def State.resFailed (s : State) (r : Nat) : Bool :=
  s.dom (pageDomain (resourcePage r)) == 4 ||
    (match resourceBlock r with | some b => s.fld (bankKey b Reg.BIST_BLK_STAT) 31 29 == 1 | none => false) ||
    (r == 0x23 && s.fld (Reg.CRY_ESTAT 3) 31 29 == 4)

/-- A unit is absent or FAILED: its requests are refused RESOURCE_ABSENT (R41). -/
def State.resAbsent (s : State) (r : Nat) : Bool := !(resourceInVariant s.fac.variant r) || s.resFailed r

/-- A unit is lost, FAILED or disabled (Table 2.11); the ledger commit resource is lost while the store is READ_ONLY (R238). -/
def State.resLost (s : State) (r : Nat) : Bool :=
  s.resAbsent r || (s.slalom.lost.find r).isSome || (r == 0x28 && s.readOnly) ||
    (decide (r ≤ 0x0F) && !(s.laneEnabled (resourcePage r))) ||
    (decide (r ≤ 5) && s.plan == 0) || ((r == 8 || r == 9) && s.region == 0) ||
    (decide (0x0C ≤ r ∧ r ≤ 0x0F) && s.fld (Reg.LOOP_SUPSTAT (r - 0x0C)) 31 29 != 3)

/-- The HASH and the PQC engine serve (Table 19.2). -/
def State.hashRuns (s : State) : Bool := !s.resLost 0x22
def State.pqcRuns (s : State) : Bool := !s.resLost 0x23

/-- RES_RETRY of a resource (Table 2.3). -/
def State.retryShare (s : State) (r : Nat) : Nat := s.fld (bankKey r Reg.SLALOM_RES_RETRY) 7 0

/-- The share of a resource that admission may fill, in 1/256: all but the retry share, and of the PQC engine at most 216 (R40,
R324). -/
def State.admitShare (s : State) (r : Nat) : Nat :=
  if r = 0x23 then min 216 (256 - s.retryShare r) else 256 - s.retryShare r

/-- RES_STAT.CAP: ticks per cycle. -/
def State.capPerCycle (s : State) (r : Nat) : Nat :=
  if s.resLost r then 0
  else if r = 0x28 then 65536 - 256 * clampNat 16 192 (s.fld Reg.LEDG_CFG 23 16)
  else if r = 0x30 ∨ r = 0x31 then 65536 - 256 * s.fld Reg.FEED_CFG 15 8
  else if 0x0C ≤ r ∧ r ≤ 0x0F then 65536 - s.nsTicks 2816000
  else 65536

/-- Air beacons of a lane due after now and before a deadline. -/
def State.beaconsBefore (s : State) (d : Nat) : Nat := (d - 1) / 65536 / s.airBcn - s.now / 65536 / s.airBcn

/-- What the beacons before a deadline charge in ms to a budget that a lane shares with the other: those of the lane, and those of the
other one while it serves on the same budget (R114 to R116). -/
def State.beaconCharge (s : State) (lane d : Nat) : Nat :=
  have other := 1 - lane
  have shared := !(s.resLost (8 + other)) && (if s.region = 1 then s.budgetKey other s.cycle == s.budgetKey lane s.cycle
    else wideGrid (s.airRate other) == wideGrid (s.airRate lane))
  s.beaconsBefore d * (s.airCharge lane 47 + if shared then s.airCharge other 47 else 0)

/-- The airtime, in ticks, that the budget of a lane's selection leaves free at a deadline: the budget less the usage that has not expired
by then and the beacons before it; for US915 over the enabled channels (R116). -/
def State.airBudgetTicks (s : State) (lane d : Nat) : Nat :=
  have at' := s.secondAt d
  if s.region = 1 then
    match s.budgetKey lane s.cycle with
    | some key => s.thirdsTicks (3000 * (budgetOf key - s.usageAt key at' - s.beaconCharge lane d))
    | none => 0
  else
    have rate := s.airRate lane
    have free := (s.usChannels rate).foldl (fun a c => a + (400 - s.usageAt (gridKey rate c) at')) 0
    s.thirdsTicks (3000 * (free - s.beaconCharge lane d))

/-- The time the media hold in a lane between two sweep times, in ticks: beacon holds and search windows (R81, R88,
R108, R112) and the SYNCs of a loop (R132). A line search window is counted at the cycle where it falls due (log
11). -/
def State.heldTicks (s : State) (r a b : Nat) : Nat :=
  if r ≤ 5 then
    s.laneOverlap r s.lineBcn 0 (s.beaconHold r) a b
      + s.laneOverlap r s.lineSearchInt (s.lineSearchInt / 2) (s.searchLen r) a b
  else if r = 8 ∨ r = 9 then
    spanOverlap (s.airBcn * 65536) 0 (s.thirdsTicks (s.airHold (r - 8))) a b
      + spanOverlap (s.airSearchInt * 65536) (s.airSearchInt / 2 * 65536) (s.airSearchLen * 65536) a b
  else 0

/-- The sweep time from which the lanes and loops have capacity: field start, which is taken at the latest end that Table 18.1 gives
step 10, and the end of a switch-over gap (R51, R338; log 98). -/
def State.mediaFrom (s : State) : Nat :=
  if s.boot.done.contains 10 then max s.now s.field.gapUntil
  else max (s.now + s.nsTicksUp (5500000000 - s.uptime / 8)) s.field.gapUntil

/-- The capacity of a resource between now and a deadline, in ticks, before any budget bound (R40). -/
def State.timeCap (s : State) (r d : Nat) : Nat :=
  have start := if r ≤ 0x0F then min (max d s.now) s.mediaFrom else s.now
  s.capPerCycle r * (d - start) / 65536 - (if s.resLost r then 0 else s.heldTicks r start (max start d))

/-- The capacity with the budget bound of an air lane, and whether the bound is what limits it (R41, R116). -/
def State.capTo (s : State) (r d : Nat) : Nat × Bool :=
  have c := s.timeCap r d
  if (r = 8 ∨ r = 9) ∧ !(s.resLost r) then
    have b := s.airBudgetTicks (r - 8) d
    if b < c then (b, true) else (c, false)
  else (c, false)

end Sys2Proof.Machine
end

