-- ==== Sys2Proof/Machine/Slalom.lean ====
section
/-!
DEFINITION. Slalom (spec/02_slalom_admission.md): the admission test, preemption, the search for the earliest feasible
deadline, outcomes and their ring, retries, recomputation and revocation.
-/

namespace Sys2Proof.Machine

/-- Reason codes of Table 2.4 that more than one definition uses. -/
abbrev Reason.energy : Nat := 0x03
abbrev Reason.retry : Nat := 0x20

/-- An obligation ID (R53): the calendar index below the generation. -/
def oblId (idx : Nat) (o : Obligation) : Nat := idx + o.gen * 2 ^ 20

/-- The obligation an ID names, while it is in the calendar under that generation (R53). -/
def State.obl (s : State) (id : Nat) : Option Obligation :=
  match s.slalom.calendar.find (id % 2 ^ 20) with
  | some o => if o.gen = id / 2 ^ 20 then some o else none
  | none => none

/-- CAL_USED, HWM and the class counts after the calendar changed (Table 2.9). -/
def State.calCounts (s : State) : State :=
  have n := s.slalom.calendar.length
  have s := s.setFld Reg.SLALOM_STATUS 20 0 n
  have s := if s.fld Reg.SLALOM_CAL_HWM 20 0 < n then s.setFld Reg.SLALOM_CAL_HWM 20 0 n else s
  (List.range 5).foldl (fun s c =>
    s.setFld (Reg.SLALOM_CLS0 + 4 * c) 20 0 (s.slalom.calendar.filter (fun p => p.2.cls = c)).length) s

/-- The state with a calendar. -/
def State.setCalendar (s : State) (c : SMap Obligation) : State :=
  { s with slalom := { s.slalom with calendar := c } }.calCounts

/-- The obligation at an index changed. -/
def State.modObl (s : State) (idx : Nat) (f : Obligation → Obligation) : State :=
  { s with slalom := { s.slalom with calendar := s.slalom.calendar.modify idx f } }

/-- The obligation with an ID changed, while it is open under that ID (R53). -/
def State.modId (s : State) (id : Nat) (f : Obligation → Obligation) : State :=
  if (s.obl id).isSome then s.modObl (id % 2 ^ 20) f else s

/-- The work of an obligation on a resource. -/
def Obligation.work (o : Obligation) (r : Nat) : Nat := o.rest.getD r 0

/-- Numbers in rising order without repeats, with one more. -/
def insertUp (x : Nat) : List Nat → List Nat
  | [] => [x]
  | y :: ys => if x < y then x :: y :: ys else if x = y then y :: ys else y :: insertUp x ys

/-- The check points of `fits` on a resource: dq and every deadline at or after it (R41). -/
def checkPoints (cal : SMap Obligation) (r dq : Nat) : List Nat :=
  cal.foldl (fun l p => if 0 < p.2.work r ∧ dq ≤ p.2.deadline then insertUp p.2.deadline l else l) [dq]

/-- The demand on a resource up to a check point. -/
def demandTo (cal : SMap Obligation) (r d : Nat) : Nat :=
  cal.foldl (fun a p => if p.2.deadline ≤ d then a + p.2.work r else a) 0

/-- The ticks of (end, ticks) entries that end after now and by a deadline. -/
def State.spansTo (s : State) (l : List (Nat × Nat)) (d : Nat) : Nat :=
  (l.filter (fun p => s.now < p.1 ∧ p.1 ≤ d)).foldl (fun a p => a + p.2) 0

/-- The first check point at which a resource fails, with the refusal reason (R41). -/
def State.failsOn (s : State) (cal : SMap Obligation) (r extra : Nat) : List Nat → Option (Nat × Nat)
  | [] => none
  | d :: ds =>
    have c := s.capTo r d
    if extra + demandTo cal r d + s.spansTo (s.slalom.drawn.getD r []) d > s.admitShare r * c.1 / 256 then
      some (d, if c.2 then 0x06 else 0x02)
    else s.failsOn cal r extra ds

/-- E_RECCAP in units of 1/4096 mJ (Table 2.10). -/
def State.recCap (s : State) : Nat := (1200 - s.fac.eFix) * 4096

/-- The work of a request on its resources, tested one after the other. -/
def State.fitsWork (s : State) (cal : SMap Obligation) (dq : Nat) : SMap Nat → Option (Nat × Nat × Nat)
  | [] => none
  | (r, w) :: rest =>
    match s.failsOn cal r w (checkPoints cal r dq) with
    | some (d, reason) => some (reason, r, d)
    | none => s.fitsWork cal dq rest

/-- Work that starts at once finds room on a resource in capacity admitted to no one: beside it, the demand up to the deadline of every
admitted obligation still fits, and it takes no retry share (R40, R82). Work that is done at once has no deadline of its own to be
judged by: logs 74 and 97. -/
def State.spareFits (s : State) (r w : Nat) : Bool :=
  !s.resLost r && (s.failsOn s.slalom.calendar r w
    (s.slalom.calendar.foldl (fun l p => if 0 < p.2.work r ∧ s.now < p.2.deadline then insertUp p.2.deadline l else l) [])).isNone

/-- `fits` of R41: none where the request fits, else the reason, the failing resource and the check point. -/
def State.fits (s : State) (cal : SMap Obligation) (q : Obligation) (dq : Nat) : Option (Nat × Nat × Nat) :=
  match s.fitsWork cal dq q.rest with
  | some f => some f
  | none => if q.cls = 0 ∧ s.recCap < q.energy then some (Reason.energy, 0, 0) else none

/-- One obligation comes before another as a victim: lower class, then later deadline, then later admitted (R43,
R49). -/
def victimBefore (a b : Obligation) : Bool :=
  if a.cls ≠ b.cls then decide (b.cls < a.cls)
  else if a.deadline ≠ b.deadline then decide (b.deadline < a.deadline)
  else decide (b.order < a.order)

/-- The first victim among the eligible obligations of a calendar. -/
def pickVictim (cal : SMap Obligation) (ok : Obligation → Bool) : Option (Nat × Obligation) :=
  cal.foldl (fun best p =>
    if !ok p.2 then best
    else match best with
      | none => some p
      | some b => if victimBefore p.2 b.2 then some p else best) none

/-- The victims of a preempting request, in order (R43); none where it cannot pass. -/
def State.preemptFrom (s : State) (q : Obligation) : Nat → SMap Obligation → List Nat → Option (List Nat)
  | 0, _, _ => none
  | fuel + 1, cal, vs =>
    match s.fits cal q q.deadline with
    | none => some vs
    | some (_, r, d) =>
      match pickVictim cal (fun o => decide (q.cls < o.cls) && decide (o.deadline ≤ d) && decide (0 < o.work r)) with
      | none => none
      | some (i, _) => s.preemptFrom q fuel (cal.del i) (vs ++ [i])

/-- ADMIT_LEAD (Table 2.8). -/
def State.admitLead (s : State) : Nat := max 2 (s.fld Reg.SLALOM_CFG 23 16)

/-- The horizon of R41 in ticks. -/
def horizonTicks : Nat := 16777216 * 65536

/-- The search of R42 from a cycle on: the first cycle start at which `fits` passes, within `fuel` cycles. -/
def State.searchEfd (s : State) (q : Obligation) : Nat → Nat → Nat
  | 0, _ => 0
  | fuel + 1, c =>
    match s.fits s.slalom.calendar q (c * 65536) with
    | none => c * 65536
    | some _ => s.searchEfd q fuel (c + 1)

/-- The earliest feasible deadline of a refused request; 0 where there is none up to the horizon (R42). -/
def State.efd (s : State) (q : Obligation) : Nat :=
  have c := ceilDiv (max q.deadline (s.now + s.admitLead * 65536)) 65536
  have last := (s.now + horizonTicks) / 65536
  s.searchEfd q (last + 1 - c) c

/-- The ring takes an entry: a full ring overwrites its oldest (R54). -/
def State.ringPut (s : State) (e : OutcomeEntry) : State :=
  have wr := s.fld Reg.SLALOM_OUT_WR 11 0
  have full := (s.slalom.ring.find wr).isSome
  have s := { s with slalom := { s.slalom with ring := s.slalom.ring.put wr e } }
  have s := s.setFld Reg.SLALOM_OUT_WR 11 0 (wr + 1)
  if full then
    have s := s.bump Reg.SLALOM_OUT_OVF
    have s := if s.fld Reg.SLALOM_OUT_RD 11 0 = wr then s.setFld Reg.SLALOM_OUT_RD 11 0 (wr + 1) else s
    s.raise 0x05 5
  else s

/-- Word 1 of a ring entry (Table 2.7). -/
def outcomeWord (outcome reason : Nat) (o : Obligation) : Nat :=
  outcome * 2 ^ 29 + o.cls * 2 ^ 26 + reason * 2 ^ 16 + o.node % 8192

/-- The TEST obligation of a slice has ended: the scheduler may make the next one; a revoked slice is counted (R378, R379). -/
def State.endSlice (s : State) (id : Nat) (revoked : Bool) : State :=
  have s := { s with boot := { s.boot with slice := s.boot.slice.filter (fun x => x.2 != id) } }
  if revoked then (s.bump Reg.BIST_ABORTED).bump Reg.BIST_REVOKED else s

/-- An obligation ends with an outcome (R39, R54): it leaves the calendar, and the ring, the counters, the causes, the
slack instrument and the Logbook take what the outcome gives them. A revoked CUSTODY obligation with accepted records
still to commit keeps a note of them (R50). -/
def State.endObl (s : State) (idx outcome reason : Nat) : State :=
  match s.slalom.calendar.find idx with
  | none => s
  | some o =>
    have id := oblId idx o
    have w := outcomeWord outcome reason o
    have s := s.setCalendar (s.slalom.calendar.del idx)
    have s := if outcome ≠ 0 ∨ s.flag Reg.SLALOM_CFG 1 then s.ringPut ⟨id, w, s.now⟩ else s
    have s := if outcome = 1 ∨ outcome = 3 then s.bump (bankKey reason Reg.SLALOM_REV_CNT) else s
    have s := if outcome = 0 then s.sample (0x0C + o.cls) ((((o.deadline : Int) - s.now) / 65536)) else s
    have s := if outcome = 1 ∧ o.cls = 0 ∧ !o.rsns.isEmpty then
      { s with slalom := { s.slalom with late := s.slalom.late ++ [⟨id, w, o.rsns⟩] } } else s
    have s := if outcome = 1 then (s.logEntry 1 0x05 0x0007 (reason + id * 2 ^ 32)).raise 0x05 3 else s
    have s := if o.cls = 3 then s.endSlice id (outcome == 1 && reason != 0x1F) else s
    if outcome = 2 ∨ outcome = 3 then s.raise 0x05 4 else s

/-- The obligation with an ID ends, if it is still open under that ID. -/
def State.endId (s : State) (id : Option Nat) (outcome reason : Nat) : State :=
  match id with
  | some i => if (s.obl i).isSome then s.endObl (i % 2 ^ 20) outcome reason else s
  | none => s

/-- Obligations of a list are revoked with a reason. -/
def State.revokeAll (s : State) (reason : Nat) : List Nat → State
  | [] => s
  | i :: is => (s.endObl i 1 reason).revokeAll reason is

/-- An obligation enters the calendar at the first free index with the next generation (R53). Answers its ID. -/
def State.insertObl (s : State) (q : Obligation) : Nat × State :=
  have n := s.slalom.calendar.length
  have idx := ((List.range (n + 1)).find? (fun i => (s.slalom.calendar.find i).isNone)).getD n
  have g := s.slalom.gens.getD idx 0
  have gen := if g = 4095 then 1 else g + 1
  have o := { q with gen := gen, order := s.slalom.order }
  have s := { s with slalom := { s.slalom with gens := s.slalom.gens.put idx gen, order := s.slalom.order + 1 } }
  (oblId idx o, s.setCalendar (s.slalom.calendar.put idx o))

/-- The members of a group that count as joined (R41). -/
def State.groupMembers (s : State) (g : Nat) : List (Nat × Node) :=
  s.field.nodes.filter (fun p => p.2.group = some g && (p.2.state == 3 || p.2.state == 4))

/-- A node has a lane: its record is ACTIVE or ABSENT (R41). -/
def Node.hasLane (n : Node) : Bool := n.state == 3 || n.state == 4

/-- The target of a request is a node with no lane, or a group with no joined member (R41). -/
def State.noTarget (s : State) (q : Obligation) : Bool :=
  q.field && (if q.group then (s.groupMembers q.node).isEmpty
    else match s.field.nodes.find q.node with
      | some n => !n.hasLane
      | none => true)

/-- Admission is stopped (R41, R47). -/
def State.notServing (s : State) : Bool := !s.inService || s.flag Reg.SLALOM_STATUS 29

/-- What an admission test answers. -/
inductive Admission where
  | admitted (id : Nat) (s : State)
  | refused (reason efd : Nat)

/-- The admission test of R41, with the preemption of R43 and the EFD of R42. -/
def State.admission (s : State) (q : Obligation) : Admission :=
  if s.notServing then .refused 0x09 0
  else if q.rest.any (fun p => s.resAbsent p.1) then .refused 0x01 0
  else if s.noTarget q then .refused 0x0A 0
  else if q.deadline < s.now + s.admitLead * 65536 then .refused 0x05 (s.efd q)
  else if s.now + horizonTicks < q.deadline then .refused 0x07 0
  else if 1048576 ≤ s.slalom.calendar.length then .refused 0x04 0
  else
    match s.fits s.slalom.calendar q q.deadline with
    | none => have r := s.insertObl q
      .admitted r.1 r.2
    | some (reason, _, _) =>
      if q.preempt then
        match s.preemptFrom q (s.slalom.calendar.length + 1) s.slalom.calendar [] with
        | some vs => have r := (s.revokeAll 0x19 vs).insertObl q
          .admitted r.1 r.2
        | none => .refused reason (s.efd q)
      else .refused reason (s.efd q)

/-- The response registers after a test (Table 2.13), with cause RESP. -/
def State.respond (s : State) (result reason id efd : Nat) : State :=
  have s := s.setReg Reg.SLALOM_RESP_STAT (result * 2 ^ 28 + reason * 2 ^ 8)
  have s := (s.setReg Reg.SLALOM_RESP_OBL id).setReg64 Reg.SLALOM_RESP_EFD_LO Reg.SLALOM_RESP_EFD_HI efd
  s.raise 0x05 0

/-- A request of the firmware is tested; one that is refused is not made. Answers its ID. -/
def State.testOwn (s : State) (q : Obligation) : Option Nat × State :=
  match s.admission { q with preempt := q.cls == 0 } with
  | .admitted id s => (some id, s)
  | .refused _ _ => (none, s)

/-- Firmware requests an obligation; a recomputation holds the request until it ends (R48). -/
def State.request (s : State) (q : Obligation) : Option Nat × State :=
  if s.flag Reg.SLALOM_STATUS 31 then (none, { s with slalom := { s.slalom with heldOwn := s.slalom.heldOwn ++ [q] } })
  else s.testOwn q

/-- MODE_INIT (R67). Table 3.4 has no mode for its values 5 to 7: they act as ×6 (DESIGN CHOICE, log 99). -/
def State.modeInit (s : State) : Nat := min 4 (s.fld Reg.LINEC_LINKCFG 2 0)

/-- The modes of the hops of a node's route, its own link last (R76). -/
def hopKey (near far : Nat) : Nat := near * 16384 + far
def State.hopMode (s : State) (near far : Nat) : Nat := s.field.hopModes.getD (hopKey near far) s.modeInit
def State.routeModes (s : State) (near : Nat) : List Nat → Nat → List Nat
  | [], last => [last]
  | r :: rs, last => s.hopMode near r :: s.routeModes r rs last

/-- The resource of a joined node (Table 2.12). -/
def Node.resource (n : Node) : Nat :=
  if n.medium = 1 then n.lane else if n.medium = 2 then 8 + n.lane else 0x0C + n.lane

/-- The work of one exchange with a node whose frame carries `down` octets of records and whose response carries
`up`, secured where `sec` (R76, R109, R133). -/
def State.exchangeWork (s : State) (n : Node) (sec : Bool) (down up : Nat) : Nat :=
  have h := 2 * n.route.length
  if n.medium = 1 then
    131072 * s.exchangeSlots n.lane (s.routeModes 0x2000 n.route n.mode) (8 + h + (if sec then 10 + down else 0))
      (18 + h + up) (s.cycle + s.cycle % 2)
  else if n.medium = 2 then s.airExchange n.lane (39 + down) (31 + up)
  else s.loopExchange n.lane (8 + down) (8 + up)

/-- The octets of records that the response of an exchange is expected to carry: none for a command, and what its obligation
says for a poll (log 39). -/
def State.upOctets (s : State) (obl : Option Nat) (isCmd : Bool) : Nat :=
  if isCmd then 0
  else match obl.bind s.obl with
    | some o => o.up
    | none => 6

/-- Work on a table of resources, added up. -/
def addWork (m : SMap Nat) (r w : Nat) : SMap Nat := m.put r (m.getD r 0 + w)

/-- Blocks of 16 bytes that a length fills (R314). -/
def blocks16 (n : Nat) : Nat := ceilDiv n 16

/-- D of an AES key length: 12, 14 or 16 cycles (R314). -/
def keyDepth : AesKey → Nat
  | .k128 => 12
  | .k192 => 14
  | .k256 => 16

/-- The CD6 cycles of the operation of an AES job; P, A and M are its lengths in bytes, rounded up to whole blocks (R314). -/
def aesCycles (d : Nat) : AesJob → Nat
  | .ctr p => blocks16 p
  | .gcm a p => blocks16 a + blocks16 p + 2
  | .ccm a p => d * (1 + blocks16 a + blocks16 p) + d
  | .cmac m => d * (blocks16 m + 1)
  | .wrap n => 6 * n * d

/-- The bytes that an authenticated decryption releases take a cycle for each 64 (R314, R317). -/
def releaseCycles (p : Nat) : Nat := ceilDiv (16 * blocks16 p) 64

/-- The nanoseconds that Slalom charges an engine for a firmware job, with the host segment that it may have to wait for: 32,768
cycles of 2 ns, or 0.30 ms on PQC (R312, R314, R324); a Keccak permutation takes 24 cycles. -/
def jobNanos : EngineJob → Nat
  | .aes _ key same job release => 65536 + 2 * (64 + (if same then 0 else 32) + aesCycles (keyDepth key) job + releaseCycles release)
  | .hash perms => 65536 + 48 * perms
  | .sign => 300000 + 600000
  | .verify => 300000 + 250000
  | .encaps => 300000 + 60000
  | .decaps => 300000 + 80000

/-- The engine of a firmware job (Table 2.12). -/
def jobEngine : EngineJob → Nat
  | .aes second _ _ _ _ => if second then 0x21 else 0x20
  | .hash _ => 0x22
  | _ => 0x23

/-- The resource of a need of the module's own units and its busy ticks: 720 µs for each stripe program (R242), 256 CD5 clocks for
each flow point (R163), an engine job's time (R314, R324), a frame's time on a port (R260), all rounded up; ticks of the control cores
and of PCI Express (log 36). -/
def State.needTicks (s : State) : Need → Nat × Nat
  | .programs n => (0x28, n * s.nsTicksUp 720000)
  | .points lane n => (0x10 + lane.val, s.nsTicksUp (320 * n))
  | .engine j => (jobEngine j, s.nsTicksUp (jobNanos j))
  | .frame port octets => (0x30 + b2n port, s.nsTicksUp ((octets + 20) * if s.fld (Reg.ETH_STAT (b2n port)) 9 8 = 2 then 80 else 8))
  | .cores n => (0x38, n)
  | .pcie n => (0x32, n)

/-- Work on the module's own units beside the media (R38; log 36). -/
def State.addUnits (s : State) (m : SMap Nat) (units : List Need) : SMap Nat :=
  units.foldl (fun m x => addWork m (s.needTicks x).1 (s.needTicks x).2) m

/-- What an obligation still needs of the module's own units once its medium is done with it. -/
def ownWork (m : SMap Nat) : SMap Nat := m.filter (fun x => decide (0x10 ≤ x.1))

/-- The work of a command of `len` octets of records to each of some nodes. -/
def State.commandWork (s : State) (ns : List Node) (len : Nat) : SMap Nat :=
  ns.foldl (fun m n => addWork m n.resource (s.exchangeWork n true len 0)) []

/-- The nodes that take BULK frames: KLP 2 on the line, KAP 3 on the air (R406). -/
def takesBulk (n : Node) : Bool := (n.medium == 1 && n.ver == 2) || (n.medium == 2 && n.ver == 3)

/-- The work of one BULK frame on a resource (R406): (1 + LEVEL_MAX) spans at ×4 on a line lane, its airtime on an air
lane; the segment octets are 256 and 128, behind 12 of the segment header. -/
def State.bulkFrameWork (s : State) (r : Nat) : Nat :=
  if r ≤ 5 then 65536 * (1 + s.levelMax) * s.frameCycles r 3 (18 + 12 + 256) s.cycle
  else s.thirdsTicks (s.airtime (r - 8) (39 + 12 + 128))

/-- The lanes on which a member of a group takes BULK frames. -/
def State.bulkLanes (s : State) (g : Nat) : List Nat :=
  (((s.groupMembers g).filter (fun p => takesBulk p.2)).map (fun p => p.2.resource)).eraseDups

/-- The frames of a BULK request on each lane: REP times the segment count of its payload (R405). -/
def State.bulkFrames (s : State) (g handle : Nat) : SMap Nat :=
  have p := s.load handle 16
  (s.bulkLanes g).foldl (fun m r => m.put r (clampNat 1 4 (leAt p 1 1) * leAt p 6 2)) []

/-- The operation suits the class of a host request (R52). -/
def opSuits (cls op : Nat) : Bool :=
  (cls == 1 && (op == 0x01 || op == 0x02)) || (cls == 2 && op == 0x10) || (cls == 4 && op == 0x20)

/-- The obligation that the staged request registers describe (Table 2.13); it takes its payload with it (log 44). For a node that is
ABSENT already it holds its lane work as for any other, until its deadline (DESIGN CHOICE, log 97). -/
def State.stagedRequest (s : State) : Obligation :=
  have ctl := s.reg Reg.SLALOM_REQ_CTL
  have cls := bits 27 25 ctl
  have op := bits 15 8 ctl
  have group := s.flag Reg.SLALOM_REQ_TGT 31
  have node := s.fld Reg.SLALOM_REQ_TGT 12 0
  have handle := s.reg Reg.SLALOM_REQ_HANDLE
  have len := s.fld Reg.SLALOM_REQ_LEN 23 0
  have targets := if group then (s.groupMembers node).map (·.2)
    else match s.field.nodes.find node with | some n => [n] | none => []
  have frames := if cls = 4 then s.bulkFrames node handle else []
  { cls := cls, deadline := s.reg64 Reg.SLALOM_REQ_DL_LO Reg.SLALOM_REQ_DL_HI, node := node, group := group
    field := (cls == 1 && op == 0x01) || cls == 4, op := op, handle := handle, len := len
    preempt := cls == 1 && bit 31 ctl && s.flag Reg.SLALOM_CFG 0, host := true, frames := frames
    records := if cls = 4 then s.load handle 16 else if cls = 2 then s.load handle len else if cls = 1 ∧ op = 0x02 then s.load handle 1
      else if cls = 1 ∧ op = 0x01 then leBytes 1 0x60 ++ leBytes 1 len ++ s.load handle len else []
    rest := if cls = 1 ∧ op = 0x01 then s.commandWork (targets.filter Node.hasLane) (2 + len)
      else if cls = 2 then [(0x32, Config.reportWork len)]
      else if cls = 4 then frames.map (fun p => (p.1, p.2 * s.bulkFrameWork p.1)) else [] }

/-- HWM_CLR (Table 2.9). -/
def effHwmClr (v : Word) (s : State) : WriteResult :=
  if v.toNat.testBit 31 then .done (s.setFld Reg.SLALOM_CAL_HWM 20 0 (s.fld Reg.SLALOM_STATUS 20 0)) else .ignored s

def execHwmClr (t : Angle) (p : Path) (v : Word) (s : State) : Outcome :=
  .next ((s.tick t).hostWrite p 0x05 0x048 (effHwmClr v))

/-- Retry share placed in a resource, up to a deadline (R40). -/
def State.placedTo (s : State) (r d : Nat) : Nat := s.spansTo (s.slalom.placed.getD r []) d

/-- The repeat that an obligation waits to place in the share of a resource. -/
def Obligation.waits (o : Obligation) (r : Nat) : Option Retry := (o.retries.find r).filter (fun t => t.share && !t.placed)

/-- The obligations that wait for the share of a resource, as calendar entries in deadline order (R40). -/
def State.waitingFor (s : State) (r : Nat) : List (Nat × Obligation) :=
  sortBy (fun a b => decide (a.2.deadline < b.2.deadline ∨ a.2.deadline = b.2.deadline ∧ a.2.order ≤ b.2.order))
    (s.slalom.calendar.filter (fun p => (p.2.waits r).isSome))

/-- The ticks that obligations wait for in the share of a resource up to a deadline. -/
def State.waitingTo (s : State) (r d : Nat) : Nat :=
  ((s.waitingFor r).filter (fun p => decide (p.2.deadline ≤ d))).foldl (fun a p => a + (((p.2.waits r).map (·.work)).getD 0)) 0

/-- The share of a resource takes what is placed in it, what waits for it up to a deadline, and `w` ticks more (R40). -/
def State.shareTakes (s : State) (r w d : Nat) : Bool :=
  decide (s.placedTo r d + s.waitingTo r d + w ≤ s.retryShare r * (s.capTo r d).1 / 256)

/-- Whether `w` ticks find capacity before a deadline, and where: in capacity admitted to no one (false) or in the share (true) (R40).
R77 gives the order for a wait; a retry takes the same one (DESIGN CHOICE, log 97). -/
def State.retrySource (s : State) (r w d : Nat) : Option Bool :=
  if s.resLost r ∨ d ≤ s.now then none
  else if (s.fitsWork s.slalom.calendar d [(r, w)]).isNone then some false
  else if s.shareTakes r w d then some true
  else none

/-- RES_RUSED keeps what of the share the last 256 cycles used (Table 2.11). -/
def State.placeShare (s : State) (r w : Nat) : State :=
  have keep := (s.slalom.placed.getD r []).filter (fun p => s.now < p.1)
  have used := ((s.slalom.used.getD r []).filter (fun p => s.cycle < p.1 + 256)) ++ [(s.cycle, w)]
  { s with slalom := { s.slalom with
    placed := s.slalom.placed.put r (keep ++ [(s.now + w, w)]), used := s.slalom.used.put r used } }

/-- The obligations of a list that the share of a resource can no longer carry before their deadlines end FAILED, the earliest deadline
being placed first (R40). -/
def State.settleShare (s : State) (r : Nat) (waiting : List (Nat × Obligation)) : State :=
  waiting.foldl (fun (s : State) p =>
    if s.shareTakes r 0 p.2.deadline then s else s.endId (some (oblId p.1 p.2)) 3 Reason.retry) s

/-- A repeat is drawn for an obligation, from capacity admitted to no one or from the share: it ends FAILED where neither holds it, and
so do those that wait behind it (R40, R69). An obligation whose work was released takes no share (R38). -/
def State.drawRetry (s : State) (id r : Nat) (t : Retry) : State :=
  match s.obl id with
  | none => s
  | some o =>
    match s.retrySource r t.work o.deadline with
    | some false => s.modObl (id % 2 ^ 20) (fun o => { o with
        rest := addWork o.rest r t.work, retries := o.retries.put r { t with share := false } })
    | some true =>
      if o.absent then s.endId (some id) 3 Reason.retry
      else
        have s := s.modObl (id % 2 ^ 20) (fun o => { o with retries := o.retries.put r { t with share := true } })
        s.settleShare r (s.waitingFor r)
    | none => s.endId (some id) 3 Reason.retry

/-- The slot that an exchange waits for is drawn (R77): first from capacity admitted to no one, then from the share, else the
obligation ends FAILED. -/
def State.drawWait (s : State) (id r w : Nat) : State :=
  match s.obl id with
  | none => s
  | some o =>
    match s.retrySource r w o.deadline with
    | some false =>
      have keep := (s.slalom.drawn.getD r []).filter (fun p => s.now < p.1)
      { s with slalom := { s.slalom with drawn := s.slalom.drawn.put r (keep ++ [(s.now + w, w)]) } }
    | some true => s.placeShare r w
    | none => s.endId (some id) 3 Reason.retry

/-- An attempt of an obligation on a resource is over: its work has been done, unless it was drawn from the share (R40, R41). -/
def State.spend (s : State) (id r w : Nat) : State :=
  s.modId id (fun o => match o.retries.find r with
    | some t => if t.share then o else { o with rest := o.rest.put r (o.rest.getD r 0 - t.work) }
    | none => { o with rest := o.rest.put r (o.rest.getD r 0 - w) })

/-- An attempt of an obligation starts: a repeat is placed in its slot, and an obligation whose work was released when its node became
ABSENT takes capacity admitted to no one (R38, R40). -/
def State.placeAttempt (s : State) (id r w : Nat) : State :=
  match s.obl id with
  | none => s
  | some o =>
    have s := s.modObl (id % 2 ^ 20) (fun o => { o with sent := true })
    match o.retries.find r with
    | some t =>
      have s := if t.share && !t.placed then s.placeShare r t.work else s
      s.modObl (id % 2 ^ 20) (fun o => { o with retries := o.retries.put r { t with placed := true } })
    | none => if o.absent then s.modObl (id % 2 ^ 20) (fun o => { o with rest := addWork o.rest r w }) else s

/-- An attempt of an obligation may start on a resource (R38, R40): a repeat that waits for the share is the one with the earliest
deadline, and one whose work was released fits into capacity admitted to no one. -/
def State.mayAttempt (s : State) (id r w : Nat) : Bool :=
  match s.obl id with
  | none => false
  | some o =>
    if (o.waits r).isSome then (match s.waitingFor r with | p :: _ => oblId p.1 p.2 == id | [] => false)
    else !o.absent || (o.retries.find r).isSome || (s.fitsWork s.slalom.calendar o.deadline [(r, w)]).isNone

/-- The indices that Table 2.12 names. -/
def resourceNamed (r : Nat) : Bool :=
  decide (r ≤ 5) || r == 8 || r == 9 || decide (0x0C ≤ r ∧ r ≤ 0x23) || r == 0x28 || decide (0x30 ≤ r ∧ r ≤ 0x32)
    || r == 0x38

/-- Every resource of Table 2.12. -/
def allResources : List Nat := (List.range 0x39).filter resourceNamed

/-- A recomputation starts, or goes on with a further trigger (R48): it holds new requests until it ends. Of the triggers that concern a
resource the first stands, but an outage and a switch-over concern every one (R49, R51; log 97). -/
def State.recomputeOn (s : State) (reason : Nat) (rs : List Nat) : State :=
  have s := s.setFlag Reg.SLALOM_STATUS 31 true
  have all := reason == 0x17 || reason == 0x18
  { s with slalom := { s.slalom with
    trigger := reason
    triggers := rs.foldl (fun m r => if all || (m.find r).isNone then m.put r reason else m) s.slalom.triggers } }

/-- A recomputation for a reason that concerns every resource. -/
def State.recompute (s : State) (reason : Nat) : State := s.recomputeOn reason allResources

/-- A unit is lost or disabled with the reason of its loss, and the calendar recomputed (R48). -/
def State.loseRes (s : State) (r reason : Nat) : State :=
  { s with slalom := { s.slalom with lost := s.slalom.lost.put r reason } }.recomputeOn reason [r]

/-- A unit is regained, and the calendar recomputed. -/
def State.regainRes (s : State) (r : Nat) : State :=
  have reason := s.slalom.lost.getD r 0x10
  { s with slalom := { s.slalom with lost := s.slalom.lost.del r } }.recomputeOn reason []

/-- The resources that obligations of the calendar use. -/
def usedRes (cal : SMap Obligation) : List Nat :=
  cal.foldl (fun l p => p.2.rest.foldl (fun l q => if 0 < q.2 then insertUp q.1 l else l) l) []

/-- The first resource and check point that fails with the calendar as it stands (R49). -/
def State.firstFailure (s : State) : List Nat → Option (Nat × Nat)
  | [] => none
  | r :: rs =>
    match s.failsOn s.slalom.calendar r 0 (checkPoints s.slalom.calendar r 0 |>.filter (0 < ·)) with
    | some (d, _) => some (r, d)
    | none => s.firstFailure rs

/-- The reason of a revocation on a resource: that of its trigger (R49). -/
def State.revokeReason (s : State) (r : Nat) : Nat :=
  (s.slalom.triggers.find r).getD (s.slalom.lost.getD r s.slalom.trigger)

/-- Victims are revoked one at a time while a resource fails (R49), each with the reason of the trigger. -/
def State.revokeLoop (s : State) : Nat → State
  | 0 => s
  | fuel + 1 =>
    match s.firstFailure (usedRes s.slalom.calendar) with
    | none => s
    | some (r, d) =>
      match pickVictim s.slalom.calendar (fun o => decide (o.deadline ≤ d) && decide (0 < o.work r)) with
      | none => s
      | some (i, _) => (s.endObl i 1 (s.revokeReason r)).revokeLoop fuel

/-- OBLIGATION_DEADLINE (R38, R39): before step 9 of start-up the outcome is left to that step (R51). Then an obligation of an ABSENT node ends UNDELIVERABLE-ABSENT, every other one is
revoked OVERRUN, with event 0. One whose node has rejoined but that could not be delivered ends UNDELIVERABLE-ABSENT too (DESIGN
CHOICE, log 97). -/
def execObligationDeadline (t : Angle) (id : Nat) (s : State) : Outcome :=
  have s := s.tick t
  .next (
    match s.obl id with
    | none => s
    | some o =>
      if s.now < o.deadline ∨ !(s.boot.done.contains 9) then s
      else
        have absent := o.absent || (o.field && !o.group &&
          (match s.field.nodes.find o.node with | some n => n.state == 4 | none => false))
        if absent then s.endObl (id % 2 ^ 20) 2 0
        else (s.endObl (id % 2 ^ 20) 1 0x1F).raiseAlert 0x05 3)

/-- The obligations bound for a node that is marked ABSENT release their work (R38). -/
def State.releaseWork (s : State) (node : Nat) : State :=
  s.setCalendar (s.slalom.calendar.mapVals (fun _ o =>
    if o.field && !o.group && o.node == node then
      { o with rest := [], absent := true, retries := [] } else o))

/-- Admitted obligations target a node (R82, Table 4.8). -/
def State.targeted (s : State) (node : Nat) : Bool :=
  s.slalom.calendar.any (fun p => p.2.field && !p.2.group && p.2.node == node)

/-- RES_STAT, RES_LOAD and RES_RUSED of the selected resource (Tables 2.11 and 2.12). -/
def State.readResStat (s : State) : Nat :=
  have r := s.fld Reg.SLALOM_RES_SEL 7 0
  if !(resourceNamed r) then 0
  else b2n (resourceInVariant s.fac.variant r) * 2 ^ 31 + b2n (s.resLost r) * 2 ^ 30 + s.capPerCycle r
def State.readResLoad (s : State) : Nat :=
  have r := s.fld Reg.SLALOM_RES_SEL 7 0
  min (demandTo s.slalom.calendar r (s.now + 256 * 65536)) (2 ^ 32 - 1)
def State.readResRused (s : State) : Nat :=
  have r := s.fld Reg.SLALOM_RES_SEL 7 0
  have used := ((s.slalom.used.getD r []).filter (fun p => s.cycle < p.1 + 256)).foldl (fun a p => a + p.2) 0
  have share := s.retryShare r * (s.capPerCycle r * 256) / 256
  if share = 0 then 0 else min 255 (used * 256 / share)

end Sys2Proof.Machine
end

