-- ==== Sys2Proof/Machine/Interlock.lean ====
section
/-!
DEFINITION. The interlock outputs (R226, R227, R432) and the host commands of Slalom that can drive one (R41, R44, R52,
R53).
-/

namespace Sys2Proof.Machine

/-- An output as it stands. -/
def State.output (s : State) (k : Nat) : OutputRec := s.interlock.outputs.getD k {}
def State.setOutput (s : State) (k : Nat) (o : OutputRec) : State :=
  { s with interlock := { s.interlock with outputs := s.interlock.outputs.put k o } }

/-- ILk_STAT.STATE (Table 11.9). -/
def State.setIlState (s : State) (k v : Nat) : State := s.setFld (Reg.CRED_IL_STAT k) 31 29 v

/-- A pulse starts: the driver drives its coil and STATE becomes DRIVING. The obligation that commands it has been given its pulse (R226). -/
def State.startPulse (s : State) (c : DriveCmd) : State :=
  have s := match c.obl with | some id => s.modId id (fun o => { o with sent := true }) | none => s
  have o := s.output c.output
  have s := s.setOutput c.output { o with cmd := some c, since := none }
  ({ s with interlock := { s.interlock with pulse := some c, pulseAt := s.uptime } }.setIlState c.output 3).send (.drive c.output c.on true)

/-- An output is commanded: the pulse starts, or waits while another one runs (R226, R432) or a
switch-over gap does (R338). Only a SOLO or ACTIVE module pulses. -/
def State.driveOutput (s : State) (c : DriveCmd) : State :=
  if s.pairState = 0 ∨ s.pairState = 1 then
    have s := s.setOutput c.output { s.output c.output with second := false, host := !c.account || (s.output c.output).host }
    match (if s.now < s.field.gapUntil ∨ s.pairs.stopped then some c else s.interlock.pulse) with
    | none => s.startPulse c
    | some _ => { s with interlock := { s.interlock with queue := s.interlock.queue ++ [c] } }
  else s

/-- The feedback shows ON (Table 11.9). -/
def State.feedback (s : State) (k : Nat) : Bool := s.flag (Reg.CRED_IL_STAT k) 0

/-- The feedback agrees with the awaited command: STATE follows it and the obligation is DONE (R227). -/
def State.settle (s : State) (k : Nat) : State :=
  have o := s.output k
  match o.cmd with
  | some c =>
    if o.since.isSome ∧ s.feedback k = c.on then
      have s := s.setOutput k { o with since := none, second := false, cmd := some { c with obl := none } }
      (s.setIlState k (if c.on then 1 else 2)).endId c.obl 0 0
    else s
  | none => s

/-- A MISMATCH EVENT record of an output (Table 12.14): commanded state, feedback and cause; and the cause on line 35. -/
def State.mismatch (s : State) (k : Nat) (cmd : Bool) (cause : Nat) : State :=
  (s.journalEvent 0x05 k (leBytes 1 (b2n cmd) ++ leBytes 1 (b2n (s.feedback k)) ++ leBytes 1 cause)).raise 0x34 3

/-- The running pulse ends: the driver returns to high impedance, the feedback is awaited, and the next command's pulse
starts. -/
def State.endPulse (s : State) (k : Nat) : State :=
  match s.interlock.pulse with
  | none => s
  | some c =>
    if c.output ≠ k then s
    else
      have s := { s with interlock := { s.interlock with pulse := none } }.send (.drive k c.on false)
      have s := (s.setOutput k { s.output k with since := some s.cycle }).settle k
      match s.interlock.queue with
      | [] => s
      | n :: q => { s with interlock := { s.interlock with queue := q } }.startPulse n

/-- The running pulse has lasted PULSE × 10 ms on the 25 MHz reference, or met a short circuit for 5 ms of it (R226, R432). Uptime
counts units of 125 ps. -/
def State.pulseOver (s : State) (k : Nat) (short : Bool) : Bool :=
  decide (s.interlock.pulseAt + (if short then 40000000 else 80000000 * clampNat 2 100 (s.fld (Reg.CRED_IL_CTL k) 15 8)) ≤ s.uptime)

/-- PULSE_END (R226, R432): `short` where the driver met a short circuit. -/
def execPulseEnd (t : Angle) (k : Fin 4) (short : Bool) (s : State) : Outcome :=
  have s := s.tick t
  .next (if s.pulseOver k.val short then s.endPulse k.val else s)

/-- FEEDBACK_WAIT_EXPIRY (R227): one more pulse, then FAULT; a cancelled command has no further pulse (R53). -/
def execFeedbackWaitExpiry (t : Angle) (k : Fin 4) (s : State) : Outcome :=
  have s := s.tick t
  have o := s.output k.val
  .next (
    match o.cmd, o.since with
    | some c, some since =>
      if s.cycle < since + max 1 (s.fld (Reg.CRED_IL_CTL k.val) 31 16) then s
      else if !o.second ∧ !c.cancelled then
        have s := s.setOutput k.val { o with second := true, since := none }
        (match s.interlock.pulse with
        | none => s.startPulse c
        | some _ => { s with interlock := { s.interlock with queue := s.interlock.queue ++ [c] } })
      else
        have s := s.setOutput k.val { o with since := none, second := false, cmd := some { c with obl := none } }
        ((s.setIlState k.val 5).mismatch k.val c.on 0).endId c.obl 3 Reason.retry
    | _, _ => s)

/-- FEEDBACK_CHANGE (R227): the debounced level of a feedback input changes to `level`. FAULT holds until the next command, and a twin that
does not drive the outputs only follows their feedback (R229; log 102). -/
def execFeedbackChange (t : Angle) (k : Fin 4) (level : Bool) (s : State) : Outcome :=
  have s := s.tick t
  have shown := level != s.flag (Reg.CRED_IL_CTL k.val) 7
  have first := s.fld (Reg.CRED_IL_STAT k.val) 31 29 == 0
  have changed := shown != s.feedback k.val
  have s := s.setFlag (Reg.CRED_IL_STAT k.val) 0 shown
  have o := s.output k.val
  have busy := match s.interlock.pulse with | some c => c.output == k.val | none => false
  .next (
    if first || decide (1 < s.pairState) then (s.setIlState k.val (if shown then 1 else 2)).settle k.val
    else if o.since.isSome then s.settle k.val
    else if busy || !changed || s.fld (Reg.CRED_IL_STAT k.val) 31 29 == 5 then s
    else (s.setIlState k.val 4).mismatch k.val (match o.cmd with | some c => c.on | none => !shown) 1)

/-- A plain write of ILk_CTL: IL_STAT.FB shows the feedback level after FB_INV (Table 11.9). -/
def writeIlCtl (k : Nat) (v : Word) (s : State) : WriteResult :=
  have flip := s.flag (Reg.CRED_IL_CTL k) 7
  (s.plainWrite 0x34 (0x0C0 + 0x10 * k) v).andThen (fun s =>
    if s.flag (Reg.CRED_IL_CTL k) 7 = flip then s else s.setFlag (Reg.CRED_IL_STAT k) 0 (!(s.flag (Reg.CRED_IL_STAT k) 0)))

/-- A host command of an output: the other fields of ILk_CTL are written with it. -/
def effIlCtl (k : Nat) (on : Bool) (v : Word) (s : State) : WriteResult :=
  if s.pairState = 0 ∨ s.pairState = 1 then
    (writeIlCtl k v s).andThen (fun s => s.driveOutput { output := k, on := on })
  else .discard s 0x09

/-- INTERLOCK_ON and INTERLOCK_OFF (R226): a write of ILk_CTL with CMD = 1 or 2; `v` gives the other fields. -/
def execInterlockOn (t : Angle) (p : Path) (k : Fin 4) (v : Word) (s : State) : Outcome :=
  .next ((s.tick t).hostWrite p 0x34 (0x0C0 + 0x10 * k.val) (effIlCtl k.val true v))
def execInterlockOff (t : Angle) (p : Path) (k : Fin 4) (v : Word) (s : State) : Outcome :=
  .next ((s.tick t).hostWrite p 0x34 (0x0C0 + 0x10 * k.val) (effIlCtl k.val false v))

/-- An admitted request for a local interlock drives its output (R226): bits 1:0 of its target name the output, and the
first octet of its payload the state (log 16). -/
def State.startInterlock (s : State) (id : Nat) (q : Obligation) : State :=
  if q.op = 0x02 then
    s.driveOutput { output := q.node % 4, on := leAt q.records 0 1 % 2 == 1, obl := some id }
  else s

/-- A local interlock command after a restart or a switch-over, neither of which causes a pulse (R226): it is complete where the feedback
shows its state (R227). Where its pulse has been given the feedback is awaited, without a further one; a command that still waits for its pulse
is given it (log 102). -/
def State.resumeInterlock (s : State) (id : Nat) (q : Obligation) : State :=
  have k := q.node % 4
  have on := leAt q.records 0 1 % 2 == 1
  if q.sent ∨ (s.fld (Reg.CRED_IL_STAT k) 31 29 ≠ 0 ∧ s.feedback k = on) then
    have s := s.setOutput k { s.output k with cmd := some { output := k, on := on, obl := some id }, since := some s.cycle, second := true }
    if s.fld (Reg.CRED_IL_STAT k) 31 29 = 0 then s else s.settle k
  else s.startInterlock id q

/-- A BULK obligation with no segment to send on any lane, because no member of its group takes BULK frames, is complete as it stands (R37;
log 102). -/
def State.startBulk (s : State) (id : Nat) (q : Obligation) : State :=
  if q.cls = 4 ∧ q.frames.all (fun p => p.2 == 0) then s.endId (some id) 0 0 else s

/-- The test of a host request and its response (R41). -/
def State.testRequest (s : State) (q : Obligation) : State :=
  match s.admission q with
  | .admitted id s => ((s.respond 1 0 id 0).startInterlock id q).startBulk id q
  | .refused reason efd => s.respond 2 reason 0 efd

/-- The effect of a write of REQ_GO (R41, R44, R52). `img` is what the host has placed at REQ_HANDLE in BAR2. -/
def effReqGo (v : Word) (img : List Byte) (s : State) : WriteResult :=
  if s.flag Reg.SLALOM_RESP_STAT 31 then .discard s 0x08
  else if !(v.toNat.testBit 0) then .ignored s
  else
    have s := s.store (s.reg Reg.SLALOM_REQ_HANDLE) img
    have q := s.stagedRequest
    if !(opSuits q.cls q.op) then .done (s.respond 2 0x08 0 0)
    else if s.flag Reg.SLALOM_STATUS 31 then
      .done ({ s with slalom := { s.slalom with held := some q } }.setReg Reg.SLALOM_RESP_STAT (2 ^ 31))
    else .done (s.testRequest q)

/-- REQ_GO (R41, R44, R52); `img` is the payload the host placed at REQ_HANDLE. -/
def execReqGo (t : Angle) (p : Path) (v : Word) (img : List Byte) (s : State) : Outcome :=
  .next ((s.tick t).hostWrite p 0x05 0x0D8 (effReqGo v img))

/-- A drive command of a cancelled obligation (R53). -/
def DriveCmd.dropObl (c : DriveCmd) (id : Nat) : DriveCmd :=
  if c.obl = some id then { c with obl := none, cancelled := true } else c

/-- A cancelled obligation's exchange and pulse go on without it; its late responses are counted: a CACK of the exchange, and the next VSTAT
of the node to which the command had been sent (R53; log 102). Where a second pulse of it still waited, that pulse is not given and the feedback
is awaited once more (R227). -/
def State.detach (s : State) (id : Nat) (o : Obligation) : State :=
  have sent := o.field && o.cls == 1 && !o.group && o.sent
  have dropped := fun (k : Nat) => s.interlock.queue.any (fun c => c.obl == some id && c.output == k)
  { s with
    slalom := { s.slalom with
      cancelled := if sent then o.node :: s.slalom.cancelled else s.slalom.cancelled }
    field := { s.field with exch := s.field.exch.mapVals (fun _ x =>
      if x.obl = some id then { x with obl := none, cancelled := true } else x) }
    interlock := { s.interlock with
      pulse := s.interlock.pulse.map (fun c => c.dropObl id)
      queue := s.interlock.queue.filter (fun c => c.obl ≠ some id)
      outputs := s.interlock.outputs.mapVals (fun k x => { x with
        cmd := x.cmd.map (fun c => c.dropObl id)
        since := if x.second && x.since.isNone && dropped k then some s.cycle else x.since }) } }

/-- The effect of a write of CANCEL (R53). -/
def effCancel (v : Word) (s : State) : WriteResult :=
  match s.obl v.toNat with
  | some o => if o.host then .done ((s.endObl (v.toNat % 2 ^ 20) 4 0).detach v.toNat o) else .discard s 0x0A
  | none => .discard s 0x0A

/-- CANCEL (R53). -/
def execCancel (t : Angle) (p : Path) (v : Word) (s : State) : Outcome :=
  .next ((s.tick t).hostWrite p 0x05 0x0F0 (effCancel v))

/-- The full-scale level of a plan in dBµV (Tables 3.1 and 3.11). -/
def fullScale (plan : Nat) : Nat := if plan = 1 then 128 else if plan = 2 then 122 else 0

/-- CUR_CH of the air lanes: under EU868 each stays on its channel in CHAN (R98). -/
def State.showChannels (s : State) : State :=
  if s.region = 1 then
    (s.setFld (Reg.AIR_STAT 0) 7 0 (s.fld (Reg.AIR_CHAN 0) 7 0)).setFld (Reg.AIR_STAT 1) 7 0 (s.fld (Reg.AIR_CHAN 1) 7 0)
  else s

/-- A new band plan or air region takes effect, and the calendar is recomputed (R57, R94). -/
def State.applyPlan (s : State) (v : Word) : State :=
  match s.plainWrite 0x0E 0x040 v with
  | .done s => ((s.setReg Reg.LINEC_LVLMAX (fullScale s.plan)).raise 0x0E 0).recomputeOn 0x10 (List.range 6)
  | _ => s
def State.applyRegion (s : State) (v : Word) : State :=
  match s.plainWrite 0x12 0x040 v with
  | .done s => ((s.showChannels).raise 0x12 3).recomputeOn 0x10 [8, 9]
  | _ => s

/-- Every lane of the line channel is disabled: SYS.LANE_EN bits 5:0 (R57); both air lanes are (R94). -/
def State.linesDisabled (s : State) : Bool := s.fld Reg.SYS_LANE_EN 5 0 == 0
def State.airsDisabled (s : State) : Bool := s.fld Reg.SYS_LANE_EN 9 8 == 0

/-- A change of PLAN or REGION that waited for the recomputation runs, and the recomputation again (R416); one whose lanes have been
enabled meanwhile is discarded "busy" (R57, R94; log 102). -/
def State.heldModes (s : State) : State :=
  have a := s.slalom.heldPlan
  have b := s.slalom.heldRegion
  have s := { s with slalom := { s.slalom with heldPlan := none, heldRegion := none } }
  have s := match a with
    | some v => if s.linesDisabled then s.applyPlan v else s.capture .pcie 0x0E 0x040 0x08
    | none => s
  match b with
  | some v => if s.airsDisabled then s.applyRegion v else s.capture .pcie 0x12 0x040 0x08
  | none => s

/-- The requests of the firmware that a recomputation has held are tested, oldest first (R48). -/
def State.testHeldOwn (s : State) : State :=
  s.slalom.heldOwn.foldl (fun (s : State) q => (s.testOwn q).2) { s with slalom := { s.slalom with heldOwn := [] } }

/-- RECOMPUTE_END (R48, R49, R44, R416): the revocations, and then the requests that it has held, the firmware's before the host's
(DESIGN CHOICE, log 97), unless a change that waited starts the recomputation again. -/
def execRecomputeEnd (t : Angle) (s : State) : Outcome :=
  have s := s.tick t
  .next (
    if !(s.flag Reg.SLALOM_STATUS 31) then s
    else
      have s := s.revokeLoop (s.slalom.calendar.length + 1)
      have s := { s with slalom := { s.slalom with triggers := [] } }
      have s := ((s.setFlag Reg.SLALOM_STATUS 31 false).raise 0x05 1).heldModes
      if s.flag Reg.SLALOM_STATUS 31 then s
      else
        have s := s.testHeldOwn
        match s.slalom.held with
        | some q => { s with slalom := { s.slalom with held := none } }.testRequest q
        | none => s)

end Sys2Proof.Machine
end

