-- ==== Sys2Proof/Machine/LineFrames.lean ====
section
/-!
DEFINITION. The frames of the line channel: the checks of the PHY header and the payload (R61, R62), the KLP header and
its checks (Table 4.1, R78, R79), beacons (Table 4.4), and the field-node table that every medium shares (Table 4.8).
-/

namespace Sys2Proof.Machine

/-- One bit into a CRC register of width w with a polynomial, most significant bit first. -/
def crcBit (w poly : Nat) (crc : Nat) (b : Bool) : Nat :=
  have top := crc.testBit (w - 1) != b
  have sh := crc * 2 % 2 ^ w
  if top then sh ^^^ poly else sh

/-- The low `n` bits of a number into a CRC register, most significant bit first. -/
def crcBits (w poly : Nat) : Nat → Nat → Nat → Nat
  | 0, _, crc => crc
  | n + 1, v, crc => crcBits w poly n v (crcBit w poly crc (v.testBit n))

/-- CRC-8 of the PHY header: polynomial 0x07, initial value 0, over bits 31:8 (Table 3.3). -/
def headerCheck (h : Nat) : Nat := crcBits 8 0x07 24 (h / 256) 0

/-- CRC-16 with polynomial 0x1021 and initial value 0xFFFF over octets (R62, R130). -/
def crc16 (bs : List Byte) : Nat := bs.foldl (fun c b => crcBits 16 0x1021 8 b.toNat c) 0xFFFF

/-- A quotient; where it is not whole, one of its two neighbours, free (log 2). -/
def State.divFree (s : State) (a : Int) (b : Nat) : Int × State :=
  if a % (b : Int) = 0 then (a / (b : Int), s)
  else
    have up := s.drawBit
    (a / (b : Int) + (if up.1 then 1 else 0), up.2)

/-- A level joins the last 64 of a lane (Tables 3.8 and 5.9): the register shows the last one and their mean. -/
def State.pushLevel (s : State) (r key : Nat) (v : Int) : State :=
  have l := (v :: s.field.levels.getD r []).take 64
  have s := { s with field := { s.field with levels := s.field.levels.put r l } }
  have m := s.divFree (l.foldl (· + ·) 0) l.length
  m.2.setReg key (ofSigned 16 v + 65536 * ofSigned 16 m.1)

/-- A field node's record, and the state with it set or changed. -/
def State.node (s : State) (id : Nat) : Node := s.field.nodes.getD id {}
def State.setNode (s : State) (id : Nat) (n : Node) : State :=
  { s with field := { s.field with nodes := s.field.nodes.put id n } }
def State.modNode (s : State) (id : Nat) (f : Node → Node) : State := s.setNode id (f (s.node id))

/-- The node whose record holds a serial, if any is not FREE. -/
def State.findSerial (s : State) (serial : Nat) : Option (Nat × Node) :=
  s.field.nodes.find? (fun p => p.2.serial == serial && p.2.state != 0)

/-- The exchange on a resource, and the state with it set or ended. -/
def State.exchange (s : State) (r : Nat) : Option Exchange := s.field.exch.find r
def State.setExchange (s : State) (r : Nat) (x : Exchange) : State :=
  { s with field := { s.field with exch := s.field.exch.put r x } }
def State.endExchange (s : State) (r : Nat) : State :=
  { s with field := { s.field with exch := s.field.exch.del r } }

/-- An exchange begins on a resource: its attempt is placed, and a command of the firmware leaves its list (R40, R113). -/
def State.beginExchange (s : State) (r : Nat) (x : Exchange) : State :=
  have s := s.setExchange r x
  have s := if x.isCmd ∧ leAt x.records 0 1 = 0x54 then s.modNode x.node (fun n => { n with gkeyDue := false }) else s
  have s := if x.spare then
    { s with field := { s.field with firmware := s.field.firmware.eraseP (fun p => p.node == x.node) } } else s
  match x.obl with
  | some id => s.placeAttempt id r x.work
  | none => s

/-- The module transmits on the media: it is SOLO or ACTIVE, no switch-over gap runs, and no takeback has stopped it (R118, R126,
R338, R339). -/
def State.mediaOpen (s : State) : Bool :=
  (s.pairState == 0 || s.pairState == 1) && decide (s.field.gapUntil ≤ s.now) && !s.pairs.stopped

/-- From H − 2 on, no exchange is admitted that would end after H:0000 (R339). -/
def State.beforeTakeback (s : State) (last : Nat) : Bool :=
  match s.pairs.takeback with
  | some (h, _, false) => decide (s.cycle + 2 < h) || decide (last < h)
  | _ => true

/-- A line lane can transmit. -/
def State.lineReady (s : State) (lane : Nat) : Bool :=
  s.mediaOpen && s.plan != 0 && s.laneEnabled (0x08 + lane) && (s.slalom.lost.find lane).isNone

/-- The octets of a KLP header (Table 4.1). `rpt` holds the repeaters with the mode of the link from each onward. -/
def klpHeader (ftype ver : Nat) (sec ack : Bool) (node seq cycle idx : Nat) (rpt : List (Nat × Nat)) : List Byte :=
  leBytes 1 (ftype * 16 + ver * 4 + b2n sec * 2 + b2n ack) ++ beBytes 2 node ++ leBytes 1 seq ++ beBytes 3 cycle ++
    leBytes 1 (rpt.length * 32 + idx * 4) ++ rpt.flatMap (fun p => beBytes 2 (p.2 * 8192 + p.1))

/-- The nonce of a secured line frame (R79). -/
def klpNonce (node dir lane fcnt : Nat) : List Byte :=
  beBytes 2 node ++ leBytes 1 dir ++ leBytes 1 lane ++ beBytes 4 fcnt ++ zeros 5

/-- The header that is authenticated: CYC and IDX set to zero (R79). -/
def klpAad (h : List Byte) : List Byte :=
  h.take 4 ++ zeros 3 ++ leBytes 1 (leAt h 7 1 / 32 * 32 + leAt h 7 1 % 4) ++ h.drop 8

/-- A secured line frame's octets under a key and a counter (R79). -/
def klpSecured (key node lane fcnt : Nat) (h body : List Byte) : List Byte :=
  h ++ beBytes 2 fcnt ++ Config.ccm key (klpNonce node 0 lane fcnt) (klpAad h) body

/-- The transmit keys (Table 14.6): a node's session, and the group keys of the lanes. -/
abbrev nodeKey (id : Nat) : Nat := 0x10000 + id
abbrev lineGroupKey (lane : Nat) : Nat := 0x20000 + lane
abbrev airGroupKey (lane : Nat) : Nat := 0x20010 + lane

/-- The KLP versions offered, lowest and highest (Table 4.7). -/
def State.klpMin (s : State) : Nat := clampNat 1 2 (s.fld Reg.LINEM_KLPCFG 3 0)
def State.klpMax (s : State) : Nat := clampNat 1 2 (s.fld Reg.LINEM_KLPCFG 7 4)

/-- The payload of a line beacon (Table 4.4). -/
def State.beaconPayload (s : State) (lane : Nat) : List Byte :=
  have on := s.pilotOn && lanePhase lane == s.pilotPhase
  have pofs := if on then (s.pilotWindow 1).1 + 65536 - s.predicted (lanePhase lane) else 0
  beBytes 3 (s.cycle / 2 ^ 24) ++ beBytes 2 (b2n on * 32768 + s.lineBcn) ++
    leBytes 1 (s.lineJoinN * 16 + s.klpMax * 4 + s.klpMin) ++ beBytes 2 (pofs % 65536)

/-- The fields of a received KLP header, and where its list of repeaters ends. -/
structure KlpHeader where
  ftype : Nat
  ver : Nat
  sec : Bool
  node : Nat
  seq : Nat
  ack : Bool
  cyc : Nat
  hops : Nat
  idx : Nat
  len : Nat
  deriving DecidableEq, Repr
def parseKlp (p : List Byte) : KlpHeader :=
  have o := leAt p 0 1
  { ftype := o / 16, ver := o / 4 % 4, sec := o / 2 % 2 == 1, node := beAt p 1 2, seq := leAt p 3 1, ack := o % 2 == 1
    cyc := beAt p 4 3, hops := leAt p 7 1 / 32, idx := leAt p 7 1 / 4 % 8, len := 8 + 2 * (leAt p 7 1 / 32) }

/-- The frame types a field node may send, and those the module may send (Table 4.2). -/
def upTypes : List Nat := [0x2, 0x4, 0x5, 0x7, 0x8]
def downTypes : List Nat := [0x0, 0x1, 0x3, 0x6, 0x9]

/-- A field of a KLP header holds a value that Table 4.1 makes invalid, or the frame ends before its list of repeaters does. -/
def klpInvalid (p : List Byte) : Bool :=
  have h := parseKlp p
  h.ver == 0 || h.ver == 3 || decide (6 < h.hops) || decide (h.hops < h.idx) || leAt p 7 1 % 4 != 0 || decide (p.length < h.len) ||
    (List.range h.hops).any (fun i => decide (5 ≤ beAt p (8 + 2 * i) 2 / 8192)) ||
    !(decide (h.node < 0x2000) || (decide (0x8000 ≤ h.node) && decide (h.node < 0xA000)) || h.node == 0xFFFF ||
      (h.node == 0xFFFE && h.ftype == 0x5))

/-- A node's frame is discarded by R78: an invalid value, a type of the other direction, a version other than the node's, or a CYC
that differs by more than 2 from the cycle in which the frame started. A frame of one node names that node. -/
def State.klpBad (s : State) (p : List Byte) (startCycle : Nat) : Bool :=
  have h := parseKlp p
  have joinType := h.ftype == 0x5 || h.ftype == 0x6 || h.ftype == 0x7
  have want := if joinType then 1 else (s.node h.node).ver
  have diff := (toSigned 24 (h.cyc + 2 ^ 24 - startCycle % 2 ^ 24)).natAbs
  klpInvalid p || h.ack || !(upTypes.contains h.ftype) || h.ver != want ||
    !(decide (h.node < 0x2000) || h.node == 0xFFFE) || decide (2 < diff)

/-- The version that a frame of the module carries: KLP 1 where R78 says so, KLP 2 to a group, else that of the node. -/
def State.downVersion (s : State) (ftype node : Nat) : Nat :=
  if ftype = 0 ∨ ftype = 6 then 1 else if ftype = 9 then 2 else (s.node node).ver

/-- A frame type that must be secured (Table 4.2). -/
def securedUp (ftype : Nat) : Bool := ftype == 0x2 || ftype == 0x4

/-- The frame counter of R79: the smallest value above the last one accepted whose low 16 bits equal FCNT_LO. -/
def nextCounter (last : Option Nat) (lo : Nat) : Nat :=
  match last with
  | none => lo
  | some l =>
    have c := (l + 1) / 65536 * 65536 + lo
    if l < c then c else c + 65536

/-- A counter is greater than the last one accepted (R103). -/
def newer (last : Option Nat) (c : Nat) : Bool :=
  match last with
  | none => true
  | some l => decide (l < c)

/-- The frames of a twin that is neither STANDBY nor FENCED count; those two only measure their links (Table 16.3). -/
def State.takesFrames (s : State) : Bool := s.pairState != 2 && s.pairState != 3

/-- Firmware wants to send records to a node (R85, R82, R104, R131, R404). -/
def State.firmwareSend (s : State) (id : Nat) (records : List Byte) : State :=
  { s with field := { s.field with firmware := s.field.firmware ++ [{ node := id, records := records }] } }

/-- Firmware sends records to a node as a COMMAND obligation, due within two beacon intervals (log 17). -/
def State.firmwareCommand (s : State) (id : Nat) (records : List Byte) : State :=
  have n := s.node id
  have q : Obligation := {
    cls := 1, deadline := s.now + 2 * 65536 * (if n.medium = 2 then s.airBcn else s.lineBcn), node := id, field := true
    op := 0x01, records := records, rest := s.commandWork [n] records.length }
  (s.request q).2

/-- The group key of a lane of a medium, and its key index (R103; log 37). -/
def groupKey (medium lane : Nat) : Nat := if medium = 2 then airGroupKey lane else lineGroupKey lane
def groupIdx (gen : Nat) : Nat := 3 + gen % 2

/-- The group key handle of a generation: every generation is another key. -/
def groupHandle (key gen : Nat) : Nat := key + 2 ^ 32 * gen

/-- A group key, drawn when it is first needed (Table 14.6; log 2). -/
def State.groupSecret (s : State) (key gen : Nat) : Nat × State :=
  match s.nv.groupKeys.find (groupHandle key gen) with
  | some k => (k, s)
  | none =>
    have d := s.draw
    have k := d.1 % 2 ^ 128
    (k, { d.2 with nv := { d.2.nv with groupKeys := d.2.nv.groupKeys.put (groupHandle key gen) k } })
def State.groupSecretNow (s : State) (key : Nat) : Nat × State := s.groupSecret key (s.nv.groupGen.getD key 0)

/-- The GKEY record of a generation of a group key for a node: key index, effective cycle and the key wrapped under the node's session
key (Table 5.6, R104; log 3). -/
def State.gkeyRecord (s : State) (id key gen cycle : Nat) : List Byte × State :=
  have k := s.groupSecret key gen
  (leBytes 1 0x54 ++ leBytes 1 (groupIdx gen) ++ beBytes 4 (cycle % 2 ^ 32) ++
    fixLen 24 (Config.std 0x08 (s.node id).key [beBytes 16 k.1]), k.2)

/-- A node receives a GKEY record as a firmware COMMAND obligation (R82, R104). -/
def State.sendGkey (s : State) (id key gen cycle : Nat) : State :=
  have r := s.gkeyRecord id key gen cycle
  r.2.firmwareCommand id r.1

/-- A new transmit key: its counter starts with block 0, whose reservation is requested (R300). -/
def State.newKey (s : State) (key : Nat) : State := s.setTxKey key { asked := true }

/-- The group key that is being distributed comes into use at its cycle (R104). -/
def State.turnGroup (s : State) (key : Nat) : State :=
  match s.nv.groupNext.find key with
  | some c =>
    if s.cycle < c then s
    else { s with nv := { s.nv with
      groupGen := s.nv.groupGen.put key (s.nv.groupGen.getD key 0 + 1)
      groupKeys := s.nv.groupKeys.del (groupHandle key (s.nv.groupGen.getD key 0))
      groupNext := s.nv.groupNext.del key } }.newKey key
  | none => s

/-- A new group key goes to every ACTIVE node of the lane, in use from two beacon intervals on (R104, R302; log 37). -/
def State.spreadGroup (s : State) (medium lane : Nat) : State :=
  have key := groupKey medium lane
  have c := s.cycle + 2 * (if medium = 2 then s.airBcn else s.lineBcn)
  have s := { s with nv := { s.nv with groupNext := s.nv.groupNext.put key c } }
  have ns := s.field.nodes.filter (fun p => p.2.state == 3 && p.2.medium == medium && p.2.lane == lane)
  ns.foldl (fun (s : State) p => s.sendGkey p.1 key (s.nv.groupGen.getD key 0 + 1) c) s

/-- A forced rekey begins when a frame counter reaches 2^32 − 2^20 (R302). -/
def State.forceRekey (s : State) : State := (s.bump Reg.KEEP_REKEY_FORCED).raise 0x40 2

/-- "KAP rekey" as octets. -/
def rekeyLabel : List Byte := [0x4B, 0x41, 0x50, 0x20, 0x72, 0x65, 0x6B, 0x65, 0x79]

/-- A node is due a new session key (R104, R302): under KAP 3 by REKEY, from whose nonce both ends derive it, refused while the session
table is full (R297); else by LEAVE. -/
def State.startRekey (s : State) (id : Nat) : State :=
  have n := s.node id
  if n.medium = 2 ∧ n.ver = 3 then
    if !(s.sessRoom 1) then s.sessFull
    else
    have d := s.draw
    have idx := 3 - n.keyIdx
    have nonce := beBytes 8 (d.1 % 2 ^ 64)
    have k := (Config.kdf n.key (nonce ++ leBytes 1 idx ++ rekeyLabel)).toNat % 2 ^ 128
    (d.2.setNode id { n with rekey := some s.cycle, nextKey := k, fcntNext := none }).firmwareSend id
      (leBytes 1 0x55 ++ leBytes 1 idx ++ nonce)
  else s.firmwareSend id [0x53]

/-- A key whose counter has reached 2^32 − 2^20, drawn or skipped (R301), is to be rekeyed; once for each key (R302). -/
def State.markForced (s : State) (key : Nat) : State :=
  if (s.txKey key).forced then s else s.forceRekey.setTxKey key { s.txKey key with forced := true }

/-- A frame counter of a node's session key has been drawn: from 2^32 − 2^20 on the forced rekey begins; under KAP 3 also later, where the
session table had no room for it (R297, R302). -/
def State.counterDrawn (s : State) (id c : Nat) : State :=
  if c < 2 ^ 32 - 2 ^ 20 then s
  else if (s.txKey (nodeKey id)).forced then
    (if (s.node id).medium = 2 ∧ (s.node id).ver = 3 ∧ (s.node id).rekey.isNone then s.startRekey id else s)
  else (s.markForced (nodeKey id)).startRekey id

/-- The next frame counter of a lane's group key (R300, R302). -/
def State.drawGroup (s : State) (medium lane : Nat) : Draw × State :=
  have key := groupKey medium lane
  have d := (s.turnGroup key).drawCounter key
  (d.1, if 2 ^ 32 - 2 ^ 20 < (d.2.txKey key).next ∧ !(d.2.txKey key).forced then (d.2.markForced key).spreadGroup medium lane else d.2)

/-- A LEAVE has been sent: nothing more is sent under the node's session key, and the node's frames under it are accepted for two
beacon intervals more (R104, R302). -/
def State.leaveSent (s : State) (x : Exchange) : State :=
  if x.spare ∧ leAt x.records 0 1 = 0x53 then
    s.modNode x.node (fun n => { n with
      session := false
      oldKeyUntil := some (s.cycle + 2 * (if n.medium = 2 then s.airBcn else s.lineBcn)) })
  else s

/-- LINEM.NODE_STAT (Table 4.8). -/
def State.readNodeStat (s : State) : Nat :=
  have n := s.node (s.fld Reg.LINEM_NODE_SEL 12 0)
  have lane := if n.medium = 1 then n.lane else 7
  n.state * 2 ^ 29 + lane * 2 ^ 26 + (if n.medium = 1 then n.ver else 0) * 2 ^ 24 + n.mode * 2 ^ 21 + b2n n.rpt * 2 ^ 20
    + n.level * 2 ^ 17 + min 3 n.miss * 2 ^ 15 + b2n n.routeAbs * 2 ^ 14

/-- The other registers of the line node window (Table 4.8). -/
def State.readNodeWindow (s : State) (off : Nat) : Nat :=
  have n := s.node (s.fld Reg.LINEM_NODE_SEL 12 0)
  have rpt := fun i => n.route.getD i 0
  if off = 0x084 then n.serial % 2 ^ 32
  else if off = 0x088 then n.serial / 2 ^ 32
  else if off = 0x08C then n.keyslot
  else if off = 0x090 then s.readNodeStat
  else if off = 0x094 then ofSigned 16 n.snrDn * 65536 + ofSigned 16 n.snrUp
  else if off = 0x098 then n.heard % 2 ^ 32
  else if off = 0x09C then n.heard / 2 ^ 32
  else if off = 0x0A0 then n.fcnt.getD 0
  else if off = 0x0C0 then n.route.length * 65536 + n.cost % 65536
  else if off = 0x0C4 then rpt 1 * 65536 + rpt 0
  else if off = 0x0C8 then rpt 3 * 65536 + rpt 2
  else if off = 0x0CC then rpt 5 * 65536 + rpt 4
  else 0

/-- A write of NODE_SER_LO or NODE_SER_HI, ignored unless the record is FREE (Table 4.8). -/
def effNodeSerial (high : Bool) (v : Word) (s : State) : WriteResult :=
  have id := s.fld Reg.LINEM_NODE_SEL 12 0
  if (s.node id).state ≠ 0 then .ignored s
  else .done (s.modNode id (fun n => { n with
    serial := if high then n.serial % 2 ^ 32 + v.toNat * 2 ^ 32 else n.serial / 2 ^ 32 * 2 ^ 32 + v.toNat }))

end Sys2Proof.Machine
end

