-- ==== Sys2Proof/Machine/Fence.lean ====
section
/-!
DEFINITION. The fence output (R333), the units unusable (R383) and the failure report (R335), which several families raise.
-/

namespace Sys2Proof.Machine

/-- A unit is lost through its test block or its domain (R383). -/
def State.unitBad (s : State) (block domain : Nat) : Bool := s.blockBad block || s.dom domain == 4

/-- The number of indices below n that a test picks. -/
def countBelow (n : Nat) (f : Nat → Bool) : Nat := ((List.range n).filter f).length

/-- The control cores in service (Table 19.1). -/
def State.coresLeft (s : State) : Nat := countBelow 4 (fun i => !(s.unitBad i (2 + i / 2)))

/-- The units unusable (R383): those present in the variant and lost, each counted once. -/
def State.unitsLost (s : State) : Nat :=
  have v := s.fac.variant
  (4 - s.coresLeft) +
    countBelow 16 (fun i => s.unitBad (0x10 + i) (7 + i / 8) || (s.fca.lanes.getD i {}).lost) +
    (if v = .h then 0 else countBelow 6 (fun i => s.unitBad (0x20 + i / 2) (11 + i / 2))) +
    (if v = .f ∨ v = .n then countBelow 2 (fun i => s.unitBad (0x23 + i) (14 + i)) else 0) +
    (if v = .f ∨ v = .s then countBelow 4 (fun i => s.unitBad (0x25 + i) (16 + i)) else 0) +
    b2n (s.unitBad 0x08 10) + b2n (s.unitBad 0x09 10) + b2n (s.unitBad 0x0A 10) +
    b2n (s.unitBad 0x07 10 || s.fld (Reg.CRY_ESTAT 3) 31 29 == 4) +
    countBelow 8 (fun i => (s.led.dies.getD i {}).state == 1) +
    2 * b2n (s.unitBad 0x0B 20) +
    (if s.dom 6 = 4 then 32 else s.boot.queuesBad.length)

/-- SUPSTAT.STATE: 0 OFF, 1 SENSE, 2 DWELL, 3 ON, 4 TRIPPED, 5 LOCKOUT, 6 FENCED (Table 6.6). The instant at which it changes is kept:
sensing and dwelling are timed by it. -/
def State.loopState (s : State) (n : Nat) : Nat := s.fld (Reg.LOOP_SUPSTAT n) 31 29
def State.setLoopState (s : State) (n v : Nat) : State :=
  { s with field := { s.field with loopSince := s.field.loopSince.put n s.uptime } }.setFld (Reg.LOOP_SUPSTAT n) 31 29 v

/-- SRC_EN of a port. -/
def State.srcEn (s : State) (n : Nat) : Bool := s.flag (Reg.LOOP_SUPCFG n) 0

/-- The source switches off; the loop's nodes are not powered. A port in LOCKOUT stays in it until RESTORE (R124). -/
def State.sourceOff (s : State) (n v : Nat) : State :=
  have st := s.loopState n
  if st = 5 then s
  else
    have s := s.setLoopState n v
    if st = 3 then s.endExchange (0x0C + n) else s

/-- Every source of the module is switched off, and its ports are FENCED (R126, R127). -/
def State.cutSources (s : State) : State :=
  (List.range 4).foldl (fun (s : State) n => if resourceInVariant s.fac.variant (0x0C + n) then s.sourceOff n 6 else s) s

/-- FENCE_IN: the line is asserted by either twin (R333). -/
def State.showFence (s : State) : State :=
  s.setFlag Reg.PAIRS_STAT 22 (s.flag Reg.PAIRS_STAT 21 || s.pairs.twinDrives)

/-- The twin is fenced: the line is asserted and its own output does not drive it (R333). -/
def State.fenced (s : State) : Bool := s.flag Reg.PAIRS_STAT 22 && !s.flag Reg.PAIRS_STAT 21

/-- A fence input that is asserted puts the module in FENCED: not in BLANK, FACTORY and RETIRED, where it is SOLO (Table 22.2). -/
def State.mayFence (s : State) : Bool := s.nv.lc != 0 && s.nv.lc != 1 && s.nv.lc != 6

/-- STATE of a port that may not source: FENCED where the twin is STANDBY or fenced (R126); and the ports that source are in it. -/
def State.offState (s : State) : Nat := if s.pairState = 2 ∨ s.pairState = 3 ∨ s.fenced then 6 else 0
def State.dropSources (s : State) : State :=
  (List.range 4).foldl (fun (s : State) n => if s.loopState n = 0 ∨ s.loopState n = 6 then s else s.sourceOff n s.offState) s

/-- The fence output is driven or released (R333). Where the twin drives the line and this module no longer does, its sources are
off (R127). -/
def State.setFence (s : State) (b : Bool) : State :=
  if s.flag Reg.PAIRS_STAT 21 = b then s
  else
    have s := { s with pairs := { s.pairs with fenceAt := if b then some s.uptime else none } }
    have s := ((s.setFlag Reg.PAIRS_STAT 21 b).showFence).send (.fence b)
    if s.fenced then s.cutSources else s

/-- A failure report is sent and the fence output released at the same instant (R335): FAIL stands in every heartbeat and pilot
until the twin is fenced. -/
def State.failureReport (s : State) : State :=
  ({ s with pairs := { s.pairs with failing := true } }.setFence false).send (.pairs 0x46 [])

/-- The failure report of an ACTIVE twin whose twin is SYNCED and reports fewer unusable units (R335). -/
def State.reportFailure (s : State) : State :=
  if s.pairState = 1 ∧ s.syncState = 2 ∧ s.fld Reg.PAIRS_TWIN_UNITS 15 0 < s.unitsLost ∧ !s.pairs.failing then s.failureReport
  else s

end Sys2Proof.Machine
end

