-- ==== Sys2Proof/Machine/B64.lean ====
section
/-!
DEFINITION. Binary64 as the module uses it (R145 to R150): each operation computes its exact result as a rational, or
encloses it between two rationals for exp, ln and pow, and rounds it once, ties to even. A value carries whether any
operation behind it signalled invalid operation, division by zero or overflow (R147).
-/

namespace Sys2Proof.Machine

/-- A binary64 value and whether an operation that led to it signalled an exception of R147. -/
structure F where
  bits : F64
  exc : Bool := false
  deriving DecidableEq, Repr

/-- What a pattern stands for: NaN, an infinity, or m × 2^e with a sign. -/
inductive Val where
  | nan
  | inf (neg : Bool)
  | fin (neg : Bool) (m : Nat) (e : Int)
  deriving DecidableEq, Repr

/-- The value of a pattern. -/
def valOf (b : F64) : Val :=
  have n := b.toNat
  have neg := n.testBit 63
  have ex : Nat := n / 2 ^ 52 % 2048
  have fr : Nat := n % 2 ^ 52
  if ex = 2047 then (if fr = 0 then .inf neg else .nan)
  else if ex = 0 then .fin neg fr (-1074)
  else .fin neg (2 ^ 52 + fr) ((ex : Int) - 1075)

/-- A pattern from a sign and the 63 bits below it. -/
def pack (neg : Bool) (low : Nat) : F64 := BitVec.ofNat 64 (b2n neg * 2 ^ 63 + low)

/-- The infinities, and the NaN that an invalid operation yields. -/
def infBits (neg : Bool) : F64 := pack neg 0x7FF0000000000000
def nanBits : F64 := 0x7FF8000000000000#64

/-- A positive rational n/d scaled by 2^e, rounded to an integer, ties to even. -/
def roundScaled (n d : Nat) (e : Int) : Nat :=
  have n' := if 0 ≤ e then n * 2 ^ e.toNat else n
  have d' := if 0 ≤ e then d else d * 2 ^ (-e).toNat
  have q := n' / d'
  have r := n' % d'
  if 2 * r < d' then q else if d' < 2 * r then q + 1 else q + q % 2

/-- The floor of the binary logarithm of a positive rational n/d. -/
def floorLog2 (n d : Nat) : Int :=
  have l : Int := (Nat.log2 n : Int) - Nat.log2 d
  have below := if 0 ≤ l then decide (n < d * 2 ^ l.toNat) else decide (n * 2 ^ (-l).toNat < d)
  if below then l - 1 else l

/-- The rational n/d × 2^e rounded to binary64 (R145), and whether it overflows. -/
def roundQ (neg : Bool) (n d : Nat) (e : Int) : F64 × Bool :=
  if n = 0 then (pack neg 0, false)
  else
    have q := max (floorLog2 n d + e - 52) (-1074)
    have low := (q + 1074).toNat * 2 ^ 52 + roundScaled n d (e - q)
    if low < 0x7FF0000000000000 then (pack neg low, false) else (infBits neg, true)

/-- A rounded rational as a value. -/
def F.ofQ (neg : Bool) (n d : Nat) (e : Int) (exc : Bool) : F :=
  have r := roundQ neg n d e
  ⟨r.1, exc || r.2⟩

/-- A pattern as a value, and the results of an exception. -/
def F.ofBits (b : F64) : F := ⟨b, false⟩
def F.invalid : F := ⟨nanBits, true⟩
def F.overInf (neg : Bool) : F := ⟨infBits neg, true⟩
def F.zero (neg : Bool := false) : F := ⟨pack neg 0, false⟩

/-- The conversion of an integer (Table 8.1). -/
def F.ofInt (i : Int) : F := F.ofQ (decide (i < 0)) i.natAbs 1 0 false
def F.ofNat (n : Nat) : F := F.ofQ false n 1 0 false

/-- A decimal constant m × 10^-k, to the nearest binary64 value (R150). -/
def F.dec (m k : Nat) : F := F.ofQ false m (10 ^ k) 0 false

/-- The kind of a value. -/
def F.val (a : F) : Val := valOf a.bits
/-- The value with the exceptions of others added. -/
def F.also (a : F) (b : Bool) : F := { a with exc := a.exc || b }

/-- A value is a finite number; it is NaN. -/
def F.finite (a : F) : Bool := match a.val with | .fin .. => true | _ => false
def F.isNan (a : F) : Bool := match a.val with | .nan => true | _ => false

/-- The sign bit alone (negation and absolute value are exact). -/
def F.neg (a : F) : F := { a with bits := a.bits ^^^ 0x8000000000000000#64 }
def F.abs (a : F) : F := { a with bits := a.bits &&& 0x7FFFFFFFFFFFFFFF#64 }

/-- A finite value as an integer over 2^-e, for a common exponent e at or below its own. -/
def atExp (neg : Bool) (m : Nat) (e base : Int) : Int :=
  have v : Int := (m * 2 ^ (e - base).toNat : Nat)
  if neg then -v else v

/-- Addition. -/
def F.add (a b : F) : F :=
  have exc := a.exc || b.exc
  match a.val, b.val with
  | .nan, _ => ⟨a.bits, exc⟩
  | _, .nan => ⟨b.bits, exc⟩
  | .inf x, .inf y => if x = y then ⟨a.bits, exc⟩ else F.invalid
  | .inf _, _ => ⟨a.bits, exc⟩
  | _, .inf _ => ⟨b.bits, exc⟩
  | .fin x m e, .fin y n f =>
    have base := min e f
    have sum := atExp x m e base + atExp y n f base
    if sum = 0 then ⟨pack (x && y) 0, exc⟩ else F.ofQ (decide (sum < 0)) sum.natAbs 1 base exc

/-- Subtraction. -/
def F.sub (a b : F) : F := if b.isNan then ⟨b.bits, a.exc || b.exc⟩ else a.add b.neg

/-- Multiplication. -/
def F.mul (a b : F) : F :=
  have exc := a.exc || b.exc
  match a.val, b.val with
  | .nan, _ => ⟨a.bits, exc⟩
  | _, .nan => ⟨b.bits, exc⟩
  | .inf x, .inf y => ⟨infBits (x != y), exc⟩
  | .inf x, .fin y n _ => if n = 0 then F.invalid else ⟨infBits (x != y), exc⟩
  | .fin x m _, .inf y => if m = 0 then F.invalid else ⟨infBits (x != y), exc⟩
  | .fin x m e, .fin y n f => F.ofQ (x != y) (m * n) 1 (e + f) exc

/-- Division. -/
def F.div (a b : F) : F :=
  have exc := a.exc || b.exc
  match a.val, b.val with
  | .nan, _ => ⟨a.bits, exc⟩
  | _, .nan => ⟨b.bits, exc⟩
  | .inf _, .inf _ => F.invalid
  | .inf x, .fin y _ _ => ⟨infBits (x != y), exc⟩
  | .fin x _ _, .inf y => ⟨pack (x != y) 0, exc⟩
  | .fin x m e, .fin y n f =>
    if n = 0 then (if m = 0 then F.invalid else F.overInf (x != y))
    else F.ofQ (x != y) m n (e - f) exc

/-- The integer square root, bit by bit from bit `k` down. -/
def isqrtFrom (n : Nat) : Nat → Nat → Nat
  | 0, r => if (r + 1) * (r + 1) ≤ n then r + 1 else r
  | k + 1, r => isqrtFrom n k (if (r + 2 ^ (k + 1)) * (r + 2 ^ (k + 1)) ≤ n then r + 2 ^ (k + 1) else r)
def isqrt (n : Nat) : Nat := isqrtFrom n (Nat.log2 n / 2 + 1) 0

/-- The square root: the integer root of enough bits, with a bit below them for the remainder. -/
def F.sqrt (a : F) : F :=
  match a.val with
  | .nan => a
  | .inf neg => if neg then F.invalid else a
  | .fin neg m e =>
    if m = 0 then a
    else if neg then F.invalid
    else
      have sh : Nat := if e % 2 = 0 then 120 else 121
      have n := m * 2 ^ sh
      have r := isqrt n
      F.ofQ false (2 * r + b2n (decide (r * r ≠ n))) 1 ((e - sh) / 2 - 1) a.exc

/-- Comparison of values; a comparison with NaN is false. -/
def F.le (a b : F) : Bool :=
  match a.val, b.val with
  | .nan, _ => false
  | _, .nan => false
  | .inf x, .inf y => x || !y
  | .inf x, _ => x
  | _, .inf y => !y
  | .fin x m e, .fin y n f => decide (atExp x m e (min e f) ≤ atExp y n f (min e f))
def F.lt (a b : F) : Bool := !a.isNan && !b.isNan && !(b.le a)

/-- Scaling by 2^k. -/
def F.scalb (a : F) (k : Int) : F :=
  match a.val with
  | .fin neg m e => F.ofQ neg m 1 (e + k) a.exc
  | _ => a

/-- The sum of the series z + z³/3 + z⁵/5 + … in units of 2^-p, for z in the same units and at most a third of 1: each
division rounds down, so the sum is a lower bound. -/
def atanhSum (p z2 : Nat) : Nat → Nat → Nat → Nat → Nat
  | 0, _, _, acc => acc
  | fuel + 1, k, pw, acc => atanhSum p z2 fuel (k + 2) (pw * z2 / 2 ^ p) (acc + pw / k)

/-- The terms of the series at precision p, and the width of the enclosure that its roundings leave. -/
abbrev atanhTerms (p : Nat) : Nat := p / 3 + 4
abbrev atanhSlack (p : Nat) : Nat := 8 * atanhTerms p + 32

/-- A lower bound of 2 artanh(n/d) in units of 2^-p, for n/d at most 1/3; twice `atanhSlack` above it is an upper one. -/
def atanh2 (p n d : Nat) : Nat :=
  have z := n * 2 ^ p / d
  2 * atanhSum p (z * z / 2 ^ p) (atanhTerms p) 1 z 0

/-- An enclosure between two integers in units of 2^-p. -/
structure Encl where
  lo : Int
  hi : Int

/-- ln 2 = 2 artanh(1/3). -/
def ln2Encl (p : Nat) : Encl :=
  have l := atanh2 p 1 3
  ⟨l, l + 2 * atanhSlack p⟩

/-- ln of m × 2^e for m > 0: with m scaled to lie between 3/4 and 3/2, ln m is 2 artanh((m - 1)/(m + 1)). -/
def lnEncl (p m : Nat) (e : Int) : Encl :=
  have l := Nat.log2 m
  have high := decide (3 * 2 ^ l ≤ 2 * m)
  have one := if high then 2 ^ (l + 1) else 2 ^ l
  have k : Int := e + l + (if high then 1 else 0)
  have two := ln2Encl p
  have base : Encl := if 0 ≤ k then ⟨k * two.lo, k * two.hi⟩ else ⟨k * two.hi, k * two.lo⟩
  if one ≤ m then
    have a := atanh2 p (m - one) (m + one)
    ⟨base.lo + a, base.hi + a + 2 * atanhSlack p⟩
  else
    have a := atanh2 p (one - m) (m + one)
    ⟨base.lo - a - 2 * atanhSlack p, base.hi - a⟩

/-- The sum 1 + r + r²/2! + … in units of 2^-p, each division rounded down. -/
def expSum (p r : Nat) : Nat → Nat → Nat → Nat → Nat
  | 0, _, _, acc => acc
  | fuel + 1, k, t, acc => expSum p r fuel (k + 1) (t * r / (k * 2 ^ p)) (acc + t)
abbrev expTerms (p : Nat) : Nat := p / 4 + 20

/-- e^t for an enclosed t in units of 2^-p: the enclosure of the mantissa in units of 2^-p, and the power of two. -/
def expEncl (p : Nat) (t : Encl) : Encl × Int :=
  have two := ln2Encl p
  have k := t.lo / (if 0 ≤ t.lo then two.hi else two.lo)
  have rlo := t.lo - k * (if 0 ≤ k then two.hi else two.lo)
  have rhi := t.hi - k * (if 0 ≤ k then two.lo else two.hi)
  have n := expTerms p
  (⟨expSum p rlo.toNat n 1 (2 ^ p) 0, expSum p rhi.toNat n 1 (2 ^ p) 0 + 4 * n + 16⟩, k)

/-- The precisions tried one after the other until an enclosure rounds to one value (log 20). -/
def precisions : List Nat := [128, 256, 512, 1024, 2048]

/-- The first enclosure whose ends round to one value gives the correctly rounded result. -/
def roundEncl (f : Nat → (F64 × Bool) × (F64 × Bool)) : List Nat → F64 × Bool
  | [] => (f 4096).1
  | p :: ps =>
    have r := f p
    if r.1 = r.2 then r.1 else roundEncl f ps

/-- An enclosure of a positive result with a power of two, rounded at both ends. -/
def roundBoth (neg : Bool) (p : Nat) (x : Encl × Int) : (F64 × Bool) × (F64 × Bool) :=
  (roundQ neg x.1.lo.toNat 1 (x.2 - p), roundQ neg x.1.hi.toNat 1 (x.2 - p))

/-- e^t rounded from enclosures of t: beyond the range of the format the result overflows, or rounds to zero. -/
def expFrom (neg : Bool) (enc : Nat → Encl) (p : Nat) : (F64 × Bool) × (F64 × Bool) :=
  have t := enc p
  if 1100 * 2 ^ p ≤ t.lo then ((infBits neg, true), (infBits neg, true))
  else if t.hi ≤ -1200 * 2 ^ p then ((pack neg 0, false), (pack neg 0, false))
  else if 1200 * 2 ^ p ≤ t.hi ∨ t.lo ≤ -1300 * 2 ^ p then ((infBits neg, true), (pack neg 0, false))
  else roundBoth neg p (expEncl p t)

/-- A signed m × 2^e as an enclosure in units of 2^-p. -/
def dyadicEncl (neg : Bool) (m : Nat) (e : Int) (p : Nat) : Encl :=
  have v := atExp neg m (e + p) (min 0 (e + p))
  have d : Int := 2 ^ (-(min 0 (e + p))).toNat
  ⟨v / d, -((-v) / d)⟩

/-- The exponential, correctly rounded (R146). An argument beyond 2^11 overflows or rounds to zero. -/
def F.exp (a : F) : F :=
  match a.val with
  | .nan => a
  | .inf neg => if neg then { F.zero with exc := a.exc } else a
  | .fin neg m e =>
    if m = 0 then { F.ofNat 1 with exc := a.exc }
    else if (11 : Int) ≤ e + Nat.log2 m then (if neg then { F.zero with exc := a.exc } else F.overInf false)
    else
      have r := roundEncl (expFrom false (dyadicEncl neg m e)) precisions
      ⟨r.1, a.exc || r.2⟩

/-- The natural logarithm, correctly rounded (R146). -/
def F.ln (a : F) : F :=
  match a.val with
  | .nan => a
  | .inf neg => if neg then F.invalid else a
  | .fin neg m e =>
    if m = 0 then F.overInf true
    else if neg then F.invalid
    else if a.bits = 0x3FF0000000000000#64 then { F.zero with exc := a.exc }
    else
      have r := roundEncl (fun p =>
        have l := lnEncl p m e
        have down := decide (l.hi ≤ 0)
        (roundQ down l.lo.natAbs 1 (-p), roundQ down l.hi.natAbs 1 (-p))) precisions
      ⟨r.1, a.exc || r.2⟩

/-- Drops the factors of two of a positive integer: the odd part and their number. -/
def oddPart : Nat → Nat → Nat → Nat × Nat
  | 0, m, k => (m, k)
  | fuel + 1, m, k => if m % 2 = 0 then oddPart fuel (m / 2) (k + 1) else (m, k)

/-- The 2^k-th root of m × 2^e, where it is exact. -/
def exactRoot : Nat → Nat → Int → Option (Nat × Int)
  | 0, m, e => some (m, e)
  | k + 1, m, e =>
    have m' := if e % 2 = 0 then m else 2 * m
    have e' := if e % 2 = 0 then e else e - 1
    have r := isqrt m'
    if r * r = m' then exactRoot k r (e' / 2) else none

/-- |x|^y for a positive finite x = m × 2^e and a finite y = ± n × 2^f that is not 0: exact where the result is rational
with a small power, else through exp(y ln x). -/
def powFinite (neg : Bool) (m : Nat) (e : Int) (yneg : Bool) (n : Nat) (f : Int) : F64 × Bool :=
  have x := oddPart 64 m 0
  have y := oddPart 64 n 0
  have m := x.1
  have e := e + x.2
  have f := f + y.2
  have root := if 0 ≤ f then some (m, e) else if f < -6 then none else exactRoot (-f).toNat m e
  have n' := if 0 ≤ f then (if f ≤ 12 then y.1 * 2 ^ f.toNat else 100000) else y.1
  have general := roundEncl (expFrom neg (fun p =>
    have l := lnEncl p m e
    have a := l.lo * (if yneg then -(y.1 : Int) else y.1)
    have b := l.hi * (if yneg then -(y.1 : Int) else y.1)
    have lo := min a b
    have hi := max a b
    if 0 ≤ f then ⟨lo * 2 ^ f.toNat, hi * 2 ^ f.toNat⟩
    else
      have d : Int := 2 ^ (-f).toNat
      ⟨lo / d, -((-hi) / d)⟩)) precisions
  match root with
  | some (r, g) =>
    if n' ≤ 64 then
      (if yneg then roundQ neg 1 (r ^ n') (-(g * n')) else roundQ neg (r ^ n') 1 (g * n'))
    else if r = 1 ∧ n' ≤ 4096 then roundQ neg 1 1 (if yneg then -(g * n') else g * n')
    else general
  | none => general

/-- A finite ± n × 2^f is an integer; an odd one. -/
def isInteger (n : Nat) (f : Int) : Bool := decide (0 ≤ f) || n % 2 ^ (-f).toNat == 0
def isOddInteger (n : Nat) (f : Int) : Bool :=
  if 0 < f then false else n % 2 ^ (-f).toNat == 0 && n / 2 ^ (-f).toNat % 2 == 1

/-- The power with the special cases of IEEE 754-2019, clause 9.2.1 (R146). -/
def F.pow (a b : F) : F :=
  have exc := a.exc || b.exc
  have one := F.ofNat 1
  have small := a.abs.lt one
  match a.val, b.val with
  | x, .fin yneg n f =>
    if n = 0 then { one with exc := exc }
    else match x with
      | .nan => ⟨a.bits, exc⟩
      | .inf neg =>
        have s := neg && isOddInteger n f
        if yneg then ⟨pack s 0, exc⟩ else ⟨infBits s, exc⟩
      | .fin neg m e =>
        have s := neg && isOddInteger n f
        if m = 0 then (if yneg then F.overInf s else ⟨pack s 0, exc⟩)
        else if neg && !isInteger n f then F.invalid
        else
          have r := powFinite s m e yneg n f
          ⟨r.1, exc || r.2⟩
  | x, .inf yneg =>
    if x = .nan then ⟨a.bits, exc⟩
    else if a.abs.bits = one.bits then { one with exc := exc }
    else if small = yneg then ⟨infBits false, exc⟩ else { F.zero with exc := exc }
  | _, .nan => if a.bits = one.bits then { one with exc := exc } else ⟨b.bits, exc⟩

/-- An increment as an integer of 2^-40 units, ties to even, and whether it saturated (R155). An increment that is not
a number contributes nothing. -/
def F.toFixed (a : F) : Int × Bool :=
  have top : Int := 2 ^ 126 - 1
  match a.val with
  | .nan => (0, false)
  | .inf neg => (if neg then -top else top, true)
  | .fin neg m e =>
    if 126 ≤ (e + 40 + Nat.log2 m : Int) ∧ m ≠ 0 then (if neg then -top else top, true)
    else
      have q := roundScaled m 1 (e + 40)
      if 2 ^ 126 ≤ q then (if neg then -top else top, true)
      else ((if neg then -(q : Int) else q), false)

/-- The operators of a formula, for local use: + - * / and decimal constants. -/
abbrev F.hAdd : Add F := ⟨F.add⟩
abbrev F.hSub : Sub F := ⟨F.sub⟩
abbrev F.hMul : Mul F := ⟨F.mul⟩
abbrev F.hDiv : Div F := ⟨F.div⟩
abbrev F.hNeg : Neg F := ⟨F.neg⟩
abbrev F.hLit : OfScientific F := ⟨fun m s e => if s then F.dec m e else F.ofNat (m * 10 ^ e)⟩

end Sys2Proof.Machine
end

