-- ==== Sys2Proof/Machine/Properties.lean ====
section
/-!
DEFINITION. Properties of water, steam and compressed air in the order of evaluation of R177 to R179. The coefficients
of IAPWS-IF97 are those published with the release (PRESUMED, log 21).
-/

namespace Sys2Proof.Machine

/-- A row of a coefficient table: the exponents I and J, and the coefficient as a sign, digits and power of ten. -/
structure PropRow where
  i : Int
  j : Int
  neg : Bool
  digits : Nat
  scale : Nat

/-- The coefficient of a row, rounded once (R150). -/
def PropRow.n (r : PropRow) : F := if r.neg then (F.dec r.digits r.scale).neg else F.dec r.digits r.scale

/-- Region 1: I, J and n, i = 1 to 34. -/
def region1Rows : List PropRow :=
  [⟨0, -2, false, 14632971213167, 14⟩, ⟨0, -1, true, 84548187169114, 14⟩, ⟨0, 0, true, 37563603672040, 13⟩,
    ⟨0, 1, false, 33855169168385, 13⟩, ⟨0, 2, true, 95791963387872, 14⟩, ⟨0, 3, false, 15772038513228, 14⟩,
    ⟨0, 4, true, 16616417199501, 15⟩, ⟨0, 5, false, 81214629983568, 17⟩, ⟨1, -9, false, 28319080123804, 17⟩,
    ⟨1, -7, true, 60706301565874, 17⟩, ⟨1, -1, true, 18990068218419, 15⟩, ⟨1, 0, true, 32529748770505, 15⟩] ++
  [⟨1, 1, true, 21841717175414, 15⟩, ⟨1, 3, true, 52838357969930, 18⟩, ⟨2, -3, true, 47184321073267, 17⟩,
    ⟨2, 0, true, 30001780793026, 17⟩, ⟨2, 1, false, 47661393906987, 18⟩, ⟨2, 3, true, 44141845330846, 19⟩,
    ⟨2, 17, true, 72694996297594, 29⟩, ⟨3, -4, true, 31679644845054, 18⟩, ⟨3, 0, true, 28270797985312, 19⟩,
    ⟨3, 6, true, 85205128120103, 23⟩, ⟨4, -5, true, 22425281908000, 19⟩, ⟨4, -2, true, 65171222895601, 20⟩] ++
  [⟨4, 10, true, 14341729937924, 26⟩, ⟨5, -8, true, 40516996860117, 20⟩, ⟨8, -11, true, 12734301741641, 22⟩,
    ⟨8, -6, true, 17424871230634, 23⟩, ⟨21, -29, true, 68762131295531, 32⟩, ⟨23, -31, false, 14478307828521, 33⟩,
    ⟨29, -38, false, 26335781662795, 36⟩, ⟨30, -39, true, 11947622640071, 36⟩, ⟨31, -40, false, 18228094581404, 37⟩,
    ⟨32, -41, true, 93537087292458, 39⟩]

/-- Region 2, ideal part: J0 and n0, i = 1 to 9. -/
def region2Ideal : List PropRow :=
  [⟨0, 0, true, 96927686500217, 13⟩, ⟨0, 1, false, 10086655968018, 12⟩, ⟨0, -5, true, 56087911283020, 16⟩,
    ⟨0, -4, false, 71452738081455, 15⟩, ⟨0, -3, true, 40710498223928, 14⟩, ⟨0, -2, false, 14240819171444, 13⟩,
    ⟨0, -1, true, 43839511319450, 13⟩, ⟨0, 2, true, 28408632460772, 14⟩, ⟨0, 3, false, 21268463753307, 15⟩]

/-- Region 2, residual part: I, J and n, i = 1 to 43. -/
def region2Rows : List PropRow :=
  [⟨1, 0, true, 17731742473213, 16⟩, ⟨1, 1, true, 17834862292358, 15⟩, ⟨1, 2, true, 45996013696365, 15⟩,
    ⟨1, 3, true, 57581259083432, 15⟩, ⟨1, 6, true, 50325278727930, 15⟩, ⟨2, 1, true, 33032641670203, 18⟩,
    ⟨2, 2, true, 18948987516315, 17⟩, ⟨2, 4, true, 39392777243355, 16⟩, ⟨2, 7, true, 43797295650573, 15⟩,
    ⟨2, 36, true, 26674547914087, 18⟩, ⟨3, 0, false, 20481737692309, 21⟩, ⟨3, 1, false, 43870667284435, 20⟩,
    ⟨3, 3, true, 32277677238570, 18⟩, ⟨3, 6, true, 15033924542148, 16⟩, ⟨3, 35, true, 40668253562649, 15⟩] ++
  [⟨4, 1, true, 78847309559367, 23⟩, ⟨4, 2, false, 12790717852285, 21⟩, ⟨4, 3, false, 48225372718507, 20⟩,
    ⟨5, 7, false, 22922076337661, 19⟩, ⟨6, 3, true, 16714766451061, 24⟩, ⟨6, 16, true, 21171472321355, 16⟩,
    ⟨6, 35, true, 23895741934104, 12⟩, ⟨7, 0, true, 59059564324270, 31⟩, ⟨7, 11, true, 12621808899101, 19⟩,
    ⟨7, 25, true, 38946842435739, 15⟩, ⟨8, 8, false, 11256211360459, 24⟩, ⟨8, 36, true, 82311340897998, 13⟩,
    ⟨9, 13, false, 19809712802088, 21⟩, ⟨10, 4, false, 10406965210174, 32⟩, ⟨10, 10, true, 10234747095929, 26⟩] ++
  [⟨10, 14, true, 10018179379511, 22⟩, ⟨16, 29, true, 80882908646985, 24⟩, ⟨16, 50, false, 10693031879409, 14⟩,
    ⟨18, 57, true, 33662250574171, 14⟩, ⟨20, 20, false, 89185845355421, 38⟩, ⟨20, 35, false, 30629316876232, 26⟩,
    ⟨20, 48, true, 42002467698208, 19⟩, ⟨21, 21, true, 59056029685639, 39⟩, ⟨22, 53, false, 37826947613457, 19⟩,
    ⟨23, 39, true, 12768608934681, 28⟩, ⟨24, 26, false, 73087610595061, 42⟩, ⟨24, 40, false, 55414715350778, 30⟩,
    ⟨24, 58, true, 94369707241210, 20⟩]

/-- The coefficients n1 to n10 of region 4, and n1 to n3 of the B23 line. -/
def sat (k : Nat) : F :=
  match k with
  | 1 => F.dec 116705214527670 11
  | 2 => (F.dec 72421316703206 8).neg
  | 3 => (F.dec 17073846940092 12).neg
  | 4 => F.dec 12020824702470 9
  | 5 => (F.dec 32325550322333 7).neg
  | 6 => F.dec 14915108613530 12
  | 7 => (F.dec 48232657361591 10).neg
  | 8 => F.dec 40511340542057 8
  | 9 => (F.dec 23855557567849 14).neg
  | _ => F.dec 65017534844798 11
def b23 (k : Nat) : F :=
  match k with
  | 1 => F.dec 34805185628969 11
  | 2 => (F.dec 11671859879975 13).neg
  | _ => F.dec 10192970039326 16

/-- A sum in row order: the accumulator starts with the first term (R148). -/
def sumRows (f : PropRow → F) : List PropRow → F
  | [] => F.zero
  | r :: rs => rs.foldl (fun acc r => acc.add (f r)) (f r)

/-- The power with an integer exponent, which enters through b64 (R178). -/
def F.powInt (a : F) (k : Int) : F := a.pow (F.ofInt k)

/-- Specific volume and specific enthalpy. -/
structure Props where
  v : F
  h : F

/-- Region 1 (R178). -/
def region1 (p t : F) : Props :=
  haveI := F.hAdd; haveI := F.hSub; haveI := F.hMul; haveI := F.hDiv; haveI := F.hLit
  let pr := p / 16530000.0
  let tau := (1386.0 : F) / t
  let a := (7.1 : F) - pr
  let b := tau - 1.222
  let gpi := sumRows (fun r => r.n.neg * F.ofInt r.i * a.powInt (r.i - 1) * b.powInt r.j) region1Rows
  let gtau := sumRows (fun r => r.n * a.powInt r.i * F.ofInt r.j * b.powInt (r.j - 1)) region1Rows
  ⟨(461.526 : F) * t / p * pr * gpi, (0.461526 : F) * t * tau * gtau⟩

/-- Region 2 (R178). -/
def region2 (p t : F) : Props :=
  haveI := F.hAdd; haveI := F.hSub; haveI := F.hMul; haveI := F.hDiv; haveI := F.hLit
  let pr := p / 1000000.0
  let tau := (540.0 : F) / t
  let b := tau - 0.5
  let gpi := (1.0 : F) / pr + sumRows (fun r => r.n * F.ofInt r.i * pr.powInt (r.i - 1) * b.powInt r.j) region2Rows
  let g0tau := sumRows (fun r => r.n * F.ofInt r.j * tau.powInt (r.j - 1)) region2Ideal
  let grtau := sumRows (fun r => r.n * pr.powInt r.i * F.ofInt r.j * b.powInt (r.j - 1)) region2Rows
  ⟨(461.526 : F) * t / p * pr * gpi, (0.461526 : F) * t * tau * (g0tau + grtau)⟩

/-- The density of a specific volume. -/
def rhoOf (v : F) : F := (F.dec 1 0).div v

/-- The saturation pressure of a temperature (R178). -/
def satPressure (t : F) : F :=
  haveI := F.hAdd; haveI := F.hSub; haveI := F.hMul; haveI := F.hDiv; haveI := F.hLit
  let th := t + sat 9 / (t - sat 10)
  let aa := th * th + sat 1 * th + sat 2
  let bb := sat 3 * th * th + sat 4 * th + sat 5
  let cc := sat 6 * th * th + sat 7 * th + sat 8
  ((2.0 : F) * cc / (bb.neg + (bb * bb - (4.0 : F) * aa * cc).sqrt)).pow 4.0 * 1000000.0

/-- The saturation temperature of a pressure (R178). -/
def satTemperature (p : F) : F :=
  haveI := F.hAdd; haveI := F.hSub; haveI := F.hMul; haveI := F.hDiv; haveI := F.hLit
  let be := (p / 1000000.0).pow 0.25
  let ee := be * be + sat 3 * be + sat 6
  let ff := sat 1 * be * be + sat 4 * be + sat 7
  let gg := sat 2 * be * be + sat 5 * be + sat 8
  let dd := (2.0 : F) * gg / (ff.neg - (ff * ff - (4.0 : F) * ee * gg).sqrt)
  (sat 10 + dd - ((sat 10 + dd) * (sat 10 + dd) - (4.0 : F) * (sat 9 + sat 10 * dd)).sqrt) / 2.0

/-- The B23 line (R177). -/
def b23Pressure (t : F) : F :=
  haveI := F.hAdd; haveI := F.hMul; haveI := F.hLit
  (b23 1 + b23 2 * t + b23 3 * t * t) * 1000000.0

/-- The quality that the properties of a point have: good, wet or outside the domain. -/
inductive Domain where
  | good | wet | out
  deriving DecidableEq, Repr

/-- What Table 9.5 selects: the quality, and the region with its temperature. -/
structure Selection where
  dom : Domain
  steam : Bool := false
  t : F

/-- Table 9.5 in row order, by medium 0 WATER, 1 STEAM, 2 SATSTEAM. -/
def selectRegion (medium : Nat) (p t wetm : F) : Selection :=
  haveI := F.hAdd; haveI := F.hSub; haveI := F.hLit
  let out : Selection := { dom := .out, t := t }
  if t.lt 273.15 || F.lt 100000000.0 p || p.lt 611.213 then out
  else if medium = 0 then
    if F.lt 22064000.0 p || F.lt 623.15 t then out
    else
      let ts := satTemperature p
      if ts.lt t then out
      else if (ts - wetm).lt t then { dom := .wet, t := t }
      else { dom := .good, t := t }
  else if medium = 1 then
    if F.lt 1073.15 t || F.lt 623.15 t && (b23Pressure t).lt p then out
    else if t.le 623.15 && F.lt 22064000.0 p then out
    else if t.le 623.15 then
      let ts := satTemperature p
      if t.lt ts then { dom := .wet, steam := true, t := ts }
      else if t.lt (ts + wetm) then { dom := .wet, steam := true, t := t }
      else { dom := .good, steam := true, t := t }
    else { dom := .good, steam := true, t := t }
  else if F.lt 16529000.0 p then out
  else { dom := .good, steam := true, t := satTemperature p }

/-- The density of air at a pressure, a temperature and a relative humidity (R179, Table 9.6). -/
def airDensity (p t rh : F) : F :=
  haveI := F.hAdd; haveI := F.hSub; haveI := F.hMul; haveI := F.hDiv; haveI := F.hLit; haveI := F.hNeg
  let bv := ((-0.7247 : F) / t + (-0.01263 : F)) / t + 0.00004245
  let z := (1.0 : F) + bv * p / ((8.314462618 : F) * t)
  let xv := if F.le 273.15 t then rh * satPressure t / p else F.zero
  let mm := (0.028965 : F) * ((1.0 : F) - xv) + (0.018015 : F) * xv
  p * mm / (z * 8.314462618 * t)

/-- The quality of air at a pressure, a temperature and a relative humidity (R179). -/
def airDomain (p t rh : F) : Domain :=
  haveI := F.hMul; haveI := F.hLit
  if t.lt 200.0 || F.lt 400.0 t || p.lt 10000.0 || F.lt 5000000.0 p then .out
  else if F.le 273.15 t && p.le (rh * satPressure t) then .out
  else if F.le 0.95 rh then .wet else .good

end Sys2Proof.Machine
end

