-- ==== Sys2Proof/Machine/FlowPoint.lean ====
section
/-!
DEFINITION. The evaluation of one flow point from the values of its inputs (R163, R173 to R180): descriptor fields
(Table 9.1), parameter block slots (Table 9.3), scaling (R151), primary elements, linear meters and quantities.
-/

namespace Sys2Proof.Machine

/-- Fields of a descriptor, whose 64 bytes are one natural number, byte 0 lowest (Table 9.1). -/
abbrev Desc := Nat
/-- Bits hi:lo of the field at a byte offset. -/
def Desc.at (d : Desc) (off hi lo : Nat) : Nat := Machine.bits (8 * off + hi) (8 * off + lo) d
def Desc.ch (d : Desc) : Nat := d.at 0x00 19 0
def Desc.method (d : Desc) : Nat := d.at 0x00 23 20
def Desc.medium (d : Desc) : Nat := d.at 0x00 26 24
def Desc.qty (d : Desc) : Nat := d.at 0x00 28 27
def Desc.back (d : Desc) : Bool := d.at 0x00 29 29 == 1
def Desc.hostRes (d : Desc) : Bool := d.at 0x00 31 31 == 1
def Desc.arith (d : Desc) : Nat := d.at 0x04 7 0
def Desc.home (d : Desc) : Nat := d.at 0x04 11 8
def Desc.refset (d : Desc) : Nat := d.at 0x04 13 12
def Desc.netMode (d : Desc) : Nat := d.at 0x04 15 14
def Desc.waitCyc (d : Desc) : Nat := d.at 0x04 31 16
/-- LEAF, NODE and NCH of input i as the header packs them: LEAF 7:0, NODE 20:8, NCH 24:21; and its KIND. -/
def Desc.key (d : Desc) (i : Nat) : Nat := d.at (0x08 + 4 * i) 24 0
def Desc.kind (d : Desc) (i : Nat) : Nat := d.at (0x08 + 4 * i) 28 25
def Desc.leaf (d : Desc) : Nat := d.at 0x08 7 0
def Desc.pblk (d : Desc) : Nat := d.at 0x14 19 0
def Desc.hold (d : Desc) : Nat := d.at 0x14 27 20
def Desc.pairCh (d : Desc) : Nat := d.at 0x18 19 0
def Desc.eff (d : Desc) : Nat := d.at 0x20 63 0
def Desc.lowcut (d : Desc) : Nat := d.at 0x28 63 0
/-- The element of a descriptor is a primary element. -/
def Desc.primary (d : Desc) : Bool := d.method == 1 || d.method == 2 || d.method == 3

/-- A parameter block: its slots that are not zero. -/
abbrev Block := List (Nat × Nat)
/-- A slot as an integer and as a binary64 value. -/
def slotInt (b : Block) (i : Nat) : Nat := (b.lookup i).getD 0
def slotF (b : Block) (i : Nat) : F := F.ofBits (BitVec.ofNat 64 (slotInt b i))

/-- The value of a code that passes its range check, after the conversions of R151; none outside the limits (R173). -/
def scaleCode (b : Block) (i code : Nat) : Option F :=
  haveI := F.hAdd; haveI := F.hSub; haveI := F.hMul
  let lim := slotInt b (5 * i + 4)
  let read := fun c : Nat => if bit 34 lim then toSigned 16 c else (c : Int)
  if read code < read (bits 15 0 lim) ∨ read (bits 31 16 lim) < read code then none
  else
    let v := (F.ofInt (read code) - slotF b (5 * i)) * slotF b (5 * i + 1) + slotF b (5 * i + 2)
    let v := if i = 1 ∧ bit 35 lim then v + slotF b 15 else v
    some (if i = 2 ∧ bit 36 lim then v + F.dec 27315 2 else v)

/-- SUB_MODE of an input, and its substitute from the block or the last good value (R170). -/
def subMode (b : Block) (i : Nat) : Nat := bits 33 32 (slotInt b (5 * i + 4))
def substitute (b : Block) (i : Nat) (last : Option F64) : Option F :=
  if subMode b i = 1 then some (slotF b (5 * i + 3))
  else if subMode b i = 2 then last.map F.ofBits
  else none

/-- The factor u of a quantity (Table 8.3). -/
def unitFactor (qty : Nat) : F := if qty = 0 then F.dec 1000 0 else if qty = 1 then F.dec 1 0 else F.dec 1000000 0

/-- T_ref, p_ref and the relative humidity of a reference set (Table 8.4). -/
def refSet (b : Block) (set : Nat) : F × F × F :=
  if set = 0 then (F.dec 29315 2, F.dec 100000 0, F.dec 65 2)
  else if set = 1 then (F.dec 27315 2, F.dec 101325 0, F.zero)
  else (slotF b 23, slotF b 24, slotF b 25)

/-- The reference density of a descriptor (R179). -/
def rhoRef (d : Desc) (b : Block) : F :=
  have r := refSet b d.refset
  airDensity r.2.1 r.1 r.2.2

/-- What the properties of a point give: quality, density, specific enthalpy, and exceptions on the way. -/
structure Fluid where
  dom : Domain
  rho : F
  h : F
  exc : Bool

/-- The properties of a point (R177 to R179). -/
def fluidOf (d : Desc) (b : Block) (p t : F) : Fluid :=
  if d.medium = 3 then
    have dom := airDomain p t (slotF b 22)
    have rho := airDensity p t (slotF b 22)
    if dom = .out then ⟨.out, F.zero, F.zero, false⟩ else ⟨dom, rho, F.zero, rho.exc⟩
  else
    have sel := selectRegion d.medium p t (slotF b 18)
    if sel.dom = .out then ⟨.out, F.zero, F.zero, false⟩
    else
      have x := if sel.steam then region2 p sel.t else region1 p sel.t
      have rho := rhoOf x.v
      ⟨sel.dom, rho, x.h, rho.exc || x.h.exc⟩

/-- The result of a flow formula: its value, and whether it lies out of range. -/
structure Flow where
  value : F
  range : Bool := false

/-- Expansibility of an orifice; of a nozzle or venturi (R174). -/
def epsOrifice (b4 b8 tp kappa : F) : F :=
  haveI := F.hAdd; haveI := F.hSub; haveI := F.hMul; haveI := F.hDiv; haveI := F.hLit
  (1.0 : F) - ((0.351 : F) + (0.256 : F) * b4 + (0.93 : F) * b8) * ((1.0 : F) - tp.pow ((1.0 : F) / kappa))
def epsNozzle (b4 tp kappa : F) : F :=
  haveI := F.hAdd; haveI := F.hSub; haveI := F.hMul; haveI := F.hDiv; haveI := F.hLit
  (kappa * tp.pow ((2.0 : F) / kappa) / (kappa - 1.0) *
    (((1.0 : F) - b4) / ((1.0 : F) - b4 * tp.pow ((2.0 : F) / kappa))) *
    (((1.0 : F) - tp.pow ((kappa - 1.0) / kappa)) / ((1.0 : F) - tp))).sqrt

/-- The discharge coefficient of an orifice with its tappings (R174). -/
def cOrifice (tap : Nat) (beta b2 b4 b8 re dd : F) : F :=
  haveI := F.hAdd; haveI := F.hSub; haveI := F.hMul; haveI := F.hDiv; haveI := F.hLit; haveI := F.hNeg
  let l1 := if tap = 0 then (0.0 : F) else if tap = 1 then (0.0254 : F) / dd else 1.0
  let l2 := if tap = 0 then (0.0 : F) else if tap = 1 then (0.0254 : F) / dd else 0.47
  let ar := ((19000.0 : F) * beta / re).pow 0.8
  let m2 := (2.0 : F) * l2 / ((1.0 : F) - beta)
  let c := (0.5961 : F) + (0.0261 : F) * b2 - (0.216 : F) * b8 +
    (0.000521 : F) * ((1000000.0 : F) * beta / re).pow 0.7 +
    ((0.0188 : F) + (0.0063 : F) * ar) * beta.pow 3.5 * ((1000000.0 : F) / re).pow 0.3 +
    ((0.043 : F) + (0.08 : F) * F.exp ((-10.0 : F) * l1) - (0.123 : F) * F.exp ((-7.0 : F) * l1)) *
      ((1.0 : F) - (0.11 : F) * ar) * b4 / ((1.0 : F) - b4) -
    (0.031 : F) * (m2 - (0.8 : F) * m2.pow 1.1) * beta.pow 1.3
  if dd.lt 0.07112 then c + (0.011 : F) * ((0.75 : F) - beta) * ((2.8 : F) - dd / 0.0254) else c

/-- The discharge coefficient of a nozzle (R174). -/
def cNozzle (beta b2 re : F) : F :=
  haveI := F.hAdd; haveI := F.hSub; haveI := F.hMul; haveI := F.hDiv; haveI := F.hLit
  (0.99 : F) - (0.2262 : F) * beta.pow 4.1 -
    ((0.00175 : F) * b2 - (0.0033 : F) * beta.pow 4.15) * ((1000000.0 : F) / re).pow 1.15

/-- The iteration of R174: eight times through qm, re and c, from a start value; answers c and the last re. -/
def iterateC (cfun : F → F) (step : F → F × F) : Nat → F → F → F × F
  | 0, c, re => (c, re)
  | k + 1, c, _ => iterateC cfun step k (cfun (step c).2) (step c).2

/-- Re_D lies outside the range of its element (Table 9.4). -/
def reOut (method : Nat) (beta b2 re : F) : Bool :=
  haveI := F.hMul; haveI := F.hLit
  if method = 1 then (if beta.le 0.56 then re.lt 5000.0 else re.lt ((16000.0 : F) * b2))
  else if method = 2 then (if beta.lt 0.44 then re.lt 70000.0 else re.lt 20000.0) || F.lt 10000000.0 re
  else re.lt 200000.0 || F.lt 1000000.0 re

/-- The mass flow of a primary element (R174). -/
def primaryFlow (d : Desc) (b : Block) (dp p1 t rho : F) : Flow :=
  haveI := F.hAdd; haveI := F.hSub; haveI := F.hMul; haveI := F.hDiv; haveI := F.hLit
  let pi := F.ofBits 0x400921FB54442D18#64
  let bore := slotF b 26 * ((1.0 : F) + slotF b 28 * (t - 293.15))
  let dd := slotF b 27 * ((1.0 : F) + slotF b 29 * (t - 293.15))
  let kappa := slotF b 30
  let beta := bore / dd
  let b2 := beta.pow 2.0
  let b4 := beta.pow 4.0
  let b8 := beta.pow 8.0
  let e := (1.0 : F) / ((1.0 : F) - b4).sqrt
  let a := pi * bore * bore / 4.0
  let tp := (p1 - dp) / p1
  let eps := if d.medium = 0 then (1.0 : F) else if d.method = 1 then epsOrifice b4 b8 tp kappa else epsNozzle b4 tp kappa
  let k1 := e * eps * a * ((2.0 : F) * dp * rho).sqrt
  let mu := slotF b 20 + slotF b 21 * t
  let c0 : F := if d.method = 1 then 0.6 else if d.method = 2 then 0.99 else 0.995
  let cfun := fun re => if d.method = 1 then cOrifice (slotInt b 31) beta b2 b4 b8 re dd
    else if d.method = 2 then cNozzle beta b2 re else (0.995 : F)
  let step := fun c => (c * k1, (4.0 : F) * (c * k1) / (pi * mu * dd))
  let r := iterateC cfun step 8 c0 F.zero
  { value := (r.1 * k1).also (r.2.exc || tp.exc || b2.exc || b8.exc)
    range := reOut d.method beta b2 r.2 || tp.lt 0.75 }

/-- K of a frequency from row i of a K table on (R175). -/
def kRow (kb : Block) (f : F) : Nat → Nat → Option F
  | 0, _ => none
  | fuel + 1, i =>
    haveI := F.hAdd; haveI := F.hSub; haveI := F.hMul; haveI := F.hDiv
    let fa := slotF kb (2 * i)
    let ka := slotF kb (2 * i + 1)
    let fb := slotF kb (2 * i + 2)
    let kv := slotF kb (2 * i + 3)
    if f.le fb then some (ka + (f - fa) / (fb - fa) * (kv - ka)) else kRow kb f fuel (i + 1)
def kOf (kb : Block) (f : F) : Option F := if f.le (slotF kb 0) then some (slotF kb 1) else kRow kb f 15 0

/-- The volume flow of a frequency (R175). -/
def freqFlow (kb : Block) (f : F) : Flow :=
  match kOf kb f with
  | some k => { value := f.div k }
  | none => { value := F.zero, range := true }

/-- What a flow point comes to: its rate in billing units per second (the increment for VOLINC), the density for AUX,
its base quality code (5 DOMAIN, 3 RANGE, 4 WET, 0 GOOD) and the flags LOWCUT and ARITH. -/
structure PointOut where
  rate : F
  rho : F
  qual : Nat
  low : Bool
  arith : Bool

/-- The enthalpy that enters the energy of a point (R180). -/
def netEnthalpy (d : Desc) (b : Block) (h : F) : F := if d.netMode = 2 then h.sub (slotF b 19) else h

/-- The rate in billing units of a mass flow qm or a volume flow qv (R180, R152). -/
def quantity (d : Desc) (b : Block) (fl : Fluid) (q : F) (isMass : Bool) : F :=
  haveI := F.hMul; haveI := F.hDiv
  let u := unitFactor d.qty
  let qm := if isMass then q else q * fl.rho
  if d.qty = 0 then qm * u
  else if d.qty = 1 then qm * netEnthalpy d b fl.h * u
  else if d.qty = 2 then (if isMass then q / fl.rho else q) * u
  else qm / rhoRef d b * u

/-- The increment of a volume (R176). -/
def volumeIncrement (d : Desc) (b : Block) (fl : Fluid) (v : F) : F :=
  haveI := F.hMul; haveI := F.hDiv
  let u := unitFactor d.qty
  if d.qty = 0 then v * fl.rho * u
  else if d.qty = 1 then v * fl.rho * netEnthalpy d b fl.h * u
  else if d.qty = 2 then v * u
  else v * fl.rho / rhoRef d b * u

/-- The base quality of the properties. -/
def domQual (x : Domain) : Nat := match x with | .good => 0 | .wet => 4 | .out => 5

/-- A flow point from its three values (R163 to R180): x primary, p pressure, t temperature. -/
def flowPoint (d : Desc) (b kb : Block) (x p t : F) : PointOut :=
  have fl := fluidOf d b p t
  have low := x.lt (F.ofBits (BitVec.ofNat 64 d.lowcut))
  have noRho := d.method == 5 && d.qty == 2
  have rho := if noRho then F.zero else fl.rho
  have propExc := x.exc || p.exc || t.exc || (fl.exc && !noRho)
  if fl.dom = .out then ⟨F.zero, F.zero, 5, low, false⟩
  else if propExc then ⟨F.zero, F.zero, 5, low, true⟩
  else if low then ⟨F.zero, rho, domQual fl.dom, true, false⟩
  else
    have flow : Flow := if d.primary then primaryFlow d b x p t fl.rho
      else if d.method = 4 then freqFlow kb x else { value := x }
    have rate := if d.method = 5 then volumeIncrement d b fl x else quantity d b fl flow.value d.primary
    if flow.value.exc || (!flow.range && (rate.exc || !rate.finite)) then ⟨F.zero, F.zero, 5, false, true⟩
    else if flow.range then ⟨F.zero, rho, 3, false, false⟩
    else ⟨rate, rho, domQual fl.dom, false, false⟩

end Sys2Proof.Machine
end

