-- ==== Sys2Proof/Machine/LinePhy.lean ====
section
/-!
DEFINITION. The physical layer of the line channel: the header, the coding, the interleaving and the keying of a frame (R60 to R63),
the decoder and the blanker of the receiver (R63, R65, R66), and the frames that leave on a lane (R56, R58, R71). Phases are in
units of 1/(8 N_c) of a turn where the module sends, and of 1/65536 of a turn where it receives. What the rules leave open of them
is in log 99.
-/

namespace Sys2Proof.Machine

/-- The low n bits of a number, most significant bit first; the bits of octets; and the number and the octets of bits. -/
def bitsOf (n v : Nat) : List Bool := (List.range n).map (fun i => v.testBit (n - 1 - i))
def octetBits (l : List Byte) : List Bool := l.flatMap (fun o => bitsOf 8 o.toNat)
def bitsValue (l : List Bool) : Nat := l.foldl (fun a b => 2 * a + b2n b) 0
def bitsOctets : Nat → List Bool → List Byte
  | 0, _ => []
  | n + 1, l => BitVec.ofNat 8 (bitsValue (l.take 8)) :: bitsOctets n (l.drop 8)

/-- The header of a frame of the module (Table 3.3). -/
def lineHeader (mode len : Nat) (long : Bool) (lane : Nat) : Nat :=
  have h := mode * 2 ^ 29 + len * 2 ^ 20 + b2n long * 2 ^ 16 + lane * 2 ^ 13
  h + headerCheck h

/-- The scrambling sequence of x⁷ + x⁴ + 1 applied to bits, from a register on (R62). -/
def scramble : Nat → List Bool → List Bool
  | _, [] => []
  | r, b :: bs =>
    have o := r.testBit 6 != r.testBit 3
    (b != o) :: scramble (2 * r % 128 + b2n o) bs

/-- The two coded bits that the newest bit and the six before it give, the newest one most significant: the generators 171 and 133
(octal), in this order (R62). -/
def parityOf (w : Nat) : Bool := (List.range 7).foldl (fun p i => p != w.testBit i) false
def codedPair (w : Nat) : Bool × Bool := (parityOf (w &&& 0x79), parityOf (w &&& 0x5B))

/-- The rate-1/2 code from a register of six bits on (R62). -/
def convolve : Nat → List Bool → List Bool
  | _, [] => []
  | r, b :: bs =>
    have w := 64 * b2n b + r
    (codedPair w).1 :: (codedPair w).2 :: convolve (w / 2) bs

/-- The bits that a part sends before coding: itself and six zero tail bits (R62). -/
def withTail (l : List Bool) : List Bool := l ++ List.replicate 6 false

/-- The positions of a part of `total` bits, filled with coded bits that are each sent R times (R62). -/
def fillPart (rep total : Nat) (coded : List Bool) : List Bool :=
  (List.range total).map (fun p => coded.getD (p / rep % coded.length) false)

/-- A list cut into blocks of n elements, the last one shorter. -/
def blocksOf {α : Type} (n : Nat) : Nat → List α → List (List α)
  | 0, _ => []
  | fuel + 1, l => if l.isEmpty then [] else l.take n :: blocksOf n fuel (l.drop n)

/-- Interleaving within a block: element i goes to position 31 i mod M; and its inverse (R62). -/
def interleave (l : List Bool) : List Bool :=
  (l.zip (List.range l.length)).foldl (fun out x => out.set (31 * x.2 % l.length) x.1) l
def deinterleave (l : List Int) : List Int := (List.range l.length).map (fun i => l.getD (31 * i % l.length) 0)

/-- The phase advance of the bits of one carrier, in eighths of a turn: the place of the bits in the Gray sequence of their number
(R63). -/
def keyAdvance (l : List Bool) : Nat :=
  have place := ((List.range (2 ^ l.length)).find? (fun p => p ^^^ (p / 2) == bitsValue l)).getD 0
  place * 8 / 2 ^ l.length

/-- Symbols keyed differentially from a reference symbol on, N_c × b bits each (R63). -/
def keySymbols (nc b : Nat) : Nat → List Nat → List Bool → List (List Nat)
  | 0, _, _ => []
  | n + 1, ref, l =>
    have adv := (blocksOf b nc (l.take (nc * b))).map keyAdvance
    have sym := ref.zipWith (fun p a => (p + a * nc) % (8 * nc)) adv
    sym :: keySymbols nc b n sym (l.drop (nc * b))

/-- SYNC-A of a sub-band turned by an offset: 4 N_c is π and 2 N_c is π/2 (R60). -/
def syncSymbol (nc turn : Nat) : List Nat := (List.range nc).map (fun k => (4 * k * k + turn) % (8 * nc))

/-- The preamble of a frame, behind `long` further SYNC-A symbols (Table 3.2). -/
def preamble (nc mode long : Nat) : List (List Nat) :=
  List.replicate long (syncSymbol nc 0) ++
    (if mode ≤ 2 then [syncSymbol nc 0, syncSymbol nc (4 * nc)]
    else [syncSymbol nc 0, syncSymbol nc 0, syncSymbol nc 0, syncSymbol nc (2 * nc)])

/-- The coded, filled, repeated and interleaved bits of a part of n symbols (R62). -/
def codePart (nc b rep n : Nat) (bits : List Bool) : List Bool :=
  (blocksOf (8 * nc * b) n (fillPart rep (n * nc * b) (convolve 0 (withTail bits)))).flatMap interleave

/-- The payload bits of a frame: the octets and their check, scrambled (R62). -/
def payloadBits (octets : List Byte) : List Bool := scramble 127 (octetBits octets ++ bitsOf 16 (crc16 octets))

/-- The symbols of a header and of a payload (Table 3.2). -/
def headerSymbols (mode : Nat) : Nat := 2 * modeRep mode
def payloadSymbols (plan mode len : Nat) : Nat :=
  frameSymbols plan mode len - headerSymbols mode - (if mode ≤ 2 then 2 else 4)

/-- The symbols of a frame of the module, each as the phases of its carriers (R60 to R63). -/
def lineSymbols (plan mode lane long : Nat) (octets : List Byte) : List (List Nat) :=
  have nc := carriers plan
  have rep := modeRep mode
  have pre := preamble nc mode long
  have nh := headerSymbols mode
  have np := payloadSymbols plan mode octets.length
  have header := keySymbols nc 1 nh (pre.getLastD [])
    (codePart nc 1 rep nh (bitsOf 32 (lineHeader mode octets.length (decide (0 < long)) lane)))
  have body := keySymbols nc (modeBits mode) np (header.getLastD []) (codePart nc (modeBits mode) rep np (payloadBits octets))
  pre ++ header ++ body

/-- The soft bits of symbols, by carrier and bit: the measure of a bit, positive for 0, that the advance over the last symbol not
erased gives, weighted by the carrier's SNR; zero in an erased symbol (R63, R66). -/
def softBits (b : Nat) (weights : List Nat) : List Nat → List (List Nat × Bool) → List Int
  | _, [] => []
  | ref, (sym, erased) :: rest =>
    if erased then List.replicate (weights.length * b) 0 ++ softBits b weights ref rest
    else
      (weights.zip (sym.zip ref)).flatMap (fun x => (List.range b).map (fun i =>
          (x.1 : Int) * Config.softBit b ((x.2.1 + 65536 - x.2.2) % 65536) i))
        ++ softBits b weights sym rest

/-- The soft values of n coded bits: the sum over the positions that carry each (R62). -/
def gatherSoft (rep n : Nat) (l : List Int) : List Int :=
  (l.zip (List.range l.length)).foldl (fun out x => out.set (x.2 / rep % n) (out.getD (x.2 / rep % n) 0 + x.1)) (List.replicate n 0)

/-- A path of the decoder: its measure and its bits, newest first. -/
structure TrellisPath where
  metric : Int
  bits : List Bool
  deriving DecidableEq, Repr

/-- The better path into each of the 64 states after one more coded pair (R63). -/
def trellisStep (step : Nat) (a b : Int) (paths : List (Option TrellisPath)) : List (Option TrellisPath) :=
  (List.range 64).map (fun t =>
    have gain := fun (bit : Bool) (v : Int) => if bit then -v else v
    have into := fun low => (paths.getD (2 * t % 64 + low) none).map (fun p =>
      have o := codedPair (2 * t + low)
      (⟨p.metric + gain o.1 a + gain o.2 b, decide (32 ≤ t) :: p.bits⟩ : TrellisPath))
    match into 0, into 1 with
    | some p, some q =>
      if p.metric < q.metric then some q
      else if q.metric < p.metric then some p
      else if Config.trellisTie step t then some p else some q
    | some p, none => some p
    | none, q => q)

/-- The soft-decision Viterbi decoder: the paths after the coded pairs, from state 0 on, and the bits of the path that ends in
state 0, without the tail (R62, R63). -/
def trellis : Nat → List Int → List (Option TrellisPath) → List (Option TrellisPath)
  | step, a :: b :: rest, paths => trellis (step + 1) rest (trellisStep step a b paths)
  | _, _, paths => paths
def viterbi (l : List Int) : List Bool :=
  match (trellis 0 l (some ⟨0, []⟩ :: List.replicate 63 none)).getD 0 none with
  | some p => (p.bits.drop 6).reverse
  | none => []

/-- A part of `bits` bits decoded from its symbols (R62, R63, R66). -/
def decodePart (b rep bits : Nat) (weights ref : List Nat) (syms : List (List Nat × Bool)) : List Bool :=
  have m := 8 * weights.length * b
  viterbi (gatherSoft rep (2 * (bits + 6)) ((blocksOf m syms.length (softBits b weights ref syms)).flatMap deinterleave))

/-- A received frame with its header decoded, where the demodulator gave its symbols: the repetition is that of its preamble
(R60). An erased symbol's soft bits are zero (R66). -/
def withHeader (rx : LineRx) (erased : List Bool) : LineRx :=
  match rx.raw with
  | none => rx
  | some w =>
    have syms := w.header.zip (erased ++ List.replicate w.header.length false)
    { rx with header := BitVec.ofNat 32 (bitsValue (decodePart 1 (w.header.length / 2) 32 w.weights w.reference syms)) }

/-- The last of some symbols that is not erased, or else a reference before them (R66). -/
def lastWhole (ref : List Nat) (syms : List (List Nat)) (erased : List Bool) : List Nat :=
  (((syms.zip (erased ++ List.replicate syms.length false)).filter (fun x => !x.2)).getLast?.map (·.1)).getD ref

/-- A received frame with its payload and check decoded; an erased symbol's soft bits are zero, and the first symbol is keyed from the
last header symbol that is not erased (R62, R63, R66). -/
def withPayload (rx : LineRx) (headErased erased : List Bool) : LineRx :=
  match rx.raw with
  | none => rx
  | some w =>
    have mode := bits 31 29 rx.header.toNat
    have len := bits 28 20 rx.header.toNat
    have syms := w.body.zip (erased ++ List.replicate w.body.length false)
    have ref := lastWhole w.reference w.header headErased
    have bs := scramble 127 (decodePart (modeBits mode) (modeRep mode) (8 * len + 16) w.weights ref syms)
    { rx with payload := bitsOctets len bs, check := BitVec.ofNat 16 (bitsValue (bs.drop (8 * len))) }

/-- The blanker of a lane (R65): the last unblanked samples, newest first; for each sample of the stream, newest first, whether it is
zeroed; and how many more follow an excess. -/
structure Blanker where
  window : List Int
  marks : List Bool := []
  left : Nat := 0
  deriving DecidableEq, Repr

/-- One sample (R65): its magnitude is compared with BLANK_K/8 of the RMS of the last 256 unblanked samples; an excess zeroes it
with `ext` samples on each side. -/
def Blanker.sample (k ext : Nat) (b : Blanker) (x : Int) : Blanker :=
  have last := b.window.take 256
  have power := last.foldl (fun a y => a + y * y) 0
  if (k : Int) * k * power < 64 * last.length * x * x then
    have back := b.marks.take ext
    { window := b.window.drop (back.countP (fun m => !m))
      marks := true :: (List.replicate back.length true ++ b.marks.drop ext), left := ext }
  else if 0 < b.left then { b with marks := true :: b.marks, left := b.left - 1 }
  else { b with window := (x :: b.window).take 512, marks := false :: b.marks }

/-- The zeroed samples of each of some groups of samples, by their sizes. -/
def countGroups : List Nat → List Bool → List Nat
  | [], _ => []
  | n :: ns, m => (m.take n).countP (fun b => b) :: countGroups ns (m.drop n)

/-- BLANK_K of a lane (Table 3.7). -/
def State.blankK (s : State) (lane : Nat) : Nat := max 0x10 (s.fld (Reg.LINE_BLANKCFG lane) 15 8)

/-- The receiver of a lane passes groups of samples: the zeroed samples of each are counted in BLANK_SAMP (R65). Answers their
numbers. -/
def State.blank (s : State) (lane : Nat) (groups : List (List Int)) : List Nat × State :=
  have k := Reg.LINE_BLANKCFG lane
  if !(s.flag k 31) then (groups.map (fun _ => 0), s)
  else
    have b := (groups.flatMap id).foldl (Blanker.sample (s.blankK lane) (s.fld k 7 4)) { window := s.field.blankWin.getD lane [] }
    have s := { s with field := { s.field with blankWin := s.field.blankWin.put lane b.window } }
    have n := countGroups (groups.map List.length) b.marks.reverse
    (n, s.bump (Reg.LINE_BLANK_SAMP lane) (n.foldl (· + ·) 0))

/-- The symbols of which too many samples are zeroed: they are counted in SYM_ERASED (R66). A symbol has 560 samples with its
prefix. -/
def State.erase (s : State) (lane : Nat) (counts : List Nat) : List Bool × State :=
  have limit := 560 * max 1 (s.fld (Reg.LINE_BLANKCFG lane) 3 0)
  have e := counts.map (fun n => decide (limit < 16 * n))
  (e, s.bump (Reg.LINE_SYM_ERASED lane) (e.countP (fun b => b)))

/-- The sister lane of a line lane, which shares its coupler, driver and converter (R56). -/
def sisterOf (lane : Nat) : Nat := if lane % 2 = 0 then lane + 1 else lane - 1

/-- The sweep time at which a frame of a cycle starts on a lane (R58). -/
def State.laneTick (s : State) (lane cycle : Nat) : Nat := cycle * 65536 + s.frameStart lane

/-- One of some spans of sweep time meets the one from `a` up to `b`. -/
def spansMeet (l : List (Nat × Nat)) (a b : Nat) : Bool := l.any (fun x => decide (x.1 < b) && decide (a < x.2))

/-- The module sends, sent or will send on a line lane between two sweep times (R56). -/
def State.sending (s : State) (lane a b : Nat) : Bool := spansMeet (s.field.txSpans.getD lane []) a b

/-- The module sends, sent or will send on a line lane in the frames that can start in the cycles from `a` to `b`. -/
def State.sends (s : State) (lane a b : Nat) : Bool := s.sending lane (s.laneTick lane a) (s.laneTick lane (b + 1))

/-- A JCONF is due on a line lane in those cycles (R76, R82). -/
def State.awaits (s : State) (lane a b : Nat) : Bool :=
  spansMeet (s.field.dueSpans.getD lane []) (s.laneTick lane a) (s.laneTick lane (b + 1))

/-- A frame is expected on a line lane in those cycles: by its exchange, or a JCONF (R77). -/
def State.expects (s : State) (lane a b : Nat) : Bool :=
  (match s.field.exch.find lane with
    | some x => decide (x.rxFirst ≤ b) && decide (a ≤ x.last)
    | none => false) || s.awaits lane a b

/-- Frames that the module sends on a lane in the cycles `first` to `txLast`, and expects there in `rxFirst` to `last`, would make it
send on one lane of the phase in a cycle in which it expects a frame on the other (R77). -/
def State.sisterClash (s : State) (lane first txLast rxFirst last : Nat) : Bool :=
  s.expects (sisterOf lane) first txLast || s.sends (sisterOf lane) rxFirst last

/-- LINEn.STAT.STATE. -/
def State.setLineState (s : State) (lane v : Nat) : State := s.setFld (Reg.LINE_STAT lane) 31 29 v

/-- DERATE of a lane: 3 dB of thermal derating (R72), and what R71 adds while both lanes of the phase transmit. -/
def State.derate (s : State) (lane : Nat) (both : Bool) : Nat :=
  (if s.flag Reg.LINEC_PHFOLD (lanePhase lane - 1) then 3 else 0) +
    (if both then 3 - min 3 (min 30 (s.fld (Reg.LINE_PHYCFG lane) 12 8)) else 0)
def State.setDerate (s : State) (lane : Nat) (both : Bool) : State :=
  have d := s.derate lane both
  if s.fld (Reg.LINE_STAT lane) 23 16 = d then s else (s.setFld (Reg.LINE_STAT lane) 23 16 d).raise (0x08 + lane) 5

/-- The attenuation of a lane in dB (R71, R72). -/
def State.attenuation (s : State) (lane : Nat) (both : Bool) : Nat :=
  min 30 (s.fld (Reg.LINE_PHYCFG lane) 12 8) + s.derate lane both

/-- A frame of the module is on a lane, or starts on it in this cycle. -/
def State.sendsNow (s : State) (lane : Nat) : Bool := s.sending lane s.now (max s.now (s.laneTick lane s.cycle) + 1)

/-- A lane's STATE follows what it sends: TX while a frame of the module is on it, and IDLE again after it (Table 3.8). -/
def State.showSending (s : State) (lane : Nat) : State :=
  have st := s.fld (Reg.LINE_STAT lane) 31 29
  if s.sendsNow lane then (if st = 1 ∨ st = 3 then s.setLineState lane 2 else s)
  else if st = 2 then s.setLineState lane 1
  else s

/-- The lanes of a phase show what they send, and their derating (R71). -/
def State.refreshPhase (s : State) (phase : Nat) : State :=
  have a := 2 * (phase - 1)
  have both := s.sendsNow a && s.sendsNow (a + 1)
  (((s.showSending a).showSending (a + 1)).setDerate a both).setDerate (a + 1) both

/-- The first tick after the last sample of a frame of n symbols that starts on a lane in a cycle (R58, R92). -/
def State.sendStop (s : State) (lane n cycle : Nat) : Nat :=
  have start := cycle * 65536 + s.frameStart lane
  if s.pilotOn ∧ lanePhase lane = s.pilotPhase then s.walkSymbols (s.nsTicks (symbolNs s.plan)) n start
  else start + s.nsTicksUp (n * symbolNs s.plan)

/-- A span joins those of the last 512 cycles. -/
def State.joinSpans (s : State) (l : List (Nat × Nat)) (a b : Nat) : List (Nat × Nat) :=
  (a, b) :: l.filter (fun x => decide (s.now < x.2 + 512 * 65536))

/-- A lane carries a frame of n symbols from a cycle on (R56). -/
def State.markSending (s : State) (lane n cycle : Nat) : State :=
  have l := s.joinSpans (s.field.txSpans.getD lane []) (s.laneTick lane cycle) (s.sendStop lane n cycle)
  { s with field := { s.field with txSpans := s.field.txSpans.put lane l } }

/-- A JCONF is due on a lane in the cycles from `a` to `b` (R76, R82). -/
def State.markReply (s : State) (lane a b : Nat) : State :=
  have l := s.joinSpans (s.field.dueSpans.getD lane []) (s.laneTick lane a) (s.laneTick lane (b + 1))
  { s with field := { s.field with dueSpans := s.field.dueSpans.put lane l } }

/-- Where a frame of a lane meets frames of its sister lane, both lanes send at the level of R71. -/
def State.shareLevel (s : State) (lane a b : Nat) : State :=
  have sister := sisterOf lane
  ((s.field.txSpans.getD sister []).filter (fun x => decide (x.1 < b) && decide (a < x.2))).foldl (fun (s : State) x =>
    (s.send (.lineLevel lane (max a x.1) (min b x.2) (s.attenuation lane true))).send
      (.lineLevel sister (max a x.1) (min b x.2) (s.attenuation sister true))) s

/-- The frame start angle of a lane in this cycle has not passed by more than a tick (R58). -/
def State.startsHere (s : State) (lane : Nat) : Bool := decide (s.now ≤ s.laneTick lane s.cycle + 1)

/-- The first cycle in which a frame can still start on a lane (R58). -/
def State.nextStart (s : State) (lane : Nat) : Nat := if s.startsHere lane then s.cycle else s.cycle + 1

/-- A frame of the module leaves on a line lane at the frame start angle of a cycle, behind a long preamble or not, with its
attenuation and its symbols (R58, R60 to R63). Frames of its sister lane at the same time lower both (R71). -/
def State.sendLine (s : State) (lane node ftype mode : Nat) (long : Bool) (cycle : Nat) (octets : List Byte) : State :=
  have pre := if long then s.longSym else 0
  have n := pre + frameSymbols s.plan mode octets.length
  have s := s.markSending lane n cycle
  have s := (s.setFld (Reg.LINE_STAT lane) 2 0 mode).refreshPhase (lanePhase lane)
  ((s.send (.lineSignal lane (s.laneTick lane cycle) (s.attenuation lane false)
    (lineSymbols s.plan mode lane pre octets))).shareLevel lane (s.laneTick lane cycle) (s.sendStop lane n cycle)).send
      (.line lane node ftype mode octets)

/-- A pilot symbol leaves on the pilot phase at a sweep time, in both sub-bands (R91). -/
def State.sendPilot (s : State) (rot at' : Nat) (fail : Bool) : State :=
  have p := s.pilotPhase
  have nc := carriers s.plan
  (s.send (.pilotSignal p at' (s.attenuation (2 * (p - 1)) true) (s.attenuation (2 * (p - 1) + 1) true)
    (syncSymbol nc (rot * nc % (8 * nc))) (syncSymbol nc (if fail then 4 * nc else 0)))).send (.pilot p fail)

end Sys2Proof.Machine
end

