-- ==== Sys2Proof/Machine/Routes.lean ====
section
/-!
DEFINITION. Links, modes and routes of the line channel (R64, R68, R70, R84, R85), misses and ABSENT (R87), and what a
failed exchange leads to on every medium (R40, R69, R90, R113, R134).
-/

namespace Sys2Proof.Machine

/-- The module as an end of a link. -/
abbrev moduleEnd : Nat := 0x2000

/-- The SNR threshold of a mode, in 0.25 dB (Tables 3.4 and 3.11). -/
def State.threshold (s : State) (mode : Nat) : Int :=
  if mode = 0 then toSigned 8 (s.fld Reg.LINEC_THRESH 31 24)
  else if mode = 1 then toSigned 8 (s.fld Reg.LINEC_THRESH 23 16)
  else if mode = 2 then toSigned 8 (s.fld Reg.LINEC_THRESH 15 8)
  else if mode = 3 then toSigned 8 (s.fld Reg.LINEC_THRESH 7 0)
  else toSigned 8 (s.fld Reg.LINEC_STEPCFG 31 24)

/-- HYST in 0.25 dB. -/
def State.hyst (s : State) : Int := s.fld Reg.LINEC_STEPCFG 23 16

/-- MODE_TOP of a lane (Table 3.6). -/
def State.modeTop (s : State) (lane : Nat) : Nat := min 4 (s.fld (Reg.LINE_PHYCFG lane) 2 0)

/-- The highest mode that an SNR allows, up to MODE_TOP (R64, R84). -/
def State.modeFor (s : State) (lane : Nat) (snr : Int) : Nat :=
  ((List.range 5).find? (fun m => decide (s.modeTop lane ≤ m) && decide (s.threshold m ≤ snr))).getD 4

/-- The link between two ends, in either order (R84). -/
def State.link (s : State) (a b : Nat) : Option LinkSnr :=
  s.field.links.find? (fun l => (l.near == a && l.far == b) || (l.near == b && l.far == a))

/-- A link SNR is reported (R84). -/
def State.reportLink (s : State) (a b : Nat) (snr : Int) : State :=
  have rest := s.field.links.filter (fun l => !((l.near == a && l.far == b) || (l.near == b && l.far == a)))
  { s with field := { s.field with links := ⟨a, b, snr, s.cycle⟩ :: rest } }

/-- A link is usable: its SNR is high enough, and reported within the last 4 × BCN_INT cycles (R84). -/
def State.usable (s : State) (l : LinkSnr) : Bool :=
  decide (s.threshold 4 + s.hyst ≤ l.snr) && decide (s.cycle ≤ l.cycle + 4 * s.lineBcn)

/-- The cost of a link on a lane: an 8-octet POLL and a 24-octet DATA response at its highest mode (R84). -/
def State.linkCost (s : State) (lane : Nat) (l : LinkSnr) : Nat :=
  have m := s.modeFor lane l.snr
  s.frameCycles lane m 8 s.cycle + s.frameCycles lane m 24 s.cycle

/-- A route as a candidate: its cost and its repeaters, nearest the module first. -/
structure Route where
  cost : Nat
  rpts : List Nat
  deriving DecidableEq, Repr

/-- One list of repeater IDs comes before another, in order along the route (R84). -/
def lexBefore : List Nat → List Nat → Bool
  | [], _ => false
  | _, [] => false
  | a :: as, b :: bs => if a = b then lexBefore as bs else decide (a < b)

/-- One route is better: lower cost, then fewer repeaters, then lower IDs (R84). -/
def betterRoute (a b : Route) : Bool :=
  if a.cost ≠ b.cost then decide (a.cost < b.cost)
  else if a.rpts.length ≠ b.rpts.length then decide (a.rpts.length < b.rpts.length)
  else lexBefore a.rpts b.rpts

/-- The better of two candidates. -/
def pickRoute (a : Option Route) (b : Route) : Option Route :=
  match a with
  | none => some b
  | some x => if betterRoute b x then some b else some x

/-- The other end of a link at a node, if the node is one of its ends. -/
def otherEnd (l : LinkSnr) (a : Nat) : Option Nat :=
  if l.near = a then some l.far else if l.far = a then some l.near else none

/-- The nodes whose routes pass through a repeater (R84, FAN_MAX). -/
def State.fan (s : State) (r : Nat) : Nat := (s.field.nodes.filter (fun p => p.2.route.contains r)).length

/-- FAN_MAX (Table 4.7). -/
def State.fanMax (s : State) : Nat := max 1 (s.fld Reg.LINEM_RPTCFG 15 8)

/-- Whether a node can serve as a repeater for another on a lane (R84, Table 4.5). -/
def State.canRelay (s : State) (lane target r : Nat) : Bool :=
  have n := s.node r
  n.canRepeat && n.medium == 1 && n.lane == lane && n.state == 3 && r != target &&
    (decide (s.fan r < s.fanMax) || ((s.node target).route.contains r && decide (s.fan r ≤ s.fanMax)))

/-- A path goes one usable link on, to a repeater that it does not hold yet. -/
def State.extend (s : State) (lane target : Nat) (p : Route) : List Route :=
  s.field.links.filterMap (fun l => (otherEnd l (p.rpts.getLastD moduleEnd)).bind (fun r =>
    if r ≠ moduleEnd ∧ s.usable l ∧ s.canRelay lane target r ∧ !(p.rpts.contains r) then
      some ⟨p.cost + s.linkCost lane l, p.rpts ++ [r]⟩
    else none))

/-- The paths over 1 to k + 1 repeaters on a lane (R84). -/
def State.paths (s : State) (lane target : Nat) : Nat → List Route
  | 0 => s.extend lane target ⟨0, []⟩
  | k + 1 =>
    have m := s.paths lane target k
    m ++ (m.filter (fun p => p.rpts.length == k + 1)).flatMap (s.extend lane target)

/-- A route meets the KLP 1 limits: a KLP 1 node lies at level 3 at most, and serves only on routes of at most 3
repeaters (Table 4.5). -/
def State.klp1Ok (s : State) (target : Nat) (rpts : List Nat) : Bool :=
  decide (rpts.length ≤ 3) || ((s.node target).ver != 1 && rpts.all (fun r => (s.node r).ver != 1))

/-- Repeaters meet every limit on a node's route (R84). -/
def State.routeAllowed (s : State) (id : Nat) (rpts : List Nat) : Bool :=
  decide (rpts.length ≤ s.levelMax) && s.klp1Ok id rpts && rpts.all (s.canRelay (s.node id).lane id)

/-- The best route to a node on its lane within the limits (R84). -/
def State.bestRoute (s : State) (id : Nat) : Option Route :=
  have lane := (s.node id).lane
  have direct := match s.link moduleEnd id with
    | some l => if s.usable l then some (⟨s.linkCost lane l, []⟩ : Route) else none
    | none => none
  if s.levelMax = 0 then direct
  else
    (s.paths lane id (s.levelMax - 1)).foldl (fun best p => match s.link (p.rpts.getLastD moduleEnd) id with
      | some l => if s.usable l ∧ s.klp1Ok id p.rpts then pickRoute best ⟨p.cost + s.linkCost lane l, p.rpts⟩ else best
      | none => best) direct

/-- The links of a route, from the module to the node. -/
def routeHops (near : Nat) : List Nat → Nat → List (Nat × Nat)
  | [], id => [(near, id)]
  | r :: rs, id => (near, r) :: routeHops r rs id

/-- A node's route is broken: a link of it is not usable, or it no longer meets the limits (R84). -/
def State.routeBroken (s : State) (id : Nat) : Bool :=
  have n := s.node id
  !(s.routeAllowed id n.route) ||
    (routeHops moduleEnd n.route id).any (fun h => match s.link h.1 h.2 with | some l => !s.usable l | none => true)

/-- The cost of repeaters as a node's route: the sum of the costs of its links; and that of its current route (R84). -/
def State.hopsCost (s : State) (id : Nat) (rpts : List Nat) : Nat :=
  (routeHops moduleEnd rpts id).foldl (fun c h =>
    match s.link h.1 h.2 with | some l => c + s.linkCost (s.node id).lane l | none => c) 0
def State.routeCost (s : State) (id : Nat) : Nat := s.hopsCost id (s.node id).route

/-- Repeaters are in use in this cycle (R85). -/
def State.useRoute (s : State) (rpts : List Nat) : State :=
  rpts.foldl (fun (s : State) r => s.modNode r (fun n => { n with lastUsed := s.cycle })) s

/-- Every repeater of a route has taken its role (R85). -/
def State.rolesSet (s : State) (rpts : List Nat) : Bool := rpts.all (fun r => (s.node r).rpt)

/-- Records say ROLE 1; and the level of a node's ROLE 1 that waits or is on its way, the shallowest one (R85). -/
def isPromotion (records : List Byte) : Bool := leAt records 0 1 == 0x51 && leAt records 1 1 == 1
def State.roleLevel (s : State) (r : Nat) : Option Nat :=
  have waiting := (s.field.firmware.filter (fun c => c.node == r && isPromotion c.records)).map (·.records)
  have sent := (s.field.exch.filter (fun x => x.2.node == r && isPromotion x.2.records)).map (·.2.records)
  ((waiting ++ sent).map (fun l => leAt l 2 1)).min?

/-- A node is sent ROLE 1 with a level; one with another level that has not been sent yet goes with it (R85). -/
def State.sendRole (s : State) (r level : Nat) : State :=
  have keep := s.field.firmware.filter (fun c => c.node != r || !(isPromotion c.records) || c.tries != 0)
  { s with field := { s.field with firmware := keep } }.firmwareSend r (leBytes 1 0x51 ++ leBytes 1 1 ++ leBytes 1 level)

/-- The repeaters of a route that have not taken their role are sent ROLE 1 with their level, the shallowest one, in capacity admitted
to no one (R85). -/
def State.promote (s : State) : List Nat → Nat → State
  | [], _ => s
  | r :: rs, level =>
    have n := s.node r
    have waits := s.roleLevel r
    have least := if n.rpt then min n.level level else min level (waits.getD level)
    have s := s.setNode r { n with level := least }
    have s := if n.rpt ∨ waits = some least then s else s.sendRole r least
    s.promote rs (level + 1)

/-- The mode in which a new link of a lane starts: MODE_INIT, but not above MODE_TOP (R67, R70). -/
def State.startMode (s : State) (lane : Nat) : Nat := max s.modeInit (s.modeTop lane)

/-- The hops of a route that no route has had yet start their links (R67). -/
def State.startHops (s : State) (lane id : Nat) (rpts : List Nat) : State :=
  (routeHops moduleEnd rpts id).foldl (fun (s : State) h =>
    if h.2 = id ∨ (s.field.hopModes.find (hopKey h.1 h.2)).isSome then s
    else { s with field := { s.field with hopModes := s.field.hopModes.put (hopKey h.1 h.2) (s.startMode lane) } }) s

/-- A node's route is another one from now on (R84, R85). -/
def State.setRoute (s : State) (id : Nat) (r : Route) : State :=
  have s := ((s.useRoute (s.node id).route).useRoute r.rpts).startHops (s.node id).lane id r.rpts
  ((s.modNode id (fun n => { n with route := r.rpts, cost := r.cost, level := r.rpts.length })).promote r.rpts 1)

/-- A node's route is reassessed (R84): a broken route is replaced, and another one taken where it costs at most
SWITCH/256 of the current cost. -/
def State.reassess (s : State) (id : Nat) : State :=
  have n := s.node id
  if n.medium ≠ 1 ∨ n.state ≠ 3 then s
  else
    match s.bestRoute id with
    | none => s
    | some r =>
      have cost := s.routeCost id
      if r.rpts ≠ n.route ∧ (s.routeBroken id ∨ r.cost * 256 ≤ s.fld Reg.LINEM_RPTCFG 7 0 * cost) then
        (s.setRoute id r).raise 0x0F 11
      else s.setNode id { n with cost := cost }

/-- The routes of the nodes of a lane are reassessed (R84). -/
def State.reassessLane (s : State) (lane : Nat) : State :=
  (s.field.nodes.filter (fun p => p.2.medium = 1 && p.2.lane = lane && p.2.state = 3)).foldl (fun s p => s.reassess p.1) s

/-- ADDRm_STAT of a loop address follows its node (Table 6.7). -/
def State.loopAddrStat (s : State) (id : Nat) : State :=
  have n := s.node id
  if n.medium = 3 then
    s.setReg (Reg.LOOP_ADDR_STAT n.lane n.addr) (n.state * 2 ^ 29 + min 3 n.miss * 2 ^ 16 + min n.latency 65535)
  else s

/-- The cause of a change to ABSENT on the node's medium (Tables 4.10, 5.14 and 6.8). -/
def State.absentCause (s : State) (n : Node) : State :=
  if n.medium = 1 then s.raise 0x0F 10
  else if n.medium = 2 then s.raise 0x13 (2 + 8 * n.lane)
  else s.raise (0x14 + n.lane) 3

/-- A node is marked ABSENT: its obligations release their work (R38, R87). -/
def State.setAbsent (s : State) (id : Nat) (route : Bool) : State :=
  have n := s.node id
  if n.state ≠ 3 then s
  else ((s.setNode id { n with state := 4, routeAbs := route }).loopAddrStat id |>.releaseWork id).absentCause n

/-- A node becomes ABSENT, the routes are reassessed, and the nodes whose every route passes through an ABSENT repeater
follow it (R87). -/
def State.markAbsent (s : State) (id : Nat) : State :=
  have n := s.node id
  have s := s.setAbsent id false
  if n.medium ≠ 1 then s
  else
    have s := s.reassessLane n.lane
    (s.field.nodes.filter (fun p => p.2.state = 3 && p.2.medium = 1 && p.2.route.any (fun r => (s.node r).state == 4))).foldl
      (fun s p => if (s.bestRoute p.1).isNone then s.setAbsent p.1 true else s) s

/-- A miss counts against a node; the third in a row marks it ABSENT (R87). -/
def State.miss (s : State) (id : Nat) : State :=
  have n := s.node id
  have s := (s.setNode id { n with miss := n.miss + 1 }).loopAddrStat id
  if 3 ≤ n.miss + 1 then s.markAbsent id else s

/-- A valid frame from a node: its miss count is 0, and the sweep time is noted (R87). -/
def State.heardFrom (s : State) (id : Nat) : State :=
  (s.modNode id (fun n => { n with miss := 0, heard := s.now })).loopAddrStat id

/-- The consecutive frames of a link to a node that count towards its next rung (R70). -/
def State.linkGood (s : State) (near far : Nat) (last : Bool) : Nat :=
  if last then (s.node far).good else s.field.hopGood.getD (hopKey near far) 0
def State.setLinkGood (s : State) (near far : Nat) (last : Bool) (n : Nat) : State :=
  if last then s.modNode far (fun x => { x with good := n })
  else { s with field := { s.field with hopGood := s.field.hopGood.put (hopKey near far) n } }

/-- The mode of a link to a node: the node's own, or a hop's. Each change raises STEP (R70). -/
def State.linkMode (s : State) (near far : Nat) (last : Bool) : Nat :=
  if last then (s.node far).mode else s.hopMode near far
def State.setLinkMode (s : State) (lane near far : Nat) (last : Bool) (m : Nat) : State :=
  if m = s.linkMode near far last then s
  else
    have s := if last then s.modNode far (fun n => { n with mode := m })
      else { s with field := { s.field with hopModes := s.field.hopModes.put (hopKey near far) m } }
    (s.setLinkGood near far last 0).raise (0x08 + lane) 4

/-- The mode that a link may use: its own, or the next lower one that MODE_TOP and the SNR last reported on it allow; ×6 where none is
allowed (R64, R70). -/
def State.allowedMode (s : State) (lane near far mode : Nat) : Nat :=
  match s.link near far with
  | some l => ((List.range 5).find? (fun m => decide (mode ≤ m) && decide (s.modeTop lane ≤ m) && decide (s.threshold m ≤ l.snr))).getD 4
  | none => max mode (s.modeTop lane)

/-- The links to a node are lowered to the modes that they may use (R64, R70). -/
def State.lowerLinks (s : State) (lane id : Nat) : State :=
  (routeHops moduleEnd (s.node id).route id).foldl (fun (s : State) h =>
    s.setLinkMode lane h.1 h.2 (h.2 == id) (s.allowedMode lane h.1 h.2 (s.linkMode h.1 h.2 (h.2 == id)))) s

/-- The mode of the next attempt after a failure on a link (R68). -/
def stepDown (mode : Nat) (collapse : Bool) : Nat :=
  if collapse then (if 3 ≤ mode then 4 else 3) else min 4 (mode + 1)

/-- The page whose retries and lane a resource is counted on, and RETRY_MAX of its medium (R69, R113, R134). -/
def State.retryMax (s : State) (r : Nat) : Nat :=
  if r ≤ 5 then s.fld Reg.LINEC_LINKCFG 11 8
  else if r ≤ 9 then s.fld Reg.AIRM_RETRYCFG 3 0
  else s.fld (Reg.LOOP_KLLCFG (r - 0x0C)) 3 0

/-- A repeat counts in the register of its air lane. -/
def State.countRetry (s : State) (r : Nat) : State := if r = 8 ∨ r = 9 then s.bump (Reg.AIR_RETRY (r - 8)) else s

/-- The retry of a failed exchange with an ACTIVE node is drawn for its open obligation, which ends FAILED where RETRY_MAX is used up or
no capacity is found (R40, R69); a command sent in capacity admitted to no one waits for such capacity again (R113). -/
def State.scheduleRetry (s : State) (r : Nat) (x : Exchange) : State :=
  if (s.node x.node).state ≠ 3 then s
  else if x.spare then
    if s.retryMax r ≤ x.tries then s
    else { s with field := { s.field with
      firmware := ⟨x.node, x.records, x.tries + 1, some x.seq⟩ :: s.field.firmware } }.countRetry r
  else match x.obl.bind (fun id => (s.obl id).map (fun o => (id, o))) with
    | none => s
    | some (id, o) =>
      have tries := ((o.retries.find r).map (·.tries)).getD 0
      if s.retryMax r ≤ tries then s.endId (some id) 3 Reason.retry
      else
        have w := s.exchangeWork (s.node x.node) x.isCmd x.records.length (s.upOctets x.obl x.isCmd)
        (s.drawRetry id r { node := x.node, seq := x.seq, work := w, share := false, tries := tries + 1 }).countRetry r

/-- An exchange failed (R68, R87, R90): the miss counts against `blame`, the failed link steps down, and a retry is
drawn. -/
def State.failExchange (s : State) (r blame near far : Nat) : State :=
  match s.exchange r with
  | none => s
  | some x =>
    have s := s.endExchange r
    have s := match x.obl with | some id => s.spend id r x.work | none => s
    if x.search then s
    else
      have s := if r ≤ 5 then
        have m := s.linkMode near far (far == x.node)
        have s := s.setLinkGood near far (far == x.node) 0
        s.setLinkMode r near far (far == x.node) (stepDown m x.collapsed) else s
      have s := s.miss blame
      s.scheduleRetry r x

/-- The last hop of an exchange: where the failed link lies when no RFAIL names one (R90). -/
def lastHop (x : Exchange) : Nat × Nat := (x.route.getLastD moduleEnd, x.node)

/-- The sweep time before which the frame due in an exchange cannot be missing: on the line, the end of the search for its preamble in
the first cycle in which it may come (R58); on the air, 1 ms after the module's frame (R109); on a loop, TURN + 2 octet times after it
(R133). -/
def State.dueBy (s : State) (r : Nat) (x : Exchange) : Nat :=
  if r ≤ 5 then x.rxFirst * 65536 + s.frameStart r + 0x400
  else if r ≤ 9 then x.start + s.thirdsTicks (s.airtime (r - 8) (39 + x.records.length) + 3000)
  else x.start + s.nsTicksUp ((8 + x.records.length + s.loopTurn (r - 0x0C) + 2) * loopOctetNs)

/-- EXCHANGE_MISS (R87): the frame due on a resource does not arrive valid in time. -/
def execExchangeMiss (t : Angle) (r : Fin 16) (s : State) : Outcome :=
  have s := s.tick t
  .next (
    match s.exchange r.val with
    | none => s
    | some x => if s.now < s.dueBy r.val x then s else s.failExchange r.val x.node (lastHop x).1 (lastHop x).2)

/-- RFAIL (R83, R86, R87, R90): a KLP 2 repeater names the hop that did not answer, and has itself been heard. One from a KLP 1 repeater, or that names no hop behind a
repeater of the exchange, is only counted. -/
def execRfail (t : Angle) (lane : Fin 6) (failed : BitVec 13) (s : State) : Outcome :=
  have s := (s.tick t).bump Reg.LINEM_RFAIL_RX
  .next (
    match s.exchange lane.val with
    | none => s
    | some x =>
      match (routeHops moduleEnd x.route x.node).find? (fun h => h.2 = failed.toNat) with
      | none => s
      | some h =>
        if h.1 = moduleEnd ∨ (s.node h.1).ver = 1 then s
        else ((s.heardFrom h.1).failExchange lane.val failed.toNat h.1 h.2).reassessLane lane.val)

end Sys2Proof.Machine
end

