-- ==== Sys2Proof/Machine/Line.lean ====
section
/-!
DEFINITION. The line channel's commands (spec/03_line_physical.md, spec/04_line_protocol.md): band plan, driver
temperature, exchanges, received frames, beacons, repeaters, search windows, the pilot and the node table.
-/

namespace Sys2Proof.Machine

/-- A write of BANDCFG (R57, R410): a change of PLAN takes effect while every line lane is disabled, and recomputes; it waits for
a recomputation under way (R416). -/
def effPlan (v : Word) (s : State) : WriteResult :=
  have change := !(s.locked 0x0E) && bits 1 0 v.toNat != s.fld Reg.LINEC_BANDCFG 1 0
  if change && s.nv.lc == 3 && bits 1 0 v.toNat != 0 && bits 1 0 v.toNat != s.nv.planProv then .discard s 0x07
  else if change && (!s.linesDisabled || s.modeBusy) then .discard s 0x08
  else if !change then s.plainWrite 0x0E 0x040 v
  else if s.flag Reg.SLALOM_STATUS 31 then .done { s with slalom := { s.slalom with heldPlan := some v } }
  else .done (s.applyPlan v)

/-- PLAN_WRITE (R57). -/
def execPlanWrite (t : Angle) (p : Path) (v : Word) (s : State) : Outcome :=
  .next ((s.tick t).hostWrite p 0x0E 0x040 (effPlan v))

/-- A lane is lost for safety (R72). -/
def State.loseLine (s : State) (lane : Nat) : State :=
  ((s.setLineState lane 4).raise (0x08 + lane) 6).loseRes lane 0x16

/-- The driver of a phase is derated, or stops (R72). -/
def State.foldPhase (s : State) (p : Nat) : State :=
  if s.flag Reg.LINEC_PHFOLD (p - 1) then s
  else ((s.setFlag Reg.LINEC_PHFOLD (p - 1) true).raise 0x0E 1).refreshPhase p
def State.stopPhase (s : State) (p : Nat) : State :=
  if s.flag Reg.LINEC_PHFOLD (3 + p) then s
  else (((s.setFlag Reg.LINEC_PHFOLD (3 + p) true).raise 0x0E 2).loseLine (2 * (p - 1))).loseLine (2 * (p - 1) + 1)

/-- DRIVER_TEMPERATURE (R72): the temperature of a phase's driver in °C + 40; 165 is 125 °C, 180 is 140 °C and 155 is
115 °C; and the samples that its current limit has clipped on each of its lanes since the last report. -/
def execDriverTemperature (t : Angle) (phase : Phase) (temp : BitVec 8) (clipLower clipUpper : Nat) (s : State) : Outcome :=
  have s := s.tick t
  have p := phaseNo phase
  have s := (s.bump (Reg.LINE_CLIP (2 * (p - 1))) clipLower).bump (Reg.LINE_CLIP (2 * (p - 1) + 1)) clipUpper
  have v := temp.toNat
  have s := s.setFld Reg.LINEC_PHTEMP (8 * p - 1) (8 * (p - 1)) v
  have cool := match s.field.coolSince.find p with
    | some c => some c
    | none => some s.cycle
  have s := { s with field := { s.field with
    coolSince := (if v < 155 then s.field.coolSince.put p (cool.getD 0) else s.field.coolSince.del p) } }
  have s := if 165 < v then s.foldPhase p else s
  .next (if 180 < v then s.stopPhase p else s)

/-- PHASE_RESUME (R72): the driver has stayed below 115 °C for 3,000 cycles; transmission resumes and the derating
ends. -/
def execPhaseResume (t : Angle) (phase : Phase) (s : State) : Outcome :=
  have s := s.tick t
  have p := phaseNo phase
  have a := 2 * (p - 1)
  .next (
    match s.field.coolSince.find p with
    | none => s
    | some c =>
      if s.cycle < c + 3000 then s
      else
        have stopped := s.flag Reg.LINEC_PHFOLD (3 + p)
        have folded := s.flag Reg.LINEC_PHFOLD (p - 1)
        have s := (s.setFlag Reg.LINEC_PHFOLD (3 + p) false).setFlag Reg.LINEC_PHFOLD (p - 1) false
        have s := if folded then (s.raise 0x0E 1).refreshPhase p else s
        if stopped then
          ((((s.raise 0x0E 2).setLineState a 1).setLineState (a + 1) 1).regainRes a).regainRes (a + 1)
        else s)

/-- The lane's cycles from `a` to `b` lie clear of its beacon holds and of its search window (R81, R88). -/
def State.lineClear (s : State) (lane a b : Nat) : Bool :=
  have c0 := a / s.lineBcn * s.lineBcn
  have clear := fun (from' len : Nat) => decide (b < from') || decide (from' + len ≤ a)
  have ss := s.searchStart lane a
  have next := s.searchStart lane b
  clear c0 (s.beaconHold lane c0) && clear (c0 + s.lineBcn) (s.beaconHold lane (c0 + s.lineBcn)) &&
    clear ss (s.searchLen lane ss) && clear next (s.searchLen lane next)

/-- The exchange that would start on a line lane in this cycle (R76): the cycles of its frames. -/
def State.lineExchange (s : State) (lane id : Nat) (obl : Option Nat) (isCmd : Bool) (records : List Byte) (seq : Nat) :
    Exchange :=
  have n := s.node id
  have modes := s.routeModes moduleEnd n.route n.mode
  have h := 2 * n.route.length
  have down := 8 + h + (if isCmd then 10 + records.length else 0)
  have up := 18 + h + s.upOctets obl isCmd
  have c := s.cycle
  have stop := s.framesEnd lane (exchangeFrames modes down up) c
  have txEnd := c + s.frameCycles lane (modes.headD 0) down c
  have lastUp := s.framesEnd lane (exchangeFrames modes down up).dropLast c
  { node := id, obl := obl, isCmd := isCmd, seq := seq, route := n.route, modes := modes, first := c, last := stop - 1
    txLast := txEnd - 1, rxFirst := lastUp, work := 131072 * ceilDiv (stop - c) 2, records := records }

/-- The list of repeaters of a frame: each with the mode of its link onward (Table 4.1). -/
def routeEntries (x : Exchange) : List (Nat × Nat) := x.route.zip x.modes.tail

/-- The module's frame of an exchange leaves on a line lane: a POLL, or a CMD secured under the node's session key with
the next frame counter, which it may have to wait for (R79, R80, R300). Answers whether it was sent. -/
def State.sendLineFrame (s : State) (lane : Nat) (x : Exchange) : Bool × State :=
  have n := s.node x.node
  have header := klpHeader (if x.isCmd then 3 else 1) n.ver x.isCmd (n.acks x.seq) x.node x.seq s.cycle 0 (routeEntries x)
  have mode := x.modes.headD 0
  have go := fun (s : State) (bytes : List Byte) =>
    ((s.beginExchange lane x).modNode x.node (fun n => n.drawn x.seq)).useRoute x.route
      |>.sendLine lane x.node (if x.isCmd then 3 else 1) mode false s.cycle bytes
  if !x.isCmd then (true, go s header)
  else if !n.session then (false, s)
  else
    have d := s.drawCounter (nodeKey x.node)
    match d.1 with
    | .value c =>
      have s := go d.2 (klpSecured n.key x.node lane c header x.records)
      (true, (s.counterDrawn x.node c).leaveSent x)
    | _ => (false, d.2)

/-- The node that an obligation's next exchange addresses: its target, or the first member of its group on the resource
that still has work (R41). -/
def State.oblNode (s : State) (r : Nat) (o : Obligation) : Option Nat :=
  if o.group then ((s.groupMembers o.node).find? (fun p => p.2.resource == r && !o.members.contains p.1)).map (·.1) else some o.node

/-- The node with which the next exchange for some work would be (R40, R41). -/
def State.workNode (s : State) (r : Nat) (w : Work) : Option Nat :=
  match w with
  | .spare id => some id
  | .poll id _ _ _ => some id
  | .obligation oid => (s.obl oid).bind (fun o => match o.retries.find r with | some t => some t.node | none => s.oblNode r o)

/-- The SEQ of a new exchange with a node (R80, R102). -/
def State.nextSeq (s : State) (id : Nat) : Nat := ((s.node id).seq + 1) % 256

/-- A CMD with records may go to a node: the first one of a session is the one that brings the group key (R82). -/
def State.cmdOpen (s : State) (id : Nat) (records : List Byte) : Bool := !(s.node id).gkeyDue || leAt records 0 1 == 0x54

/-- An exchange for work on a resource, built by the medium's own function of node, obligation, command, records and SEQ. A repeat
keeps its node and its SEQ (R80, R102), and waits for the share behind those with an earlier deadline (R40). Firmware records go in
capacity that is admitted to no one. A poll of the firmware's schedule is first admitted as a CUSTODY obligation, and waits while a
recomputation runs (R48). -/
def State.openExchange (s : State) (r : Nat) (w : Work)
    (build : State → Nat → Option Nat → Bool → List Byte → Nat → Exchange) : Option Exchange × State :=
  match w with
  | .spare id =>
    match s.field.firmware.find? (fun p => p.node == id) with
    | some c =>
      have x := { build s id none true c.records (c.seq.getD (s.nextSeq id)) with spare := true, tries := c.tries }
      if s.cmdOpen id c.records ∧ s.spareFits r x.work then (some x, s)
      else (none, s)
    | none => (none, s)
  | .poll id deadline up units =>
    have q : Obligation := {
      cls := 0, deadline := deadline, node := id, field := true, energy := recordCost 3
      up := up, rest := s.addUnits [(r, s.exchangeWork (s.node id) false 0 up)] units }
    if s.flag Reg.SLALOM_STATUS 31 then (none, s)
    else
      have a := s.testOwn q
      match a.1 with
      | some oid => (some (build a.2 id (some oid) false [] (s.nextSeq id)), a.2)
      | none => (none, a.2)
  | .obligation oid =>
    match s.obl oid with
    | none => (none, s)
    | some o =>
      have goal := match o.retries.find r with
        | some t => some (t.node, t.seq)
        | none => (s.oblNode r o).map (fun id => (id, s.nextSeq id))
      match goal with
      | none => (none, s)
      | some (id, seq) =>
        have x := build s id (some oid) (o.cls != 0) (if o.cls = 0 then [] else o.records) seq
        if (!x.isCmd || s.cmdOpen id x.records) && s.mayAttempt oid r x.work then (some x, s) else (none, s)

/-- Before work starts on a line lane, the links of its node's route take modes that their SNR carries, and the repeaters of the route
that have not taken their role are sent it (R64, R85). -/
def State.prepareRoute (s : State) (lane : Nat) (w : Work) : State :=
  match s.workNode lane w with
  | some id => (s.lowerLinks lane id).promote (s.node id).route 1
  | none => s

/-- EXCHANGE_START (R76, R77): at the first cycle of a poll slot, on a lane that is ready and clear, for a node ACTIVE on
it. A conflict with the sister lane makes it wait a slot, which it draws as a retry does. -/
def execExchangeStart (t : Angle) (lane : Fin 6) (w : Work) (s : State) : Outcome :=
  have s := s.tick t
  .next (
    if s.cycle % 2 ≠ 0 ∨ !(s.lineReady lane.val) ∨ !(s.startsHere lane.val) ∨ (s.exchange lane.val).isSome then s
    else
      have o := (s.prepareRoute lane.val w).openExchange lane.val w (fun s => s.lineExchange lane.val)
      match o.1 with
      | none => o.2
      | some x =>
        have s := o.2
        have n := s.node x.node
        if n.state ≠ 3 ∨ n.medium ≠ 1 ∨ n.lane ≠ lane.val ∨ !(s.rolesSet n.route) ∨ s.sends lane.val x.first x.last ∨
            s.awaits lane.val x.first x.last ∨ !(s.lineClear lane.val x.first x.last) ∨ !(s.beforeTakeback x.last) then s
        else
          if s.sisterClash lane.val x.first x.txLast x.rxFirst x.last then
            (match x.obl with
            | some id => s.drawWait id lane.val 131072
            | none => s)
          else (s.sendLineFrame lane.val x).2)

/-- COLL_DB and COLL_N (Table 3.11). -/
def State.collapsed (s : State) (snr : Int) (y : Int) : Bool := decide (y ≤ snr - (s.fld Reg.LINEC_STEPCFG 15 8 : Int))
def State.collN (s : State) : Nat := max 1 (s.fld Reg.LINEC_STEPCFG 7 4)

/-- Where a collapse is recognised in the symbols of a frame: before its end, at its end, or nowhere (R67). -/
inductive Collapse where
  | none | early | atEnd
  deriving DecidableEq, Repr

/-- The run of low symbols, symbol by symbol (R67). -/
def findCollapse (n : Nat) : List Bool → Nat → Collapse
  | [], run => if 0 < run then .atEnd else .none
  | b :: bs, run =>
    if b then (if run + 1 = n then (if bs.isEmpty then .atEnd else .early) else findCollapse n bs (run + 1))
    else findCollapse n bs 0

/-- A frame that passed its check counts towards the next rung of a link, where its SNR carries that one (R70). -/
def State.stepLink (s : State) (lane near far : Nat) (last : Bool) (snr : Option Int) : State :=
  have mode := s.linkMode near far last
  have good := s.linkGood near far last + 1
  have carried := match snr with
    | some v => decide (s.threshold (mode - 1) + s.hyst ≤ v)
    | none => false
  if mode = 0 ∨ mode ≤ s.modeTop lane ∨ !carried then s.setLinkGood near far last 0
  else if max 1 (s.fld Reg.LINEC_STEPCFG 3 0) ≤ good then
    (s.setLinkGood near far last 0).setLinkMode lane near far last (mode - 1)
  else s.setLinkGood near far last good

/-- A response that passed its check came over every link of its route (R70): the module measures the preamble SNR of the one to
itself, and takes for the links behind a repeater what their ends reported last (DEDUCED, log 102). -/
def State.stepUp (s : State) (lane : Nat) (x : Exchange) (snr : Int) : State :=
  (routeHops moduleEnd x.route x.node).foldl (fun (s : State) h =>
    s.stepLink lane h.1 h.2 (h.2 == x.node) (if h.1 = moduleEnd then some snr else (s.link h.1 h.2).map (·.snr))) s

/-- The KLP checks of a frame that passed its payload check (R78, R79): discarded frames are counted and are no frame
received; a valid one reports the link from the module to its first repeater or to the node, and resets the misses of the node that
sent it, which for an RFAIL is a repeater (R87). A frame that is not for the module, of a type that goes down, has no effect. -/
def State.acceptKlp (s : State) (lane : Nat) (rx : LineRx) (x : Option Exchange) : State :=
  have h := parseKlp rx.payload
  have first := if h.hops = 0 then h.node else beAt rx.payload 8 2 % 8192
  if !(rx.header.toNat.testBit 17) then
    (if klpInvalid rx.payload ∨ !(downTypes.contains h.ftype) ∨ h.ver ≠ s.downVersion h.ftype h.node then s.bump Reg.LINEM_HDR_ERR
    else s)
  else if s.klpBad rx.payload (s.cycle - rx.ago) then s.bump Reg.LINEM_HDR_ERR
  else if securedUp h.ftype ∧ (!h.sec ∨ !rx.micOk) then s.bump Reg.LINEM_MIC_FAIL
  else if h.node = 0xFFFE then s
  else if !s.takesFrames then s.reportLink moduleEnd first rx.snr
  else
    have n := s.node h.node
    have s := if securedUp h.ftype then
      s.setNode h.node { n with fcnt := some (nextCounter n.fcnt (beAt rx.payload h.len 2)), snrUp := rx.snr } else s
    have back := n.state == 4 && (match x with | some y => y.search && y.node == h.node | none => false)
    have s := if back then
        (s.modNode h.node (fun n => { n with state := 3, routeAbs := false, good := 0 })).setLinkMode lane moduleEnd h.node true
          (s.startMode lane) else s
    (if h.ftype = 8 then s else s.heardFrom h.node).reportLink moduleEnd first rx.snr

/-- A lane hears a frame that began at an angle of the cycle some cycles ago and ends now: its phase's converter runs, and its sister
lane has not sent meanwhile (R55, R56). -/
def State.lineHears (s : State) (lane ago start : Nat) : Bool :=
  s.plan != 0 && s.laneEnabled (0x08 + lane) && !(s.sending (sisterOf lane) ((s.cycle - ago) * 65536 + start) s.now)

/-- The receiver searches for a preamble within ±0x0400 ticks of the frame start angle, and in search windows (R58). -/
def State.inWindow (s : State) (lane : Nat) (start : Nat) : Bool :=
  decide ((toSigned 16 (start + 65536 - s.frameStart lane % 65536)).natAbs ≤ 0x400) ||
    (match s.exchange lane with | some x => x.search | none => false)

/-- The checks of a header in their order (R61). -/
inductive HeaderFault where
  | none | bad | crossed
  deriving DecidableEq, Repr
def headerFault (lane h : Nat) : HeaderFault :=
  if headerCheck h ≠ h % 256 then .bad
  else if bits 15 13 h ≠ lane then .crossed
  else if 5 ≤ bits 31 29 h ∨ bits 28 20 h = 0 ∨ 400 < bits 28 20 h then .bad
  else .none

/-- The receiver of a lane passes the preamble search and the header of a frame: it zeroes samples, erases symbols and decodes the
header (R62, R63, R65, R66). Answers the header symbols erased, too. -/
def State.decodeHeader (s : State) (l : Nat) (rx : LineRx) : LineRx × List Bool × State :=
  have b := s.blank l (rx.search :: rx.head)
  have e := b.2.erase l b.1.tail
  (withHeader rx e.1, e.1, e.2)

/-- It passes the payload symbols, and decodes the payload and its check (R62, R63, R65, R66). -/
def State.decodeFrame (s : State) (l : Nat) (rx : LineRx) (headErased : List Bool) : LineRx × State :=
  have b := s.blank l (rx.syms.map (fun y => y.1))
  have e := b.2.erase l b.1
  (withPayload rx headErased e.1, e.2)

/-- A failed frame breaks the run of good ones on the link from which it came (R70). -/
def State.breakRun (s : State) (x : Option Exchange) : State :=
  match x with
  | some y => s.setLinkGood moduleEnd (y.route.headD y.node) y.route.isEmpty 0
  | none => s

/-- A frame whose header is valid, with its payload decoded (R62, R65 to R67, R70, R78, R79). -/
def State.takeLineFrame (s : State) (l : Nat) (rx : LineRx) : State :=
  have h := rx.header.toNat
  have s := (s.setLineState l 1).pushLevel l (Reg.LINE_SNR l) rx.snr |>.sample l rx.snr
  have s := s.setFld (Reg.LINE_STAT l) 2 0 (bits 31 29 h)
  have c := findCollapse s.collN (rx.syms.map (fun y => s.collapsed rx.snr y.2)) 0
  have x := s.exchange l
  have mark := fun (s : State) => match s.exchange l with
    | some x => s.setExchange l { x with collapsed := true }
    | none => s
  if c = .early then
    mark ((((s.bump (Reg.LINE_FR_ABORT l)).raise (0x08 + l) 1).raise (0x08 + l) 2).breakRun x)
  else if crc16 rx.payload ≠ rx.check.toNat ∨ rx.payload.length ≠ bits 28 20 h then
    have s := ((s.bump (Reg.LINE_FR_CRC l)).raise (0x08 + l) 1).breakRun x
    if c = .atEnd then mark (s.raise (0x08 + l) 2) else s
  else
    have s := (s.bump (Reg.LINE_FR_OK l)).raise (0x08 + l) 0
    have s := match x with
      | some y => s.stepUp l y rx.snr
      | none => s
    s.acceptKlp l rx x

/-- LINE_FRAME_RECEIVED (R61 to R63, R65 to R67, R70, R78, R79): a frame whose first sample came at angle `start` of the cycle
in which it began, on a lane; or a search that brought none. -/
def execLineFrameReceived (t : Angle) (lane : Fin 6) (start : Angle) (rx : LineRx) (s : State) : Outcome :=
  have s := s.tick t
  have l := lane.val
  .next (
    if !(s.lineHears l rx.ago start.toNat) ∨ !(s.inWindow l start.toNat) then s
    else if !rx.found then (s.blank l [rx.search]).2
    else
      have h := s.decodeHeader l rx
      match headerFault l h.1.header.toNat with
      | .bad => (h.2.2.bump (Reg.LINE_FR_HDR l)).setLineState l 1
      | .crossed => ((h.2.2.bump (Reg.LINE_FR_XTALK l)).raise (0x08 + l) 3).setLineState l 1
      | .none =>
        have y := h.2.2.decodeFrame l h.1 h.2.1
        y.2.takeLineFrame l y.1)

/-- BEACON (R81): at each multiple of BCN_INT a ready lane sends a beacon under its group key, and its routes are
reassessed. -/
def execBeacon (t : Angle) (lane : Fin 6) (s : State) : Outcome :=
  have s := s.tick t
  .next (
    if s.cycle % s.lineBcn ≠ 0 ∨ !(s.lineReady lane.val) ∨ !(s.startsHere lane.val) then s
    else
      have d := s.drawGroup 1 lane.val
      match d.1 with
      | .value c =>
        have h := klpHeader 0 1 true false 0xFFFF 0 s.cycle 0 []
        have k := d.2.groupSecretNow (lineGroupKey lane.val)
        have bytes := klpSecured k.1 0xFFFF lane.val c h (s.beaconPayload lane.val)
        (k.2.sendLine lane.val 0xFFFF 0 3 false s.cycle bytes).reassessLane lane.val
      | _ => d.2.reassessLane lane.val)

/-- REPEATER_DEMOTE (R85): a repeater that no route has used for DEMOTE_CYC cycles receives ROLE 0. -/
def execRepeaterDemote (t : Angle) (node : BitVec 13) (s : State) : Outcome :=
  have s := s.tick t
  have n := s.node node.toNat
  .next (
    if !n.rpt ∨ s.fan node.toNat ≠ 0 ∨ s.cycle < n.lastUsed + s.fld Reg.LINEM_RPTCFG 31 16 then s
    else
      ((s.setNode node.toNat { n with rpt := false }).firmwareSend node.toNat (leBytes 1 0x51 ++ leBytes 1 0 ++
        leBytes 1 n.level)).raise 0x0F 12)

/-- The ABSENT node of a lane that a search window serves: one named by FORCE_SEARCH, or the next in turn (R88). -/
def State.searchNode (s : State) (lane : Nat) : Option Nat :=
  have ns := s.field.nodes.filter (fun p => p.2.medium = 1 && p.2.lane = lane && p.2.state = 4)
  match ns.find? (fun p => p.2.forced) with
  | some p => some p.1
  | none =>
    match ns.find? (fun p => decide (s.field.searchAt.getD lane 0 < p.1)) with
    | some p => some p.1
    | none => ns.head?.map (·.1)

/-- SEARCH_WINDOW (R88): a POLL at ×4 behind a long preamble to one ABSENT node of the lane. -/
def execSearchWindow (t : Angle) (lane : Fin 6) (s : State) : Outcome :=
  have s := s.tick t
  have l := lane.val
  .next (
    if !(s.lineReady l) ∨ !(s.startsHere l) ∨ s.cycle ≠ s.searchStart l s.cycle then s
    else
      match s.searchNode l with
      | none => s
      | some id =>
        have n := s.node id
        have seq := (n.seq + 1) % 256
        have txEnd := s.cycle + s.occupies l (s.longSym + frameSymbols s.plan 3 8) s.cycle
        have x : Exchange := {
          node := id, obl := none, isCmd := false, seq := seq, first := s.cycle
          last := s.cycle + s.searchLen l s.cycle - 1, txLast := txEnd - 1, rxFirst := txEnd, work := 0
          modes := [3], search := true }
        have s := (s.setNode id { n with seq := seq, forced := false }).setExchange l x
        have s := { s with field := { s.field with searchAt := s.field.searchAt.put l id } }
        s.sendLine l id 1 3 true s.cycle (klpHeader 1 n.ver false (n.acks seq) id seq s.cycle 0 []))

/-- PAIR_ID as one number. -/
def State.pairId (s : State) : Nat :=
  (List.range 4).foldl (fun a i => a * 2 ^ 32 + s.reg (Reg.PAIRS_PAIR_ID0 + 4 * i)) 0

/-- The module holds a persisted pairing with its pair identity (Table 16.1). -/
def State.pairKnown (s : State) : Bool := s.nv.pairing.isSome && s.nv.pairedAs == s.pairId

/-- The module's HELLO (R327): its Pairs range, serial, role, band plan, air region, pair identity, epoch, PREFER bit, service state, whether
it holds a persisted pairing with this identity, and its cycle (R28). -/
def State.sendPairHello (s : State) : State :=
  s.send (.pairs 4 [clampNat 1 2 (s.fld Reg.PAIRS_CFG 11 8), clampNat 1 2 (s.fld Reg.PAIRS_CFG 15 12), s.fac.serial.toNat, s.nv.role, s.plan,
    s.fld Reg.AIRC_REGCFG 1 0, s.pairId, s.nv.epoch, b2n (s.flag Reg.PAIRS_CFG 1), b2n s.inService, b2n s.pairKnown, s.cycle])

/-- "KVZ pair" as octets. -/
def pairLabel : List Byte := [0x4B, 0x56, 0x5A, 0x20, 0x70, 0x61, 0x69, 0x72]

/-- The octets of H of an identity (R309). -/
def pairHash (identity : Nat) : List Byte := beBytes 64 (Config.sha3 (pairLabel ++ beBytes 16 identity)).toNat

/-- PAIR_ROT: bits 2:0 of octet 8 of H of the pair identity (R309), 0 where there is none (log 51). -/
def State.pairRot (s : State) : Nat := if s.pairId = 0 then 0 else leAt (pairHash s.pairId) 8 1 % 8

/-- The extended address of the module (R99, R309): octets 0 to 7 of H with bit 1 of octet 0 set and bit 0 cleared; a SOLO
module takes its serial as the identity. -/
def State.extAddress (s : State) : Nat :=
  setBits 57 56 2 (beAt (pairHash (if s.pairState = 0 then s.fac.serial.toNat else s.pairId)) 0 8)

/-- The rotations agree within ±π/8 (R93): in units of π/8, modulo a full turn. -/
def rotMatch (rot want : Nat) : Bool := decide ((toSigned 4 (rot + 16 - 2 * want % 16)).natAbs ≤ 1)

/-- What a pilot window found (R93): seen or missed, the failure report, and PATH_FAULT. -/
def State.pilotResult (s : State) (rx : Option PilotRx) : State :=
  have seen := match rx with
    | some x => decide (s.fld Reg.LINEM_PILOTCFG 15 8 ≤ x.corr) && rotMatch x.rot s.pairRot
    | none => false
  have fail := seen && (match rx with | some x => x.fail | none => false)
  have k := Reg.LINEM_PILOTSTAT
  have run := if seen then 0 else satAdd 16 (s.fld k 31 16) 1
  have seenRun := if seen then s.field.seenRun + 1 else 0
  have old := s.flag k 2
  have fault := if 3 ≤ run then true else if 8 ≤ seenRun then false else old
  have s := { s with field := { s.field with seenRun := seenRun } }
  have s := (((s.setFld k 31 16 run).setFlag k 0 seen).setFlag k 2 fault)
  have s := if seen then s.setFlag k 1 fail else s.bump Reg.LINEM_PILOT_MISS
  have s := if fault != old then s.raise 0x0F 13 else s
  if fail then s.raise 0x0F 14 else s

/-- The first symbol of a frame on a phase would overlap the pilot window, with a frame start angle (R92). -/
def State.pilotClash (s : State) (phase fsa : Nat) : Bool :=
  have sym := s.nsTicks (symbolNs s.plan)
  have start := (s.predicted phase + fsa) % 65536
  have w := s.pilotWindow 8
  decide (start < w.2) && decide (w.1 < start + sym) || decide (65536 + w.1 < start + sym)

/-- A write of PILOTCFG or of a frame start angle (R92): refused where a frame's first symbol would overlap a pilot
window. Register 0 is PILOTCFG, 1 to 3 the angles of the phases. -/
def effPilotConfig (reg : Nat) (v : Word) (s : State) : WriteResult :=
  if reg = 0 then
    have ph := bits 17 16 v.toNat
    have ph := if ph = 0 then 3 else ph
    if !(s.locked 0x0F) && s.pilotClash ph (s.fld (Reg.LINEC_FSA_P1 + 4 * (ph - 1)) 15 0) then .discard s 0x0F
    else s.plainWrite 0x0F 0x050 v
  else if reg = s.pilotPhase ∧ s.pilotClash reg (bits 15 0 v.toNat) then .discard s 0x0F
  else s.plainWrite 0x0E (0x040 + 4 * reg) v

/-- PILOT_CONFIG_WRITE (R92). -/
def execPilotConfigWrite (t : Angle) (p : Path) (reg : Fin 4) (v : Word) (s : State) : Outcome :=
  .next (if reg.val = 0 then (s.tick t).hostWrite p 0x0F 0x050 (effPilotConfig 0 v)
    else (s.tick t).hostWrite p 0x0E (0x040 + 4 * reg.val) (effPilotConfig reg.val v))

/-- A search window at its length at 66 Hz fits between the end of one beacon hold and the next beacon, on every lane and at every
beacon: on the pilot phase their lengths recur with every eighth (R88, R92). -/
def State.searchFits (s : State) : Bool :=
  have fast := s.setFld Reg.SWEEP_FREQ 23 0 660000
  (List.range 6).all (fun l => (List.range 8).all (fun j =>
    have stop := j * s.lineBcn + s.beaconHold l (j * s.lineBcn)
    decide (stop + stop % 2 + fast.searchLen l (stop + stop % 2) ≤ (j + 1) * s.lineBcn)))

/-- A write of a beacon setting (R81, R88, R108): register 0 is LINEM.BCNCFG, 1 LINEC.LONGPRE, 2 AIRM.BCNCFG. BCN_INT,
JOIN_N and LEVEL_MAX change only while the channel's lanes are disabled, and recompute. -/
def effBeaconConfig (reg : Nat) (v : Word) (s : State) : WriteResult :=
  if reg = 0 then
    match s.plainWrite 0x0F 0x044 v with
    | .done s' =>
      if s'.lineBcn = s.lineBcn ∧ s'.lineJoinN = s.lineJoinN ∧ s'.levelMax = s.levelMax then .done s'
      else if !s.linesDisabled then .discard s 0x08
      else if s'.searchFits then .done (s'.recomputeOn 0x10 (List.range 6))
      else .discard s 0x0B
    | r => r
  else if reg = 1 then
    match s.plainWrite 0x0E 0x05C v with
    | .done s' => if s'.searchFits then .done s' else .discard s 0x0B
    | r => r
  else match s.plainWrite 0x13 0x044 v with
    | .done s' =>
      if s'.airBcn = s.airBcn ∧ s'.airJoinN = s.airJoinN then .done s'
      else if !s.airsDisabled then .discard s 0x08
      else .done (s'.recomputeOn 0x10 [8, 9])
    | r => r

/-- BEACON_CONFIG_WRITE (R81, R88, R108). -/
def execBeaconConfigWrite (t : Angle) (p : Path) (reg : Fin 3) (v : Word) (s : State) : Outcome :=
  .next (
    if reg.val = 0 then (s.tick t).hostWrite p 0x0F 0x044 (effBeaconConfig 0 v)
    else if reg.val = 1 then (s.tick t).hostWrite p 0x0E 0x05C (effBeaconConfig 1 v)
    else (s.tick t).hostWrite p 0x13 0x044 (effBeaconConfig 2 v))

/-- A NODE record of a node record that changed: node records persist in the system partition (Table 4.8, Table 12.3). -/
def State.persistNode (s : State) (id : Nat) : State :=
  have n := s.node id
  s.journal 0x28 (leBytes 2 id ++ leBytes 8 n.serial ++ leBytes 1 n.keyslot ++ leBytes 1 n.state ++ leBytes 2 (n.group.getD 0xFFFF))

/-- A write of NODE_CTL with a command (Table 4.8): 1 PROVISION, 2 BAR, 3 RELEASE, 4 FORCE_SEARCH; bits 7:0 are KEYSLOT. -/
def effNodeCtl (cmd : Nat) (v : Word) (s : State) : WriteResult :=
  have id := s.fld Reg.LINEM_NODE_SEL 12 0
  have n := { s.node id with keyslot := v.toNat % 256 }
  if cmd = 1 then
    if n.state ≠ 0 then .discard s 0x09
    else match s.findSerial n.serial with
      | some _ => .discard s 0x10
      | none => .done ((s.setNode id { n with state := 1 }).persistNode id)
  else if cmd = 2 then
    if s.targeted id then .discard s 0x08
    else if n.state = 0 ∨ n.state = 5 then .discard s 0x09
    else .done ((s.setNode id { n with state := 5, medium := 0, lane := 7, session := false, join := none }).persistNode id)
  else if cmd = 3 then
    if n.state = 1 ∨ n.state = 5 then .done ((s.setNode id {}).persistNode id) else .discard s 0x09
  else if cmd = 4 then
    if n.state = 4 then .done (s.setNode id { n with forced := true }) else .discard s 0x09
  else .done (s.setNode id n)

/-- NODE_PROVISION, NODE_BAR, NODE_RELEASE and FORCE_SEARCH (R82, R88, Table 4.8). -/
def execNodeProvision (t : Angle) (p : Path) (v : Word) (s : State) : Outcome :=
  .next ((s.tick t).hostWrite p 0x0F 0x08C (effNodeCtl 1 v))
def execNodeBar (t : Angle) (p : Path) (v : Word) (s : State) : Outcome :=
  .next ((s.tick t).hostWrite p 0x0F 0x08C (effNodeCtl 2 v))
def execNodeRelease (t : Angle) (p : Path) (v : Word) (s : State) : Outcome :=
  .next ((s.tick t).hostWrite p 0x0F 0x08C (effNodeCtl 3 v))
def execForceSearch (t : Angle) (p : Path) (v : Word) (s : State) : Outcome :=
  .next ((s.tick t).hostWrite p 0x0F 0x08C (effNodeCtl 4 v))

end Sys2Proof.Machine
end

