-- ==== Sys2Proof/Machine/Air.lean ====
section
/-!
DEFINITION. The air channel's commands (spec/05_air_channel.md): region, channels and hopping, budgets, beacons,
rendezvous, rejoin, search, leases and rekeys.
-/

namespace Sys2Proof.Machine

/-- An air lane can transmit. -/
def State.airReady (s : State) (lane : Nat) : Bool :=
  s.mediaOpen && s.region != 0 && s.laneEnabled (0x10 + lane) && (s.slalom.lost.find (8 + lane)).isNone

/-- A search window of the lane is under way (R112). -/
def State.airSearching (s : State) (lane : Nat) : Bool :=
  match s.field.airSearch.find lane with
  | some last => decide (s.cycle ≤ last)
  | none => false

/-- The conducted level of a lane in dBm (R97): min(TXPWR, L + 2.15 − G, 27), rounded down. Where that falls below 0 dBm it is 0 dBm,
because TXNOW has no sign (DESIGN CHOICE, log 102). -/
def State.txLevel (s : State) (lane : Nat) : Nat :=
  have limit := if s.region = 2 then 30 else match s.budgetKey lane s.cycle with
    | some k => (subBands.getD k (0, 0, 0, 14)).2.2.2
    | none => 14
  have gain := toSigned 8 (s.fld Reg.AIRC_ANTGAIN (8 * lane + 7) (8 * lane))
  have power := min 27 (s.fld (Reg.AIR_RFCFG lane) 20 16)
  (min (power : Int) (min (((limit : Int) * 100 + 215 - 25 * gain) / 100) 27)).toNat

/-- The start of a frame of some ticks that is planned for a sweep time: the next hop slot's beginning where it would not
end inside the slot (R98). -/
def State.airStart (s : State) (time ticks : Nat) : Nat :=
  have slot := (time / 65536 / s.hopCyc + 1) * s.hopCyc * 65536
  if s.region = 2 ∧ slot < time + ticks then slot else time

/-- USED of a selection crosses LOWMARK: the cause, and the first crossing's latch (Table 5.12). -/
def State.checkLow (s : State) (key : Nat) : State :=
  have above := decide (s.fld Reg.AIRC_LOWMARK 7 0 * budgetOf key < 256 * s.usage key)
  if above && !(s.field.low.contains key) then
    have s := { s with field := { s.field with low := key :: s.field.low } }
    have s := if s.flag (evRaw 0x12) 0 then s
      else ((s.setReg Reg.AIRC_LOW_AT0 (key % 256)).setReg64 Reg.AIRC_LOW_AT1 Reg.AIRC_LOW_AT2 s.now)
    s.raise 0x12 0
  else if !above && s.field.low.contains key then
    { s with field := { s.field with low := s.field.low.filter (· ≠ key) } }
  else s

/-- A budget has fallen below a projection already admitted: recomputation with REG_LIMIT (R116, R48). -/
def State.checkShort (s : State) : State :=
  if (s.firstFailure [8, 9]).isNone then s
  else (if s.flag Reg.SLALOM_STATUS 31 then s else s.raise 0x12 1).recomputeOn 0x15 [8, 9]

/-- A charge goes into the current bin of a selection (R114). -/
def addBin (l : List DutyBin) (sec ms : Nat) : List DutyBin :=
  match l with
  | b :: bs => if b.sec = sec then { b with ms := b.ms + ms } :: bs else ⟨sec, ms⟩ :: b :: bs
  | [] => [⟨sec, ms⟩]
def State.chargeBudget (s : State) (key sec ms : Nat) : State :=
  have s := { s with field := { s.field with bins := s.field.bins.put key (addBin (s.field.bins.getD key []) sec ms) } }
  have k := bankKey key Reg.AIRC_SB_PEAK
  have s := if s.reg k < s.usage key then s.setReg k (s.usage key) else s
  (s.checkLow key).checkShort

/-- A frame may start in a second: its charge fits the budget or the dwell allowance of its channel (R114, R115). -/
def State.permitted (s : State) (key sec ms : Nat) : Bool := decide (s.usageAt key sec + ms ≤ budgetOf key)

/-- The KAP header of a frame that starts at a sweep time (R100). -/
def kapHeader (time ftype ver : Nat) (ack : Bool) : List Byte :=
  leBytes 1 (ftype * 16 + ver * 4 + b2n ack * 2) ++ beBytes 3 (time / 65536) ++ beBytes 2 time

/-- How a frame is secured: level, key index, frame counter and key (R103). -/
structure AirSec where
  level : Nat
  keyIdx : Nat
  counter : Nat
  key : Nat
  deriving DecidableEq, Repr

/-- The nonce of a secured air frame (R103): extended address, frame counter, security level. -/
def airNonce (ext counter level : Nat) : List Byte := beBytes 8 ext ++ beBytes 4 counter ++ leBytes 1 level

/-- The octets of a MAC header that are authenticated, as far as the spec names its fields (Table 5.4; log 99). -/
def macOctets (h : MacHeader) : List Byte :=
  (match h.seq with | some q => leBytes 1 q | none => []) ++ beBytes 2 h.pan ++ beBytes 8 h.source ++
    (match h.dest with
      | .none => []
      | .short a => beBytes 2 a
      | .extended a => beBytes 8 a) ++
    (match h.beacon with
      | some b => leBytes 1 b.beaconOrder ++ leBytes 1 b.superframeOrder ++ leBytes 1 (b2n b.coordinator) ++ leBytes 1 (b2n b.permit)
      | none => []) ++ leBytes 1 h.level ++ leBytes 1 h.keyIdx ++ beBytes 4 h.counter

/-- The MAC header of a frame (R99, R102, R112, Table 5.4): a beacon names no destination, SYNC the extended address of the SEEK's
source; `seq` is the module's number for the node in a POLL or CMD. -/
def State.macHeader (s : State) (node ftype : Nat) (seq : Option Nat) (sec : Option AirSec) : MacHeader :=
  { pan := s.fld Reg.AIRM_PANCFG 15 0, source := s.extAddress, seq := seq
    dest := if ftype = 0 then .none else if ftype = 0xB then .extended node else .short node
    beacon := if ftype = 0 then some { permit := decide (0 < s.airJoinN) } else none
    level := (sec.map (·.level)).getD 0, keyIdx := (sec.map (·.keyIdx)).getD 0, counter := (sec.map (·.counter)).getD 0 }

/-- A KAP payload as it is sent: secured by CCM* under the key, the nonce and the header, or in plain (R103; log 3). Level 6 encrypts
it; level 2 authenticates it and puts the MIC behind it. -/
def securedKap (h : MacHeader) (sec : Option AirSec) (kap : List Byte) : List Byte :=
  match sec with
  | some x =>
    if x.level = 2 then kap ++ Config.ccm x.key (airNonce h.source x.counter x.level) (macOctets h ++ kap) []
    else Config.ccm x.key (airNonce h.source x.counter x.level) (macOctets h) kap
  | none => kap

/-- A frame with a PSDU of n octets planned for a sweep time leaves on an air lane, if the lane is ready and the budget permits
it; otherwise it is held back and counted (R114 to R116). SYNC keeps to the anchor channel, which is that of cycle 0 (R98,
R112). `seq` is the MAC sequence number of a POLL or CMD (R102). Answers whether it was sent. -/
def State.sendAir (s : State) (lane node ftype n time ver : Nat) (ack : Bool) (seq : Option Nat) (sec : Option AirSec) (body : List Byte) :
    Bool × State :=
  have start := if ftype = 0xB then time else s.airStart time (s.thirdsTicks (s.airtime lane n))
  have c := if ftype = 0xB then 0 else start / 65536
  match s.budgetKey lane c with
  | none => (false, s)
  | some key =>
    if !(s.airReady lane) then (false, s)
    else if s.permitted key (s.secondAt start) (s.airCharge lane n) then
      have s := (s.chargeBudget key (s.secondAt start) (s.airCharge lane n)).bump (Reg.AIR_TX_FR lane)
      have s := (s.setFld (Reg.AIR_STAT lane) 31 29 2).setFld (Reg.AIR_STAT lane) 20 16 (s.txLevel lane)
      have s := s.setFld (Reg.AIR_STAT lane) 7 0 (s.airChannel lane c)
      have kap := kapHeader start ftype ver ack ++ body
      have h := s.macHeader node ftype seq sec
      (true, (s.send (.airFrame lane start h (securedKap h sec kap))).send (.air lane node ftype (s.airChannel lane c) s.extAddress kap))
    else (false, (s.bump (Reg.AIR_TX_HELD lane)).raise (0x10 + lane) 2)

/-- The KAP versions offered (Table 5.13). -/
def State.kapMin (s : State) : Nat := clampNat 1 3 (s.fld Reg.AIRM_KAPCFG 3 0)
def State.kapMax (s : State) : Nat := clampNat 1 3 (s.fld Reg.AIRM_KAPCFG 7 4)

/-- The payload of an air beacon and of SYNC (Table 5.5). -/
def State.kapBeacon (s : State) : List Byte :=
  beBytes 3 (s.cycle / 2 ^ 24) ++ beBytes 4 (s.reg Reg.SWEEP_PERIOD / 8) ++ beBytes 2 s.airBcn ++
    leBytes 1 (s.airJoinN * 16 + s.kapMax * 4 + s.kapMin)

/-- A write of REGCFG (R94, R410): REGION changes while both air lanes are disabled, and recomputes; it waits for a recomputation
under way (R416). -/
def effRegion (v : Word) (s : State) : WriteResult :=
  have change := !(s.locked 0x12) && bits 1 0 v.toNat != s.fld Reg.AIRC_REGCFG 1 0
  if change && s.nv.lc == 3 && bits 1 0 v.toNat != 0 && bits 1 0 v.toNat != s.nv.regionProv then .discard s 0x07
  else if change && (!s.airsDisabled || s.modeBusy) then .discard s 0x08
  else if !change then s.plainWrite 0x12 0x040 v
  else if s.flag Reg.SLALOM_STATUS 31 then .done { s with slalom := { s.slalom with heldRegion := some v } }
  else .done (s.applyRegion v)

/-- REGION_WRITE (R94). -/
def execRegionWrite (t : Angle) (p : Path) (v : Word) (s : State) : Outcome :=
  .next ((s.tick t).hostWrite p 0x12 0x040 (effRegion v))

/-- A write of AIRn.CHAN (R96): refused for an unusable channel, for a centre within 1 MHz of the other lane's, and while
the lane is enabled. -/
def effChan (lane : Nat) (v : Word) (s : State) : WriteResult :=
  have ch := v.toNat % 256
  have other := 1 - lane
  have a : Int := channelKhz 1 (s.airRate lane) ch
  have b : Int := channelKhz 1 (s.airRate other) (s.fld (Reg.AIR_CHAN other) 7 0)
  if (subBandOf (s.airRate lane) ch).isNone ∨ (a - b).natAbs < 1000 ∨ s.laneEnabled (0x10 + lane) then .discard s 0x0D
  else (s.plainWrite (0x10 + lane) 0x044 v).andThen (fun s => if s.region = 1 then s.setFld (Reg.AIR_STAT lane) 7 0 ch else s)

/-- CHAN_WRITE (R96). -/
def execChanWrite (t : Angle) (p : Path) (lane : Fin 2) (v : Word) (s : State) : Outcome :=
  .next ((s.tick t).hostWrite p (0x10 + lane.val) 0x044 (effChan lane.val v))

/-- The hopping of a lane's grid is sound: enough channels are enabled, and HOP_MUL shares no factor with their number
(R98). -/
def State.hopSound (s : State) (rate : Nat) : Bool :=
  have n := (s.usChannels rate).length
  decide ((if wideGrid rate then 25 else 50) ≤ n) && Nat.gcd s.hopMul n == 1

/-- A write of RFCFG: RATE changes only while the lane is disabled (Table 5.9), and only where the hopping stays sound on the grid of the
new rate (R98). -/
def effRfcfg (lane : Nat) (v : Word) (s : State) : WriteResult :=
  have v' := if s.laneEnabled (0x10 + lane) then setBits 9 8 (s.fld (Reg.AIR_RFCFG lane) 9 8) v.toNat else v.toNat
  match s.plainWrite (0x10 + lane) 0x040 (BitVec.ofNat 32 v') with
  | .done s' =>
    if wideGrid (s'.airRate lane) = wideGrid (s.airRate lane) ∨ s'.hopSound (s'.airRate lane) then .done s' else .discard s 0x0E
  | r => r

/-- A write of HOPCFG (register 0) or of US_MASK0 to 4 (registers 1 to 5), refused where the hopping of a lane would not be
sound (R98), also where a mask's new N shares a factor with the present HOP_MUL (DESIGN CHOICE, log 102). -/
def effHopConfig (reg : Nat) (v : Word) (s : State) : WriteResult :=
  match s.plainWrite 0x12 (if reg = 0 then 0x048 else 0x04C + 4 * reg) v with
  | .done s' => if s'.hopSound (s'.airRate 0) && s'.hopSound (s'.airRate 1) then .done s' else .discard s 0x0E
  | r => r

/-- HOP_CONFIG_WRITE (R98). -/
def execHopConfigWrite (t : Angle) (p : Path) (reg : Fin 6) (v : Word) (s : State) : Outcome :=
  .next ((s.tick t).hostWrite p 0x12 (if reg.val = 0 then 0x048 else 0x04C + 4 * reg.val) (effHopConfig reg.val v))

/-- HOP_SLOT_START (R98, R112): under US915 each lane moves to its hopping channel, but for one in a search window. -/
def execHopSlotStart (t : Angle) (s : State) : Outcome :=
  have s := s.tick t
  .next (
    if s.region ≠ 2 ∨ s.cycle % s.hopCyc ≠ 0 then s
    else
      have slot := s.cycle / s.hopCyc
      have a := s.hopChannel 0 slot
      have b := s.hopChannel 1 slot
      have s := if s.airSearching 0 then s else s.setFld (Reg.AIR_STAT 0) 7 0 a
      if s.airSearching 1 then s else s.setFld (Reg.AIR_STAT 1) 7 0 b)

/-- The security of a frame under a lane's group key, of a level and with a counter (R103). -/
def State.groupSec (s : State) (lane level c : Nat) : AirSec × State :=
  have key := airGroupKey lane
  have k := s.groupSecretNow key
  (⟨level, groupIdx (k.2.nv.groupGen.getD key 0), c, k.1⟩, k.2)

/-- The beacon of an air lane is due: at angle 0, within the ±4 ticks of R100, of a multiple of BCN_INT, once (R108). -/
def State.beaconDue (s : State) (lane : Nat) : Bool :=
  decide (s.cycle % s.airBcn = 0) && decide (s.angle ≤ 4) && s.field.beaconAt.find lane != some s.cycle

/-- The beacon of this cycle is dealt with, sent or skipped. -/
def State.noteBeacon (s : State) (lane : Nat) : State :=
  { s with field := { s.field with beaconAt := s.field.beaconAt.put lane s.cycle } }

/-- AIR_BEACON (R108, R116): at each multiple of BCN_INT the lane's beacon, or its skip. -/
def execAirBeacon (t : Angle) (lane : Fin 2) (s : State) : Outcome :=
  have s := s.tick t
  have l := lane.val
  have start := s.airStart (s.cycle * 65536) (s.thirdsTicks (s.airtime l 47))
  .next (
    if !(s.beaconDue l) ∨ !(s.airReady l) then s
    else
      match s.budgetKey l (start / 65536) with
      | none => s
      | some key =>
        have s := s.noteBeacon l
        if !(s.permitted key (s.secondAt start) (s.airCharge l 47)) then (s.bump (Reg.AIR_BCN_SKIP l)).raise (0x10 + l) 3
        else
          have d := s.drawGroup 2 l
          match d.1 with
          | .value c =>
            have k := d.2.groupSec l 2 c
            (k.2.sendAir l 0xFFFF 0 47 (k.2.cycle * 65536) 1 false none (some k.1) k.2.kapBeacon).2
          | _ => d.2)

/-- The guard g of a node in ns (R110): GUARD_BASE plus 50 ppm of the time since the last module frame it answered. -/
def State.guardNs (s : State) (n : Node) : Nat :=
  1000 * max 200 (s.fld Reg.AIRM_TIMECFG 31 16) + (s.uptime - n.answered) / 160000
def State.guardMaxNs (s : State) : Nat :=
  have b := max 200 (s.fld Reg.AIRM_TIMECFG 31 16)
  1000 * max (2 * b) (s.fld Reg.AIRM_TIMECFG 15 0)

/-- A POLL without work is due at this rendezvous: at the next one outside the lane's search window the time since the
last answered frame would reach MAX_DT (R109, R110). -/
def State.keepAlive (s : State) (n : Node) : Bool :=
  have next := s.cycle + n.rdv.1
  have pos := next % s.airSearchInt
  have inSearch := decide (s.airSearchInt / 2 ≤ pos) && decide (pos < s.airSearchInt / 2 + s.airSearchLen)
  have past := next - pos + s.airSearchInt / 2 + s.airSearchLen
  have ahead := if inSearch then ceilDiv (past - s.cycle) n.rdv.1 * n.rdv.1 else n.rdv.1
  decide (s.guardMaxNs ≤ 1000 * max 200 (s.fld Reg.AIRM_TIMECFG 31 16) +
    (s.uptime + ahead * s.sweep.period - n.answered) / 160000)

/-- The start of an exchange of some ticks that is planned for a sweep time: where it would start inside the lane's beacon hold, or
run into it, at the first tick after the hold (R109). -/
def State.afterHold (s : State) (lane start ticks : Nat) : Nat :=
  have span := s.airBcn * 65536
  have b := start / span * span
  have hold := s.thirdsTicks (s.airHold lane)
  if start < b + hold then b + hold else if b + span < start + ticks then b + span + hold else start

/-- The latest cycle up to now in which a node's rendezvous stands by its interval and offset (R109). -/
def rdvCycle (n : Node) (cycle : Nat) : Nat := cycle - (cycle + n.rdv.1 - n.rdv.2.1 % n.rdv.1) % n.rdv.1

/-- The start of that rendezvous, with a module's frame of `down` octets and an exchange of some ticks: its angle, moved by the hop slots
for that frame (R98), and past the beacon hold for the exchange (R109). -/
def State.rdvStart (s : State) (lane : Nat) (n : Node) (down ticks : Nat) : Nat :=
  s.afterHold lane (s.airStart (rdvCycle n s.cycle * 65536 + n.rdv.2.2) (s.thirdsTicks (s.airtime lane down))) ticks

/-- A node's rendezvous falls in this cycle and has not passed by more than the ±4 ticks of R100 (R109). -/
def State.atRendezvous (s : State) (lane : Nat) (n : Node) : Bool :=
  have start := s.rdvStart lane n 39 (s.airExchange lane 39 31)
  decide (0 < n.rdv.1) && rdvCycle n s.cycle % n.rdv.1 == n.rdv.2.1 && start / 65536 == s.cycle && decide (s.now ≤ start + 4)

/-- The exchange of a rendezvous (R109). -/
def State.airExch (s : State) (lane id : Nat) (obl : Option Nat) (isCmd : Bool) (records : List Byte) (seq : Nat) :
    Exchange :=
  have ticks := s.airExchange lane (39 + records.length) (31 + s.upOctets obl isCmd)
  have start := s.rdvStart lane (s.node id) (39 + records.length) ticks
  { node := id, start := start, obl := obl, isCmd := isCmd, seq := seq, first := start / 65536, last := (start + ticks) / 65536
    txLast := start / 65536, rxFirst := start / 65536, work := ticks, records := records }

/-- A rekey fails: the node becomes ABSENT (R104). -/
def State.failRekey (s : State) (id : Nat) : State :=
  have n := s.node id
  have s := s.setNode id { n with rekey := none, nextKey := 0, fcntNext := none, oldKeyUntil := none }
  (if n.medium = 2 then (s.bump Reg.AIRM_REKEY_FAIL).raise 0x13 (4 + 8 * n.lane) else s).setAbsent id false

/-- The module's frame of a rendezvous: POLL or CMD, secured under the node's session key (R103, R109). A key that has sent its last
frame leaves an unfinished rekey failed (R104). -/
def State.sendRendezvous (s : State) (lane : Nat) (x : Exchange) : State :=
  have n := s.node x.node
  have ftype := if x.isCmd then 3 else 1
  have len := 39 + x.records.length
  have start := s.airStart x.start (s.thirdsTicks (s.airtime lane len))
  match s.budgetKey lane (start / 65536) with
  | none => s
  | some key =>
    if !(s.permitted key (s.secondAt start) (s.airCharge lane len)) then (s.bump (Reg.AIR_TX_HELD lane)).raise (0x10 + lane) 2
    else
      have d := s.drawCounter (nodeKey x.node)
      match d.1 with
      | .value c =>
        have r := d.2.sendAir lane x.node ftype len x.start n.ver (n.acks x.seq) (some x.seq) (some ⟨6, n.keyIdx, c, n.key⟩)
          x.records
        if !r.1 then r.2
        else
          have s := (r.2.beginExchange (8 + lane) x).modNode x.node (fun n => n.drawn x.seq)
          (s.counterDrawn x.node c).leaveSent x
      | .stop => if n.rekey.isSome then d.2.failRekey x.node else d.2
      | .wait => d.2

/-- RENDEZVOUS (R109, R110, R113): a node's rendezvous with admitted work, or with none, on a lane that no other exchange occupies. -/
def execRendezvous (t : Angle) (lane : Fin 2) (node : BitVec 13) (w : Option Work) (s : State) : Outcome :=
  have s := s.tick t
  have l := lane.val
  have id := node.toNat
  have n := s.node id
  .next (
    if n.state ≠ 3 ∨ n.medium ≠ 2 ∨ n.lane ≠ l ∨ !n.session ∨ !(s.atRendezvous l n) ∨ !(s.airReady l) ∨ s.airSearching l ∨
        (s.exchange (8 + l)).isSome then s
    else if s.guardMaxNs < s.guardNs n then s.miss id
    else
      match w with
      | none =>
        if s.keepAlive n && s.beforeTakeback (s.cycle + 1) then s.sendRendezvous l (s.airExch l id none false [] ((n.seq + 1) % 256)) else s
      | some w =>
        have o := s.openExchange (8 + l) w (fun s => s.airExch l)
        match o.1 with
        | some x => if x.node = id ∧ o.2.beforeTakeback x.last then o.2.sendRendezvous l x else o.2
        | none => o.2)

/-- The reference of the leases: a STANDBY twin holds what is left of each, which it counts only from a takeover on (R106). -/
def State.leaseClock (s : State) : Nat := if s.pairState = 2 then 0 else s.uptime

/-- The lease of a node runs (R106). -/
def State.leaseRuns (s : State) (n : Node) : Bool :=
  match n.leaseEnd with
  | some e => decide (s.leaseClock < e)
  | none => false

/-- A twin becomes STANDBY, or is no longer: what is left of the leases stands still, or runs (R106). -/
def State.holdLeases (s : State) : State :=
  if s.pairState = 2 then s
  else { s with field := { s.field with nodes := s.field.nodes.mapVals (fun _ n => { n with leaseEnd := n.leaseEnd.map (fun e => e - s.uptime) }) } }
def State.runLeases (s : State) : State :=
  if s.pairState ≠ 2 then s
  else { s with field := { s.field with nodes := s.field.nodes.mapVals (fun _ n => { n with leaseEnd := n.leaseEnd.map (fun e => e + s.uptime) }) } }

/-- The end of a lease that starts now, and the minutes left of one (R106). -/
def State.newLease (s : State) : Nat := s.uptime + clampNat 60 10080 (s.fld Reg.AIRM_LEASECFG 15 0) * 480000000000
def State.leaseLeft (s : State) (n : Node) : Nat :=
  match n.leaseEnd with
  | some e => ceilDiv (e - s.leaseClock) 480000000000
  | none => 0

/-- The octets of RJACC, also carried by an air JACC (Table 5.5). -/
def State.rdvOctets (s : State) (rdv : Nat × Nat × Nat) : List Byte :=
  beBytes 2 rdv.1 ++ beBytes 2 rdv.2.1 ++ beBytes 2 rdv.2.2 ++ beBytes 2 (clampNat 60 10080 (s.fld Reg.AIRM_LEASECFG 15 0))

/-- REJOIN (R107): a KAP 2 or 3 node whose lease runs returns under its session; `off` is how far its estimate of sweep time lies from
the true one, in ticks, `pan` its PAN identifier (R99), and `counter` and `micOk` are what R103 tests. RJACC leaves at the end of the beacon hold, but not in a search
window (R112). -/
def execRejoin (t : Angle) (lane : Fin 2) (node : BitVec 13) (pan : BitVec 16) (counter : BitVec 32) (micOk : Bool) (off : Nat) (s : State) : Outcome :=
  have s := s.tick t
  have id := node.toNat
  have n := s.node id
  .next (
    if !(s.airReady lane.val) ∨ pan.toNat ≠ s.fld Reg.AIRM_PANCFG 15 0 then s
    else if n.medium ≠ 2 ∨ n.ver < 2 ∨ !n.session ∨ (n.state ≠ 3 ∧ n.state ≠ 4) ∨ !(s.leaseRuns n) then
      s.raise (0x10 + lane.val) 1
    else if !micOk ∨ !(newer n.fcnt counter.toNat) then (s.bump (Reg.AIR_SEC_FAIL lane.val)).raise (0x10 + lane.val) 1
    else if s.nsTicksUp (s.guardNs n) < off then (s.bump (Reg.AIR_FR_HDR lane.val)).raise (0x10 + lane.val) 1
    else
      have s := (s.bump (Reg.AIR_FR_OK lane.val)).raise (0x10 + lane.val) 0
      have s := s.setNode id { n with
        state := 3, miss := 0, routeAbs := false, fcnt := some counter.toNat, heard := s.now, lane := lane.val
        leaseEnd := some s.newLease, answered := s.uptime }
      have s := (s.bump Reg.AIRM_REJOIN_OK).raise 0x13 (8 * lane.val)
      if s.airSearching lane.val then s
      else
        have d := s.drawCounter (nodeKey id)
        match d.1 with
        | .value c =>
          (d.2.sendAir lane.val id 9 47 (d.2.airHoldEnd lane.val) n.ver false none (some ⟨6, n.keyIdx, c, n.key⟩) (d.2.rdvOctets n.rdv)).2
            |>.counterDrawn id c
        | .stop => if n.rekey.isSome then d.2.failRekey id else d.2
        | .wait => d.2)

/-- A SEEK is valid: it carries the module's PAN identifier (R99), and its source is not joined under KAP 1, which has none (R119). -/
def State.seekOk (s : State) (source pan : Nat) : Bool :=
  pan == s.fld Reg.AIRM_PANCFG 15 0 &&
    (match s.findSerial source with
    | some (_, n) => !(n.medium == 2 && n.ver == 1 && (n.state == 3 || n.state == 4))
    | none => true)

/-- SEEK (R112): a valid SEEK is answered with SYNC 1 ms after its end, in a search window, and under EU868 whenever the lane is idle. -/
def execSeek (t : Angle) (lane : Fin 2) (source : BitVec 64) (pan : BitVec 16) (s : State) : Outcome :=
  have s := s.tick t
  have l := lane.val
  have idle := (s.exchange (8 + l)).isNone
  .next (
    if !(s.airReady l) ∨ !(s.seekOk source.toNat pan.toNat) ∨ !(s.airSearching l || (s.region == 1 && idle)) then s
    else
      have d := s.drawGroup 2 l
      match d.1 with
      | .value c =>
        have k := d.2.groupSec l 2 c
        (k.2.sendAir l source.toNat 0xB 47 (k.2.now + k.2.thirdsTicks 3000) 2 false none (some k.1) k.2.kapBeacon).2
      | _ => d.2)

/-- AIR_SEARCH_WINDOW (R112): the lane listens on its anchor channel for SRCH_LEN cycles. -/
def execAirSearchWindow (t : Angle) (lane : Fin 2) (s : State) : Outcome :=
  have s := s.tick t
  .next (
    if !(s.airReady lane.val) ∨ s.cycle % s.airSearchInt ≠ s.airSearchInt / 2 then s
    else
      have s := { s with field := { s.field with
        airSearch := s.field.airSearch.put lane.val (s.cycle + s.airSearchLen - 1) } }
      (s.setFld (Reg.AIR_STAT lane.val) 31 29 5).setFld (Reg.AIR_STAT lane.val) 7 0
        (if s.region = 2 then s.hopChannel lane.val 0 else s.airChannel lane.val s.cycle))

/-- A node's lease has ended: the record stays PROVISIONED, and the node must join again (R106). -/
def State.expireLease (s : State) (id : Nat) : State :=
  have n := s.node id
  ((s.setNode id { n with state := 1, medium := 0, lane := 7, session := false, leaseEnd := none }).releaseWork id).raise 0x13
    (3 + 8 * n.lane)

/-- LEASE_EXPIRY (R106). -/
def execLeaseExpiry (t : Angle) (node : BitVec 13) (s : State) : Outcome :=
  have s := s.tick t
  have n := s.node node.toNat
  .next (if n.medium ≠ 2 ∨ n.leaseEnd.isNone ∨ s.leaseRuns n then s else s.expireLease node.toNat)

/-- REKEY_TIMEOUT (R104): the old key is accepted no more; a node whose rekey is unfinished, or that has not joined again since its LEAVE,
becomes ABSENT. -/
def execRekeyTimeout (t : Angle) (node : BitVec 13) (s : State) : Outcome :=
  have s := s.tick t
  have id := node.toNat
  have n := s.node id
  .next (
    match n.rekey with
    | some c =>
      if s.cycle < c + 2 * s.airBcn then s else s.failRekey id
    | none =>
      match n.oldKeyUntil with
      | some c =>
        if s.cycle < c then s
        else if n.session then s.setNode id { n with oldKeyUntil := none }
        else s.failRekey id
      | none => s)

/-- COLD becomes 0 when the last preloaded bin has left its window (R117). -/
def State.checkCold (s : State) : State :=
  match s.field.coldUntil with
  | none => s
  | some c =>
    have longest := if s.region = 2 then (if wideGrid (s.airRate 0) && wideGrid (s.airRate 1) then 10 else 20) else 3600
    if s.second < c + longest then s
    else ({ s with field := { s.field with coldUntil := none } }.setFlag Reg.AIRC_DUTYSTAT 0 false).raise 0x12 2

/-- BUDGET_BIN_EXPIRY (R114 to R117): bins that have left their window are dropped. -/
def execBudgetBinExpiry (t : Angle) (s : State) : Outcome :=
  have s := s.tick t
  have keep := fun k (l : List DutyBin) => l.filter (fun b => decide (s.second < b.sec + budgetWindow k))
  have s := { s with field := { s.field with bins := s.field.bins.mapVals keep } }
  have s := s.field.low.foldl (fun s k => s.checkLow k) s
  .next (s.checkCold.checkShort)

/-- A US_MASK register: bits beyond the grids in use read 0 (Table 5.11). -/
def State.readUsMask (s : State) (i : Nat) : Nat :=
  have n := max (channelCount 2 (s.airRate 0)) (channelCount 2 (s.airRate 1))
  s.reg (Reg.AIRC_US_MASK0 + 4 * i) % 2 ^ min 32 (n - 32 * i)

/-- AIRM.NODE_STAT and its window (Table 5.13). -/
def State.readAirNode (s : State) (off : Nat) : Nat :=
  have n := s.node (s.fld Reg.AIRM_NODE_SEL 12 0)
  have air := n.medium == 2
  have rdv := n.rdvNext.getD n.rdv
  if off = 0x090 then
    n.state * 2 ^ 29 + b2n air * 2 ^ 28 + (if air then n.lane * 2 ^ 27 + n.ver * 2 ^ 25 + b2n n.sleeps * 2 ^ 24 else 0)
      + min 3 n.miss * 2 ^ 16 + (if air then min 65535 (s.guardNs n / 1000) else 0)
  else if off = 0x094 then rdv.1 * 65536 + rdv.2.1
  else if off = 0x098 then rdv.2.2
  else if off = 0x09C then (if air then min 65535 (s.leaseLeft n) else 0)
  else if off = 0x0A0 then n.heard % 2 ^ 32
  else if off = 0x0A4 then n.heard / 2 ^ 32
  else if off = 0x0A8 then n.fcnt.getD 0
  else 0

/-- SB_LIMIT, SB_USED and SB_PEAK of the selection (Table 5.11). A US915 channel number is one of AIR0's grid (DESIGN CHOICE, log 99). -/
def State.budgetSel (s : State) : Nat :=
  if s.region = 2 then gridKey (s.airRate 0) (s.fld Reg.AIRC_SB_SEL 7 0) else s.fld Reg.AIRC_SB_SEL 7 0
def State.readBudget (s : State) (off : Nat) : Nat :=
  if off = 0x074 then budgetOf s.budgetSel
  else if off = 0x078 then s.usage s.budgetSel
  else s.reg (bankKey s.budgetSel Reg.AIRC_SB_PEAK)

/-- A write of NODE_RDV or NODE_ANG: it takes effect through an RDV record (Tables 5.6 and 5.13). -/
def effNodeRdv (ang : Bool) (v : Word) (s : State) : WriteResult :=
  have id := s.fld Reg.AIRM_NODE_SEL 12 0
  have n := s.node id
  have old := n.rdvNext.getD n.rdv
  have new := if ang then (old.1, old.2.1, v.toNat % 65536) else (v.toNat / 65536, v.toNat % 65536, old.2.2)
  have s := s.setNode id { n with rdvNext := some new }
  .done (if n.state = 3 ∧ n.medium = 2 then
    s.firmwareCommand id (leBytes 1 0x56 ++ beBytes 2 new.1 ++ beBytes 2 new.2.1 ++ beBytes 2 new.2.2) else s)

end Sys2Proof.Machine
end

