-- ==== Sys2Proof/Machine/Join.lean ====
section
/-!
DEFINITION. Joining on the line and on the air (R82, R83, R105, R119).
-/

namespace Sys2Proof.Machine

/-- The page of the node counters of a medium, its JOIN_OK, JOIN_UNK and AUTH_FAIL, and the bits of its JOIN and UNKNOWN
causes on a lane. -/
def joinOk (medium : Nat) : Nat := if medium = 1 then Reg.LINEM_JOIN_OK else Reg.AIRM_JOIN_OK
def joinUnk (medium : Nat) : Nat := if medium = 1 then Reg.LINEM_JOIN_UNK else Reg.AIRM_JOIN_UNK
def authFail (medium : Nat) : Nat := if medium = 1 then Reg.LINEM_AUTH_FAIL else Reg.AIRM_AUTH_FAIL
def State.joinCause (s : State) (medium lane b : Nat) : State :=
  if medium = 1 then s.raise 0x0F (8 + b) else s.raise 0x13 (b + 8 * lane)

/-- BCN_INT of a medium. -/
def State.bcn (s : State) (medium : Nat) : Nat := if medium = 2 then s.airBcn else s.lineBcn

/-- The version of a join (R82, R119): the highest one in the node's range and in the range offered; an air lane at 150
kbit/s takes KAP 3 only. -/
def State.joinVersion (s : State) (j : JoinRequest) : Option Nat :=
  have lo := max (j.range % 4) (if j.medium = 1 then s.klpMin else s.kapMin)
  have hi := min (j.range / 4 % 4) (if j.medium = 1 then s.klpMax else s.kapMax)
  have lo := if j.medium = 2 ∧ s.airRate j.lane = 2 then max lo 3 else lo
  if lo ≤ hi then some hi else none

/-- The lane that a JACC names (R82, R105): the lane of the node's phase with less admitted work; on the air the lane of
the JREQ. -/
def State.joinLane (s : State) (j : JoinRequest) : Nat :=
  if j.medium ≠ 1 then j.lane
  else
    have a := j.lane / 2 * 2
    have load := fun r => s.slalom.calendar.foldl (fun w p => w + p.2.work r) 0
    if load (a + 1) < load a then a + 1 else a

/-- Two draws of a free value make a challenge of 8 octets (R82, R318; log 2). -/
def State.drawChallenge (s : State) : Nat × State :=
  have d := s.draw
  (d.1 % 2 ^ 64, d.2)

/-- The octets of a JACC's KLP frame: the serial, the lane, the version code and the challenge (Table 4.2). -/
def jaccOctets (j : JoinRequest) (id lane ver challenge cycle : Nat) : List Byte :=
  klpHeader 6 1 false false id 0 cycle 0 (j.via.map (fun r => (r, 3))) ++
    beBytes 8 j.serial ++ leBytes 1 lane ++ leBytes 1 ver ++ beBytes 8 challenge

/-- Join traffic on a resource fits in capacity that is admitted to no one, while no exchange runs there (R82). -/
def State.joinRoom (s : State) (r work : Nat) : Bool :=
  (s.exchange r).isNone && s.spareFits r work

/-- The JACC of a join leaves at the end of the hold, on the medium and the lane of its JREQ and by its route, in capacity admitted to
no one; on the air not in a search window (Tables 4.2 and 5.5, R58, R77, R82, R112). The mode of its hops and of the JCONF's is not
stated: they are all DBPSK ×4 (DESIGN CHOICE, log 102). Answers the cycle in which it is sent, if it is. -/
def State.sendJacc (s : State) (j : JoinRequest) (id lane ver challenge : Nat) (rdv : Nat × Nat × Nat) : Option Nat × State :=
  if j.medium = 1 then
    have c := max (s.lineHoldEnd j.lane) (s.nextStart j.lane)
    have octets := jaccOctets j id lane ver challenge c
    have frames := exchangeFrames (List.replicate (j.via.length + 1) 3) octets.length (octets.length + 6)
    have stop := s.framesEnd j.lane frames c
    have due := s.framesEnd j.lane frames.dropLast c
    if s.joinRoom j.lane ((stop - c) * 65536) && !(s.sends j.lane c (stop - 1)) && !(s.awaits j.lane c (stop - 1)) &&
        !(s.sisterClash j.lane c (c + s.frameCycles j.lane 3 octets.length c - 1) due (stop - 1)) && s.lineClear j.lane c (stop - 1) then
      (some c, (s.sendLine j.lane id 6 3 false c octets).markReply j.lane due (stop - 1))
    else (none, s)
  else
    have c := s.airHoldEnd j.lane
    if s.airSearching j.lane || !(s.joinRoom (8 + j.lane) (s.airExchange j.lane 56 47)) then (none, s)
    else
      have r := s.sendAir j.lane id 6 56 c (max 1 ver) false none none
        (leBytes 1 ver ++ beBytes 8 challenge ++ s.rdvOctets rdv)
      (if r.1 then some (c / 65536) else none, r.2)

/-- A lane of a medium receives: it is enabled and its medium is not OFF (R55, R94). -/
def State.hearsJoin (s : State) (medium lane : Nat) : Bool :=
  if medium = 1 then s.plan != 0 && s.laneEnabled (0x08 + lane) else s.region != 0 && s.laneEnabled (0x10 + lane)

/-- The answer to a join request (R82, R105). An unprovisioned serial is counted, latched and reported; a BARRED one is
counted only; a record in JOINING gets no answer, nor does any while HASH is lost (Table 19.2). The record enters JOINING when the JACC
is sent. A JACC that refuses leaves the record as it is, and its challenge is 0 (DESIGN CHOICE, log 102). -/
def State.joinRequest (s : State) (j : JoinRequest) : State :=
  have ready := s.hashRuns && (if j.medium = 1 then s.lineReady j.lane else s.airReady j.lane)
  if !(s.hearsJoin j.medium j.lane) ∨ (j.medium ≠ 1 ∧ j.pan ≠ s.fld Reg.AIRM_PANCFG 15 0) then s
  else match s.findSerial j.serial with
  | none =>
    have s := s.bump (joinUnk j.medium)
    (if j.medium = 1 then (s.setReg Reg.LINEM_UNK_SER_LO (j.serial % 2 ^ 32)).setReg Reg.LINEM_UNK_SER_HI (j.serial / 2 ^ 32)
      else s).joinCause j.medium j.lane 1
  | some (id, n) =>
    if n.state = 5 then s.bump (joinUnk j.medium)
    else if n.state = 2 ∨ s.cycle < n.ignoreUntil ∨ !ready then s
    else
      match s.joinVersion j with
      | none => (s.sendJacc j id (s.joinLane j) 0 0 (0, 0, 0)).2
      | some ver =>
        have lane := s.joinLane j
        have c := s.drawChallenge
        have rdv := n.rdvNext.getD n.rdv
        have r := c.2.sendJacc j id lane ver c.1 rdv
        match r.1 with
        | none => r.2
        | some cycle =>
          have a : JoinAttempt := {
            cycle := cycle, ver := ver, lane := lane, challenge := c.1, medium := j.medium, route := j.via, rdv := rdv
            canRepeat := j.caps % 2 == 1, sleeps := j.caps / 2 % 2 == 1 }
          r.2.modNode id (fun n => { n with state := (if n.state = 1 then 2 else n.state), join := some a })

/-- JREQ (R82, R105). -/
def execJreq (t : Angle) (j : JoinRequest) (s : State) : Outcome := .next ((s.tick t).joinRequest j)

/-- The obligations of a node that moved to another medium are released to R38 and recomputed on the new one (R105). -/
def State.moveWork (s : State) (id : Nat) : State :=
  have n := s.node id
  have cal := s.slalom.calendar.mapVals (fun _ o =>
    if o.field && !o.group && o.node == id then
      { o with
        rest := (ownWork o.rest).put n.resource (s.exchangeWork n (o.cls != 0) o.records.length (if o.cls = 0 then o.up else 0))
        absent := false, retries := [] }
    else o)
  (s.setCalendar cal).recomputeOn 0x10 [n.resource]

/-- The group key of a lane reaches a new session, and with it the one that is being distributed (R82, R104). -/
def State.sendGroupKeys (s : State) (id medium lane : Nat) : State :=
  have key := groupKey medium lane
  have s := s.turnGroup key
  have gen := s.nv.groupGen.getD key 0
  have s := s.sendGkey id key gen s.cycle
  match s.nv.groupNext.find key with
  | some c => s.sendGkey id key (gen + 1) c
  | none => s

/-- The route of a node that has joined on the line: the one by which its JREQ came where that meets the limits, else the best one
(R82, R84). -/
def State.joinRoute (s : State) (id : Nat) (via : List Nat) : Route :=
  if s.routeAllowed id via then ⟨s.hopsCost id via, via⟩ else (s.bestRoute id).getD ⟨0, []⟩

/-- A node joins: it becomes ACTIVE with a new session, and its first CMD carries the group key (R82, R83). What is admitted
for a node that comes back on the sister lane stays charged to the lane it was admitted on (DESIGN CHOICE, log 102). -/
def State.completeJoin (s : State) (id : Nat) (a : JoinAttempt) (key : Nat) : State :=
  have n := s.node id
  have moved := n.hasLane && n.medium != a.medium && n.medium != 0
  have again := n.hasLane && n.medium == 1
  have s := s.useRoute n.route
  have s := s.setNode id { n with
    state := 3, medium := a.medium, lane := a.lane, ver := a.ver, canRepeat := a.canRepeat, sleeps := a.sleeps
    mode := (if again then n.mode else s.startMode a.lane), good := 0, miss := 0, routeAbs := false, heard := s.now, fcnt := none, join := none
    session := true, key := key, gkeyDue := true, ackDue := false, waiting := [], unmirrored := [], rdv := a.rdv, rdvNext := none
    keyIdx := 1, rekey := none, nextKey := 0, fcntNext := none, oldKeyUntil := none
    leaseEnd := (if a.medium = 2 then some s.newLease else none), answered := s.uptime, route := [], level := 0 }
  have s := if a.medium = 1 then (s.setLinkMode a.lane moduleEnd id true (s.startMode a.lane)).setRoute id (s.joinRoute id a.route) else s
  have s := (s.newKey (nodeKey id)).persistNode id
  have s := (s.bump (joinOk a.medium)).joinCause a.medium a.lane 0
  have s := s.sendGroupKeys id a.medium a.lane
  if moved then s.moveWork id else s

/-- JCONF (R82): the presence proof over the JACC's challenge is checked; the session key is derived from the node secret, the challenge
and the node nonce. A failed proof is counted, and JREQs of the serial are ignored for 15,000 cycles. -/
def execJconf (t : Angle) (node : BitVec 13) (resp : BitVec 128) (nonce : BitVec 64) (s : State) : Outcome :=
  have s := s.tick t
  have id := node.toNat
  have n := s.node id
  .next (
    match n.join with
    | none => s
    | some a =>
      if !(s.hearsJoin a.medium a.lane) ∨ !s.hashRuns then s
      else if !(s.sessRoom 1) then (s.setNode id { n with state := (if n.state = 2 then 1 else n.state), join := none }).sessFull
      else if s.secretOpen n.keyslot && resp.toNat == s.proof n.keyslot n.serial a.challenge then (s.completeJoin id a (s.sessionKey a.medium n.keyslot n.serial a.challenge nonce.toNat)).sessMark
      else
        (s.setNode id { n with
          state := (if n.state = 2 then 1 else n.state), join := none, ignoreUntil := s.cycle + 15000 }).bump (authFail a.medium))

/-- JOIN_TIMEOUT (R82): no JCONF within 2 × BCN_INT cycles of the JACC; the record returns to its state before it. -/
def execJoinTimeout (t : Angle) (node : BitVec 13) (s : State) : Outcome :=
  have s := s.tick t
  have id := node.toNat
  have n := s.node id
  .next (
    match n.join with
    | none => s
    | some a =>
      if s.cycle < a.cycle + 2 * s.bcn a.medium then s
      else s.setNode id { n with state := (if n.state = 2 then 1 else n.state), join := none })

end Sys2Proof.Machine
end

