-- ==== Sys2Proof/Machine/Loop.lean ====
section
/-!
DEFINITION. The field loops' commands (spec/06_field_loops.md): source, sensing, trips, SYNC, exchanges, attachment. The
commands that receive a frame stand in Receive.lean.
-/

namespace Sys2Proof.Machine

/-- The port may source: SRC_EN is 1, the lane is enabled, the pairing is SOLO or ACTIVE, and the port is not fenced (R126, R422). -/
def State.maySource (s : State) (n : Nat) : Bool :=
  s.srcEn n && s.laneEnabled (0x14 + n) && (s.pairState == 0 || s.pairState == 1) && !s.fenced

/-- The trips of the last 3,000 cycles, and whether the port still waits for 250 cycles after the last one (R124). -/
def State.recentTrips (s : State) (n : Nat) : List Nat :=
  (s.field.tripAt.getD n []).filter (fun c => decide (s.cycle < c + 3000))
def State.tripWaits (s : State) (n : Nat) : Bool :=
  match (s.field.tripAt.getD n []).getLast? with
  | some c => decide (s.cycle < c + 250)
  | none => false

/-- Less than 5 ms have passed since the module asserted the fence (R127; 40,000,000 units of 125 ps). -/
def State.dwells (s : State) : Bool :=
  match s.pairs.fenceAt with
  | some u => decide (s.uptime < u + 40000000)
  | none => false

/-- A port that is asked to source starts sensing, after the wait of a trip and the dwell of a takeover, or waits in FENCED (R124 to
R127). -/
def State.requestSource (s : State) (n : Nat) : State :=
  if s.maySource n then
    (if s.loopState n = 0 ∨ s.loopState n = 6 then
      s.setLoopState n (if s.tripWaits n then 4 else if s.dwells then 2 else 1)
    else s)
  else if s.offState = 6 then s.sourceOff n 6
  else s

/-- SYS.LANE_EN takes a word (R422): what runs on a lane that is disabled ends, a loop that is enabled may sense, and Slalom recomputes
(R48). The word is journalled (R367). -/
def State.applyLanes (s : State) (w : Nat) : State :=
  have old := s.reg Reg.SYS_LANE_EN
  have new := w &&& laneMask s.fac.variant
  have s := (s.setReg Reg.SYS_LANE_EN new).journalConfig Reg.SYS_LANE_EN
  have s := (List.range 16).foldl (fun (s : State) r =>
    if bit r old && !(bit r new) then
      (if r < 12 then s.endExchange r else if s.loopState (r - 12) = 5 then s else s.sourceOff (r - 12) s.offState)
    else if 12 ≤ r && bit r new && !(bit r old) then s.requestSource (r - 12)
    else s) s
  if old = new then s else s.recomputeOn 0x10 ((List.range 16).filter (fun r => bit r old != bit r new))

/-- SRC_EN requests or removes the source. -/
def State.applySource (s : State) (n : Nat) : State :=
  if s.srcEn n then s.requestSource n
  else if s.loopState n = 5 then s
  else if s.loopState n = 3 then (s.sourceOff n s.offState).loseRes (0x0C + n) 0x10
  else s.sourceOff n s.offState

/-- A write of SUPCFG (R126). -/
def effSupcfg (n : Nat) (v : Word) (s : State) : WriteResult :=
  (s.plainWrite (0x14 + n) 0x040 v).andThen (fun s => s.applySource n)

/-- LOOP_SRC_EN (R126). -/
def execLoopSrcEn (t : Angle) (p : Path) (n : Fin 4) (v : Word) (s : State) : Outcome :=
  .next ((s.tick t).hostWrite p (0x14 + n.val) 0x040 (effSupcfg n.val v))

/-- The source is enabled: every address of the loop is due an IDENT (R125, R135). -/
def State.enableSource (s : State) (n : Nat) : State :=
  { s.setLoopState n 3 with field := { s.field with identAt := (List.range 8).foldl (fun m i => m.del (n * 8 + i)) s.field.identAt } }

/-- LOOP_SENSE_END (R125): the terminal voltage, in mV, at the end of a sensing period of 1 ms (8,000,000 units of 125 ps). After a
conflict the port senses again in the next cycle. -/
def execLoopSenseEnd (t : Angle) (n : Fin 4) (mv : Nat) (s : State) : Outcome :=
  have s := s.tick t
  have l := n.val
  .next (
    if s.loopState l ≠ 1 ∨ s.uptime < s.field.loopSince.getD l 0 + 8000000 ∨ s.field.conflictAt.find l = some s.cycle then s
    else if !(s.maySource l) then s.sourceOff l s.offState
    else if mv < 2000 then (s.enableSource l).regainRes (0x0C + l)
    else
      have s := { s with field := { s.field with conflictAt := s.field.conflictAt.put l s.cycle } }
      ((s.setLoopState l 1).setFlag (Reg.LOOP_SUPSTAT l) 2 true).raise (0x14 + l) 10)

/-- The port trips: the third trip within 3,000 cycles puts it in LOCKOUT (R124). -/
def State.tripLoop (s : State) (n : Nat) : State :=
  have trips := s.recentTrips n ++ [s.cycle]
  have s := { s with field := { s.field with tripAt := s.field.tripAt.put n trips, overMs := s.field.overMs.put n 0 } }
  have s := (s.bump (Reg.LOOP_TRIP_TOT n)).setFld (Reg.LOOP_SUPSTAT n) 15 8 (min 255 trips.length)
  have s := (s.sourceOff n (if 3 ≤ trips.length then 5 else 4)).raise (0x14 + n) 8
  have s := if 3 ≤ trips.length then s.raise (0x14 + n) 9 else s
  s.loseRes (0x0C + n) 0x16

/-- LOOP_MEASURE (R124): the terminal voltage in mV, the loop current in 0.1 mA and the insulation to PE in kΩ. -/
def execLoopMeasure (t : Angle) (n : Fin 4) (mv : BitVec 16) (ma10 : BitVec 16) (kohm : Nat) (s : State) : Outcome :=
  have s := s.tick t
  have l := n.val
  have v := mv.toNat
  have i := ma10.toNat
  have vmin := s.fld (Reg.LOOP_VOLT l) 31 16
  have imax := s.fld (Reg.LOOP_CURR l) 31 16
  have first := (s.field.overMs.find l).isNone
  have s := s.setReg (Reg.LOOP_VOLT l) ((if first then v else min vmin v) * 65536 + v)
  have s := s.setReg (Reg.LOOP_CURR l) (max imax i * 65536 + i)
  have low := decide (v < 9000)
  have since := match s.field.uvSince.find l with
    | some c => c
    | none => s.now
  have s := { s with field := { s.field with uvSince := (if low then s.field.uvSince.put l since else s.field.uvSince.del l) } }
  have s := if low ∧ since + 65536 ≤ s.now ∧ !(s.flag (Reg.LOOP_SUPSTAT l) 1) then
    (s.setFlag (Reg.LOOP_SUPSTAT l) 1 true).raise (0x14 + l) 4 else s
  have s := if kohm < 50 ∧ !(s.flag (Reg.LOOP_SUPSTAT l) 0) then
    (s.setFlag (Reg.LOOP_SUPSTAT l) 0 true).raise (0x14 + l) 11 else s
  have above := s.loopState l == 3 && decide (10 * clampNat 20 100 (s.fld (Reg.LOOP_SUPCFG l) 15 8) < i)
  have run := if above then s.field.overMs.getD l 0 + 1 else 0
  have s := { s with field := { s.field with overMs := s.field.overMs.put l run } }
  .next (if clampNat 1 50 (s.fld (Reg.LOOP_SUPCFG l) 23 16) ≤ run then s.tripLoop l else s)

/-- LOOP_TRIP_RETRY (R124): 250 cycles after a trip the port senses again. -/
def execLoopTripRetry (t : Angle) (n : Fin 4) (s : State) : Outcome :=
  have s := s.tick t
  have last := (s.field.tripAt.getD n.val []).getLastD 0
  .next (
    if s.loopState n.val ≠ 4 ∨ s.cycle < last + 250 then s
    else if s.maySource n.val then s.setLoopState n.val (if s.dwells then 2 else 1)
    else s.setLoopState n.val s.offState)

/-- A write of RESTORE (R124, Table 6.6): LOCKOUT is left and sensing starts. -/
def effRestore (n : Nat) (v : Word) (s : State) : WriteResult :=
  if !(v.toNat.testBit 0) then .ignored s
  else if s.loopState n ≠ 5 then .discard s 0x09
  else
    .done (s.setLoopState n (if s.maySource n then (if s.dwells then 2 else 1) else s.offState))

/-- LOOP_RESTORE (R124). -/
def execLoopRestore (t : Angle) (p : Path) (n : Fin 4) (v : Word) (s : State) : Outcome :=
  .next ((s.tick t).hostWrite p (0x14 + n.val) 0x050 (effRestore n.val v))

/-- LOOP_DWELL_END (R127): 5 ms after the takeover twin asserted the fence, its ports begin sensing. -/
def execLoopDwellEnd (t : Angle) (s : State) : Outcome :=
  have s := s.tick t
  .next (if s.dwells then s
    else (List.range 4).foldl (fun s n => if s.loopState n = 2 then s.setLoopState n (if s.maySource n then 1 else s.offState) else s) s)

/-- A loop can transmit: its source is ON. -/
def State.loopReady (s : State) (n : Nat) : Bool := s.mediaOpen && s.laneEnabled (0x14 + n) && s.loopState n == 3

/-- A KLL frame leaves on a loop: header and payload, and their CRC-16, whose high octet goes first (R130; DESIGN CHOICE,
log 102). -/
def State.sendLoop (s : State) (n addr ftype : Nat) (octets : List Byte) : State :=
  s.send (.loop n addr ftype (octets ++ beBytes 2 (crc16 octets)))

/-- LOOP_SYNC (R132): once in every cycle, within a tick of SYNC_ANG, an enabled loop sends a SYNC. Its SEQ octet is 0, as
that of an IDENT (DESIGN CHOICE, log 102). -/
def execLoopSync (t : Angle) (n : Fin 4) (s : State) : Outcome :=
  have s := s.tick t
  have l := n.val
  .next (
    if !(s.loopReady l) ∨ s.field.syncAt.find l = some s.cycle ∨
        1 < ((s.angle : Int) - s.fld (Reg.LOOP_KLLCFG l) 31 16).natAbs then s
    else
      have s := { s with field := { s.field with syncAt := s.field.syncAt.put l s.cycle } }
      (s.bump (Reg.LOOP_SYNC_TX l)).sendLoop l 0xFF 0 (leBytes 1 0x04 ++ leBytes 1 0xFF ++ zeros 1 ++ beBytes 3 s.cycle))

/-- The header of a KLL frame (R130). -/
def kllHeader (ftype : Nat) (ack : Bool) (addr seq : Nat) : List Byte :=
  leBytes 1 (ftype * 16 + 4 + b2n ack * 2) ++ leBytes 1 addr ++ leBytes 1 seq

/-- The exchange that would start on a loop (R133). -/
def State.loopExch (s : State) (n id : Nat) (obl : Option Nat) (isCmd : Bool) (records : List Byte) (seq : Nat) : Exchange :=
  have ticks := s.loopExchange n (8 + records.length) (8 + s.upOctets obl isCmd)
  { node := id, start := s.now, obl := obl, isCmd := isCmd, seq := seq, first := s.cycle, last := s.cycle + ticks / 65536
    txLast := s.cycle, rxFirst := s.cycle, work := ticks, records := records }

/-- LOOP_EXCHANGE_START (R133, R134): a POLL or CMD to a node ACTIVE on the loop. -/
def execLoopExchangeStart (t : Angle) (n : Fin 4) (w : Work) (s : State) : Outcome :=
  have s := s.tick t
  have r := 0x0C + n.val
  .next (
    if !(s.loopReady n.val) ∨ (s.exchange r).isSome then s
    else
      have o := s.openExchange r w (fun s => s.loopExch n.val)
      match o.1 with
      | none => o.2
      | some x =>
        have s := o.2
        have m := s.node x.node
        if m.state ≠ 3 ∨ m.medium ≠ 3 ∨ m.lane ≠ n.val ∨ !(s.beforeTakeback x.last) then s
        else
          have ftype := if x.isCmd then 3 else 1
          have s := (s.beginExchange r x).setNode x.node (m.drawn x.seq)
          s.sendLoop n.val m.addr ftype (kllHeader ftype (m.acks x.seq) m.addr x.seq ++ x.records))

/-- ADDRm_CFG of a loop: its node while VALID (Table 6.7). -/
def State.loopNode (s : State) (n m : Nat) : Option Nat :=
  if s.flag (Reg.LOOP_ADDR_CFG n m) 31 then some (s.fld (Reg.LOOP_ADDR_CFG n m) 12 0) else none

/-- IDENT (R135): each valid address whose node is not ACTIVE on the loop receives an IDENT with a fresh challenge, except
one whose record is JOINING (R82). A
transmitter that restarts in a power gap while its record is ACTIVE gets none until it is ABSENT: R135 sends IDENT to nodes that are not
ACTIVE, R128 only says how it is answered (DEDUCED, log 102). -/
def State.identOne (s : State) (n m : Nat) : State :=
  match s.loopNode n m with
  | none => s
  | some id =>
    have x := s.node id
    if x.state = 2 ∨ (x.state = 3 ∧ x.medium = 3 ∧ x.lane = n ∧ x.addr = m) then s
    else
      have c := s.drawChallenge
      have s := { c.2 with field := { c.2.field with
        idents := c.2.field.idents.put (n * 8 + m) c.1, identAt := c.2.field.identAt.put (n * 8 + m) s.cycle } }
      s.sendLoop n m 5 (kllHeader 5 false m 0 ++ beBytes 8 c.1)

/-- An address is due an IDENT: none has been sent since the source was enabled, or the last one lies IDENT_INT cycles back. It goes in
capacity admitted to no one, while no exchange runs: 16 octets, and 35 of the IDRSP (R133, R135). -/
def State.identDue (s : State) (n m : Nat) : Bool :=
  (match s.field.identAt.find (n * 8 + m) with
    | some c => decide (c + max 250 (s.fld (Reg.LOOP_IDENTCFG n) 15 0) ≤ s.cycle)
    | none => true) && s.hashRuns && s.joinRoom (0x0C + n) (s.loopExchange n 16 35)
def execIdent (t : Angle) (n : Fin 4) (m : Fin 8) (s : State) : Outcome :=
  have s := s.tick t
  .next (if s.loopReady n.val && s.identDue n.val m.val then s.identOne n.val m.val else s)

/-- A write of ADDRm_CFG: refused for a new NODE while the address is ACTIVE (Table 6.7). -/
def effAddrCfg (n m : Nat) (v : Word) (s : State) : WriteResult :=
  have active := match s.loopNode n m with
    | some id => (s.node id).state == 3 && (s.node id).medium == 3 && (s.node id).lane == n && (s.node id).addr == m
    | none => false
  if active && bits 12 0 v.toNat != s.fld (Reg.LOOP_ADDR_CFG n m) 12 0 then .discard s 0x08
  else s.plainWrite (0x14 + n) (0x080 + 0x10 * m) v

/-- A read of VOLT or CURR starts their extremes again (Table 6.6). -/
def State.readExtreme (s : State) (key : Nat) : State × Nat :=
  have v := s.reg key
  (s.setReg key (v % 65536 * 65536 + v % 65536), v)

end Sys2Proof.Machine
end

