-- ==== Sys2Proof/Machine/Lift.lean ====
section
/-!
DEFINITION. The Lift queues (spec/07_lift_queues.md): packets, words and tags, the four pointers, the read port, the
flush and the watermark. A packet of MEDIA or FEED is written in one step; a packet of the host word by word (R282).
-/

namespace Sys2Proof.Machine

/-- A header word of Table 7.1. -/
def liftHeader (t0 sint n sseq leaf node nch : Nat) : Nat :=
  t0 % 2 ^ 64 + (sint % 2 ^ 16) * 2 ^ 64 + ((n - 1) % 128) * 2 ^ 80 + (sseq % 2 ^ 16) * 2 ^ 87 + (leaf % 256) * 2 ^ 103 +
    (node % 8192) * 2 ^ 111 + (nch % 16) * 2 ^ 124

/-- The sample count of a header, and the data words of its packet (R137). -/
def headerCount (h : Nat) : Nat := bits 86 80 h + 1
def headerWords (h : Nat) : Nat := ceilDiv (headerCount h) 8

/-- The data words of samples (R137). -/
def sampleWord (xs : List Nat) : Nat := ofLe (xs.flatMap (fun x => leBytes 2 x))
def sampleWords (xs : List Nat) : List Nat :=
  (List.range (ceilDiv xs.length 8)).map (fun i => sampleWord ((xs.drop (8 * i)).take 8))

/-- Tags of Table 7.2: of a header word, of data word i of a packet, of an abort word, and of no word. -/
def headerTag : Nat := 0x4010
def abortTag : Nat := 0x7000
def emptyTag : Nat := 0x8000
def dataTag (h i : Nat) : Nat :=
  if i + 1 = headerWords h then 0x2000 + 2 * (headerCount h - 8 * i) else 16

/-- A Lift queue, its page group and its index there. -/
def State.queue (s : State) (q : Nat) : LiftQueue := s.lift.queues.getD q {}
def State.setQueue (s : State) (q : Nat) (x : LiftQueue) : State :=
  { s with lift := { s.lift with queues := s.lift.queues.put q x } }
abbrev queuePage (q : Nat) : Nat := 0x18 + q / 8
/-- A register of a queue's block. -/
abbrev queueReg (reg : Nat → Nat → Nat) (q : Nat) : Nat := reg (q / 8) (q % 8)

/-- Q_EN, SRC (3 acts as 0) and LANE of a queue (Table 7.5). -/
def State.queueEn (s : State) (q : Nat) : Bool := s.flag (queueReg Reg.LIFT_Q_QCFG q) 31
def State.queueOn (s : State) (q : Nat) : Bool := s.queueEn q && !s.boot.queuesBad.contains q
def State.queueSrc (s : State) (q : Nat) : Nat := s.fld (queueReg Reg.LIFT_Q_QCFG q) 9 8 % 3
def State.queueLane (s : State) (q : Nat) : Nat := s.fld (queueReg Reg.LIFT_Q_QCFG q) 3 0

/-- LEVEL and the free space, differences modulo 1,024 (R139). -/
def LiftQueue.level (x : LiftQueue) : Nat := (x.p + 1024 - x.k) % 1024
def LiftQueue.space (x : LiftQueue) : Nat := 512 - (x.w + 1024 - x.k) % 1024
def LiftQueue.isEmpty (x : LiftQueue) : Bool := x.r == x.p
def LiftQueue.isFull (x : LiftQueue) : Bool := decide (x.w % 512 = x.k % 512) && x.w / 512 != x.k / 512

/-- A word written at W. -/
def LiftQueue.push (x : LiftQueue) (word tag : Nat) : LiftQueue :=
  { x with
    cells := x.cells.put (x.w % 512) (word, tag)
    w := (x.w + 1) % 1024 }

/-- A cause of a queue: WM 0, FLUSHED 8, ABORT 16, HOLD 24 (Table 7.7). -/
def State.queueCause (s : State) (q base : Nat) : State := s.raise (queuePage q) (base + q % 8)

/-- The watermark after LEVEL rose from `before` (R143). -/
def State.watermark (s : State) (q before : Nat) : State :=
  have mark := min 511 (s.fld (queueReg Reg.LIFT_Q_WMCFG q) 9 0)
  have level := (s.queue q).level
  if mark = 0 then s
  else if s.flag (evRaw (queuePage q)) (q % 8) then
    s.setFld (queueReg Reg.LIFT_Q_WMPEAK q) 9 0 (max (s.fld (queueReg Reg.LIFT_Q_WMPEAK q) 9 0) level)
  else if before ≤ mark ∧ mark < level then
    have s := s.setReg64 (queueReg Reg.LIFT_Q_WMAT_LO q) (queueReg Reg.LIFT_Q_WMAT_HI q) s.now
    (s.setFld (queueReg Reg.LIFT_Q_WMPEAK q) 9 0 level).queueCause q 0
  else s

/-- P moves to W (R139). -/
def State.publish (s : State) (q : Nat) : State :=
  have x := s.queue q
  (s.setQueue q { x with p := x.w }).watermark q x.level

/-- The words from K up to W are discarded, in a completed flush (R142): FL_DISC, the cause FLUSHED. -/
def State.flushed (s : State) (q : Nat) : State :=
  have x := s.queue q
  have n := (x.w + 1024 - x.k) % 1024
  have s := s.setQueue q { x with
    p := x.w
    r := x.w
    k := x.w
    opened := none
    flushAt := none
    taken := none }
  (s.bump (queueReg Reg.LIFT_Q_FL_DISC q) n).queueCause q 8

/-- An abort word that carries the header of the packet it cuts short is published (R138, R141). -/
def State.abortPacket (s : State) (q header : Nat) : State :=
  have s := s.setQueue q { (s.queue q).push header abortTag with opened := none }
  ((s.bump (queueReg Reg.LIFT_Q_ABORTS q)).queueCause q 16).publish q

/-- The open packet has ended with its last data word: it is published, or discarded where a flush waits for it
(R139, R142). -/
def State.endPacket (s : State) (q : Nat) : State :=
  have x := s.queue q
  if x.flushAt.isSome then s.flushed q
  else
    have s := s.setQueue q { x with opened := none }
    (s.bump (queueReg Reg.LIFT_Q_PKT_IN q)).publish q

/-- Data words are written into the open packet; the last one ends it. -/
def State.writeWords (s : State) (q : Nat) : List Nat → State
  | [] => s
  | w :: ws =>
    have x := s.queue q
    match x.opened with
    | none => s
    | some o =>
      have i := o.words.length
      have s := s.setQueue q { x.push w (dataTag o.header i) with opened := some { o with words := o.words ++ [w] } }
      if i + 1 = headerWords o.header then s.endPacket q else s.writeWords q ws

/-- A packet is opened and the words that have come for it are written; a packet whose place a later header took ends
with an abort word (R141). -/
def State.openPacket (s : State) (q : Nat) (pk : LiftPacket) : State :=
  have s := s.setQueue q { (s.queue q).push pk.header headerTag with opened := some { header := pk.header } }
  have s := s.writeWords q pk.words
  if pk.superseded && (s.queue q).opened.isSome then s.abortPacket q pk.header else s

/-- A packet can be opened at once: Q_EN, no packet open or waiting, and space for it (R139). -/
def State.canOpen (s : State) (q : Nat) (pk : LiftPacket) : Bool :=
  s.queueOn q && (s.queue q).opened.isNone && (s.queue q).waiting.isEmpty &&
    decide (1 + headerWords pk.header ≤ (s.queue q).space)

/-- A packet is offered: it is opened, or waits with its producer behind every earlier packet (R139). -/
def State.offerPacket (s : State) (q : Nat) (pk : LiftPacket) : State :=
  if s.canOpen q pk then s.openPacket q pk
  else
    have x := s.queue q
    have s := s.setQueue q { x with waiting := x.waiting ++ [pk] }
    (s.bump (queueReg Reg.LIFT_Q_HOLD q)).queueCause q 24

/-- The packets that wait are written while space and Q_EN allow, in arrival order (R139). -/
def State.resumePackets (s : State) (q : Nat) : Nat → State
  | 0 => s
  | fuel + 1 =>
    have x := s.queue q
    match x.waiting with
    | [] => s
    | pk :: rest =>
      if s.queueOn q && x.opened.isNone && decide (1 + headerWords pk.header ≤ x.space) then
        ((s.setQueue q { x with waiting := rest }).openPacket q pk).resumePackets q fuel
      else s

/-- The lane that reads the word at R (R140): LANE takes effect at a header word. -/
def State.readingLane (s : State) (q : Nat) : Nat :=
  have x := s.queue q
  if x.r = x.k then s.queueLane q else x.reading

/-- The word at R and its tag; no word while the queue is empty to the read port or flushing (R138, R140, R142). -/
def State.peekWord (s : State) (q : Nat) : Nat × Nat :=
  have x := s.queue q
  if x.isEmpty || x.flushAt.isSome then (0, emptyTag) else x.cells.getD (x.r % 512) (0, emptyTag)

/-- A read of the read port (R140). -/
def State.readPort (s : State) (q : Nat) : State × Nat × Nat :=
  have x := s.queue q
  have c := s.peekWord q
  if bit 15 c.2 then (s, c)
  else
    have r := (x.r + 1) % 1024
    have lane := s.readingLane q
    (s.setQueue q { x with
      reading := lane
      r := r
      k := if bit 13 c.2 then r else x.k }, c)

/-- A lane is lost: the packet it was reading is delivered again from its header word, to the lane that LANE names, or to
the lowest-numbered live lane where LANE names a lost one (R140). Where no lane is LIVE, LANE keeps its value (DESIGN CHOICE,
log 102). -/
def State.laneLostQueue (s : State) (q lane : Nat) (lost : Nat → Bool) (live : List Nat) : State :=
  have x := s.queue q
  if s.queueLane q ≠ lane ∧ (x.r = x.k ∨ x.reading ≠ lane) then s
  else
    have s := if !(lost (s.queueLane q)) then s
      else match live with
        | [] => s
        | l :: ls => s.setFld (queueReg Reg.LIFT_Q_QCFG q) 3 0 (ls.foldl min l)
    s.setQueue q { x with
      r := x.k
      reading := s.queueLane q
      taken := none }

/-- The queues return from OFF empty; what their producers hold stays with them. -/
def State.liftOff (s : State) : State :=
  { s with lift := { s.lift with queues := s.lift.queues.mapVals (fun _ x => { waiting := x.waiting : LiftQueue }) } }

/-- The samples of a data word that is discarded: by the header of its packet, or 8 where none is known (log 18). -/
def orphanCount (h : Option Nat) (i : Nat) : Nat :=
  match h with
  | none => 8
  | some h => if 8 * i < headerCount h then min 8 (headerCount h - 8 * i) else 8

/-- Samples of the host are discarded (R141). -/
def State.orphan (s : State) (q n : Nat) : State := s.bump (queueReg Reg.LIFT_Q_ORPHAN q) n

/-- The host writes a header word: it is discarded while Q_EN is 0 or SRC is not HOST; it closes an open packet with an
abort word; and it opens its packet or lets it wait behind an earlier one (R136, R139, R141). While FLUSHING the abort word ends the
open packet, and the flush then completes and discards it with the rest (DESIGN CHOICE, log 102). -/
def State.hostHeader (s : State) (q w : Nat) : State :=
  have x := s.queue q
  have s := s.setQueue q { x with hostHeader := some w }
  if !(s.queueOn q) || s.queueSrc q != 2 then s
  else
    have s := match x.waiting.reverse, x.opened with
      | pk :: before, _ =>
        if pk.words.length < headerWords pk.header then
          s.setQueue q { s.queue q with waiting := (({ pk with superseded := true } :: before).reverse) }
        else s
      | [], some o => if x.flushAt.isSome then (s.abortPacket q o.header).flushed q else s.abortPacket q o.header
      | [], none => s
    s.offerPacket q { header := w, src := 2 }

/-- The host writes data word i: it goes into the packet that the host is writing, open or waiting, if it is the next
one of that packet; any other is discarded (R141, R282). -/
def State.hostData (s : State) (q i w : Nat) : State :=
  have x := s.queue q
  have drop := s.orphan q (orphanCount x.hostHeader i)
  if !(s.queueOn q) || s.queueSrc q != 2 then drop
  else match x.waiting.reverse, x.opened with
    | pk :: before, _ =>
      if pk.superseded || pk.words.length != i || decide (headerWords pk.header ≤ i) then drop
      else s.setQueue q { x with waiting := ({ pk with words := pk.words ++ [w] } :: before).reverse }
    | [], some o => if o.words.length != i then drop else s.writeWords q [w]
    | [], none => drop

/-- HOST_INTAKE_WORD (R282): word 0 of a queue's window is the header, word 1 + k data word k. -/
def execHostIntakeWord (t : Angle) (q : Fin 32) (index : Fin 2048) (w : BitVec 128) (s : State) : Outcome :=
  have s := s.tick t
  if s.pageOff (queuePage q) then .next s
  else if index.val = 0 then .next (s.hostHeader q w.toNat)
  else .next (s.hostData q (index.val - 1) w.toNat)

/-- PACKET_OFFER (R136, R139): a producer offers the oldest packet whose reading has been accepted; one whose queue takes none of its
packets, or is off, keeps its place before the later ones of that queue. -/
def execPacketOffer (t : Angle) (feed : Bool) (s : State) : Outcome :=
  have s := s.tick t
  match s.lift.offers.find? (fun o => o.feed == feed && s.queueSrc o.queue == b2n feed && !s.pageOff (queuePage o.queue)) with
  | none => .next s
  | some o => .next ({ s with lift := { s.lift with offers := s.lift.offers.erase o } }.offerPacket o.queue o.packet)

/-- PACKET_RESUME (R139). -/
def execPacketResume (t : Angle) (q : Fin 32) (s : State) : Outcome :=
  have s := s.tick t
  .next (s.resumePackets q ((s.queue q).waiting.length + 1))

/-- A write of 1 to WM causes clears them with PEAK and WMAT, and sets them again at once above the mark (R143). -/
def State.clearWatermark (s : State) (q : Nat) : State :=
  have s := s.setFld (queueReg Reg.LIFT_Q_WMPEAK q) 9 0 0
  have s := s.setReg64 (queueReg Reg.LIFT_Q_WMAT_LO q) (queueReg Reg.LIFT_Q_WMAT_HI q) 0
  s.watermark q 0

/-- A write of EV_PEND of a LIFT page (R143, R424). -/
def effLiftPend (g : Nat) (v : Word) (s : State) : WriteResult :=
  have s := s.clearCauses (0x18 + g) v.toNat
  .done ((List.range 8).foldl (fun s i => if bit i v.toNat then s.clearWatermark (8 * g + i) else s) s)

/-- WM_CAUSE_CLEAR (R143). -/
def execWmCauseClear (t : Angle) (p : Path) (g : Fin 4) (v : Word) (s : State) : Outcome :=
  .next ((s.tick t).hostWrite p (0x18 + g) 0x018 (effLiftPend g v))

/-- A write of QCFG (Table 7.5): SRC changes only while Q_EN is 0 and the queue holds nothing; clearing Q_EN keeps the
contents; LANE takes effect at the next header word (R140). -/
def effQcfg (q : Nat) (v : Word) (s : State) : WriteResult :=
  have x := s.queue q
  have k := queueReg Reg.LIFT_Q_QCFG q
  have idle := !(s.queueEn q) && x.w == x.k && x.opened.isNone && x.waiting.isEmpty && x.flushAt.isNone
  have src := if idle then bits 9 8 v.toNat else s.fld k 9 8
  .done ((s.setReg k (setBits 9 8 src (v.toNat &&& 0x8000030F))).journalConfig k)

/-- LIFT_LANE_WRITE (R140). -/
def execLiftLaneWrite (t : Angle) (p : Path) (q : Fin 32) (v : Word) (s : State) : Outcome :=
  .next ((s.tick t).hostWrite p (queuePage q) (0x100 + 0x40 * (q % 8)) (effQcfg q v))

/-- A read of PEEK_TAG latches the word at R into PEEK_D0 to D3 of its path (Table 7.4, R276). -/
def State.readPeek (p : Path) (g : Nat) (s : State) : State × Nat :=
  have c := s.peekWord (8 * g + s.fld (Reg.LIFT_PEEK_SEL g) 2 0)
  ((List.range 4).foldl (fun (s : State) i => s.latchAt p (Reg.LIFT_PEEK_D0 g + 4 * i) (c.1 / 2 ^ (32 * i) % 2 ^ 32)) s, c.2)

/-- PEEK_READ (R140). -/
def execPeekRead (t : Angle) (p : Path) (g : Fin 4) (s : State) : Outcome :=
  .next (answer p ((s.tick t).hostRead p (0x18 + g) 0x044 (State.readPeek p g)))

/-- A write of FLUSH (R142): ignored while FLUSHING is 1. -/
def effFlush (q : Nat) (v : Word) (s : State) : WriteResult :=
  have x := s.queue q
  if !bit 0 v.toNat ∨ x.flushAt.isSome then .ignored s
  else if x.opened.isSome then .done (s.setQueue q { x with flushAt := some s.now })
  else .done (s.flushed q)

/-- FLUSH (R142). -/
def execFlush (t : Angle) (p : Path) (q : Fin 32) (v : Word) (s : State) : Outcome :=
  .next ((s.tick t).hostWrite p (queuePage q) (0x120 + 0x40 * (q % 8)) (effFlush q v))

/-- FLUSH_TIMEOUT (R142): every word up to W is discarded, an abort word with the header of the cut packet is published
and the flush is complete. -/
def execFlushTimeout (t : Angle) (q : Fin 32) (s : State) : Outcome :=
  have s := s.tick t
  have x := s.queue q
  match x.flushAt, x.opened with
  | some at', some o => if at' + 131072 ≤ s.now then .next ((s.flushed q).abortPacket q o.header) else .next s
  | _, _ => .next s

/-- QPTR, QPTR2 and QSTAT of a queue (Table 7.5). -/
def State.readQptr (s : State) (q : Nat) : Nat := (s.queue q).p * 2 ^ 16 + (s.queue q).k
def State.readQptr2 (s : State) (q : Nat) : Nat := (s.queue q).w * 2 ^ 16 + (s.queue q).r
def State.readQstat (s : State) (q : Nat) : Nat :=
  have x := s.queue q
  have written := match x.opened with | some o => 1 + o.words.length | none => 0
  b2n x.isEmpty * 2 ^ 31 + b2n x.isFull * 2 ^ 30 + b2n x.flushAt.isSome * 2 ^ 29 + b2n x.opened.isSome * 2 ^ 28 +
    written * 2 ^ 16 + x.level

/-- The whole packets between two pointers of a queue: `cur` is the packet under way. -/
def queuePackets (x : LiftQueue) : Nat → Nat → Option (Nat × List Nat) → List (Nat × List Nat)
  | 0, _, _ => []
  | n + 1, i, cur =>
    have c := x.cells.getD (i % 512) (0, emptyTag)
    have next := (i + 1) % 1024
    if bit 12 c.2 then queuePackets x n next none
    else if bit 14 c.2 then queuePackets x n next (some (c.1, []))
    else match cur with
      | none => queuePackets x n next none
      | some (h, ws) =>
        if bit 13 c.2 then (h, ws ++ [c.1]) :: queuePackets x n next none else queuePackets x n next (some (h, ws ++ [c.1]))

/-- The packets of MEDIA and FEED that no lane has read yet: their points are evaluated at mount (R257). -/
def State.unreadPackets (s : State) : List (Nat × List Nat) :=
  s.lift.offers.map (fun o => (o.packet.header, o.packet.words)) ++
    (s.lift.queues.filter (fun x => s.queueSrc x.1 != 2)).flatMap (fun x =>
      queuePackets x.2 x.2.level x.2.k none ++ x.2.waiting.map (fun p => (p.header, p.words)))

end Sys2Proof.Machine
end

