-- ==== Sys2Proof/Machine/Civil.lean ====
section
/-!
DEFINITION. Civil time: the Gregorian calendar, the zone-rule schedule and its mapping (R30, R31), the prediction and
pinning of requested instants (R32, R34), civil steps (R33), and the local minutes of a span of TAI, from which blocks
request their boundaries.
-/

namespace Sys2Proof.Machine

/-- Year, month and day of a day number counted from 1 January 1970. -/
def dateOf (days : Int) : Int × Nat × Nat :=
  have z := days + 719468
  have era := z / 146097
  have doe := z % 146097
  have yoe := (doe - doe / 1460 + doe / 36524 - doe / 146096) / 365
  have doy := doe - (365 * yoe + yoe / 4 - yoe / 100)
  have mp := (5 * doy + 2) / 153
  have m := if mp < 10 then mp + 3 else mp - 9
  (yoe + era * 400 + (if m ≤ 2 then 1 else 0), m.toNat, (doy - (153 * mp + 2) / 5 + 1).toNat)

/-- The day number of a date. -/
def daysOf (year : Int) (m d : Nat) : Int :=
  have y := if m ≤ 2 then year - 1 else year
  have era := y / 400
  have yoe := y % 400
  have mp : Int := if 2 < m then (m : Int) - 3 else (m : Int) + 9
  have doy := (153 * mp + 2) / 5 + d - 1
  era * 146097 + (yoe * 365 + yoe / 4 - yoe / 100 + doy) - 719468

/-- A date of the Gregorian calendar. -/
def validDate (year : Int) (m d : Nat) : Bool :=
  decide (1 ≤ m) && decide (m ≤ 12) && decide (1 ≤ d) && (dateOf (daysOf year m d) == (year, m, d))

/-- The weekday of a day number, Monday 0 to Sunday 6. -/
def weekday (days : Int) : Nat := ((days + 3) % 7).toNat

/-- The offset of local time to TAI in seconds that an entry gives. -/
def ZoneRule.offset (z : ZoneRule) : Int := z.localUtc * 60 - z.taiUtc

/-- The entry in force at a TAI second: the last one that has taken effect, or the first one before it (R31). -/
def zoneAt : List ZoneRule → Int → Option ZoneRule
  | [], _ => none
  | z :: zs, t => some (zs.foldl (fun x y => if (y.eff : Int) ≤ t then y else x) z)

/-- Local time of a TAI second. -/
def localOf (zs : List ZoneRule) (t : Int) : Int := t + ((zoneAt zs t).map ZoneRule.offset).getD 0

/-- The TAI seconds at which a local time occurs, in order. -/
def occurrences (zs : List ZoneRule) (civil : Int) : List Int :=
  have cands := zs.map (fun z => civil - z.offset)
  (sortBy (fun (a b : Int) => decide (a ≤ b)) (cands.filter (fun t => localOf zs t == civil))).eraseDups

/-- The transition that skips a local time. -/
def skipOf : List ZoneRule → Int → Option Int
  | a :: b :: zs, civil =>
    if (b.eff : Int) + a.offset ≤ civil ∧ civil < (b.eff : Int) + b.offset then some b.eff else skipOf (b :: zs) civil
  | _, _ => none

/-- A local civil time mapped to a TAI second (R31): its first occurrence, its second where that is named, or the
transition that skips it. -/
def mapCivil (zs : List ZoneRule) (civil : Int) (second : Bool) : Option Int :=
  match occurrences zs civil with
  | [] => skipOf zs civil
  | t :: ts => some (if second then ts.getLastD t else t)

/-- The predicted time of a sweep time in units of 125 ps of the PTP counter, from the capture of the current cycle and
the current period (R32). -/
def State.timeOf (s : State) (t : Nat) : Int :=
  (s.sweep.startCap : Int) + ((t : Int) - (s.cycle * 65536 : Nat)) * s.sweep.period / 65536

/-- TAI in whole seconds at a sweep time. -/
def State.taiOf (s : State) (t : Nat) : Int := s.timeOf t / 8000000000
def State.taiNow (s : State) : Int := s.taiOf s.now

/-- The first tick whose predicted TAI is at or after an instant (R32). -/
def State.tickOf (s : State) (tai : Int) : Int :=
  have x := tai * 8000000000 - s.sweep.startCap
  (s.cycle * 65536 : Nat) + -((-(x * 65536)) / (max 1 s.sweep.period : Nat))

/-- MAP_STATE (Table 1.11), and whether civil instants are mapped (R31, R34). -/
def State.mapState (s : State) : Nat := s.fld Reg.SWEEP_CIVSTAT 1 0
def State.mapped (s : State) : Bool := s.mapState != 0 && !s.sweep.zones.isEmpty

/-- The TAI second of a requested instant. -/
def State.instantTai (s : State) (i : Instant) : Option Int := mapCivil s.sweep.zones i.civil i.second

/-- An instant is pinned: at the first tick at or after it, or at the current tick where it is past (R32, R34). -/
def State.pinAt (s : State) (id : Nat) (i : Instant) (tai : Int) : State :=
  have tick := s.tickOf tai
  have j := { i with
    pin := some (max tick.toNat s.now)
    beyond := decide ((s.sweep.zvalid : Int) < tai)
    late := decide (tick < s.now) }
  { s with sweep := { s.sweep with
    instants := s.sweep.instants.put id j
    pinned := tai :: s.sweep.pinned } }

/-- INSTANT_PIN (R32): eight cycles before its predicted time, once and for all. -/
def execInstantPin (t : Angle) (id : Nat) (s : State) : Outcome :=
  have s := s.tick t
  match s.sweep.instants.find id with
  | none => .next s
  | some i =>
    match i.pin, s.instantTai i with
    | none, some tai => if s.mapped ∧ s.tickOf tai ≤ s.now + 8 * 65536 then .next (s.pinAt id i tai) else .next s
    | _, _ => .next s

/-- Every requested instant that is already past is pinned to the current tick, in order of civil time (R34). -/
def State.pinPast (s : State) : State :=
  have due := s.sweep.instants.filter (fun p =>
    p.2.pin.isNone && (match s.instantTai p.2 with | some tai => decide (s.tickOf tai ≤ s.now) | none => false))
  have due := sortBy (fun (a b : Nat × Instant) => decide (a.2.civil ≤ b.2.civil)) due
  if s.mapped then due.foldl (fun s p => match s.instantTai p.2 with | some tai => s.pinAt p.1 p.2 tai | none => s) s else s

/-- A civil instant is requested. -/
def State.requestInstant (s : State) (i : Instant) : State :=
  { s with sweep := { s.sweep with
    instants := s.sweep.instants.put s.sweep.nextInstant i, nextInstant := s.sweep.nextInstant + 1 } }

/-- Requested instants of an owner that are not pinned are withdrawn. -/
def State.withdraw (s : State) (p : InstantOwner → Bool) : State :=
  { s with sweep := { s.sweep with instants := s.sweep.instants.filter (fun x => x.2.pin.isSome || !(p x.2.owner)) } }

/-- A local minute of a span of TAI: its local time in seconds, its TAI second, whether it is a second occurrence, and
whether the local time exists. -/
structure Minute where
  civil : Int
  tai : Int
  second : Bool
  present : Bool

/-- The local minutes whose TAI lies in (a, b], skipped ones at the transition that skips them. -/
def minutesIn (zs : List ZoneRule) (a b : Int) : List Minute :=
  have offs := zs.map ZoneRule.offset
  have least := offs.foldl min (offs.headD 0)
  have most := offs.foldl max (offs.headD 0)
  have lo := (a + least) / 60
  have hi := (b + most) / 60
  ((List.range (hi - lo + 1).toNat).flatMap (fun (k : Nat) =>
    have civil := (lo + k) * 60
    match occurrences zs civil with
    | [] => match skipOf zs civil with
      | some t => [⟨civil, t, false, false⟩]
      | none => []
    | t :: ts => ⟨civil, t, false, true⟩ :: ts.map (fun u => ⟨civil, u, true, true⟩))).filter
      (fun m => decide (a < m.tai) && decide (m.tai ≤ b))

/-- The minute of the day of a local time, and its day number. -/
def minuteOfDay (civil : Int) : Nat := (civil / 60 % 1440).toNat
def dayOf (civil : Int) : Int := civil / 86400

/-- SCHED_SHORT follows ZVALID: event 4 fires when it becomes 1 (R34). DESIGN CHOICE (log 96): while MAP_STATE is NONE, ZVALID is held against the
undisciplined counter. -/
def State.shortNow (s : State) : Bool := s.sweep.zones.isEmpty || decide ((s.sweep.zvalid : Int) < s.taiNow + 172800)
def State.checkSched (s : State) : State :=
  have short := s.shortNow
  have was := s.flag Reg.SWEEP_CIVSTAT 2
  have s := s.setFlag Reg.SWEEP_CIVSTAT 2 short
  if short && !was then s.raise 0x04 5 else s

/-- TAI_UTC_NOW and ZONE_N (Table 1.11). -/
def State.showZone (s : State) : State :=
  have off := ((zoneAt s.sweep.zones s.taiNow).map (·.taiUtc)).getD 0
  (s.setFld Reg.SWEEP_CIVSTAT 31 16 (ofSigned 16 off)).setFld Reg.SWEEP_CIVSTAT 15 8 s.sweep.zones.length

/-- A civil step by a number of milliseconds (R33). -/
def State.civilStep (s : State) (ms : Int) : State :=
  have s := s.setReg Reg.SWEEP_CSTEP (ofSigned 32 ms)
  (s.setReg64 Reg.SWEEP_CSTEP_AT_LO Reg.SWEEP_CSTEP_AT_HI s.now).raise 0x04 4

/-- SCHED_SHORT (R34). -/
def execSchedShort (t : Angle) (s : State) : Outcome := .next (s.tick t).checkSched

end Sys2Proof.Machine
end

