-- ==== Sys2Proof/Machine/Program.lean ====
section
/-!
DEFINITION. Tariff program images (R213, Table 11.2): their fields, the checks of Table 11.3 on an image alone, and the
register and the boundary kinds that an image gives at a local time (R210, R214).
-/

namespace Sys2Proof.Machine

/-- A tariff program image, as its octets. -/
abbrev Image := List Byte
def Image.u (img : Image) (off n : Nat) : Nat := leAt img off n
def Image.prog (img : Image) : Nat := img.u 0x06 2
def Image.gen (img : Image) : Nat := img.u 0x08 2
def Image.nday (img : Image) : Nat := img.u 0x0A 1
def Image.nseas (img : Image) : Nat := img.u 0x0B 1
def Image.nspec (img : Image) : Nat := img.u 0x0C 1
def Image.dlenCode (img : Image) : Nat := img.u 0x0D 1
def Image.periodKind (img : Image) : Nat := img.u 0x0E 1
def Image.param (img : Image) : Nat := img.u 0x10 2
def Image.minute (img : Image) : Nat := img.u 0x12 2
/-- The activation date as a day number, and the activation instant as a local time in seconds. -/
def Image.actDate (img : Image) : Nat × Nat × Nat := (img.u 0x16 2, img.u 0x15 1, img.u 0x14 1)
def Image.actDay (img : Image) : Int := daysOf img.actDate.1 img.actDate.2.1 img.actDate.2.2
def Image.actCivil (img : Image) : Int := img.actDay * 86400 + img.u 0x18 2 * 60
def Image.size (img : Image) : Nat := 32 + 64 * img.nday + 12 * img.nseas + 8 * img.nspec

/-- The minutes of a length code 0 to 4 (Tables 11.2 and 11.7). -/
def lengthMinutes (code : Nat) : Nat := [5, 10, 15, 30, 60].getD code 15

/-- Entry e of day profile d; season and special day. -/
def Image.entry (img : Image) (d e : Nat) : Nat := img.u (32 + 64 * d + 4 * e) 4
def Image.season (img : Image) (i : Nat) : Nat := 32 + 64 * img.nday + 12 * i
def Image.special (img : Image) (i : Nat) : Nat := 32 + 64 * img.nday + 12 * img.nseas + 8 * i

/-- The valid entries of a day profile as (minute, register). -/
def Image.entries (img : Image) (d : Nat) : List (Nat × Nat) :=
  ((List.range 16).map (img.entry d)).filterMap (fun w => if bit 15 w then some (bits 10 0 w, bits 14 12 w) else none)

/-- A list rises strictly. -/
def rising : List Nat → Bool
  | a :: b :: l => decide (a < b) && rising (b :: l)
  | _ => true

/-- The day profile of a day (special day, else season and weekday). -/
def Image.profile (img : Image) (day : Int) : Nat :=
  have date := dateOf day
  have specials := (List.range img.nspec).filter (fun i =>
    (img.u (img.special i) 2 : Int) == date.1 && img.u (img.special i + 2) 1 == date.2.1 && img.u (img.special i + 3) 1 == date.2.2)
  match specials with
  | i :: _ => img.u (img.special i + 4) 1
  | [] =>
    have started := (List.range img.nseas).filter (fun i =>
      have m := img.u (img.season i) 1
      have d := img.u (img.season i + 1) 1
      decide ((if validDate date.1 m d then daysOf date.1 m d else daysOf date.1 3 1) ≤ day))
    have i := started.getLastD (img.nseas - 1)
    img.u (img.season i + 2 + weekday day) 1

/-- The register that the day profile gives at a local time. -/
def Image.regAt (img : Image) (civil : Int) : Nat :=
  (((img.entries (img.profile (dayOf civil))).filter (fun e => decide (e.1 ≤ minuteOfDay civil))).getLastD (0, 0)).2

/-- The boundary kinds that a program image gives at a local minute (R214): 1 DEMAND, 2 TARIFF, 4 PERIOD. A second
occurrence gives DEMAND only; a skipped minute gives TARIFF and PERIOD only. -/
def Image.kindsAt (img : Image) (m : Minute) : Nat :=
  have minute := minuteOfDay m.civil
  have day := dayOf m.civil
  have demand := m.present && minute % lengthMinutes img.dlenCode == 0
  have switch := (img.entries (img.profile day)).any (fun e => e.1 == minute) && img.regAt m.civil != img.regAt (m.civil - 60)
  have date := dateOf day
  have period := minute == img.minute &&
    (img.periodKind == 1 && date.2.2 == img.param ||
     img.periodKind == 2 && decide (img.actDay < day) && (day - img.actDay) % (img.param : Int) == 0)
  b2n demand + (if m.second then 0 else 2 * b2n switch + 4 * b2n period)

/-- The checks of Table 11.3 that an image alone decides: the code of the first one that fails. -/
def Image.check (img : Image) (len : Nat) : Nat :=
  have header := img.u 0 4 == 0x4B545250 && img.u 4 2 == 1 && decide (img.prog ≤ 63) && decide (1 ≤ img.gen) &&
    decide (1 ≤ img.nday) && decide (img.nday ≤ 32) && decide (1 ≤ img.nseas) && decide (img.nseas ≤ 16) &&
    decide (img.nspec ≤ 64) && len == img.size
  if !header then 1
  else if !((List.range img.nday).all (fun d =>
      bit 15 (img.entry d 0) && bits 10 0 (img.entry d 0) == 0 && rising ((img.entries d).map (·.1)) &&
        (img.entries d).all (fun e => decide (e.1 ≤ 1439)))) then 2
  else if !((List.range img.nseas).all (fun i =>
        validDate 2000 (img.u (img.season i) 1) (img.u (img.season i + 1) 1) &&
        (List.range 7).all (fun k => decide (img.u (img.season i + 2 + k) 1 < img.nday))) &&
      rising ((List.range img.nseas).map (fun i => img.u (img.season i) 1 * 32 + img.u (img.season i + 1) 1)) &&
      (List.range img.nspec).all (fun i =>
        validDate (img.u (img.special i) 2) (img.u (img.special i + 2) 1) (img.u (img.special i + 3) 1) &&
        decide (img.u (img.special i + 4) 1 < img.nday)) &&
      rising ((List.range img.nspec).map (fun i =>
        img.u (img.special i) 2 * 512 + img.u (img.special i + 2) 1 * 32 + img.u (img.special i + 3) 1))) then 3
  else if !(decide (img.dlenCode ≤ 4) && decide (img.periodKind ≤ 2) && decide (img.minute ≤ 1439) &&
      (img.periodKind != 1 || decide (1 ≤ img.param) && decide (img.param ≤ 28)) &&
      (img.periodKind != 2 || decide (1 ≤ img.param) && decide (img.param ≤ 366))) then 4
  else 0

/-- The reserved bytes of an image are zero (code 0x07). -/
def Image.reservedZero (img : Image) : Bool :=
  img.u 0x0F 1 == 0 && img.u 0x1A 6 == 0 &&
    (List.range img.nday).all (fun d => (List.range 16).all (fun e => bits 31 16 (img.entry d e) == 0 && !bit 11 (img.entry d e))) &&
    (List.range img.nseas).all (fun i => img.u (img.season i + 9) 3 == 0) &&
    (List.range img.nspec).all (fun i => img.u (img.special i + 5) 3 == 0)

end Sys2Proof.Machine
end

