-- ==== Sys2Proof/Machine/Billing.lean ====
section
/-!
DEFINITION. The allocation of units (R157, R158, R208 to R212, R220, R221) and credit accounts (R222 to R225): the
register, interval and demand interval that units fall into, supplementary and ADJUST records, charges and account
states.
-/

namespace Sys2Proof.Machine

/-- The fields of a channel-table entry (Table 11.7). -/
def BillChan.ilen (c : BillChan) : Nat := bits 30 28 c.w1
def BillChan.prog (c : BillChan) : Option Nat := if bit 23 c.w1 then some (bits 21 16 c.w1) else none
def BillChan.acct (c : BillChan) : Option Nat := if bit 15 c.w1 then some (bits 13 0 c.w1) else none
/-- LEAF, NODE and NCH of an entry in the order of a descriptor key: LEAF 7:0, NODE 20:8, NCH 24:21. -/
def BillChan.key (c : BillChan) : Nat := bits 27 20 c.w0 + 2 ^ 8 * bits 16 4 c.w0 + 2 ^ 21 * bits 3 0 c.w0

def State.billChan (s : State) (ch : Nat) : Option BillChan := s.billing.chans.find ch
def State.setBillChan (s : State) (ch : Nat) (c : BillChan) : State :=
  { s with billing := { s.billing with chans := s.billing.chans.put ch c } }
def State.modBillChan (s : State) (ch : Nat) (f : BillChan → BillChan) : State :=
  { s with billing := { s.billing with chans := s.billing.chans.modify ch f } }
def State.prog (s : State) (n : Nat) : Program := s.billing.programs.getD n {}
def State.setProg (s : State) (n : Nat) (p : Program) : State :=
  { s with billing := { s.billing with programs := s.billing.programs.put n p } }
def State.account (s : State) (n : Nat) : Account := s.billing.accounts.getD n {}
def State.setAccount (s : State) (n : Nat) (a : Account) : State :=
  { s with billing := { s.billing with accounts := s.billing.accounts.put n a } }

/-- The module processes boundaries, charges and drives (R229). -/
def State.serves (s : State) : Bool := s.pairState == 0 || s.pairState == 1

/-- The register in force at a sweep time (R210): set by the last switch at or before it; before the first boundary, the one that the day
profile of the first generation gives at its activation instant. -/
def registerAt (p : Program) (t : Nat) : Nat :=
  match p.switches.find? (fun x => decide (x.1 ≤ t)) with
  | some x => x.2
  | none => match p.first with
    | some f => f.2
    | none => ((p.image.or p.pending).map (fun img => Image.regAt img (Image.actCivil img))).getD 0
/-- The oldest boundary of a program that the ledger holds (R216). -/
def State.oldestBoundary (s : State) (n : Nat) : Option Nat :=
  (s.led.recs.find? (fun r => r.2.cls == 6 && !r.2.void && !r.2.lost && leAt r.2.payload 4 2 == n)).map (fun r => leAt r.2.payload 8 8)
/-- The register in force for a channel at a sweep time: before the oldest boundary that the ledger still holds, the one in force there
(R220). -/
def State.registerOf (s : State) (c : BillChan) (t : Nat) : Nat :=
  match c.prog with
  | none => 0
  | some n =>
    have p := s.prog n
    registerAt p (match p.first, s.oldestBoundary n with
      | some f, some o => if f.1 < o then max t o else t
      | _, _ => t)

/-- A list with a value added at an index, held at the largest 64-bit value. -/
def addAt (l : List Nat) (i v : Nat) : List Nat := l.modify i (fun x => satAdd 64 x v)

/-- The order of the quality codes in R182: the earlier of two. -/
def qualOrder : List Nat := [5, 3, 6, 2, 4, 1, 0]
def worse (a b : Nat) : Nat := if qualOrder.idxOf a ≤ qualOrder.idxOf b then a else b

/-- The number of the interval that a sweep time lies in (R211). -/
def BillChan.intervalOf (c : BillChan) (t : Nat) : Nat :=
  if c.start ≤ t then c.inum
  else c.inum - c.bounds.length + (c.bounds.filter (fun b => decide (b ≤ t))).length
/-- The start and the end of a closed interval. -/
def BillChan.span (c : BillChan) (num : Nat) : Nat × Nat :=
  have i := num - (c.inum - c.bounds.length)
  have up := c.bounds.reverse
  ((if i = 0 then 0 else up.getD (i - 1) 0), up.getD i 0)

/-- The period record holds a GAP entry among the cycles of a span (R212). -/
def gapBetween (rs : List PeriodRun) (c1 c2 : Nat) : Bool :=
  rs.any (fun r => r.entry % 4 == 3 && decide (r.first ≤ c2) && decide (c1 < r.first + r.count))
def State.gapIn (s : State) (a b : Nat) : Bool := decide (a < b) && gapBetween s.sweep.record (a / 65536) ((b - 1) / 65536)

/-- An interval record (Table 11.1): `flags` are bits 31:23 of its first word. SAT is set too once a register of the channel has
saturated (R209). -/
def State.intervalRecord (s : State) (ch qual flags inum units : Nat) : State :=
  have sat := decide (2 ^ 32 ≤ units) || ((s.billChan ch).map (·.regSat)).getD false
  have f := if sat then flags ||| 2 ^ 27 else flags
  s.journal 0x01 (leBytes 4 (ch + qual * 2 ^ 20 + f) ++ leBytes 4 inum ++ leBytes 4 (min units (2 ^ 32 - 1)))

/-- The members of an account (R222) as index, channel, NET flag and price set. -/
def State.members (s : State) (n : Nat) : List (Nat × Nat × Bool × Nat) :=
  ((List.range 32).map (fun i => (i, s.reg (bankKey (n * 32 + i) Reg.CRED_MB_W)))).filterMap (fun x =>
    if bit 31 x.2 then some (x.1, bits 19 0 x.2, bit 30 x.2, bits 29 28 x.2) else none)

/-- AC_CFG of an account, and its committed thresholds: 0 WARN, 1 CUT, 2 RESTORE. -/
def State.acCfg (s : State) (n : Nat) : Nat := s.reg (bankKey n Reg.CRED_AC_CFG)
def State.acLimit (s : State) (n i : Nat) : Int := (s.account n).limits.getD i 0

/-- The outputs of an account are driven, except those the host has commanded since the last change of its state
(R225), and a VALVE record goes to each remote valve node. -/
def State.driveAccount (s : State) (n : Nat) (on : Bool) : State :=
  have s := (List.range 4).foldl (fun s k =>
    if bit (8 + k) (s.acCfg n) && !(s.output k).host then s.driveOutput { output := k, on := on, account := true } else s) s
  (List.range 4).foldl (fun s i =>
    have w := s.reg (bankKey (n * 4 + i) Reg.CRED_RV_W)
    if bit 31 w then s.firmwareCommand (bits 12 0 w) [0x58, if on then 1 else 0] else s) s

/-- A change of an account's state has been acted on: the host's commands count from here to the next one (R225; log 96). -/
def State.forgetHost (s : State) (n : Nat) : State :=
  (List.range 4).foldl (fun s k =>
    if bit (8 + k) (s.acCfg n) then s.setOutput k { s.output k with host := false } else s) s

/-- The state of an account follows its balance (R225). -/
def State.accountState (s : State) (n : Nat) : State :=
  if !bit 31 (s.acCfg n) || !s.serves then s
  else
    have b := (s.account n).balance
    have key := bankKey n Reg.CRED_AC_STAT
    have old := s.fld key 31 30
    have warn := decide (b ≤ s.acLimit n 0)
    have cut := decide (b ≤ s.acLimit n 1)
    have above := decide (s.acLimit n 2 < b)
    have inReg := bit (registerAt (s.prog (bits 21 16 (s.acCfg n))) s.now) (s.acCfg n)
    if old = 2 then
      if above then
        have s := s.setFld key 31 30 (b2n warn)
        have s := s.raise 0x34 2
        have s := if bit 30 (s.acCfg n) then s.driveAccount n true else s
        s.forgetHost n
      else s
    else
      have s := if old = 0 ∧ warn then s.raise 0x34 0 else s
      if cut ∧ inReg then
        (((s.setFld key 31 30 2).raise 0x34 1).driveAccount n false).forgetHost n
      else
        if b2n warn = old then s else (s.setFld key 31 30 (b2n warn)).forgetHost n

/-- A charge of an account (R223): through its remainder, with a CREDIT record (Table 12.12). -/
def State.charge (s : State) (n kind reg ch : Nat) (net : Bool) (at' : Nat) (growth price : Int) : State :=
  have a := s.account n
  have f := a.rest + growth * price
  have debit := f / 1000
  have a := { a with rest := f - debit * 1000, balance := satSigned 64 (a.balance - debit) }
  (s.setAccount n a).journal 0x04 (leBytes 2 n ++ leBytes 1 kind ++ leBytes 1 reg ++ leBytes 4 (ch + b2n net * 2 ^ 31) ++
    leBytes 8 at' ++ leBytes 8 (ofSigned 64 growth) ++ leBytes 4 (ofSigned 32 price) ++ leBytes 4 a.rest.toNat ++
    leBytes 8 (ofSigned 64 debit) ++ leBytes 8 (ofSigned 64 a.balance))

/-- The descriptor of a table entry list in force at a time: the one with the latest EFF at or before it, if it is no
retirement (R166). -/
def inForce (l : List DescEntry) (t : Nat) : Option DescEntry :=
  match (l.filter (fun e => decide (e.eff ≤ t))).foldl (fun (m : Option DescEntry) e =>
      match m with | none => some e | some x => if x.eff ≤ e.eff then some e else m) none with
  | some e => if e.retire then none else some e
  | none => none
def State.liveDesc (s : State) (ch t : Nat) : Option DescEntry := inForce (s.fca.live.getD ch []) t
/-- PAIR_CH of the forward channel of a NET member. -/
def State.pairOf (s : State) (ch : Nat) : Option Nat :=
  (s.liveDesc ch s.now).bind (fun e => if Desc.netMode e.raw = 1 then some (Desc.pairCh e.raw) else none)

/-- A price in force. -/
def Account.price (a : Account) (pset reg : Nat) : Int := a.prices.getD (pset * 8 + reg) 0

/-- Registers with none of their units charged. -/
def noneCharged : List Nat := [0, 0, 0, 0, 0, 0, 0, 0]
/-- The part of late units of a channel that a member of an account is charged for: a NET member by those of its pair. -/
def State.lateShare (s : State) (ch units : Nat) (m : Nat × Nat × Bool × Nat) : Int :=
  if m.2.1 = ch then units else if m.2.2.1 && s.pairOf m.2.1 == some ch then -(units : Int) else 0

/-- Late units before the last boundary of an account's program are charged at once, and left out of the next growth (R224). -/
def State.chargeLate (s : State) (ch reg t units : Nat) : State :=
  have progOf := fun n => bits 21 16 (s.acCfg n)
  have hit := (SMap.keys s.billing.accounts).filter (fun n =>
    bit 31 (s.acCfg n) && (match (s.prog (progOf n)).lastS with | some last => decide (t < last) | none => false) &&
      (s.members n).any (fun m => s.lateShare ch units m != 0))
  have progs := (hit.map progOf).eraseDups
  have s := hit.foldl (fun (s : State) n =>
    (s.members n).foldl (fun (s : State) m =>
      have g := s.lateShare ch units m
      if g = 0 then s
      else (s.charge n 2 reg m.2.1 m.2.2.1 s.now g ((s.account n).price m.2.2.2 reg)).accountState n) s) s
  s.modBillChan ch (fun c => { c with
    charged := progs.foldl (fun l p => l.update p noneCharged (fun x => x.modify reg (· + units))) c.charged })

/-- The open period of a program begins at its last cut. -/
def Program.periodStart (p : Program) : Nat := (p.periods.head?.map (·.1)).getD 0
/-- The number of the closed period that a time lies in. -/
def Program.periodOf (p : Program) (t : Nat) : Nat :=
  match (p.periods.filter (fun x => decide (t < x.1))).getLast? with
  | some x => x.2
  | none => p.period

/-- The demand interval that a time of the open period lies in (R221). -/
def Program.demandOf (p : Program) (t : Nat) : Option Nat :=
  if p.dstart ≤ t then some p.dnum
  else (p.demands.find? (fun d => decide (d.start ≤ t) && decide (t < d.stop))).map (·.num)

/-- Units that fall into a closed period: an ADJUST record (R220, Table 12.14). -/
def State.adjust (s : State) (ch reg period units t : Nat) : State :=
  (s.journalEvent 0x03 (ch + reg * 2 ^ 20) (leBytes 4 period ++ leBytes 8 units ++ leBytes 8 t)).raise 0x32 4

/-- Units of a closed interval (R212, R220): in its first record where that is still to come, else in a supplementary one; they enter the
figure that a hub holds of the interval (R187). -/
def State.placeClosed (s : State) (ch : Nat) (c : BillChan) (t units qual : Nat) : State :=
  have num := c.intervalOf t
  if c.firsts.contains num then s.setBillChan ch { c with firsts := c.firsts.erase num }
  else
    have s := s.bump Reg.BILL_BF_INC units
    have s := s.modBillChan ch (fun c => { c with closedUnits := c.closedUnits.modify num (· + units) })
    if c.recorded.contains num then s.intervalRecord ch qual (2 ^ 28) num units else s

/-- Units of a channel with a program: in their demand interval, or in an ADJUST record of a closed period (R220, R221). -/
def State.placeDemand (s : State) (ch : Nat) (p : Program) (reg t units : Nat) : State :=
  if t < p.periodStart then (if units = 0 then s else s.adjust ch reg (p.periodOf t) units t)
  else match p.demandOf t with
    | some d => s.modBillChan ch (fun c => { c with demand := c.demand.update d 0 (· + units) })
    | none => s

/-- Units of a channel are placed (R209, R210, R220, R221): in their register, their demand interval, and their interval
or a supplementary record of it; late units before the last boundary are charged. -/
def State.placeUnits (s : State) (ch : Nat) (c : BillChan) (t units qual : Nat) : State :=
  have reg := s.registerOf c t
  have sat := decide (2 ^ 64 ≤ c.regs.getD reg 0 + units)
  have isOpen := decide (c.start ≤ t)
  have c := { c with
    regs := addAt c.regs reg units
    regSat := c.regSat || sat
    units := if isOpen then c.units + units else c.units
    qual := if isOpen then worse c.qual qual else c.qual }
  have s := s.setBillChan ch c
  have s := if isOpen ∨ units = 0 then s else s.placeClosed ch c t units qual
  have s := match c.prog with
    | none => s
    | some n => s.placeDemand ch (s.prog n) reg t units
  if units = 0 then s else s.chargeLate ch reg t units

/-- A pinned boundary of a channel's interval or program lies at or before a time and is not processed yet: the units
wait for it (R215, R216). -/
def State.boundaryDue (s : State) (c : BillChan) (t : Nat) : Bool :=
  s.sweep.instants.any (fun x =>
    (match x.2.owner with
      | .boundary n => c.prog == some n
      | .interval l => c.ilen == l
      | .window _ => false) && (match x.2.pin with | some at' => decide (at' ≤ t) | none => false))

/-- Units that the total of a channel has carried go to billing (R158, R208). -/
def State.bill (s : State) (ch t units qual : Nat) : State :=
  if !s.serves then s
  else match s.billChan ch with
    | none => s.bump Reg.BILL_NOBILL units
    | some c =>
      if !c.valid then s.bump Reg.BILL_NOBILL units
      else if s.boundaryDue c t then
        { s with billing := { s.billing with held := s.billing.held ++ [(ch, t, units, qual)] } }
      else s.placeUnits ch c t units qual

/-- The held units whose boundaries have been processed are placed. -/
def State.releaseHeld (s : State) : State :=
  have items := s.billing.held
  items.foldl (fun s x => s.bill x.1 x.2.1 x.2.2.1 x.2.2.2) { s with billing := { s.billing with held := [] } }

/-- The largest demand of the counting demand intervals of the open period, the earlier one on a tie, with the end of
its interval and the register in force there (R221). -/
def maxDemand (p : Program) (c : BillChan) : Nat × Nat × Nat :=
  (p.demands.reverse.filter (fun d => d.counts && c.joined != some d.num)).foldl (fun m d =>
    have v := c.demand.getD d.num 0
    if m.1 < v then (v, d.stop, d.reg) else m) (0, 0, 0)

/-- The billed channels of a program in ascending ID. -/
def State.progChans (s : State) (n : Nat) : List (Nat × BillChan) :=
  s.billing.chans.filter (fun x => x.2.valid && x.2.prog == some n)

/-- The boundary charges of an account (R223): each register in turn, in member order, for the growth not yet charged; a
NET member by the difference to its pair. A growth of zero leaves no record (log 22). Pending prices take effect after
these charges (R224). -/
def State.chargeAccount (s : State) (n at' : Nat) (growth : Nat → Nat → Int) : State :=
  have s := (List.range 8).foldl (fun s reg =>
    (s.members n).foldl (fun s m =>
      have g := growth m.2.1 reg - (if m.2.2.1 then (match s.pairOf m.2.1 with | some q => growth q reg | none => 0) else 0)
      if g = 0 then s else s.charge n 0 reg m.2.1 m.2.2.1 at' g ((s.account n).price m.2.2.2 reg)) s) s
  have a := s.account n
  have s := match a.pending with
    | some (eff, table) => if eff ≤ at' then s.setAccount n { a with prices := table, pending := none } else s
    | none => s
  s.accountState n

/-- The charges of every account of a program at a boundary, and the growth they have charged. -/
def State.chargeProgram (s : State) (n at' : Nat) : State :=
  have growth := fun ch reg => match s.billChan ch with
    | some c => ((c.regs.getD reg 0 : Nat) : Int) - ((c.charged.getD n noneCharged).getD reg 0 : Nat)
    | none => 0
  have s := (SMap.keys s.billing.accounts).foldl (fun s a =>
    if bit 31 (s.acCfg a) && bits 21 16 (s.acCfg a) == n then s.chargeAccount a at' growth else s) s
  { s with billing := { s.billing with chans := s.billing.chans.map (fun (x : Nat × BillChan) =>
    (x.1, { x.2 with charged := x.2.charged.put n x.2.regs })) } }

end Sys2Proof.Machine
end

