-- ==== Sys2Proof/Machine/FcaPoint.lean ====
section
/-!
DEFINITION. The evaluation of staged samples on the FCA lanes (R153 to R158, R168 to R173, R181, R182, R184 to R186): when
a point is ready, its inputs and their substitutes, its quality and flags, its increment, and where its result goes.
-/

namespace Sys2Proof.Machine

/-- The mode of a lane: 0 OFF, 1 LIVE, 2 REDERIVE (R164). -/
def State.laneMode (s : State) (l : Nat) : Nat := s.fld (Reg.FCA_LCFG l) 1 0 % 3
def State.laneRec (s : State) (l : Nat) : LaneRec := s.fca.lanes.getD l {}
def State.setLaneRec (s : State) (l : Nat) (x : LaneRec) : State :=
  { s with fca := { s.fca with lanes := s.fca.lanes.put l x } }

/-- A lane serves in a mode. -/
def State.laneServes (s : State) (l mode : Nat) : Bool :=
  s.laneMode l == mode && !(s.laneRec l).lost && s.dom (pageDomain (0x20 + l)) != 4
/-- The LIVE lanes. -/
def State.liveLanes (s : State) : List Nat := (List.range 16).filter (fun l => s.laneServes l 1)

/-- What the re-derivation table holds of a channel: its newest descriptor, and a retirement of that; one that ends the channel at or
before the descriptor's EFF leaves nothing of it (R166). -/
def newestDesc : List DescEntry → List DescEntry
  | [] => []
  | e :: rest =>
    if e.retire then (match rest.find? (fun x => !x.retire) with
      | some x => if e.eff ≤ x.eff then [e] else [x, e]
      | none => [e])
    else [e]

/-- The descriptors of a channel in a table, and a channel's state there. -/
def State.descs (s : State) (redo : Bool) (ch : Nat) : List DescEntry :=
  if redo then newestDesc (s.fca.redo.getD ch []) else s.fca.live.getD ch []
def State.chan (s : State) (redo : Bool) (ch : Nat) : ChanState :=
  (if redo then s.fca.redoChans else s.fca.chans).getD ch {}
def State.setChan (s : State) (redo : Bool) (ch : Nat) (c : ChanState) : State :=
  if redo then { s with fca := { s.fca with redoChans := s.fca.redoChans.put ch c } }
  else { s with fca := { s.fca with chans := s.fca.chans.put ch c } }
def State.descAt (s : State) (redo : Bool) (ch t : Nat) : Option DescEntry := inForce (s.descs redo ch) t

/-- The descriptors of a channel that are in force now or pending (R166). -/
def State.standing (s : State) (redo : Bool) (ch : Nat) : List DescEntry :=
  (s.descs redo ch).filter (fun e => s.descAt redo ch (max s.now e.eff) == some e)

/-- The key under which a descriptor's move is held. -/
def moveKey (ch eff : Nat) : Nat := ch + eff * 2 ^ 20
/-- The lane that evaluates a descriptor's points: its home, or where it has been moved (R165); in the re-derivation table its home
while that runs REDERIVE, else the lane that read the packet (log 23). -/
def State.homeOf (s : State) (redo : Bool) (ch reader : Nat) (e : DescEntry) : Nat :=
  if redo then (if s.laneServes (Desc.home e.raw) 2 then Desc.home e.raw else reader)
  else s.fca.moved.getD (moveKey ch e.eff) (Desc.home e.raw)

/-- The channels of a table. -/
def State.tableChans (s : State) (redo : Bool) : List Nat :=
  if redo then SMap.keys s.fca.redo else SMap.keys s.fca.live
/-- The channels of a table that a lane evaluates, by their descriptor in force now or, where there is none, the first one listed. -/
def State.laneChans (s : State) (redo : Bool) (l : Nat) : List Nat :=
  (s.tableChans redo).filter (fun ch =>
    match (s.descAt redo ch s.now).or ((s.descs redo ch).find? (fun e => !e.retire)) with
    | some e => s.homeOf redo ch l e == l
    | none => false)

/-- LSTAT.STAGED of a lane. -/
def State.stagedOn (s : State) (l : Nat) : Nat :=
  have redo := s.laneMode l == 2
  ((s.laneChans redo l).map (fun ch => (s.chan redo ch).staged.length)).foldl (· + ·) 0

/-- A time of a descriptor's leaf on this module's axis (R29), and the leaf's period record. -/
def State.leaf (s : State) (n : Nat) : Leaf := s.leaves.getD n {}
def State.onAxis (s : State) (leaf t : Nat) : Nat :=
  if leaf = 0 then t else ((t : Int) + (s.leaf leaf).offset * 65536).toNat
def State.periods (s : State) (leaf : Nat) : List PeriodRun := if leaf = 0 then s.sweep.record else (s.leaf leaf).record

/-- The span of R153 between two sweep times as D, with whether it holds a GAP entry; none while an entry is missing. -/
def spanOf (rs : List PeriodRun) (a b : Nat) : Option (Nat × Bool) :=
  have part := fun (r : PeriodRun) => min b ((r.first + r.count) * 65536) - max a (r.first * 65536)
  have covered := rs.foldl (fun n r => n + part r) 0
  if covered < b - a then none
  else some (rs.foldl (fun n r => n + part r * (r.entry / 8)) 0, rs.any (fun r => decide (0 < part r) && r.entry % 4 == 3))

/-- The duration of a span in seconds (R153). -/
def spanSeconds (d : Nat) : F := (F.ofNat d).div (F.ofNat 524288000000000)

/-- The latest sample of an input at or before a time (R169). -/
def latestAt (l : List (Nat × Nat)) (t : Nat) : Option (Nat × Nat) := l.find? (fun x => decide (x.1 ≤ t))
/-- Samples without those that a later one at or before a time hides, newest first. -/
def dropHidden (t : Nat) : List (Nat × Nat) → List (Nat × Nat)
  | [] => []
  | x :: xs => if x.1 ≤ t then [x] else x :: dropHidden t xs
/-- A sample enters a list that runs from the newest to the oldest. -/
def insertSample (t code : Nat) : List (Nat × Nat) → List (Nat × Nat)
  | [] => [(t, code)]
  | x :: xs => if x.1 < t then (t, code) :: x :: xs else if x.1 = t then x :: xs else x :: insertSample t code xs
def insertStaged (p : StagedPoint) : List StagedPoint → List StagedPoint
  | [] => [p]
  | x :: xs => if p.t < x.t then p :: x :: xs else x :: insertStaged p xs

/-- What an input contributes to a point: its value if it has one, its recorded age, whether the value is a substitute
and with which age of the sample that could not be used, the quality code it forces where it has no value (3 RANGE, 6
STALE), and a value that passed its range check. -/
structure InputVal where
  value : Option F
  age : Nat
  sub : Option Nat := none
  bad : Nat := 0
  good : Option F64 := none

/-- An input without a usable value: its substitute, or none (R170, R173). -/
def fallback (b : Block) (i : Nat) (last : Option F64) (age unusable bad : Nat) : InputVal :=
  match substitute b i last with
  | some v => { value := some v, age := age, sub := some unusable }
  | none => { value := none, age := age, bad := bad }

/-- The primary input of a point. -/
def primaryInput (b : Block) (last : Option F64) (code : Nat) : InputVal :=
  match scaleCode b 0 code with
  | some v => { value := some v, age := 0, good := some v.bits }
  | none => fallback b 0 last 0 0 3

/-- Where a channel holds the samples of an input: by its place and the key that the descriptor gives it. -/
def secKey (d : Desc) (i : Nat) : Nat := i + 4 * d.key i
/-- LEAF of the input whose samples stand at such a place. -/
def secLeaf (k : Nat) : Nat := k / 4 % 256

/-- A time of one leaf's axis on another's, by the cycle offsets of R29 (R169). -/
def State.between (s : State) (a b t : Nat) : Nat :=
  if a = b then t else ((s.onAxis a t : Int) - (if b = 0 then 0 else (s.leaf b).offset * 65536)).toNat
/-- The samples of a secondary input, newest first, on the axis of the primary input's leaf (R169). -/
def State.secSamples (s : State) (d : Desc) (c : ChanState) (i : Nat) : List (Nat × Nat) :=
  (c.secs.getD (secKey d i) []).map (fun x => (s.between (secLeaf (secKey d i)) d.leaf x.1, x.2))

/-- A secondary input of a point at time t, from its samples (R169, R170, R173). The age of a fixed value is 0 (log 24); that of any
substituted one reads 255 (R170). -/
def secondaryInput (d : Desc) (b : Block) (last : Option F64) (samples : List (Nat × Nat)) (i t : Nat) : InputVal :=
  if d.kind i = 0 then { value := some (slotF b (15 + i)), age := 0 }
  else match latestAt samples t with
    | none => fallback b i last 255 255 6
    | some x =>
      have age := t / 65536 - x.1 / 65536
      if d.hold < age then fallback b i last 255 (min age 255) 6
      else match scaleCode b i x.2 with
        | some v => { value := some v, age := age, good := some v.bits }
        | none =>
          have f := fallback b i last 255 age 3
          if f.sub.isSome then f else { f with age := age }

/-- A channel's state under a descriptor (R156, R166, R169, R170): one new to it has no last good value yet and reads the samples of
its own inputs; COLDSTART does not continue the total and its saturation, nor the previous point (log 100). -/
def enterDesc (e : DescEntry) (c : ChanState) : ChanState :=
  if c.descRsn = some e.rsn then c
  else
    have c := if e.cold then { c with
      total := 0
      sat := false
      prev := none
      opens := true } else c
    { c with
      lastGood := []
      descRsn := some e.rsn
      secs := c.secs.filter (fun x => [1, 2].any (fun i => secKey e.raw i == x.1)) }

/-- Totals of a channel from a time on, newest first, and the last one before it. -/
def keepMarks (start : Nat) : List ChanMark → List ChanMark
  | [] => []
  | x :: xs => if start ≤ x.t then x :: keepMarks start xs else [x]
/-- A channel's total is noted for the interval closes to come (R159). -/
def State.noteTotal (s : State) (ch at' : Nat) (c : ChanState) : ChanState :=
  have start := match s.billChan ch with | some b => if b.valid then b.start else at' | none => at'
  { c with trail := keepMarks start (⟨at', c.total, c.sat, c.prev, c.notGood⟩ :: c.trail) }

/-- The result of a point before integration: rate (none for no rate), density (none where none was computed), its code
with 0 for a code that COLD may replace, and the flags LOWCUT and ARITH. -/
structure PointRes where
  rate : Option F
  rho : Option F
  qual : Nat
  low : Bool
  arith : Bool

/-- The code and the rate of a point from its inputs (R173, R182). DOMAIN is judged whenever pressure and temperature
have values (log 25). -/
def judgePoint (d : Desc) (b kb : Block) (x p t : InputVal) : PointRes :=
  have sub := x.sub.isSome || p.sub.isSome || t.sub.isSome
  have range := x.bad == 3 || p.bad == 3 || t.bad == 3
  have stale := x.bad == 6 || p.bad == 6 || t.bad == 6
  have low := match x.value with | some v => v.lt (F.ofBits (BitVec.ofNat 64 d.lowcut)) | none => false
  have code := fun base : Nat => if base = 5 then 5 else if range || base == 3 then 3 else if stale then 6 else if sub then 2 else base
  match p.value, t.value with
  | some pv, some tv =>
    match x.value with
    | some xv =>
      have o := flowPoint d b kb xv pv tv
      have q := code o.qual
      { rate := if q = 3 ∨ q = 5 ∨ q = 6 then none else some o.rate
        rho := if o.qual = 5 then none else some o.rho
        qual := q, low := o.low, arith := o.arith }
    | none =>
      have fl := fluidOf d b pv tv
      have bad := match fl.dom with | .out => true | _ => fl.exc && !(d.method == 5 && d.qty == 2)
      { rate := none, rho := if bad then none else some fl.rho, qual := code (if bad then 5 else domQual fl.dom)
        low := low, arith := bad && fl.exc }
  | _, _ => { rate := none, rho := none, qual := code 0, low := low, arith := false }

/-- Flags of a point result (Table 9.8) in the places of bits 29:23, NOINC lowest. -/
def pointFlags (noinc clamp sat low gap miss arith : Bool) : Nat :=
  b2n noinc + 2 * b2n clamp + 4 * b2n sat + 8 * b2n low + 16 * b2n gap + 32 * b2n miss + 64 * b2n arith

/-- The increment of a pair, or of a volume, in units of 2^-40, whether it was clamped and whether it saturated; none
where it is not a number (R154, R155). -/
def toIncrement (inc : F) : Option (Int × Bool × Bool) :=
  if inc.isNan then none
  else if inc.lt F.zero then some (0, true, false)
  else
    have q := inc.toFixed
    some (q.1, false, q.2)
def trapezoid (prev cur : F64) (dur : Nat) : F :=
  (((F.ofBits prev).add (F.ofBits cur)).mul (F.dec 5 1)).mul (spanSeconds dur)

/-- A total with an increment added, saturating (R156). -/
def addTotal (a q : Int) : Int × Bool := (satSigned 128 (a + q), a + q != satSigned 128 (a + q))

/-- A result enters a lane's host ring (R185); `words` are its words but SEQ, which the lane gives. -/
def State.ringResult (s : State) (l : Nat) (words : List Nat) (last : Nat) : State :=
  have x := s.laneRec l
  have w := words ++ [x.next % 65536 + last * 65536]
  have s := s.setLaneRec l { x with ring := x.ring.put x.next ⟨w, false⟩, next := x.next + 1 }
  if x.ring.isEmpty then s.raise (0x20 + l) 0 else s
def State.ringFull (s : State) (l : Nat) : Bool := decide (256 ≤ (s.laneRec l).ring.length)

/-- The words of a point result but the last (Table 9.8). -/
def pointWords (t ch qual flags : Nat) (rate rho : F64) : List Nat :=
  [t % 2 ^ 32, t / 2 ^ 32, rate.toNat % 2 ^ 32, rate.toNat / 2 ^ 32, rho.toNat % 2 ^ 32, rho.toNat / 2 ^ 32,
    ch + qual * 2 ^ 20 + flags * 2 ^ 23 + 2 ^ 31]

/-- Zones that have evaluated the window of an increment count it in LATE_INC (R194). -/
def State.lateIncrement (s : State) (ch t : Nat) : State :=
  have hit := fun (z : Zone) => decide (z.since ≤ t) && decide (t < z.evaluated) && z.defn.members.any (fun m => m.ch == ch)
  if (s.balance.zones.any (fun z => hit z.2) || s.balance.retired.any (fun z => hit z.2) ||
      s.balance.past.any (fun z => decide (z.1 ≤ t) && decide (t < z.2.1) && z.2.2.contains ch)) && s.serves then
    (s.bump Reg.BAL_LATE_INC).raise 0x30 1
  else s

/-- A point or a register record is kept for the Balance Engine while a window can still need it. -/
def State.keepEvent (s : State) (ch : Nat) (e : PointEvent) : State :=
  have old := s.fca.events.getD ch []
  have recent := old.filter (fun x => decide (s.now < x.t + 262144 * 65536))
  have kept := match old.find? (fun x => x.has && decide (x.t + 262144 * 65536 ≤ s.now)) with
    | some x => recent ++ [x]
    | none => recent
  { s with fca := { s.fca with events := s.fca.events.put ch (e :: kept) } }

/-- A substituted value is recorded (R170, Table 12.14). -/
def State.substEvent (s : State) (ch t : Nat) (b : Block) (i : Nat) (v : InputVal) : State :=
  match v.sub, v.value with
  | some age, some x =>
    s.journal 0x05 (leBytes 8 t ++ leBytes 4 (0x02000000 + ch + i * 2 ^ 20) ++
      (leBytes 8 x.bits.toNat ++ leBytes 1 (subMode b i) ++ leBytes 1 age ++ zeros 42))
  | _, _ => s

/-- Units carried by a total's increment go to billing (R158), and the increment, where there is one (`inc`), to the Balance Engine: an
increment of 0 is one too (R194). -/
def State.carry (s : State) (ch at' : Nat) (before after q : Int) (qual : Nat) (has : Bool) (rho : F64) (inc : Bool) : State :=
  have units := (after / 2 ^ 40 - before / 2 ^ 40).toNat
  have s := s.bill ch at' units qual
  have s := if inc then s.lateIncrement ch at' else s
  s.keepEvent ch ⟨at', q, qual, has, rho⟩

/-- A parameter block. -/
def State.block (s : State) (i : Nat) : Block := s.fca.blocks.getD i []
/-- The K table of a descriptor (R175). -/
def State.kBlock (s : State) (d : Desc) : Block := if d.method = 4 then s.block (slotInt (s.block d.pblk) 26) else []

/-- The closes that a re-derivation channel owes before a primary sample at t (R186): it writes them one by one, and
answers whether all are written; a full ring stops it. -/
def State.writeCloses (s : State) (l ch : Nat) (limit : Option Nat) : Nat → Bool × State
  | 0 => (true, s)
  | fuel + 1 =>
    have x := s.laneRec l
    have c := s.chan true ch
    have first := max c.closed x.dropped
    match x.closes[first - x.dropped]? with
    | none => (true, s)
    | some b =>
      if (match limit with | some t => decide (t < b) | none => false) then (true, s)
      else if s.ringFull l then (false, s)
      else
        have a := ofSigned 128 c.total
        have s := s.setChan true ch { c with closed := first + 1, notGood := 0 }
        have s := s.ringResult l ([b % 2 ^ 32, b / 2 ^ 32] ++ (List.range 4).map (fun i => a / 2 ^ (32 * i) % 2 ^ 32) ++
          [ch + 7 * 2 ^ 20 + b2n c.sat * 2 ^ 25 + 2 ^ 31]) (min c.notGood 65535)
        (s.raise (0x20 + l) 1).writeCloses l ch limit fuel

/-- Boundaries that every descriptor of the lane has closed leave its close list. -/
def State.dropCloses (s : State) (l : Nat) : State :=
  have x := s.laneRec l
  have least := (s.laneChans true l).foldl (fun m ch => min m (s.chan true ch).closed) (x.dropped + x.closes.length)
  s.setLaneRec l { x with closes := x.closes.drop (least - x.dropped), dropped := max x.dropped least }

/-- The result of a point leaves its lane (R184, R185). -/
def State.deliver (s : State) (redo : Bool) (l : Nat) (d : Desc) (words : List Nat) (last : Nat) : State :=
  if redo then (if s.flag (Reg.FCA_LCFG l) 4 then s else s.ringResult l words last)
  else if !d.hostRes then s
  else if s.ringFull l then (s.bump (Reg.FCA_HOSTDROP l)).raise (0x20 + l) 2
  else s.ringResult l words last

/-- The secondary inputs that a descriptor reads from samples. -/
def Desc.secondaries (d : Desc) : List Nat := [1, 2].filter (fun i => d.kind i != 0)

/-- A point is ready (R169, R172): every secondary input has a sample at or after t and every period entry of the span is
held, or WAIT_CYC cycles have passed. -/
def State.ready (s : State) (e : DescEntry) (c : ChanState) (t : Nat) : Bool :=
  have d : Desc := e.raw
  have c := enterDesc e c
  decide (s.onAxis d.leaf t + d.waitCyc * 65536 ≤ s.now) ||
    (d.secondaries.all (fun i => match s.secSamples d c i with | x :: _ => decide (t ≤ x.1) | [] => false) &&
      (match c.prev with | some p => (spanOf (s.periods d.leaf) p.t t).isSome | none => true))

/-- The results of a point leave its lane: the module serves, and the point lies after the last one that the former ACTIVE twin
has committed (R188, R338). -/
def State.commits (s : State) (c : ChanState) (t : Nat) : Bool :=
  s.serves && (match c.mirrored with | some m => decide (m < t) | none => true)

/-- The flow point of a staged primary sample (R163 to R182): its result, its increment and its records. -/
def State.evaluate (s : State) (redo : Bool) (l ch : Nat) (e : DescEntry) (pt : StagedPoint) : State :=
  have d : Desc := e.raw
  have shown := s.commits (s.chan redo ch) pt.t
  have c := enterDesc e (s.chan redo ch)
  have b := s.block d.pblk
  have x := primaryInput b (c.lastGood.find 0) pt.code
  have p := secondaryInput d b (c.lastGood.find 1) (s.secSamples d c 1) 1 pt.t
  have t := secondaryInput d b (c.lastGood.find 2) (s.secSamples d c 2) 2 pt.t
  have r := judgePoint d b (s.kBlock d) x p t
  have hole := match c.prev with | some v => pt.sseq != (v.sseq + 1) % 65536 | none => false
  have span := match c.prev with | some v => spanOf (s.periods d.leaf) v.t pt.t | none => some (0, false)
  have gap := match span with | some v => v.2 | none => true
  have volinc := d.method == 5
  have opens := c.opens || (match c.prev with | some v => !v.has | none => true) || (!volinc && (hole || gap))
  have inc : Option (Option (Int × Bool × Bool)) := match r.rate with
    | none => none
    | some f =>
      if opens then none
      else if volinc then some (toIncrement f)
      else match c.prev, span with
        | some v, some w => some (toIncrement (trapezoid v.rate f.bits w.1))
        | _, _ => none
  have nan := match inc with | some none => true | _ => false
  have has := r.rate.isSome && !nan
  have q := match inc with | some (some v) => v | _ => (0, false, false)
  have qual := if nan then 5 else if has && r.qual == 0 && opens then 1 else r.qual
  have flags := pointFlags opens q.2.1 q.2.2 r.low gap hole (r.arith || nan)
  have s := (s.draw).2
  have open1 := BitVec.ofNat 64 (Config.free (s.fresh - 1))
  have s := (s.draw).2
  have open2 := BitVec.ofNat 64 (Config.free (s.fresh - 1))
  have rate := if has then (match r.rate with | some f => f.bits | none => open1) else open1
  have rho := match r.rho with | some f => f.bits | none => open2
  have after := addTotal c.total q.1
  have good := fun (m : SMap F64) (i : Nat) (v : InputVal) => match v.good with | some w => m.put i w | none => m
  have c' := { c with
    total := after.1
    sat := c.sat || after.2
    prev := some ⟨pt.t, rate, has, qual, flags, pt.sseq⟩
    lastGood := good (good (good c.lastGood 0 x) 1 p) 2 t
    secs := c.secs.mapVals (fun k v => dropHidden (s.between d.leaf (secLeaf k) pt.t) v)
    notGood := if qual = 0 then c.notGood else c.notGood + 1
    opens := false }
  have s := s.setChan redo ch (if redo then c' else s.noteTotal ch (s.onAxis d.leaf pt.t) c')
  have s := if hole then s.bump (Reg.FCA_HOLES l) else s
  have s := s.bump (if has then Reg.FCA_PT_OK l else Reg.FCA_PT_NORATE l)
  have s := { s with fca := { s.fca with points := (s.fca.points + 1) % 2 ^ 64 } }
  have s := if has || (!redo && !shown) then s else s.raise (0x20 + l) 3
  have at' := s.onAxis d.leaf pt.t
  have s := if redo || !shown then s
    else ((s.substEvent ch at' b 0 x).substEvent ch at' b 1 p).substEvent ch at' b 2 t
  have s := if redo then s else if shown then
      s.carry ch at' c.total after.1 q.1 qual has rho (match inc with | some (some _) => true | _ => false)
    else s.keepEvent ch ⟨at', q.1, qual, has, rho⟩
  if !redo && !shown then s else s.deliver redo l d (pointWords pt.t ch qual flags rate rho) (p.age + 256 * t.age)

/-- The headroom takes a cost (R45). -/
def State.takes (s : State) (cost : Nat) : Bool := decide (((s.reg Reg.SLALOM_E_UNC + cost : Nat) : Int) ≤ s.headroom)

/-- The interval records that wait for headroom are written as it takes them, oldest first (R45, R47). -/
def State.writeIvs (s : State) : List (Nat × Nat × Nat × Nat × Nat) → State
  | [] => { s with billing := { s.billing with heldIvs := [] } }
  | x :: rest =>
    if s.takes 2 then (s.intervalRecord x.1 x.2.1 x.2.2.1 x.2.2.2.1 x.2.2.2.2).writeIvs rest
    else { s with billing := { s.billing with heldIvs := x :: rest } }
def State.drainIvs (s : State) : State := if s.billing.heldIvs.isEmpty then s else s.writeIvs s.billing.heldIvs

/-- The interval record of an FCA channel is produced: it is charged when the headroom takes it, and waits until then (R47). -/
def State.produceInterval (s : State) (ch qual flags inum units : Nat) : State :=
  { s with billing := { s.billing with heldIvs := s.billing.heldIvs ++ [(ch, qual, flags, inum, units)] } }.drainIvs

/-- The ready points of a channel are evaluated in sweep order (R171). A sample at or before the last evaluated instant
counts in OLDSAMP. A lane holds a point whose charged records, its SUBST events and those of late units, the headroom cannot take (R47,
R184), and a REDERIVE lane stalls while
its ring is full. `reader` is the lane that read the packet. -/
def State.pumpChan (s : State) (redo : Bool) (reader ch : Nat) : Nat → State
  | 0 => s
  | fuel + 1 =>
    have c := s.chan redo ch
    match c.staged with
    | [] => s
    | pt :: rest =>
      match s.descAt redo ch pt.t with
      | none => ((s.setChan redo ch { c with staged := rest }).bump Reg.FCAC_NOMATCH).pumpChan redo reader ch fuel
      | some e =>
        have l := s.homeOf redo ch reader e
        have old := match c.prev with | some v => decide (pt.t ≤ v.t) | none => false
        if old then ((s.setChan redo ch { c with staged := rest }).bump (Reg.FCA_OLDSAMP l)).pumpChan redo reader ch fuel
        else if !(s.laneServes l (if redo then 2 else 1)) || redo && s.hot || !(s.ready e c pt.t) then s
        else if redo then
          have w := if s.flag (Reg.FCA_LCFG l) 4 then s.writeCloses l ch (some pt.t) 65 else (true, s)
          if !w.1 || w.2.ringFull l then w.2.dropCloses l
          else
            have s := w.2.dropCloses l
            have c := s.chan true ch
            ((s.setChan true ch { c with staged := rest }).evaluate true l ch e pt).pumpChan redo reader ch fuel
        else
          have u := (s.setChan false ch { c with staged := rest }).evaluate false l ch e pt
          have cost := s.chargedBy u
          if decide (0 < cost) && s.commits c pt.t && !(s.takes cost) then s else u.pumpChan redo reader ch fuel

/-- The ready points of a channel are evaluated; a re-derivation channel keeps the lane that read its packets, on which points that a full
ring holds back go on (R184; log 23). -/
def State.pump (s : State) (redo : Bool) (reader ch : Nat) : State :=
  have s := if redo then s.setChan true ch { s.chan true ch with reader := reader } else s
  s.pumpChan redo reader ch ((s.chan redo ch).staged.length + 1)
/-- Everything that is ready on the lanes is evaluated. -/
def State.pumpAll (s : State) : State :=
  have s := s.drainIvs
  have s := (s.fca.chans.filter (fun x => !x.2.staged.isEmpty)).foldl (fun s x => s.pump false 0 x.1) s
  (s.fca.redoChans.filter (fun x => !x.2.staged.isEmpty)).foldl (fun s x => s.pump true x.2.reader x.1) s

/-- A sample is staged with every descriptor input that names its key (R168, R171). -/
def State.stageSample (s : State) (redo : Bool) (key t code sseq : Nat) : State :=
  have hits := (s.tableChans redo).filterMap (fun ch =>
    match s.descAt redo ch t with
    | some e => if Desc.method e.raw != 6 && [0, 1, 2].any (fun i => Desc.kind e.raw i != 0 && Desc.key e.raw i == key) then some (ch, e) else none
    | none => none)
  if hits.isEmpty then s.bump Reg.FCAC_NOMATCH
  else hits.foldl (fun s h =>
    have d : Desc := h.2.raw
    have c := s.chan redo h.1
    have c := [1, 2].foldl (fun (c : ChanState) i =>
      if d.kind i != 0 && d.key i == key then
        { c with secs := c.secs.update (secKey d i) [] (insertSample t code) } else c) c
    have c := if d.kind 0 != 0 && d.key 0 == key then { c with staged := insertStaged ⟨t, code, sseq⟩ c.staged } else c
    s.setChan redo h.1 c) s

/-- The key of a Lift header as descriptors hold it: LEAF 7:0, NODE 20:8, NCH 24:21. -/
def headerKey (h : Nat) : Nat := bits 110 103 h + 2 ^ 8 * bits 123 111 h + 2 ^ 21 * bits 127 124 h

/-- The samples of a packet as (time, code, sample number) (R137). -/
def packetSamples (h : Nat) (words : List Nat) : List (Nat × Nat × Nat) :=
  (List.range (headerCount h)).map (fun k =>
    (h % 2 ^ 64 + k * bits 79 64 h * 65536, (words.getD (k / 8) 0) / 2 ^ (16 * (k % 8)) % 65536, (bits 102 87 h + k) % 65536))

/-- A whole packet is staged. -/
def State.stagePacket (s : State) (redo : Bool) (h : Nat) (words : List Nat) : State :=
  (packetSamples h words).foldl (fun s x => s.stageSample redo (headerKey h) x.1 x.2.1 x.2.2) s

/-- The channels of a table that a packet's key feeds. -/
def State.fedChans (s : State) (redo : Bool) (key : Nat) : List Nat :=
  (s.tableChans redo).filter (fun ch => (s.descs redo ch).any (fun e =>
    !e.retire && [0, 1, 2].any (fun i => Desc.kind e.raw i != 0 && Desc.key e.raw i == key)))

/-- A lane may take words (R171, R184): fewer than 4,096 points wait on it, and its ring is not full under REDERIVE. -/
def State.laneTakes (s : State) (l : Nat) : Bool :=
  decide (s.stagedOn l < 4096) && !(s.laneMode l == 2 && s.ringFull l)

/-- A word that a lane has read is taken in (R140, R142, R171). -/
def State.takeWord (s : State) (q l word tag : Nat) : State :=
  have x := s.queue q
  if bit 15 tag then s
  else if bit 12 tag then (s.setQueue q { x with taken := none }).bump (Reg.FCA_ABORTPKT l)
  else if bit 14 tag then s.setQueue q { x with taken := some (word, []) }
  else match x.taken with
    | none => s
    | some (h, ws) =>
      if !(bit 13 tag) then s.setQueue q { x with taken := some (h, ws ++ [word]) }
      else
        have redo := s.laneMode l == 2
        have s := (s.setQueue q { x with taken := none }).stagePacket redo h (ws ++ [word])
        (s.fedChans redo (headerKey h)).foldl (fun s ch => s.pump redo l ch) s

/-- LIFT_WORD_READ (R140, R164, R171): the lane that a queue names reads its next word. A last word is read only while
the points of its packet fit the lanes that wait for them. -/
def execLiftWordRead (t : Angle) (q : Fin 32) (s : State) : Outcome :=
  have s := s.tick t
  have l := s.readingLane q
  have mode := s.laneMode l
  if s.pageOff (queuePage q) || !(s.laneServes l mode) || mode == 0 || !(s.laneTakes l) || (mode == 2 && (s.queueSrc q != 2 || s.hot)) then .next s
  else
    have r := s.readPort q
    have s' := r.1.takeWord q l r.2.1 r.2.2
    if (List.range 16).any (fun m => decide (4096 < s'.stagedOn m)) then .next s else .next s'

/-- FLOW_POINT_WAIT_EXPIRY (R169): the points of a channel whose wait has ended are evaluated. -/
def execFlowPointWaitExpiry (t : Angle) (ch : BitVec 20) (s : State) : Outcome :=
  have s := (s.tick t).pump false 0 ch.toNat
  .next (if (s.chan true ch.toNat).staged.isEmpty then s else s.pump true (s.chan true ch.toNat).reader ch.toNat)

end Sys2Proof.Machine
end

