-- ==== Sys2Proof/Machine/Fca.lean ====
section
/-!
DEFINITION. The commands of the Flow Computing Array: lane modes and losses (R164, R165), descriptors (R166, R168, R181),
parameter blocks (R167), the host ring (R185) and the close list (R186).
-/

namespace Sys2Proof.Machine

/-- The work that admitted obligations hold on a lane. -/
def admittedWork (cal : SMap Obligation) (l : Nat) : Nat := cal.foldl (fun a p => a + p.2.work (0x10 + l)) 0

/-- The lane of some that has the least admitted work, the lowest-numbered on a tie (R165; log 26). -/
def State.leastLane (s : State) : List Nat → Option Nat
  | [] => none
  | l :: ls => some (ls.foldl (fun m x =>
      if admittedWork s.slalom.calendar x < admittedWork s.slalom.calendar m then x else m) l)

/-- The calendar with the work of one lane moved to another. -/
def moveLaneWork (cal : SMap Obligation) (a b : Nat) : SMap Obligation :=
  cal.mapVals (fun _ o =>
    if o.work (0x10 + a) = 0 then o
    else { o with rest := addWork (o.rest.del (0x10 + a)) (0x10 + b) (o.work (0x10 + a)) })

/-- A write that takes a lane out of LIVE passes only if the admitted work fits the remaining LIVE lanes (R164). -/
def State.mayLeaveLive (s : State) (l : Nat) : Bool :=
  match s.leastLane (s.liveLanes.filter (· ≠ l)) with
  | none => admittedWork s.slalom.calendar l == 0
  | some m =>
    have s' := { s with slalom := { s.slalom with calendar := moveLaneWork s.slalom.calendar l m } }
    (s'.firstFailure ((s.liveLanes.filter (· ≠ l)).map (0x10 + ·))).isNone

/-- The descriptors of a lane move to another with their channel state and staged points (R165). -/
def State.rehome (s : State) (l : Nat) : State :=
  match s.leastLane (s.liveLanes.filter (· ≠ l)) with
  | none => s
  | some m =>
    have gone := (s.tableChans false).flatMap (fun ch =>
      ((s.descs false ch).filter (fun e => !e.retire && s.homeOf false ch 0 e == l)).map (fun e => moveKey ch e.eff))
    have s := { s with fca := { s.fca with moved := gone.foldl (fun t k => t.put k m) s.fca.moved } }
    s.setCalendar (moveLaneWork s.slalom.calendar l m)

/-- The queues that a lane was reading deliver their packets again (R140). -/
def State.requeueLane (s : State) (l : Nat) : State :=
  (List.range 32).foldl (fun s q =>
    s.laneLostQueue q l (fun n => n == l || (s.laneRec n).lost || s.dom (pageDomain (0x20 + n)) == 4) s.liveLanes) s

/-- LANE_MODE_WRITE (R164): a change of MODE needs a lane without staged points, and one out of LIVE that the other lanes
can carry its work. -/
def effLaneMode (l : Nat) (v : Word) (s : State) : WriteResult :=
  have k := Reg.FCA_LCFG l
  have old := s.laneMode l
  have new := bits 1 0 v.toNat % 3
  have put := fun (s : State) => (s.setReg k (v.toNat &&& 0x13)).journalConfig k
  if new = old then .done (put s)
  else if 0 < s.stagedOn l then .discard s 0x08
  else if old = 1 then
    if s.mayLeaveLive l then
      have s := (put s).rehome l
      .done ((s.loseRes (0x10 + l) 0x11).pumpAll)
    else .discard s 0x08
  else if new = 1 ∧ !(s.laneRec l).lost then .done ((put s).regainRes (0x10 + l)).pumpAll
  else .done (put s)

def execLaneModeWrite (t : Angle) (p : Path) (lane : Fin 16) (v : Word) (s : State) : Outcome :=
  .next ((s.tick t).hostWrite p (0x20 + lane.val) 0x040 (effLaneMode lane.val v))

/-- A lane is lost (R165): its descriptors move, its packets are delivered again, Slalom recomputes and LANE_LOST is raised. -/
def State.laneGone (s : State) (l : Nat) : State :=
  if (s.laneRec l).lost then s
  else
    have s := s.setLaneRec l { s.laneRec l with lost := true }
    have s := (s.rehome l).requeueLane l
    ((s.loseRes (0x10 + l) 0x11).raise 0x1C 3).pumpAll
/-- A lane is lost by an internal fault (R165). -/
def State.loseFcaLane (s : State) (l : Nat) : State :=
  if (s.laneRec l).lost then s else ((s.bump (Reg.FCA_FAULTS l)).raise (0x20 + l) 4).laneGone l
/-- FCA_LANE_LOST (R165). -/
def execFcaLaneLost (t : Angle) (lane : Fin 16) (s : State) : Outcome := .next ((s.tick t).loseFcaLane lane.val)

/-- A descriptor command ends: DW_STAT and the cause DESC. -/
def State.endDesc (s : State) (code : Nat) : State :=
  (s.setReg Reg.FCAC_DW_STAT (if code = 0 then 2 ^ 28 else 2 ^ 29 + code)).raise 0x1C 0

/-- The staged descriptor of DW_D0 to DW_D15. -/
def State.stagedDesc (s : State) : Desc :=
  (List.range 16).foldl (fun d i => d + s.reg (Reg.FCAC_DW_D0 + 4 * i) * 2 ^ (32 * i)) 0

/-- Slots of a block that a descriptor uses as binary64 values (Tables 9.2 and 9.3). -/
def usedSlots (d : Desc) (b : Block) : List Nat :=
  have ins := [0, 1, 2].filter (fun i => d.kind i != 0)
  (if d.kind 1 != 0 && bit 35 (slotInt b 9) then [15] else []) ++
    ins.flatMap (fun i => [5 * i, 5 * i + 1, 5 * i + 2] ++ (if subMode b i = 1 then [5 * i + 3] else [])) ++
    ([1, 2].filter (fun i => d.kind i == 0)).map (15 + ·) ++
    (if d.medium = 3 then [22] else if d.medium = 2 then [] else [18]) ++ (if d.netMode = 2 ∧ d.qty = 1 then [19] else []) ++
    (if d.refset = 2 ∧ d.qty = 3 then [23, 24, 25] else []) ++
    (if d.primary then [20, 21, 26, 27, 28, 29] ++ (if d.medium = 0 then [] else [30]) else [])

/-- Geometry outside Table 9.4. -/
def badGeometry (d : Desc) (b : Block) : Bool :=
  haveI := F.hDiv; haveI := F.hLit
  let bore := slotF b 26
  let pipe := slotF b 27
  let beta := bore / pipe
  let out := fun (lo hi dl dh : F) => !(lo.le beta && beta.le hi && dl.le pipe && pipe.le dh)
  if d.method = 1 then out 0.1 0.75 0.05 1.0 || bore.lt 0.0125 || decide (2 < slotInt b 31)
  else if d.method = 2 then out 0.3 0.8 0.05 0.5
  else if d.method = 3 then out 0.4 0.75 0.05 0.25
  else false

/-- A K table that is not strictly ascending or holds a K at or below 0 (Table 9.2, code 0x04). -/
def badTable (kb : Block) : Bool :=
  !((List.range 32).all (fun i => (slotF kb i).finite)) || !((List.range 16).all (fun i => F.zero.lt (slotF kb (2 * i + 1)))) ||
    !((List.range 15).all (fun i => (slotF kb (2 * i)).lt (slotF kb (2 * i + 2))))

/-- A value that the descriptor uses is invalid (code 0x04). -/
def State.badValues (s : State) (d : Desc) : Bool :=
  have b := s.block d.pblk
  have cut := F.ofBits (BitVec.ofNat 64 d.lowcut)
  have humid := fun v : F => !(F.zero.le v && v.le (F.dec 1 0))
  if d.method = 6 then d.lowcut == 0
  else !(cut.finite && F.zero.lt cut) || !((usedSlots d b).all (fun i => (slotF b i).finite)) || badGeometry d b ||
    (d.method == 4 && badTable (s.kBlock d)) || (d.medium == 3 && humid (slotF b 22)) ||
    (d.refset == 2 && d.qty == 3 && humid (slotF b 25))

/-- A field holds a value that Table 9.1 does not define, or an invalid combination (code 0x02). -/
def badFields (d : Desc) : Bool :=
  d.method == 0 || decide (6 < d.method) || decide (3 < d.medium) || d.refset == 3 || d.netMode == 3 || d.hold == 0 ||
    d.hold == 255 || (d.qty == 1 && d.medium == 3) || (d.qty == 3 && d.medium != 3) ||
    (d.method == 6 && d.qty != 2 && d.qty != 0) || (d.medium == 2 && !d.primary)

/-- An input is missing or of the wrong KIND (code 0x03). -/
def badKinds (d : Desc) : Bool :=
  [0, 1, 2].any (fun i => decide (5 < d.kind i)) || (d.primary && d.kind 0 != 1) || (d.method == 4 && d.kind 0 != 4) ||
    (d.method == 5 && d.kind 0 != 5) || (d.kind 1 != 0 && d.kind 1 != 2) || (d.kind 2 != 0 && d.kind 2 != 3) ||
    (d.medium == 2 && d.kind 2 != 0)

/-- A key of the descriptor would feed more than 4 channels of its table (R168, code 0x06). -/
def State.crowded (s : State) (redo : Bool) (d : Desc) : Bool :=
  ([0, 1, 2].filter (fun i => d.kind i != 0)).any (fun i =>
    decide (3 < ((s.tableChans redo).filter (fun ch => ch != d.ch && ((s.standing redo ch).any (fun e =>
        [0, 1, 2].any (fun j => Desc.kind e.raw j != 0 && Desc.key e.raw j == d.key i))))).length))

/-- PAIR_CH is not a back-direction energy channel with the same schedule (R181, code 0x08). -/
def State.badPair (s : State) (d : Desc) : Bool :=
  d.netMode == 1 &&
    !((match s.standing false d.pairCh with
        | e :: es => (fun x : Desc => x.back && x.qty == 1) ((es.foldl (fun (m : DescEntry) y => if m.eff ≤ y.eff then y else m) e).raw)
        | [] => false) &&
      (match s.billChan d.ch, s.billChan d.pairCh with
        | some a, some b => a.valid && b.valid && a.ilen == b.ilen
        | _, _ => false))

/-- A reserved bit or field is not zero (code 0x09). -/
def badReserved (d : Desc) (b : Block) : Bool :=
  d.at 0x08 31 29 != 0 || d.at 0x0C 31 29 != 0 || d.at 0x10 31 29 != 0 || d.at 0x14 31 28 != 0 || d.at 0x18 31 20 != 0 ||
    d.at 0x1C 31 0 != 0 || d.at 0x30 127 0 != 0 || [4, 9, 14].any (fun i => slotInt b i / 2 ^ 37 != 0) ||
    ((d.method == 4 || d.method == 5) && [27, 28, 29, 30, 31].any (fun i => slotInt b i != 0))

/-- The first failing check of Table 9.2; 0 where a descriptor is accepted (R166). The checks 0x05 and 0x07 are those of
the live table (log 23). -/
def State.checkDesc (s : State) (redo : Bool) (d : Desc) : Nat :=
  if d.arith ≠ 1 then 1
  else if badFields d then 2
  else if badKinds d then 3
  else if s.badValues d then 4
  else if !redo && (match (s.chan false d.ch).prev with | some p => decide (d.eff ≤ p.t) | none => false) then 5
  else if s.crowded redo d then 6
  else if !redo && !(s.liveLanes.contains d.home) then 7
  else if s.badPair d then 8
  else if badReserved d (s.block d.pblk) then 9
  else 0

/-- The octets of a descriptor and of a parameter block, as the DESC record holds them (log 27). -/
def descBytes (d : Desc) : List Byte := leBytes 64 d
def blockBytes (i : Nat) (b : Block) : List Byte := leBytes 4 i ++ (List.range 32).flatMap (fun k => leBytes 8 (slotInt b k))

/-- A descriptor command is journalled, and runs until its record is committed (R166). -/
def State.journalDesc (s : State) (body : List Byte) : Nat × State :=
  have r := s.append 0x23 body
  (r.1, { r.2.setReg Reg.FCAC_DW_STAT (2 ^ 31) with fca := { r.2.fca with waitRsn := some r.1 } })

/-- An entry joins the live table, or the re-derivation table, where it replaces the one before it once it is committed (R166). -/
def State.putDesc (s : State) (redo : Bool) (ch : Nat) (e : DescEntry) : State :=
  if redo then { s with fca := { s.fca with redo := s.fca.redo.update ch [] (fun l => e :: l.take 2) } }
  else { s with fca := { s.fca with live := s.fca.live.update ch [] (fun l => l ++ [e]) } }

/-- A descriptor takes effect in its table: `new` are the blocks first named with it (R167, R186). With the channel committed again its
descriptors are back on their homes, but for one whose home is not LIVE, which stays where it has been moved (R165). -/
def State.installDesc (s : State) (redo cold : Bool) (d : Desc) (rsn : Nat) (new : List Nat) : State :=
  have s := { s with fca := { s.fca with fixed := s.fca.fixed ++ new } }.putDesc redo d.ch
    { eff := d.eff, raw := d, cold := cold, rsn := rsn, blocks := new }
  if redo then
    have c := s.chan true d.ch
    s.setChan true d.ch { staged := c.staged, secs := c.secs, reader := c.reader }
  else
    have back := moveKey d.ch d.eff ::
      ((s.descs false d.ch).filter (fun e => s.laneServes (Desc.home e.raw) 1)).map (fun e => moveKey d.ch e.eff)
    { s with fca := { s.fca with moved := s.fca.moved.filter (fun x => !back.contains x.1) } }

/-- An accepted descriptor enters its table (R166, R167, R186). -/
def State.acceptDesc (s : State) (redo cold : Bool) (d : Desc) : State :=
  have named := d.pblk :: (if d.method = 4 then [slotInt (s.block d.pblk) 26] else [])
  have new := (named.eraseDups).filter (fun i => !s.fca.fixed.contains i)
  have r := s.journalDesc (descBytes d ++ leBytes 4 (b2n redo + 2 * b2n cold) ++ new.flatMap (fun i => blockBytes i (s.block i)))
  r.2.installDesc redo cold d r.1 new

/-- A mirrored DESC record takes effect (R188, R328): a descriptor with the blocks first named with it, or a retirement. -/
def State.mirrorDesc (s : State) (rsn : Nat) (p : List Byte) : State :=
  if p.length = 16 then s.putDesc (bit 0 (leAt p 12 4)) (leAt p 0 4) { eff := leAt p 4 8, raw := 0, retire := true, rsn := rsn }
  else
    have at' := fun (k : Nat) => 68 + 260 * k
    have block := fun (k : Nat) => (leAt p (at' k) 4, ((List.range 32).map (fun i => (i, leAt p (at' k + 4 + 8 * i) 8))).filter (fun x => x.2 != 0))
    have blocks : List (Nat × Block) := (List.range ((p.length - 68) / 260)).map block
    have s := { s with fca := { s.fca with blocks := blocks.foldl (fun (m : SMap Block) (x : Nat × Block) => m.put x.1 x.2) s.fca.blocks } }
    s.installDesc (bit 0 (leAt p 64 4)) (bit 1 (leAt p 64 4)) (leAt p 0 64) rsn (blocks.map (fun (x : Nat × Block) => x.1))

/-- DW_CMD READ (R166): the descriptor in force, else the earliest pending one, else zeros. -/
def State.readDesc (s : State) (redo : Bool) : State :=
  have ch := s.fld Reg.FCAC_DW_CH 19 0
  have e := match s.descAt redo ch s.now with
    | some e => some e
    | none => (s.standing redo ch).foldl
        (fun (m : Option DescEntry) (e : DescEntry) => match m with | some x => if e.eff ≤ x.eff then some e else m | none => some e) none
  have raw := match e with | some e => e.raw | none => 0
  have s := (List.range 16).foldl (fun s i => s.setReg (Reg.FCAC_DW_D0 + 4 * i) (raw / 2 ^ (32 * i) % 2 ^ 32)) s
  s.endDesc 0

/-- DW_CMD RETIRE (R166): the channel ends at the EFF in DW_D8 and DW_D9. -/
def State.retireDesc (s : State) (redo : Bool) : State :=
  have ch := s.fld Reg.FCAC_DW_CH 19 0
  have eff := s.reg64 Reg.FCAC_DW_D8 (Reg.FCAC_DW_D8 + 4)
  if match (s.chan redo ch).prev with | some p => decide (eff ≤ p.t) | none => false then s.endDesc 5
  else
    have r := s.journalDesc (leBytes 4 ch ++ leBytes 8 eff ++ leBytes 4 (b2n redo + 4))
    r.2.putDesc redo ch { eff := eff, raw := 0, retire := true, rsn := r.1 }

/-- A write of DW_CMD (R166, Table 9.11). -/
def effDwCmd (v : Word) (s : State) : WriteResult :=
  have cmd := bits 2 0 v.toNat
  have redo := bit 5 v.toNat
  if s.flag Reg.FCAC_DW_STAT 31 then .discard s 0x08
  else if cmd = 1 then
    have d := s.stagedDesc
    have code := s.checkDesc redo d
    if code = 0 then .done (s.acceptDesc redo (bit 4 v.toNat) d) else .done (s.endDesc code)
  else if cmd = 2 then .done (s.readDesc redo)
  else if cmd = 3 then .done (s.retireDesc redo)
  else .ignored s

/-- The word of a command register with its CMD field set. -/
def withCmd (hi cmd : Nat) (v : Word) : Word := BitVec.ofNat 32 (setBits hi 0 cmd v.toNat)

/-- DESC_COMMIT, DESC_READ and DESC_RETIRE (R166); `v` gives TABLE and COLDSTART. -/
def execDescCommit (t : Angle) (p : Path) (v : Word) (s : State) : Outcome :=
  .next ((s.tick t).hostWrite p 0x1C 0x048 (effDwCmd (withCmd 2 1 v)))
def execDescRead (t : Angle) (p : Path) (v : Word) (s : State) : Outcome :=
  .next ((s.tick t).hostWrite p 0x1C 0x048 (effDwCmd (withCmd 2 2 v)))
def execDescRetire (t : Angle) (p : Path) (v : Word) (s : State) : Outcome :=
  .next ((s.tick t).hostWrite p 0x1C 0x048 (effDwCmd (withCmd 2 3 v)))

/-- The descriptor command that waited for its record ends once that is committed (R166). -/
def State.descCommitted (s : State) (rsn : Nat) : State :=
  match s.fca.waitRsn with
  | some r => if r ≤ rsn then { s with fca := { s.fca with waitRsn := none } }.endDesc 0 else s
  | none => s

/-- PB_SLOT_COMMIT (R167): a write of PB_HI, refused for a fixed block. -/
def effPbHi (v : Word) (s : State) : WriteResult :=
  have i := s.fld Reg.FCAC_PB_IDX 19 0
  have slot := s.fld Reg.FCAC_PB_SLOT 4 0
  if s.fca.fixed.contains i then .discard s 0x08
  else
    have value := s.reg Reg.FCAC_PB_LO + 2 ^ 32 * v.toNat
    have s := s.setReg Reg.FCAC_PB_HI v.toNat
    have b := (s.block i).filter (fun x => x.1 != slot)
    .done { s with fca := { s.fca with blocks := s.fca.blocks.put i (if value = 0 then b else b ++ [(slot, value)]) } }

def execPbSlotCommit (t : Angle) (p : Path) (v : Word) (s : State) : Outcome :=
  .next ((s.tick t).hostWrite p 0x1C 0x05C (effPbHi v))

/-- Every remaining boundary is closed for every descriptor of the lane, while its ring has room (R186). -/
def State.closeAll (s : State) (l : Nat) : State :=
  have r := (s.laneChans true l).foldl (fun (r : Bool × State) ch => if r.1 then r.2.writeCloses l ch none 65 else r) (true, s)
  have s := r.2.dropCloses l
  have x := s.laneRec l
  if r.1 then s.setLaneRec l { x with
    closes := []
    dropped := x.dropped + x.closes.length
    ending := false }
  else s.setLaneRec l { x with ending := true }

/-- TK_ACK (R185): every ready slot up to the named SEQ retires; a SEQ that names none is ignored and recorded. -/
def effTkAck (l : Nat) (v : Word) (s : State) : WriteResult :=
  have x := s.laneRec l
  match (SMap.keys x.ring).find? (fun n => n % 65536 == v.toNat % 65536) with
  | none => .discard s 0x0A
  | some n =>
    have s := (s.setLaneRec l { x with
      ring := x.ring.filter (fun r => decide (n < r.1))
      head := n + 1 }).pumpAll
    .done (if (s.laneRec l).ending then s.closeAll l else s)

def execTkAck (t : Angle) (p : Path) (lane : Fin 16) (v : Word) (s : State) : Outcome :=
  .next ((s.tick t).hostWrite p (0x20 + lane.val) 0x054 (effTkAck lane.val v))

/-- Word i of a result slot of a lane: the oldest unretired one, or one of the ring copy by its place (R185). Word 6 reads
with REREAD once it has been read. -/
def State.slotOf (s : State) (l : Nat) (place : Option Nat) : Option (Nat × RingSlot) :=
  match place with
  | none => (s.laneRec l).ring.head?
  | some i => (s.laneRec l).ring.find? (fun r => r.1 % 256 == i)
def slotWord (x : RingSlot) (i : Nat) : Nat := x.words.getD i 0 + (if i = 6 ∧ x.read then 2 ^ 30 else 0)
def State.readSlot (s : State) (l : Nat) (place : Option Nat) (i : Nat) : State × Nat :=
  match s.slotOf l place with
  | none => (s, 0)
  | some (n, x) =>
    have r := s.laneRec l
    (if i = 6 then s.setLaneRec l { r with ring := r.ring.put n { x with read := true } } else s, slotWord x i)

/-- RESULT_READ (R185): a read of the word at 0x18 of a slot, through TK_D6 (`place` none) or the ring copy. -/
def execResultRead (t : Angle) (p : Path) (lane : Fin 16) (place : Option (Fin 256)) (s : State) : Outcome :=
  have s := s.tick t
  match place with
  | none => .next (answer p (s.hostRead p (0x20 + lane.val) 0x078 (fun s => s.readSlot lane.val none 6)))
  | some i => .next (answer p (s.readSlot lane.val (some i.val) 6))

/-- CLOSE_PUSH (R186): a write of CLOSE_HI; a boundary not after the last one pushed is ignored and recorded, and so is one
for a full list (log 28). -/
def effCloseHi (l : Nat) (v : Word) (s : State) : WriteResult :=
  have b := s.reg (Reg.FCA_CLOSE_LO l) + 2 ^ 32 * v.toNat
  have x := s.laneRec l
  if match x.lastClose with | some a => decide (b ≤ a) | none => false then .discard s 0x0A
  else if 64 ≤ x.closes.length then .discard s 0x08
  else .done (s.setLaneRec l { x with
    closes := x.closes ++ [b]
    lastClose := some b })

def execClosePush (t : Angle) (p : Path) (lane : Fin 16) (v : Word) (s : State) : Outcome :=
  .next ((s.tick t).hostWrite p (0x20 + lane.val) 0x084 (effCloseHi lane.val v))

/-- CLOSE_END (R186), on a lane that writes close results. -/
def effCloseEnd (l : Nat) (v : Word) (s : State) : WriteResult :=
  if !bit 0 v.toNat then .ignored s
  else if s.laneMode l = 2 ∧ s.flag (Reg.FCA_LCFG l) 4 then .done (s.closeAll l)
  else .done s

def execCloseEnd (t : Angle) (p : Path) (lane : Fin 16) (v : Word) (s : State) : Outcome :=
  .next ((s.tick t).hostWrite p (0x20 + lane.val) 0x08C (effCloseEnd lane.val v))

/-- The registers of a lane that show its state (Table 9.13). -/
def State.readLstat (s : State) (l : Nat) : Nat :=
  have n := s.stagedOn l
  have state := if (s.laneRec l).lost then 4 else if s.laneMode l = 0 then 0
    else if 4096 ≤ n ∨ (s.laneMode l = 2 ∧ s.ringFull l) then 3 else if 0 < n then 2 else 1
  state * 2 ^ 29 + min n 4096
def State.readTkStat (s : State) (l : Nat) : Nat :=
  (s.laneRec l).ring.length * 2 ^ 16 + (s.laneRec l).head % 65536
def State.readCloseN (s : State) (l : Nat) : Nat := (s.laneRec l).closes.length
def State.readDescn (s : State) (l : Nat) : Nat :=
  have redo := s.laneMode l == 2
  ((s.tableChans redo).map (fun ch => ((s.standing redo ch).filter (fun e =>
    if redo then Desc.home e.raw == l else s.homeOf false ch l e == l)).length)).foldl (· + ·) 0
def State.readFcacInfo (s : State) : Nat :=
  ((List.range 16).foldl (fun m l => if s.dom (pageDomain (0x20 + l)) = 4 then m else m + 2 ^ l) 0) * 2 ^ 16 + 1

end Sys2Proof.Machine
end

