-- ==== Sys2Proof/Machine/Graph.lean ====
section
/-!
DEFINITION. The network graph of the Balance Engine: its image and the checks of Table 10.4 (R189 to R191), the zone
parameters (R192, Table 10.5), and the intermediates that a graph fixes for its zones (R195).
-/

namespace Sys2Proof.Machine

/-- The default of a parameter slot (Table 10.5). -/
def slotDefault (slot : Nat) : Nat :=
  if slot = 0 then 3000 * 2 ^ 8 + 10 * 2 ^ 24 + 5 * 2 ^ 32 + 0x7E * 2 ^ 40 + 50 * 2 ^ 48
  else if slot = 5 ∨ slot = 9 then 0x4008000000000000
  else if slot = 6 then 0x3FE0000000000000
  else if slot = 7 then 0x4014000000000000
  else (match slot with
    | 8 => F.dec 5 2 | 10 => F.dec 2 2 | 11 => F.dec 1 2 | 12 => F.dec 5 2 | 13 => F.dec 3 1 | _ => F.zero).bits.toNat

/-- A parameter slot as committed. -/
def State.zoneSlot (s : State) (zone slot : Nat) : Nat := s.balance.slots.getD (zone * 32 + slot) (slotDefault slot)

/-- A slot value lies within the range of Table 10.5. -/
def slotInRange (slot v : Nat) : Bool :=
  have x := F.ofBits (BitVec.ofNat 64 v)
  have pos := F.zero.lt x
  have nonneg := F.zero.le x
  have unit := nonneg && x.le (F.dec 1 0)
  if slot = 0 then
    decide (bits 1 0 v ≤ 1) && decide (bits 3 2 v ≤ 2) && decide (bits 6 5 v ≤ 2) && !bit 7 v && decide (50 ≤ bits 23 8 v) &&
      decide (1 ≤ bits 39 32 v) && !bit 47 v && decide (2 ≤ bits 63 48 v)
  else if slot ≤ 4 then bits 31 21 v == 0 && bits 63 53 v == 0
  else if slot = 5 ∨ slot = 7 ∨ slot = 9 then pos
  else if slot = 8 then pos && x.le (F.dec 1 0)
  else if slot = 10 ∨ slot = 11 then unit
  else if slot = 6 ∨ slot = 12 ∨ slot = 13 ∨ slot = 16 then nonneg
  else if slot = 14 ∨ slot = 15 ∨ slot = 17 then true
  else v == 0

/-- Fields of a zone's CFG slot. -/
def cfgQty (c : Nat) : Nat := bits 1 0 c
def cfgModel (c : Nat) : Nat := bits 3 2 c
def cfgCivil (c : Nat) : Bool := bit 4 c
def cfgMinutes (c : Nat) : Nat := [5, 10, 15].getD (bits 6 5 c) 5
def cfgCycles (c : Nat) : Nat := bits 23 8 c
def cfgWarm (c : Nat) : Nat := bits 31 24 c
def cfgClear (c : Nat) : Nat := bits 39 32 c
def cfgSupp (c : Nat) : Nat := bits 46 40 c
def cfgWait (c : Nat) : Nat := bits 63 48 c

/-- A graph image. -/
abbrev GraphImage := List Byte
def GraphImage.u (g : GraphImage) (off n : Nat) : Nat := leAt g off n
def GraphImage.nodes (g : GraphImage) : Nat := g.u 0x08 4
def GraphImage.edges (g : GraphImage) : Nat := g.u 0x0C 4
def GraphImage.gen (g : GraphImage) : Nat := g.u 0x06 2

/-- A node record (Table 10.2) and an edge record (Table 10.3), with their indices. -/
structure GNode where
  idx : Nat
  word : Nat
  group : Nat
  uRel : F64
  uFloor : F64
  clean : Bool
def GNode.kind (n : GNode) : Nat := bits 31 30 n.word
def GNode.ch (n : GNode) : Nat := bits 19 0 n.word
structure GEdge where
  idx : Nat
  src : Nat
  dst : Nat
  word : Nat
  length : F64
  bore : F64
  volume : F64
  prior : F64
def GEdge.zone (e : GEdge) : Nat := bits 11 0 e.word
def GEdge.cls (e : GEdge) : Nat := bits 15 12 e.word
def GEdge.slot (e : GEdge) : Nat := bits 18 16 e.word

def GraphImage.nodeList (g : GraphImage) : List GNode :=
  (List.range g.nodes).map (fun i =>
    have o := 64 + 32 * i
    { idx := i, word := g.u o 4, group := g.u (o + 4) 1, uRel := BitVec.ofNat 64 (g.u (o + 8) 8)
      uFloor := BitVec.ofNat 64 (g.u (o + 16) 8), clean := g.u (o + 5) 3 == 0 && g.u (o + 24) 8 == 0 && bits 29 20 (g.u o 4) == 0 })
def GraphImage.edgeList (g : GraphImage) : List GEdge :=
  (List.range g.edges).map (fun i =>
    have o := 64 + 32 * g.nodes + 40 * i
    have f := fun k : Nat => BitVec.ofNat 64 (g.u (o + k) 8)
    { idx := i, src := g.u o 2, dst := g.u (o + 2) 2, word := g.u (o + 4) 4, length := f 8, bore := f 16, volume := f 24
      prior := f 32 })

/-- The zones of a graph in ascending order. -/
def zonesOf (es : List GEdge) : List Nat := es.foldl (fun l e => insertUp e.zone l) []

/-- The edges of a zone that hang together with some of them at junctions, in rounds. -/
def growSet (junction : Nat → Bool) (es : List GEdge) : Nat → List GEdge → List GEdge
  | 0, set => set
  | fuel + 1, set =>
    have touch := fun (e f : GEdge) =>
      (junction e.src && (e.src == f.src || e.src == f.dst)) || (junction e.dst && (e.dst == f.src || e.dst == f.dst))
    have more := es.filter (fun e => !(set.any (fun f => f.idx == e.idx)) && set.any (touch e))
    if more.isEmpty then set else growSet junction es fuel (set ++ more)

/-- The members of a zone: an edge that starts at a meter node makes its channel an inflow, one that ends there an
outflow (R190); in ascending channel ID. -/
def zoneMembers (ns : List GNode) (es : List GEdge) (zone : Nat) : List Member :=
  have zs := es.filter (fun e => e.zone == zone)
  sortBy (fun (a b : Member) => decide (a.ch ≤ b.ch)) ((ns.filter (fun n => n.kind == 1)).flatMap (fun n =>
    (if zs.any (fun e => e.src == n.idx) then [⟨n.ch, true, n.group, n.uRel, n.uFloor⟩] else []) ++
    (if zs.any (fun e => e.dst == n.idx) then [⟨n.ch, false, n.group, n.uRel, n.uFloor⟩] else [])))

/-- The density slots of a zone that hold a channel. -/
def State.densitySlots (s : State) (zone : Nat) : SMap Nat :=
  (List.range 8).filterMap (fun g =>
    have w := s.zoneSlot zone (1 + g / 2)
    have h := if g % 2 = 0 then w % 2 ^ 32 else w / 2 ^ 32
    if bit 20 h then some (g, bits 19 0 h) else none)

/-- The descriptor that a graph commit finds for a channel: in force from GEFF on (Table 10.4, code 0x05; log 29). -/
def State.graphDesc (s : State) (ch eff : Nat) : Option Desc := (s.liveDesc ch (max eff s.now)).map (·.raw)

/-- A channel matches the quantity of a zone. -/
def qtyMatches (cfg : Nat) (d : Desc) : Bool := if cfgQty cfg = 0 then d.qty == 0 else d.qty == 2

def negative (x : F64) : Bool := (F.ofBits x).lt F.zero

/-- The index of the first element of a list that fails. -/
def failing {α : Type} (idx : α → Nat) (bad : α → Bool) (l : List α) : Option Nat := (l.find? bad).map idx

/-- The first failing check of Table 10.4 with the index of its record (R191). A FIELD module holds no authoritative figures of a leaf's
channels, and refuses them with code 0x05, and with code 0x07 as density channels (R207, log 100). -/
def State.checkGraph (s : State) (g : GraphImage) (len eff : Nat) : Option (Nat × Nat) :=
  have header := g.u 0 4 == 0x4B424752 && g.u 4 2 == 1 && decide (1 ≤ g.gen) && decide (1 ≤ g.nodes) && decide (g.nodes ≤ 65536) &&
    decide (1 ≤ g.edges) && decide (g.edges ≤ 131072) && len == 64 + 32 * g.nodes + 40 * g.edges
  if !header then some (1, 0)
  else
    have ns := g.nodeList
    have es := g.edgeList
    have meter := fun i => match ns[i]? with | some n => n.kind == 1 | none => false
    have junction := fun i => !(meter i)
    have cfg := fun z => s.zoneSlot z 0
    have meters := ns.filter (fun n => n.kind == 1)
    have zonesAt := fun (n : GNode) => (es.filter (fun e => e.src == n.idx || e.dst == n.idx)).map GEdge.zone
    have c2 := failing GEdge.idx (fun e => decide (g.nodes ≤ e.src) || decide (g.nodes ≤ e.dst)) es
    have c3 := failing GNode.idx (fun n =>
      have ins := (es.filter (fun e => e.dst == n.idx)).length
      have outs := (es.filter (fun e => e.src == n.idx)).length
      decide (1 < n.kind) || (n.kind == 1 && (decide (1 < ins) || decide (1 < outs) || ins + outs == 0))) ns
    have c4 := (failing GNode.idx (fun n => n.kind == 0 && (match zonesAt n with | z :: zs => zs.any (· ≠ z) | [] => false)) ns).orElse
      (fun _ => (zonesOf es).findSome? (fun z =>
        have zs := es.filter (fun e => e.zone == z)
        match zs with
        | [] => none
        | e :: _ =>
          have set := growSet junction zs zs.length [e]
          if (zoneMembers ns es z).isEmpty then some e.idx
          else failing GEdge.idx (fun f => !(set.any (fun x => x.idx == f.idx))) zs))
    have c5 := failing GNode.idx (fun n =>
      decide (1 < (meters.filter (fun m => m.ch == n.ch)).length) ||
        (match s.graphDesc n.ch eff with
          | none => true
          | some d => (s.nv.role == 1 && d.leaf != 0) || (zonesAt n).any (fun z => !(qtyMatches (cfg z) d)))) meters
    have c6 := (failing GNode.idx (fun n => negative n.uRel || !(F.zero.lt (F.ofBits n.uFloor))) meters).orElse
      (fun _ => failing GEdge.idx (fun e => negative e.length || negative e.bore || negative e.volume || negative e.prior) es)
    have dense := fun ch => match s.graphDesc ch eff with
      | some d => !(d.method == 6 || (d.method == 5 && d.qty == 2)) && !(s.nv.role == 1 && d.leaf != 0)
      | none => false
    have c7 := failing GEdge.idx (fun e => cfgQty (cfg e.zone) == 0 &&
      (((s.densitySlots e.zone).find e.slot).isNone || (SMap.vals (s.densitySlots e.zone)).any (fun ch => !(dense ch)))) es
    have c8 := failing GNode.idx (fun n => (zonesAt n).any (fun z => !(cfgCivil (cfg z))) &&
      (match s.graphDesc n.ch eff with | some d => d.method == 6 | none => false)) meters
    have c9 := (if (g.drop 0x10).take 48 != zeros 48 then some 0 else none).orElse (fun _ =>
      (failing GNode.idx (fun n => !n.clean) ns).orElse (fun _ => failing GEdge.idx (fun e => bits 31 19 e.word != 0) es))
    have c11 := failing GEdge.idx (fun e => cfgModel (cfg e.zone) == 1 &&
      (cfgQty (cfg e.zone) != 0 || !(F.zero.lt (F.ofBits (BitVec.ofNat 64 (s.zoneSlot e.zone 15)))))) es
    have short := if eff < s.now + 131072 then some 0 else none
    ([(2, c2), (3, c3), (4, c4), (5, c5), (6, c6), (7, c7), (8, c8), (9, c9), (10, short), (11, c11)].findSome? (fun x =>
      x.2.map (fun i => (x.1, i))))

/-- A sum in ascending order that starts with its first term; +0.0 where it is empty (R148, R195). -/
def sumF : List F → F
  | [] => F.zero
  | x :: xs => xs.foldl F.add x

/-- The intermediates of R195 and the members of a zone. -/
def State.defineZone (s : State) (ns : List GNode) (es : List GEdge) (zone : Nat) : ZoneDef :=
  have zs := es.filter (fun e => e.zone == zone)
  have pi := F.ofBits 0x400921FB54442D18#64
  have heat := fun (e : GEdge) => (((F.ofBits (s.balance.insulation.getD e.cls 0)).mul pi).mul (F.ofBits e.bore)).mul (F.ofBits e.length)
  have amb := fun (e : GEdge) => s.fld (bankKey e.cls Reg.BALG_IC_AMB) 1 0
  { cfg := s.zoneSlot zone 0
    members := zoneMembers ns es zone
    slots := s.densitySlots zone
    volumes := (s.densitySlots zone).map (fun g => (g.1, (sumF ((zs.filter (fun e => e.slot == g.1)).map (fun e => F.ofBits e.volume))).bits))
    losses := (List.range 4).map (fun j => (sumF ((zs.filter (fun e => amb e == j)).map heat)).bits)
    edges := zs.map (fun e => ⟨e.idx, e.slot, e.volume, e.prior⟩)
    corr := s.balance.corr }

/-- Two definitions leave a zone unchanged (R191). -/
def sameZone (a b : ZoneDef) : Bool :=
  a.members.map (fun m => (m.ch, m.inflow)) == b.members.map (fun m => (m.ch, m.inflow)) && a.slots == b.slots &&
    a.volumes == b.volumes && a.losses == b.losses && a.cfg == b.cfg

end Sys2Proof.Machine
end

