-- ==== Sys2Proof/Machine/Schedule.lean ====
section
/-!
DEFINITION. The boundaries that billing and the Balance Engine request from the timebase (R193, R211, R214): the kinds
of every local minute of the next 48 hours, the instants they are requested as, and their withdrawal when their source
changes.
-/

namespace Sys2Proof.Machine

/-- A local minute lies on the demand grid of an image: a multiple of DLEN after local midnight (R214). -/
def Image.onGrid (img : Image) (m : Minute) : Bool := m.present && minuteOfDay m.civil % lengthMinutes img.dlenCode == 0

/-- The minute of a program's ACTIVATE boundary: the first DEMAND boundary at or after the activation instant of its
pending generation, on the grid in force, or on the pending one (R214). -/
def activateMinute (zs : List ZoneRule) (p : Program) : Option Minute :=
  match p.pending with
  | none => none
  | some new =>
    match mapCivil zs (Image.actCivil new) false with
    | none => none
    | some tai => (minutesIn zs (tai - 1) (tai + 14400)).find? (Image.onGrid (p.image.getD new))

/-- The kinds of a program's boundary at a local minute (R214, Table 11.4): before its ACTIVATE boundary by the image in
force, at it and after it by the pending one. -/
def Program.kindsAt (p : Program) (act : Option Minute) (m : Minute) : Nat :=
  have by' := fun (img : Option Image) => match img with | some i => i.kindsAt m | none => 0
  match act, p.pending with
  | some a, some new =>
    if m.tai < a.tai then by' p.image
    else if m.tai = a.tai ∧ m.civil = a.civil then (by' p.image ||| 1) + 8
    else by' (some new)
  | _, _ => by' p.image

/-- The interval lengths in use: those of valid entries, and those that wait for a period boundary (R208). -/
def State.ilensInUse (s : State) : List Nat :=
  s.billing.chans.foldl (fun l x =>
    if x.2.valid then (match x.2.nextW1 with | some w => insertUp (bits 30 28 w) (insertUp x.2.ilen l) | none => insertUp x.2.ilen l)
    else l) []

/-- The graphs that zones have still to change over to, the oldest first (R191). -/
def State.graphs (s : State) : List PendingGraph := s.balance.begun ++ s.balance.pending.toList

/-- The CIVIL zones in force or pending, with their CFG (R193). -/
def State.civilZones (s : State) : List (Nat × Nat) :=
  ((s.balance.zones.map (fun z => (z.1, z.2.defn.cfg))) ++
    s.graphs.flatMap (fun p => p.zones.map (fun z => (z.1, z.2.cfg)))).filter (fun z => cfgCivil z.2)

/-- An instant of the same owner, local time and occurrence is requested already. -/
def State.requested (s : State) (i : Instant) : Bool :=
  s.sweep.instants.any (fun x => x.2.owner == i.owner && x.2.civil == i.civil && x.2.second == i.second)
def State.requestNew (s : State) (i : Instant) : State := if s.requested i then s else s.requestInstant i

/-- The instants of a local minute are requested: of programs, of interval lengths, of CIVIL zones. Interval and DEMAND
boundaries occur at each occurrence of a repeated time and not at a skipped one (R211); windows occur at the first
occurrence, and at the transition where the time is skipped (R31). Civil time that a step back repeats requests nothing again (R218). -/
def State.requestMinute (s : State) (acts : SMap (Option Minute)) (m : Minute) : State :=
  if m.civil ≤ s.billing.livedTo then s
  else
  have s := s.billing.programs.foldl (fun s p =>
    have k := p.2.kindsAt (acts.getD p.1 none) m
    if k = 0 then s else s.requestNew { owner := .boundary p.1, civil := m.civil, second := m.second, kinds := k }) s
  have s := s.ilensInUse.foldl (fun s l =>
    if m.present ∧ minuteOfDay m.civil % lengthMinutes l = 0 then
      s.requestNew { owner := .interval l, civil := m.civil, second := m.second } else s) s
  if m.second then s
  else s.civilZones.foldl (fun s z =>
    if minuteOfDay m.civil % cfgMinutes z.2 = 0 then s.requestNew { owner := .window z.1, civil := m.civil } else s) s

/-- The boundaries up to a TAI second are requested (R214), from the minute up to which they have been. -/
def State.compileTo (s : State) (b : Int) : State :=
  have a := if s.billing.compiledTo = 0 then s.taiNow else s.billing.compiledTo
  if b ≤ a then s
  else
    have acts := s.billing.programs.map (fun x => (x.1, activateMinute s.sweep.zones x.2))
    have s := (minutesIn s.sweep.zones a b).foldl (fun s m => s.requestMinute acts m) s
    { s with billing := { s.billing with compiledTo := b } }

/-- The boundaries of the next 48 hours are requested (R214). -/
def State.compile (s : State) : State := if s.mapped then s.compileTo (s.taiNow + 172800) else s

/-- The requested instants of some owners that are not pinned and not past are withdrawn, and everything is compiled
again from now (R214). -/
def State.recompile (s : State) (owners : InstantOwner → Bool) : State :=
  have now := s.taiNow
  have s := { s with sweep := { s.sweep with instants := s.sweep.instants.filter (fun x =>
    !(owners x.2.owner) || x.2.pin.isSome ||
      (match s.instantTai x.2 with | some tai => decide (tai ≤ now) | none => true)) } }
  { s with billing := { s.billing with compiledTo := now } }.compile

/-- The owner is a program; an interval length; a zone. -/
def ownsProgram (n : Nat) : InstantOwner → Bool
  | .boundary m => m == n
  | _ => false
def ownsInterval : InstantOwner → Bool
  | .interval _ => true
  | _ => false
def ownsWindow : InstantOwner → Bool
  | .window _ => true
  | _ => false

/-- The pinned instants of an owner that are due, as (pin, identifier, instant) in order. -/
def State.dueInstants (s : State) (owners : InstantOwner → Bool) : List (Nat × Nat × Instant) :=
  sortBy (fun (a b : Nat × Nat × Instant) => decide (a.1 < b.1 ∨ a.1 = b.1 ∧ a.2.1 ≤ b.2.1)) (s.sweep.instants.filterMap (fun x =>
    match x.2.pin with
    | some at' => if owners x.2.owner && decide (at' ≤ s.now) then some (at', x.1, x.2) else none
    | none => none))

/-- Instants by identifier are done with. -/
def State.dropInstants (s : State) (ids : List Nat) : State :=
  { s with sweep := { s.sweep with instants := s.sweep.instants.filter (fun x => !(ids.contains x.1)) } }

end Sys2Proof.Machine
end

