-- ==== Sys2Proof/Machine/Balance.lean ====
section
/-!
DEFINITION. The Balance Engine: graph and parameter commits (R191, R192), windows and changeovers (R193), the imbalance
with its uncertainty (R195 to R197), detectors, alarms and learning (R198 to R202), localisation (R204), and the window
and alarm records (R203, R205, R206).
-/

namespace Sys2Proof.Machine

/-- The parameter slots 5 to 17 of a zone as committed, and the ambient temperatures (R192). -/
def State.liveParams (s : State) (zone : Nat) : SMap Nat := (List.range 13).map (fun i => (5 + i, s.zoneSlot zone (5 + i)))
def State.ambients (s : State) : List F64 := (List.range 4).map (fun j => s.balance.ambient.getD j 0)

/-- The state of a zone that starts or restarts (R202). -/
def freshRun (cfg base0 : Nat) : ZoneRun := { base := BitVec.ofNat 64 base0, warmLeft := cfgWarm cfg }

/-- A window opens: its start and number, and the parameters that take effect with it (R192, R193). -/
def State.openWindow (s : State) (id at' num : Nat) (z : Zone) : Zone :=
  { z with
    start := at'
    wnum := num
    params := s.liveParams id
    ambients := s.ambients }
def windowNumber (cfg at' count : Nat) : Nat := if cfgCivil cfg then count else at' / 65536 / max 1 (cfgCycles cfg)

def State.setZone (s : State) (id : Nat) (z : Zone) : State :=
  { s with balance := { s.balance with zones := s.balance.zones.put id z } }
/-- What a zone that is no more has evaluated. -/
def Zone.span (z : Zone) : List (Nat × Nat × List Nat) :=
  if z.since < z.evaluated then [(z.since, z.evaluated, z.defn.members.map (·.ch))] else []
/-- A zone leaves with its windows still to evaluate. -/
def State.retireZone (s : State) (id : Nat) (z : Zone) : State :=
  if z.ended.isEmpty then { s with balance := { s.balance with past := s.balance.past ++ z.span } }
  else { s with balance := { s.balance with retired := s.balance.retired ++ [(id, z)] } }
/-- The records of a zone without the states that went with them. -/
def Zone.plainSaves (z : Zone) : List (Nat × Option ZoneRun × Nat × List Byte) := z.saves.map (fun x => (x.1, none, x.2.2))
/-- BAL.STAT and the PENDING bit follow the graph. -/
def State.showGraph (s : State) : State :=
  (s.setReg Reg.BAL_STAT (s.balance.gen + s.balance.zones.length * 2 ^ 16)).setFlag Reg.BALG_GSTAT 30 (!s.graphs.isEmpty)

/-- A zone has changed over to a graph: its generation is in force from the first zone on, unless a newer one is; the graph ends with the
last one (R191). -/
def State.changedOver (s : State) (id : Nat) (p : PendingGraph) : State :=
  have q := { p with
    begun := true
    zones := p.zones.del id
    drops := p.drops.filter (· ≠ id) }
  have left := fun (g : PendingGraph) => if g = p then (if q.zones.isEmpty ∧ q.drops.isEmpty then none else some q) else some g
  { s with balance := { s.balance with
    gen := if s.balance.begun.contains p then s.balance.gen else p.gen
    begun := s.balance.begun.filterMap left
    pending := s.balance.pending.bind left } }.showGraph

/-- A new zone opens at a window start. -/
def State.newZone (s : State) (id at' gen : Nat) (d : ZoneDef) : Zone :=
  s.openWindow id at' (windowNumber d.cfg at' 0)
    { gen := gen, defn := d, params := [], ambients := [], start := at', wnum := 0, since := at'
      run := freshRun d.cfg (s.zoneSlot id 17) }

/-- A zone whose window has just opened at a boundary changes over to a graph that is in effect there: it goes on, restarts, or leaves
(R191). -/
def State.changeTo (s : State) (id at' : Nat) (p : PendingGraph) : State :=
  match s.balance.zones.find id with
  | none => s
  | some z =>
    if at' < p.eff then s
    else match p.zones.find id with
      | some d =>
        if sameZone z.defn d then (s.setZone id { z with
          defn := d
          gen := p.gen }).changedOver id p
        else ((s.retireZone id z).setZone id { s.newZone id at' p.gen d with
          record := z.record
          lastNum := z.lastNum
          saves := z.plainSaves }).changedOver id p
      | none =>
        if p.drops.contains id then
          have s := s.retireZone id z
          { s with balance := { s.balance with zones := s.balance.zones.del id } }.changedOver id p
        else s

/-- A window of a zone ends at a boundary, and the zone changes over there if the graphs that wait for it say so (R191, R193). -/
def State.windowEnd (s : State) (id at' : Nat) : State :=
  match s.balance.zones.find id with
  | none => s
  | some z =>
    if at' ≤ z.start then s
    else
      have next := s.openWindow id at' (windowNumber z.defn.cfg at' (z.wnum + 1))
        { z with ended := z.ended ++ [⟨z.start, at', z.wnum, z.params, z.ambients, z.defn⟩] }
      s.graphs.foldl (fun (s : State) p => s.changeTo id at' p) (s.setZone id next)

/-- The window starts of a CYCLE zone are processed up to the current tick (R193). -/
def State.cycleWindows (s : State) (id : Nat) : Nat → State
  | 0 => s
  | fuel + 1 =>
    match s.balance.zones.find id with
    | none => s
    | some z =>
      have w := max 1 (cfgCycles z.defn.cfg)
      have at' := (z.start / 65536 / w + 1) * w * 65536
      if cfgCivil z.defn.cfg ∨ s.now < at' then s else (s.windowEnd id at').cycleWindows id fuel

/-- A zone that a graph adds opens at its first window start at or after GEFF, unless a later graph is in effect for it there (R191). -/
def State.openAt (s : State) (id at' : Nat) (p : PendingGraph) : State :=
  match p.zones.find id with
  | none => s
  | some d =>
    if (s.balance.zones.find id).isSome ∨ at' < p.eff ∨ s.now < at' then s
    else match s.graphs.find? (fun q => decide (p.eff < q.eff) && decide (q.eff ≤ at')) with
      | some q => if q.drops.contains id then (s.changedOver id p).changedOver id q else s.changedOver id p
      | none => (s.setZone id (s.newZone id at' p.gen d)).changedOver id p

/-- A CIVIL window end that is due: the zone's window ends, or a zone that only a waiting graph has opens (R193, R191). -/
def State.civilEnd (s : State) (at' : Nat) (i : Instant) : State :=
  match i.owner with
  | .window id =>
    have civil := match s.balance.zones.find id with
      | some z => cfgCivil z.defn.cfg
      | none => s.graphs.any (fun p => match p.zones.find id with | some d => cfgCivil d.cfg | none => false)
    if !civil then s
    else if (s.balance.zones.find id).isSome then s.windowEnd id at'
    else s.graphs.foldl (fun (s : State) p => s.openAt id at' p) s
  | _ => s

/-- The CYCLES zones of a waiting graph open at their first window start (R191). -/
def State.openPending (s : State) (p : PendingGraph) : State :=
  p.zones.foldl (fun s z =>
    have w := max 1 (cfgCycles z.2.cfg)
    if cfgCivil z.2.cfg then s else s.openAt z.1 (ceilDiv (ceilDiv p.eff 65536) w * w * 65536) p) s

/-- Every window start up to the current tick is processed: the pinned ones of CIVIL zones in order, and those of CYCLE
zones. -/
def State.advanceWindows (s : State) : State :=
  have due := s.dueInstants ownsWindow
  have s := due.foldl (fun s x => s.civilEnd x.1 x.2.2) s
  have s := s.dropInstants (due.map (·.2.1))
  have s := s.graphs.foldl State.openPending s
  (SMap.keys s.balance.zones).foldl (fun s id => s.cycleWindows id (s.cycle + 2)) s

/-- An accepted image becomes the pending graph (R191). It takes the place of one that no zone has taken; one that has taken effect in a
zone goes on in the others. -/
def State.takeGraph (s : State) (eff : Nat) (g : GraphImage) : State :=
  have zones := (zonesOf g.edgeList).map (fun z => (z, s.defineZone g.nodeList g.edgeList z))
  have begun := s.graphs.filter (·.begun)
  have known := (SMap.keys s.balance.zones ++ begun.flatMap (fun p => SMap.keys p.zones)).eraseDups
  have drops := known.filter (fun z => (SMap.find zones z).isNone)
  { s with balance := { s.balance with
    begun := begun
    pending := some { gen := g.gen, eff := eff, zones := zones, drops := drops } } }.showGraph

/-- GRAPH_COMMIT (R191, Table 10.4); the image stands in the BAR2 window. -/
def effGraphCommit (s : State) : WriteResult :=
  have s := s.advanceWindows
  have len := s.reg Reg.BALG_GIMG_LEN
  have eff := s.reg64 Reg.BALG_GEFF_LO Reg.BALG_GEFF_HI
  have g := s.load (s.reg Reg.BALG_GIMG_OFS) len
  have ending := fun (s : State) (result code idx : Nat) =>
    (((s.setFld Reg.BALG_GSTAT 29 28 result).setFld Reg.BALG_GSTAT 7 0 code).setReg Reg.BALG_GERR idx).raise 0x31 0
  match s.checkGraph g len eff with
  | some (code, idx) => .done (ending s 2 code idx)
  | none =>
    .done (ending (((s.journal 0x24 (leBytes 8 eff ++ g)).takeGraph eff g).recompile ownsWindow) 1 0 0)

/-- GRAPH_DROP (R191): only a pending graph that has not taken effect in any zone. -/
def effGraphDrop (s : State) : WriteResult :=
  have s := s.advanceWindows
  match s.balance.pending with
  | some p =>
    if p.begun then .discard s 0x09
    else
      have s := { s with balance := { s.balance with pending := none } }.showGraph
      .done (((s.setFld Reg.BALG_GSTAT 29 28 1).setFld Reg.BALG_GSTAT 7 0 0).raise 0x31 0)
  | none => .discard s 0x09

def effGcmd (v : Word) (s : State) : WriteResult :=
  have cmd := bits 1 0 v.toNat
  if cmd = 1 then effGraphCommit s else if cmd = 2 then effGraphDrop s else .ignored s

def execGraphCommit (t : Angle) (p : Path) (img : List Byte) (s : State) : Outcome :=
  have s := s.tick t
  .next ((s.store (s.reg Reg.BALG_GIMG_OFS) img).hostWrite p 0x31 0x050 (effGcmd 1))
def execGraphDrop (t : Angle) (p : Path) (s : State) : Outcome :=
  .next ((s.tick t).hostWrite p 0x31 0x050 (effGcmd 2))

/-- A committed parameter of the Balance Engine takes its place: a zone slot, an insulation class, an ambient temperature or a
correlation group, by the register that commits it. -/
def Balance.put (b : Balance) (k i x : Nat) : Balance :=
  if k = Reg.BALG_ZP_HI then { b with slots := b.slots.put i x }
  else if k = Reg.BALG_IC_HI then { b with insulation := b.insulation.put i (BitVec.ofNat 64 x) }
  else if k = Reg.BALG_TAMB0_HI then { b with ambient := b.ambient.put i (BitVec.ofNat 64 x) }
  else if k = Reg.BALG_CG_HI then { b with corr := b.corr.put i (BitVec.ofNat 64 x) }
  else b
/-- It is journalled as a CONFIG record (log 27). -/
def State.balanceConfig (s : State) (k i x : Nat) : State :=
  have s := s.journal 0x26 (leBytes 4 k ++ leBytes 4 i ++ leBytes 8 x)
  { s with balance := s.balance.put k i x }

/-- ZONE_PARAM_COMMIT (R192): a write of ZP_HI. -/
def effZpHi (v : Word) (s : State) : WriteResult :=
  have zone := s.fld Reg.BALG_ZP_ZONE 11 0
  have slot := s.fld Reg.BALG_ZP_SLOT 4 0
  have x := s.reg Reg.BALG_ZP_LO + 2 ^ 32 * v.toNat
  if !slotInRange slot x then .discard s 0x0B
  else
    have s := s.advanceWindows
    .done ((s.setReg Reg.BALG_ZP_HI v.toNat).balanceConfig Reg.BALG_ZP_HI (zone * 32 + slot) x)

def execZoneParamCommit (t : Angle) (p : Path) (v : Word) (s : State) : Outcome :=
  .next ((s.tick t).hostWrite p 0x31 0x06C (effZpHi v))

/-- A binary64 value whose low word has been staged. -/
def State.staged64 (s : State) (klo : Nat) (v : Word) : F64 := BitVec.ofNat 64 (s.reg klo + 2 ^ 32 * v.toNat)

/-- A commit of IC_HI (R195): a negative value is discarded. -/
def effIcHi (v : Word) (s : State) : WriteResult :=
  have cls := s.fld Reg.BALG_IC_SEL 3 0
  have x := s.staged64 (bankKey cls Reg.BALG_IC_LO) v
  if negative x then .discard s 0x0B
  else
    .done ((s.setReg (bankKey cls Reg.BALG_IC_HI) v.toNat).balanceConfig Reg.BALG_IC_HI cls x.toNat)
/-- A commit of the high word of TAMBj: it takes effect at each zone's next window start. -/
def effTambHi (j : Nat) (v : Word) (s : State) : WriteResult :=
  have x := s.staged64 (Reg.BALG_TAMB0_LO + 8 * j) v
  have s := s.advanceWindows
  .done ((s.setReg (Reg.BALG_TAMB0_HI + 8 * j) v.toNat).balanceConfig Reg.BALG_TAMB0_HI j x.toNat)
/-- A commit of CG_HI: r(g) between 0 and 1, for the groups 1 to 255. -/
def effCgHi (v : Word) (s : State) : WriteResult :=
  have g := s.fld Reg.BALG_CG_SEL 7 0
  have x := s.staged64 (bankKey g Reg.BALG_CG_LO) v
  if !(F.zero.le (F.ofBits x) && (F.ofBits x).le (F.ofNat 1)) ∨ g = 0 then .discard s 0x0B
  else
    .done ((s.setReg (bankKey g Reg.BALG_CG_HI) v.toNat).balanceConfig Reg.BALG_CG_HI g x.toNat)

/-- BALANCE_PARAM_COMMIT: a write of IC_HI, of the high word of TAMB0 to TAMB3, or of CG_HI. -/
def effBalanceParam (which : BalanceParam) (v : Word) (s : State) : WriteResult :=
  match which with
  | .insulation => effIcHi v s
  | .ambient j => effTambHi j.val v s
  | .correlation => effCgHi v s
def balanceOff : BalanceParam → Nat
  | .insulation => 0x078
  | .ambient j => 0x084 + 8 * j.val
  | .correlation => 0x0A8
def execBalanceParamCommit (t : Angle) (p : Path) (which : BalanceParam) (v : Word) (s : State) : Outcome :=
  .next ((s.tick t).hostWrite p 0x31 (balanceOff which) (effBalanceParam which v))

/-- ZONE_RESTART (R202): active alarms clear without a record. -/
def effZreset (v : Word) (s : State) : WriteResult :=
  if !bit 0 v.toNat then .ignored s
  else
    have s := s.advanceWindows
    have id := s.fld Reg.BAL_ZSEL 11 0
    match s.balance.zones.find id with
    | none => .done s
    | some z => .done ((s.retireZone id z).setZone id { z with
        ended := []
        saves := z.plainSaves
        run := freshRun z.defn.cfg (z.params.getD 17 0) })

def execZoneRestart (t : Angle) (p : Path) (v : Word) (s : State) : Outcome :=
  .next ((s.tick t).hostWrite p 0x30 0x100 (effZreset v))

/-- The larger of two values (R195). -/
def maxF (a b : F) : F := if a.lt b then b else a

/-- The points and register records of a channel that lie in a window. -/
def State.pointsIn (s : State) (w : Window) (ch : Nat) : List PointEvent :=
  (s.fca.events.getD ch []).filter (fun e => decide (w.start ≤ e.t) && decide (e.t < w.stop))
/-- The member is fed by register data at the window's end. -/
def State.regFed (s : State) (ch t : Nat) : Bool :=
  match s.liveDesc ch t with | some e => Desc.method e.raw == 6 | none => false
/-- A member is late (R194). -/
def State.memberLate (s : State) (w : Window) (ch : Nat) : Bool :=
  have evs := s.fca.events.getD ch []
  if s.regFed ch (w.stop - 1) then !(evs.any (fun e => e.t + 1 == w.stop)) else !(evs.any (fun e => decide (w.stop ≤ e.t)))
/-- The density of a slot channel at a boundary (R196): of its last point with a rate at or before it. -/
def State.densityAt (s : State) (ch t : Nat) : Option F64 :=
  (((s.fca.events.getD ch []).filter (fun e => e.has && decide (e.t ≤ t))).foldl (fun (m : Option PointEvent) e =>
    match m with | none => some e | some x => if x.t < e.t then some e else some x) none).map (·.rho)

/-- A span of cycles of a period record holds an entry with REFQ set. -/
def freeIn (rs : List PeriodRun) (a b : Int) : Bool :=
  rs.any (fun r => decide (r.entry / 4 % 2 = 1) && decide ((r.first : Int) ≤ b) && decide (a < (r.first : Int) + r.count))
/-- The correspondence of a leaf's cycles to those of a span of sweep time is unverified: D is not known, or an entry of either module
carries REFQ (R29). -/
def State.unverIn (s : State) (leaf a b : Nat) : Bool :=
  have x := s.leaf leaf
  have lo : Int := a / 65536
  have hi : Int := (b - 1) / 65536
  !x.known || freeIn s.sweep.record lo hi || freeIn x.record (lo - x.offset) (hi - x.offset)

/-- What the evaluation of a window gives (R195 to R197). -/
structure WindowVals where
  qin : F
  qout : F
  dlp : F
  loss : F
  imb : F
  sigma : F
  dt : F
  hasDt : Bool
  flags : Nat
  chan : Nat
  rhoEnd : SMap F64

/-- A parameter of a window as binary64. -/
def Window.par (w : Window) (slot : Nat) : F := F.ofBits (BitVec.ofNat 64 (w.params.getD slot 0))

/-- The imbalance of a window and its combined standard uncertainty (R195, R197), with the flags QUAL, LATE, NODEN, GAP,
UNVER, NOLP, WARM and XCHK in bits 0 to 7 (Table 10.6). -/
def State.windowVals (s : State) (w : Window) (run : ZoneRun) : WindowVals :=
  haveI := F.hAdd; haveI := F.hSub; haveI := F.hMul; haveI := F.hDiv
  let d := w.defn
  let mass := cfgQty d.cfg == 0
  let model := cfgModel d.cfg
  let span := spanOf s.sweep.record w.start w.stop
  let dt := match span with | some x => spanSeconds x.1 | none => F.zero
  let q := fun (m : Member) => (F.ofInt ((s.pointsIn w m.ch).foldl (fun (a : Int) e => a + e.q) 0)).scalb (-40)
  let qs := d.members.map (fun m => (m, q m))
  let qin := sumF ((qs.filter (fun x => x.1.inflow)).map (·.2))
  let qout := sumF ((qs.filter (fun x => !x.1.inflow)).map (·.2))
  let chans := (d.members.map (·.ch)).eraseDups
  let watched := (chans ++ SMap.vals d.slots).eraseDups
  let suspect := sortBy (fun (a b : Nat) => decide (a ≤ b)) (watched.filter (fun ch => (s.pointsIn w ch).any (fun e => (cfgSupp d.cfg).testBit e.qual)))
  let lates := chans.filter (s.memberLate w)
  let noden := if mass then (d.slots.filter (fun g =>
      !((s.pointsIn w g.2).any (·.has)) || (!run.first && (s.densityAt g.2 w.start).isNone))).map (·.2) else []
  let rhoEnd : SMap F64 := d.slots.filterMap (fun g => (s.densityAt g.2 w.stop).map (fun r => (g.1, r)))
  let dlp := if mass ∧ !run.first ∧ noden.isEmpty then
      sumF (d.slots.map (fun g =>
        F.ofBits (d.volumes.getD g.1 0) * (F.ofBits (rhoEnd.getD g.1 0) - F.ofBits ((s.densityAt g.2 w.start).getD 0)) * F.ofNat 1000))
    else F.zero
  let fix := w.par 16 * dt
  let steam := fun (loss : F) (j : Nat) =>
    loss + F.ofBits (d.losses.getD j 0) * maxF (w.par 14 - F.ofBits (w.ambients.getD j 0)) F.zero / w.par 15 * dt
  let loss := if model = 1 then (List.range 4).foldl steam fix else fix
  let loss := if model = 2 then loss + F.ofBits run.base * dt else loss
  let imb := qin - qout - dlp - loss
  let u := fun (x : Member × F) => maxF (F.ofBits x.1.uRel * x.2.abs) (F.ofBits x.1.uFloor * dt)
  let alone := (qs.filter (fun x => x.1.group == 0)).map (fun x => u x * u x)
  let groups := ((qs.map (fun x => x.1.group)).filter (· ≠ 0)).foldl (fun l g => insertUp g l) []
  let terms := alone ++ groups.map (fun g =>
    let ms := qs.filter (fun x => x.1.group == g)
    let a := sumF (ms.map (fun x => u x * u x))
    let b := sumF (ms.map (fun x => (if x.1.inflow then F.ofNat 1 else (F.ofNat 1).neg) * u x))
    let r := F.ofBits (d.corr.getD g 0)
    (F.ofNat 1 - r) * a + r * b * b)
  let ulp := w.par 12 * dlp.abs
  let uloss := w.par 13 * loss
  let var := sumF terms + ulp * ulp + uloss * uloss
  let unver := d.members.any (fun m => match s.liveDesc m.ch w.start with
    | some e => Desc.leaf e.raw != 0 && s.unverIn (Desc.leaf e.raw) w.start w.stop
    | none => false)
  { qin := qin, qout := qout, dlp := dlp, loss := loss, imb := imb, sigma := var.sqrt, dt := dt, hasDt := span.isSome
    flags := b2n (!suspect.isEmpty) + 2 * b2n (!lates.isEmpty) + 4 * b2n (!noden.isEmpty) +
      8 * b2n (match span with | some x => x.2 | none => true) + 16 * b2n unver + 32 * b2n run.first +
      64 * b2n (decide (0 < run.warmLeft)) + 128 * b2n (s.nv.role == 1)
    chan := (suspect ++ lates ++ noden).headD 0
    rhoEnd := rhoEnd }

/-- The candidate edges of an alarm record (R204), and NOLOC. -/
def candidates (d : ZoneDef) (imb : F) (means rhoEnd : SMap F64) : List Nat × Bool :=
  haveI := F.hSub; haveI := F.hMul; haveI := F.hDiv
  let sg := if F.zero.lt imb then F.ofNat 1 else (F.ofNat 1).neg
  let drop := fun (g : Nat) =>
    match means.find g, rhoEnd.find g with
    | some m, some r => if cfgQty d.cfg = 0 then maxF F.zero (sg * (F.ofBits m - F.ofBits r) / F.ofBits m) else F.zero
    | _, _ => F.zero
  let order := fun (l : List (Nat × F)) =>
    (sortBy (fun (a b : Nat × F) => b.2.lt a.2 || (!(a.2.lt b.2) && decide (a.1 ≤ b.1))) (l.filter (fun x => F.zero.lt x.2))).map (·.1)
  let named := order (d.edges.map (fun e => (e.idx, F.ofBits e.prior * drop e.slot)))
  if named.isEmpty then ((order (d.edges.map (fun e => (e.idx, F.ofBits e.prior * F.ofBits e.volume)))).take 8, true)
  else (named.take 8, false)

/-- What a detector did in a window: its index, whether the record is of kind CLEAR, its statistic and its limit. -/
structure AlarmAct where
  det : Nat
  clear : Bool
  stat : F
  limit : F

/-- An alarm follows its detector (R199): active alarm bit, quiet count, and the record it writes. -/
def follow (det : Nat) (active fire : Bool) (quiet clr : Nat) (stat limit : F) : Bool × Nat × List AlarmAct :=
  if fire then (true, 0, if !active || det == 1 then [⟨det, false, stat, limit⟩] else [])
  else if active then (if clr ≤ quiet + 1 then (false, 0, [⟨det, true, stat, limit⟩]) else (true, quiet + 1, []))
  else (false, 0, [])

/-- The detectors and the learned values of a counting window (R198 to R200, R202): the zone's state after it, and the
alarm records. -/
def runDetectors (w : Window) (v : WindowVals) (run : ZoneRun) : ZoneRun × List AlarmAct :=
  haveI := F.hAdd; haveI := F.hSub; haveI := F.hMul; haveI := F.hDiv
  let cfg := w.defn.cfg
  let z := v.imb / v.sigma
  let r := v.imb / v.dt
  let e := match run.e with | none => r | some e => F.ofBits e + w.par 8 * (r - F.ofBits e)
  let warm := decide (0 < run.warmLeft)
  let sp := maxF F.zero (F.ofBits run.sp + z - w.par 6)
  let sn := maxF F.zero (F.ofBits run.sn - z - w.par 6)
  let ksig := (w.par 5).lt z.abs
  let pos := (w.par 7).lt sp
  let neg := (w.par 7).lt sn
  let lim := w.par 9 * (v.sigma / v.dt) * (w.par 8 / (F.ofNat 2 - w.par 8)).sqrt
  let act := fun (i : Nat) => run.active.getD i false
  let step := fun (i : Nat) (fire : Bool) (stat limit : F) => follow i (act i) fire (run.quiet.getD i 0) (cfgClear cfg) stat limit
  let a := step 0 ksig z (w.par 5)
  let b := step 1 (pos || neg) (if pos then sp else sn) (w.par 7)
  let c := step 2 (lim.lt e.abs) e lim
  let was := act 0 || act 1 || act 2
  let run' := if warm then { run with e := some e.bits, warmLeft := run.warmLeft - 1 }
    else { run with
      e := some e.bits
      sp := (if pos then F.zero else sp).bits
      sn := (if neg then F.zero else sn).bits
      active := [a.1, b.1, c.1]
      quiet := [a.2.1, b.2.1, c.2.1] }
  let acts := if warm then [] else a.2.2 ++ b.2.2 ++ c.2.2
  let learn := !was && !(run'.active.any id)
  let run' := if learn then { run' with
      means := v.rhoEnd.foldl (fun m g => m.put g.1 (match run.means.find g.1 with
        | none => g.2
        | some x => (F.ofBits x + w.par 10 * (F.ofBits g.2 - F.ofBits x)).bits)) run'.means
      base := if cfgModel cfg = 2 then
          (let rr := (v.qin - v.qout - v.dlp - w.par 16 * v.dt) / v.dt
           (F.ofBits run.base + w.par 11 * (rr - F.ofBits run.base)).bits)
        else run.base }
    else run'
  (run', acts)

/-- An alarm record (Table 10.8) enters the ring and the ledger (R199, R206). -/
def State.alarm (s : State) (id : Nat) (w : Window) (v : WindowVals) (cands : List Nat × Bool) (a : AlarmAct) : State :=
  have word := id + a.det * 2 ^ 12 + b2n (v.imb.lt F.zero) * 2 ^ 14 + b2n a.clear * 2 ^ 15 + cands.1.length * 2 ^ 16 +
    b2n cands.2 * 2 ^ 20 + b2n (v.flags.testBit 7) * 2 ^ 21
  have tail := leBytes 4 w.num ++ leBytes 8 a.stat.bits.toNat ++ leBytes 8 a.limit.bits.toNat ++
    (cands.1.flatMap (leBytes 4) ++ zeros 32).take 32
  have wr := s.fld Reg.BAL_AL_WR 9 0
  have s := if (s.balance.alarms.find wr).isSome then (s.bump Reg.BAL_AL_OVF).raise 0x30 4 else s
  have s := { s with balance := { s.balance with alarms := s.balance.alarms.put wr (leBytes 8 w.stop ++ leBytes 4 word ++ tail) } }
  have s := (s.setFld Reg.BAL_AL_WR 9 0 (wr + 1)).bump Reg.BAL_AL_TOT
  (s.journal 0x05 (leBytes 8 w.stop ++ leBytes 4 (2 ^ 24 + word) ++ tail)).raise 0x30 (if a.clear then 3 else 2)

/-- The window record (Table 10.7). -/
def windowRecord (id : Nat) (w : Window) (v : WindowVals) (run : ZoneRun) : List Byte :=
  have f := fun (x : F) => leBytes 8 (if v.hasDt then x.bits.toNat else 0)
  have act := b2n (run.active.getD 0 false) + 2 * b2n (run.active.getD 1 false) + 4 * b2n (run.active.getD 2 false)
  leBytes 8 w.start ++ leBytes 8 w.stop ++ leBytes 8 v.qin.bits.toNat ++ leBytes 8 v.qout.bits.toNat ++ leBytes 8 v.dlp.bits.toNat ++
    f v.loss ++ f v.imb ++ f v.sigma ++
    leBytes 8 run.sp.toNat ++ leBytes 8 run.sn.toNat ++ leBytes 8 ((run.e.getD 0).toNat) ++ leBytes 8 run.base.toNat ++
    leBytes 4 (id + (if v.flags.testBit 6 then 1 else 2) * 2 ^ 12 + v.flags * 2 ^ 16 + act * 2 ^ 28) ++ leBytes 4 w.num ++
    leBytes 4 v.chan ++ zeros 4 ++ f v.dt ++ zeros 8

/-- An evaluated window leaves its zone changed: in force, or the oldest retired one of its number, whose record is then the last one of
the zone in force (R205). -/
def State.putEvaluated (s : State) (id : Nat) (retired : Bool) (z : Zone) : State :=
  if retired then
    { s with balance := { s.balance with
      zones := s.balance.zones.modify id (fun y => { y with
        record := z.record
        lastNum := z.lastNum
        saves := z.plainSaves.take 1 ++ y.saves })
      past := if z.ended.isEmpty then s.balance.past ++ z.span else s.balance.past
      retired := (match s.balance.retired.findIdx? (fun x => x.1 == id) with
        | some i => if z.ended.isEmpty then s.balance.retired.eraseIdx i else s.balance.retired.set i (id, z)
        | none => s.balance.retired) } }
  else s.setZone id z

/-- The mirrored record of a window (R203, R207): it is the last one of its zone at the STANDBY twin, and goes with the state that the twin's
own evaluation of the window has left. -/
def State.mirrorWindow (s : State) (rsn : Nat) (body : List Byte) : State :=
  have id := leAt body 0x60 4 % 2 ^ 12
  have stop := leAt body 8 8
  { s with balance := { s.balance with zones := s.balance.zones.modify id (fun z => { z with
    record := body
    lastNum := leAt body 0x64 4
    saves := (rsn, (z.silent.find? (fun x => x.1 == stop)).map (·.2), stop, body) :: z.saves.take 64 }) } }

/-- The state after a window that a STANDBY twin has evaluated: it goes with the mirrored record of the window, before or after it. -/
def Zone.keepSilent (z : Zone) (stop : Nat) (run : ZoneRun) : Zone :=
  { z with
    silent := (stop, run) :: z.silent.take 7
    saves := z.saves.map (fun (x : Nat × Option ZoneRun × Nat × List Byte) =>
      if x.2.2.1 = stop ∧ x.2.1.isNone then (x.1, some run, x.2.2) else x) }

/-- A window of a zone is evaluated and its record written (R194 to R203). A STANDBY twin writes nothing (R207), and a read-only store takes
no record (R238). -/
def State.evaluateWindow (s : State) (id : Nat) (retired : Bool) (z : Zone) (w : Window) : State :=
  have v := s.windowVals w z.run
  have counts := v.flags &&& 0x9F == 0 && v.hasDt
  have r := if counts then runDetectors w v z.run else (z.run, [])
  have run := { r.1 with first := false }
  have body := windowRecord id w v run
  have z := { z with
    ended := z.ended.drop 1
    evaluated := w.stop
    run := run }
  if !s.serves then s.putEvaluated id retired (z.keepSilent w.stop run)
  else
    have z := { z with
      record := body
      lastNum := w.num }
    have s := if counts then s.sample (0x40 + 3 * cfgQty w.defn.cfg + cfgModel w.defn.cfg)
      (((v.imb.div v.sigma).mul (F.ofNat 100)).scalb (-40)).toFixed.1 else s
    have cands := candidates w.defn v.imb z.run.means v.rhoEnd
    have s := r.2.foldl (fun s a => s.alarm id w v cands a) s
    have a := s.append 0x22 body
    have s := a.2.bump Reg.BAL_WIN_TOT
    have s := if s.flag Reg.BAL_CFG 1 then s.raise 0x30 0 else s
    s.putEvaluated id retired (if a.1 = 0 then z else { z with saves := (a.1, some run, w.stop, body) :: (z.saves.take 64) })

/-- The start of a window lies in cycles that carry GAP entries and the window has no point: it gets no record (R203). -/
def State.skipsWindow (s : State) (w : Window) : Bool :=
  s.gapIn w.start (w.start + 1) && !(w.defn.members.any (fun m => !(s.pointsIn w m.ch).isEmpty))

/-- The window of a zone that is due: of its oldest retired copy, else of the zone in force (R194). -/
def State.dueWindow (s : State) (id : Nat) : Option (Bool × Zone × Window) :=
  have of := fun (old : Bool) (z : Zone) =>
    match z.ended with
    | w :: _ => if w.stop + cfgWait w.defn.cfg * 65536 ≤ s.now then some (old, z, w) else none
    | [] => none
  match (s.balance.retired.find? (fun x => x.1 == id)).bind (fun x => of true x.2) with
  | some x => some x
  | none => (s.balance.zones.find id).bind (of false)

/-- Windows without a record are dropped, and the first other one that is due is evaluated. -/
def State.evaluateDue (s : State) (id : Nat) : Nat → State
  | 0 => s
  | fuel + 1 =>
    match s.dueWindow id with
    | none => s
    | some (old, z, w) =>
      if !s.flag Reg.BAL_CFG 0 || s.skipsWindow w then
        (s.putEvaluated id old { z with ended := z.ended.drop 1, evaluated := w.stop }).evaluateDue id fuel
      else s.evaluateWindow id old z w

/-- WINDOW_EVALUATE (R194). -/
def execWindowEvaluate (t : Angle) (zone : BitVec 12) (s : State) : Outcome :=
  have s := (s.tick t).advanceWindows
  .next (s.evaluateDue zone.toNat (s.cycle + 2))

/-- The zone window (Table 10.11). -/
def State.zone (s : State) : Option Zone := s.balance.zones.find (s.fld Reg.BAL_ZSEL 11 0)
def State.readZstat (s : State) : Nat :=
  match s.zone with
  | none => 0
  | some z => (if 0 < z.run.warmLeft then 1 else 2) * 2 ^ 30 +
      (b2n (z.run.active.getD 0 false) + 2 * b2n (z.run.active.getD 1 false) + 4 * b2n (z.run.active.getD 2 false)) * 2 ^ 27 +
      z.run.warmLeft * 2 ^ 16
def State.readZwnum (s : State) : Nat := (s.zone.map (·.lastNum)).getD 0
def State.readZrec (s : State) (i : Nat) : Nat := (s.zone.map (fun z => leAt z.record (4 * i) 4)).getD 0
def State.readAlarm (s : State) (i : Nat) : Nat := leAt (s.balance.alarms.getD (s.fld Reg.BAL_AL_RD 9 0) []) (4 * i) 4

/-- The state of one zone after a restart (R203, R372): that of its last committed window record where the graph, the checkpoint and the
length of the outage allow it; else the zone restarts, with the BASE0 in force. A record that the shutdown commit voided is lost. -/
def State.restoreZone (s : State) (committed since gap gapSeconds id : Nat) (z : Zone) : State :=
  have short := if cfgCivil z.defn.cfg then decide (gapSeconds ≤ cfgMinutes z.defn.cfg * 60) else decide (gap ≤ cfgCycles z.defn.cfg)
  have fresh := freshRun z.defn.cfg (z.params.getD 17 0)
  have good := fun (rsn : Nat) => decide (rsn ≤ committed) && !(((s.led.recs.find rsn).map (·.void)).getD false)
  have last := z.saves.find? (fun r => good r.1)
  have body := (last.map (·.2.2.2)).getD []
  s.setZone id { z with
    record := body
    lastNum := leAt body 0x64 4
    run := match last with
      | some (_, some run, stop, _) => if short && decide (since ≤ stop) then run else fresh
      | _ => fresh }

/-- The zone states at start-up (R372). `committed` is the last committed RSN, `since` the sweep time of the last checkpoint, and `gap`
the GAP cycles of the outage with their duration in seconds. -/
def State.restoreZones (s : State) (committed since gap gapSeconds : Nat) : State :=
  s.balance.zones.foldl (fun s x => s.restoreZone committed since gap gapSeconds x.1 x.2) s

end Sys2Proof.Machine
end

