-- ==== Sys2Proof/Machine/Tariff.lean ====
section
/-!
DEFINITION. The channel table (R208), interval closes (R211, R212, R181, R187), tariff program commands (R213, R214),
program boundaries (R46, R215 to R217, R221), and what a civil step does to billing (R218, R219).
-/

namespace Sys2Proof.Machine

/-- PWR_FAIL_WARN has stopped acceptance and processing (R47, R217). -/
def State.pfStop (s : State) : Bool := s.flag Reg.SLALOM_STATUS 29

/-- A channel stands in a net-energy pair, by a descriptor in force or pending (R181). -/
def State.netPaired (s : State) (ch : Nat) : Bool :=
  s.fca.live.any (fun x => x.2.any (fun e =>
    Desc.netMode e.raw == 1 && (x.1 == ch || Desc.pairCh e.raw == ch) && s.liveDesc x.1 (max s.now e.eff) == some e))

/-- The lowest refusal code of a channel-table write (Table 11.7), 0 where it is accepted. -/
def State.channelCheck (s : State) (ch w0 w1 : Nat) : Nat :=
  have c : BillChan := { w0 := w0, w1 := w1 }
  have other := fun (x : Nat × BillChan) =>
    x.1 != ch && x.2.valid && x.2.key == c.key && (s.regFed ch s.now || s.regFed x.1 s.now)
  if 4 < c.ilen then 1
  else if match c.prog with | some n => (s.prog n).image.isNone && (s.prog n).pending.isNone | none => false then 2
  else if match c.acct with | some a => bit 31 (s.acCfg a) && c.prog != some (bits 21 16 (s.acCfg a)) | none => false then 3
  else if s.billing.chans.any other then 4
  else match s.billChan ch with
    | some old =>
      if old.valid ∧ bits 30 28 (old.nextW1.getD old.w1) ≠ c.ilen ∧ s.netPaired ch then 5 else 0
    | none => 0

/-- A changed ILEN or PROG takes effect in an entry (R208); the open demand interval of the new program is PART for the
channel. -/
def State.applyW1 (s : State) (c : BillChan) (w1 : Nat) : BillChan :=
  have d := { c with
    w1 := w1
    nextW1 := none }
  if d.prog = c.prog then d
  else { d with
    demand := []
    joined := d.prog.map (fun n => (s.prog n).dnum)
    charged := match d.prog with
      | some n => if (d.charged.find n).isSome then d.charged else d.charged.put n d.regs
      | none => d.charged }

/-- CHANNEL_TABLE_WRITE (R208, R211). -/
def State.writeChannel (s : State) (ch w0 w1 : Nat) : State :=
  have fresh : BillChan :=
    { w0 := w0, w1 := w1, start := s.now, joined := (BillChan.prog { w0 := w0, w1 := w1 }).map (fun n => (s.prog n).dnum) }
  have s := s.journal 0x26 (leBytes 4 ch ++ leBytes 4 w0 ++ leBytes 4 w1)
  have s := match s.billChan ch with
    | none => s.setBillChan ch fresh
    | some c =>
      if !c.valid then
        s.setBillChan ch (s.applyW1 { c with
          w0 := w0
          valid := true
          start := s.now
          units := 0
          qual := 0
          part := true
          step := false
          joined := c.prog.map (fun n => (s.prog n).dnum) } w1)
      else
        have ilenProg := bits 30 28 w1 * 2 ^ 28 + bits 23 16 w1 * 2 ^ 16
        have held := setBits 15 0 w1 c.w1
        have c := { c with w0 := w0 }
        if setBits 15 0 0 held = ilenProg then s.setBillChan ch { c with
          w1 := w1
          nextW1 := none }
        else if c.prog.isNone then s.setBillChan ch (s.applyW1 c w1)
        else s.setBillChan ch { c with
          w1 := held
          nextW1 := some w1 }
  s.recompile ownsInterval

/-- Billing of a channel ends (R208). -/
def State.invalidateChannel (s : State) (ch : Nat) : State :=
  match s.billChan ch with
  | some c => if c.valid then (s.setBillChan ch { c with valid := false }).journal 0x26 (leBytes 4 ch ++ zeros 8) else s
  | none => s

/-- CT_CMD (R208): WRITE, READ, INVALIDATE. -/
def effCtCmd (v : Word) (s : State) : WriteResult :=
  have ch := s.fld Reg.BILL_CT_CH 19 0
  have ended := fun (s : State) (code : Nat) => s.setReg Reg.BILL_CT_STAT ((if code = 0 then 1 else 2) * 2 ^ 28 + code)
  have cmd := bits 1 0 v.toNat
  if cmd = 1 then
    have w0 := s.reg Reg.BILL_CT_W0
    have w1 := s.reg Reg.BILL_CT_W1
    if !bit 31 w0 then .done (ended (s.invalidateChannel ch) 0)
    else
      have code := s.channelCheck ch w0 w1
      .done (ended (if code = 0 then s.writeChannel ch w0 w1 else s) code)
  else if cmd = 2 then
    match s.billChan ch with
    | none => .done (ended ((s.setReg Reg.BILL_CT_W0 0).setReg Reg.BILL_CT_W1 (regReset Reg.BILL_CT_W1)) 0)
    | some c => .done (ended ((s.setReg Reg.BILL_CT_W0 (setBit 31 c.valid c.w0)).setReg Reg.BILL_CT_W1 (c.nextW1.getD c.w1)) 0)
  else if cmd = 3 then .done (ended (s.invalidateChannel ch) 0)
  else .ignored s

def execChannelTableWrite (t : Angle) (p : Path) (s : State) : Outcome := .next ((s.tick t).hostWrite p 0x32 0x04C (effCtCmd 1))
def execChannelTableRead (t : Angle) (p : Path) (s : State) : Outcome := .next ((s.tick t).hostWrite p 0x32 0x04C (effCtCmd 2))
def execChannelTableInvalidate (t : Angle) (p : Path) (s : State) : Outcome :=
  .next ((s.tick t).hostWrite p 0x32 0x04C (effCtCmd 3))

/-- A hub compares a closed interval with the field's figure of it (R187). -/
def State.crossCheck (s : State) (ch num : Nat) : State :=
  match s.billing.xcheck.find (ch * 2 ^ 32 + num), (s.billChan ch).bind (fun c => c.closedUnits.find num) with
  | some field, some hub =>
    if field = hub then s
    else
      have diff : Int := (hub : Int) - field
      have s := (s.bump Reg.FCAC_XD_CNT).setReg Reg.FCAC_XD_CH ch
      have s := s.setReg64 Reg.FCAC_XD_LO Reg.FCAC_XD_HI (ofSigned 64 diff)
      (s.journalEvent 0x07 ch (leBytes 4 num ++ leBytes 8 (ofSigned 64 diff))).raise 0x1C 1
  | _, _ => s

/-- The total of a channel and its previous point as they stood at a boundary (R159): of its last point before it. -/
def ChanState.before (c : ChanState) (at' : Nat) : ChanMark :=
  match c.trail.find? (fun m => decide (m.t < at')) with
  | some m => m
  | none => if c.trail.isEmpty then ⟨at', c.total, c.sat, c.prev, c.notGood⟩ else ⟨at', 0, false, none, 0⟩

/-- The CLOSE record of a channel (R159, Table 12.16). -/
def State.closeRecord (s : State) (ch num at' : Nat) : State :=
  have c := (s.chan false ch).before at'
  have head := leBytes 4 (ch + b2n c.sat * 2 ^ 20 + b2n ((c.prev.map (·.has)).getD false) * 2 ^ 21) ++ leBytes 4 num ++
    leBytes 16 (ofSigned 128 c.total)
  match c.prev with
  | none => s.journal 0x21 (head ++ zeros 24)
  | some p => s.journal 0x21 (head ++ leBytes 8 p.rate.toNat ++ leBytes 8 p.t ++ leBytes 1 p.qual ++ leBytes 1 p.flags ++
      leBytes 2 p.sseq ++ zeros 4)

/-- An interval of a channel closes at S (R211, R212): its record, for a channel that is not fed by register data, and
the next one opens. `skipped` says that a civil step skipped the boundary: an interval that opens and closes there carries STEP (R219). -/
def State.closeInterval (s : State) (ch at' : Nat) (late skipped : Bool) (c : BillChan) : State :=
  if at' < c.start then s
  else
    have reg := s.regFed ch (at' - 1)
    have flags := b2n c.part * 2 ^ 23 + b2n (c.step || (skipped && c.start == at')) * 2 ^ 24 + b2n late * 2 ^ 25 + b2n (s.gapIn c.start at') * 2 ^ 26 +
      b2n (c.start == at') * 2 ^ 29
    have s := (if reg then s else s.produceInterval ch c.qual flags c.inum c.units).closeRecord ch c.inum at'
    (s.setBillChan ch { c with
      inum := (c.inum + 1) % 2 ^ 32
      start := at'
      units := 0
      qual := 0
      part := false
      step := false
      bounds := at' :: c.bounds
      recorded := if reg then c.recorded else c.inum :: c.recorded
      closedUnits := if reg then c.closedUnits else c.closedUnits.put c.inum c.units
      waitFlags := if reg then c.waitFlags.put c.inum flags else c.waitFlags
      lastClosed := some (at', c.units) }).crossCheck ch c.inum

/-- The net energy of a forward channel whose pair has closed the same interval (R181). -/
def State.netEnergy (s : State) (ch : Nat) : State :=
  match s.pairOf ch with
  | none => s
  | some q =>
    match (s.billChan ch).bind (·.lastClosed), (s.billChan q).bind (·.lastClosed) with
    | some a, some b => if a.1 = b.1 then s.modBillChan ch (fun c => { c with net := some (a.1, (a.2 : Int) - b.2) }) else s
    | _, _ => s

/-- A configured channel's interval closes. -/
def State.closeChan (s : State) (ch at' : Nat) (late skipped : Bool) : State :=
  match s.billChan ch with
  | some c => s.closeInterval ch at' late skipped c
  | none => s

/-- Every interval boundary pinned to a due sweep time closes the intervals of its length; those due at restart after
an outage are LATE (R217). -/
def State.closeLength (s : State) (l at' : Nat) (late skipped : Bool) : State :=
  have chans := s.billing.chans.filter (fun x => x.2.valid && x.2.ilen == l)
  have s := chans.foldl (fun s x => s.netEnergy x.1) (chans.foldl (fun s x => s.closeChan x.1 at' late skipped) s)
  if late && !chans.isEmpty then s.raise 0x32 2 else s

def State.isLate (s : State) (at' : Nat) (i : Instant) : Bool := i.skipped.isNone && (i.late || s.gapIn at' (at' + 1))

/-- The interval boundaries due up to a sweep time close in order, and their units are placed (R215). -/
def State.closeDue (s : State) (until' : Nat) : State :=
  have due := (s.dueInstants ownsInterval).filter (fun x => decide (x.1 ≤ until'))
  have s := due.foldl (fun s x =>
    match x.2.2.owner with
    | .interval l =>
      have s := s.dropInstants [x.2.1]
      (s.closeLength l x.1 (s.isLate x.1 x.2.2) x.2.2.skipped.isSome).releaseHeld
    | _ => s) s
  s

/-- INTERVAL_CLOSE (R212): the interval boundaries of the earliest due sweep time, on a module that processes them (R229). -/
def execIntervalClose (t : Angle) (s : State) : Outcome :=
  have s := s.tick t
  match s.dueInstants ownsInterval with
  | x :: _ => if s.serves && !s.pfStop then .next (s.closeDue x.1) else .next s
  | [] => .next s

/-- The end of a TARIF command. -/
def State.progEnd (s : State) (code : Nat) : State :=
  (s.setReg Reg.TARIF_PSTAT ((if code = 0 then 1 else 2) * 2 ^ 28 + code)).raise 0x33 0

/-- The first failing check of a program commit (Table 11.3). -/
def State.programCheck (s : State) (img : Image) (len : Nat) : Nat :=
  have p := s.prog img.prog
  have early : Bool := match mapCivil s.sweep.zones img.actCivil false with
    | none => true
    | some tai => decide (tai * 8000000000 < s.timeOf s.now + 172800 * 8000000000) || decide ((s.sweep.zvalid : Int) < tai)
  have date := img.actDate
  if img.check len ≠ 0 then img.check len
  else if !validDate date.1 date.2.1 date.2.2 ∨ 1439 < img.u 0x18 2 ∨ !s.mapped ∨ early then 5
  else if img.gen ≤ (p.image.map Image.gen).getD 0 ∨ img.gen ≤ (p.pending.map Image.gen).getD 0 then 6
  else if !img.reservedZero then 7
  else 0

/-- The pinned ACTIVATE boundaries of a program whose pending generation is replaced or withdrawn are ordinary ones (R214): a new
generation activates at least 48 hours ahead. Without a generation in force there is no boundary. -/
def State.unpinActivate (s : State) (n : Nat) : State :=
  { s with sweep := { s.sweep with instants := s.sweep.instants.filterMap (fun (x : Nat × Instant) =>
    if x.2.owner == .boundary n && bit 3 x.2.kinds && x.2.pin.isSome then
      (if (s.prog n).image.isNone then none else some (x.1, { x.2 with kinds := x.2.kinds % 8 }))
    else some x) } }

/-- PROGRAM_COMMIT (R213). -/
def effProgramCommit (s : State) : WriteResult :=
  have len := s.reg Reg.TARIF_PIMG_LEN
  have img : Image := s.load (s.reg Reg.TARIF_PIMG_OFS) len
  have code := s.programCheck img len
  if code ≠ 0 then .done (s.progEnd code)
  else
    have s := s.journal 0x25 img
    have s := (s.unpinActivate img.prog).setProg img.prog { s.prog img.prog with pending := some img }
    .done ((s.recompile (ownsProgram img.prog)).progEnd 0)

/-- A command that does not apply: PSTAT reports it, and ERRCAP records the cause "state" (R214). -/
def notApplicable (s : State) : WriteResult := .discard (s.progEnd 8) 0x09

/-- PROGRAM_WITHDRAW and PERIOD_CLOSE_CMD (R214): the CLOSE falls at the first DEMAND boundary at least 2 cycles ahead. -/
def effProgramWithdraw (n : Nat) (s : State) : WriteResult :=
  have p := s.prog n
  if p.pending.isNone then notApplicable s
  else
    have s := ((s.unpinActivate n).setProg n { p with pending := none }).journal 0x25 (leBytes 2 n ++ leBytes 2 2)
    .done ((s.recompile (ownsProgram n)).progEnd 0)
def effPeriodClose (n : Nat) (s : State) : WriteResult :=
  have p := s.prog n
  match p.image with
  | none => notApplicable s
  | some img =>
    if Image.periodKind img ≠ 0 then notApplicable s
    else
      have s := (s.setProg n { p with closeFrom := some (s.now + 131072) }).journal 0x25 (leBytes 2 n ++ leBytes 2 3)
      .done (s.progEnd 0)
def effPcmd (v : Word) (s : State) : WriteResult :=
  have cmd := bits 10 8 v.toNat
  have n := bits 5 0 v.toNat
  if cmd = 1 then effProgramCommit s else if cmd = 2 then effProgramWithdraw n s else if cmd = 3 then effPeriodClose n s
  else .ignored s

def execProgramCommit (t : Angle) (p : Path) (img : List Byte) (s : State) : Outcome :=
  have s := s.tick t
  .next ((s.store (s.reg Reg.TARIF_PIMG_OFS) img).hostWrite p 0x33 0x048 (effPcmd 0x100))
def execProgramWithdraw (t : Angle) (p : Path) (v : Word) (s : State) : Outcome :=
  .next ((s.tick t).hostWrite p 0x33 0x048 (effPcmd (BitVec.ofNat 32 (setBits 10 8 2 v.toNat))))
def execPeriodCloseCmd (t : Angle) (p : Path) (v : Word) (s : State) : Outcome :=
  .next ((s.tick t).hostWrite p 0x33 0x048 (effPcmd (BitVec.ofNat 32 (setBits 10 8 3 v.toNat))))

/-- A boundary: its program, S, and the instants pinned to it (R215). -/
structure BoundaryDue where
  prog : Nat
  at' : Nat
  insts : List (Nat × Instant)
  deriving DecidableEq, Repr

/-- The boundary with the earliest S of a list of pinned instants, the lowest program first. -/
def firstBoundary (l : List (Nat × Nat × Instant)) : Option BoundaryDue :=
  have progOf := fun (x : Nat × Nat × Instant) => match x.2.2.owner with | .boundary n => n | _ => 0
  match l with
  | [] => none
  | x :: _ =>
    have same := l.filter (fun y => y.1 == x.1)
    have n := same.foldl (fun n y => min n (progOf y)) (progOf x)
    some ⟨n, x.1, (same.filter (fun y => progOf y == n)).map (·.2)⟩
def ownsAnyProgram : InstantOwner → Bool
  | .boundary _ => true
  | _ => false
def State.nextDue (s : State) : Option BoundaryDue := firstBoundary (s.dueInstants ownsAnyProgram)

/-- The key of a boundary's reservation (R46). -/
def BoundaryDue.key (b : BoundaryDue) : Nat := b.prog + 64 * b.at'

/-- A boundary's cost is charged to E_UNC ahead of it, or waits for the headroom, before any reading (R46). -/
def State.reserveBoundary (s : State) (key : Nat) : State :=
  if s.slalom.reserved.contains key then s
  else if s.takes (recordCost 0x06) then
    { s.setUnc (s.reg Reg.SLALOM_E_UNC + recordCost 0x06) with slalom := { s.slalom with
      reserved := s.slalom.reserved ++ [key]
      waiting := s.slalom.waiting.filter (· ≠ key) } }
  else if s.slalom.waiting.contains key then s
  else { s with slalom := { s.slalom with waiting := s.slalom.waiting ++ [key] } }

/-- The kinds of a boundary: those of its instants, and the PERIOD of a CLOSE (R214). -/
def boundaryKinds (p : Program) (b : BoundaryDue) : Nat :=
  have k := b.insts.foldl (fun k x => k ||| x.2.kinds) 0
  if bit 0 k && (match p.closeFrom with | some c => decide (c ≤ b.at') | none => false) then k ||| 4 else k

/-- A channel's billing period closes (R215, R216): its figures, and the changes that waited for it. A demand interval that is still open
keeps its units: it falls into the next period (R221). -/
def State.closePeriod (s : State) (p : Program) (c : BillChan) : BillChan :=
  have md := maxDemand p c
  have c := { c with
    lastPeriod := some (p.period, c.regs, md.1, md.2.1, md.2.2)
    demand := c.demand.filter (fun d => d.1 == p.dnum) }
  match c.nextW1 with
  | some w => s.applyW1 c w
  | none => c

/-- The PERIOD record of a channel (Table 12.15). -/
def periodRecord (n at' gen : Nat) (p : Program) (ch : Nat) (c : BillChan) : List Byte :=
  have md := maxDemand p c
  leBytes 4 (ch + md.2.2 * 2 ^ 20 + b2n c.regSat * 2 ^ 23) ++ leBytes 4 p.period ++ leBytes 8 at' ++ c.regs.flatMap (leBytes 8) ++
    leBytes 8 md.1 ++ leBytes 8 md.2.1 ++ leBytes 2 n ++ leBytes 2 gen ++ zeros 4

/-- A program after the closing of its demand interval and the switch of its register at S (R214, R215, R221). -/
def Program.cut (p : Program) (at' kinds : Nat) (gap late skipped : Bool) (civil : Int) : Program :=
  have zero := p.dstart == at'
  have counts := !(p.dpart || p.dstep || zero || late || gap || skipped)
  have q := if !bit 0 kinds then p else { p with
    demands := ⟨p.dnum, p.dstart, at', p.reg, counts⟩ :: p.demands
    dnum := p.dnum + 1
    dstart := at'
    dpart := false
    dstep := false }
  have q := if bit 3 kinds then { q with
    image := p.pending
    pending := none } else q
  if kinds &&& 10 = 0 then q
  else
    have reg := match q.image with | some img => Image.regAt img civil | none => q.reg
    { q with
      reg := reg
      switches := (at', reg) :: q.switches }

/-- A boundary is processed (R215, R216): demand interval, register, period, record; then its charges. -/
def State.processBoundary (s : State) (b : BoundaryDue) : State :=
  have s := s.closeDue b.at'
  have s := s.dropInstants (b.insts.map (·.1))
  have p := s.prog b.prog
  have p := if p.first.isSome then p else { p with
    reg := registerAt p b.at'
    first := some (b.at', registerAt p b.at') }
  have kinds := boundaryKinds p b
  have late := b.insts.any (fun x => s.isLate b.at' x.2)
  have skipped := b.insts.findSome? (fun x => x.2.skipped)
  have civil := b.insts.foldl (fun (m : Int) x => max m x.2.civil) 0
  have q := p.cut b.at' kinds (s.gapIn p.dstart b.at') late skipped.isSome civil
  have closes := bit 2 kinds
  have chans := s.progChans b.prog
  have due := if closes then chans.map (fun x => periodRecord b.prog b.at' ((p.image.map Image.gen).getD 0) q x.1 x.2) else []
  have s := if closes then chans.foldl (fun s x => s.setBillChan x.1 (s.closePeriod q x.2)) s else s
  have q := if closes then { q with
      demands := []
      period := q.period + 1
      periods := (b.at', q.period) :: q.periods
      closeFrom := if bit 0 (b.insts.foldl (fun k x => k ||| x.2.kinds) 0) then none else q.closeFrom } else q
  have flags := b2n late + 2 * b2n p.step.isSome + 4 * b2n skipped.isSome + 8 * b2n (b.insts.any (fun x => x.2.beyond)) +
    16 * b2n (bit 0 kinds && p.dpart) + 32 * b2n (bit 0 kinds && p.dstart == b.at')
  have tai := (b.insts.head?.bind (fun x => s.instantTai x.2)).getD 0
  have body := leBytes 4 0x4B424E44 ++ leBytes 2 b.prog ++ leBytes 2 ((q.image.map Image.gen).getD 0) ++ leBytes 8 b.at' ++
    leBytes 8 s.now ++ leBytes 8 (ofSigned 64 tai) ++ leBytes 2 kinds ++ leBytes 1 q.reg ++ leBytes 1 p.reg ++ leBytes 2 flags ++ zeros 2 ++
    leBytes 4 (ofSigned 32 (skipped.getD (p.step.getD 0))) ++ leBytes 4 (if closes then p.period else 0) ++ leBytes 4 p.dnum ++ zeros 204
  have s := s.setProg b.prog { q with
    step := none
    lastS := some b.at' }
  have held := s.slalom.reserved.contains b.key
  have s := { s with slalom := { s.slalom with
    reserved := s.slalom.reserved.filter (· ≠ b.key)
    waiting := s.slalom.waiting.filter (· ≠ b.key) } }
  have s := if held then s.setUnc (s.reg Reg.SLALOM_E_UNC - recordCost 0x06) else s
  have r := s.append 0x06 body
  have s := if due.isEmpty then r.2
    else { r.2 with billing := { r.2.billing with periodsDue := r.2.billing.periodsDue ++ [(r.1, due)] } }
  have s := (s.chargeProgram b.prog b.at').raise 0x32 0
  have s := if closes then s.raise 0x32 1 else s
  have s := if late then (s.bump Reg.BILL_LATE_B).raise 0x32 2 else s
  s.releaseHeld

/-- BOUNDARY_PREBUILD (R46, R216): one poll slot of 2 cycles before its S, the boundary's cost is pre-reserved. -/
def execBoundaryPrebuild (t : Angle) (prog : BitVec 6) (s : State) : Outcome :=
  have s := s.tick t
  have pinned := s.sweep.instants.filterMap (fun x =>
    match x.2.owner, x.2.pin with
    | .boundary n, some at' => if n = prog.toNat ∧ at' ≤ s.now + 131072 then some at' else none
    | _, _ => none)
  if s.serves && !s.pfStop then .next (pinned.foldl (fun s at' => s.reserveBoundary (prog.toNat + 64 * at')) s) else .next s

/-- BOUNDARY_PROCESS (R215, R216): the earliest boundary whose S has come, once its cost is reserved; else it waits. -/
def State.processNext (s : State) : State :=
  match s.nextDue with
  | none => s
  | some b =>
    have s := s.reserveBoundary b.key
    if s.slalom.reserved.contains b.key then s.processBoundary b else s
def execBoundaryProcess (t : Angle) (s : State) : Outcome :=
  have s := s.tick t
  if s.serves && !s.pfStop then .next s.processNext else .next s

/-- BOUNDARY_RESERVATION (R46, R216): the reservations that wait are made as the headroom takes them, and a boundary past
its S is then processed at once. -/
def execBoundaryReservation (t : Angle) (s : State) : Outcome :=
  have s := s.tick t
  have s := s.slalom.waiting.foldl State.reserveBoundary s
  match s.nextDue with
  | some b => if s.serves && !s.pfStop && s.slalom.reserved.contains b.key then .next (s.processBoundary b) else .next s
  | none => .next s

/-- The boundaries that are due at a restart or a takeover are processed in order of S, with the interval closes before them; one whose
cost the headroom cannot take yet waits (R46, R217, R369). -/
def State.processDue (s : State) : Nat → State
  | 0 => s
  | fuel + 1 =>
    match s.nextDue with
    | none => s.closeDue s.now
    | some b =>
      have w := s.reserveBoundary b.key
      if w.slalom.reserved.contains b.key then (w.processBoundary b).processDue fuel else w.closeDue b.at'

/-- A record of a class with these octets stands in the journal: void ones count where `voids` says so. -/
def State.recorded (s : State) (voids : Bool) (cls : Nat) (body : List Byte) : Bool :=
  s.led.recs.any (fun r => r.2.cls == cls && r.2.payload == body && (voids || !r.2.void) && !r.2.lost)

/-- Records of a class that the journal does not hold are written. -/
def State.journalMissing (s : State) (voids : Bool) (cls : Nat) (bodies : List (List Byte)) : State :=
  bodies.foldl (fun (s : State) b => if s.recorded voids cls b then s else s.journal cls b) s

/-- PERIOD records follow the commit of their boundary record (R216). They are due until they are committed themselves; of those that a
shutdown commit voided only a mount writes new ones (`mount`, R246). -/
def State.periodsCommitted (s : State) (rsn : Nat) (mount : Bool) : State :=
  have open' := fun (b : List Byte) => !(s.led.recs.any (fun r => r.2.cls == 0x20 && r.2.payload == b && !r.2.void && decide (r.1 ≤ rsn)))
  have due := s.billing.periodsDue.filter (fun x => x.2.any open')
  have s := { s with billing := { s.billing with periodsDue := due } }
  (due.filter (fun x => decide (x.1 ≤ rsn))).foldl (fun (s : State) x => s.journalMissing (!mount) 0x20 x.2) s

/-- The records that the mount rebuilds (R216, R245, R257): CLOSE and PERIOD records that a shutdown commit voided, and the PERIOD records of
committed boundaries, as far as the journal does not hold them. -/
def State.rebuildRecords (s : State) : State :=
  have old : SMap LedgerRecord := s.led.recs.filter (fun r => r.2.void && (r.2.cls == 0x20 || r.2.cls == 0x21))
  have s := old.foldl (fun (s : State) (x : Nat × LedgerRecord) => s.journalMissing false x.2.cls [x.2.payload]) s
  s.periodsCommitted s.committed true

/-- A boundary instant of any program lies in a span of local time (R218). -/
def State.boundaryInSpan (s : State) (a b : Int) : Bool :=
  (List.range ((b - a) / 60 + 1).toNat).any (fun (k : Nat) =>
    have m : Minute := ⟨a / 60 * 60 + 60 * k, 0, false, true⟩
    decide (a < m.civil) && decide (m.civil ≤ b) &&
      s.billing.programs.any (fun x => match x.2.image with | some img => Image.kindsAt img m != 0 | none => false))

/-- What a civil step by `ms` does to billing (R218, R219); `local'` is the local time that the mapping gave the current
tick before it. Instants already pinned ahead count as lived through: each is pinned once only (R32). A forward step pins every instant it
skips to the current tick. -/
def State.stepBilling (s : State) (ms : Int) (local' : Int) : State :=
  have s := { s with billing := { s.billing with
    chans := s.billing.chans.map (fun (x : Nat × BillChan) => (x.1, { x.2 with step := true }))
    programs := s.billing.programs.map (fun (x : Nat × Program) => (x.1, { x.2 with
      dstep := true
      step := if ms < 0 then some ms else x.2.step })) } }
  if ms < 0 then
    have now := localOf s.sweep.zones s.taiNow
    have pinned := s.sweep.instants.foldl (fun (m : Int) x => if x.2.pin.isSome then max m x.2.civil else m) local'
    have s := { s with billing := { s.billing with livedTo := max s.billing.livedTo pinned } }
    if s.boundaryInSpan now local' then s.raise 0x32 3 else s
  else
    have s := s.compile
    have due := s.sweep.instants.filter (fun x =>
      x.2.pin.isNone && (match s.instantTai x.2 with | some tai => decide (s.tickOf tai ≤ s.now) | none => false))
    have s := s.pinPast
    have s := due.foldl (fun s x => { s with sweep := { s.sweep with
      instants := s.sweep.instants.modify x.1 (fun i => { i with
        skipped := some ms
        late := false }) } }) s
    s.raise 0x32 3

/-- The registers of the BILL windows (Table 11.7). -/
def State.readRgLo (s : State) (p : Path) : State × Nat :=
  have sel := s.fld Reg.BILL_RG_SEL 3 0
  have v := match s.billChan (s.fld Reg.BILL_RG_CH 19 0) with
    | none => 0
    | some c =>
      if s.flag Reg.BILL_RG_SEL 4 then
        match c.lastPeriod with
        | none => 0
        | some x => if sel < 8 then x.2.1.getD sel 0 else if sel = 8 then x.2.2.1 else 0
      else if sel < 8 then c.regs.getD sel 0
      else if sel = 8 then (match c.prog with | some n => (maxDemand (s.prog n) c).1 | none => 0)
      else 0
  (s.latchAt p Reg.BILL_RG_HI (v / 2 ^ 32), v % 2 ^ 32)
def State.mdSelected (s : State) : Nat × Nat :=
  match s.billChan (s.fld Reg.BILL_RG_CH 19 0) with
  | none => (0, 0)
  | some c =>
    if s.flag Reg.BILL_RG_SEL 4 then (match c.lastPeriod with | some x => (x.2.2.2.1, x.2.2.2.2) | none => (0, 0))
    else match c.prog with | some n => (maxDemand (s.prog n) c).2 | none => (0, 0)
def State.readIvNum (s : State) : Nat := ((s.billChan (s.fld Reg.BILL_RG_CH 19 0)).map (·.inum)).getD 0
def State.readIvUnits (s : State) : Nat := min ((s.billChan (s.fld Reg.BILL_RG_CH 19 0)).map (·.units) |>.getD 0) (2 ^ 32 - 1)

/-- The registers of the TARIF window (Table 11.8). -/
def State.shownProg (s : State) : Program := s.prog (s.fld Reg.TARIF_PSEL 5 0)
def State.readPinfo (s : State) : Nat :=
  have p := s.shownProg
  b2n p.image.isSome * 2 ^ 31 + b2n p.pending.isSome * 2 ^ 30 + ((p.image.map Image.dlenCode).getD 0) * 2 ^ 20 +
    (if p.image.isSome then registerAt p s.now else 0) * 2 ^ 16 + (p.image.map Image.gen).getD 0
def State.shownNext (s : State) : Option BoundaryDue :=
  have n := s.fld Reg.TARIF_PSEL 5 0
  firstBoundary (sortBy (fun (a b : Nat × Nat × Instant) => decide (a.1 ≤ b.1)) (s.sweep.instants.filterMap (fun x =>
    match x.2.pin with
    | some at' => if ownsProgram n x.2.owner then some (at', x.1, x.2) else none
    | none => none)))
def State.readNext (s : State) : Nat := (s.shownNext.map (·.at')).getD 0
def State.readNextKind (s : State) : Nat :=
  (s.shownNext.map (fun b => boundaryKinds s.shownProg b + 16 * b2n (b.insts.any (fun x => x.2.beyond)))).getD 0
def State.readHorizon (s : State) : Nat :=
  (s.sweep.instants.filter (fun x => ownsProgram (s.fld Reg.TARIF_PSEL 5 0) x.2.owner)).length

end Sys2Proof.Machine
end

