-- ==== Sys2Proof/Machine/Credit.lean ====
section
/-!
DEFINITION. What the host writes to a credit account: prices and top-ups (R224), thresholds (R225), members (R222), and
its configuration.
-/

namespace Sys2Proof.Machine

/-- The account shown by the window. -/
def State.acSel (s : State) : Nat := s.fld Reg.CRED_AC_SEL 13 0
/-- A CONFIG record of an account: the register, the account, the value. -/
def State.journalAccount (s : State) (n k v : Nat) : State := s.journal 0x26 (leBytes 4 k ++ leBytes 4 n ++ leBytes 8 v)

/-- PRICE_COMMIT (R224): the pending table with its EFF. -/
def effPrEffHi (v : Word) (s : State) : WriteResult :=
  have n := s.acSel
  have s := s.setReg (bankKey n Reg.CRED_PR_EFF_HI) v.toNat
  have eff := s.reg64 (bankKey n Reg.CRED_PR_EFF_LO) (bankKey n Reg.CRED_PR_EFF_HI)
  have table : SMap Int := (List.range 32).filterMap (fun i =>
    have w := toSigned 32 (s.reg (bankKey (n * 32 + i) Reg.CRED_PR_PEND))
    if w = 0 then none else some (i, w))
  have s := s.journal 0x26 (leBytes 4 Reg.CRED_PR_EFF_HI ++ leBytes 4 n ++ leBytes 8 eff ++
    (List.range 32).flatMap (fun i => leBytes 4 (ofSigned 32 (table.getD i 0))))
  .done (s.setAccount n { s.account n with pending := some (eff, table) })
def execPriceCommit (t : Angle) (p : Path) (v : Word) (s : State) : Outcome :=
  .next ((s.tick t).hostWrite p 0x34 0x090 (effPrEffHi v))

/-- TOPUP (R224): the amount is added at once, and reads back as committed after its CREDIT record. -/
def effTopupHi (v : Word) (s : State) : WriteResult :=
  have n := s.acSel
  if !bit 31 (s.acCfg n) then .discard s 0x09
  else
    have amount := toSigned 64 (s.reg (bankKey n Reg.CRED_TOPUP_LO) + 2 ^ 32 * v.toNat)
    have a := s.account n
    have balance := satSigned 64 (a.balance + amount)
    have r := s.append 0x04 (leBytes 2 n ++ leBytes 1 1 ++ leBytes 1 0xFF ++ zeros 4 ++ leBytes 8 s.now ++ leBytes 8 (ofSigned 64 amount) ++
      zeros 4 ++ leBytes 4 a.rest.toNat ++ leBytes 8 (ofSigned 64 (-amount)) ++ leBytes 8 (ofSigned 64 balance))
    have s := r.2.setAccount n { a with
      balance := balance
      busy := a.busy ++ [r.1] }
    .done (s.accountState n)
def execTopup (t : Angle) (p : Path) (v : Word) (s : State) : Outcome :=
  .next ((s.tick t).hostWrite p 0x34 0x06C (effTopupHi v))
/-- A top-up reads back as committed once its record is. -/
def State.topupsCommitted (s : State) (rsn : Nat) : State :=
  { s with billing := { s.billing with accounts := s.billing.accounts.map (fun (x : Nat × Account) =>
    (x.1, { x.2 with busy := x.2.busy.filter (fun r => decide (rsn < r)) })) } }

/-- ACCOUNT_LIMIT_COMMIT (R225): a write of AC_WARN_HI, AC_CUT_HI or AC_REST_HI. -/
def effLimitHi (i : Nat) (v : Word) (s : State) : WriteResult :=
  have n := s.acSel
  have kl := bankKey n (Reg.CRED_AC_WARN_LO + 8 * i)
  have kh := bankKey n (Reg.CRED_AC_WARN_HI + 8 * i)
  have s := s.setReg kh v.toNat
  have x := s.reg64 kl kh
  have a := s.account n
  have s := (s.setAccount n { a with limits := a.limits.set i (toSigned 64 x) }).journalAccount n (Reg.CRED_AC_WARN_HI + 8 * i) x
  .done (s.accountState n)
def execAccountLimitCommit (t : Angle) (p : Path) (limit : Fin 3) (v : Word) (s : State) : Outcome :=
  .next ((s.tick t).hostWrite p 0x34 (0x054 + 8 * limit.val) (effLimitHi limit.val v))

/-- A member may name a channel (R222). -/
def State.memberFits (s : State) (n idx w : Nat) : Bool :=
  have ch := bits 19 0 w
  have named := match s.billChan ch with
    | some c => c.valid && c.acct == some n && c.prog == some (bits 21 16 (s.acCfg n))
    | none => false
  have others := (s.members n).filter (fun m => m.1 != idx)
  have forward := match s.liveDesc ch s.now with
    | some e => Desc.netMode e.raw == 1 && !Desc.back e.raw && Desc.qty e.raw == 1 && !(others.any (fun m => m.2.1 == Desc.pairCh e.raw)) && !(Desc.pairCh e.raw == ch)
    | none => false
  have free := (SMap.keys s.billing.accounts).all (fun a => a == n || !((s.members a).any (fun m => m.2.1 == ch)))
  named && free && others.all (fun m => m.2.1 != ch && !(m.2.2.1 && s.pairOf m.2.1 == some ch)) && (!bit 30 w || forward)

/-- MEMBER_COMMIT (R222): a member that breaks its conditions is refused with cause "member". -/
def effMbW (v : Word) (s : State) : WriteResult :=
  have n := s.acSel
  have idx := s.fld Reg.CRED_MB_SEL 4 0
  have w := v.toNat &&& 0xF00FFFFF
  if bit 31 w && !s.memberFits n idx w then .discard s 0x12
  else
    have s := s.setReg (bankKey (n * 32 + idx) Reg.CRED_MB_W) w
    .done ((s.setAccount n (s.account n)).journalAccount n Reg.CRED_MB_W (idx * 2 ^ 32 + w))
def execMemberCommit (t : Angle) (p : Path) (v : Word) (s : State) : Outcome :=
  .next ((s.tick t).hostWrite p 0x34 0x0A4 (effMbW v))

/-- A write of AC_CFG: the account enters use, or leaves it, and its state follows its balance (R225). -/
def effAcCfg (v : Word) (s : State) : WriteResult :=
  have n := s.acSel
  have s := s.setReg (bankKey n Reg.CRED_AC_CFG) (v.toNat &&& 0xC03F0FFF)
  .done (((s.setAccount n (s.account n)).journalAccount n Reg.CRED_AC_CFG v.toNat).accountState n)

/-- The registers of the CRED window that show an account (Table 11.9). -/
def State.readAcBalLo (s : State) (p : Path) : State × Nat :=
  have b := ofSigned 64 (s.account s.acSel).balance
  (s.latchAt p Reg.CRED_AC_BAL_HI (b / 2 ^ 32), b % 2 ^ 32)
def State.readAcStat (s : State) : Nat :=
  setBits 0 0 (b2n (!(s.account s.acSel).busy.isEmpty)) (s.reg (bankKey s.acSel Reg.CRED_AC_STAT))
def State.readPrNow (s : State) : Nat := ofSigned 32 ((s.account s.acSel).prices.getD (s.fld Reg.CRED_PR_SEL 4 0) 0)

end Sys2Proof.Machine
end

