-- ==== Sys2Proof/Machine/Flash.lean ====
section
/-!
DEFINITION. The octets of the flash pages that a commit group programs: page headers (Table 12.2), record frames and chains (R235),
COMMIT pages (Table 12.5) and the parity of a stripe (R234).
-/

namespace Sys2Proof.Machine

/-- Octets filled with zeros to a length. -/
def fillTo (n : Nat) (l : List Byte) : List Byte := l ++ zeros (n - l.length)

/-- The partition of a record class (Table 12.3). -/
def classPart (cls : Nat) : Nat := if cls = 3 then 0 else if cls = 0x28 ∨ cls = 0x29 then 2 else 1

/-- Page keys: the partition 0 raw ring, 1 ledger, 2 system, 3 metadata, and the LPN (Table 12.2). -/
def pageKey (part lpn : Nat) : Nat := part * 2 ^ 22 + lpn
/-- The superblock, page and die of a PPA (Table 12.5). -/
def ppa (sb page die : Nat) : Nat := sb * 2 ^ 11 + page * 2 ^ 3 + die
def ppaStripe (p : Nat) : Nat := p / 8
def ppaSb (p : Nat) : Nat := p / 2048
/-- A page key as the word of a COMMIT page entry: partition 31:30, LPN 21:0. -/
def keyWord (k : Nat) : Nat := k / 2 ^ 22 * 2 ^ 30 + k % 2 ^ 22

/-- The pages of a record's chain among the pages of a group or of the map, in order. -/
def chainOf (infos : SMap PageInfo) (rsn : Nat) : List Nat :=
  (infos.filter (fun x => x.2.kind == 2 && x.2.first == rsn)).map (·.1)

/-- A record's frame in its page (R235): a record longer than 16,380 octets leaves the LPN of its chain and its length. -/
def recordFrame (infos : SMap PageInfo) (x : Nat × LedgerRecord) : List Byte :=
  have n := x.2.payload.length
  if 16380 < n then
    leBytes 2 8 ++ leBytes 1 x.2.cls ++ leBytes 1 (1 + 2 * b2n x.2.charged) ++
      leBytes 4 (((chainOf infos x.1).headD 0) % 2 ^ 22) ++ leBytes 4 n
  else leBytes 2 n ++ leBytes 1 x.2.cls ++ leBytes 1 (2 * b2n x.2.charged) ++ x.2.payload

/-- The payload of a page: of kind RECORDS, CHAIN or SEGMENT (Table 12.2); how STATE and MAP pages lay out what they hold the spec does
not say: a free value (log 102). -/
def State.pagePayload (s : State) (infos : SMap PageInfo) (key : Nat) (i : PageInfo) : List Byte :=
  fillTo 16384 (
    if i.kind = 1 then
      (s.heldRecs.filter (fun x => decide (i.first ≤ x.1) && decide (x.1 ≤ i.last))).flatMap (recordFrame infos)
    else if i.kind = 2 then
      (((s.heldRecs.find i.first).map (·.payload)).getD []).drop (16384 * (chainOf infos i.first).idxOf key) |>.take 16384
    else if i.kind = 3 ∧ i.leaf ≠ 0 then i.octets
    else if i.kind = 3 then
      s.segHeader i.loCycle (i.hiCycle - i.loCycle) i.flags i.cap ++ s.segEntries i.loCycle (i.hiCycle - i.loCycle)
    else leBytes 16384 (Config.free i.free))

/-- A page with its header (Table 12.2). -/
def flashPage (kind key frames csn first built : Nat) (payload : List Byte) : List Byte :=
  have head := leBytes 4 0x4B4C5047 ++ leBytes 1 kind ++ leBytes 1 (key / 2 ^ 22) ++ zeros 2 ++ leBytes 4 (key % 2 ^ 22) ++ leBytes 4 frames ++
    leBytes 8 csn ++ leBytes 8 first ++ leBytes 8 built ++ zeros 20
  head ++ leBytes 4 (Config.crc32c (head ++ payload)).toNat ++ payload
def State.infoPage (s : State) (infos : SMap PageInfo) (key : Nat) (i : PageInfo) : List Byte :=
  flashPage i.kind key i.frames i.csn (if i.kind = 1 then i.first else 0) i.built (s.pagePayload infos key i)
/-- A PAD page (R234). -/
def padPage (csn built : Nat) : List Byte := flashPage 0 (pageKey 3 0) 0 csn 0 built (zeros 16384)

/-- The pages of a group but its COMMIT page (Table 12.5). -/
def CommitGroup.listed (g : CommitGroup) : List (Nat × Nat) := g.pages.filter (fun x => g.infos.any (fun i => i.1 == x.1))

/-- Numbers that rise, as runs of first and last (NVOID of Table 12.5). -/
def runsOf : List Nat → List (Nat × Nat)
  | [] => []
  | a :: l => match runsOf l with
    | (b, c) :: rest => if a + 1 = b then (a, c) :: rest else (a, a) :: (b, c) :: rest
    | [] => [(a, a)]

/-- The LPN of a group's COMMIT page. -/
def commitKey (csn : Nat) : Nat := pageKey 3 (csn % 2 ^ 21)

/-- The COMMIT page of a group (Table 12.5). -/
def State.commitPage (s : State) (g : CommitGroup) : List Byte :=
  have crcOf := fun (k : Nat) => match g.infos.find? (fun x => x.1 == k) with
    | some x => leAt (s.infoPage g.infos k x.2) 0x3C 4
    | none => 0
  have body := leBytes 4 0x4B434D54 ++ leBytes 2 1 ++ leBytes 2 g.flags ++ leBytes 8 g.csn ++ leBytes 8 g.first ++ leBytes 8 g.last ++
    leBytes 8 g.closedAt ++ leBytes 8 s.led.ckptCsn ++ leBytes 4 g.listed.length ++ leBytes 4 g.rels.length ++ leBytes 4 g.erases.length ++
    leBytes 4 g.voids.length ++ g.listed.flatMap (fun x => leBytes 4 (keyWord x.1) ++ leBytes 4 x.2 ++ leBytes 4 (crcOf x.1)) ++
    g.rels.flatMap (fun x => leBytes 4 (keyWord x.1) ++ leBytes 4 x.2) ++ g.erases.flatMap (leBytes 4) ++
    g.voids.flatMap (fun x => leBytes 8 x.1 ++ leBytes 8 x.2)
  flashPage 5 (commitKey g.csn) 0 g.csn 0 g.closedAt (fillTo 16384 body)

/-- The octets that a group programs at a PPA: a page of its own, its COMMIT page, or a PAD page (R234). -/
def State.pageAt (s : State) (g : CommitGroup) (at' : Nat) : List Byte :=
  match g.pages.find? (fun x => x.2 == at') with
  | none => padPage g.csn g.closedAt
  | some x => match g.infos.find? (fun y => y.1 == x.1) with
    | some y => s.infoPage g.infos x.1 y.2
    | none => s.commitPage g

/-- The octets that collection programs at a PPA: a copy with its header, or a PAD page (R234, R247). -/
def State.copyAt (s : State) (copies : List (Nat × Nat)) (at' : Nat) : List Byte :=
  match copies.find? (fun x => x.2 == at') with
  | none => padPage s.led.nextCsn s.now
  | some x => s.infoPage s.led.pages x.1 (s.led.pages.getD x.1 { kind := 0 })

/-- The byte-wise exclusive-or of pages (R234). -/
def xorPages : List (List Byte) → List Byte
  | [] => []
  | p :: ps => ps.foldl (fun a b => List.zipWith (fun (x y : Byte) => x ^^^ y) a b) p

/-- A stripe is issued to all dies of its superblock together, the parity page on the die that its number selects (R234). -/
def State.issueStripe (s : State) (stripe : Nat) (page : Nat → List Byte) : State :=
  have dies := (s.led.sbs.getD (stripe / 256) {}).dies
  have parity := dies.getD (stripe % 256 % max 1 dies.length) 0
  have data := (dies.filter (· ≠ parity)).map (fun d => (d, page (stripe * 8 + d)))
  s.send (.stripe (stripe / 256) (stripe % 256) (data ++ [(parity, xorPages (data.map (·.2)))]))

end Sys2Proof.Machine
end

