-- ==== Sys2Proof/Machine/Ledger.lean ====
section
/-!
DEFINITION. The ledger store: packing of records into pages and stripes (R234, R235, R239), commit groups (R240), space
(R237, R238, R243, R244), garbage collection (R247 to R249), media errors (R250 to R254), the Groomer (R255),
checkpoints (R256) and the host's reads.
-/

namespace Sys2Proof.Machine

/-- The log area follows the two state-checkpoint areas of 768 MiB (Table 12.4). -/
def logBase : Nat := 98304
def logPages : Nat := 950272
def systemPages : Nat := 262144

def State.die (s : State) (d : Nat) : Die := s.led.dies.getD d {}
def State.diesInService (s : State) : List Nat := (List.range 8).filter (fun d => (s.die d).state == 0)
def State.sb (s : State) (n : Nat) : Superblock := s.led.sbs.getD n {}
def State.setSb (s : State) (n : Nat) (x : Superblock) : State := { s with led := { s.led with sbs := s.led.sbs.put n x } }
def State.freeSbs (s : State) : Nat := s.led.sbTotal - (s.led.sbs.filter (fun x => x.2.phase != 0 && x.2.phase != 4)).length

/-- A page under construction: its partition, what it holds, and the octets used. -/
structure OpenPage where
  part : Nat
  info : PageInfo
  used : Nat

/-- A record's frames enter the pages of its partition (R235): a frame never spans two pages, and the RSNs of a page follow each other
without a gap; a record longer than 16,380 octets takes pages of kind CHAIN and a frame of 12 octets. -/
def packRecord (done : List (Nat × PageInfo)) (cur : SMap OpenPage) (rsn : Nat) (r : LedgerRecord) :
    List (Nat × PageInfo) × SMap OpenPage :=
  have part := classPart r.cls
  have n := r.payload.length
  have chain := if 16380 < n then List.replicate (ceilDiv n 16384) (part, ({ kind := 2, first := rsn, last := rsn } : PageInfo)) else []
  have size := if 16380 < n then 12 else n + 4
  match SMap.find cur part with
  | some p =>
    if p.used + size ≤ 16384 ∧ rsn = p.info.last + 1 then
      (done ++ chain, SMap.put cur part { p with
        info := { p.info with
          last := rsn
          frames := p.info.frames + 1 }
        used := p.used + size })
    else
      (done ++ chain ++ [(p.part, p.info)], SMap.put cur part
        ⟨part, { kind := 1, first := rsn, last := rsn, frames := 1 : PageInfo }, size⟩)
  | none => (done ++ chain, SMap.put cur part ⟨part, { kind := 1, first := rsn, last := rsn, frames := 1 : PageInfo }, size⟩)

/-- The pages of a list of records in RSN order. -/
def packRecords (recs : List (Nat × LedgerRecord)) : List (Nat × PageInfo) :=
  have r := recs.foldl (fun (a : List (Nat × PageInfo) × SMap OpenPage) x => packRecord a.1 a.2 x.1 x.2) ([], [])
  r.1 ++ r.2.map (fun x => (x.2.part, x.2.info))

/-- The pages of an area: 0 raw ring, 1 log area, 2 system (Table 12.7); the log area follows the state-checkpoint areas. -/
def areaBase (a : Nat) : Nat := if a = 1 then logBase else 0
def inArea (a k : Nat) : Bool := k / 2 ^ 22 == a && decide (areaBase a ≤ k % 2 ^ 22)
def State.areaPages (s : State) (a : Nat) : List (Nat × Nat) := s.led.map.filter (fun x => inArea a x.1)
def State.areaSize (s : State) (a : Nat) : Nat :=
  if a = 0 then s.led.ringPages else if a = 1 then logPages else if a = 2 then systemPages else 0
def State.areaFree (s : State) (a : Nat) : Nat := s.areaSize a - (s.areaPages a).length

/-- The places of an area that the map or a group under way holds. -/
def State.usedPlaces (s : State) (a : Nat) : List Nat :=
  ((s.led.map.map (·.1) ++ s.led.groups.flatMap (fun g => g.listed.map (·.1))).filter (inArea a)).map (fun k => k % 2 ^ 22 - areaBase a)
/-- The pages that a new group may take in an area: those that neither the map nor a group under way holds (R243). -/
def State.areaRoom (s : State) (a : Nat) : Nat := s.areaSize a - (s.usedPlaces a).length

/-- The first of `n` free places in a row from a place on, going round; `top` where there are none. -/
def nextRun (used : Nat → Bool) (size n top : Nat) : Nat → Nat → Nat
  | 0, _ => top
  | fuel + 1, h =>
    have h := if size < h + n then 0 else h
    if n ≤ size ∧ (List.range n).all (fun i => !used (h + i)) then h else nextRun used size n top fuel (h + 1)

def State.areaHead (s : State) (a : Nat) : Nat := if a = 0 then s.led.ringHead else if a = 1 then s.led.logHead else s.led.sysHead
def State.setAreaHead (s : State) (a h : Nat) : State :=
  if a = 0 then { s with led := { s.led with ringHead := h } }
  else if a = 1 then { s with led := { s.led with logHead := h } }
  else { s with led := { s.led with sysHead := h } }

/-- The next free LPN of an area with `n - 1` free ones behind it, and the state with it taken (R237, R243): a page in use is never
overwritten. Only a shutdown group can find an area full: it takes LPNs past the area's end (log 102). -/
def State.takeLpn (s : State) (a n : Nat) : Nat × State :=
  have used := s.usedPlaces a
  have top := max (s.areaHead a) (used.foldl (fun m x => max m (x + 1)) (s.areaSize a))
  have h := nextRun used.contains (s.areaSize a) n top (n * used.length + 2) (s.areaHead a)
  (areaBase a + h, s.setAreaHead a (h + 1))

/-- The superblocks in service: as many are formed as there ever were, less those dissolved (R251). -/
def State.sbNumbers (s : State) : List Nat :=
  (List.range (s.led.sbTotal + (s.led.sbs.filter (fun x => x.2.phase == 4)).length)).filter (fun n => (s.sb n).phase != 4)

/-- The superblock that a new stream opens: a free one with the fewest erases. -/
def State.freshSb (s : State) : Option Nat :=
  (s.sbNumbers.filter (fun n => (s.sb n).phase == 0)).foldl (fun (m : Option Nat) n =>
    match m with
    | none => some n
    | some k => if (s.sb n).erases < (s.sb k).erases then some n else some k) none

/-- The next stripe of a stream: superblock, stripe, and its data dies in order (R234); none where no superblock is
free. -/
def State.nextStripe (s : State) (gc : Bool) : Option (Nat × Nat × List Nat) × State :=
  have pick := match s.led.sbs.find? (fun x => x.2.phase == 1 && x.2.gc == gc) with
    | some x => some x
    | none => (s.freshSb).map (fun n => (n, { s.sb n with
        dies := s.diesInService
        next := 0
        phase := 1
        gc := gc }))
  match pick with
  | none => (none, s)
  | some (n, x) =>
    have parity := x.dies.getD (x.next % max 1 x.dies.length) 0
    have s := s.setSb n { x with
      next := x.next + 1
      phase := if x.next + 1 = 256 then 2 else 1 }
    (some (n, x.next, x.dies.filter (· ≠ parity)), s)

/-- Pages take their places stripe by stripe (R234): the placed pages as (key, PPA), and the stripes used. -/
def State.placePages (s : State) (gc : Bool) : Nat → List Nat → List (Nat × Nat) × List Nat × State
  | 0, _ => ([], [], s)
  | _, [] => ([], [], s)
  | fuel + 1, keys =>
    match s.nextStripe gc with
    | (none, s) => ([], [], s)
    | (some (sb, page, dies), s) =>
      have n := max 1 dies.length
      have placed := (keys.take n).zipIdx.map (fun x => (x.1, ppa sb page (dies.getD x.2 0)))
      have r := s.placePages gc fuel (keys.drop n)
      (placed ++ r.1, (sb * 256 + page) :: r.2.1, r.2.2)

/-- The page entries that the next COMMIT page can hold beside its relocation and erase entries (Table 12.5). -/
def State.commitRoom (s : State) : Nat :=
  (16384 - 64 - 8 * s.led.copies.length - 4 * s.led.eraseQueue.length) / 12 - s.led.segments.length - s.led.leafSegs.length - 2

/-- The longest prefix of records whose pages a COMMIT page can still list (R239) and the areas still hold: the records behind
it stay in DRAM (R244). -/
def fittingFrom (room : Nat) (free : Nat → Nat) (done : List (Nat × PageInfo)) (cur : SMap OpenPage) :
    List (Nat × LedgerRecord) → List (Nat × LedgerRecord)
  | [] => []
  | x :: xs =>
    have r := packRecord done cur x.1 x.2
    have pages := r.1.map (·.1) ++ r.2.map (·.1)
    if pages.length ≤ room && [0, 1].all (fun a => decide ((pages.filter (· == a)).length ≤ free a)) then
      x :: fittingFrom room free r.1 r.2 xs
    else []
def fittingPrefix (room : Nat) (free : Nat → Nat) (recs : List (Nat × LedgerRecord)) : List (Nat × LedgerRecord) :=
  fittingFrom room free [] [] recs

/-- The records of the open group, a STANDBY's own behind the others (R258). -/
def State.openRecords (s : State) : List (Nat × LedgerRecord) :=
  s.led.recs.filter (fun x => decide (s.led.openFirst ≤ x.1)) ++ s.led.side.filter (fun x => decide (s.led.sideOpen ≤ x.1))

/-- The records of the open group that a commit takes: a shutdown group takes the charged ones only (R245). -/
def State.groupTaken (s : State) (shutdown : Bool) : List (Nat × LedgerRecord) :=
  if shutdown then s.openRecords.filter (fun x => x.2.charged || x.2.cls == 0x27) else fittingPrefix s.commitRoom s.areaRoom s.openRecords

/-- The last RSN of records, or a number where they have none; the first of a STANDBY's own that they do not hold (R258). -/
def lastRsn (taken : List (Nat × LedgerRecord)) (none' : Nat) : Nat :=
  ((taken.filter (fun x => decide (x.1 < 2 ^ 63))).getLast?.map (·.1)).getD none'
def sideAfter (taken : List (Nat × LedgerRecord)) (none' : Nat) : Nat :=
  ((taken.filter (fun x => decide (2 ^ 63 ≤ x.1))).getLast?.map (fun x => x.1 + 1)).getD none'

/-- Pages get their LPNs, those of a chain in a row (R235). -/
def State.numberPages (s : State) (list : List (Nat × PageInfo)) : List (Nat × PageInfo) × State :=
  list.foldl (fun (a : List (Nat × PageInfo) × State) x =>
    have goes := match a.1.getLast? with
      | some l => x.2.kind == 2 && l.2.kind == 2 && l.2.first == x.2.first
      | none => false
    have n := if x.2.kind = 2 ∧ !goes then (list.filter (fun y => y.2.kind == 2 && y.2.first == x.2.first)).length else 1
    have l := a.2.takeLpn x.1 n
    (a.1 ++ [(pageKey x.1 l.1, x.2)], l.2)) ([], s)

/-- The STATE and MAP pages of a checkpoint, in the inactive areas (R256): one of each; what they hold is free (log 102). -/
def State.checkpointPages (s : State) : List (Nat × PageInfo) :=
  [(pageKey 1 (s.led.ckptArea * 49152), { kind := 4, free := s.fresh }),
   (pageKey 3 (2 ^ 21 + s.led.ckptArea), { kind := 6, free := s.fresh + 1 })]

/-- The pages of a group are numbered, the records in order, then the segments and the pages of a checkpoint, and placed with the COMMIT
page (R234, R239): the page infos, the pages with their PPAs, the stripes. A segment, a leaf's too (R280), is released
with the group's last RSN (log 102). -/
def State.placeGroup (s : State) (taken : List (Nat × LedgerRecord)) (flags last : Nat) :
    (List (Nat × PageInfo) × List (Nat × Nat) × List Nat) × State :=
  have segs := s.led.segments.map (fun x => (1, ({
    kind := 3
    last := last
    loCycle := x.1
    hiCycle := x.1 + x.2.1
    flags := x.2.2.1
    cap := x.2.2.2 } : PageInfo))) ++ s.led.leafSegs.map (fun x => (1, ({
    kind := 3
    last := last
    loCycle := leAt x.2 8 8
    hiCycle := leAt x.2 8 8 + leAt x.2 28 4
    leaf := x.1
    octets := x.2 } : PageInfo)))
  have r := s.numberPages (packRecords taken ++ segs)
  have more := if bit 1 flags then s.checkpointPages else []
  have infos := (r.1 ++ more).map (fun x => (x.1, { x.2 with csn := s.led.nextCsn, built := s.now }))
  have keys := infos.map (·.1) ++ [commitKey s.led.nextCsn]
  have p := { r.2 with fresh := r.2.fresh + more.length }.placePages false (keys.length + 1) keys
  ((infos, p.1, p.2.1), p.2.2)

/-- The working state as it stands (R233): what a commit of every record so far keeps. -/
def State.working (s : State) : Working :=
  { fca := s.fca
    billing := s.billing
    balance := s.balance
    calendar := s.slalom.calendar
    nodes := s.field.nodes
    packets := s.unreadPackets
    regs := s.regs
    zones := s.sweep.zones
    zvalid := s.sweep.zvalid
    leaves := s.leaves
    epochs := s.epochs }

/-- The working state as it stands is kept as that of the last commit (log 60). -/
def State.keepWorking (s : State) : State := { s with led := { s.led with kept := s.working } }

/-- The last RSN of the open group as it would close: a shutdown group ends with the newest record. -/
def State.groupLast (s : State) (shutdown : Bool) : Nat :=
  if shutdown then s.led.nextRsn - 1 else lastRsn (s.groupTaken false) (s.led.openFirst - 1)
/-- The pages of the open group and its COMMIT page in their places. -/
def State.placeOpen (s : State) (flags : Nat) : (List (Nat × PageInfo) × List (Nat × Nat) × List Nat) × State :=
  s.placeGroup (s.groupTaken (bit 0 flags)) flags (s.groupLast (bit 0 flags))
/-- The superblocks in service have a place for every page of the open group. -/
def State.groupFits (s : State) (flags : Nat) : Bool :=
  decide ((s.placeOpen flags).1.1.length < (s.placeOpen flags).1.2.1.length)

/-- Records become void (R245). -/
def voidThose (voids : List Nat) (m : SMap LedgerRecord) : SMap LedgerRecord :=
  m.map (fun x => if voids.contains x.1 then (x.1, { x.2 with void := true }) else x)

/-- The open group closes (R239, R240): its records are packed and its stripes issued; it stays open where its pages find no place. `flags`
are those of the COMMIT page; a shutdown group takes the charged records only and voids the others (R245). -/
def State.closeGroup (s : State) (flags : Nat) : State :=
  have shutdown := bit 0 flags
  have taken := s.groupTaken shutdown
  have last := s.groupLast shutdown
  have sideEnd := if shutdown then s.led.sideNext else sideAfter taken s.led.sideOpen
  have voids := if shutdown then (s.openRecords.filter (fun x => !x.2.charged && x.2.cls != 0x27)).map (·.1) else []
  have p := s.placeOpen flags
  if !s.groupFits flags then s
  else
    have g : CommitGroup := {
      csn := s.led.nextCsn
      first := s.led.openFirst
      last := last
      closedAt := s.now
      flags := flags + (if s.led.resumed then 4 else 0)
      pages := p.1.2.1
      infos := p.1.1
      rels := s.led.copies
      erases := s.led.eraseQueue
      voids := runsOf (voids.filter (fun n => decide (n < 2 ^ 63)))
      stripes := p.1.2.2
      segs := s.led.segments
      charged := (taken.filter (fun x => x.2.charged)).map (·.1)
      sideEnd := sideEnd
      work := s.working }
    have s := (g.stripes.take (max 1 (g.stripes.length - 1))).foldl (fun (s : State) x => s.issueStripe x (s.pageAt g)) p.2
    have s := { s with led := { s.led with
      groups := s.led.groups ++ [g]
      nextCsn := s.led.nextCsn + 1
      openFirst := last + 1
      sideOpen := sideEnd
      segments := []
      leafSegs := []
      copies := []
      eraseQueue := []
      resumed := false
      recs := voidThose voids s.led.recs
      side := voidThose voids s.led.side } }
    { s with led := { s.led with openSince := (s.openRecords.head?.map (fun x => x.2.time / 65536)).getD s.cycle } }

/-- The open group holds something to commit. -/
def State.openWork (s : State) : Bool :=
  s.hasOpen || !s.led.segments.isEmpty || !s.led.leafSegs.isEmpty || !s.led.copies.isEmpty || !s.led.eraseQueue.isEmpty
def State.storeRuns (s : State) : Bool := s.fld Reg.LEDG_STAT 31 29 == 1

/-- GROUP_CLOSE (R240): COMMIT_CYC cycles after the oldest record, or where the COMMIT page would overflow. -/
def execGroupClose (t : Angle) (s : State) : Outcome :=
  have s := s.tick t
  have due := decide (s.led.openSince + max 1 (s.fld Reg.LEDG_CFG 11 8) ≤ s.cycle) ||
    decide (s.commitRoom ≤ (packRecords s.openRecords).length)
  if s.storeRuns && s.openWork && due then .next (s.closeGroup 0) else .next s

/-- LEDG_SYNC (R240). -/
def effSync (v : Word) (s : State) : WriteResult :=
  if !bit 0 v.toNat then .ignored s
  else if s.storeRuns && s.openWork then .done (s.closeGroup 0) else .done s
def execLedgSync (t : Angle) (p : Path) (v : Word) (s : State) : Outcome :=
  .next ((s.tick t).hostWrite p 0x38 0x0A0 (effSync v))

/-- STRIPE_PROGRAMMED (R239): the oldest group's next stripe reports success; its last one is issued when it is the only
one left. A stripe that waits to be written again reports nothing. -/
def execStripeProgrammed (t : Angle) (s : State) : Outcome :=
  have s := s.tick t
  match s.led.groups with
  | g :: gs =>
    if 1 < g.stripes.length ∧ !s.led.stalled then
      have s := { s with led := { s.led with groups := { g with stripes := g.stripes.drop 1 } :: gs } }
      .next (match g.stripes with
        | [_, x] => s.issueStripe x (s.pageAt g)
        | _ => s)
    else .next s
  | [] => .next s

def State.areaLow (s : State) (a : Nat) : Bool := decide (s.areaFree a * 100 < s.areaSize a * clampNat 2 90 (s.fld Reg.LEDG_SPACECFG 7 0))
def State.areaHold (s : State) (a : Nat) : Bool := decide (s.areaFree a * 100 < s.areaSize a)

/-- LOW and the store holds follow the free pages (R244); `was` is the state before they changed. -/
def State.spaceAfter (was s : State) (a : Nat) : State :=
  have flag := 28 - a
  have s := if s.areaLow a && !was.areaLow a && !s.flag (evRaw 0x38) 8 then
      ((s.setReg64 Reg.LEDG_LOW_AT_LO Reg.LEDG_LOW_AT_HI s.now).setReg Reg.LEDG_LOW_MIN (a * 2 ^ 30 + s.areaFree a)).raise 0x38 8
    else if s.flag (evRaw 0x38) 8 && s.fld Reg.LEDG_LOW_MIN 31 30 == a && decide (s.areaFree a < s.fld Reg.LEDG_LOW_MIN 29 0) then
      s.setReg Reg.LEDG_LOW_MIN (a * 2 ^ 30 + s.areaFree a)
    else s
  have hold := s.areaHold a
  have raised := hold && !s.flag Reg.LEDG_STAT flag
  have s := s.setFlag Reg.LEDG_STAT flag hold
  if raised then s.raise 0x38 9 else s
def State.checkSpace (was s : State) : State := was.spaceAfter (was.spaceAfter s 0) 1

/-- RING_REL (R243). -/
def State.arch (s : State) : Nat := s.reg64 Reg.LEDG_ARCH_LO Reg.LEDG_ARCH_HI
def State.ringRel (s : State) : Nat := if s.nv.role = 1 then max s.arch s.led.hubAck else s.arch

/-- The period record without the entries of a released segment, those of the cycles from `lo` up to but not including `hi` (R26, R243). -/
def cutRecord (rs : List PeriodRun) (lo hi : Nat) : List PeriodRun :=
  rs.flatMap (fun r =>
    have stop := r.first + r.count
    if stop ≤ lo ∨ hi ≤ r.first then [r]
    else (if hi < stop then [⟨hi, stop - hi, r.entry⟩] else []) ++ (if r.first < lo then [⟨r.first, lo - r.first, r.entry⟩] else []))

/-- The entries of a segment's page leave the period record that it belongs to, the module's or a leaf's. -/
def State.cutPeriods (s : State) (i : PageInfo) : State :=
  if i.leaf = 0 then { s with sweep := { s.sweep with record := cutRecord s.sweep.record i.loCycle i.hiCycle } }
  else { s with leaves := s.leaves.modify i.leaf (fun x => { x with record := cutRecord x.record i.loCycle i.hiCycle }) }

/-- The records that a page holds. -/
def PageInfo.holds (i : PageInfo) (k : Nat) (r : Nat × LedgerRecord) : Bool :=
  (i.kind == 1 || i.kind == 2) && classPart r.2.cls == k / 2 ^ 22 && decide (i.first ≤ r.1) && decide (r.1 ≤ i.last)

/-- The first and the last cycle of a raw packet's samples on the module's axis (R137, R29). -/
def State.rawCycles (s : State) (r : LedgerRecord) : Nat × Nat :=
  have h := leAt r.payload 0 16
  have a := s.onAxis r.leaf (h % 2 ^ 64)
  (a / 65536, (a + (headerCount h - 1) * bits 79 64 h * 65536) / 65536)

/-- A cycle of a leaf on the module's axis (R29). -/
def State.axisCycle (s : State) (leaf c : Nat) : Nat := s.onAxis leaf (c * 65536) / 65536

/-- A raw-ring page that is not released holds a packet from the cycles from `lo` up to but not including `hi` (R243). -/
def State.rawNeeds (s : State) (lo hi : Nat) : Bool :=
  (s.led.pages.filter (fun x => x.1 / 2 ^ 22 == 0 && decide (s.ringRel < x.2.last))).any (fun x =>
    (s.led.recs.filter (x.2.holds x.1)).any (fun r =>
      have c := s.rawCycles r.2
      decide (c.1 < hi) && decide (lo ≤ c.2)))

/-- A committed later record of the system partition stands for an earlier one (R237): the same node's, the same subtype's, and a Logbook
copy for the entries before it (R391). -/
def State.superseded (s : State) (x : Nat × LedgerRecord) : Bool :=
  x.2.void || s.heldRecs.any (fun y =>
    y.2.cls == x.2.cls && !y.2.void && s.recDone y.1 &&
      (decide (x.2.time < y.2.time) || x.2.time == y.2.time && decide (x.1 < y.1)) &&
      (have a := leAt x.2.payload 0 2
       have b := leAt y.2.payload 0 2
       if x.2.cls = 0x29 ∧ a = 4 then b == 3 else a == b))

/-- A mapped page is released (R243): of the raw ring, of the log area with its period segments, and of the system partition, whose records
are rewritten in place (R237). -/
def State.pageReleased (s : State) (k : Nat) (i : PageInfo) : Bool :=
  if inArea 0 k then decide (i.last ≤ s.ringRel)
  else if inArea 1 k then
    decide (i.last ≤ s.arch) && (i.kind != 3 || (decide (0 < s.arch) && !(s.rawNeeds (s.axisCycle i.leaf i.loCycle) (s.axisCycle i.leaf i.hiCycle))))
  else if inArea 2 k then (s.heldRecs.filter (i.holds k)).all s.superseded
  else false

/-- Released pages leave the map (R243), and with them the records that stand in no other page, void ones of the archived range too. -/
def State.releasePages (s : State) : State :=
  have was := s
  have gone := s.led.pages.filter (fun x => s.pageReleased x.1 x.2)
  have kept := s.led.pages.filter (fun x => !(s.pageReleased x.1 x.2))
  have dropped := gone.filter (fun x => x.2.kind == 3)
  have drops := fun (r : Nat × LedgerRecord) =>
    (gone.any (fun x => x.2.holds x.1 r) && !(kept.any (fun x => x.2.holds x.1 r))) || (r.2.void && decide (r.1 ≤ s.arch))
  have s := dropped.foldl (fun (s : State) x => s.cutPeriods x.2) s
  have s := { s with led := { s.led with
    map := s.led.map.filter (fun x => !(gone.any (fun g => g.1 == x.1)))
    pages := kept
    recs := s.led.recs.filter (fun r => !(drops r))
    side := s.led.side.filter (fun r => !(drops r)) } }
  (was.checkSpace s).setReg64 Reg.LEDG_RING_REL_LO Reg.LEDG_RING_REL_HI s.ringRel

/-- ARCHIVE_COMMIT (R243): a value below the current ARCH or above RSN is ignored and recorded. -/
def effArchHi (v : Word) (s : State) : WriteResult :=
  have x := s.latched .pcie Reg.LEDG_ARCH_LO + 2 ^ 32 * v.toNat
  if x < s.arch ∨ s.committed < x then .discard s 0x0B
  else .done ((s.setReg64 Reg.LEDG_ARCH_LO Reg.LEDG_ARCH_HI x).releasePages)
/-- ARCH_LO is staged until ARCH_HI is written. -/
def effArchLo (v : Word) (s : State) : WriteResult := .done (s.latchAt .pcie Reg.LEDG_ARCH_LO v.toNat)
def execArchiveCommit (t : Angle) (p : Path) (v : Word) (s : State) : Outcome :=
  .next ((s.tick t).hostWrite p 0x38 0x074 (effArchHi v))

/-- The frame of a record in the read window (R235), its chain resolved. -/
def frameOf (r : LedgerRecord) : List Byte :=
  have n := r.payload.length
  leBytes 2 n ++ leBytes 1 r.cls ++ leBytes 1 (b2n (decide (16380 < n)) + 2 * b2n r.charged) ++ (if r.lost then zeros n else r.payload)

/-- The frames that fit a window of a size, oldest first (Table 13.7). -/
def fittingFrames (room : Nat) : List (Nat × LedgerRecord) → List (Nat × LedgerRecord)
  | [] => []
  | x :: xs =>
    have n := (frameOf x.2).length
    if n ≤ room then x :: fittingFrames (room - n) xs else []

/-- The raw ring takes what the data space leaves (R238); each change raises SHRINK, and below 4 GiB the store is
read-only. -/
def State.resizeRing (s : State) : State :=
  have w := s.diesInService.length
  have gib := s.led.sbTotal * (w - 1) * 4 / 1024
  have ring := min 28 (gib - 24) * 65536
  if ring = s.led.ringPages then s
  else
    have was := s
    have s := { s with led := { s.led with ringPages := ring } }
    have s := (was.checkSpace s).raise 0x39 5
    if ring < 4 * 65536 ∧ !s.readOnly then ((s.setFld Reg.LEDG_STAT 31 29 3).loseRes 0x28 0x12).alert 0x38 else s

/-- A die is lost (R253): its pages are rebuilt from parity from then on, and REBUILD relocates every superblock that
has a block on it, or on a die lost before, those with ledger and system pages first. -/
def State.loseDie (s : State) (d : Nat) : State :=
  if (s.die d).state ≠ 0 then s
  else
    have s := { s with led := { s.led with dies := s.led.dies.put d { s.die d with state := 1 } } }
    have on := (s.led.sbs.filter (fun x => (x.2.phase == 1 || x.2.phase == 2) && (x.2.dies.contains d || s.led.rebuild.contains x.1))).map (·.1)
    have ring := fun n : Nat => s.led.map.any (fun x => ppaSb x.2 == n && x.1 / 2 ^ 22 == 0)
    have order := on.filter (fun n => !(ring n)) ++ on.filter ring
    have s := { s with led := { s.led with
      rebuild := order
      sbs := s.led.sbs.map (fun (x : Nat × Superblock) => if on.contains x.1 ∧ x.2.phase = 1 then (x.1, { x.2 with phase := 2 }) else x) } }
    have s := (s.setReg Reg.NAND_REBUILD (b2n (!order.isEmpty) * 2 ^ 31 + order.length)).raise 0x39 1
    (s.resizeRing).recomputeOn 0x12 [0x28]

/-- Records in a row are lost (R254): LOSS, its count and its event record, with event 0. -/
def State.loseRun (s : State) (first last : Nat) : State :=
  have n := last + 1 - first
  have s := (s.setReg64 Reg.LEDG_LOSS_FIRST_LO Reg.LEDG_LOSS_FIRST_HI first).setReg Reg.LEDG_LOSS_N n
  ((s.bump Reg.LEDG_LOSS_CNT n).journalEvent 0x06 0 (leBytes 8 first ++ leBytes 8 n)).raiseAlert 0x38 10
/-- Records are lost, range by range. -/
def State.loseRecords (s : State) (gone : List Nat) : State :=
  have mark := fun (m : SMap LedgerRecord) => m.map (fun (r : Nat × LedgerRecord) => if gone.contains r.1 then (r.1, { r.2 with lost := true }) else r)
  have s := { s with led := { s.led with recs := mark s.led.recs, side := mark s.led.side } }
  (runsOf gone).foldl (fun (s : State) x => s.loseRun x.1 x.2) s

/-- The twin answers requests for records, over Pairs 2 (R14, R254). -/
def State.twinServes (s : State) : Bool := s.fld Reg.PAIRS_STAT 26 24 == 2 && (s.pairState == 1 && s.syncState == 2 || s.pairState == 2)

/-- The twin is asked for records, range by range, and has supplied some of them (R254). -/
def State.askTwin (s : State) (gone back : List Nat) : State :=
  have s := (runsOf gone).foldl (fun (s : State) x => s.send (.pairs 6 [x.1, x.2])) s
  if back.isEmpty then s else s.bump Reg.NAND_TWIN_FETCH back.length

/-- Pages that neither parity nor the twin gives back: they read as zero, and their records are lost (R254). -/
def State.losePages (s : State) (bad : List (Nat × PageInfo)) (left : List Nat) : State :=
  if bad.isEmpty then s
  else
    have s := { s with led := { s.led with
      pages := s.led.pages.map (fun (p : Nat × PageInfo) => if bad.any (fun i => i.1 == p.1) then (p.1, { p.2 with lost := true }) else p) } }
    ((s.bump Reg.NAND_UNREC bad.length).raise 0x39 4).loseRecords left

/-- Pages of a stripe cannot be rebuilt (R254), those on the dies of a mask: their records are asked of the twin by RSN range; those that it
does not supply are lost, and their pages read as zero. -/
def State.loseStripe (s : State) (stripe dies : Nat) (supplied : List Nat) : State :=
  have keys := (s.led.map.filter (fun x => ppaStripe x.2 == stripe && bit (x.2 % 8) dies)).map (·.1)
  have infos := s.led.pages.filter (fun x => keys.contains x.1)
  have gone := (s.heldRecs.filter (fun r => !r.2.void && infos.any (fun i => i.2.holds i.1 r))).map (·.1)
  have back := if s.twinServes then gone.filter supplied.contains else []
  have left := gone.filter (fun n => !(back.contains n))
  have s := if s.twinServes then s.askTwin gone back else s
  have bad := infos.filter (fun i => (s.heldRecs.filter (i.2.holds i.1)).isEmpty || left.any (fun n => decide (i.2.first ≤ n) && decide (n ≤ i.2.last)))
  s.losePages bad left

/-- A superblock is queued for refresh (R250, R255). -/
def State.queueRefresh (s : State) (sb : Nat) : State :=
  if s.led.refresh.contains sb then s
  else ({ s with led := { s.led with refresh := s.led.refresh ++ [sb] } }.bump Reg.GROOM_REFRESHES).raise 0x3A 1

/-- The stripes that hold mapped data, in order. -/
def State.dataStripes (s : State) : List Nat := s.led.map.foldl (fun l x => insertUp (ppaStripe x.2) l) []

/-- A stripe counts as read in the Groomer's pass (R255). -/
def State.markRead (s : State) (stripe : Nat) : State :=
  have l := insertUp stripe s.led.groomed
  { s with led := { s.led with groomed := l } }.setReg Reg.GROOM_PASS_POS l.length
/-- A read made for another purpose counts towards the pass under way. -/
def State.noteRead (s : State) (stripe : Nat) : State :=
  if s.led.groomed.isEmpty || !(s.dataStripes.contains stripe) then s else s.markRead stripe

/-- A page is rebuilt from parity (R250). -/
def State.rebuiltPage (s : State) (stripe : Nat) : State := ((s.bump Reg.NAND_REBUILT).raise 0x39 3).queueRefresh (stripe / 256)

/-- A stripe is read, by the Groomer or for a reader (R250, R253, R254); `failed` names a die that failed the read after a reset and two
retries. -/
def State.readStripe (s : State) (stripe : Nat) (r : StripeRead) : State :=
  have s := s.noteRead stripe
  match r with
  | .corrected n words =>
    have s := s.bump Reg.NAND_CORR_CW words
    if clampNat 8 36 (s.fld Reg.GROOM_CFG 13 8) ≤ n then s.queueRefresh (stripe / 256) else s
  | .rebuilt => s.rebuiltPage stripe
  | .failed d => (s.rebuiltPage stripe).loseDie d.val
  | .lost dies supplied => s.loseStripe stripe dies.toNat (supplied.map (fun (x : BitVec 64) => x.toNat))

/-- What an operation finds in the stripes that it reads (R250). -/
def State.readStripes (s : State) (reads : List (BitVec 19 × StripeRead)) : State :=
  reads.foldl (fun (s : State) (x : BitVec 19 × StripeRead) => s.readStripe x.1.toNat x.2) s

/-- LEDGER_READ (R235): committed records from RD_RSN on, void ones skipped, and divergent ones that the mirror has not reached (R332); `reads` is what the stripes it reads show (R250). -/
def effRdGo (reads : List (BitVec 19 × StripeRead)) (v : Word) (s : State) : WriteResult :=
  if !bit 0 v.toNat then .ignored s
  else
    have s := s.readStripes reads
    have first := s.reg64 Reg.LEDG_RD_RSN_LO Reg.LEDG_RD_RSN_HI
    have cnt := clampNat 1 4096 (s.fld Reg.LEDG_RD_CNT 12 0)
    have held := s.led.recs.filter (fun x => decide (first ≤ x.1) && decide (x.1 ≤ s.committed) && !x.2.void) ++
      s.led.divergent.filter (fun x => decide (first ≤ x.1) && decide (s.led.nextRsn ≤ x.1))
    have oldest := (s.led.recs.head?.map (·.1)).getD s.led.nextRsn
    have gone := decide (first < oldest) || (decide (first ≤ s.committed) && (s.led.recs.find first).isNone)
    if gone then .done (s.setReg Reg.LEDG_RD_STAT (2 * 2 ^ 28))
    else
      have out := fittingFrames 0x1000000 (held.take cnt)
      have s := s.store 0x1000000 (out.flatMap (fun x => frameOf x.2))
      .done (s.setReg Reg.LEDG_RD_STAT ((if out.any (fun x => x.2.lost) then 3 else 1) * 2 ^ 28 + out.length))
def execLedgerRead (t : Angle) (p : Path) (v : Word) (reads : List (BitVec 19 × StripeRead)) (s : State) : Outcome :=
  .next ((s.tick t).hostWrite p 0x38 0x0C0 (effRdGo reads v))

/-- The oldest RSN that an area holds (Table 12.7). -/
def State.readPartOld (s : State) : Nat :=
  have a := s.fld Reg.LEDG_PART_SEL 1 0
  if 2 ≤ a then 0
  else ((s.areaPages a).filterMap (fun x => (s.led.pages.find x.1).bind (fun i => if i.kind = 3 then none else some i.first))).foldl
    (fun m x => if m = 0 ∨ x < m then x else m) 0
def State.readPartSize (s : State) : Nat := s.areaSize (s.fld Reg.LEDG_PART_SEL 1 0)
def State.readPartFree (s : State) : Nat := s.areaFree (s.fld Reg.LEDG_PART_SEL 1 0)

/-- A block of a die is retired (R251, R252): the superblock is formed again with a spare block, or dissolved where the
die has none left. -/
def State.retireBlock (s : State) (sb d : Nat) : State :=
  have x := s.die d
  have s := { s with led := { s.led with dies := s.led.dies.put d { x with retired := x.retired + 1 } } }
  have s := s.raise 0x39 0
  have spare := decide (s.led.sbTotal + x.factBad + x.retired + 1 ≤ 2048)
  have s := if spare then s
    else ({ s with led := { s.led with sbTotal := s.led.sbTotal - 1 } }.setSb sb { s.sb sb with phase := 4 }).resizeRing
  if 64 < x.retired + 1 then s.loseDie d else s

/-- The mapped pages of a superblock. -/
def State.validPages (s : State) (n : Nat) : List (Nat × Nat) := s.led.map.filter (fun x => ppaSb x.2 == n)

/-- Programs of groups or copies that no completed commit holds yet stand in a superblock: its pages are not all in the map. -/
def State.unsettled (s : State) (n : Nat) : Bool :=
  s.led.copies.any (fun c => ppaSb c.2 == n) ||
    s.led.groups.any (fun g => g.pages.any (fun x => ppaSb x.2 == n) || g.rels.any (fun x => ppaSb x.2 == n))

/-- A superblock waits for its erase, or a commit under way lists it (R241). -/
def State.releasing (s : State) (n : Nat) : Bool := s.led.eraseQueue.contains n || s.led.groups.any (fun g => g.erases.contains n)
/-- A superblock can be collected: closed, every page of it in the map, and not on its way to an erase. -/
def State.collectable (s : State) (n : Nat) : Bool := (s.sb n).phase == 2 && !s.unsettled n && !s.releasing n

/-- The closed superblock that collection takes (R247, R251): one with a block to retire ahead of any other; else the victim under way; else
one queued for relocation or refresh; else the coldest one where the wear spread asks for it; else, below GC_LOW, the one with the fewest
valid pages, the less erased one on a tie. -/
def State.pickCollect (s : State) : Option Nat :=
  have closed := s.led.sbs.filter (fun x => s.collectable x.1)
  have erases := s.sbNumbers.map (fun n => (s.sb n).erases)
  have gap := max 100 (s.fld Reg.NAND_WEARCFG 15 0)
  have spread := erases.foldl max 0 - erases.foldl min (erases.headD 0)
  have least := fun (f : Nat × Superblock → Nat × Nat) => closed.foldl (fun (m : Option (Nat × Nat × Nat)) x =>
    have v := f x
    match m with
    | none => some (x.1, v)
    | some (_, a, b) => if v.1 < a ∨ v.1 = a ∧ v.2 < b then some (x.1, v) else m) none
  ((s.led.retire.map (·.1)).find? s.collectable).or (s.led.victim.or ((s.led.refresh.find? s.collectable).or (
    if gap < spread then (least (fun x => (x.2.erases, 0))).map (·.1)
    else if s.freeSbs < clampNat 24 512 (s.fld Reg.NAND_GCCFG 27 16) then
      (least (fun x => ((s.validPages x.1).length, x.2.erases))).map (·.1)
    else none)))

/-- The valid pages of a superblock that have no copy yet. -/
def State.uncopied (s : State) (n : Nat) : List Nat :=
  ((s.validPages n).filter (fun x => !(s.led.copies.any (fun c => c.1 == x.1)) &&
    !(s.led.groups.any (fun g => g.rels.any (fun c => c.1 == x.1))))).map (·.1)

/-- Valid pages of a victim are copied with their headers into the next stripe of the collection stream, which is issued with its parity
(R234), and enter the next group as relocation entries (R247); a victim that is wholly copied may be listed for erase by that group
(R241). -/
def State.copyStripe (s : State) (n : Nat) : State :=
  have left := s.uncopied n
  have p := if left.isEmpty then ([], [], s) else s.placePages true 1 left
  have s := p.2.1.foldl (fun (s : State) x => s.issueStripe x (s.copyAt p.1)) p.2.2
  have s := { s with led := { s.led with copies := s.led.copies ++ p.1 } }.bump Reg.NAND_RELOC p.1.length
  if left.length ≤ p.1.length ∧ !s.unsettled n then
    { s with led := { s.led with
      victim := none
      refresh := s.led.refresh.filter (· ≠ n)
      eraseQueue := s.led.eraseQueue ++ [n] } }
  else { s with led := { s.led with victim := some n } }

/-- GC_STEP (R247); `reads` is what the stripes read for the copies show (R250). -/
def execGcStep (t : Angle) (reads : List (BitVec 19 × StripeRead)) (s : State) : Outcome :=
  have s := s.tick t
  have low := clampNat 24 512 (s.fld Reg.NAND_GCCFG 27 16)
  have pause := s.hot && decide (clampNat 8 (low / 2) (s.fld Reg.NAND_GCCFG 11 0) ≤ s.freeSbs)
  if !s.storeRuns || s.pfStop || pause then .next s
  else match s.pickCollect with
    | none => .next s
    | some n => .next ((s.readStripes reads).copyStripe n)

/-- REBUILD has done with a superblock (R253). -/
def State.rebuildNext (s : State) (n : Nat) : State :=
  have rest := s.led.rebuild.filter (· ≠ n)
  have s := { s with led := { s.led with rebuild := rest } }.setReg Reg.NAND_REBUILD (b2n (!rest.isEmpty) * 2 ^ 31 + rest.length)
  if rest.isEmpty then s.raise 0x39 2 else s

/-- REBUILD_STEP (R253); `reads` is what the stripes read for the copies show (R250). -/
def execRebuildStep (t : Angle) (reads : List (BitVec 19 × StripeRead)) (s : State) : Outcome :=
  have s := s.tick t
  if !s.storeRuns || s.pfStop then .next s
  else match s.led.rebuild with
    | [] => .next s
    | n :: _ =>
      have s := if s.releasing n || (s.sb n).phase != 2 then s else (s.readStripes reads).copyStripe n
      .next (if s.releasing n || (s.sb n).phase != 2 then s.rebuildNext n else s)

/-- A failed stripe of the oldest group is written again in the next stripes of the journal stream (R251); where no superblock is free it
waits for one. -/
def State.rewriteStripe (s : State) : State :=
  match s.led.groups with
  | [] => s
  | g :: gs =>
    match g.stripes with
    | [] => s
    | stripe :: rest =>
      have bad := (g.pages.filter (fun x => ppaStripe x.2 == stripe)).map (·.1)
      have p := s.placePages false (bad.length + 1) bad
      if p.1.length < bad.length then { s with led := { s.led with stalled := true } }
      else
        have g := { g with pages := g.pages.filter (fun x => ppaStripe x.2 != stripe) ++ p.1, stripes := p.2.1 ++ rest }
        have s := { p.2.2 with led := { p.2.2.led with groups := g :: gs, stalled := false } }
        have now := if rest.isEmpty then p.2.1.take (max 1 (p.2.1.length - 1)) else p.2.1
        now.foldl (fun (s : State) x => s.issueStripe x (s.pageAt g)) s

/-- A superblock is free again, and the blocks that wait to be retired with it are (R251); a stripe that waits for a free superblock is
written. -/
def State.freeSb (s : State) (sb erases : Nat) (dies : List Nat) : State :=
  have s := s.setSb sb { dies := s.diesInService, erases := erases }
  have due := (s.led.retire.filter (fun r => r.1 == sb)).map (·.2)
  have s := { s with led := { s.led with retire := s.led.retire.filter (fun r => r.1 != sb) } }
  have s := (due ++ dies.filter (fun d => !(due.contains d))).foldl (fun (s : State) d => s.retireBlock sb d) s
  if s.led.stalled then s.rewriteStripe else s
/-- A superblock is erased (R241). -/
def State.eraseSb (s : State) (sb : Nat) : State := (s.bump Reg.NAND_SB_ERASED).freeSb sb ((s.sb sb).erases + 1) []

/-- An erase that has been issued ends: the warning abandons it (R245). -/
def State.erasing (s : State) (sb : Nat) : Bool := (s.sb sb).phase == 3 && s.storeRuns && !s.pfStop

/-- ERASE_COMPLETE (R241): a superblock that a completed commit lists is erased. -/
def execEraseComplete (t : Angle) (sb : BitVec 11) (s : State) : Outcome :=
  have s := s.tick t
  .next (if s.erasing sb.toNat then s.eraseSb sb.toNat else s)

/-- ERASE_FAIL (R252): the block is retired and its superblock formed again; `dead` tells that the die failed after a reset and two retries
too (R253). -/
def execEraseFail (t : Angle) (sb : BitVec 11) (die : Fin 8) (dead : Bool) (s : State) : Outcome :=
  have s := s.tick t
  .next (
    if !s.erasing sb.toNat then s
    else
      have s := (s.bump Reg.NAND_ERASE_FAIL).freeSb sb.toNat (s.sb sb.toNat).erases [die.val]
      if dead then s.loseDie die.val else s)

/-- A superblock closes for writing, its valid pages are relocated ahead of others, and its block on a die is retired
after that (R251). -/
def State.closeBad (s : State) (sb die : Nat) : State :=
  have s := s.setSb sb { s.sb sb with phase := 2 }
  { s with led := { s.led with retire := if s.led.retire.contains (sb, die) then s.led.retire else s.led.retire ++ [(sb, die)] } }
/-- A program has failed on a die: its superblock closes, or the die is lost where it failed after a reset and two retries (R253). -/
def State.failProgram (s : State) (sb die : Nat) (dead : Bool) : State :=
  if dead then (s.setSb sb { s.sb sb with phase := 2 }).loseDie die else s.closeBad sb die

/-- The copies of a failed stripe of the collection stream are made again: they leave the relocation entries, and the superblocks that they
came from leave the erase entries (R248). -/
def State.failCopies (s : State) (stripe : Nat) : State :=
  have fails := fun (x : Nat × Nat) => ppaStripe x.2 == stripe
  have from' := ((s.led.copies ++ s.led.groups.flatMap (·.rels)).filter fails).filterMap (fun x => (s.led.map.find x.1).map ppaSb)
  have stays := fun (l : List Nat) => l.filter (fun n => !(from'.contains n))
  have again := (from'.filter s.releasing).eraseDups.filter (fun n => !(s.led.refresh.contains n))
  { s with led := { s.led with
    copies := s.led.copies.filter (fun x => !(fails x))
    groups := s.led.groups.map (fun g => { g with rels := g.rels.filter (fun x => !(fails x)), erases := stays g.erases })
    refresh := s.led.refresh ++ again
    eraseQueue := stays s.led.eraseQueue } }

/-- PROGRAM_FAIL (R248, R251, R253): a stripe of the oldest group is written again in the next stripe of the journal stream, or the copies
of the newest stripe of the collection stream that is not committed are made again. -/
def execProgramFail (t : Angle) (die : Fin 8) (gc dead : Bool) (s : State) : Outcome :=
  have s := (s.tick t).bump Reg.NAND_PROG_FAIL
  .next (
    if gc then
      match (s.led.groups.flatMap (·.rels) ++ s.led.copies).getLast? with
      | none => s
      | some c => (s.failProgram (ppaSb c.2) die.val dead).failCopies (ppaStripe c.2)
    else match s.led.groups with
      | [] => s
      | g :: _ => match g.stripes with
        | [] => s
        | stripe :: _ => if s.led.stalled then s else (s.failProgram (stripe / 256) die.val dead).rewriteStripe)

/-- The Groomer's pass begins, and ends (R255). -/
def State.beginPass (s : State) (total : Nat) : State :=
  { s.setReg Reg.GROOM_PASS_TOT total with led := { s.led with
    passStart := s.now
    passUp := s.uptime
    passLate := false } }
def State.endPass (s : State) : State :=
  have s := ({ s with led := { s.led with groomed := [] } }.setReg Reg.GROOM_PASS_POS 0).bump Reg.GROOM_PASS_CNT
  have s := s.setReg64 Reg.GROOM_PASS_END_LO Reg.GROOM_PASS_END_HI s.now
  (s.setReg Reg.GROOM_MAXBITS (s.fld Reg.GROOM_MAXBITS 21 16)).raise 0x3A 0
/-- Every stripe with mapped data has been read in the pass. -/
def State.passDone (s : State) : Bool := s.dataStripes.all (fun n => s.led.groomed.contains n)

/-- GROOM_STEP (R255): the next stripe that the pass has not read is read; `r` is what the read finds; instrument 0x61 samples its highest
count (Table 20.1). -/
def execGroomStep (t : Angle) (r : StripeRead) (s : State) : Outcome :=
  have s := s.tick t
  have stripes := s.dataStripes
  .next (
    if !s.flag Reg.GROOM_CFG 0 || !s.storeRuns || s.pfStop || s.hot || stripes.isEmpty then s
    else
      have s := if s.led.groomed.isEmpty then s.beginPass stripes.length else s
      match stripes.find? (fun n => !(s.led.groomed.contains n)) with
      | none => s.endPass
      | some stripe =>
        have s := match r with
          | .corrected n _ => (s.setFld Reg.GROOM_MAXBITS 21 16 (max n (s.fld Reg.GROOM_MAXBITS 21 16))).sample 0x61 (n : Nat)
          | _ => s.raise 0x3A 2
        have s := (s.markRead stripe).readStripe stripe r
        if s.passDone then s.endPass else s)

/-- The period of a pass in units of 125 ps of the 25 MHz reference (R255). -/
def State.passPeriod (s : State) : Nat := clampNat 2 30 (s.fld Reg.GROOM_CFG 20 16) * 691200000000000

/-- GROOM_LATE (R255): a pass that has not finished in time continues, and is counted once. -/
def execGroomLate (t : Angle) (s : State) : Outcome :=
  have s := s.tick t
  .next (
    if s.reg Reg.GROOM_PASS_POS = 0 || s.led.passLate || s.uptime < s.led.passUp + s.passPeriod then s
    else (({ s with led := { s.led with passLate := true } }).bump Reg.GROOM_LATE).raise 0x3A 3)

/-- The body of the Groomer's SYSDATA record (Table 12.18). -/
def State.groomBody (s : State) : List Byte :=
  leBytes 4 (s.reg Reg.GROOM_PASS_POS) ++ leBytes 4 (s.reg Reg.GROOM_PASS_TOT) ++ leBytes 4 (s.reg Reg.GROOM_PASS_CNT) ++
    leBytes 8 s.led.passStart

/-- The body of the Logbook's SYSDATA record (Table 12.18): instrument records of 192 octets, then the entries. -/
def logbookBody (bodyOf : Nat → List Byte) (entries : SMap LogEntry) : List Byte :=
  (List.range 256).flatMap bodyOf ++ (List.range 2048).flatMap (fun i => match entries.find i with
    | some e => logEntryBytes e
    | none => zeros 32)

/-- NAND registers that show the store (Table 12.9). -/
def State.readNandInfo (s : State) : Nat :=
  have mask := fun (f : Nat → Bool) => (List.range 8).foldl (fun m d => if f d then m + 2 ^ d else m) 0
  mask (fun d => (s.die d).state != 2) * 2 ^ 24 + mask (fun d => (s.die d).state == 0) * 2 ^ 16 + s.diesInService.length
def State.readSbstat (s : State) : Nat := s.freeSbs * 2 ^ 16 + s.led.sbTotal
def State.readDieStat (s : State) : Nat :=
  have d := s.die (s.fld Reg.NAND_DIE_SEL 2 0)
  d.state * 2 ^ 30 + d.factBad * 2 ^ 16 + d.retired
def State.readDieWear (s : State) : Nat :=
  have d := s.fld Reg.NAND_DIE_SEL 2 0
  have e := (s.sbNumbers.map s.sb).filter (fun x => x.dies.contains d) |>.map (·.erases)
  min (e.foldl max 0) 65535 * 2 ^ 16 + min (e.foldl min (e.headD 0)) 65535

end Sys2Proof.Machine
end

