-- ==== Sys2Proof/Machine/Accept.lean ====
section
/-!
DEFINITION. The acceptance of readings (R45, R47, R80, R183, R244, R278): the cover queue, what an accepted IV, TOTAL or
stream packet does, and the acknowledgements that acceptance allows (R329).
-/

namespace Sys2Proof.Machine

/-- The ended interval of a channel whose number has the low bits `idx`, the most recent one, with its end (R80, R211). -/
def BillChan.resolve (c : BillChan) (idx : Nat) : Option (Nat × Nat) :=
  have back : Nat := (c.inum + 255 + 256 - idx % 256) % 256
  (c.bounds[back]?).map (fun e => (c.inum - 1 - back, e))

/-- The valid channel-table entry that a node key names (R208). -/
def State.keyChan (s : State) (leaf node nch : Nat) : Option (Nat × BillChan) :=
  s.billing.chans.find? (fun x => x.2.valid && x.2.key == leaf + 2 ^ 8 * node + 2 ^ 21 * nch)

/-- A READING record (Table 12.11). -/
def readingRecord (ch qual kind inum value at' : Nat) (miss carried late : Bool) : List Byte :=
  leBytes 4 (ch + qual * 2 ^ 20 + b2n miss * 2 ^ 23 + b2n carried * 2 ^ 24 + b2n late * 2 ^ 25 + kind * 2 ^ 30) ++
    leBytes 4 inum ++ leBytes 8 value ++ leBytes 8 at'

/-- The first IV record of an interval writes its interval record (R212). -/
def State.firstInterval (s : State) (ch num qual units : Nat) : State :=
  match s.billChan ch with
  | none => s
  | some c =>
    if c.recorded.contains num then s
    else
      have s := s.intervalRecord ch qual (c.waitFlags.getD num 0) num units
      (s.setBillChan ch { c with
        recorded := num :: c.recorded
        waitFlags := c.waitFlags.del num
        closedUnits := c.closedUnits.put num units
        firsts := if units = 0 then c.firsts else num :: c.firsts }).crossCheck ch num

/-- An accepted IV record of a channel (R183): kind, interval number, its end as the record names it, the sweep time to
which its units go, INC, and the leaf whose reading it is. Answers the RSN of its READING record. A later one for its interval that
carries no units writes its supplementary record here (R212). -/
def State.takeIv (s : State) (ch kind num at' place inc leaf : Nat) : Nat × State :=
  have fed := match s.liveDesc ch place with
    | some e => if Desc.method e.raw = 6 then some e else none
    | none => none
  have late := ((s.billChan ch).map (fun c => c.recorded.contains num)).getD false
  match fed with
  | none =>
    have r := s.append 0x02 (readingRecord ch 3 0 num inc at' (kind == 3) false late) none leaf
    (r.1, r.2.bump Reg.FCAC_NOMATCH)
  | some e =>
    have range := decide (Desc.lowcut e.raw < inc)
    have qual := if range then 3 else if kind = 2 then 2 else 0
    have r := s.append 0x02 (readingRecord ch qual 0 num inc at' (kind == 3) (!range) late) none leaf
    have s := r.2.firstInterval ch num qual (if range then 0 else inc)
    have s := if late ∧ (range ∨ inc = 0) then s.intervalRecord ch qual (2 ^ 28) num 0 else s
    if range then (r.1, s.keepEvent ch ⟨place, 0, 3, false, 0⟩)
    else
      have c := enterDesc e (s.chan false ch)
      have q : Int := inc * 2 ^ 40
      have a := addTotal c.total q
      have s := s.setChan false ch (s.noteTotal ch place { c with
        total := a.1
        sat := c.sat || a.2
        carried := c.carried + inc })
      (r.1, s.carry ch place c.total a.1 q qual false 0 true)

/-- An accepted TOTAL record (R183): a difference from the previous one that differs from the sum carried since is a
finding. -/
def State.takeTotal (s : State) (ch tot at' leaf : Nat) : Nat × State :=
  have r := s.append 0x02 (readingRecord ch 0 1 0 tot at' false false false) none leaf
  have c := r.2.chan false ch
  have s := r.2.setChan false ch { c with
    lastTotal := some tot
    carried := 0 }
  match c.lastTotal with
  | none => (r.1, s)
  | some old =>
    have diff : Int := toSigned 64 (tot + 2 ^ 64 - old % 2 ^ 64 + (2 ^ 64 - c.carried % 2 ^ 64))
    if diff = 0 then (r.1, s)
    else
      have s := (s.setReg Reg.FCAC_XD_CH ch).setReg64 Reg.FCAC_XD_LO Reg.FCAC_XD_HI (ofSigned 64 diff)
      (r.1, s.raise 0x1C 2)

/-- The queue that takes the packets of a producer: the lowest-numbered enabled one whose SRC names it (log 30). -/
def State.intakeQueue (s : State) (src : Nat) : Nat :=
  ((List.range 32).find? (fun q => s.queueOn q && s.queueSrc q == src)).getD 0

/-- An accepted stream packet is journalled and offered to its queue (R136). -/
def State.takePacket (s : State) (feed : Bool) (header : Nat) (samples : List Byte) (leaf : Nat) : Nat × State :=
  have r := s.append 0x03 (leBytes 16 header ++ samples) none leaf
  have xs := (List.range (samples.length / 2)).map (fun i => leAt samples (2 * i) 2)
  have o : LiftOffer := ⟨r.2.intakeQueue (b2n feed), feed, { header := header, words := sampleWords xs, src := b2n feed }⟩
  (r.1, { r.2 with lift := { r.2.lift with offers := r.2.lift.offers ++ [o] } })

/-- The number of the most recent sample of a schedule whose low bits are SSEQ, and its sweep time (R131). -/
def sampleAt (x : StreamSched) (now sseq : Nat) : Option (Nat × Nat) :=
  have base := (x.eff + x.sofs) * 65536 + x.sang
  have step := max 1 x.sint * 65536
  if now < base then none
  else
    have top := (now - base) / step
    have back : Nat := (top % 65536 + 65536 - sseq % 65536) % 65536
    if top < back then none else some (top - back, base + (top - back) * step)

/-- The header word of a stream packet received at `at'`: T0 and SINT from the commanded schedule, or free values where no
schedule resolves its number (R131, R137; log 31). -/
def State.packetHeader (s : State) (node nch sseq n at' : Nat) : Nat × State :=
  match (s.field.streams.find (node * 16 + nch)).bind (fun x => (sampleAt x at' sseq).map (fun r => (r.2, x.sint))) with
  | some (t0, sint) => (liftHeader t0 sint n sseq 0 node nch, s)
  | none =>
    have a := s.draw
    have b := a.2.draw
    (liftHeader (a.1 % 2 ^ 64) (b.1 % 2 ^ 16) n sseq 0 node nch, b.2)

/-- Readings are accepted at all (R45, R46, R47, R238). -/
def State.acceptsReadings (s : State) : Bool :=
  !s.pfStop && !s.flag Reg.SLALOM_STATUS 30 && s.slalom.waiting.isEmpty && !s.readOnly && s.serves

/-- The cover queue set, with COVER_Q. -/
def State.setCover (s : State) (l : List CoverItem) : State :=
  { s with field := { s.field with cover := l } }.setFld Reg.SLALOM_COVER 15 0 (min l.length 65535)

/-- The next frame to a node acknowledges its last response once every reading in it has been accepted and mirrored (R80,
R329). -/
def State.settleAck (s : State) (id : Nat) : State :=
  have n := s.node id
  s.setNode id { n with ackDue := n.rspSeq.isSome && n.waiting.isEmpty && n.unmirrored.all s.mirrored }

/-- A CUSTODY obligation is complete when it has been answered, every reading it carries accepted, and their records
committed (R37). -/
def State.settleObl (s : State) (id : Nat) : State :=
  match s.obl id with
  | none => s
  | some o => if o.answered && o.readings == 0 && o.rsns.isEmpty then s.endId (some id) 0 0 else s

/-- What an ACK record says (Table 13.3): the cumulative SEQ, and from KFP 3 on the bitmap of the 64 behind it. A SEQ more
than 1,024 below the highest counts as accepted (R268); FWD records that wait for acceptance do not. -/
def ackBody (x : Session) : List Byte :=
  have got := x.rxSeen.filter (fun q => !x.fwds.any (fun f => f.seq == q))
  have low := x.rxTop - 1024
  have miss := ((List.range 1025).map (fun i => low + i)).find? (fun q => !got.contains q) |>.getD x.rxTop
  have map := (List.range 64).foldl (fun m i => if got.contains (miss + i) then m + 2 ^ i else m) 0
  beBytes 8 (miss + 2 ^ 64 - 1) ++ (if 3 ≤ x.version then beBytes 8 map else [])

/-- An ACK leaves on a session (R269). -/
def State.sendAck (s : State) (sid : Nat) : State :=
  match s.sessions.find sid with
  | some x => s.sendSecured sid 0x10 (ackBody x)
  | none => s

/-- A hub acknowledges the FWD records of a session whose readings have all been accepted and mirrored (R278, R329). -/
def State.settleFwd (s : State) (sid : Nat) : State :=
  match s.sessions.find sid with
  | none => s
  | some x =>
    have keep := x.fwds.filter (fun f => !(f.left == 0 && f.rsns.all s.mirrored))
    if keep.length = x.fwds.length then s
    else { s with sessions := s.sessions.put sid { x with fwds := keep } }.sendAck sid

/-- The bits of the word at 0x08 that an EVENT type gives something, and the offset from which its record is zero (Table 12.14); none for
a type that is not known. -/
def eventForm (type w : Nat) : Option (Nat × Nat) :=
  match type with
  | 0x01 => some (0x3FFFFF, 0x20 + 4 * min 8 (bits 19 16 w))
  | 0x02 => some (0x3FFFFF, 0x16)
  | 0x03 => some (0x7FFFFF, 0x20)
  | 0x04 => some (0, 0x24)
  | 0x05 => some (if bit 23 w then 0x801FFF else 3, 0x0F)
  | 0x06 => some (0, 0x1C)
  | 0x07 => some (0xFFFFF, 0x18)
  | 0x08 => some (0, 0x24)
  | 0x09 => some (0, 0x14)
  | _ => none

/-- A record is valid (R236): every octet and bit marked zero is, and a READING is an IV or a TOTAL. -/
def validRecord (cls : Nat) (p : List Byte) : Bool :=
  have w := leAt p 0 4
  if cls = 2 then p.length == 24 && bits 29 26 w == 0 && (bits 31 30 w == 0 || bits 31 30 w == 1 && leAt p 4 4 == 0)
  else if cls = 5 then
    have w := leAt p 8 4
    p.length == 64 && (match eventForm (bits 31 24 w) w with
      | some (used, n) => (bits 23 0 w ||| used) == used && (p.drop n).all (· == 0)
      | none => true)
  else true

/-- The record of a forwarded frame at a hub (R278, R187): a RAWPKT with LEAF set, a READING of the hub's channel of that
leaf, an INTERVAL figure to compare (a supplementary one adds to the figure held; log 100), or a record committed unchanged under that
leaf (log 32). -/
def State.takeForwarded (s : State) (c : CoverItem) : Nat × State :=
  have p := c.octets
  if c.cls = 3 then s.takePacket true (setBits 110 103 c.leaf (leAt p 0 16)) (p.drop 16) c.leaf
  else if c.cls = 2 then
    have w := leAt p 0 4
    have ch := bits 19 0 w
    have owned := match s.billChan ch with
      | some b => b.valid && bits 27 20 b.w0 == c.leaf
      | none => false
    if !owned then
      have r := s.append 0x02 p none c.leaf
      (r.1, r.2.bump Reg.BILL_NOBILL)
    else if bits 31 30 w = 1 then s.takeTotal ch (leAt p 8 8) (leAt p 16 8) c.leaf
    else
      have kind := if bit 23 w then 3 else if bits 22 20 w = 2 then 2 else 1
      s.takeIv ch kind (leAt p 4 4) (leAt p 16 8) (s.onAxis c.leaf (leAt p 16 8 - 1)) (leAt p 8 8) c.leaf
  else if c.cls = 1 then
    have ch := bits 19 0 (leAt p 0 4)
    have key := ch * 2 ^ 32 + leAt p 4 4
    have held := s.billing.xcheck
    have held := if bit 28 (leAt p 0 4) then held.modify key (· + leAt p 8 4) else held.put key (leAt p 8 4)
    (0, { s with billing := { s.billing with xcheck := held } }.crossCheck ch (leAt p 4 4))
  else s.append c.cls p none c.leaf

/-- The record of an accepted reading of the module's own field. An IV whose IDX names no ended interval has no sweep time:
no descriptor is in force at it, and its interval number and its time are free values (R183; log 33). -/
def State.takeOwn (s : State) (c : CoverItem) : Nat × State :=
  have o := c.octets
  have tag := leAt o 0 1
  if tag = 0x41 then
    have nch := leAt o 1 1 % 16
    have h := s.packetHeader c.node nch (beAt o 3 2) (leAt o 2 1) c.time
    h.2.takePacket false h.1 ((List.range (leAt o 2 1)).flatMap (fun i => leBytes 2 (beAt o (5 + 2 * i) 2))) 0
  else
    match s.keyChan 0 c.node (if tag = 0x40 then leAt o 1 1 % 16 else tag % 16) with
    | none => (0, s.bump Reg.BILL_NOBILL)
    | some (ch, b) =>
      if tag = 0x40 then s.takeTotal ch (beAt o 2 8) c.time 0
      else
        match b.resolve (leAt o 1 1) with
        | some (num, e) => s.takeIv ch (tag / 16) num e (e - 1) (beAt o 2 4) 0
        | none =>
          have x := s.draw
          have y := x.2.draw
          have r := y.2.append 0x02 (readingRecord ch 3 0 (x.1 % 2 ^ 32) (beAt o 2 4) (y.1 % 2 ^ 64) (tag / 16 == 3) false false)
          (r.1, r.2.bump Reg.FCAC_NOMATCH)

/-- The records that an accepted reading writes, its own and those that follow from it: the interval record that it is the first of, or a
supplementary one, ADJUST records and LATE charges (R45, R183, R212, R220, R224). -/
def State.itemRecords (s : State) (c : CoverItem) : Nat × State := if c.fwd.isSome then s.takeForwarded c else s.takeOwn c

/-- The cost of a reading with all of these records (R45). -/
def State.itemCost (s : State) (c : CoverItem) : Nat := s.chargedBy (s.itemRecords c).2

/-- A reading is accepted now (R45, R244). -/
def State.canAccept (s : State) (c : CoverItem) : Bool :=
  s.acceptsReadings && !s.areaHold (classPart c.cls) && s.takes (s.itemCost c)

/-- A reading that a hub has accepted is a CUSTODY obligation until its record is committed (R278; log 32). -/
def State.hubCustody (s : State) (rsn : Nat) : State :=
  have r := s.request { cls := 0, deadline := s.now + 3000 * 65536, answered := true, rsns := [rsn] }
  r.2

/-- A hub has accepted a leaf's frames up to an RSN, which PEER_ACKRSN shows (R279); the record that the last one became holds it. -/
def State.acceptRsn (s : State) (leaf rsn : Nat) : State :=
  have n := max rsn (s.leaf leaf).acked
  { s with leaves := s.leaves.put leaf { s.leaf leaf with acked := n } }.setReg64
    (bankKey leaf Reg.FEED_PEER_ACKRSN_LO) (bankKey leaf Reg.FEED_PEER_ACKRSN_HI) n
def State.noteLeafRsn (s : State) (rsn leafRsn : Nat) : State :=
  { s with led := { s.led with recs := s.led.recs.modify rsn (fun r => { r with leafRsn := leafRsn }) } }

/-- A reading is accepted: its records are journalled, and what waited for it goes on (R45, R80, R278). -/
def State.takeItem (s : State) (c : CoverItem) : State :=
  match c.fwd with
  | some (sid, seq, rsn) =>
    have r := s.takeForwarded c
    have s := (r.2.noteLeafRsn r.1 rsn).acceptRsn c.leaf rsn
    have s := if r.1 ≠ 0 ∧ (c.cls = 2 ∨ c.cls = 3) then s.hubCustody r.1 else s
    have s := { s with sessions := s.sessions.modify sid (fun x => { x with
      fwds := x.fwds.map (fun (f : FwdRecord) => if f.seq = seq then { f with
        left := f.left - 1
        rsns := if r.1 = 0 then f.rsns else r.1 :: f.rsns } else f) }) }
    s.settleFwd sid
  | none =>
    have r := s.takeOwn c
    have n := r.2.node c.node
    have s := r.2.setNode c.node { n with
      seen := c.ident :: n.seen
      waiting := n.waiting.filter (· ≠ c.ident)
      unmirrored := if r.1 = 0 then n.unmirrored else r.1 :: n.unmirrored.filter (fun x => !s.mirrored x) }
    have s := c.obls.foldl (fun (s : State) id =>
      have s := s.modId id (fun o => { o with
        readings := o.readings - 1
        rsns := if r.1 = 0 then o.rsns else r.1 :: o.rsns })
      s.settleObl id) s
    s.settleAck c.node

/-- A reading arrives: it is accepted at once, or joins the tail of the cover queue (R45). -/
def State.offerItem (s : State) (c : CoverItem) : State :=
  if s.field.cover.isEmpty && s.canAccept c then s.takeItem c else s.setCover (s.field.cover ++ [c])

/-- The readings of the cover queue are tested from its head; each that fits is accepted, and the first that does not fit
holds every one behind it (R45). -/
def State.testCover (s : State) : Nat → State
  | 0 => s
  | fuel + 1 =>
    match s.field.cover with
    | [] => s
    | c :: rest => if s.canAccept c then ((s.setCover rest).takeItem c).testCover fuel else s
def State.drainCover (s : State) : State := s.testCover (s.field.cover.length + 1)

/-- A reading is discarded unacknowledged (R45): its obligations are revoked ENERGY_DROP; a forwarded one takes with it the
later ones of its leaf, and the FWD record that brought it can come again (log 32). -/
def State.dropItem (s : State) (c : CoverItem) : State :=
  have s := s.bump Reg.SLALOM_COVER_DROP
  have s := c.obls.foldl (fun (s : State) id => s.endId (some id) 1 0x14) s
  match c.fwd with
  | none => s
  | some _ =>
    have gone := s.field.cover.filter (fun x => x.fwd.isSome && x.leaf == c.leaf)
    have s := s.bump Reg.SLALOM_COVER_DROP gone.length
    have s := s.setCover (s.field.cover.filter (fun x => !(x.fwd.isSome && x.leaf == c.leaf)))
    (c :: gone).foldl (fun (s : State) x => match x.fwd with
      | some (sid, seq, _) => { s with sessions := s.sessions.modify sid (fun y => { y with
          rxSeen := y.rxSeen.filter (· ≠ seq)
          fwds := y.fwds.filter (fun f => f.seq != seq) }) }
      | none => s) s

/-- The readings at the head that have waited COVER_WAIT cycles are discarded. -/
def State.expireCover (s : State) : Nat → State
  | 0 => s
  | fuel + 1 =>
    match s.field.cover with
    | [] => s
    | c :: rest =>
      if s.cycle < c.cycle + max 2 (s.fld Reg.SLALOM_CFG 15 8) then s
      else ((s.setCover rest).dropItem c).expireCover fuel

/-- COVER_WAIT_EXPIRY (R45). -/
def execCoverWaitExpiry (t : Angle) (s : State) : Outcome :=
  have s := s.tick t
  .next (s.expireCover (s.field.cover.length + 1))

end Sys2Proof.Machine
end

