-- ==== Sys2Proof/Machine/Receive.lean ====
section
/-!
DEFINITION. Frames from the field nodes above their physical checks: air and loop frames (R95, R99 to R103, R130), DATA and
CACK responses (R37, R80, R101, R131, Table 4.3), and IDRSP (R135).
-/

namespace Sys2Proof.Machine

/-- The octets of a record with its tag (Table 4.3), or none for an unknown tag or a record cut short (log 34). `up` is true
for DATA and CACK; on the air and the loops `line` is false. -/
def recordLength (cack line : Bool) (l : List Byte) : Option Nat :=
  have tag := leAt l 0 1
  have len : Option Nat :=
    if tag = 0x59 then some 3
    else if !line ∧ tag = 0x51 then some 3
    else if !line ∧ tag = 0x52 then some 2
    else if (!cack ∨ !line) ∧ tag = 0x48 then (if 1 ≤ leAt l 1 1 ∧ leAt l 1 1 ≤ 8 then some (2 + 3 * leAt l 1 1) else none)
    else if (!cack ∨ !line) ∧ tag = 0x49 then some 17
    else if cack then (if tag = 0x60 then some (2 + leAt l 1 1) else none)
    else if 0x10 ≤ tag ∧ tag ≤ 0x3F then some 6
    else if tag = 0x40 then some 10
    else if tag = 0x41 then (if 1 ≤ leAt l 2 1 ∧ leAt l 2 1 ≤ 128 then some (5 + 2 * leAt l 2 1) else none)
    else none
  len.bind (fun n => if n ≤ l.length then some n else none)

/-- The records of a payload, and whether an unknown one ended the parsing. -/
def splitRecords (cack line : Bool) : Nat → List Byte → List (List Byte) × Bool
  | 0, _ => ([], false)
  | fuel + 1, l =>
    if l.isEmpty then ([], false)
    else match recordLength cack line l with
      | none => ([], true)
      | some n =>
        have r := splitRecords cack line fuel (l.drop n)
        (l.take n :: r.1, r.2)

/-- SEQ_ERR and REC_ERR of the medium of a resource. -/
def seqErr (r : Nat) : Nat := if r ≤ 5 then Reg.LINEM_SEQ_ERR else if r ≤ 9 then Reg.AIRM_SEQ_ERR else Reg.LOOP_SEQ_ERR (r - 0x0C)
def recErr (r : Nat) : Nat := if r ≤ 5 then Reg.LINEM_REC_ERR else if r ≤ 9 then Reg.AIRM_REC_ERR else Reg.LOOP_REC_ERR (r - 0x0C)

/-- What identifies a reading among the records of its node (R80): tag, channel index, and interval, total or sample number
(log 34). -/
def State.identOf (s : State) (node : Nat) (o : List Byte) : Nat × Nat × Nat :=
  have tag := leAt o 0 1
  if tag = 0x41 then
    have nch := leAt o 1 1 % 16
    have n := (s.field.streams.find (node * 16 + nch)).bind (fun x => sampleAt x s.now (beAt o 3 2))
    (tag, nch, (n.map (·.1)).getD (beAt o 3 2))
  else if tag = 0x40 then (tag, leAt o 1 1, beAt o 2 8)
  else
    have n := (s.keyChan 0 node (tag % 16)).bind (fun x => x.2.resolve (leAt o 1 1))
    (tag, 0, (n.map (·.1)).getD (2 ^ 32 + leAt o 1 1))

/-- A reading of a DATA response (R80): a repeated record is discarded, one that waits in the cover queue keeps its place,
and a new one is offered for acceptance. -/
def State.takeReading (s : State) (node : Nat) (obl : Option Nat) (o : List Byte) : State :=
  have ident := s.identOf node o
  if (s.node node).seen.contains ident then s
  else
    have s := s.modNode node (fun n => { n with waiting := ident :: n.waiting })
    have s := match obl with
      | some id => s.modId id (fun x => { x with readings := x.readings + 1 })
      | none => s
    have same := fun (c : CoverItem) => c.fwd.isNone && c.node == node && c.ident == ident
    if s.field.cover.any same then
      s.setCover (s.field.cover.map (fun c => if same c then { c with obls := obl.toList ++ c.obls } else c))
    else
      s.offerItem {
        cycle := s.cycle
        cls := if leAt o 0 1 = 0x41 then 3 else 2
        node := node
        leaf := 0
        octets := o
        time := s.now
        ident := ident
        obls := obl.toList }

/-- A VSTAT record (R228): with FB = 0 the oldest remote valve command to the node is complete, with FB = 1 the mismatch is
recorded; one for a cancelled command is counted (R53). -/
def State.takeVstat (s : State) (node : Nat) (o : List Byte) : State :=
  have st := leAt o 1 1
  if leAt o 2 1 = 0 then
    match (s.slalom.calendar.filter (fun x => x.2.cls == 1 && x.2.node == node && !x.2.group && leAt x.2.records 0 1 == 0x58)).foldl
        (fun (m : Option (Nat × Obligation)) x => match m with
          | none => some x
          | some y => if x.2.order < y.2.order then some x else m) none with
    | some x => s.endObl x.1 0 0
    | none =>
      if s.slalom.cancelled.contains node then
        { s with slalom := { s.slalom with cancelled := s.slalom.cancelled.erase node } }.bump Reg.SLALOM_CANCEL_LATE
      else s
  else (s.journalEvent 0x05 (node + 2 ^ 23) (leBytes 1 st ++ leBytes 1 (1 - min st 1) ++ leBytes 1 2)).raise 0x34 3

/-- The neighbours a node reports (R84): SNRs of its links, in 0.5 dB; the one to its last hop is its SNR_DN. -/
def State.takeNbr (s : State) (node : Nat) (o : List Byte) : State :=
  (List.range (leAt o 1 1)).foldl (fun (s : State) i =>
    have far := beAt o (2 + 3 * i) 2
    have snr : Int := 2 * toSigned 8 (leAt o (4 + 3 * i) 1)
    have s := s.reportLink node far snr
    if (s.node node).route.getLast? = some far then s.modNode node (fun n => { n with snrDn := snr }) else s) s

/-- One record of a DATA response on a resource. -/
def State.takeRecord (s : State) (r node : Nat) (obl : Option Nat) (o : List Byte) : State :=
  have tag := leAt o 0 1
  if (0x10 ≤ tag ∧ tag ≤ 0x3F) ∨ tag = 0x40 ∨ tag = 0x41 then s.takeReading node obl o
  else if tag = 0x59 then s.takeVstat node o
  else if 5 < r then s.bump (recErr r)
  else if tag = 0x48 then s.takeNbr node o
  else s.joinRequest {
    medium := 1, lane := r, serial := beAt o 1 8, range := leAt o 9 1, caps := leAt o 10 1, nonce := beAt o 12 4
    via := (s.node node).route ++ [node] }

/-- The exchange of a response is over: its work is done. -/
def State.closeExchange (s : State) (r : Nat) (x : Exchange) : State :=
  have s := s.endExchange r
  match x.obl with
  | some id => (s.spend id r x.work).modId id (fun o => { o with retries := o.retries.del r })
  | none => s

/-- The exchange on a resource that a response answers (R80): same node, SEQ and kind. -/
def State.answers (s : State) (r node seq : Nat) (cack : Bool) : Option Exchange :=
  match s.exchange r with
  | some x => if x.node == node && x.seq == seq && x.isCmd == cack then some x else none
  | none => none

/-- A DATA response is parsed (R80, R101, R131). -/
def State.takeData (s : State) (r node seq : Nat) (x : Exchange) (records : List Byte) : State :=
  have s := s.closeExchange r x
  have s := s.modNode node (fun n => { n with
    waiting := []
    unmirrored := []
    rspSeq := none })
  have rs := splitRecords false (decide (r ≤ 5)) (records.length + 1) records
  have s := rs.1.foldl (fun (s : State) o => s.takeRecord r node x.obl o) s
  have s := if rs.2 then s.bump (recErr r) else s
  have s := (s.modNode node (fun n => { n with rspSeq := some seq })).settleAck node
  have s := if rs.2 then s.modNode node (fun n => { n with ackDue := false, rspSeq := none }) else s
  match x.obl with
  | some id => (s.modId id (fun o => { o with
      answered := true
      rest := ownWork o.rest })).settleObl id
  | none => s

/-- Commanded schedules of a node's streams are set (R131; log 31). -/
def State.setStreams (s : State) (node : Nat) (scheds : List (Nat × StreamSched)) : State :=
  { s with field := { s.field with
    streams := scheds.foldl (fun m x => m.put (node * 16 + x.1 % 16) x.2) s.field.streams } }

/-- DATA_RESPONSE (R80): a DATA response whose frame passed its checks. `scheds` are the schedules that the module has
commanded for the node's streams and that no earlier command has set. -/
def execDataResponse (t : Angle) (r : Fin 16) (node : BitVec 13) (seq : BitVec 8) (records : List Byte)
    (scheds : List (Nat × StreamSched)) (s : State) : Outcome :=
  have s := (s.tick t).setStreams node.toNat scheds
  .next (
    if !s.takesFrames then s
    else match s.answers r.val node.toNat seq.toNat false with
      | none => s.bump (seqErr r.val)
      | some x => s.takeData r.val node.toNat seq.toNat x records)

/-- What the acknowledged records of a firmware command change at the module: a rekey completes (R104), a rendezvous or a
lane takes effect (Table 5.6, Table 4.3), a node that was told to leave holds no session. -/
def State.commandDone (s : State) (node : Nat) (records : List Byte) : State :=
  have n := s.node node
  have tag := leAt records 0 1
  if tag = 0x55 ∧ n.rekey.isSome then
    have s := s.setNode node { n with
      rekey := none
      keyIdx := 3 - n.keyIdx
      key := n.nextKey
      nextKey := 0
      fcnt := n.fcntNext
      fcntNext := none }
    ((s.newKey (nodeKey node)).bump Reg.AIRM_REKEY_OK).raise 0x13 (4 + 8 * n.lane)
  else if tag = 0x56 then s.setNode node { n with
    rdv := n.rdvNext.getD n.rdv
    rdvNext := none }
  else if tag = 0x51 ∧ leAt records 1 1 = 1 then (s.setNode node { n with rpt := true }).raise 0x0F 12
  else if tag = 0x52 then s.setNode node { n with lane := leAt records 1 1 }
  else if tag = 0x53 then s.setNode node { n with session := false }
  else s

/-- A CACK completes the COMMAND obligation it answers (R37): a group's once every joined member has acknowledged it, a
remote valve's by its VSTAT record alone (R228). Members that are ABSENT are not waited for, so that a group all of whose members are
ABSENT ends OVERRUN (DESIGN CHOICE, log 97). A late one of a cancelled obligation is counted (R53). -/
def State.takeCack (s : State) (r node seq : Nat) (x : Exchange) (records : List Byte) : State :=
  have s := s.closeExchange r x
  have s := (s.modNode node (fun n => { n with
    waiting := []
    unmirrored := []
    rspSeq := some seq })).settleAck node
  have s := s.commandDone node x.records
  have rs := splitRecords true (decide (r ≤ 5)) (records.length + 1) records
  have s := rs.1.foldl (fun (s : State) o =>
    if leAt o 0 1 = 0x59 then s.takeVstat node o
    else if leAt o 0 1 = 0x60 then s
    else s.bump (recErr r)) s
  have s := if rs.2 then s.bump (recErr r) else s
  match x.obl.bind (fun id => (s.obl id).map (fun o => (id, o))) with
  | none => if x.cancelled then s.bump Reg.SLALOM_CANCEL_LATE else s
  | some (id, o) =>
    if leAt o.records 0 1 = 0x58 then s.modId id (fun o => { o with answered := true })
    else if !o.group then s.endId (some id) 0 0
    else
      have done := node :: o.members
      if (s.groupMembers o.node).all (fun m => done.contains m.1 || m.2.state != 3) then s.endId (some id) 0 0
      else s.modId id (fun o => { o with members := done })

/-- CACK_RESPONSE (R37). -/
def execCackResponse (t : Angle) (r : Fin 16) (node : BitVec 13) (seq : BitVec 8) (records : List Byte) (s : State) : Outcome :=
  have s := s.tick t
  .next (
    if !s.takesFrames then s
    else match s.answers r.val node.toNat seq.toNat true with
      | none => s.bump (seqErr r.val)
      | some x => s.takeCack r.val node.toNat seq.toNat x records)

/-- A frame on an air lane uses an option that the module does not support (R95), or a KAP type or version that no node may
send (Table 5.5). -/
def airUnsupported (rx : AirRx) : Bool :=
  rx.fec || rx.shortFcs || rx.modeSwitch || decide (255 < rx.kap.length + (if rx.level = 0 then 17 else 25)) || rx.version != 2 || decide (2 < rx.macType) || !([0, 2, 6].contains rx.level) ||
    (rx.level != 0 && (rx.keyMode != 1 || rx.noCounter))
def kapUnsupported (rx : AirRx) : Bool :=
  decide (rx.kap.length < 6) || !([0x2, 0x4, 0x5, 0x7, 0x8, 0xA].contains (leAt rx.kap 0 1 / 16)) || leAt rx.kap 0 1 / 4 % 4 == 0

/-- The estimate of sweep time in a node's frame lies within the guard of the node (R100, R110). -/
def State.estimateOk (s : State) (n : Node) (rx : AirRx) : Bool :=
  have est := beAt rx.kap 1 3 * 65536 + beAt rx.kap 4 2
  decide ((toSigned 40 (est + 2 ^ 40 - rx.start % 2 ^ 40)).natAbs ≤ s.nsTicksUp (s.guardNs n))

/-- The node that a frame which is not secured comes from, by its extended address, the serial (R105). -/
def State.airSource (s : State) (rx : AirRx) : Option Node :=
  match rx.short with
  | some a => some (s.node a.toNat)
  | none => (s.findSerial rx.ext).map (·.2)

/-- The counter test of a secured frame: the last counter accepted under its key. Under the key of a rekey that is a count of its own,
and the first frame under that key ends the old one (R103, R104). -/
def counterOk (n : Node) (rx : AirRx) : Bool :=
  if rx.keyIdx = n.keyIdx then newer n.fcnt rx.counter && n.fcntNext.isNone
  else n.rekey.isSome && rx.keyIdx == 3 - n.keyIdx && newer n.fcntNext rx.counter

/-- A secured frame of a node passed its checks (R103, R106, R110, R111). -/
def State.heardAir (s : State) (lane id : Nat) (rx : AirRx) : State :=
  have n := s.node id
  have sent := match s.exchange (8 + lane) with
    | some x => if x.node = id then s.now - x.start else 0
    | none => 0
  have old := rx.keyIdx == n.keyIdx
  s.setNode id { n with
    fcnt := if old then some rx.counter else n.fcnt
    fcntNext := if old then n.fcntNext else some rx.counter
    heard := s.now
    miss := 0
    leaseEnd := some s.newLease
    answered := s.uptime - sent * s.sweep.period / 65536 }

/-- AIR_FRAME_RECEIVED (R95, R99 to R103, R106, R110): the checks of a frame on an air lane. Frames discarded are counted, and
are no frame received; a frame of another PAN is none of the module's. -/
def execAirFrameReceived (t : Angle) (lane : Fin 2) (rx : AirRx) (s : State) : Outcome :=
  have s := s.tick t
  have l := lane.val
  have bad := fun (s : State) k => (s.bump k).raise (0x10 + l) 1
  have good := fun (s : State) => (s.bump (Reg.AIR_FR_OK l)).raise (0x10 + l) 0
  have ftype := leAt rx.kap 0 1 / 16
  .next (
    if s.region = 0 ∨ !s.laneEnabled (0x10 + l) ∨ rx.pan ≠ s.fld Reg.AIRM_PANCFG 15 0 then s
    else if airUnsupported rx then bad s (Reg.AIR_FR_HDR l)
    else if !rx.fcsOk then bad s (Reg.AIR_FR_FCS l)
    else
      have s := (s.pushLevel (8 + l) (Reg.AIR_RSSI l) rx.rssi).sample (6 + l) rx.rssi
      if kapUnsupported rx then bad s (Reg.AIR_FR_HDR l)
      else if ftype = 8 then s
      else if ftype = 5 ∨ ftype = 0xA then good s
      else if ftype = 7 then
        (match s.airSource rx with
        | some n => if s.estimateOk n rx then good s else bad s (Reg.AIR_FR_HDR l)
        | none => good s)
      else
        match rx.short with
        | none => bad s (Reg.AIR_SEC_FAIL l)
        | some a =>
          have id := a.toNat
          have n := s.node id
          if rx.level < 6 ∨ !rx.micOk ∨ (!n.session ∧ n.oldKeyUntil.isNone) ∨ n.medium ≠ 2 ∨ !(counterOk n rx) then
            bad s (Reg.AIR_SEC_FAIL l)
          else if !(s.leaseRuns n) then s.raise (0x10 + l) 1
          else if !(s.estimateOk n rx) then bad s (Reg.AIR_FR_HDR l)
          else
            have s := good s
            if s.takesFrames then s.heardAir l id rx else s)

/-- LOOP_FRAME_RECEIVED (R130): the CRC and the header of a KLL frame; `octets` are its header and payload. -/
def execLoopFrameReceived (t : Angle) (n : Fin 4) (octets : List Byte) (check : BitVec 16) (s : State) : Outcome :=
  have s := s.tick t
  have l := n.val
  have ftype := leAt octets 0 1 / 16
  have addr := leAt octets 1 1
  .next (
    if !s.laneEnabled (0x14 + l) then s
    else if crc16 octets ≠ check.toNat then (s.bump (Reg.LOOP_FR_CRC l)).raise (0x14 + l) 1
    else if octets.length < 3 ∨ !([2, 4, 6].contains ftype) ∨ leAt octets 0 1 / 4 % 4 ≠ 1 ∨ leAt octets 0 1 % 2 ≠ 0 ∨ 7 < addr then
      (s.bump (Reg.LOOP_FR_HDR l)).raise (0x14 + l) 1
    else
      have s := (s.bump (Reg.LOOP_FR_OK l)).raise (0x14 + l) 0
      match s.loopNode l addr with
      | some id => if ftype ≠ 6 ∧ (s.node id).medium = 3 ∧ s.takesFrames then s.heardFrom id else s
      | none => s)

/-- The SCHED record of a schedule (R131). -/
def schedRecord (x : Nat × StreamSched) : List Byte :=
  leBytes 1 0x57 ++ leBytes 1 x.1 ++ beBytes 2 x.2.sint ++ beBytes 2 x.2.sofs ++ beBytes 2 x.2.sang ++ beBytes 4 x.2.eff

/-- A node attaches on a loop (R135): it becomes ACTIVE there, moved from another medium as R105 sets out, and receives a
SCHED record for each of its channels. -/
def State.attach (s : State) (l m id latency : Nat) (scheds : List (Nat × StreamSched)) : State :=
  have n := s.node id
  have moved := n.hasLane && n.medium != 3 && n.medium != 0
  have s := s.setNode id { n with
    state := 3, medium := 3, lane := l, ver := 1, addr := m, latency := latency, miss := 0, routeAbs := false, heard := s.now
    join := none, route := [], level := 0, leaseEnd := none, rekey := none, ackDue := false, waiting := [], unmirrored := [] }
  have s := ((s.loopAddrStat id).persistNode id).raise (0x14 + l) 2
  have s := s.setStreams id scheds
  have s := scheds.foldl (fun (s : State) x => s.firmwareCommand id (schedRecord x)) s
  if moved then s.moveWork id else s

/-- IDRSP (R135): the serial, the version range and the presence proof are checked. -/
def execIdrsp (t : Angle) (n : Fin 4) (m : Fin 8) (serial range latency resp : Nat) (scheds : List (Nat × StreamSched))
    (s : State) : Outcome :=
  have s := s.tick t
  have l := n.val
  have k := l * 8 + m.val
  .next (
    match s.loopNode l m.val, s.field.idents.find k with
    | some id, some challenge =>
      have x := s.node id
      if !s.takesFrames ∨ !s.hashRuns then s
      else if x.serial ≠ serial then
        (match s.findSerial serial with
        | some _ => s.bump (Reg.LOOP_AUTH_FAIL l)
        | none => s)
      else if x.state ≠ 1 ∧ x.state ≠ 3 ∧ x.state ≠ 4 then s
      else if 1 < range % 4 ∨ range / 4 % 4 < 1 then s
      else if !(s.secretOpen x.keyslot) || resp != s.proof x.keyslot x.serial challenge then s.bump (Reg.LOOP_AUTH_FAIL l)
      else { s with field := { s.field with idents := s.field.idents.del k } }.attach l m.val id latency scheds
    | _, _ => s)

end Sys2Proof.Machine
end

