-- ==== Sys2Proof/Machine/Keeper.lean ====
section
/-!
DEFINITION. Keeper's commands (spec/14_keeper_lifecycle.md): life-cycle transitions (R286 to R291), key slots (R292 to R295,
R298), the public-key window (R293) and counter reservations (R300).
-/

namespace Sys2Proof.Machine

/-- A field-update handover is running (R397). -/
def State.handingOver (s : State) : Bool := s.upd.hover.isSome

/-- SERIAL, NONCE and a hash as they stand in a token (Table 14.3). -/
def tokenSerial (tok : List Byte) : Nat := beAt tok 0x008 16
def tokenNonce (tok : List Byte) : Nat := leAt tok 0x018 16
def tokenHash (tok : List Byte) (off : Nat) : BitVec 512 := BitVec.ofNat 512 (beAt tok off 64)
def tokenTransfer (tok : List Byte) : Bool := leAt tok 0x006 2 == 1

/-- The form of a token (Table 14.3): identifier, target, authority, serial, and the bits and octets that must be zero. -/
def State.tokenForm (s : State) (tok : List Byte) : Bool :=
  have provision := leAt tok 0x005 1 == 3
  have hashes := provision || tokenTransfer tok
  leAt tok 0 4 == 0x4B4C4354 && decide (leAt tok 0x004 1 ≤ 6) && decide (leAt tok 0x005 1 ≤ 3) &&
    decide (leAt tok 0x006 2 ≤ 1) && tokenSerial tok == s.fac.serial.toNat && leAt tok 0x02C 4 == 0 &&
    (hashes || leAt tok 0x030 128 == 0) && (!provision || leAt tok 0x0B0 (2592 + 4627) == 0)

/-- The hash of a named authority's key (Transitions). -/
def State.authorityHash (s : State) (a : Nat) : BitVec 512 :=
  if a = 0 then Config.goeveardHash else if a = 1 then s.nv.ownerHash else s.nv.recoveryHash

/-- Table 14.2: whether a state may be left for another one under an authority. -/
def State.transitionOk (s : State) (target auth : Nat) (transfer : Bool) : Bool :=
  have lc := s.nv.lc
  if target = 6 then lc != 0 && !transfer && (auth == 1 || auth == 2 || (auth == 0 && lc == 1))
  else if transfer then lc == 2 && target == 2 && auth == 1
  else if auth = 1 then
    (lc == 2 && target == 3) || (lc == 3 && target == 2) || ((lc == 2 || lc == 3) && target == 4) ||
      (lc == 4 && (target == 2 || target == 3) && target == s.nv.prev)
  else if auth = 2 then ((lc == 2 || lc == 3 || lc == 4) && target == 5) || (lc == 5 && target == 2)
  else false

/-- "KVZLC1" as octets. -/
def ctxLc : List Byte := [0x4B, 0x56, 0x5A, 0x4C, 0x43, 0x31]

/-- The checks of a submitted token (R290): the refusal code of the first one that fails (Table 14.10). -/
def State.tokenCode (s : State) (tok : List Byte) : Nat :=
  have auth := leAt tok 0x005 1
  have pk := (tok.drop 0x0B0).take 2592
  if !(s.tokenForm tok) || auth == 3 then 0x01
  else if leAt tok 0x028 4 ≠ s.nv.lcCnt then 0x02
  else if tokenNonce tok ≠ s.nv.nonce.toNat then 0x03
  else if Config.sha3 pk ≠ s.authorityHash auth then 0x04
  else if !(Config.verify pk (0x00 :: tok.take 0x0B0) ctxLc ((tok.drop 0xAD0).take 4627)) then 0x05
  else if !(s.transitionOk (leAt tok 0x004 1) auth (tokenTransfer tok)) then 0x06
  else 0

/-- The checks of PROVISION (R290). -/
def State.provisionCode (s : State) (tok : List Byte) : Nat :=
  if !(s.tokenForm tok) || leAt tok 0x005 1 != 3 || leAt tok 0x004 1 != 2 then 0x01
  else if leAt tok 0x028 4 ≠ s.nv.lcCnt then 0x02
  else if tokenNonce tok ≠ s.nv.nonce.toNat then 0x03
  else if s.nv.lc ≠ 1 then 0x06
  else 0

/-- RESULT and CODE of a command register (Table 14.9). -/
def State.keeperResult (s : State) (k code : Nat) : State :=
  s.setReg k (if code = 0 then 2 ^ 28 else 2 ^ 29 + code)

/-- A free 256-bit value, as a key or a nonce drawn from the random number generator (R294). -/
def State.drawKey256 (s : State) : Nat × State :=
  have d := s.draw
  (d.1 % 2 ^ 256, d.2)

/-- What a slot holds once its inactive half is active with the next generation (R298). -/
def State.newHalf (s : State) (n attr key : Nat) : KeySlot :=
  have k := s.slot n
  { attr := attr, half := !k.half, genAct := (k.genAct + 1) % 65536, genOther := k.genAct, key := key, made := s.nv.lcCnt }

/-- A key is written to a slot (R298): the inactive half takes it with the next generation and becomes active. -/
def State.writeSlot (s : State) (n attr key : Nat) : State := s.setSlot n (s.newHalf n attr key)

/-- A fixed slot is generated under the owner root (Table 14.5). -/
def State.generateFixed (s : State) (n type dest : Nat) : State :=
  have d := s.drawKey256
  d.2.writeSlot n (type * 2 ^ 12 + 1 * 2 ^ 10 + dest * 2 ^ 6) d.1

/-- A slot holds a sealed key (R287). -/
def State.slotSealed (s : State) (n : Nat) : Bool :=
  attrType (s.slot n).attr != 0 && attrRoot (s.slot n).attr == 1 && s.sealedRoot

/-- A new owner root with slots 0, 1, 2 and 5 (Tables 14.2 and 14.5). DEST of slot 5 is the code 14, for Keeper itself (log
40). -/
def State.newOwner (s : State) : State :=
  have d := s.drawKey256
  have s := { d.2 with nv := { d.2.nv with ownerRoot := some d.1 } }
  (((s.generateFixed 0 5 3).generateFixed 1 5 3).generateFixed 2 6 3).generateFixed 5 3 14

/-- The provisioned values are those in force (R410). -/
def State.fixProvisioned (s : State) : State :=
  { s with nv := { s.nv with roleProv := s.nv.roleNext, planProv := s.fld Reg.LINEC_BANDCFG 1 0, regionProv := s.region } }

/-- LC_NONCE is renewed after every submission (R290). -/
def State.newNonce (s : State) : State :=
  have d := s.draw
  { d.2 with nv := { d.2.nv with nonce := BitVec.ofNat 128 d.1 } }

/-- An accepted transition (R291): the state record is written, the group closes, and the LIFECYCLE reset falls due; on an ACTIVE
twin whose twin is SYNCED, leaving service comes after a failure report (R409). -/
def State.acceptTransition (s : State) (target : Nat) (transfer : Option (BitVec 512 × BitVec 512)) : State :=
  have s := { s with nv := { s.nv with next := some ⟨target, transfer⟩ } }
  have s := if s.storeRuns && s.openWork then s.closeGroup 0 else s
  if s.pairState = 1 ∧ s.syncState = 2 ∧ 4 ≤ target then { s.failureReport with lcYield := some (s.cycle + 4) }
  else { s with boot := { s.boot with due := some (3, 0, s.cycle) } }

/-- A SUBMIT or a PROVISION is checked and, where it is accepted, recorded (R290, R291). -/
def State.runLc (s : State) (p : Path) (cmd : Nat) : State :=
  have tok := s.load (s.reg Reg.KEEP_LC_OFS) 7395
  have tunnel := match p with | .kfp _ _ => true | _ => false
  have code := if s.nv.next.isSome || s.handingOver then 0x08
    else if tunnel then 0x07
    else if cmd = 1 then s.tokenCode tok else s.provisionCode tok
  have s := s.newNonce.keeperResult Reg.KEEP_LC_RES code
  if code ≠ 0 then s
  else if cmd = 2 then
    have s := { s with nv := { s.nv with ownerHash := tokenHash tok 0x030, recoveryHash := tokenHash tok 0x070 } }
    s.newOwner.fixProvisioned.acceptTransition 2 none
  else
    have target := leAt tok 0x004 1
    have s := if s.nv.lc = 2 ∧ target = 3 then s.fixProvisioned else s
    s.acceptTransition target (if tokenTransfer tok then some (tokenHash tok 0x030, tokenHash tok 0x070) else none)

/-- The effect of a write of LC_CMD (R290, R416): it waits for the end of a switch-over gap, and is refused while one waits or the
shutdown commit runs. -/
def effLcCmd (p : Path) (cmd : Nat) (s : State) : WriteResult :=
  if cmd ≠ 1 ∧ cmd ≠ 2 then .ignored s
  else if s.pfStop || s.lcWait.isSome then .discard s 0x08
  else if s.now < s.field.gapUntil then
    .done ({ s with lcWait := some (p, cmd) }.setFlag Reg.KEEP_LC_RES 31 true)
  else .done (s.runLc p cmd)

/-- LC_SUBMIT and LC_PROVISION (R290): a write of LC_CMD; `img` is the token that the host has placed at LC_OFS. -/
def execLcSubmit (t : Angle) (p : Path) (img : List Byte) (s : State) : Outcome :=
  .next (((s.tick t).store (s.reg Reg.KEEP_LC_OFS) img).hostWrite p 0x40 0x05C (effLcCmd p 1))
def execLcProvision (t : Angle) (p : Path) (img : List Byte) (s : State) : Outcome :=
  .next (((s.tick t).store (s.reg Reg.KEEP_LC_OFS) img).hostWrite p 0x40 0x05C (effLcCmd p 2))

/-- A destination that the variant has (R292, Table 0.3). -/
def State.destPresent (s : State) (d : Nat) : Bool :=
  if d = 4 then s.fac.variant != .h else if d = 5 then s.fac.variant == .f || s.fac.variant == .n else true

/-- TYPE and DEST go together: a cipher key goes to a cipher core, or as AES-256 to HASH; a secret to HASH; a seed to PQC; any of
them to ANY (R292, R321; the table of pairs is the model's, log 40). -/
def typeDestOk (type dest : Nat) : Bool :=
  dest == 15 && decide (1 ≤ type) && decide (type ≤ 6) ||
  (if type = 1 ∨ type = 2 then [0, 1, 4, 5, 6, 7].contains dest
   else if type = 3 then [0, 1, 2, 4, 5, 6, 7].contains dest
   else if type = 4 then dest == 2
   else if type = 5 ∨ type = 6 then dest == 3 else false)

/-- A fixed slot that a command may not create (Table 14.5): 1 GENERATE, 2 IMPORT, 3 IMPORT_KEM, 4 DERIVE. -/
def fixedRefused (cmd n : Nat) : Bool :=
  decide (n ≤ 7) && !(cmd == 1 && n == 1 || (cmd == 2 || cmd == 3) && (n == 3 || n == 4))

/-- The type and destination that Table 14.5 gives a fixed slot. -/
def fixedAttr (n type dest : Nat) : Bool :=
  if n = 1 then type == 5 && dest == 3 else if n = 3 then type == 3 && dest == 7
  else if n = 4 then type == 4 && dest == 2 else true

/-- What a key command would create: attributes with the root in force, the usage bits of an ANY key only, and the origin. -/
def State.newAttr (s : State) (origin : Nat) : Nat :=
  have a := s.fld Reg.KEEP_KC_ATTR 31 16
  have use := if attrDest a = 15 then bits 5 2 a else 0
  attrType a * 2 ^ 12 + (s.currentRoot.getD 0) * 2 ^ 10 + attrDest a * 2 ^ 6 + use * 4 + origin

/-- The refusals that every key creation shares (Table 14.10). -/
def State.createCode (s : State) (cmd : Nat) : Nat :=
  have a := s.fld Reg.KEEP_KC_ATTR 31 16
  have n := s.fld Reg.KEEP_KC_SLOT 7 0
  if s.nv.next.isSome || s.nv.half.isSome || s.handingOver then 0x08
  else if fixedRefused cmd n then 0x15
  else if attrDest a = 15 ∧ s.nv.lc ≠ 1 ∧ s.nv.lc ≠ 4 then 0x11
  else if !(typeDestOk (attrType a) (attrDest a)) || !(s.destPresent (attrDest a)) || !(fixedAttr n (attrType a) (attrDest a)) then 0x12
  else if s.currentRoot.isNone || s.slotSealed n then 0x13
  else 0

/-- A key command ends: RESULT and CODE, and the KEY cause (Table 14.9). -/
def State.endKeyCmd (s : State) (code : Nat) : State := (s.keeperResult Reg.KEEP_KC_RES code).raise 0x40 1

/-- The update of a slot by a key command (R298). Where power fails during it, `cut` says whether the marker of the new half was
written: the old key stays valid and the command has no result until the restart (R299). -/
def State.updateSlot (s : State) (cut : Option Bool) (n : Nat) (new : KeySlot) : State :=
  match cut with
  | none => (s.setSlot n new).endKeyCmd 0
  | some marked => { s with nv := { s.nv with half := some ⟨n, new, marked⟩ } }.setFlag Reg.KEEP_KC_RES 31 true

/-- The restart after a broken-off update (R299): a half with its marker becomes active; one without is discarded, with the KEY
cause. -/
def State.settleHalf (s : State) : State :=
  match s.nv.half with
  | none => s
  | some h =>
    have s := { s with nv := { s.nv with half := none } }
    if h.marked then s.setSlot h.slot h.new else s.raise 0x40 1

/-- GENERATE (R294). -/
def State.keyGenerate (s : State) (cut : Option Bool) : State :=
  have code := s.createCode 1
  if code ≠ 0 then s.endKeyCmd code
  else
    have d := s.drawKey256
    d.2.updateSlot cut (s.fld Reg.KEEP_KC_SLOT 7 0) (s.newHalf (s.fld Reg.KEEP_KC_SLOT 7 0) (s.newAttr 0) d.1)

/-- The head of a key blob for the key command as it stands (R294). -/
def State.blobHead (s : State) : List Byte :=
  leBytes 4 (s.reg Reg.KEEP_KC_ATTR) ++ leBytes 1 (s.fld Reg.KEEP_KC_SLOT 7 0) ++ zeros 3 ++ leBytes 4 s.nv.lcCnt ++ zeros 4

/-- A wrapped key enters the target slot, if the blob's head and its wrap check are right (R294). -/
def State.importUnder (s : State) (cut : Option Bool) (k : Nat) (head wrapped : List Byte) : State :=
  have inner := (Config.kdf k (head ++ [0x4B, 0x56, 0x5A, 0x20, 0x69, 0x6D, 0x70, 0x6F, 0x72, 0x74])).toNat
  match (if head = s.blobHead then Config.unwrap inner wrapped else none) with
  | some key => s.updateSlot cut (s.fld Reg.KEEP_KC_SLOT 7 0) (s.newHalf (s.fld Reg.KEEP_KC_SLOT 7 0) (s.newAttr 1) key)
  | none => s.endKeyCmd 0x14

/-- IMPORT (R294): the source slot is AES-256 with DEST ANY and WRAP. -/
def State.keyImport (s : State) (cut : Option Bool) : State :=
  have code := s.createCode 2
  have src := s.fld Reg.KEEP_KC_SLOT 15 8
  have a := (s.slot src).attr
  have blob := s.load (s.reg Reg.KEEP_KC_OFS) (s.reg Reg.KEEP_KC_LEN % 2 ^ 23)
  if code ≠ 0 then s.endKeyCmd code
  else if !(s.slotOpen src) || attrType a != 3 || attrDest a != 15 || !(attrUse a 1) then s.endKeyCmd 0x13
  else s.importUnder cut (s.slot src).key (blob.take 16) (blob.drop 16)

/-- IMPORT_KEM (R294): the shared secret is decapsulated with slot 2. -/
def State.keyImportKem (s : State) (cut : Option Bool) : State :=
  have code := s.createCode 3
  have blob := s.load (s.reg Reg.KEEP_KC_OFS) (s.reg Reg.KEEP_KC_LEN % 2 ^ 23)
  if code ≠ 0 then s.endKeyCmd code
  else if !(s.slotOpen 2) then s.endKeyCmd 0x13
  else
    have secret := ofBe (Config.std 0x30 (s.slot 2).key [(blob.drop 16).take 1568])
    s.importUnder cut secret (blob.take 16) (blob.drop 1584)

/-- The label and length of the input of a derivation (Table 14.6), by parent and child: the node secret, the KLP and the KAP
session key, and the rekeyed KAP session. -/
def deriveForm (parentType parentDest type dest len : Nat) : Option Nat :=
  if parentType = 4 ∧ parentDest = 2 ∧ type = 4 ∧ dest = 2 ∧ len = 8 then some 1
  else if parentType = 4 ∧ parentDest = 2 ∧ type = 1 ∧ dest = 4 ∧ len = 16 then some 2
  else if parentType = 4 ∧ parentDest = 2 ∧ type = 1 ∧ dest = 5 ∧ len = 16 then some 3
  else if parentType = 1 ∧ parentDest = 5 ∧ type = 1 ∧ dest = 5 ∧ len = 9 then some 4
  else none

/-- DERIVE (R295): the blob is the input of the form that parent, child and length select. An ANY parent needs DERIVE and acts as
one bound to HASH. -/
def State.keyDerive (s : State) (cut : Option Bool) : State :=
  have code := s.createCode 4
  have src := s.fld Reg.KEEP_KC_SLOT 15 8
  have a := (s.slot src).attr
  have want := s.fld Reg.KEEP_KC_ATTR 31 16
  have len := s.reg Reg.KEEP_KC_LEN
  have dest := if attrDest a = 15 then 2 else attrDest a
  if code ≠ 0 then s.endKeyCmd code
  else if !(s.slotOpen src) || (attrDest a == 15 && !(attrUse a 0)) then s.endKeyCmd 0x13
  else match deriveForm (attrType a) dest (attrType want) (attrDest want) len with
    | none => s.endKeyCmd (if attrDest want = 15 then 0x12 else 0x13)
    | some form =>
      have key := (Config.kdf (s.slot src).key (leBytes 1 form ++ s.load (s.reg Reg.KEEP_KC_OFS) len)).toNat
      s.updateSlot cut (s.fld Reg.KEEP_KC_SLOT 7 0) (s.newHalf (s.fld Reg.KEEP_KC_SLOT 7 0) (s.newAttr 2) key)

/-- ZEROIZE (R298): both halves of the slot are empty; the marker for TYPE EMPTY carries the next generation. Slots 5 to 7
cannot be named (Table 14.5). -/
def State.keyZeroize (s : State) (cut : Option Bool) : State :=
  have n := s.fld Reg.KEEP_KC_SLOT 7 0
  have k := s.slot n
  if s.nv.next.isSome || s.nv.half.isSome || s.handingOver then s.endKeyCmd 0x08
  else if 5 ≤ n ∧ n ≤ 7 then s.endKeyCmd 0x15
  else if s.slotSealed n then s.endKeyCmd 0x13
  else s.updateSlot cut n { genAct := (k.genAct + 1) % 65536, genOther := k.genAct, half := !k.half }

/-- The effect of a write of KC_CMD; a command that a power failure broke off keeps it busy until the restart (R299). -/
def effKcCmd (cmd : Nat) (cut : Option Bool) (s : State) : WriteResult :=
  if s.pfStop || s.nv.half.isSome then .discard s 0x08
  else if cmd = 1 then .done (s.keyGenerate cut)
  else if cmd = 2 then .done (s.keyImport cut)
  else if cmd = 3 then .done (s.keyImportKem cut)
  else if cmd = 4 then .done (s.keyDerive cut)
  else if cmd = 5 then .done (s.keyZeroize cut)
  else .ignored s

/-- KEY_GENERATE, KEY_IMPORT, KEY_IMPORT_KEM, KEY_DERIVE and KEY_ZEROIZE: a write of KC_CMD; `img` is what the host has placed at
KC_OFS, and `cut` says that power fails during the update, before or after its marker (R299). -/
def execKeyGenerate (t : Angle) (p : Path) (cut : Option Bool) (s : State) : Outcome :=
  .next ((s.tick t).hostWrite p 0x40 0x0A0 (effKcCmd 1 cut))
def execKeyImport (t : Angle) (p : Path) (img : List Byte) (cut : Option Bool) (s : State) : Outcome :=
  .next (((s.tick t).store (s.reg Reg.KEEP_KC_OFS) img).hostWrite p 0x40 0x0A0 (effKcCmd 2 cut))
def execKeyImportKem (t : Angle) (p : Path) (img : List Byte) (cut : Option Bool) (s : State) : Outcome :=
  .next (((s.tick t).store (s.reg Reg.KEEP_KC_OFS) img).hostWrite p 0x40 0x0A0 (effKcCmd 3 cut))
def execKeyDerive (t : Angle) (p : Path) (img : List Byte) (cut : Option Bool) (s : State) : Outcome :=
  .next (((s.tick t).store (s.reg Reg.KEEP_KC_OFS) img).hostWrite p 0x40 0x0A0 (effKcCmd 4 cut))
def execKeyZeroize (t : Angle) (p : Path) (cut : Option Bool) (s : State) : Outcome :=
  .next ((s.tick t).hostWrite p 0x40 0x0A0 (effKcCmd 5 cut))

/-- The public part of IK, AK or TK (R293): 2,592 octets of an ML-DSA-87 key, 1,568 of an ML-KEM-1024 key. -/
def State.publicKey (s : State) (n : Nat) : List Byte :=
  have k := s.slot n
  if attrType k.attr = 0 then []
  else (Config.std (0x31 + b2n (n == 2)) k.key [] ++ zeros 2592).take (if n = 2 then 1568 else 2592)

/-- A read of PUB_D (R293): word PUB_IDX of the key, and PUB_IDX advances. -/
def State.readPub (s : State) : State × Nat :=
  have i := s.fld Reg.KEEP_PUB_IDX 9 0
  have sel := s.fld Reg.KEEP_PUB_SEL 1 0
  have w := if sel = 3 then 0 else leAt (s.publicKey sel) (4 * i) 4
  (s.setFld Reg.KEEP_PUB_IDX 9 0 (i + 1), w)
def execPubRead (t : Angle) (p : Path) (s : State) : Outcome :=
  .next (answer p ((s.tick t).hostRead p 0x40 0x0C8 State.readPub))

/-- The register words of Keeper (Table 14.9). -/
def State.readLcStat (s : State) : Nat :=
  b2n s.nv.next.isSome * 512 + b2n s.sealedRoot * 256 + s.nv.prev % 8 * 16 + s.nv.lc % 8
def State.readSlAttr (s : State) : Nat :=
  have k := s.slot (s.fld Reg.KEEP_SL_SEL 7 0)
  k.attr % 65536 * 65536 + b2n (s.slotSealed (s.fld Reg.KEEP_SL_SEL 7 0)) * 2 + b2n k.half
def State.readSlGen (s : State) : Nat :=
  have k := s.slot (s.fld Reg.KEEP_SL_SEL 7 0)
  k.genOther * 65536 + k.genAct
def State.readSlKcv (s : State) : Nat :=
  have n := s.fld Reg.KEEP_SL_SEL 7 0
  if attrType (s.slot n).attr = 0 ∨ n = 5 then 0 else leAt (Config.std 0x33 (s.slot n).key []) 0 4

/-- The records that wait for a block of a session's SEQ are sent once it is reserved (R300). -/
def State.sendHeld (s : State) (sid : Nat) : State :=
  match s.sessions.find sid with
  | none => s
  | some x =>
    x.held.foldl (fun (s : State) h => s.sendSecured sid h.1 h.2)
      { s with sessions := s.sessions.put sid { x with held := [] } }

/-- RESERVATION_WRITTEN (R300): the next block of a key stands in Keeper NV, and the twin has acknowledged it if `acked`; what
waited for it goes on. -/
def execReservationWritten (t : Angle) (key : Nat) (acked : Bool) (s : State) : Outcome :=
  have s := s.tick t
  have k := s.txKey key
  .next (
    if !k.asked && k.acked == k.blocks then s
    else
      have blocks := if k.asked then k.blocks + 1 else k.blocks
      have s := if k.asked then s.bump Reg.KEEP_RSV_WRITES else s
      have s := s.setTxKey key { k with blocks := blocks, acked := (if acked then blocks else k.acked), asked := false }
      if 0x100000 ≤ key then s.sendHeld (key - 0x100000) else s)

end Sys2Proof.Machine
end

