-- ==== Sys2Proof/Machine/Crypto.lean ====
section
/-!
DEFINITION. The crypto engines AES0, AES1, HASH and PQC (spec/15_crypto_engines.md): rings and jobs (R310 to R317, R321, R322,
R325), faults (R323), the random generator (R318) and alarms (R319, R320). Engines are numbered 0 to 3.
-/

namespace Sys2Proof.Machine

/-- An engine as it stands. -/
def State.engine (s : State) (e : Nat) : Engine := s.crypto.engines.getD e {}
def State.setEngine (s : State) (e : Nat) (x : Engine) : State :=
  { s with crypto := { s.crypto with engines := s.crypto.engines.put e x } }

/-- ESTAT.STATE: 0 IDLE, 1 BUSY, 2 ALARM, 3 STALL, 4 FAILED (Table 15.6). -/
def State.engineState (s : State) (e : Nat) : Nat := s.fld (Reg.CRY_ESTAT e) 31 29

/-- The page of an engine. -/
def enginePage (e : Nat) : Nat := 0x41 + e

/-- ESTAT follows an engine: FAILED stays; an alarm, a stall, a running job. CORES shows HASH's busy cores (Table 15.7). -/
def State.showEngine (s : State) (e : Nat) : State :=
  have x := s.engine e
  have st := if s.engineState e = 4 then 4 else if s.crypto.alarmAt.isSome then 2 else if s.crypto.rngBad.isSome then 3
    else if x.running.isEmpty then 0 else 1
  have s := s.setFld (Reg.CRY_ESTAT e) 31 29 st
  if e = 2 then s.setFld Reg.CRY_HASH_CORES 1 0 (2 ^ min 2 x.running.length - 1) else s

/-- The entries of a ring: 16, 32, 64, 128 or 256; other values act as 64 (Table 15.6). -/
def State.ringSize (s : State) (e : Nat) : Nat :=
  have n := s.fld (Reg.CRY_JR_SIZE e) 8 0
  if [16, 32, 64, 128, 256].contains n then n else 64

/-- Ring indices count modulo 512. -/
def ringDist (a b : Nat) : Nat := (b + 512 - a % 512) % 512
def State.jrWr (s : State) (e : Nat) : Nat := s.fld (Reg.CRY_JR_WR e) 8 0
def State.jrRd (s : State) (e : Nat) : Nat := s.fld (Reg.CRY_JR_RD e) 8 0
def State.jrDone (s : State) (e : Nat) : Nat := s.fld (Reg.CRY_JR_DONE e) 8 0

/-- The place of a descriptor in the staging area: 64-byte aligned. -/
def State.descAddr (s : State) (e idx : Nat) : Nat := s.reg (Reg.CRY_JR_OFS e) / 64 * 64 + 64 * (idx % s.ringSize e)

/-- A job descriptor (Table 15.1). -/
abbrev Job := List Byte
def Job.op (j : Job) : Nat := leAt j 0 1
def Job.slotNo (j : Job) : Nat := leAt j 1 1
def Job.tagLen (j : Job) : Nat := leAt j 2 1
def Job.irq (j : Job) : Bool := bit 0 (leAt j 3 1)
def Job.word (j : Job) (off : Nat) : Nat := leAt j off 4
def State.jobAt (s : State) (e idx : Nat) : Job := s.load (s.descAddr e idx) 64

/-- The operations of an engine (Table 15.2). -/
def opsOf (e : Nat) : List Nat :=
  if e ≤ 1 then [1, 2, 3, 4, 5, 6, 7, 8, 9] else if e = 2 then [0x11, 0x12, 0x13, 0x14] else [0x21, 0x22, 0x23, 0x24]

/-- The usage bit that an ANY key needs for an operation: 3 ENC, 2 DEC, 1 WRAP; none where the operation takes no key. -/
def opUse (op : Nat) : Option Nat :=
  if [0x01, 0x02, 0x04, 0x06, 0x13, 0x21, 0x23].contains op then some 3
  else if [0x03, 0x05, 0x07, 0x14].contains op then some 2
  else if op = 0x08 ∨ op = 0x09 then some 1 else none

/-- A key's TYPE fits an operation (R313, R321). -/
def typeFits (op type : Nat) : Bool :=
  if op ≤ 9 then decide (1 ≤ type) && decide (type ≤ 3)
  else if op = 0x13 ∨ op = 0x14 then type == 3 || type == 4 else type == 5

/-- Reserved fields are zero and the operation is the engine's (Table 15.3, PARAM). -/
def Job.formOk (j : Job) (e : Nat) : Bool :=
  (opsOf e).contains j.op && leAt j 3 1 / 2 == 0 && leAt j 0x30 8 == 0

/-- What the start of a job finds of its key (R313): the code, and the state with a refusal for destination counted. -/
def State.jobKey (s : State) (e : Nat) (j : Job) : Nat × State :=
  match opUse j.op with
  | none => (0, s)
  | some use =>
    have n := j.slotNo
    have a := (s.slot n).attr
    if !(j.formOk e) then (0, s)
    else if !(s.slotOpen n) || (decide (5 ≤ n) && decide (n ≤ 7)) || !(typeFits j.op (attrType a)) then (4, s)
    else if attrDest a = 15 then (if attrUse a use then 0 else 4, s)
    else if attrDest a = e then (0, s)
    else (4, s.bump Reg.KEEP_DEST_DENY)

/-- Descriptors of completed jobs that are not retired carry REREAD once the engine moves on (R325; log 41). -/
def State.markReread (s : State) (e : Nat) : State :=
  have a := (s.engine e).acked
  (List.range (ringDist a (s.jrDone e))).foldl (fun s i =>
    have at' := s.descAddr e (a + i) + 0x38
    have w := s.load32 at'
    if bit 31 w then s.store at' (leBytes 4 (setBit 30 true w)) else s) s

/-- The jobs that an engine can run at once: HASH has two cores. -/
def engineCores (e : Nat) : Nat := if e = 2 then 2 else 1

/-- An engine starts the jobs of its ring in ring order (R311), each under the key in force (R313); a lost one starts none (Table 19.2). -/
def State.startJobs (s : State) (e : Nat) : Nat → State
  | 0 => s.showEngine e
  | fuel + 1 =>
    have x := s.engine e
    have rd := s.jrRd e
    if engineCores e ≤ x.running.length ∨ rd = s.jrWr e ∨ 2 ≤ s.engineState e ∨ s.resLost (0x20 + e) ∨ s.crypto.alarmAt.isSome ∨ s.crypto.rngBad.isSome ∨ s.hot then
      s.showEngine e
    else
      have j := s.jobAt e rd
      have k := s.jobKey e j
      have s := k.2.markReread e
      have slot := s.slot j.slotNo
      have job : CryptoJob := { idx := rd, key := slot.key, slot := j.slotNo, gen := slot.genAct, code := k.1 }
      have s := s.setEngine e { x with running := x.running ++ [job], held := (if (opUse j.op).isSome then some (j.slotNo, slot.genAct) else x.held) }
      (s.setFld (Reg.CRY_JR_RD e) 8 0 (rd + 1)).startJobs e fuel

/-- The effect of a write of JR_WR (R311): ignored where it would pass JR_RD + JR_SIZE. -/
def effJrWr (e : Nat) (v : Word) (s : State) : WriteResult :=
  have w := bits 8 0 v.toNat
  if s.ringSize e < ringDist (s.jrRd e) w then .discard s 0x0B
  else .done ((s.setFld (Reg.CRY_JR_WR e) 8 0 w).startJobs e 3)

/-- JOB_SUBMIT (R311): a write of JR_WR; `imgs` are the descriptors and buffers that the host has placed in the staging area. -/
def execJobSubmit (t : Angle) (p : Path) (e : Fin 4) (v : Word) (imgs : List (BitVec 23 × List Byte)) (s : State) : Outcome :=
  have s := imgs.foldl (fun (s : State) i => s.store i.1.toNat i.2) (s.tick t)
  .next (s.hostWrite p (enginePage e.val) 0x048 (effJrWr e.val v))

/-- JR_OFS and JR_SIZE change only while the ring is empty and the engine is idle (R311). -/
def effJrConfig (e off : Nat) (v : Word) (s : State) : WriteResult :=
  if s.jrRd e = s.jrWr e ∧ (s.engine e).running.isEmpty ∧ s.engineState e = 0 then s.plainWrite (enginePage e) off v
  else .discard s 0x08

/-- The effect of a write of JR_ACK (R325). -/
def effJrAck (e : Nat) (v : Word) (s : State) : WriteResult :=
  have x := s.engine e
  have a := bits 8 0 v.toNat
  if ringDist x.acked (s.jrDone e) < ringDist x.acked a then .discard s 0x0B
  else .done (s.setEngine e { x with acked := a })

/-- JR_ACK (R325). -/
def execJrAck (t : Angle) (p : Path) (e : Fin 4) (v : Word) (s : State) : Outcome :=
  .next ((s.tick t).hostWrite p (enginePage e.val) 0x054 (effJrAck e.val v))

/-- What a job writes: status, octets to DST, further octets at other places, and AUX. -/
structure JobResult where
  code : Nat
  dst : List Byte := []
  also : List (Nat × List Byte) := []
  aux : Option Nat := none

/-- The length of what an operation writes to DST. -/
def Job.outLen (j : Job) : Nat :=
  have n := j.word 0x0C
  if j.op = 6 ∨ j.op = 7 ∨ j.op = 0x14 ∨ 0x21 ≤ j.op then 0
  else if j.op = 8 then n + 8 else if j.op = 9 then n - 8
  else if j.op = 0x11 then 64 else if j.op = 0x12 ∨ j.op = 0x13 then j.word 0x14
  else n

/-- The length of the tag, MAC or signature at TAG_OFS. -/
def Job.tagSize (j : Job) : Nat :=
  if j.op = 1 ∨ j.op = 8 ∨ j.op = 9 ∨ (0x11 ≤ j.op ∧ j.op ≤ 0x13) then 0
  else if j.op = 0x14 then j.word 0x14 else if 0x21 ≤ j.op then 4627 else j.tagLen

/-- The length of the associated data, and of the nonce or public key, where the operation takes one. -/
def Job.aadLen (j : Job) : Nat := if [2, 3, 4, 5, 0x13, 0x14, 0x21, 0x22, 0x23, 0x24].contains j.op then j.word 0x1C else 0
def Job.ivLen (j : Job) : Nat := if [1, 2, 3, 4, 5, 0x22, 0x24].contains j.op then j.word 0x24 else 0

/-- Every buffer of a job lies wholly inside the staging area of 8 MiB (R310, Table 13.7). -/
def Job.inside (j : Job) : Bool :=
  have ok := fun a n : Nat => n == 0 || decide (a + n ≤ 0x800000)
  ok (j.word 0x08) (j.word 0x0C) && ok (j.word 0x10) j.outLen && ok (j.word 0x18) j.aadLen &&
    ok (j.word 0x20) j.ivLen && ok (j.word 0x28) j.tagSize

/-- The limits of R315, R321 and R322. -/
def Job.lengthOk (j : Job) : Bool :=
  have n := j.word 0x0C
  have iv := j.word 0x24
  have tag := j.tagLen
  decide (n ≤ 2 ^ 30) && decide (j.aadLen ≤ 2 ^ 30) &&
  (if j.op ≤ 9 ∨ j.op = 0x11 then decide (j.outLen ≤ j.word 0x14) else true) &&
  (if j.op = 1 then iv == 16
   else if j.op = 2 ∨ j.op = 3 then iv == 12 && decide (12 ≤ tag) && decide (tag ≤ 16)
   else if j.op = 4 ∨ j.op = 5 then
     decide (7 ≤ iv) && decide (iv ≤ 13) && decide (n < 2 ^ (8 * (15 - iv))) && [0, 4, 6, 8, 10, 12, 14, 16].contains tag
   else if j.op = 6 ∨ j.op = 7 then decide (4 ≤ tag) && decide (tag ≤ 16)
   else if j.op = 8 then n % 8 == 0 && decide (16 ≤ n)
   else if j.op = 9 then n % 8 == 0 && decide (24 ≤ n)
   else if j.op = 0x12 ∨ j.op = 0x13 ∨ j.op = 0x14 then decide (1 ≤ j.word 0x14) && decide (j.word 0x14 ≤ 2 ^ 30)
   else if 0x21 ≤ j.op then decide (j.aadLen ≤ 255) else true)

/-- The transmit key that draws a slot's GCM counters (R316): one for each generation. -/
abbrev gcmKey (slot gen : Nat) : Nat := 2 ^ 40 + slot * 65536 + gen

/-- A GCM encryption (R316): the IV is a fixed field and the slot's next counter. Answers nothing while the counter waits for its
block; a wait and a stop count and set their causes as for a frame (R300, R302). -/
def State.gcmEncrypt (s : State) (x : CryptoJob) (j : Job) (src aad : List Byte) : Option JobResult × State :=
  have k := s.txKey (gcmKey x.slot x.gen)
  have d := drawKey k (s.openBlocks k) (2 ^ 64 - 1)
  have s := s.setTxKey (gcmKey x.slot x.gen) d.2
  match d.1 with
  | .wait => (none, (s.bump Reg.KEEP_RSV_WAIT).raiseKeep 5)
  | .stop => (some { code := 0x09 }, (s.bump Reg.KEEP_KEY_STOP).raiseKeep 3)
  | .value c =>
    have s := if c < 2 ^ 64 - 2 ^ 20 ∨ d.2.forced then s
      else (s.setTxKey (gcmKey x.slot x.gen) { d.2 with forced := true }).raise 0x40 2
    have iv := [0xA5] ++ leBytes 1 x.slot ++ beBytes 2 x.gen ++ beBytes 8 c
    have out := fixLen src.length (Config.std 0x02 x.key [iv, src])
    have tag := fixLen j.tagLen (Config.std 0x102 x.key [iv, aad, out])
    (some { code := 0, dst := out, also := [(j.word 0x20, iv), (j.word 0x28, tag)] }, s)

/-- An authenticated decryption (R317): zeros where the tag fails. -/
def checkedOut (ok : Bool) (out : List Byte) : JobResult :=
  if ok then { code := 0, dst := out } else { code := 1, dst := zeros out.length }

/-- The result of a job that passed every check (R314 to R322); `iters` are the rejection iterations of a signature, `fault` says
that it was not produced or failed its self-check (R323). -/
def State.jobResult (s : State) (x : CryptoJob) (j : Job) (iters : Nat) (fault : Bool) : Option JobResult × State :=
  have src := s.load (j.word 0x08) (j.word 0x0C)
  have aad := s.load (j.word 0x18) j.aadLen
  have iv := s.load (j.word 0x20) j.ivLen
  have tag := s.load (j.word 0x28) j.tagSize
  have op := j.op
  have n := src.length
  if op = 1 then (some { code := 0, dst := fixLen n (Config.std 0x01 x.key [iv, src]) }, s)
  else if op = 2 then s.gcmEncrypt x j src aad
  else if op = 3 then
    (some (checkedOut (fixLen j.tagLen (Config.std 0x102 x.key [iv, aad, src]) == tag) (fixLen n (Config.std 0x02 x.key [iv, src]))), s)
  else if op = 4 then
    (some { code := 0, dst := fixLen n (Config.std 0x04 x.key [iv, src]),
            also := [(j.word 0x28, fixLen j.tagLen (Config.std 0x104 x.key [iv, aad, src, leBytes 1 j.tagLen]))] }, s)
  else if op = 5 then
    have out := fixLen n (Config.std 0x04 x.key [iv, src])
    (some (checkedOut (j.tagLen == 0 || fixLen j.tagLen (Config.std 0x104 x.key [iv, aad, out, leBytes 1 j.tagLen]) == tag) out), s)
  else if op = 6 then (some { code := 0, also := [(j.word 0x28, fixLen j.tagLen (Config.std 0x06 x.key [src]))] }, s)
  else if op = 7 then (some { code := if fixLen j.tagLen (Config.std 0x06 x.key [src]) = tag then 0 else 1 }, s)
  else if op = 8 then (some { code := 0, dst := fixLen (n + 8) (Config.std 0x08 x.key [src]) }, s)
  else if op = 9 then
    (match Config.unwrap x.key src with
    | some k => (some { code := 0, dst := beBytes (n - 8) k }, s)
    | none => (some { code := 1, dst := zeros (n - 8) }, s))
  else if op = 0x11 then (some { code := 0, dst := beBytes 64 (Config.sha3 src).toNat }, s)
  else if op = 0x12 then (some { code := 0, dst := fixLen (j.word 0x14) (Config.std 0x12 0 [src, leBytes 4 (j.word 0x14)]) }, s)
  else if op = 0x13 then (some { code := 0, dst := fixLen (j.word 0x14) (Config.std 0x13 x.key [src, aad, leBytes 4 (j.word 0x14)]) }, s)
  else if op = 0x14 then
    (some { code := if fixLen (j.word 0x14) (Config.std 0x13 x.key [src, aad, leBytes 4 (j.word 0x14)]) = tag then 0 else 1 }, s)
  else
    have msg := if op = 0x21 ∨ op = 0x22 then 0x00 :: src else 0x01 :: beBytes 64 (Config.sha3 src).toNat
    if op = 0x22 ∨ op = 0x24 then
      (some { code := if iv.length ≠ 2592 ∨ j.word 0x2C ≠ 4627 then 0x0B else if Config.verify iv msg aad tag then 0 else 0x0A }, s)
    else if fault then (some { code := 0x08 }, s)
    else
      have d := s.draw
      (some { code := 0, aux := some iters,
              also := [(j.word 0x28, fixLen 4627 (Config.std 0x21 x.key [msg, aad, leBytes 32 d.1]))] }, d.2)

/-- A signature that was not produced (R323): three in a row make the engine FAILED and lost. -/
def State.pqcFault (s : State) : State :=
  have s := (s.bump Reg.CRY_PQC_FAULTS).raise 0x44 1
  have run := min 3 (s.fld Reg.CRY_PQC_RUN 1 0 + 1)
  have s := s.setFld Reg.CRY_PQC_RUN 1 0 run
  if 3 ≤ run ∧ s.engineState 3 ≠ 4 then
    ((s.setFld (Reg.CRY_ESTAT 3) 31 29 4).raise 0x44 2).loseRes 0x23 0x11
  else s

/-- A signature that was produced ends the row of faults; ITER_MAX follows (Table 15.7). -/
def State.pqcSigned (s : State) (iters : Nat) : State :=
  (s.setFld Reg.CRY_PQC_RUN 1 0 0).setFld Reg.CRY_PQC_ITER_MAX 9 0 (max (s.fld Reg.CRY_PQC_ITER_MAX 9 0) (min iters 1023))

/-- The oldest running job of an engine ends: its output, AUX, and STATUS with DONE last; JR_DONE passes it (R311). -/
def State.endJob (s : State) (e : Nat) (x : CryptoJob) (j : Job) (r : JobResult) : State :=
  have s := s.store (j.word 0x10) r.dst
  have s := r.also.foldl (fun (s : State) a => s.store a.1 a.2) s
  have at' := s.descAddr e x.idx
  have s := s.store (at' + 0x3C) (leBytes 4 (r.aux.getD r.dst.length))
  have s := s.store (at' + 0x38) (leBytes 4 (2 ^ 31 + r.code))
  have y := s.engine e
  have s := s.setEngine e { y with running := y.running.drop 1 }
  have s := (s.setFld (Reg.CRY_JR_DONE e) 8 0 (x.idx + 1)).setFld (Reg.CRY_ESTAT e) 7 0 r.code
  have s := s.bump (Reg.CRY_JOBS e)
  have s := if r.code = 0 ∨ r.code = 0x0A ∨ r.code = 1 then s else s.bump (Reg.CRY_ERRS e)
  have s := if r.code = 1 ∧ e ≤ 1 then s.bump (Reg.CRY_AUTHFAIL e) else s
  have s := if j.irq then s.raise (enginePage e) 0 else s
  s.showEngine e

/-- JOB_COMPLETE (R311): the oldest running job of an engine ends; on a lost engine it does not (log 41). A GCM encryption whose counter has no block yet goes on
waiting. -/
def execJobComplete (t : Angle) (e : Fin 4) (iters : BitVec 10) (fault : Bool) (s : State) : Outcome :=
  have s := s.tick t
  have n := e.val
  match (s.engine n).running with
  | [] => .next s
  | x :: _ =>
    if 2 ≤ s.engineState n ∨ s.resLost (0x20 + n) then .next s
    else
      have j := s.jobAt n x.idx
      have early := if !(j.formOk n) then 5 else if !j.inside then 3 else if x.code ≠ 0 then x.code else if !j.lengthOk then 2 else 0
      if early ≠ 0 then .next ((s.endJob n x j { code := early }).startJobs n 3)
      else
        have r := s.jobResult x j iters.toNat (fault || decide (814 < iters.toNat))
        match r.1 with
        | none => .next r.2
        | some res =>
          have s := r.2.endJob n x j res
          have s := if n = 3 ∧ res.code = 8 then s.pqcFault
            else if n = 3 ∧ (j.op = 0x21 ∨ j.op = 0x23) then s.pqcSigned iters.toNat else s
          .next (s.startJobs n 3)

/-- JOB_SEGMENT_END (R312): a segment of a host job ends and a waiting firmware job runs; the host job's key is loaded again after
it. -/
def execJobSegmentEnd (t : Angle) (e : Fin 4) (s : State) : Outcome :=
  have s := s.tick t
  .next (if (s.engine e.val).running.isEmpty then s else s.setEngine e.val { s.engine e.val with held := none })

/-- Every engine's ESTAT, and the jobs that can start again. -/
def State.resumeEngines (s : State) : State := (List.range 4).foldl (fun s e => (s.showEngine e).startJobs e 3) s

/-- The running jobs of every engine end with a status, their output area overwritten with zeros (R318, R319). -/
def State.stopJobs (s : State) (code : Nat) : State :=
  (List.range 4).foldl (fun s e =>
    (s.engine e).running.foldl (fun s x =>
      have j := s.jobAt e x.idx
      s.endJob e x j { code := code, dst := if j.inside then zeros j.outLen else [] }) s) s

/-- RNG_FAIL (R318): the generator fails its health test and every engine stalls. -/
def execRngFail (t : Angle) (s : State) : Outcome :=
  have s := s.tick t
  .next (if s.crypto.rngBad.isSome then s
    else (List.range 4).foldl State.showEngine { s with crypto := { s.crypto with rngBad := some s.uptime } })

/-- RNG_TIMEOUT (R318): 1 ms later, on the 25 MHz reference (R12), the running jobs end RNG, and RNG is raised on both AES pages. -/
def execRngTimeout (t : Angle) (s : State) : Outcome :=
  have s := s.tick t
  match s.crypto.rngBad with
  | none => .next s
  | some at' => .next (if s.uptime < at' + 8000000 then s else ((s.stopJobs 0x07).raise 0x41 2).raise 0x42 2)

/-- RNG_RECOVERY (R318): the generator passes again, and the jobs go on. -/
def execRngRecovery (t : Angle) (s : State) : Outcome :=
  have s := s.tick t
  .next (if s.crypto.rngBad.isNone then s else State.resumeEngines { s with crypto := { s.crypto with rngBad := none } })

/-- A KFP session is gone: PEER_STAT shows none, and an open one raises SESSION (Table 13.10). -/
def State.dropSession (s : State) (x : Session) : State :=
  have k := bankKey x.peer Reg.FEED_PEER_STAT
  have s := (s.setFld k 31 29 0).setFld k 27 24 0
  if x.isOpen then s.raise 0x52 0 else s

/-- The session table is zeroized (R320): nodes must join again, and KFP sessions handshake again. -/
def State.zeroizeSessions (s : State) : State :=
  have s := s.sessions.foldl (fun (s : State) x => s.dropSession x.2) s
  { s with
    field := { s.field with nodes := s.field.nodes.mapVals (fun _ n => { n with session := false, key := 0, nextKey := 0, oldKeyUntil := none, rekey := none }) }
    sessions := [] }

/-- CRYPTO_ALARM (R319, R320): `sensors` are voltage, clock, temperature, light and mesh, bits 0 to 4. -/
def execCryptoAlarm (t : Angle) (sensors : BitVec 5) (s : State) : Outcome :=
  have s := s.tick t
  have m := sensors.toNat
  if m = 0 then .next s
  else
    have s := [0, 1].foldl (fun (s : State) e =>
      ((s.setFld (Reg.CRY_ALM_STAT e) 4 0 (s.fld (Reg.CRY_ALM_STAT e) 4 0 ||| m)).setFld (Reg.CRY_ALM_NOW e) 4 0
        (s.fld (Reg.CRY_ALM_NOW e) 4 0 ||| m)).bump (Reg.CRY_ALM_CNT e)) s
    have s := { s with crypto := { s.crypto with
      alarmAt := some (s.crypto.alarmAt.getD s.cycle)
      engines := s.crypto.engines.mapVals (fun _ x => { x with held := none }) } }
    have s := (((List.range 4).foldl State.showEngine s).raise 0x41 1).raise 0x42 1
    .next (if 8 ≤ m then s.zeroizeSessions.alert 0x41 else s)

/-- An alarm that lasts more than 1 cycle loses the engines to Slalom until it clears (R319). -/
def State.checkAlarm (s : State) : State :=
  match s.crypto.alarmAt with
  | some c =>
    if s.cycle ≤ c + 1 then s
    else (List.range 4).foldl (fun s e => if (s.engine e).lost then s
      else (s.setEngine e { s.engine e with lost := true }).loseRes (0x20 + e) 0x11) s
  | none => s

/-- ALARM_CLEAR (R319): the stopped jobs end ALARM, and the engines load keys again for the next job. -/
def execAlarmClear (t : Angle) (s : State) : Outcome :=
  have s := s.tick t
  if s.crypto.alarmAt.isNone then .next s
  else
    have s := [0, 1].foldl (fun (s : State) e => s.setFld (Reg.CRY_ALM_NOW e) 4 0 0) s
    have s := s.stopJobs 0x06
    have s := { s with crypto := { s.crypto with alarmAt := none } }
    have s := (List.range 4).foldl (fun s e => if (s.engine e).lost then
      (s.setEngine e { s.engine e with lost := false }).regainRes (0x20 + e) else s) s
    .next s.resumeEngines

end Sys2Proof.Machine
end

