-- ==== Sys2Proof/Machine/Merkle.lean ====
section
/-!
DEFINITION. The Merkle batcher (R303 to R308): leaves, root, BATCHROOT records and inclusion proofs.
-/

namespace Sys2Proof.Machine

/-- The largest power of two below n (R304). -/
def splitBelow (n : Nat) : Nat := 2 ^ (n - 1).log2

/-- The hash of two hashes (R304). -/
def nodeHash (a b : BitVec 512) : BitVec 512 := Config.sha3 (0x01 :: beBytes 64 a.toNat ++ beBytes 64 b.toNat)

/-- The root of a list of leaf hashes (R304); `fuel` bounds the depth. -/
def merkleRoot : Nat → List (BitVec 512) → BitVec 512
  | _, [] => 0
  | _, [h] => h
  | 0, h :: _ => h
  | fuel + 1, hs =>
    have k := splitBelow hs.length
    nodeHash (merkleRoot fuel (hs.take k)) (merkleRoot fuel (hs.drop k))

/-- The audit path of leaf i, nearest the leaf first (R308). -/
def auditPath : Nat → Nat → List (BitVec 512) → List (BitVec 512)
  | 0, _, _ => []
  | fuel + 1, i, hs =>
    if hs.length ≤ 1 then []
    else
      have k := splitBelow hs.length
      if i < k then auditPath fuel i (hs.take k) ++ [merkleRoot 13 (hs.drop k)]
      else auditPath fuel (i - k) (hs.drop k) ++ [merkleRoot 13 (hs.take k)]

/-- The leaf hash of a record, and of a period segment (R303). -/
def recordLeaf (rsn : Nat) (r : LedgerRecord) : BitVec 512 :=
  Config.sha3 (0x00 :: (leBytes 8 rsn ++ leBytes 1 r.cls ++ r.payload))
def segmentLeaf (header : List Byte) : BitVec 512 := Config.sha3 (0x00 :: (zeros 8 ++ leBytes 1 0x30 ++ header))

/-- MAXLEAF and BATCH_CYC (Table 14.11). -/
def State.maxLeaf (s : State) : Nat := clampNat 64 4096 (s.fld Reg.MERK_CFG 28 16)
def State.batchCyc (s : State) : Nat := clampNat 5 3000 (s.fld Reg.MERK_CFG 15 0)

/-- The record leaves of the open batch: the records of classes 0x01 to 0x06 above the last batch, in RSN order, whose mirrors the
twin has acknowledged while it is SYNCED (R303, R329). -/
def State.openRecs (s : State) : List (Nat × LedgerRecord) :=
  s.led.recs.filter (fun x => decide (s.merk.upto < x.1) && decide (1 ≤ x.2.cls) && decide (x.2.cls ≤ 6) && !x.2.void && s.mirrored x.1)

/-- The record leaves that the next batch may take: after a restart or a takeover, the ones up to that point first (R307). -/
def State.nextRecs (s : State) : List (Nat × LedgerRecord) :=
  match s.merk.restart with
  | some (_, limit) =>
    have old := s.openRecs.filter (fun x => decide (x.1 ≤ limit))
    if old.isEmpty then s.openRecs else old
  | none => s.openRecs

/-- The flags of the next batch: RESTART or TAKEOVER while it takes leaves of before that point. -/
def State.batchFlags (s : State) : Nat :=
  match s.merk.restart with
  | some (f, limit) => if s.openRecs.any (fun x => decide (x.1 ≤ limit)) then f else 0
  | none => 0

/-- The cycle of the first leaf of the open batch. -/
def State.firstLeaf (s : State) : Option Nat :=
  have a := s.nextRecs.head?.map (fun x => x.2.time / 65536)
  have b := s.merk.segs.head?.map (fun x => x.2.2)
  match a, b with
  | some x, some y => some (min x y)
  | some x, none => some x
  | none, y => y

/-- The open batch is due to close (R305, R307). -/
def State.batchDue (s : State) : Bool :=
  have n := s.nextRecs.length + min 4 s.merk.segs.length
  decide (s.maxLeaf ≤ n) || decide (5 ≤ s.merk.segs.length) || (s.batchFlags != 0) ||
    (match s.firstLeaf with | some c => decide (c + s.batchCyc ≤ s.cycle) | none => false)

/-- The open batch closes, and its root awaits its signature (R305). -/
def State.closeBatch (s : State) : State :=
  have segs := s.merk.segs.take 4
  have recs := s.nextRecs.take (s.maxLeaf - segs.length)
  have hashes := recs.map (fun x => recordLeaf x.1 x.2) ++ segs.map (fun x => segmentLeaf x.2.1)
  have flags := s.batchFlags
  have b : Batch := {
    num := s.merk.num + 1, recs := recs.map (·.1), segs := segs.map (fun x => (x.1, x.2.1)), flags := flags
    closedAt := s.now, root := merkleRoot 13 hashes }
  have upto := (recs.getLast?.map (·.1)).getD s.merk.upto
  { s with merk := { s.merk with
    segs := s.merk.segs.drop 4, upto := upto, closed := s.merk.closed ++ [b], num := s.merk.num + 1
    restart := (if flags = 0 then none else s.merk.restart) } }

/-- BATCH_CLOSE (R305): a STANDBY or FENCED twin signs nothing, and nothing is batched once the warning has fired. -/
def execBatchClose (t : Angle) (s : State) : Outcome :=
  have s := s.tick t
  .next (if s.serves && !s.pfStop && s.batchDue then s.closeBatch else s)

/-- The signed part of a BATCHROOT record (Table 14.7). -/
def State.batchHead (s : State) (b : Batch) : List Byte :=
  leBytes 4 0x4B425254 ++ leBytes 2 1 ++ leBytes 2 b.flags ++ leBytes 8 b.num ++ serialBytes s.fac.serial ++
    leBytes 4 (s.slot 1).genAct ++ leBytes 2 (b.recs.length + b.segs.length) ++ leBytes 2 b.segs.length ++
    leBytes 8 (b.recs.headD 0) ++ leBytes 8 (b.recs.getLastD 0) ++ leBytes 8 b.closedAt ++ beBytes 64 b.root.toNat ++
    fixLen 24 (b.segs.flatMap (fun x => leBytes 6 x.1)) ++ zeros 8

/-- "KVZBR1" as octets. -/
def ctxBatch : List Byte := [0x4B, 0x56, 0x5A, 0x42, 0x52, 0x31]

/-- ROOT0 to ROOT15 show a root: byte 4k in bits 7:0 of ROOTk (Table 14.11). -/
def State.showRoot (s : State) (root : BitVec 512) : State :=
  (List.range 16).foldl (fun s k => s.setReg (Reg.MERK_ROOT0 + 4 * k) (leAt (beBytes 64 root.toNat) (4 * k) 4)) s

/-- BATCH_SIGNED (R305, R306): the signature of the oldest closed batch completes and its BATCHROOT record is appended, charged
under R45; or the PQC engine reports a fault, and the signature is made again. -/
def execBatchSigned (t : Angle) (ok : Bool) (iters : BitVec 10) (s : State) : Outcome :=
  have s := s.tick t
  match s.merk.closed with
  | [] => .next s
  | b :: rest =>
    if !s.serves || s.pfStop || 2 ≤ s.engineState 3 || !s.pqcRuns || !s.hashRuns || !(s.slotOpen 1) then .next s
    else if !ok then .next s.pqcFault
    else if !(s.takes 516) then .next s
    else
      have head := s.batchHead b
      have d := s.draw
      have sig := fixLen 4627 (Config.std 0x21 (s.slot 1).key [0x00 :: head, ctxBatch, leBytes 32 d.1])
      have r := (d.2.pqcSigned iters.toNat).append 0x07 (head ++ sig)
      have s := r.2
      have s := { s with merk := { s.merk with closed := rest, signed := s.merk.signed.put b.num { b with rsn := r.1 } } }
      have s := (s.setReg64 Reg.MERK_BNUM_LO Reg.MERK_BNUM_HI b.num).showRoot b.root
      .next (((s.bump Reg.MERK_SIGNED).bump Reg.MERK_LEAVES (b.recs.length + b.segs.length)).raise 0x45 0)

/-- A proof ends with RESULT (Table 14.11). -/
def State.proofResult (s : State) (result len index : Nat) : State :=
  (s.setReg Reg.MERK_PRF_STAT (result * 2 ^ 28 + len * 2 ^ 24 + index)).raise 0x45 1

/-- The record of an RSN while the ledger holds it: neither void nor on a page that was lost (R245, R254). -/
def State.heldRecord (s : State) (n : Nat) : Option LedgerRecord := (s.led.recs.find n).filter (fun r => !r.void && !r.lost)

/-- The inclusion proof of a record in its batch (R308). -/
def State.proveIn (s : State) (b : Batch) (rsn : Nat) : State :=
  have held := b.recs.filterMap (fun n => (s.heldRecord n).map (fun r => (n, r)))
  if held.length ≠ b.recs.length then s.proofResult 2 0 0
  else
    have hashes := held.map (fun x => recordLeaf x.1 x.2) ++ b.segs.map (fun x => segmentLeaf x.2)
    have i := (indexWhere (fun n => n == rsn) b.recs).getD 0
    have path := auditPath 13 i hashes
    have s := { s with merk := { s.merk with path := path, leafHash := hashes.getD i 0, root := b.root } }
    have s := (s.setReg64 Reg.MERK_PRF_BNUM_LO Reg.MERK_PRF_BNUM_HI b.num).setReg Reg.MERK_PRF_N hashes.length
    s.proofResult 1 path.length i

/-- The effect of a write of PRF_GO (R308). -/
def effPrfGo (v : Word) (s : State) : WriteResult :=
  if !bit 0 v.toNat then .ignored s
  else
    have rsn := s.reg64 Reg.MERK_PRF_RSN_LO Reg.MERK_PRF_RSN_HI
    match s.merk.signed.find? (fun (x : Nat × Batch) => x.2.recs.contains rsn) with
    | some x => .done (s.proveIn x.2 rsn)
    | none =>
      if s.merk.closed.any (fun b => b.recs.contains rsn) || s.openRecs.any (fun x => x.1 == rsn) then .done (s.proofResult 4 0 0)
      else .done (s.proofResult 3 0 0)

/-- PROOF (R308). -/
def execProof (t : Angle) (p : Path) (v : Word) (s : State) : Outcome :=
  .next ((s.tick t).hostWrite p 0x45 0x0A8 (effPrfGo v))

/-- The words of MERK that show the batcher (Table 14.11). -/
def State.readMerkStat (s : State) : Nat :=
  b2n (!s.merk.closed.isEmpty && decide (s.engineState 3 < 2) && s.serves) * 2 ^ 31 + b2n (!s.merk.closed.isEmpty) * 2 ^ 30 +
    min 4096 (s.openRecs.length + s.merk.segs.length)
def State.readProofHash (s : State) (k : Nat) : Nat :=
  have sel := s.fld Reg.MERK_PRF_HSEL 3 0
  have h := if sel < 12 then s.merk.path.getD sel 0 else if sel = 12 then s.merk.leafHash else if sel = 13 then s.merk.root else 0
  leAt (beBytes 64 h.toNat) (4 * k) 4

end Sys2Proof.Machine
end

