-- ==== Sys2Proof/Machine/Update.lean ====
section
/-!
DEFINITION. Field update (spec/21_field_update.md): cartridges and their verification (R393, R394), the microSD medium (R395), the
stages (R396), the handover (R397, R398), trial, confirmation and rollback (R399, R400), groups and BULK segments (R404 to R406).
-/

namespace Sys2Proof.Machine

/-- Fields of a cartridge (Table 21.1). -/
def cartKind (c : List Byte) : Nat := leAt c 0x006 1
def cartAuth (c : List Byte) : Nat := leAt c 0x007 1
def cartVersion (c : List Byte) : Nat := leAt c 0x008 4
def cartLevel (c : List Byte) : Nat := leAt c 0x00C 4
def cartLen (c : List Byte) : Nat := leAt c 0x010 8
def cartPayload (c : List Byte) : List Byte := (c.drop 0x100).take (cartLen c)
def cartImg (c : List Byte) : Nat := leAt c 0x080 4
/-- Segments of a cartridge's payload (R405): 256 octets on the line, 128 on the air. -/
def cartSegs (c : List Byte) (size : Nat) : Nat := ceilDiv (cartLen c) size

/-- The bit of a variant in the variant mask. -/
def variantBit (v : Variant) : Nat :=
  match v with
  | .f => 0 | .s => 1 | .n => 2 | .h => 3

/-- The header holds valid values (R394, step 1; Table 21.1): its length, its identifier, and the places that must be zero. -/
def headerValid (c : List Byte) : Bool :=
  have module := cartKind c == 1
  leAt c 0 4 == 0x4B465743 && leAt c 4 2 == 1 && (cartKind c == 1 || cartKind c == 2) && decide (cartAuth c ≤ 1) &&
    decide (cartLen c ≤ (if module then 0x4000000 else 0x800000)) && c.length == 0x100 + cartLen c + 7219 &&
    leAt c 0x01D 3 == 0 && leAt c 0x03C 4 == 0 && leAt c 0x068 8 == 0 && leAt c 0x0C0 64 == 0 &&
    (if module then leAt c 0x020 16 / 16 == 0
     else cartLevel c == 0 && leAt c 0x018 5 == 0 && leAt c 0x028 8 == 0 && leAt c 0x030 12 == 0 && leAt c 0x040 40 == 0 &&
       leAt c 0x070 16 == 0)

/-- "KVZFW1" as octets. -/
def ctxFw : List Byte := [0x4B, 0x56, 0x5A, 0x46, 0x57, 0x31]

/-- The verification of a cartridge (R394): 0 where every step passes, else the code of the first one that fails (Table 21.3). -/
def State.verifyCode (s : State) (c : List Byte) : Nat :=
  have p := cartLen c
  have pk := (c.drop (0x100 + p)).take 2592
  have sig := (c.drop (0x100 + p + 2592)).take 4627
  have module := cartKind c == 1
  have want := if cartAuth c = 0 then Config.goeveardHash else s.nv.ownerHash
  if !(headerValid c) then 0x01
  else if module && (!(leAt c 0x020 1).testBit (variantBit s.fac.variant) || cartAuth c != 0) then 0x02
  else if Config.sha3 pk ≠ want then 0x03
  else if !(Config.verify pk (0x01 :: c.take 0x100) ctxFw sig) then 0x04
  else if beBytes 64 (Config.sha3 (cartPayload c)).toNat ≠ (c.drop 0x080).take 64 then 0x05
  else if !module then 0
  else if cartLevel c < s.nv.minLevel then 0x06
  else match Config.unwrap Config.imageKey ((c.drop 0x040).take 40) with
    | none => 0x07
    | some ck =>
      if fixLen 16 (Config.std 0x102 ck [(c.drop 0x030).take 12, [], cartPayload c]) = (c.drop 0x070).take 16 then 0 else 0x07

/-- UPD.STAT.STAGE (Table 21.2), and the body of an UPDSTATE record (Table 12.18). -/
def State.stage (s : State) : Nat := s.fld Reg.UPD_STAT 31 29
def State.image (s : State) (n : Nat) : ImageSlot := s.upd.images.getD n {}
def State.setImage (s : State) (n : Nat) (x : ImageSlot) : State := { s with upd := { s.upd with images := s.upd.images.put n x } }
def State.updBody (s : State) : List Byte :=
  leBytes 1 s.stage ++ (List.range 3).flatMap (fun n => leBytes 1 (s.image n).role) ++ leBytes 1 s.nv.boots ++ zeros 3 ++
    (List.range 3).flatMap (fun n => leBytes 4 (cartVersion (s.image n).cart)) ++
    leBytes 1 (s.upd.nodes.foldl (fun m x => m ||| 2 ^ x.1) 0) ++ zeros 3

/-- The stage changes: the cause STAGE, and an UPDSTATE record (Table 12.18; log 42). -/
def State.setStage (s : State) (v : Nat) : State :=
  if s.stage = v then s
  else
    have s := (s.setFld Reg.UPD_STAT 31 29 v).raise 0x4A 0
    s.sysdata 0x06 s.updBody

/-- A refusal with its code (Table 21.3). -/
def State.updRefuse (s : State) (code : Nat) : State := (s.setFld Reg.UPD_STAT 7 0 code).raise 0x4A 2

/-- The image slot that has a role. -/
def State.roleSlot (s : State) (role : Nat) : Option Nat := (List.range 3).find? (fun n => (s.image n).role == role)

/-- The stage is emptied and reads IDLE. -/
def State.dropStage (s : State) : State :=
  have s := match s.roleSlot 4 with
    | some n => s.setImage n {}
    | none => s
  { s with upd := { s.upd with data := [], target := none } }.setStage 0

/-- A card file that is being downloaded is refused with code 0x0B (R395). -/
def State.endCard (s : State) : State :=
  if s.stage = 1 ∧ s.upd.fromCard then s.dropStage.updRefuse 0x0B else s

/-- A download or a verification starts nothing while one runs, in a trial or a handover, in BLANK or RETIRED (R396), or without
EN. -/
def State.stageBusy (s : State) : Bool :=
  !s.flag Reg.UPD_CFG 0 || s.stage == 1 || s.stage == 2 || s.stage == 4 || s.stage == 5 || s.handingOver || s.nv.lc == 0 ||
    s.nv.lc == 6

/-- STAGE (R396): a download starts into the slot that holds neither ACTIVE nor ROLLBACK, the lowest one. A file whose index
names none, or a card that is not ready, is refused with code 0x0B. -/
def State.updStage (s : State) : State :=
  have sd := !s.flag Reg.UPD_SRC 8
  have file := s.upd.files[s.fld Reg.UPD_SRC 3 0]?
  if s.stageBusy then s.updRefuse 0x08
  else if sd && (!s.flag Reg.SDC_STAT 0 || file.isNone) then s.updRefuse 0x0B
  else
    have s := match s.roleSlot 4 with
      | some n => s.setImage n {}
      | none => s
    have n := ((List.range 3).find? (fun n => (s.image n).role == 0)).getD 0
    have s := s.setImage n { role := 4 }
    have s := { s with upd := { s.upd with
      target := some (n + 4 * s.fld Reg.UPD_NC_SEL 2 0)
      fromCard := sd
      data := if sd then (file.map (fun (f : List Byte × List Byte) => f.2)).getD [] else [] } }
    (s.setReg Reg.UPD_PROG 0).setStage 1

/-- CHUNK (R396): a chunk of at most 8 MiB of a host download. -/
def State.updChunk (s : State) : State :=
  have len := s.reg Reg.UPD_HCHUNK_LEN
  if s.stage ≠ 1 ∨ s.upd.fromCard ∨ 0x800000 < len then s.updRefuse 0x08
  else
    have s := { s with upd := { s.upd with data := s.upd.data ++ s.load (s.reg Reg.UPD_HCHUNK_OFS) len } }
    s.setReg Reg.UPD_PROG s.upd.data.length

/-- END (R396): verification follows at once. -/
def State.updEnd (s : State) : State :=
  if s.stage ≠ 1 ∨ s.upd.fromCard then s.updRefuse 0x08 else s.setStage 2

/-- The control cores can carry the admitted obligations at half their capacity over the next HOVER_MAX cycles (R397). -/
def State.hoverMax (s : State) : Nat := clampNat 50 1500 (s.fld Reg.UPD_HOVER 15 0)
def State.coresCarry (s : State) : Bool :=
  (checkPoints s.slalom.calendar 0x38 (s.now + s.hoverMax * 65536)).all (fun d =>
    decide (s.now + s.hoverMax * 65536 < d) ||
    decide (demandTo s.slalom.calendar 0x38 d ≤ (256 - s.retryShare 0x38) * (s.timeCap 0x38 d / 2) / 256))

/-- A handover begins (R397) to the image of a slot; `stage` is what UPD.STAT shows during it. -/
def State.startHandover (s : State) (slot stage : Nat) (back : Bool) : State :=
  { s with upd := { s.upd with hover := some { since := s.cycle, back := back, slot := slot, was := s.stage } } }.setStage stage

/-- ACTIVATE (R397). -/
def State.updActivate (s : State) : State :=
  match s.roleSlot 4 with
  | none => s.updRefuse 0x08
  | some n =>
    if s.stage ≠ 3 ∨ s.handingOver then s.updRefuse 0x08
    else if !s.coresCarry then s.updRefuse 0x09
    else s.startHandover n 4 false

/-- A running trial ends in rollback (R400): the image hands control back to ACTIVE. Without an ACTIVE image nothing can take
control: the trial slot is freed (log 42). -/
def State.endTrial (s : State) : State :=
  match s.roleSlot 1 with
  | some n => s.startHandover n 5 true
  | none =>
    have s := match s.roleSlot 2 with
      | some n => s.setImage n {}
      | none => s
    ({ s with upd := { s.upd with trial := none } }.setStage 0).raise 0x4A 4

/-- ROLLBACK (R400): in a trial, control goes back to ACTIVE; outside one, the ROLLBACK image is activated as a trial, if its
level is not below MIN_LEVEL. -/
def State.updRollback (s : State) : State :=
  if s.handingOver || s.stage == 1 || s.stage == 2 || s.stage == 4 then s.updRefuse 0x08
  else if s.stage = 5 then (if s.upd.confirm.isSome then s.updRefuse 0x08 else s.endTrial)
  else match s.roleSlot 3 with
    | none => s.updRefuse 0x08
    | some n =>
      if cartLevel (s.image n).cart < s.nv.minLevel then s.updRefuse 0x06
      else if !s.coresCarry then s.updRefuse 0x09
      else s.startHandover n 4 false

/-- CONF_CYC and TRIAL_CYC in force (Table 21.5). -/
def State.confCyc (s : State) : Nat := max 3000 (s.fld Reg.UPD_CONFCFG 15 0)
def State.trialCyc (s : State) : Nat := max (2 * s.confCyc) (s.fld Reg.UPD_CONFCFG 31 16)

/-- Confirmation begins (R399): the confirmation record is appended and its commit awaited. -/
def State.confirmTrial (s : State) : State :=
  have c := match s.roleSlot 2 with
    | some n => (s.image n).cart
    | none => []
  if s.readOnly then s
  else
    have r := s.appendSysdata 0x08 (leBytes 4 (cartVersion c) ++ leBytes 4 (cartLevel c))
    { r.2 with upd := { r.2.upd with confirm := some r.1 } }

/-- CONFIRM (R399): the healthy count has reached CONF_CYC. -/
def State.updConfirm (s : State) : State :=
  if s.stage ≠ 5 ∨ s.handingOver ∨ s.upd.confirm.isSome ∨ s.fld Reg.UPD_HEALTHY 15 0 < s.confCyc then s.updRefuse 0x08
  else s.confirmTrial

/-- DISCARD (R396): a stage that is not ACTIVE, TRIAL or ROLLBACK is emptied. -/
def State.updDiscard (s : State) : State :=
  if s.stage = 1 ∨ s.stage = 3 ∨ (s.stage = 0 ∧ (s.roleSlot 4).isSome ∧ !s.handingOver) then s.dropStage else s.updRefuse 0x08

/-- The effect of a write of UPD.CMD (Table 21.5). -/
def effUpdCmd (cmd : Nat) (s : State) : WriteResult :=
  if cmd = 1 then .done s.updStage
  else if cmd = 2 then .done s.updChunk
  else if cmd = 3 then .done s.updEnd
  else if cmd = 4 then .done s.updActivate
  else if cmd = 5 then .done s.updConfirm
  else if cmd = 6 then .done s.updRollback
  else if cmd = 7 then .done s.updDiscard
  else .ignored s

/-- UPD_STAGE to UPD_DISCARD: a write of UPD.CMD; `img` is the chunk that the host has placed at HCHUNK_OFS. -/
def execUpdStage (t : Angle) (p : Path) (s : State) : Outcome := .next ((s.tick t).hostWrite p 0x4A 0x058 (effUpdCmd 1))
def execUpdChunk (t : Angle) (p : Path) (img : List Byte) (s : State) : Outcome :=
  .next (((s.tick t).store (s.reg Reg.UPD_HCHUNK_OFS) img).hostWrite p 0x4A 0x058 (effUpdCmd 2))
def execUpdEnd (t : Angle) (p : Path) (s : State) : Outcome := .next ((s.tick t).hostWrite p 0x4A 0x058 (effUpdCmd 3))
def execUpdActivate (t : Angle) (p : Path) (s : State) : Outcome := .next ((s.tick t).hostWrite p 0x4A 0x058 (effUpdCmd 4))
def execUpdConfirm (t : Angle) (p : Path) (s : State) : Outcome := .next ((s.tick t).hostWrite p 0x4A 0x058 (effUpdCmd 5))
def execUpdRollback (t : Angle) (p : Path) (s : State) : Outcome := .next ((s.tick t).hostWrite p 0x4A 0x058 (effUpdCmd 6))
def execUpdDiscard (t : Angle) (p : Path) (s : State) : Outcome := .next ((s.tick t).hostWrite p 0x4A 0x058 (effUpdCmd 7))

/-- DOWNLOAD_END (R396): the end of the card file. `crc` and `timeouts` are the errors that the card access met. -/
def execDownloadEnd (t : Angle) (crc timeouts : BitVec 8) (s : State) : Outcome :=
  have s := s.tick t
  .next (
    if s.stage ≠ 1 ∨ !s.upd.fromCard then s
    else
      have s := (s.bump Reg.SDC_CRC_ERR crc.toNat).bump Reg.SDC_TIMEOUT timeouts.toNat
      (s.setReg Reg.UPD_PROG s.upd.data.length).setStage 2)

/-- VERIFY_COMPLETE (R394): a MODULE cartridge stays in its slot, VERIFIED; a NODE cartridge is held in its entry; a refused one
is discarded. -/
def execVerifyComplete (t : Angle) (s : State) : Outcome :=
  have s := s.tick t
  .next (
    if s.stage ≠ 2 then s
    else
      have c := s.upd.data
      have code := s.verifyCode c
      have tgt := s.upd.target.getD 0
      have s := s.setFlag Reg.UPD_STAT 28 (cartKind c == 2)
      if code ≠ 0 then s.dropStage.updRefuse code
      else if cartKind c = 1 then
        have s := s.setImage (tgt % 4) { role := 4, cart := c }
        { s with upd := { s.upd with data := [] } }.setStage 3
      else
        have s := s.setImage (tgt % 4) {}
        { s with upd := { s.upd with data := [], target := none, nodes := s.upd.nodes.put (tgt / 4) c } }.setStage 0)

/-- No pinned billing boundary lies in a cycle (R398). -/
def State.clearOfBoundary (s : State) (c : Nat) : Bool :=
  !(s.sweep.instants.any (fun x => match x.2.owner, x.2.pin with
    | .boundary _, some p => p / 65536 == c
    | _, _ => false))

/-- The first cycle from `c` on that meets R398. -/
def State.pickW (s : State) : Nat → Nat → Nat
  | 0, c => c
  | fuel + 1, c =>
    have h := match s.pairs.takeback with
      | some (h, _) => h == c
      | none => false
    if s.clearOfBoundary c && s.clearOfBoundary (c - 1) && !h then c else s.pickW fuel (c + 1)

/-- HANDOVER_READY (R397, R398): the new image reports READY, and the switch cycle is chosen. -/
def execHandoverReady (t : Angle) (s : State) : Outcome :=
  have s := s.tick t
  .next (match s.upd.hover with
    | none => s
    | some h =>
      if h.w.isSome ∨ h.since + s.hoverMax < s.cycle then s
      else
        have w := s.pickW (2 * s.sweep.instants.length + 2) (ceilDiv s.now 65536 + 2)
        { s with upd := { s.upd with hover := some { h with w := some w } } })

/-- HANDOVER_SWITCH (R397): from W on the new image holds control; it appends the handover record and closes the group. -/
def execHandoverSwitch (t : Angle) (s : State) : Outcome :=
  have s := s.tick t
  .next (match s.upd.hover with
    | none => s
    | some h => match h.w with
      | none => s
      | some w =>
        if s.cycle < w ∨ h.rsn.isSome then s
        else
          have c := (s.image h.slot).cart
          have s := s.setReg64 Reg.UPD_W_LO Reg.UPD_W_HI (w * 65536)
          have r := s.appendSysdata 0x07 (leBytes 4 (cartVersion c) ++ leBytes 8 (w * 65536))
          have s := { r.2 with upd := { r.2.upd with hover := if s.readOnly then none else some { h with rsn := some r.1 } } }
          have s := if s.storeRuns then s.closeGroup 0 else s
          if h.back then
            have s := match s.roleSlot 2 with
              | some n => s.setImage n {}
              | none => s
            ({ s with upd := { s.upd with trial := none } }.setStage 0).raise 0x4A 4
          else
            have s := s.setImage h.slot { role := 2, cart := c }
            have s := { s with nv := { s.nv with boots := 0 }, upd := { s.upd with trial := some w } }
            ((s.setReg Reg.UPD_HEALTHY 0).setReg Reg.UPD_TRIAL_LEFT s.trialCyc).setStage 5)

/-- A handover is aborted before W (R397): the stage returns to VERIFIED, or to what it was, and HOVER is raised with code
0x0A. -/
def State.abortHandover (s : State) : State :=
  match s.upd.hover with
  | none => s
  | some h =>
    if h.rsn.isSome then s
    else
      have s := { s with upd := { s.upd with hover := none } }
      ((s.setStage h.was).setFld Reg.UPD_STAT 7 0 0x0A).raise 0x4A 3

/-- HANDOVER_ABORT (R397): READY has not come within HOVER_MAX cycles. -/
def execHandoverAbort (t : Angle) (s : State) : Outcome :=
  have s := s.tick t
  .next (match s.upd.hover with
    | none => s
    | some h => if h.w.isNone ∧ h.since + s.hoverMax ≤ s.cycle then s.abortHandover else s)

/-- The trial at a cycle start (R399): the healthy count, the cycles left, and the automatic confirmation. -/
def State.trialCycle (s : State) : State :=
  match s.upd.trial with
  | none => { s with upd := { s.upd with unhealthy := false } }
  | some w =>
    have n := if s.inService && !s.upd.unhealthy then min 65535 (s.fld Reg.UPD_HEALTHY 15 0 + 1) else 0
    have s := (s.setFld Reg.UPD_HEALTHY 15 0 n).setReg Reg.UPD_TRIAL_LEFT (w + s.trialCyc - s.cycle)
    have s := { s with upd := { s.upd with unhealthy := false } }
    if s.flag Reg.UPD_CFG 1 ∧ s.confCyc ≤ n ∧ s.upd.confirm.isNone ∧ !s.handingOver then s.confirmTrial else s

/-- The confirmation record is committed (R399, steps 2 to 4). -/
def State.confirmed (s : State) : State :=
  match s.roleSlot 2 with
  | none => s
  | some n =>
    have level := cartLevel (s.image n).cart
    have s := { s with upd := { s.upd with images := s.upd.images.map (fun (x : Nat × ImageSlot) =>
      if x.2.role = 2 then (x.1, { x.2 with role := 1 })
      else if x.2.role = 1 then (x.1, { x.2 with role := 3 })
      else if x.2.role = 3 then (x.1, {}) else x) } }
    have s := { s with nv := { s.nv with minLevel := max s.nv.minLevel level } }
    have s := { s with upd := { s.upd with
      confirm := none
      trial := none
      images := s.upd.images.map (fun (x : Nat × ImageSlot) =>
        if x.2.role = 3 ∧ cartLevel x.2.cart < s.nv.minLevel then (x.1, {}) else x) } }
    (s.setStage 0).raise 0x4A 1

/-- What a commit up to an RSN ends of an update: a handover (R397, step 4) or a confirmation (R399). -/
def State.updCommitted (s : State) : State :=
  have s := match s.upd.hover with
    | some h => (match h.rsn with
      | some r => if s.recDone r then { s with upd := { s.upd with hover := none } } else s
      | none => s)
    | none => s
  match s.upd.confirm with
  | some r => if s.recDone r then s.confirmed else s
  | none => s

/-- TRIAL_EXPIRY (R400): the window ends without confirmation. -/
def execTrialExpiry (t : Angle) (s : State) : Outcome :=
  have s := s.tick t
  .next (match s.upd.trial with
    | none => s
    | some w => if s.cycle < w + s.trialCyc ∨ s.upd.confirm.isSome ∨ s.handingOver then s else s.endTrial)

/-- A name ends in .KFW. -/
def isKfw (name : List Byte) : Bool := (name.reverse.take 4).reverse == [0x2E, 0x4B, 0x46, 0x57]

/-- The card error of R395: ERR, the ERROR cause, and the end of a running card download. -/
def State.cardError (s : State) : State := ((s.setFlag Reg.SDC_STAT 1 true).raise 0x55 1).endCard

/-- The slot as initialisation finds it (R395): up to 16 files whose names end in .KFW. -/
def State.initCard (s : State) (card : Option CardRx) : State :=
  match card with
  | none =>
    have s := (s.setReg Reg.SDC_STAT 0).setReg Reg.SDC_FILE_N 0
    { s with upd := { s.upd with files := [] } }
  | some c =>
    have ready := c.ok && (c.kind == 1 || c.kind == 2)
    have files := if ready then (c.files.filter (fun f => isKfw f.1)).take 16 else []
    have s := s.setReg Reg.SDC_STAT (2 ^ 31 + min 3 (max 1 c.kind) * 2 ^ 29 + min 2 c.mode * 2 ^ 26 + b2n ready)
    have s := { s.setReg Reg.SDC_FILE_N files.length with upd := { s.upd with files := files } }
    if c.ok then s else s.cardError

/-- CARD_CHANGE (R395): a card is inserted, as initialisation finds it, or removed. -/
def execCardChange (t : Angle) (card : Option CardRx) (s : State) : Outcome :=
  have s := (s.tick t).raise 0x55 0
  have s := if card.isNone then s.endCard else s
  .next (s.initCard card)

/-- The effect of a write of SDC.RESCAN. -/
def effRescan (v : Word) (card : Option CardRx) (s : State) : WriteResult :=
  if bit 0 v.toNat then .done (s.initCard card) else .ignored s

/-- CARD_RESCAN (Table 21.6). -/
def execCardRescan (t : Angle) (p : Path) (v : Word) (card : Option CardRx) (s : State) : Outcome :=
  .next ((s.tick t).hostWrite p 0x55 0x074 (effRescan v card))

/-- CARD_ERROR (R395): the card failed its initialisation, or reports a read error after two retries; `crc` and `timeouts` are the
errors that the access met. -/
def execCardError (t : Angle) (init : Bool) (crc timeouts : BitVec 8) (s : State) : Outcome :=
  have s := ((s.tick t).bump Reg.SDC_CRC_ERR crc.toNat).bump Reg.SDC_TIMEOUT timeouts.toNat
  .next (
    if !s.flag Reg.SDC_STAT 31 then s
    else
      have s := if init then
          { (s.setFlag Reg.SDC_STAT 0 false).setReg Reg.SDC_FILE_N 0 with upd := { s.upd with files := [] } } else s
      s.cardError)

/-- A write of GRP_W (R404): the node joins the group, or leaves its group, and a node with KLP 2 or KAP 3 is sent a GRP
record. -/
def effGrpW (v : Word) (s : State) : WriteResult :=
  have id := s.fld Reg.UPD_GRP_NODE 12 0
  have n := s.node id
  have g := if bit 31 v.toNat then some (bits 12 0 v.toNat) else none
  if n.state = 0 then .discard s 0x09
  else
    have s := (s.setReg (bankKey id Reg.UPD_GRP_W) (v.toNat &&& 0x80001FFF)).setNode id { n with group := g }
    have s := s.persistNode id
    .done (if takesBulk n then s.firmwareCommand id (leBytes 1 0x5A ++ beBytes 2 (g.getD 0xFFFF)) else s)

/-- GROUP_JOIN (R404). -/
def execGroupJoin (t : Angle) (p : Path) (v : Word) (s : State) : Outcome :=
  .next ((s.tick t).hostWrite p 0x4A 0x0A4 (effGrpW v))

/-- The segment octets of a BULK frame (R405): of the segment that comes after `sent` frames on the lane, in rounds over the
segments (log 42). -/
def bulkSegment (cart payload : List Byte) (size sent : Nat) : List Byte :=
  have seg := leAt payload 4 2 + sent % max 1 (leAt payload 6 2)
  have data := ((cartPayload cart).drop (seg * size)).take size
  beBytes 4 (cartImg cart) ++ beBytes 2 seg ++ beBytes 2 (cartSegs cart size) ++ beBytes 2 data.length ++ zeros 2 ++ data

/-- A BULK frame has left on a lane: its work is done, and the obligation is complete when the last one has left (R406). -/
def State.bulkSent (s : State) (id r : Nat) : State :=
  have s := s.modObl (id % 2 ^ 20) (fun o =>
    have left := o.frames.getD r 0 - 1
    { o with
      frames := if left = 0 then o.frames.del r else o.frames.put r left
      rest := o.rest.put r (left * s.bulkFrameWork r) })
  match s.obl id with
  | some o => if o.frames.isEmpty then s.endId (some id) 0 0 else s
  | none => s

/-- BULK_SEGMENT (R405, R406): the next BULK frame of an obligation leaves on a line or air lane. -/
def execBulkSegment (t : Angle) (r : Fin 10) (id : Nat) (s : State) : Outcome :=
  have s := s.tick t
  .next (match s.obl id with
    | none => s
    | some o =>
      have left := o.frames.getD r.val 0
      have cart := s.upd.nodes.getD (leAt o.records 0 1) []
      have total := clampNat 1 4 (leAt o.records 1 1) * leAt o.records 6 2
      have sent := total - left
      if left = 0 ∨ o.op ≠ 0x20 ∨ (s.exchange r.val).isSome then s
      else if r.val ≤ 5 then
        (if !(s.lineReady r.val) ∨ !(s.startsHere r.val) ∨ s.sends r.val s.cycle s.cycle ∨ s.awaits r.val s.cycle s.cycle ∨
            s.expects (sisterOf r.val) s.cycle (s.cycle + s.bulkFrameWork r.val / 65536 - 1) ∨
            !(s.lineClear r.val s.cycle (s.cycle + s.bulkFrameWork r.val / 65536 - 1)) then s
        else
          have d := s.drawGroup 1 r.val
          match d.1 with
          | .value c =>
            have h := klpHeader 9 2 true false (0x8000 + o.node) 0 s.cycle 0 []
            have k := d.2.groupSecretNow (lineGroupKey r.val)
            have body := klpSecured k.1 (0x8000 + o.node) r.val c h (bulkSegment cart o.records 256 sent)
            (k.2.sendLine r.val (0x8000 + o.node) 9 3 false s.cycle body).bulkSent id r.val
          | _ => d.2)
      else if 8 ≤ r.val then
        (if s.airSearching (r.val - 8) then s
        else
          have d := s.drawGroup 2 (r.val - 8)
          match d.1 with
          | .value c =>
            have body := bulkSegment cart o.records 128 sent
            have k := d.2.groupSec (r.val - 8) 6 c
            have x := k.2.sendAir (r.val - 8) (0x8000 + o.node) 0xC (39 + body.length) k.2.now 3 false none (some k.1) body
            if x.1 then x.2.bulkSent id r.val else x.2
          | _ => d.2)
      else s)

/-- The registers of Table 21.5 that show images. -/
def State.readVerOf (s : State) (role : Nat) : Nat := ((s.roleSlot role).map (fun n => cartVersion (s.image n).cart)).getD 0
def State.nodeCart (s : State) : Option (List Byte) := s.upd.nodes.find (s.fld Reg.UPD_NC_SEL 2 0)
def State.readNcStat (s : State) : Nat := b2n s.nodeCart.isSome * 2 ^ 31
def State.readNcImg (s : State) : Nat := (s.nodeCart.map cartImg).getD 0
def State.readNcNseg (s : State) : Nat :=
  match s.nodeCart with
  | some c => cartSegs c 128 % 65536 * 65536 + cartSegs c 256 % 65536
  | none => 0

/-- The registers of Table 21.6 that show the file at FILE_SEL. -/
def State.cardFile (s : State) : List Byte × List Byte := s.upd.files.getD (s.fld Reg.SDC_FILE_SEL 3 0) ([], [])
def State.readFileName (s : State) (i : Nat) : Nat := leAt (s.cardFile.1 ++ zeros 32) (4 * i) 4
def State.readFileLen (s : State) (hi : Bool) : Nat :=
  have n := s.cardFile.2.length
  if hi then n / 2 ^ 32 else n % 2 ^ 32

end Sys2Proof.Machine
end

