-- ==== Sys2Proof/Machine/Pairs.lean ====
section
/-!
DEFINITION. Pairs, the operation of a twin (spec/16_pairs_redundancy.md): pairing (R326, R327), the mirror (R328 to R332), fence
(R333, R336), heartbeats and the takeover condition (R334, R335), the switch-over (R337, R338), takeback (R339), and UNPAIR
(R413).
-/

namespace Sys2Proof.Machine

/-- The twin can take part in a pair (R326, R409): EN, a pair identity, and a pair key in slot 3 that is not sealed. -/
def State.pairable (s : State) : Bool :=
  s.flag Reg.PAIRS_CFG 0 && s.pairId != 0 && s.slotOpen 3 && attrType (s.slot 3).attr == 3 && attrDest (s.slot 3).attr == 7

/-- The Pairs link works: its domain runs and its block has not failed (Table 19.2). -/
def State.linkWorks (s : State) : Bool := !s.pageOff 0x4C && !s.blockBad 0x0D

/-- Twin operation: the pairing state is not SOLO or PAIRING. -/
def State.paired (s : State) : Bool := s.pairState == 1 || s.pairState == 2 || s.pairState == 3

/-- The home twin (R326). -/
def State.prefers (s : State) : Bool := s.flag Reg.PAIRS_CFG 1

/-- The twin has no pilot path (R412). -/
def State.noPilot (s : State) : Bool :=
  have a := 2 * (s.pilotPhase - 1)
  s.fac.variant == .h || s.plan == 0 || (s.resLost a && s.resLost (a + 1))

/-- A scheduled takeback is cancelled (R339): before H:0000 only. -/
def State.cancelTakeback (s : State) : State :=
  match s.pairs.takeback with
  | none => s
  | some (h, _, _) =>
    if h ≤ s.cycle then s
    else
      ({ s with pairs := { s.pairs with takeback := none, asking := false, healthy := 0 } }.setFlag Reg.PAIRS_STAT 16 false).raise 0x4C 4

/-- What the twin's acknowledgements held back goes on: readings (R80) and forwarded records (R278). -/
def State.settleMirrors (s : State) : State :=
  have s := s.field.nodes.foldl (fun (s : State) x => if x.2.unmirrored.isEmpty then s else s.settleAck x.1) s
  s.sessions.foldl (fun (s : State) x => if x.2.fwds.isEmpty then s else s.settleFwd x.1) s

/-- The wait for the twin's acknowledgement begins anew (R329). -/
def State.stampAck (s : State) : State := { s with pairs := { s.pairs with ackAt := s.cycle } }

/-- STAT.SYNC takes a value: the cause SYNC; a takeback that is scheduled is cancelled, and the wait for the twin's
acknowledgement begins anew (R329, R330, R339). -/
def State.enterSync (s : State) (v : Nat) : State :=
  ((s.setFld Reg.PAIRS_STAT 28 27 v).raise 0x4C 1).cancelTakeback.stampAck

/-- STAT.SYNC changes; the mirror holds nothing back outside SYNCED (R329, R330, R339). -/
def State.setSync (s : State) (v : Nat) : State :=
  if s.syncState = v then s else if v = 2 then s.enterSync v else (s.enterSync v).settleMirrors

/-- A path fault changes (R334): bit 20 PF_LINK, 19 PF_PILOT. -/
def State.setFault (s : State) (i : Nat) (b : Bool) : State :=
  if s.flag Reg.PAIRS_STAT i = b then s
  else
    have s := (s.setFlag Reg.PAIRS_STAT i b).raise 0x4C 0
    if b then s.cancelTakeback else s

/-- PF_PILOT mirrors PATH_FAULT, and reads 1 without a pilot path (R334, R412). -/
def State.showPilotFault (s : State) : State :=
  if s.paired then s.setFault 19 (s.noPilot || s.flag Reg.LINEM_PILOTSTAT 2) else s

/-- The twin is silent (R334): no valid link heartbeat for 2 cycles, and the ACTIVE pilot missed in the windows of those
cycles. -/
def State.linkSilent (s : State) : Bool :=
  match s.pairs.lastHb with
  | some t => decide (t + 131072 ≤ s.now)
  | none => true
def State.silent (s : State) : Bool := s.linkSilent && (s.noPilot || decide (2 ≤ s.fld Reg.LINEM_PILOTSTAT 31 16))

/-- The transmit keys after a restart or a takeover (R301): each resumes in the block that is `skip` beyond the one after its
highest reserved block, once that block is reserved. -/
def State.resumeKeys (s : State) (skip : Nat) : State :=
  { s with nv := { s.nv with txKeys := s.nv.txKeys.map (fun (x : Nat × TxKey) =>
    (x.1, { x.2 with next := (x.2.blocks + skip) * 4096, blocks := x.2.blocks + skip, asked := true })) } }

/-- The twin has acknowledged every reservation: it holds the working state (R331), or the keys are those that its mirror gave (R301). -/
def State.countAcked (s : State) : State :=
  { s with nv := { s.nv with txKeys := s.nv.txKeys.mapVals (fun _ k => { k with acked := k.blocks }) } }

/-- The last BATCHROOT record that the store holds: its batch number and the last RSN of its leaves (Table 14.7). -/
def State.lastRoot (s : State) : Nat × Nat :=
  match (s.led.recs.filter (fun x => x.2.cls == 7 && !x.2.void)).getLast? with
  | some (_, r) => (leAt r.payload 0x08 8, leAt r.payload 0x30 8)
  | none => (0, 0)

/-- The leaves above the last BATCHROOT come first in batches of their own (R307): flags 1 RESTART, 2 TAKEOVER. -/
def State.rebatch (s : State) (flags : Nat) : State :=
  have r := s.lastRoot
  { s with merk := { s.merk with
    num := max s.merk.num r.1, upto := r.2, closed := [], restart := some (flags, s.led.nextRsn - 1) } }

/-- The epoch after a takeover or at a start as ACTIVE (R337). -/
def State.raiseEpoch (s : State) : State := { s with nv := { s.nv with epoch := (s.nv.epoch + 1) % 2 ^ 32 } }

/-- The boundaries that have passed and that the mirror lacks are late (R229, R338). -/
def State.lateBoundaries (s : State) : State :=
  { s with sweep := { s.sweep with instants := s.sweep.instants.map (fun (x : Nat × Instant) =>
    match x.2.pin with
    | some p => if p ≤ s.now then (x.1, { x.2 with late := true }) else x
    | none => x) } }

/-- Local interlock commands go on after a restart or a switch-over (R226, R338). -/
def State.resumeInterlocks (s : State) : State :=
  s.slalom.calendar.foldl (fun (s : State) x => if x.2.op = 0x02 then s.resumeInterlock (oblId x.1 x.2) x.2 else s) s
/-- STATE of the outputs is taken from their feedback again, where a sample of it is known (R226, R229). -/
def State.readFeedback (s : State) : State :=
  (List.range 4).foldl (fun (s : State) k =>
    have s := s.setOutput k { host := (s.output k).host }
    if s.fld (Reg.CRED_IL_STAT k) 31 29 = 0 then s else s.setIlState k (if s.feedback k then 1 else 2)) s

/-- What a handover held is over. -/
def State.clearHandover (s : State) (taken : Bool) : State :=
  { s with pairs := { s.pairs with
    takeback := none, asking := false, healthy := 0, failing := false, stopped := false, unpairing := false
    refused := !taken && s.pairs.refused } }

/-- A group that holds work closes where the store runs. -/
def State.closeOpenGroup (s : State) : State := if s.storeRuns && s.openWork then s.closeGroup 0 else s

/-- The switch-over of a twin that has become ACTIVE: its drivers, what PAIRS shows of it, the epoch and the log (R333, R337,
R338). -/
def State.switchOver (s : State) (cause : Nat) : State :=
  have s := (((s.clearHandover true).setFlag Reg.PAIRS_STAT 18 false).setFld Reg.PAIRS_STAT 17 16 0).setFence true
  have s := (s.setFld Reg.PAIRS_LASTSW 2 0 cause).setReg64 Reg.PAIRS_SW_AT_LO Reg.PAIRS_SW_AT_HI s.now
  have s := s.bump Reg.PAIRS_SWITCHES
  have s := (if cause = 3 then s.bump Reg.PAIRS_TAKEBACKS else s).raiseEpoch
  (s.raise 0x4C 2).logEntry 2 0x4C 0x0006 (cause + s.nv.epoch * 2 ^ 32)

/-- The mirrored sessions go on at the twin that takes over, beside its own ones with hosts (R272, R273). -/
def State.takeSessions (s : State) : State :=
  have mine := s.sessions.filter (fun x => decide (260 ≤ x.2.peer))
  have all := s.pairs.kept.foldl (fun (m : SMap Session) x => m.put x.1 { s.renewed x.2 with lastRx := s.cycle }) mine
  have next := s.pairs.kept.foldl (fun n x => max n (x.1 + 1)) s.nextSess
  have came := s.pairs.kept
  have s := { s with sessions := all, nextSess := next, pairs := { s.pairs with kept := [] } }
  came.foldl (fun (s : State) x => s.showPeer x.2.peer) s

/-- A session of this twin under the ID of one that the mirror brings ends (log 102). -/
def State.yieldSid (s : State) (sid : Nat) : State := if (s.pairs.kept.find sid).isSome then s else s.closeSession sid

/-- The exchanges of the twin that was ACTIVE are over, and the sweep has a gap of 4 cycles (R338). -/
def State.gapSwitch (s : State) : State :=
  { s with field := { s.field with gapUntil := (s.cycle + 4) * 65536, exch := [] } }

/-- Loop ports whose source is asked for start (R125, R126). -/
def State.resumeSources (s : State) : State :=
  (List.range 4).foldl (fun (s : State) n =>
    if s.loopState n = 0 ∨ s.loopState n = 6 then
      (if s.maySource n then s.setLoopState n (if s.tripWaits n then 4 else 2) else s.setLoopState n s.offState)
    else s) s

/-- The duties that a switch-over brings: the obligations, the boundaries of the gap, the batches, the sources and the interlocks. -/
def State.resumeDuty (s : State) : State :=
  ((s.gapSwitch.recompute 0x17).closeOpenGroup.lateBoundaries.pumpAll.rebatch 2).resumeSources.readFeedback.resumeInterlocks

/-- The twin takes over (R338) at T_d, which is now: `cause` is LASTSW. -/
def State.takeover (s : State) (cause : Nat) (force : Bool) : State :=
  have s := ((s.runLeases.abortHandover.setFld Reg.PAIRS_STAT 31 29 1).setSync 0).switchOver cause
  (s.resumeKeys (if force then 255 else 0)).countAcked.takeSessions.resumeDuty

/-- Everything that a fenced or yielding twin drives is off: loop sources, exchanges on the media, interlock drivers (R333). -/
def State.stopMedia (s : State) : State :=
  have s := s.cutSources
  { s with
    field := { s.field with exch := [] }
    interlock := { s.interlock with pulse := none, queue := [] } }

/-- An ACTIVE or SOLO twin is fenced (R336): it stops, commits its charged records, and enters FENCED; `cause` is its event
cause. -/
def State.enterFenced (s : State) (cause : Nat) : State :=
  have w := { s with pairs := { s.pairs with unacked := s.heldBack } }
  have w := (((w.abortHandover.setFence false).stopMedia.setFld Reg.PAIRS_STAT 31 29 3).setSync 0).clearHandover false
  have w := (w.setFld Reg.PAIRS_STAT 17 16 0).closeOpenGroup.raise 0x4C cause
  if s.pairState = 1 then w.raise 0x4C 2 else w

/-- A takeover condition is met, but the twin may not take over (R334). -/
def State.refuseTakeover (s : State) (blocked : Bool) : State :=
  have s := if blocked then s.setFlag Reg.PAIRS_STAT 17 true else s
  if s.pairs.refused then s
  else ({ s with pairs := { s.pairs with refused := true } }.bump Reg.PAIRS_REFUSALS).raise 0x4C 3

/-- The takeover condition is evaluated (R334), after the rule that takes a STANDBY twin out of SYNCED (R330). -/
def State.evaluateTakeover (s : State) : State :=
  if s.pairState ≠ 2 then s
  else
    have s := if s.syncState = 2 ∧ s.linkSilent ∧ s.pairs.pilot then s.setSync 0 else s
    have report := s.flag Reg.PAIRS_STAT 18
    if s.silent ∨ report then
      (if s.syncState ≠ 2 then s.refuseTakeover false
      else if s.flag Reg.PAIRS_STAT 22 then s.refuseTakeover true
      else s.takeover (if report then 2 else 1) false)
    else { s with pairs := { s.pairs with refused := false } }.setFlag Reg.PAIRS_STAT 17 false

/-- A failure report has come, or the twin's last heartbeat or pilot carries none (R334). -/
def State.twinFails (s : State) (b : Bool) : State :=
  have s := s.setFlag Reg.PAIRS_STAT 18 b
  if b then s.cancelTakeback else s

/-- PILOT_WINDOW (R91, R93, R334): the ACTIVE twin sends in every cycle and listens in every eighth; the STANDBY twin the other way
round. `rx` is what the correlator found of the twin's pilot. -/
def execPilotWindow (t : Angle) (rx : Option PilotRx) (s : State) : Outcome :=
  have s := s.tick t
  have eighth := s.cycle % 8 == 0
  .next (
    if !s.pilotOn ∨ s.plan = 0 then s
    else
      have active := s.pairState == 1
      have start := s.cycle * 65536 + 0x2000 + (if active then 0 else s.nsTicks (symbolNs s.plan) + 2 * s.nsTicks 200000)
      have s := if (active || eighth) && !(s.flag Reg.LINEC_PHFOLD (3 + s.pilotPhase)) then
        s.sendPilot s.pairRot start s.pairs.failing else s
      if active && !eighth then s
      else
        have s := (s.pilotResult rx).showPilotFault
        have seen := s.flag Reg.LINEM_PILOTSTAT 0
        have s := if seen then
            { s.twinFails (s.flag Reg.LINEM_PILOTSTAT 1) with pairs := { s.pairs with pilot := true } } else s
        s.evaluateTakeover)

/-- The reasons for which an ACTIVE twin reports its own failure (R335). -/
def State.failureReason (s : State) : Bool :=
  have media := (List.range 16).filter (fun r => resourceInVariant s.fac.variant r)
  s.readOnly || decide (s.coresLeft < 2) || s.liveLanes.isEmpty ||
    ((s.nv.role == 1 || s.nv.role == 3) && !media.isEmpty && media.all (fun r => (s.slalom.lost.find r).isSome || s.resAbsent r))

/-- The flags of a heartbeat (Table 16.4). -/
def State.hbFlags (s : State) : Nat :=
  b2n s.pairs.failing + 2 * b2n (s.syncState == 2) + 4 * b2n (s.syncState == 3) + 8 * b2n s.pairs.asking + 16 * b2n s.prefers +
    32 * b2n (s.flag Reg.PAIRS_STAT 21)

/-- HEARTBEAT_SEND (R334, R335): at angles 0x0000 and 0x8000. A heartbeat that has not come since the last one counts as missed;
the failure reasons and the takeover condition are evaluated; an ACTIVE twin drives its fence output (R333). -/
def execHeartbeatSend (t : Angle) (s : State) : Outcome :=
  have s := s.tick t
  .next (
    if !s.paired ∨ s.angle % 0x8000 ≠ 0 then s
    else
      have s := if s.pairState = 1 ∧ s.failureReason then s.reportFailure else s
      have s := if s.pairState = 1 ∧ !s.pairs.failing ∧ !s.pairs.stopped ∧ !s.flag Reg.PAIRS_STAT 22 then s.setFence true else s
      have h := match s.pairs.takeback with
        | some (h, _, false) => h % 2 ^ 32
        | _ => 0
      have s := if s.linkWorks then
          s.send (.pairs 0x48 [s.fld Reg.PAIRS_STAT 26 24, s.pairState, s.hbFlags, s.nv.epoch, s.now, s.led.nextRsn - 1, s.unitsLost, h])
        else s
      have s :=
        if s.pairs.seen then s
        else
          have s := { s with pairs := { s.pairs with missed := s.pairs.missed + 1, valid := 0 } }.bump Reg.PAIRS_HB_MISS
          if 4 ≤ s.pairs.missed then s.setFault 20 true else s
      { s with pairs := { s.pairs with seen := false } }.evaluateTakeover)

/-- The mirror is acknowledged up to an RSN (R328, R329). -/
def State.mirrorAcked (s : State) (rsn : Nat) : State :=
  have n := max s.ackedRsn (min rsn (s.led.nextRsn - 1))
  have s := { s with ackedRsn := n, pairs := { s.pairs with ackAt := s.cycle } }
  s.settleMirrors

/-- A takeback is scheduled (R339): H, LASTSW's code, and whether this twin takes over in it. -/
def State.schedule (s : State) (h code : Nat) (takes : Bool) : State :=
  ({ s with pairs := { s.pairs with takeback := some (h, code, takes) } }.setFlag Reg.PAIRS_STAT 16 true).raise 0x4C 4

/-- The first even cycle at least 4 cycles ahead (R339). -/
def State.pickH (s : State) : Nat :=
  have c := ceilDiv s.now 65536 + 4
  c + c % 2

/-- A cycle from its bits 31:0, at or after the present one. -/
def State.fullCycle (s : State) (low : Nat) : Nat := s.cycle + (low + 2 ^ 32 - s.cycle % 2 ^ 32) % 2 ^ 32

/-- A switch of roles can be scheduled: ACTIVE with a SYNCED twin and no path fault. -/
def State.mayYield (s : State) : Bool :=
  s.pairState == 1 && s.syncState == 2 && !s.flag Reg.PAIRS_STAT 20 && (!s.flag Reg.PAIRS_STAT 19 || s.noPilot) &&
    !s.flag Reg.PAIRS_STAT 18 && s.pairs.takeback.isNone

/-- A valid heartbeat (R334): what the twin says of itself, the takeback (R339), and its acknowledgement of the mirror. -/
def State.takeHeartbeat (s : State) (h : Heartbeat) : State :=
  have p := s.pairs
  have s := { s with pairs := { p with
    missed := 0, valid := p.valid + 1, seen := true, lastHb := some s.now, pilot := false
    twinEpoch := h.epoch } }
  have s := (s.setReg64 Reg.PAIRS_LAST_HB_LO Reg.PAIRS_LAST_HB_HI s.now).setFld Reg.PAIRS_TWIN_UNITS 15 0 h.units
  have s := if 16 ≤ s.pairs.valid then s.setFault 20 false else s
  have s := s.twinFails (bit 0 h.flags)
  have synced := bit 1 h.flags
  if s.pairState = 1 then
    have s := if s.syncState = 2 ∧ !synced then s.setSync 0 else s
    have s := if s.syncState = 2 ∧ h.state = 2 then s.mirrorAcked h.rsn else s
    if bit 3 h.flags && s.mayYield then s.schedule s.pickH 3 false else s
  else if s.pairState = 2 then
    have s := if s.syncState = 2 ∧ h.state = 1 ∧ !synced then s.setSync 0 else s
    have s := match s.pairs.takeback with
      | none => if h.h ≠ 0 then s.schedule (s.fullCycle h.h) (if s.pairs.asking then 3 else 4) true else s
      | some _ => if h.h = 0 then s.cancelTakeback else s
    s.evaluateTakeover
  else s

/-- HEARTBEAT_RECEIVED (R334): a frame that fails authentication is discarded and counted; a heartbeat is valid if it names the
pair identity and a sweep time within 0x0400 ticks. -/
def execHeartbeatReceived (t : Angle) (h : Heartbeat) (s : State) : Outcome :=
  have s := s.tick t
  .next (
    if !s.paired ∨ !s.linkWorks then s
    else if !h.authentic then s.bump Reg.PAIRS_LINK_AUTH
    else if h.pairId.toNat ≠ s.pairId ∨ 0x0400 < ((h.time : Int) - s.now).natAbs then s
    else s.takeHeartbeat h)

/-- CTRL.ENABLE is cleared on every LINE, AIR and LOOP page (R413): a write of the firmware, which counts in SEQ (R422). -/
def State.clearLanes (s : State) : State :=
  have pages := definedPages.filter (fun p => match laneBit p with
    | some i => s.flag Reg.SYS_LANE_EN i
    | none => false)
  pages.foldl (fun (s : State) p => s.setReg (p * 0x1000 + 0x030) (s.reg (p * 0x1000 + 0x030) + 1)) (s.applyLanes 0)

/-- The healthy hold at a cycle start (R339), and UNPAIR (R413). -/
def State.pairCycle (s : State) : State :=
  have s := s.showPilotFault
  have hold := max 3000 (s.fld Reg.PAIRS_HOLD 15 0)
  have good := s.pairState == 2 && s.syncState == 2 && s.prefers && s.flag Reg.PAIRS_CFG 2 && !s.flag Reg.PAIRS_STAT 20 &&
    (!s.flag Reg.PAIRS_STAT 19 || s.noPilot) && !s.flag Reg.PAIRS_STAT 18 && decide (s.unitsLost ≤ s.fld Reg.PAIRS_TWIN_UNITS 15 0)
  have n := if good then min hold (s.pairs.healthy + 1) else 0
  have s := { s with pairs := { s.pairs with healthy := n, asking := s.pairs.asking && good } }
  have s := s.setFld Reg.PAIRS_HOLD_LEFT 15 0 (hold - n)
  if !s.pairs.unpairing then s
  else
    have standby := s.pairState == 2
    have s := { s with pairs := { s.pairs with unpairing := false, asking := false, takeback := none }, nv := { s.nv with pairing := none } }
    have s := ((s.runLeases.setFence false).setFld Reg.PAIRS_STAT 31 29 0).setSync 0
    have s := (s.setFld Reg.PAIRS_STAT 26 24 0).setFld Reg.PAIRS_STAT 17 16 0
    have s := if standby then s.clearLanes else s
    (List.range 4).foldl (fun (s : State) n => if s.loopState n = 6 then s.setLoopState n s.offState else s) s

/-- TAKEBACK_REQUEST (R339): the home twin has held healthy for HOLD_CYC cycles. -/
def execTakebackRequest (t : Angle) (s : State) : Outcome :=
  have s := s.tick t
  .next (
    if s.pairState = 2 ∧ max 3000 (s.fld Reg.PAIRS_HOLD 15 0) ≤ s.pairs.healthy ∧ s.pairs.takeback.isNone then
      { s with pairs := { s.pairs with asking := true } }
    else s)

/-- TAKEBACK_STOP (R339): at H:0000 the ACTIVE twin stops transmitting and releases its fence output. -/
def execTakebackStop (t : Angle) (s : State) : Outcome :=
  have s := s.tick t
  .next (match s.pairs.takeback with
    | some (h, _, false) =>
      if s.cycle < h ∨ s.pairs.stopped then s
      else { s.abortHandover with pairs := { s.pairs with stopped := true } }.setFence false
    | _ => s)

/-- TAKEBACK_SWITCH (R339): at H:8000 the other twin takes over; one that still drives the fence is alive, and blocks it (R334). -/
def execTakebackSwitch (t : Angle) (s : State) : Outcome :=
  have s := s.tick t
  .next (match s.pairs.takeback with
    | some (h, code, true) =>
      if s.now < h * 65536 + 0x8000 ∨ s.pairState ≠ 2 then s
      else if s.flag Reg.PAIRS_STAT 22 then s.refuseTakeover true
      else s.takeover code false
    | _ => s)

/-- SWITCHOVER_GAP_END (R338): service resumes at M+4:0000; interlock commands and a life-cycle submission that waited go on
(R416). -/
def execSwitchoverGapEnd (t : Angle) (s : State) : Outcome :=
  have s := s.tick t
  .next (
    if s.field.gapUntil = 0 ∨ s.now < s.field.gapUntil then s
    else
      have s := { s with field := { s.field with gapUntil := 0 } }
      have s := match s.interlock.pulse, s.interlock.queue with
        | none, c :: q => { s with interlock := { s.interlock with queue := q } }.startPulse c
        | _, _ => s
      match s.lcWait with
      | some (p, cmd) => ({ s with lcWait := none }.setFlag Reg.KEEP_LC_RES 31 false).runLc p cmd
      | none => s)

/-- Both fence outputs drive at once (R336): the twin with the lower epoch releases, or for equal epochs the one that is not
PREFER. -/
def State.dualDrive (s : State) : State :=
  have s := (s.bump Reg.PAIRS_DUALS).raise 0x4C 7
  if s.nv.epoch < s.pairs.twinEpoch ∨ (s.nv.epoch = s.pairs.twinEpoch ∧ !s.prefers) then s.enterFenced 5 else s

/-- FENCE_INPUT (R333, R336, R409): the twin's output begins or ends to drive the line. -/
def execFenceInput (t : Angle) (drives : Bool) (s : State) : Outcome :=
  have s := s.tick t
  have was := s.pairs.twinDrives
  have s := { s with pairs := { s.pairs with twinDrives := drives } }.showFence
  .next (
    if drives && !was then
      have s := if s.lcYield.isSome then { s with lcYield := none, boot := { s.boot with due := some (3, 0, s.cycle) } } else s
      if s.flag Reg.PAIRS_STAT 21 then s.dualDrive
      else if (s.pairState = 0 ∨ s.pairState = 1) ∧ s.mayFence then s.enterFenced 5
      else s
    else if !drives && was && s.pairState == 3 && s.sealedRoot then s.setFld Reg.PAIRS_STAT 31 29 0
    else s)

/-- SUPERVISOR_RELEASE (R333): the supervisor releases the fence output. -/
def execSupervisorRelease (t : Angle) (s : State) : Outcome := .next ((s.tick t).setFence false)

/-- PAIRS_PAIR (R326, R327): a SOLO module starts a pairing. -/
def effPair (s : State) : WriteResult :=
  if s.pairState ≠ 0 ∨ !s.pairable then .discard s 0x09
  else
    have s := { s with pairs := { s.pairs with seeking := true } }.sendPairHello
    .done (if s.inService then s else s.setFld Reg.PAIRS_STAT 31 29 4)

/-- PAIRS_UNPAIR (R413): taken at the next cycle; on an ACTIVE twin only while its twin is out of step. -/
def effUnpair (s : State) : WriteResult :=
  if s.pairState = 0 ∨ s.pairState = 3 then .discard s 0x09
  else if s.pairState = 1 ∧ (s.syncState = 1 ∨ s.syncState = 2) then .discard s 0x08
  else .done { s with pairs := { s.pairs with unpairing := true, seeking := false } }

/-- PAIRS_SWITCH (R339): the takeback sequence starts at once. -/
def effSwitch (s : State) : WriteResult :=
  if s.mayYield then .done (s.schedule s.pickH 4 false) else .discard s 0x09

/-- PAIRS_YIELD (R335). -/
def effYield (s : State) : WriteResult :=
  if s.pairState = 1 ∧ s.syncState = 2 ∧ s.fld Reg.PAIRS_TWIN_UNITS 15 0 < s.unitsLost ∧ !s.pairs.failing then .done s.failureReport
  else .discard s 0x09

/-- PAIRS_FORCE (R337): an unsynced STANDBY takes over while the twin is silent on both paths; where the twin's output still drives, both do
(R336). -/
def effForce (s : State) : WriteResult :=
  have last := s.led.nextRsn - 1
  if s.pairState = 2 ∧ s.syncState ≠ 2 ∧ s.silent then
    have s := (s.takeover 5 true).journalEvent 0x09 0 (leBytes 8 last)
    .done (if s.pairs.twinDrives then s.dualDrive else s)
  else .discard s 0x09

/-- The effect of a write of PAIRS.CMD (Table 16.7). -/
def effPairsCmd (cmd : Nat) (s : State) : WriteResult :=
  if s.pfStop then .discard s 0x08
  else if cmd = 1 then effPair s
  else if cmd = 2 then effUnpair s
  else if cmd = 3 then effSwitch s
  else if cmd = 4 then effYield s
  else if cmd = 5 then effForce s
  else .discard s 0x09

def execPairsPair (t : Angle) (p : Path) (s : State) : Outcome := .next ((s.tick t).hostWrite p 0x4C 0x080 (effPairsCmd 1))
def execPairsUnpair (t : Angle) (p : Path) (s : State) : Outcome := .next ((s.tick t).hostWrite p 0x4C 0x080 (effPairsCmd 2))
def execPairsSwitch (t : Angle) (p : Path) (s : State) : Outcome := .next ((s.tick t).hostWrite p 0x4C 0x080 (effPairsCmd 3))
def execPairsYield (t : Angle) (p : Path) (s : State) : Outcome := .next ((s.tick t).hostWrite p 0x4C 0x080 (effPairsCmd 4))
def execPairsForce (t : Angle) (p : Path) (s : State) : Outcome := .next ((s.tick t).hostWrite p 0x4C 0x080 (effPairsCmd 5))

/-- Why a pairing is refused (Table 16.7 REFUSE): 0 where it is not. -/
def State.pairRefusal (s : State) (h : PairHello) : Nat :=
  have lo := max (clampNat 1 2 (s.fld Reg.PAIRS_CFG 11 8)) h.lo
  have hi := min (clampNat 1 2 (s.fld Reg.PAIRS_CFG 15 12)) h.hi
  if hi < lo then 1
  else if h.pairId.toNat ≠ s.pairId then 2
  else if h.role ≠ s.nv.role then 3
  else if h.plan ≠ s.plan then 4
  else if h.region ≠ s.fld Reg.AIRC_REGCFG 1 0 then 5
  else 0

/-- This twin becomes ACTIVE (Table 16.1). -/
def State.becomesActive (s : State) (h : PairHello) : Bool :=
  have serves := (s.pairState == 0 || s.pairState == 1) && s.inService
  if serves != h.inService then serves
  else if serves then
    (if s.nv.epoch = h.epoch then !h.drivesFirst else decide (h.epoch < s.nv.epoch))
  else if s.pairKnown && h.persisted then
    (if s.nv.epoch = h.epoch then s.prefers else decide (h.epoch < s.nv.epoch))
  else if s.prefers != h.prefer then s.prefers
  else decide (s.fac.serial.toNat < h.serial.toNat)

/-- A divergent record is appended under a new RSN, and what it carries is allocated by its own sweep time (R157, R220, R332): a reading of a
channel as one accepted late, a packet through the lanes; the module's own other records stand as they are (log 43). -/
def State.appendDivergent (s : State) (cls : Nat) (p : List Byte) : State :=
  if cls = 3 then (s.takePacket (leAt p 0 16 / 2 ^ 103 % 256 != 0) (leAt p 0 16) (p.drop 16) 0).2
  else if cls = 2 then
    have w := leAt p 0 4
    have ch := bits 19 0 w
    have leaf := ((s.billChan ch).map (fun c => bits 27 20 c.w0)).getD 0
    if bits 31 30 w = 1 then (s.takeTotal ch (leAt p 8 8) (leAt p 16 8) leaf).2
    else
      have kind := if bit 23 w then 3 else if bits 22 20 w = 2 then 2 else 1
      have place := if leaf = 0 then leAt p 16 8 - 1 else s.onAxis leaf (leAt p 16 8 - 1)
      (s.takeIv ch kind (leAt p 4 4) (leAt p 16 8) place (leAt p 8 8) leaf).2
  else s.journal cls p

/-- The divergent records that a rejoining twin brings (R332): appended under new RSNs under Pairs 2, with an EVENT record that
names the original RSNs. -/
def State.takeDivergent (s : State) (ver : Nat) (l : List (Nat × Nat × List Byte)) : State :=
  match l with
  | [] => s
  | (first, _, _) :: _ =>
    have last := (l.getLastD (0, 0, [])).1
    have new := if ver = 2 then s.led.nextRsn else 0
    have s := if ver = 2 then l.foldl (fun (s : State) x => s.appendDivergent x.2.1 x.2.2) s else s
    s.journalEvent 0x08 0 (leBytes 8 first ++ leBytes 8 last ++ leBytes 8 new)

/-- Pages that a sync sends (R331, SYNC_LEFT): those of the records above an RSN. -/
def State.syncPages (s : State) (above : Nat) : Nat :=
  (packRecords (s.led.recs.filter (fun x => decide (above < x.1) && !x.2.void))).length

/-- The STANDBY twin names the last RSN that it holds from the pair and the hash of that record (R331). -/
def State.nameLast (s : State) : State :=
  have last := s.led.nextRsn - 1
  have h := match s.led.recs.find last with
    | some r => (Config.sha3 r.payload).toNat
    | none => 0
  s.send (.pairs 3 [last, h])

/-- The twin enters a pairing as STANDBY (R327, R331, R332): an ACTIVE or SOLO one yields first; its own records above the last
one it shares leave the journal: those that were never acknowledged are void, the others go to the twin or, under Pairs 1, stay readable
(log 43); and the ACTIVE twin's working state takes the place of its own. -/
def State.becomeStandby (s : State) (h : PairHello) (ver : Nat) : State :=
  have s := if s.pairState = 0 ∨ s.pairState = 1 then s.enterFenced 5 else s.stopMedia
  have s := (s.holdLeases.setFence false).setFld Reg.PAIRS_STAT 31 29 2
  have keep := if ver = 2 ∧ h.sameHash then h.lastRsn else s.arch
  have above := s.led.recs.filter (fun x => decide (keep < x.1) && !x.2.void)
  have never := fun (rsn : Nat) => match s.pairs.unacked with
    | some (a, b) => decide (a < rsn) && decide (rsn ≤ b)
    | none => false
  have told := above.filter (fun x => !never x.1)
  have s := if ver = 2 ∧ !told.isEmpty then s.send (.pairs 0x44 (told.map (·.1))) else s
  have s := if above.isEmpty then s
    else { s with led := { s.led with
      recs := s.led.recs.filter (fun x => decide (x.1 ≤ keep))
      divergent := if ver = 1 then told else []
      nextRsn := keep + 1
      openFirst := min s.led.openFirst (keep + 1) } }
  have s := (s.setCalendar []).nameLast
  { s with
    sweep := { s.sweep with instants := [] }
    pairs := { s.pairs with waiting := [] } }

/-- What the pairing leaves: the epoch, the twin, the version and the twin's serial number (R327, R338). -/
def State.notePair (s : State) (h : PairHello) (ver : Nat) : State :=
  have s := { s with
    nv := { s.nv with epoch := (max s.nv.epoch h.epoch + 1) % 2 ^ 32, pairing := some h.serial, pairedAs := s.pairId }
    pairs := { s.pairs with unacked := none, seeking := false, failing := false, stopped := false, twinEpoch := h.epoch } }
  (List.range 4).foldl (fun (s : State) i =>
    s.setReg (Reg.PAIRS_TWIN_SER0 + 4 * i) (h.serial.toNat / 2 ^ (32 * (3 - i)) % 2 ^ 32))
    ((s.setFld Reg.PAIRS_STAT 26 24 ver).setFld Reg.PAIRS_STAT 3 0 0)

/-- The pairing that a HELLO leads to (R327). -/
def State.pairUp (s : State) (h : PairHello) : State :=
  have ver := min (clampNat 1 2 (s.fld Reg.PAIRS_CFG 15 12)) h.hi
  have active := s.becomesActive h
  have s := if active then
      ((s.setFld Reg.PAIRS_STAT 31 29 1).setFence true).takeDivergent ver h.divergent
    else s.becomeStandby h ver
  have s := s.forwardAlign h.cycle
  have s := s.notePair h ver
  have s := s.setReg Reg.PAIRS_SYNC_LEFT (s.syncPages (if ver = 2 ∧ h.sameHash then h.lastRsn else s.arch))
  have s := { s with ackedRsn := (if active then min h.lastRsn (s.led.nextRsn - 1) else s.ackedRsn) }
  have s := s.endStep 8
  s.setSync 1

/-- PAIRS_HELLO (R326, R327): the link trains and HELLO frames are exchanged. A SOLO module that does not seek a pairing, and a twin
that is in step, take none. -/
def execPairsHello (t : Angle) (h : PairHello) (s : State) : Outcome :=
  have s := s.tick t
  have open' := s.pairState == 4 || s.pairState == 3 || (s.pairState == 0 && s.pairs.seeking) ||
    (s.pairState == 1 && s.syncState != 2) || (s.pairState == 2 && s.syncState != 2)
  .next (
    if !open' ∨ !s.linkWorks ∨ !s.pairable then s
    else
      have s := (s.setFlag Reg.PAIRS_STAT 23 true).sendPairHello
      have code := if !h.authentic then 6 else s.pairRefusal h
      if code = 0 then s.pairUp h
      else
        have s := if code = 6 then s.bump Reg.PAIRS_LINK_AUTH else s
        have s := { (s.setFld Reg.PAIRS_STAT 3 0 code).raise 0x4C 1 with pairs := { s.pairs with seeking := false } }
        if s.pairState = 4 then
          (s.setFld Reg.PAIRS_STAT 31 29 0).endStep 8
        else s)

/-- SYNC_COMPLETE (R331). -/
def execSyncComplete (t : Angle) (s : State) : Outcome :=
  have s := s.tick t
  .next (
    if s.syncState ≠ 1 ∨ (s.pairState ≠ 1 ∧ s.pairState ≠ 2) then s
    else
      have s := if s.pairState = 1 then { s.countAcked with ackedRsn := s.led.nextRsn - 1 } else s
      (s.setReg Reg.PAIRS_SYNC_LEFT 0).setSync 2)

/-- The zone rules of a CONFIG record of the schedule (R30, R214): effect, TAI − UTC and local offset of each. -/
def zoneRules (p : List Byte) : List ZoneRule :=
  (List.range (p.length / 12)).map (fun i => ⟨leAt p (12 * i) 8, toSigned 16 (leAt p (12 * i + 8) 2), toSigned 16 (leAt p (12 * i + 10) 2)⟩)

/-- What a mirrored record changes beside the ledger: a packet runs through the lanes (R188), and descriptors, graphs, the Balance Engine's
parameters and the registers of its pages and of billing follow (R207, R229; log 100). -/
def State.applyRecord (s : State) (rsn cls leaf : Nat) (payload : List Byte) : State :=
  if cls = 3 then
    have words := (List.range (ceilDiv (payload.length - 16) 16)).map (fun i => leAt payload (16 + 16 * i) 16)
    have o : LiftOffer := ⟨s.intakeQueue (b2n (leaf != 0)), leaf != 0, { header := leAt payload 0 16, words := words, src := b2n (leaf != 0) }⟩
    { s with lift := { s.lift with offers := s.lift.offers ++ [o] } }
  else if cls = 0x22 then s.mirrorWindow rsn payload
  else if cls = 0x23 then s.mirrorDesc rsn payload
  else if cls = 0x24 then s.takeGraph (leAt payload 0 8) (payload.drop 8)
  else if cls = 0x26 ∧ leAt payload 0 4 = Reg.SWEEP_ZCOMMIT ∧ payload.length % 12 = 2 then
    { s with sweep := { s.sweep with zones := zoneRules (payload.drop 14), zvalid := leAt payload 4 8 } }.showZone
  else if cls = 0x26 ∧ payload.length = 13 then
    have k := leAt payload 1 8
    have page := k % 0x1000000 / 0x1000
    if 0x30 ≤ page ∧ page ≤ 0x34 then s.setReg k (leAt payload 9 4) else s
  else if cls = 0x26 ∧ payload.length = 25 then { s with epochs := s.epochs.put (leAt payload 1 20) (leAt payload 21 4) }
  else if cls = 0x26 ∧ payload.length = 16 then { s with balance := s.balance.put (leAt payload 0 4) (leAt payload 4 4) (leAt payload 8 8) }
  else s

/-- A mirrored record is appended under its ACTIVE RSN and charged to this twin (R328), and takes effect. -/
def State.mirrorRecord (s : State) (rsn cls leaf leafRsn : Nat) (payload : List Byte) : State :=
  have r : LedgerRecord := {
    cls := cls, payload := payload, charged := chargedClass cls, time := s.now, leaf := leaf, leafRsn := leafRsn }
  have since := if s.led.openFirst = s.led.nextRsn then s.cycle else s.led.openSince
  have s := { s with led := { s.led with
    recs := s.led.recs.put rsn r
    openFirst := if s.led.openFirst = s.led.nextRsn then max s.led.openFirst rsn else s.led.openFirst
    nextRsn := max s.led.nextRsn (rsn + 1), openSince := since } }
  have s := if chargedClass cls then s.setUnc (satAdd 32 (s.reg Reg.SLALOM_E_UNC) (recordCost cls)) else s
  have s := if leafRsn = 0 then s else s.acceptRsn leaf leafRsn
  (s.applyRecord rsn cls leaf payload).send (.pairs 2 [rsn])

/-- A mirrored item is applied (R328, Table 16.2). -/
def State.applyItem (s : State) (m : MirrorItem) : State :=
  match m with
  | .record rsn cls leaf leafRsn payload => s.mirrorRecord rsn cls leaf leafRsn payload
  | .channel ch b => { s with billing := { s.billing with chans := s.billing.chans.put ch b } }
  | .program n x => { s with billing := { s.billing with programs := s.billing.programs.put n x } }
  | .account n x => { s with billing := { s.billing with accounts := s.billing.accounts.put n x } }
  | .instant id (some x) => { s with sweep := { s.sweep with
      instants := s.sweep.instants.put id x, nextInstant := max s.sweep.nextInstant (id + 1) } }
  | .instant id none => { s with sweep := { s.sweep with instants := s.sweep.instants.del id } }
  | .session sid x =>
    have s := s.yieldSid sid
    { s with pairs := { s.pairs with kept := s.pairs.kept.put sid x } }
  | .obligation idx o => if o.cls = 3 then s else { s with slalom := { s.slalom with
      gens := s.slalom.gens.put idx o.gen, order := max s.slalom.order (o.order + 1) } }.setCalendar (s.slalom.calendar.put idx o)
  | .outcome idx place e =>
    have s := s.setCalendar (s.slalom.calendar.del idx)
    { s with slalom := { s.slalom with ring := s.slalom.ring.put place e } }.setFld Reg.SLALOM_OUT_WR 11 0 (place + 1)
  | .node id n => s.setNode id n
  | .key key blocks =>
    have s := if 0x100000 ≤ key then s.yieldSid (key - 0x100000) else s
    s.setTxKey key { s.txKey key with blocks := blocks, next := blocks * 4096 }
  | .evaluated ch at' =>
    have c := s.chan false ch
    s.setChan false ch { c with mirrored := some at' }

/-- Whether an item can be applied now: a charged record needs headroom (R328). -/
def State.takesItem (s : State) (m : MirrorItem) : Bool :=
  match m with
  | .record _ cls _ _ _ => s.takes (recordCost cls)
  | _ => true

/-- The items that wait are applied in their order, as far as the headroom goes. -/
def State.applyWaiting (s : State) : Nat → State
  | 0 => s
  | fuel + 1 =>
    match s.pairs.waiting with
    | [] => s
    | m :: rest =>
      if s.takesItem m then ({ s with pairs := { s.pairs with waiting := rest } }.applyItem m).applyWaiting fuel else s
def State.drainMirror (s : State) : State :=
  if s.pairState = 2 then s.applyWaiting s.pairs.waiting.length else s

/-- MIRROR_ITEM (R328): the STANDBY twin applies an item, in the order of its arrival. -/
def execMirrorItem (t : Angle) (m : MirrorItem) (s : State) : Outcome :=
  have s := s.tick t
  .next (
    if s.pairState ≠ 2 ∨ s.syncState = 0 ∨ !s.linkWorks ∨ s.readOnly then s
    else { s with pairs := { s.pairs with waiting := s.pairs.waiting ++ [m] } }.drainMirror)

/-- MIRROR_ACK (R329). -/
def execMirrorAck (t : Angle) (rsn : Nat) (s : State) : Outcome :=
  have s := s.tick t
  .next (if s.pairState = 1 ∧ s.syncState ≠ 0 ∧ s.linkWorks then s.mirrorAcked rsn else s)

/-- MIRROR_ACK_TIMEOUT (R330): 3 cycles without a mirror acknowledgement put the ACTIVE twin in DEGRADED. -/
def execMirrorAckTimeout (t : Angle) (s : State) : Outcome :=
  have s := s.tick t
  .next (if s.pairState = 1 ∧ s.pairs.ackAt + 3 ≤ s.cycle then s.setSync 3 else s)

/-- A STALE report of an epoch above its own (R336, R273): the twin releases its fence output and enters FENCED. -/
def State.staleYield (s : State) : State := if s.pairState = 1 then s.enterFenced 6 else s

end Sys2Proof.Machine
end

