-- ==== Sys2Proof/Machine/Kfp.lean ====
section
/-!
DEFINITION. KFP, the feeder protocol (spec/13_feeder_and_host.md): records, acknowledgement and retransmission (R267 to R269),
handshakes (R270 to R272), epochs (R273), and forwarding from a leaf to its hub (R277 to R280). The register tunnel (R274, R275)
stands in HostBus.lean.
-/

namespace Sys2Proof.Machine

/-- ROLE of a peer entry, and whether this module starts its handshake. -/
def Peer.role (x : Peer) : Nat := bits 29 28 x.w0
def Peer.initiate (x : Peer) : Bool := x.w0.testBit 15

/-- A message leaves on a session: a body above 1,196 octets in consecutive records, all but the last with MORE, which the type
carries as 256 here (R267). -/
def chunks : Nat → List Byte → List (List Byte)
  | 0, _ => []
  | fuel + 1, l => if l.length ≤ 1196 then [l] else l.take 1196 :: chunks fuel (l.drop 1196)
def messageChunks (body : List Byte) : List (List Byte) := chunks (body.length / 1196 + 1) body
def State.sendMessage (s : State) (sid ftype : Nat) (body : List Byte) : State :=
  have cs := messageChunks body
  cs.zipIdx.foldl (fun (s : State) (x : List Byte × Nat) =>
    s.sendSecured sid (if x.2 + 1 < cs.length then ftype + 256 else ftype) x.1) s

/-- The session opens (R270, R272): another open session of the same peer gets old, and its unacknowledged records are sent again in
this one, but for forwarded ones, which it sends anew. Its PER records start at the first entry that this hub has not acknowledged, or from the
GAP entries of the last restart (R277). -/
def State.openSession (s : State) (sid : Nat) : State :=
  match s.sessions.find sid with
  | none => s
  | some x =>
    have others := s.sessions.filter (fun y => y.1 != sid && y.2.peer == x.peer && y.2.isOpen && !y.2.old)
    have per := s.fwdDone.getD x.peer (match s.sweep.outage with
      | some (first, _, _) => first
      | none => s.cycle)
    have s := { s with fwdDone := s.fwdDone.put x.peer per }
    have s := s.modSession sid (fun y => { y with isOpen := true, lastRx := s.cycle, lastTx := s.cycle, perAt := per })
    have s := (((s.newKey (sessKey sid)).bump Reg.FEED_HS_OK).showPeer x.peer).raise 0x52 0
    others.foldl (fun (s : State) (o : Nat × Session) =>
      have s := s.modSession o.1 (fun y => { y with old := true, oldAt := s.uptime, unacked := [] })
      (o.2.unacked.filter (fun r => !([0x20, 0x21, 0x22].contains (r.ftype % 256)))).foldl (fun (s : State) r => s.sendSecured sid r.ftype r.body) s) s

/-- A handshake message leaves, in as many records as it needs (R267, Table 13.2): KFPV is 0 in HELLO_I, SESS is 0. -/
def State.sendShake (s : State) (peer ver ftype : Nat) (body : List Byte) : State :=
  have cs := messageChunks body
  (cs.zipIdx.foldl (fun (s : State) (x : List Byte × Nat) =>
    s.sendDatagram peer (kfpHeader ver (if x.2 + 1 < cs.length then ftype + 256 else ftype) 0 s.nv.epoch x.2 ++ x.1)) s).send
    (.handshake peer ftype body)

/-- A message of a handshake leaves and is kept for its retransmission (R270). -/
def State.sendHandshake (s : State) (sid ftype : Nat) (body : List Byte) : State :=
  match s.sessions.find sid with
  | none => s
  | some x => (s.modSession sid (fun y => { y with sent := (ftype, body), retx := 0, sentAt := s.uptime })).sendShake x.peer x.version ftype body

/-- KFP runs (Tables 16.3 and 22.2): IK is not sealed, the PQC engine works; a STANDBY or FENCED twin has hosts only, and none of the sessions
serves while the session table is sealed (R287). -/
def State.kfpRuns (s : State) : Bool := (s.nv.lc == 2 || s.nv.lc == 3) && s.slotOpen 0 && s.engineState 3 != 4 && s.pqcRuns && s.hashRuns
def State.kfpServes (s : State) (peer : Nat) : Bool := !s.sealedRoot && (s.serves || decide (260 ≤ peer))

/-- KFP_MAX and KFP_MIN: values outside 2 to 4 act as the nearer limit (Table 13.10). -/
def State.kfpMax (s : State) : Nat := clampNat 2 4 (s.fld Reg.FEED_CFG 7 4)
def State.kfpMin (s : State) : Nat := clampNat 2 4 (s.fld Reg.FEED_CFG 3 0)

/-- The role that the module claims: a leaf in the FIELD role, else a hub (Table 13.4). -/
def State.kfpRole (s : State) : Nat := if s.nv.role = 1 then 0 else 1

/-- The pair identity in a handshake (Table 13.4). -/
def State.pairOctets (s : State) : List Byte := beBytes 16 s.pairId

/-- The signature of IK over octets (FIPS 204, by name; log 3). -/
def State.signIk (s : State) (msg : List Byte) : List Byte × State :=
  have d := s.drawKey256
  (fixLen 4627 (Config.std 0x21 (s.slot 0).key [0x00 :: msg, [], leBytes 32 d.1]), d.2)

/-- The ID of a new session: the first one that no session has had, nor one that the mirror has brought (DESIGN CHOICE, log 102). -/
def State.newSid (s : State) : Nat :=
  (((List.range (s.pairs.kept.length + s.nv.txKeys.length + 1)).map (s.nextSess + ·)).find? (fun n =>
    (s.pairs.kept.find n).isNone && (s.nv.txKeys.find (sessKey n)).isNone)).getD s.nextSess

/-- A direction of a session is at its last SEQs (R272, R302). -/
def State.worn (s : State) (sid : Nat) (x : Session) : Bool :=
  decide (2 ^ 64 - 2 ^ 20 ≤ (s.txKey (sessKey sid)).next) || decide (2 ^ 64 - 2 ^ 20 ≤ x.rxTop)

/-- HANDSHAKE_START (R270, R272): the initiating side of a valid entry without an open session, or with one at its last SEQs in either
direction, sends HELLO_I. -/
def execHandshakeStart (t : Angle) (peer : BitVec 9) (s : State) : Outcome :=
  have s := s.tick t
  have p := peer.toNat
  .next (
    match s.peer p with
    | none => s
    | some e =>
      have mine := s.sessions.filter (fun x => x.2.peer == p)
      have fresh := mine.all (fun x => x.2.isOpen && (x.2.old || s.worn x.1 x.2))
      if !e.initiate ∨ !s.kfpRuns ∨ !(s.kfpServes p) ∨ !fresh then s
      else
        have n := s.drawKey256
        have k := n.2.drawKey256
        have ek := fixLen 1568 (Config.std 0x41 k.1 [])
        have msg := leBytes 1 s.kfpMax ++ leBytes 1 s.kfpMin ++ leBytes 1 s.kfpRole ++ beBytes 32 n.1 ++ s.pairOctets ++ ek ++ s.publicKey 0
        have sid := s.newSid
        have s := { k.2 with
          sessions := s.sessions.put sid { peer := p, version := 0, initiator := true, hello := msg, keys := [], lastRx := s.cycle }
          nextSess := sid + 1 }
        ((s.modSession sid (fun x => { x with sig := beBytes 32 k.1 })).setFld (bankKey p Reg.FEED_PEER_STAT) 31 29 0).showPeer p
          |>.sendHandshake sid 0x01 msg)

/-- A handshake is refused (R270): REFUSE leaves with its reason and the versions offered, and HS_FAIL counts it. -/
def State.refuseHandshake (s : State) (peer reason : Nat) : State :=
  ((s.sendShake peer s.kfpMax 0x04 (leBytes 1 reason ++ leBytes 1 s.kfpMax ++ leBytes 1 s.kfpMin)).bump Reg.FEED_HS_FAIL).raise 0x52 1

/-- The valid peer entries that a public key belongs to. -/
def State.peersOf (s : State) (pk : List Byte) : List (Nat × Peer) :=
  s.peers.filter (fun x => x.2.w0.testBit 31 && x.2.hash == Config.sha3 pk)

/-- The most sessions that a responder holds with peers of an index (R270). -/
def sessionLimit (p : Nat) : Nat := if p ≤ 255 then 255 else if p ≤ 259 then 4 else 32
def sameKind (p q : Nat) : Bool := sessionLimit p == sessionLimit q

/-- The 576 bits of the session keys (R270): KMAC256 of the shared secret and T, by name. -/
def sessionKeys (secret : List Byte) (t : BitVec 512) : List Byte :=
  fixLen 72 (Config.std 0x42 (ofBe secret) [beBytes 64 t.toNat])

/-- The responder accepts a HELLO_I and answers with HELLO_R (R270, Table 13.4). The keys of a session stand with it: they are the entries of
Keeper's session table, which are bound to FEED (R272, R297). -/
def State.answerHello (s : State) (p ver : Nat) (msg : List Byte) : State :=
  have n := s.drawKey256
  have m := n.2.drawKey256
  have ek := (msg.drop 51).take 1568
  have secret := fixLen 32 (Config.std 0x43 m.1 [ek])
  have ct := fixLen 1568 (Config.std 0x44 m.1 [ek])
  have rsn := if s.kfpRole = 1 ∧ p ≤ 255 then
      beBytes 8 (s.leaf p).acked
    else []
  have body := leBytes 1 ver ++ leBytes 1 s.kfpRole ++ beBytes 32 n.1 ++ s.pairOctets ++ ct ++ s.publicKey 0 ++ rsn
  have tr := Config.sha3 (msg ++ body)
  have sg := m.2.signIk (beBytes 64 tr.toNat)
  have sid := s.newSid
  have s := { sg.2 with
    sessions := s.sessions.put sid {
      peer := p, pair := beAt msg 35 16, version := ver, hello := msg, transcript := tr, sig := sg.1, peerKey := (msg.drop 1619).take 2592
      keys := sessionKeys secret tr, lastRx := s.cycle }
    nextSess := sid + 1 }
  ((s.setFld (bankKey p Reg.FEED_PEER_STAT) 31 29 0).showPeer p).sessMark.sendHandshake sid 0x02 (body ++ sg.1)

/-- HELLO_I (R270): the checks of the responder, then HELLO_R or REFUSE. A HELLO_I that comes again is answered with the same
HELLO_R. `msg` is the body of Table 13.4. -/
def execHelloI (t : Angle) (msg : List Byte) (s : State) : Outcome :=
  have s := s.tick t
  have role := leAt msg 2 1
  .next (
    if msg.length ≠ 4211 then s
    else match s.sessions.find? (fun x => !x.2.isOpen && !x.2.initiator && x.2.hello == msg) with
      | some x => s.sendShake x.2.peer x.2.version x.2.sent.1 x.2.sent.2
      | none =>
        have found := s.peersOf ((msg.drop 1619).take 2592)
        match found.head? with
        | none => s.refuseHandshake 0 2
        | some first =>
          match found.find? (fun x => x.2.role == role) with
          | none => s.refuseHandshake first.1 3
          | some (p, _) =>
            have ver := min s.kfpMax (leAt msg 0 1)
            if ver < max s.kfpMin (leAt msg 1 1) then s.refuseHandshake p 1
            else if !s.kfpRuns ∨ !(s.kfpServes p) then s.refuseHandshake p 5
            else
              have s := (s.sessions.filter (fun x => x.2.peer == p && !x.2.isOpen && !x.2.initiator)).foldl
                (fun (s : State) x => s.closeSession x.1) s
              if sessionLimit p ≤ (s.sessions.filter (fun x => sameKind x.2.peer p && !x.2.initiator)).length then s.refuseHandshake p 4
              else if !(s.sessRoom 2) then s.sessFull.refuseHandshake p 4
              else s.answerHello p ver msg)

/-- A handshake that the module had started or answered fails its check: REFUSE, and the session is gone. -/
def State.failHandshake (s : State) (sid peer reason : Nat) : State := (s.closeSession sid true).refuseHandshake peer reason

/-- The hub has acknowledged FWD messages up to an RSN (R243, R278), and PER messages up to a cycle (R277). -/
def State.hubTook (s : State) (peer rsn : Nat) : State :=
  if rsn = 0 then s
  else
    have k := bankKey peer Reg.FEED_PEER_ACKRSN_LO
    have k' := bankKey peer Reg.FEED_PEER_ACKRSN_HI
    { s.setReg64 k k' (max rsn (s.reg64 k k')) with led := { s.led with hubAck := max rsn s.led.hubAck } }.releasePages
def State.perTook (s : State) (peer cycle : Nat) : State :=
  if cycle = 0 then s else { s with fwdDone := s.fwdDone.put peer (max cycle (s.fwdDone.getD peer 0)) }
/-- The segment that began at a cycle has reached the hub: it waits no longer (R277). -/
def State.segTook (s : State) (first : Nat) : State := { s with segOut := s.segOut.filter (fun g => g.1 != first) }

/-- HELLO_R (R270): the initiator checks version, identity and signature, derives the keys and answers with FIN_I. A hub that answers a
leaf names the RSN it has accepted (R279). -/
def execHelloR (t : Angle) (sid : Nat) (msg : List Byte) (s : State) : Outcome :=
  have s := s.tick t
  .next (
    match s.sessions.find sid with
    | none => s
    | some x =>
      have ver := leAt msg 0 1
      have pk := (msg.drop 1618).take 2592
      have body := msg.take (msg.length - 4627)
      have sig := msg.drop (msg.length - 4627)
      have tr := Config.sha3 (x.hello ++ body)
      if x.isOpen ∨ !x.initiator ∨ x.sent.1 ≠ 0x01 ∨ msg.length < 8837 then s
      else match s.peer x.peer with
        | none => s.closeSession sid
        | some e =>
          if ver < s.kfpMin ∨ s.kfpMax < ver then s.failHandshake sid x.peer 1
          else if Config.sha3 pk ≠ e.hash ∨ !(Config.verify pk (0x00 :: beBytes 64 tr.toNat) [] sig) then s.failHandshake sid x.peer 2
          else if leAt msg 1 1 ≠ e.role then s.failHandshake sid x.peer 3
          else if !(s.sessRoom 2) then s.sessFull.failHandshake sid x.peer 4
          else
            have secret := fixLen 32 (Config.std 0x45 (ofBe x.sig) [(msg.drop 50).take 1568])
            have rsn := if s.kfpRole = 0 ∧ x.peer ≤ 259 ∧ 8845 ≤ msg.length then beAt msg 4210 8 else 0
            have fin := s.signIk (beBytes 64 tr.toNat ++ sig)
            have s := fin.2.modSession sid (fun x => { x with
              version := ver, pair := beAt msg 34 16, transcript := tr, sig := sig, peerKey := pk, keys := sessionKeys secret tr, fwdAt := rsn })
            (s.hubTook x.peer rsn).sessMark.sendHandshake sid 0x03 fin.1)

/-- FIN_I (R270): the responder checks the signature and opens the session. -/
def execFinI (t : Angle) (sid : Nat) (sig : List Byte) (s : State) : Outcome :=
  have s := s.tick t
  .next (
    match s.sessions.find sid with
    | none => s
    | some x =>
      if x.isOpen ∨ x.initiator then s
      else if Config.verify x.peerKey (0x00 :: beBytes 64 x.transcript.toNat ++ x.sig) [] sig then s.openSession sid
      else s.failHandshake sid x.peer 2)

/-- REFUSE (R270): the handshake ends with its reason. -/
def execRefuse (t : Angle) (sid : Nat) (_reason : BitVec 8) (s : State) : Outcome :=
  have s := s.tick t
  .next (
    match s.sessions.find sid with
    | some x => if x.isOpen then s else (s.closeSession sid true).raise 0x52 1
    | none => s)

/-- What a secured record comes to at the receiver (R267, R268, R273). -/
inductive Accepted where
  /-- It is discarded, or a repeat. -/
  | done (s : State)
  /-- It is new. -/
  | fresh (x : Session) (s : State)

/-- A record that no session's check passes (R268). -/
def State.kfpBad (s : State) : State := (s.bump Reg.FEED_AUTH_FAIL).raise 0x52 3

/-- An initiator's session opens with its first valid record, whose SESS it takes (R270). -/
def State.kfpOpen (s : State) (r : KfpRx) (x : Session) : State :=
  if x.isOpen then s else (s.modSession r.sid (fun y => { y with sess := r.sess.toNat })).openSession r.sid

/-- The CONFIG record of the highest epoch of a leaf pair (R273; log 17). -/
def epochRecord (key epoch : Nat) : List Byte := leBytes 1 2 ++ leBytes 20 key ++ leBytes 4 epoch

/-- The highest epoch seen of a peer, which PEER_EPOCH shows; that of a leaf pair is kept as CONFIG (R273). -/
def State.noteEpoch (s : State) (x : Session) (e : Nat) : State :=
  have k := bankKey x.peer Reg.FEED_PEER_EPOCH
  if !x.ofLeaf then (if s.reg k < e then s.setReg k e else s)
  else
    have old := s.epochs.getD x.epochKey 0
    have s := s.setReg k (max old e)
    if old < e then { s with epochs := s.epochs.put x.epochKey e }.journal 0x26 (epochRecord x.epochKey e) else s

/-- A record of a new number: the peer's epoch rises with it, and the window moves (R268, R273). -/
def State.kfpFresh (s : State) (r : KfpRx) (x : Session) : State :=
  (s.noteEpoch x r.epoch).modSession r.sid (fun y => { y with
    rxTop := max y.rxTop (r.seq + 1)
    rxSeen := r.seq :: y.rxSeen
    lastRx := s.cycle })

/-- The checks of a secured record (R268, R273): tag, session, window, epoch, repetition; a repeat of an accepted SEQ is one however far the
window has moved on. `again` is what a repeat does beyond its acknowledgement; ACK and STALE records are never acknowledged (R269). -/
def State.kfpAccept (s : State) (r : KfpRx) (again : State → State := id) (acked : Bool := true) : Accepted :=
  match s.sessions.find r.sid with
  | none => .done s.kfpBad
  | some x =>
    if !(s.kfpServes x.peer) then .done s
    else if !r.tagOk ∨ (!x.isOpen ∧ !(x.initiator && x.sent.1 == 0x03)) ∨
        (r.seq + 1024 < x.rxTop ∧ !(x.rxSeen.contains r.seq)) then .done s.kfpBad
    else
      have s := s.kfpOpen r x
      if r.epoch < s.peerEpoch x then
        .done (((s.bump Reg.FEED_STALE_RX).raise 0x52 2).sendSecured r.sid 0x13 (beBytes 4 (s.peerEpoch x)))
      else if x.rxSeen.contains r.seq then
        .done (again (if acked then (s.bump Reg.FEED_REPLAY).sendAck r.sid else s.bump Reg.FEED_REPLAY))
      else
        have s := s.kfpFresh r x
        match s.sessions.find r.sid with
        | some y => .fresh y s
        | none => .done s

/-- A new record of a type enters its message (R267): the whole message once its last record has come. -/
def State.assemble (s : State) (r : KfpRx) (ftype : Nat) (x : Session) : Option (List Byte) × State :=
  have before := match x.part with
    | some (f, octets) => if f = ftype then octets else []
    | none => []
  if r.more then (none, s.modSession r.sid (fun y => { y with part := some (ftype, before ++ r.body) }))
  else (some (before ++ r.body), s.modSession r.sid (fun y => { y with part := none }))

/-- A record type whose records are acknowledged at once: `f` is what its message does. -/
def State.kfpTake (s : State) (r : KfpRx) (ftype : Nat) (f : Session → List Byte → State → State) : State :=
  match s.kfpAccept r with
  | .done s => s
  | .fresh x s =>
    match s.assemble r ftype x with
    | (none, s) => s.sendAck r.sid
    | (some body, s) => (f x body s).sendAck r.sid

/-- The forwarded records that the hub has acknowledged (R278): the RSN of the last message before the first one that is not. -/
def ackedSpan (unacked : List TxRecord) : List (Nat × Nat × Nat) → Nat × List (Nat × Nat × Nat)
  | [] => (0, [])
  | x :: xs =>
    if unacked.any (fun u => decide (x.1 ≤ u.seq) && decide (u.seq ≤ x.2.1)) then (0, x :: xs)
    else
      have r := ackedSpan unacked xs
      (max x.2.2 r.1, r.2)

/-- KFP_ACK (R269): the cumulative SEQ and the bitmap acknowledge records; what the hub has acknowledged releases raw-ring pages
(R243, R278). An ACK is not acknowledged. -/
def execKfpAck (t : Angle) (r : KfpRx) (s : State) : Outcome :=
  have s := s.tick t
  .next (
    match s.kfpAccept r id false with
    | .done s => s
    | .fresh x s =>
      have cum := beAt r.body 0 8
      have map := if 3 ≤ x.version then beAt r.body 8 8 else 0
      have got := fun q : Nat => (decide (q ≤ cum) && cum != 2 ^ 64 - 1) ||
        (decide (cum < q) && decide (q ≤ cum + 64) && map.testBit (q - cum - 1)) || (cum == 2 ^ 64 - 1 && decide (q < 64) && map.testBit q)
      have left := x.unacked.filter (fun u => !(got u.seq))
      have a := ackedSpan left x.spans
      have b := ackedSpan left x.perSpans
      have c := match x.segSpan with
        | some g => (ackedSpan left [g]).2.isEmpty
        | none => false
      have s := s.modSession r.sid (fun y => { y with
        unacked := left
        spans := a.2
        perSpans := b.2
        segSpan := if c then none else y.segSpan })
      have s := match x.segSpan with
        | some g => if c then s.segTook g.2.2 else s
        | none => s
      (s.perTook x.peer b.1).hubTook x.peer a.1)

/-- PING (R269). -/
def execPing (t : Angle) (r : KfpRx) (s : State) : Outcome := .next ((s.tick t).kfpTake r 0x11 (fun _ _ s => s))

/-- KFP_CLOSE (R269). -/
def execKfpClose (t : Angle) (r : KfpRx) (s : State) : Outcome :=
  have s := s.tick t
  .next (
    match s.kfpAccept r with
    | .done s => s
    | .fresh _ s => (s.sendAck r.sid).closeSession r.sid)

/-- STALE (R273): an epoch above the module's own stops FWD, REG and EVT on every session, and Pairs fences the twin (R336). -/
def execStale (t : Angle) (r : KfpRx) (s : State) : Outcome :=
  have s := s.tick t
  .next (
    match s.kfpAccept r id false with
    | .done s => s
    | .fresh _ s =>
      have s := s.raise 0x52 2
      if s.nv.epoch < beAt r.body 0 4 then { s with staleStop := true }.staleYield else s)

/-- The frames of a FWD record: RSN, class and payload (Table 13.3, R235). -/
def fwdFrames : Nat → List Byte → List (Nat × Nat × List Byte)
  | 0, _ => []
  | fuel + 1, l =>
    have n := leAt l 8 2
    if l.length < 12 + n then []
    else (beAt l 0 8, leAt l 10 1, (l.drop 12).take n) :: fwdFrames fuel (l.drop (12 + n))

/-- A forwarded frame at its hub (R278, R279): one at or below the accepted RSN is discarded, an invalid one too (R236); one that waits in the cover queue keeps its
place and answers this record. -/
def State.takeFrame (s : State) (sid seq leaf : Nat) (f : Nat × Nat × List Byte) : State :=
  have same := fun (c : CoverItem) => c.leaf == leaf && (match c.fwd with | some (_, _, n) => n == f.1 | none => false)
  have count := fun (s : State) => s.modSession sid (fun y => { y with
    fwds := y.fwds.map (fun (x : FwdRecord) => if x.seq = seq then { x with left := x.left + 1 } else x) })
  if f.1 ≤ (s.leaf leaf).acked ∨ !([1, 2, 3, 5, 7].contains f.2.1) ∨ !(validRecord f.2.1 f.2.2) then s
  else if s.field.cover.any same then
    (count s).setCover (s.field.cover.map (fun (c : CoverItem) => if same c then { c with fwd := some (sid, seq, f.1) } else c))
  else
    (count s).offerItem {
      cycle := s.cycle
      cls := f.2.1
      node := 0
      leaf := leaf
      octets := f.2.2
      time := s.now
      fwd := some (sid, seq, f.1) }

/-- FWD (R278): a hub takes a leaf's records, and acknowledges them once every reading has been accepted. -/
def execFwd (t : Angle) (r : KfpRx) (s : State) : Outcome :=
  have s := s.tick t
  .next (
    match s.kfpAccept r with
    | .done s => s
    | .fresh x s =>
      match s.assemble r 0x20 x with
      | (none, s) => s.sendAck r.sid
      | (some body, s) =>
        if x.peer = 0 ∨ 255 < x.peer ∨ s.nv.role = 1 then s.sendAck r.sid
        else
          have s := s.modSession r.sid (fun y => { y with fwds := y.fwds ++ [⟨r.seq, 1, []⟩] })
          have s := (fwdFrames (body.length + 1) body).foldl (fun (s : State) f => s.takeFrame r.sid r.seq x.peer f) s
          have s := s.modSession r.sid (fun y => { y with
            fwds := y.fwds.map (fun (f : FwdRecord) => if f.seq = r.seq then { f with left := f.left - 1 } else f) })
          s.settleFwd r.sid)

/-- The runs of a period record, newest first, clipped to the cycles below a bound, and to those from a bound on. -/
def runsBelow (b : Nat) (rs : List PeriodRun) : List PeriodRun :=
  rs.filterMap (fun (r : PeriodRun) => if b ≤ r.first then none else some { r with count := min r.count (b - r.first) })
def runsFrom (b : Nat) (rs : List PeriodRun) : List PeriodRun :=
  rs.filterMap (fun (r : PeriodRun) =>
    if r.first + r.count ≤ b then none else some { r with first := max r.first b, count := r.first + r.count - max r.first b })

/-- Entries of consecutive cycles take their place in a leaf's period record. -/
def placeRuns (rs : List PeriodRun) (first : Nat) (entries : List Nat) : List PeriodRun :=
  have mid := entries.zipIdx.foldl (fun (m : List PeriodRun) (x : Nat × Nat) => recordRun m (first + x.2) 1 x.1) []
  runsFrom (first + entries.length) rs ++ mid ++ runsBelow first rs

/-- The start capture of a cycle, from the end of a period record backwards. -/
def startBack : List PeriodRun → Nat → Nat → Option Nat
  | [], _, _ => none
  | r :: rs, t, c =>
    have dur := r.entry / 8
    if r.first ≤ c ∧ c < r.first + r.count then some (t - (r.first + r.count - c) * dur) else startBack rs (t - r.count * dur) c
def State.startOf (s : State) (c : Nat) : Nat :=
  if s.cycle ≤ c then s.sweep.startCap + (c - s.cycle) * s.sweep.period else (startBack s.sweep.record s.sweep.startCap c).getD 0

/-- The cycle whose start capture is nearest an instant. -/
def nearestStart : List PeriodRun → Nat → Nat → Nat
  | [], _, _ => 0
  | r :: rs, t, cap =>
    have dur := r.entry / 8
    have start := t - r.count * dur
    if rs.isEmpty ∨ start ≤ cap + dur / 2 then
      (if dur = 0 then r.first + r.count else r.first + min r.count ((cap - start + dur / 2) / dur))
    else nearestStart rs start cap
def State.nearestCycle (s : State) (cap : Nat) : Nat :=
  if s.sweep.startCap ≤ cap then s.cycle + (cap - s.sweep.startCap + s.sweep.period / 2) / max 1 s.sweep.period
  else nearestStart s.sweep.record s.sweep.startCap cap

/-- A leaf changed. -/
def State.setLeaf (s : State) (n : Nat) (x : Leaf) : State := { s with leaves := s.leaves.put n x }

/-- PEER_D and UNVER follow a leaf; the cause D is raised where one of them changes (R280). -/
def State.showLeaf (s : State) (n : Nat) : State :=
  have x := s.leaf n
  have kd := bankKey n Reg.FEED_PEER_D
  have ks := bankKey n Reg.FEED_PEER_STAT
  have d := if x.known then ofSigned 32 x.offset else 0
  have changed := s.reg kd != d || s.flag ks 8 != x.unver
  have s := (s.setReg kd d).setFlag ks 8 x.unver
  if changed then s.raise 0x52 4 else s

/-- The period entries of a leaf at its hub (R280): they join its period record, and D is evaluated where it is not known, and at the
first PER record after a GAP entry of either module. Cycles between the entries held and these may have been such (R29). -/
def State.takeEntries (s : State) (n first cap : Nat) (entries : List Nat) : State :=
  have x := s.leaf n
  have ownGap := s.sweep.record.any (fun r => r.entry % 4 == 3 && decide (x.evalAt ≤ r.first + r.count))
  have follows := match x.record with
    | r :: _ => first == r.first + r.count
    | [] => false
  have eval := !x.known || x.gap || ownGap || !follows
  have d : Int := if eval then (s.nearestCycle cap : Int) - first else x.offset
  have refq := fun (e : Nat) => e / 4 % 2 == 1
  have ownRefq := fun (c : Nat) => match s.entry c with
    | some e => refq e
    | none => !(s.ptpSlave && s.sweep.startDisc && decide (s.cycle ≤ c))
  (s.setLeaf n { x with
    offset := d
    known := true
    unver := entries.any refq || (List.range entries.length).any (fun (i : Nat) => ownRefq ((first : Int) + i + d).toNat)
    record := placeRuns x.record first entries
    gap := entries.any (fun e => e % 4 == 3)
    evalAt := if eval then s.cycle else x.evalAt }).showLeaf n

/-- A leaf's record comes to a hub. -/
def State.fromLeaf (s : State) (x : Session) : Bool := x.ofLeaf && s.nv.role != 1

/-- PER (R280). -/
def execPer (t : Angle) (r : KfpRx) (s : State) : Outcome :=
  .next ((s.tick t).kfpTake r 0x21 (fun x body s =>
    have n := min 64 (beAt body 8 2)
    have cap := (beAt body 10 6 * 1000000000 + beAt body 16 4) * 8
    if !(s.fromLeaf x) ∨ body.length < 20 + 4 * n then s
    else s.takeEntries x.peer (beAt body 0 8) cap ((List.range n).map (fun i => beAt body (20 + 4 * i) 4))))

/-- SEG (R280): a closed segment of a leaf joins its period record and waits for its page in the journal; GAP entries that come with it lead to a new D (R29). -/
def execSeg (t : Angle) (r : KfpRx) (s : State) : Outcome :=
  .next ((s.tick t).kfpTake r 0x22 (fun x body s =>
    have n := min 4032 (leAt body 28 4)
    if !(s.fromLeaf x) ∨ s.readOnly ∨ body.length < 256 + 4 * n then s
    else
      have y := s.leaf x.peer
      have first := leAt body 8 8
      have entries := (List.range n).map (fun i => leAt body (256 + 4 * i) 4)
      { s with led := { s.led with leafSegs := s.led.leafSegs ++ [(x.peer, body.take 16384)] } }.setLeaf x.peer { y with
        record := placeRuns y.record first entries
        gap := y.gap || entries.zipIdx.any (fun (e : Nat × Nat) => e.1 % 4 == 3 && findEntry y.record (first + e.2) != some e.1) }))

/-- REGRSP (R274) and EVT (R426): a module sends them and asks for none; one that comes is accepted and acknowledged. -/
def execRegrsp (t : Angle) (r : KfpRx) (s : State) : Outcome := .next ((s.tick t).kfpTake r 0x31 (fun _ _ s => s))
def execEvt (t : Angle) (r : KfpRx) (s : State) : Outcome := .next ((s.tick t).kfpTake r 0x40 (fun _ _ s => s))

/-- RETX_MAX, KA_CYC and DEAD_CYC (Table 13.10). -/
def State.retxMax (s : State) : Nat := max 1 (s.fld Reg.FEED_RTO 23 16)
def State.kaCyc (s : State) : Nat := max 50 (s.fld Reg.FEED_TIMERS 31 16)
def State.deadCyc (s : State) : Nat := max (3 * s.kaCyc) (s.fld Reg.FEED_TIMERS 15 0)

/-- RTO after a number of retransmissions, in uptime units: RTO_MIN doubled with each, up to 2 s (R12, R269). -/
def State.rto (s : State) (retx : Nat) : Nat := min 2000 (clampNat 10 1000 (s.fld Reg.FEED_RTO 15 0) * 2 ^ retx) * 8000000

/-- KFP_RETRANSMIT (R269): the RTO of an unacknowledged record has passed, and the identical record is sent again; a handshake message
of a session that is not open likewise. What a STALE of a higher epoch has stopped is not (R273). -/
def execKfpRetransmit (t : Angle) (sid seq : Nat) (s : State) : Outcome :=
  have s := s.tick t
  .next (
    match s.sessions.find sid with
    | none => s
    | some x =>
      if !(s.kfpServes x.peer) then s
      else if !x.isOpen then
        (if x.sent.1 = 0 ∨ s.retxMax ≤ x.retx ∨ s.uptime < x.sentAt + s.rto x.retx then s
        else ((s.modSession sid (fun y => { y with retx := y.retx + 1, sentAt := s.uptime })).sendShake x.peer x.version x.sent.1 x.sent.2).bump Reg.FEED_RETX)
      else match x.unacked.find? (fun u => u.seq == seq) with
        | none => s
        | some u =>
          if s.retxMax ≤ u.retx ∨ (s.staleStop ∧ stoppedType u.ftype) ∨ s.uptime < u.sentAt + s.rto u.retx then s
          else
            have s := s.modSession sid (fun y => { y with
              lastTx := s.cycle
              unacked := y.unacked.map (fun (w : TxRecord) => if w.seq = seq then { w with retx := w.retx + 1, sentAt := s.uptime } else w) })
            ((s.sendDatagram x.peer u.octets).send (.kfp x.peer u.ftype u.seq u.body)).bump Reg.FEED_RETX)

/-- SESSION_DEAD (R269): RETX_MAX retransmissions of one record, or DEAD_CYC cycles without a valid one. A sealed
session is not erased (R287). -/
def execSessionDead (t : Angle) (sid : Nat) (s : State) : Outcome :=
  have s := s.tick t
  .next (
    match s.sessions.find sid with
    | none => s
    | some x =>
      if s.sealedRoot then s
      else if x.unacked.any (fun u => decide (s.retxMax ≤ u.retx)) ∨ (!x.isOpen ∧ s.retxMax ≤ x.retx) ∨ x.lastRx + s.deadCyc ≤ s.cycle then
        s.closeSession sid
      else s)

/-- KEEPALIVE (R269): nothing was sent for KA_CYC cycles. -/
def execKeepalive (t : Angle) (sid : Nat) (s : State) : Outcome :=
  have s := s.tick t
  .next (
    match s.sessions.find sid with
    | some x => if x.isOpen ∧ x.lastTx + s.kaCyc ≤ s.cycle then s.sendSecured sid 0x11 [] else s
    | none => s)

/-- OLD_SESSION_CLOSE (R272): 2 s after the new session has opened. -/
def execOldSessionClose (t : Angle) (sid : Nat) (s : State) : Outcome :=
  have s := s.tick t
  .next (
    match s.sessions.find sid with
    | some x => if x.old ∧ x.oldAt + 16000000000 ≤ s.uptime then s.closeSession sid else s
    | none => s)

/-- The records that a leaf forwards (R277): committed, mirrored, of the classes that R277 names, above an RSN. -/
def State.forwardable (s : State) (above : Nat) : List (Nat × LedgerRecord) :=
  s.led.recs.filter (fun x => decide (above < x.1) && decide (x.1 ≤ s.committed) && x.2.leaf == 0 && !x.2.void && !x.2.lost &&
    [1, 2, 3, 5, 7].contains x.2.cls && s.mirrored x.1)

/-- The octets of a forwarded frame: its RSN and the frame of R235. -/
def fwdFrame (x : Nat × LedgerRecord) : List Byte := beBytes 8 x.1 ++ frameOf x.2

/-- The frames that one record takes: as many as fit 1,196 octets, and at least one. -/
def fwdTake (room : Nat) : List (Nat × LedgerRecord) → List (Nat × LedgerRecord)
  | [] => []
  | x :: xs =>
    have n := (fwdFrame x).length
    if n ≤ room then x :: fwdTake (room - n) xs else []
def fwdBatch (l : List (Nat × LedgerRecord)) : List (Nat × LedgerRecord) :=
  match fwdTake 1196 l with
  | [] => l.take 1
  | xs => xs

/-- The SEQs that a session may still use before it waits for a reservation (R300). -/
def State.seqRoom (s : State) (sid : Nat) : Nat :=
  have k := s.txKey (sessKey sid)
  s.openBlocks k * 4096 - k.next

/-- The ETH port on which a message to a peer leaves, as a resource, and its busy ticks there: each record in a datagram of its own behind
the headers of Ethernet, IP and UDP, KFP header and tag (R260, R267; log 75). -/
def State.messageTicks (s : State) (peer : Nat) (body : List Byte) : Nat × Nat :=
  have i := s.kfpPort peer
  have ip := match s.ipRoute peer i with
    | some r => if (mapped4 r.dest).isSome then 20 else 40
    | none => 40
  have head := 18 + (if (s.ethTag i).isSome then 4 else 0) + ip + 8 + 36
  (0x30 + i, ((messageChunks body).map (fun c => (s.needTicks (.frame (i == 1) (head + c.length))).2)).foldl (· + ·) 0)

/-- The ticks of a port that forwarding has taken in this cycle. -/
def State.forwardTicks (s : State) (r : Nat) : Nat :=
  match s.fwdUsed.find r with
  | some (c, n) => if c = s.cycle then n else 0
  | none => 0

/-- A message can be forwarded now (R277): in the share FWD_RES of its port, or with what goes beyond it in capacity admitted to no one; a
port without capacity forwards nothing (log 75). -/
def State.forwardFits (s : State) (peer : Nat) (body : List Byte) : Bool :=
  have t := s.messageTicks peer body
  have n := s.forwardTicks t.1 + t.2
  have share := 256 * s.fld Reg.FEED_CFG 15 8
  !(s.resLost t.1) && (decide (n ≤ share) || s.spareFits t.1 (n - share))

/-- A message is forwarded: its ticks count. -/
def State.forwardMessage (s : State) (sid peer ftype : Nat) (body : List Byte) : State :=
  have t := s.messageTicks peer body
  { s with fwdUsed := s.fwdUsed.put t.1 (s.cycle, s.forwardTicks t.1 + t.2) }.sendMessage sid ftype body

/-- A message needs more SEQs than are reserved: the next block is asked for (R300). -/
def State.askSeq (s : State) (sid : Nat) : State := s.setTxKey (sessKey sid) { s.txKey (sessKey sid) with asked := true }

/-- A batch of records leaves in a FWD message (R277). -/
def State.forwardBatch (s : State) (sid : Nat) (x : Session) : State :=
  have batch := fwdBatch (s.forwardable x.fwdAt)
  have body := batch.flatMap fwdFrame
  have n := (messageChunks body).length
  match batch.getLast? with
  | none => s
  | some (last, _) =>
    if !(s.forwardFits x.peer body) then s
    else if s.seqRoom sid < n then s.askSeq sid
    else
      have seq := (s.txKey (sessKey sid)).next
      (s.forwardMessage sid x.peer 0x20 body).modSession sid (fun y => { y with
        fwdAt := last
        spans := y.spans ++ [(seq, seq + n - 1, last)] })

/-- The body of a PER message (Table 13.3): the entries of `n` cycles from one on. -/
def State.perBody (s : State) (first n : Nat) : List Byte :=
  have cap := s.startOf first
  beBytes 8 first ++ beBytes 2 n ++ beBytes 6 (cap / 8000000000) ++ beBytes 4 (cap % 8000000000 / 8) ++
    (List.range n).flatMap (fun i => beBytes 4 ((s.entry (first + i)).getD 0))

/-- The period entries that have closed leave in a PER message (R277), at most 64. -/
def State.forwardPeriods (s : State) (sid : Nat) (x : Session) : State :=
  have n := min 64 (s.cycle - x.perAt)
  if n = 0 then s
  else if s.seqRoom sid = 0 then s.askSeq sid
  else
    have seq := (s.txKey (sessKey sid)).next
    (s.forwardMessage sid x.peer 0x21 (s.perBody x.perAt n)).modSession sid (fun y => { y with
      perAt := x.perAt + n
      perSpans := y.perSpans ++ [(seq, seq, x.perAt + n)] })

/-- The oldest committed segment leaves in a SEG message (R277); the next one follows once the hub has acknowledged it. -/
def State.forwardSegment (s : State) (sid : Nat) (x : Session) : State :=
  match s.segOut, x.segSpan with
  | g :: _, none =>
    have page := s.segHeader g.1 g.2.1 g.2.2.1 g.2.2.2 ++ s.segEntries g.1 g.2.1
    have body := page ++ zeros (16384 - page.length)
    have n := (messageChunks body).length
    if !(s.forwardFits x.peer body) then s
    else if s.seqRoom sid < n then s.askSeq sid
    else
      have seq := (s.txKey (sessKey sid)).next
      (s.forwardMessage sid x.peer 0x22 body).modSession sid (fun y => { y with segSpan := some (seq, seq + n - 1, g.1) })
  | _, _ => s

/-- A session on which a module in the FIELD role forwards to its hub (R277). -/
def State.forwards (s : State) (x : Session) : Bool :=
  x.isOpen && !x.old && decide (256 ≤ x.peer) && decide (x.peer ≤ 259) && s.nv.role == 1 && s.serves && !s.sealedRoot && !s.staleStop &&
    !s.pfStop && x.held.isEmpty

/-- FORWARD_SEND (R277): a module in the FIELD role forwards to its hub in the share FWD_RES and the spare capacity of its ETH ports. -/
def execForwardSend (t : Angle) (sid : Nat) (s : State) : Outcome :=
  have s := s.tick t
  .next (
    match s.sessions.find sid with
    | none => s
    | some x =>
      if !(s.forwards x) then s
      else
        have n := min 64 (s.cycle - x.perAt)
        have s := if s.forwardFits x.peer (s.perBody x.perAt n) then s.forwardPeriods sid x else s
        (s.forwardSegment sid x).forwardBatch sid x)

/-- At a cycle start: period entries that closed 7 cycles ago and have not been sent leave now, within the 8 cycles of R277, whatever the
ports' capacity (log 75). -/
def State.forwardDue (s : State) : State :=
  s.sessions.foldl (fun (s : State) x =>
    if s.forwards x.2 && decide (x.2.perAt + 8 ≤ s.cycle) then s.forwardPeriods x.1 x.2 else s) s

/-- A peer entry as its registers stand (Table 13.10): PEER_KHk holds hash octets 4k to 4k + 3, octet 4k in bits 7:0. -/
def State.stagedPeer (s : State) (n : Nat) : Peer := {
  w0 := s.reg (bankKey n Reg.FEED_PEER_W0)
  hash := BitVec.ofNat 512 (ofBe ((List.range 16).flatMap (fun i => leBytes 4 (s.reg (bankKey n (Reg.FEED_PEER_KH0 + 4 * i))))))
  addr := (List.range 4).map (fun i => s.reg (bankKey n (Reg.FEED_PEER_ADDR0 + 4 * i)))
  udp := s.reg (bankKey n Reg.FEED_PEER_UDP)
  evt := s.reg (bankKey n Reg.FEED_PEER_EVT) }

/-- The staged entry takes effect, and the sessions of an entry that is no longer valid close. -/
def State.enterPeer (s : State) (n : Nat) : State := { s with peers := s.peers.put n (s.stagedPeer n) }
def State.closePeer (s : State) (n : Nat) (gone : Bool) : State :=
  if gone then (s.sessions.filter (fun x => x.2.peer == n)).foldl (fun (s : State) x => s.closeSession x.1) s else s

/-- A write of PEER_W0 puts the selected entry into effect; VALID = 0 closes its sessions. -/
def effPeerW0 (v : Word) (s : State) : WriteResult :=
  have n := s.fld Reg.FEED_PEER_SEL 8 0
  if n = 0 ∨ 291 < n then .ignored s
  else (s.plainWrite 0x52 0x084 v).andThen (fun s => (s.enterPeer n).closePeer n (!v.toNat.testBit 31))

/-- PEER_ENTRY_WRITE (R270). -/
def execPeerEntryWrite (t : Angle) (p : Path) (v : Word) (s : State) : Outcome :=
  .next ((s.tick t).hostWrite p 0x52 0x084 (effPeerW0 v))

end Sys2Proof.Machine
end

