-- ==== Sys2Proof/Machine/Net.lean ====
section
/-!
DEFINITION. The Ethernet ports (R259, R260), PTP (R261 to R264), triggers and captures (R265, R266), the marks of the sweep (R35), the
commit of the zone-rule schedule (R30, R33), the rings of the BAR2 window (R283), the PCI Express endpoint (R281) and the unlock of the
service port (R285).
-/

namespace Sys2Proof.Machine

/-- A port has a link, and is enabled; its page. -/
abbrev ethPage (i : Nat) : Nat := 0x50 + i
def State.ethUp (s : State) (i : Nat) : Bool := s.flag (Reg.ETH_CFG i) 0 && s.flag (Reg.ETH_STAT i) 31 && !s.pageOff (ethPage i)

/-- A MAC timestamp in units of 125 ps as the PTP time at the MDI, in 1/16 ns (R263): ingress or egress, by CAL of the port's speed and by
ADJ. -/
def State.stampAt (s : State) (i : Nat) (rx : Bool) (mac : Nat) : Int :=
  have cal := if i = 0 then (if rx then s.fac.ingCal0 else s.fac.egCal0) else (if rx then s.fac.ingCal1 else s.fac.egCal1)
  have cal := if s.fld (Reg.ETH_STAT i) 9 8 = 2 then bits 31 16 cal.toNat else bits 15 0 cal.toNat
  have adj := toSigned 16 (s.fld (if rx then Reg.ETH_ING_ADJ i else Reg.ETH_EG_ADJ i) 15 0)
  have d : Int := cal + adj
  2 * ((mac : Int) + s.ptp.adj) + (if rx then -d else d)

/-- That time as seconds and nanoseconds. -/
def State.stampOf (s : State) (i : Nat) (rx : Bool) (mac : Nat) : Nat × Nat :=
  have ns := (s.stampAt i rx mac).toNat / 16
  (ns / 1000000000, ns % 1000000000)

/-- The host frame rings (Table 13.7): slots of 2 KiB. A full ring keeps one slot free (R283). -/
def txSlot (n : Nat) : Nat := 0xA00000 + 2048 * n
def rxSlot (n : Nat) : Nat := 0xA80000 + 2048 * n
def State.rxFull (s : State) : Bool := (s.fld Reg.PCIE_HRX_WR 7 0 + 1) % 256 == s.fld Reg.PCIE_HRX_RD 7 0

/-- A frame for the host enters the receive ring, or is dropped and counted while the ring is full (R259, R283). -/
def State.frameToHost (s : State) (i : Nat) (frame : List Byte) (mac : Nat) : State :=
  if s.rxFull then (s.bump (Reg.ETH_DROP i)).raise (ethPage i) 1
  else
    have wr := s.fld Reg.PCIE_HRX_WR 7 0
    have ts := s.stampOf i true mac
    have s := s.store (rxSlot wr) (leBytes 4 (frame.length % 65536 + i * 65536) ++ zeros 4 ++ leBytes 4 (ts.1 % 2 ^ 32) ++
      leBytes 4 (ts.1 / 2 ^ 32 % 65536) ++ leBytes 4 ts.2 ++ frame.take 2028)
    (s.setFld Reg.PCIE_HRX_WR 7 0 (wr + 1)).raise 0x53 2

/-- What a frame is to a port (R259): a KFP or a PTP frame addressed to the module, a request that it answers, or any other frame. -/
inductive EthKind where
  | kfp | ptp | answer | other
  deriving DecidableEq, Repr

/-- The EtherType and the payload of a frame behind the port's tag, where it carries that tag, or none where the port has none (R259,
log 103). -/
def State.untag (s : State) (i : Nat) (f : List Byte) : Option (Nat × List Byte) :=
  if s.flag (Reg.ETH_CFG i) 15 then
    (if beAt f 12 2 = 0x8100 ∧ beAt f 14 2 % 4096 = s.fld (Reg.ETH_CFG i) 27 16 then some (beAt f 16 2, f.drop 18) else none)
  else some (beAt f 12 2, f.drop 14)

/-- A UDP datagram by its destination port: KFP to an address of the port, PTP to one of those or to a PTP group. -/
def State.udpKind (s : State) (own group : Bool) (port : Nat) : EthKind :=
  if own ∧ port = s.fld Reg.FEED_UDP_PORT 15 0 then .kfp
  else if (own ∨ group) ∧ (port = 319 ∨ port = 320) then .ptp
  else .other

/-- An IPv4 packet (RFC 791): echo requests (RFC 792) and UDP; the PTP groups are 224.0.1.129 and 224.0.0.107. IPv4 is disabled while the
port's address is 0. -/
def State.kindOf4 (s : State) (i : Nat) (p : List Byte) : EthKind :=
  have n := 4 * (leAt p 0 1 % 16)
  have dest := beAt p 16 4
  have own := dest == s.ip4 i
  if s.ip4 i = 0 then .other
  else if own ∧ leAt p 9 1 = 1 ∧ leAt p n 1 = 8 then .answer
  else if leAt p 9 1 = 17 then s.udpKind own (dest == 0xE0000181 || dest == 0xE000006B) (beAt p (n + 2) 2)
  else .other

/-- An IPv6 packet (RFC 8200): echo requests (RFC 4443), Neighbor Solicitations for an address of the port (RFC 4861) and UDP; the PTP
groups are FF0x::181 and FF02::6B. -/
def State.kindOf6 (s : State) (i : Nat) (p : List Byte) : EthKind :=
  have dest := beAt p 24 16
  have own := s.ownIp6 i dest
  if leAt p 6 1 = 58 then
    (if (own ∧ leAt p 40 1 = 128) ∨ (leAt p 40 1 = 135 ∧ s.ownIp6 i (beAt p 48 16)) then .answer else .other)
  else if leAt p 6 1 = 17 then
    s.udpKind own ((dest / 2 ^ 120 == 0xFF && dest % 2 ^ 112 == 0x181) || dest == 0xFF02 * 2 ^ 112 + 0x6B) (beAt p 42 2)
  else .other

/-- What a frame is (R259): its destination address, source address and tag stand before the EtherType; ARP requests (RFC 826) for the
port's IPv4 address are answered; PTP over IEEE 802.3 has EtherType 0x88F7. -/
def State.frameKind (s : State) (i : Nat) (f : List Byte) : EthKind :=
  have dest := beAt f 0 6
  match s.untag i f with
  | none => .other
  | some (type, p) =>
    if type = 0x0806 then (if s.ip4 i ≠ 0 ∧ beAt p 6 2 = 1 ∧ beAt p 24 4 = s.ip4 i then .answer else .other)
    else if type = 0x0800 then s.kindOf4 i p
    else if type = 0x86DD then s.kindOf6 i p
    else if type = 0x88F7 ∧ (dest = s.ethMac i ∨ dest = 0x011B19000000 ∨ dest = 0x0180C200000E) then .ptp
    else .other

/-- ETH_FRAME_RECEIVED (R259): KFP and PTP frames go to those functions, whose own commands follow; requests are answered; every other
frame goes to the host. `bad` says that the frame fails its check; `mac` is the MAC timestamp of its receipt. -/
def execEthFrameReceived (t : Angle) (port : Fin 2) (bad : Bool) (frame : List Byte) (mac : Nat) (s : State) : Outcome :=
  have s := s.tick t
  have i := port.val
  .next (
    if !(s.ethUp i) then s
    else if bad then s.bump (Reg.ETH_RX_ERR i)
    else
      have s := s.bump (Reg.ETH_RX_OK i)
      match s.frameKind i frame with
      | .kfp => s
      | .ptp => s
      | .answer => (s.send (.ethAnswer i (s.ethTag i) frame)).bump (Reg.ETH_TX_OK i)
      | .other => s.frameToHost i frame mac)

/-- A transmit timestamp enters the queue of 16, or is discarded (R264). -/
def State.queueStamp (s : State) (id i mac : Nat) : State :=
  if 16 ≤ s.ptp.tsq.length then
    (((s.bump Reg.PTP_TSQ_OVF).setFld Reg.PTP_TSQ_STAT 15 0 id).raise 0x06 4)
  else
    have ts := s.stampOf i false mac
    ({ s with ptp := { s.ptp with tsq := s.ptp.tsq ++ [({ id := id, port := i, sec := ts.1, ns := ts.2 } : TxStamp)] } }).raise 0x06 0

/-- The frames of the transmit ring that can leave: the oldest first, while its port has a link (R283). `stamps` are the MAC timestamps of
the frames with TS_REQ; one that the world does not give is a free value. -/
def State.pumpTx (s : State) (stamps : List Nat) : Nat → State
  | 0 => s
  | fuel + 1 =>
    have rd := s.fld Reg.PCIE_HTX_RD 7 0
    if rd = s.fld Reg.PCIE_HTX_WR 7 0 then s
    else
      have w := s.load32 (txSlot rd)
      have i := bits 16 16 w
      if !(s.ethUp i) then s
      else
        have s := (s.send (.eth i (s.load (txSlot rd + 0x10) (min (bits 15 0 w) 2032)))).bump (Reg.ETH_TX_OK i)
        have id := s.load32 (txSlot rd + 4) % 65536
        have s := (s.setFld Reg.PCIE_HTX_RD 7 0 (rd + 1)).raise 0x53 1
        if bit 17 w then
          match stamps with
          | m :: ms => (s.queueStamp id i m).pumpTx ms fuel
          | [] =>
            have d := s.draw
            (d.2.queueStamp id i d.1).pumpTx [] fuel
        else s.pumpTx stamps fuel

/-- The host writes frames into slots of the transmit ring (R283): the header words and the frame behind them. -/
def State.fillSlots (s : State) (slots : List (BitVec 8 × List Byte)) : State :=
  slots.foldl (fun (s : State) x => s.store (txSlot x.1.toNat) (x.2.take 2048)) s

/-- HOST_TX (R283, R264): the host has written `slots` and advances HTX_WR. -/
def effHtxWr (v : Word) (stamps : List Nat) (s : State) : WriteResult :=
  .done ((s.setReg Reg.PCIE_HTX_WR (v.toNat % 256)).pumpTx stamps 256)
def execHostTx (t : Angle) (p : Path) (v : Word) (slots : List (BitVec 8 × List Byte)) (stamps : List Nat) (s : State) : Outcome :=
  .next (((s.tick t).fillSlots slots).hostWrite p 0x53 0x058 (effHtxWr v stamps))

/-- The link of a port is at a speed now (R260): 0 no link, 1 1000 Mb/s, 2 100 Mb/s; CFG.SPEED can restrict the port to one (R259). KFP sessions move to the other port as a lane
loss; frames that waited for a link leave. -/
def State.ethLink (s : State) (i speed : Nat) : State :=
  have was := s.flag (Reg.ETH_STAT i) 31
  have only := s.fld (Reg.ETH_CFG i) 9 8
  have up := decide (speed ≠ 0) && s.flag (Reg.ETH_CFG i) 0 && (only == 0 || only == 3 || only == speed)
  have s := s.setReg (Reg.ETH_STAT i) (b2n up * 2 ^ 31 + (if up then speed else 0) * 256)
  if was = up then s
  else
    have s := s.raise (ethPage i) 0
    if up then (s.regainRes (0x30 + i)).pumpTx [] 256
    else (s.bump (Reg.ETH_LINKDOWN i)).loseRes (0x30 + i) 0x10

/-- ETH_LINK_CHANGE (R260). -/
def execEthLinkChange (t : Angle) (port : Fin 2) (speed : Fin 3) (s : State) : Outcome :=
  .next ((s.tick t).ethLink port.val speed.val)

/-- The registers of the timestamp queue (Table 13.8). -/
def State.readTsqStat (s : State) : Nat := s.ptp.tsq.length * 65536 + s.fld Reg.PTP_TSQ_STAT 15 0
def State.readTsq (s : State) (k : Nat) : Nat :=
  match s.ptp.tsq with
  | [] => 0
  | x :: _ => if k = 0 then x.id * 65536 + x.port else if k = 1 then x.sec % 2 ^ 32 else if k = 2 then x.sec / 2 ^ 32 % 65536 else x.ns

/-- The cause TS stays set while the queue is not empty (R264): it is set again at once where the host clears it. -/
def State.holdTs (s : State) : State := if s.ptp.tsq.isEmpty then s else s.raise 0x06 0

/-- TSQ_POP (R264). -/
def effTsqPop (v : Word) (s : State) : WriteResult :=
  if !bit 0 v.toNat then .ignored s
  else
    have s := { s with ptp := { s.ptp with tsq := s.ptp.tsq.drop 1 } }
    .done (if s.ptp.tsq.isEmpty then s.clearCauses 0x06 1 else s)
def execTsqPop (t : Angle) (p : Path) (v : Word) (s : State) : Outcome := .next ((s.tick t).hostWrite p 0x06 0x074 (effTsqPop v))

/-- PTP.STAT.STATE changes (R261, R262): LOCKSTAT.PTP_DISC is 1 while it is SLAVE, and the mapping is in PTP state then, in EXTRAP
otherwise once TAI has been known (R34). -/
def State.setPtpState (s : State) (v : Nat) : State :=
  have changed := s.fld Reg.PTP_STAT 31 29 != v
  have s := (s.setFld Reg.PTP_STAT 31 29 v).setFlag Reg.SWEEP_LOCKSTAT 11 (v == 3)
  have s := if v = 3 then s.setFld Reg.SWEEP_CIVSTAT 1 0 1
    else if s.sweep.taiKnown then s.setFld Reg.SWEEP_CIVSTAT 1 0 2 else s
  if changed then s.raise 0x06 1 else s

/-- Triggers that wait for a mapping are pinned, to the first tick whose predicted TAI is at or after their instant (R265, R32). -/
def State.triggerTick (s : State) (tai : Nat) : Int :=
  have x := (tai : Int) - s.sweep.startCap
  (s.cycle * 65536 : Nat) + -((-(x * 65536)) / (max 1 s.sweep.period : Nat))
def State.pinTrigger (s : State) (n : Nat) (g : Trigger) : State :=
  if s.mapState = 0 then { s with ptp := { s.ptp with trigs := s.ptp.trigs.put n g } }
  else
    have k := s.triggerTick g.tai
    { s with ptp := { s.ptp with trigs := s.ptp.trigs.put n { g with
      pin := some (max k.toNat s.now)
      late := decide (k < s.now) } } }
def State.pinTriggers (s : State) : State :=
  s.ptp.trigs.foldl (fun (s : State) x => if x.2.pin.isNone then s.pinTrigger x.1 x.2 else s) s

/-- TAI becomes known for the first time since reset (R34): the blocks request their instants, and those that are past are pinned at once, in
order of civil time. -/
def State.firstTai (s : State) : State :=
  if s.sweep.taiKnown then s
  else (({ s with sweep := { s.sweep with taiKnown := true } }.compile).pinPast.pinTriggers.showZone).checkSched

/-- The servo steps the PTP counter by a number of nanoseconds (R262); a step of 1 ms or more is a civil step once TAI is known (R33).
The capture of the present cycle moves with it (log 102). DESIGN CHOICE (log 96): CSTEP holds the whole milliseconds of the step, what is
left of it dropped towards 0. -/
def State.stepPtp (s : State) (ns : Int) : State :=
  have before := localOf s.sweep.zones s.taiNow
  have s := { s with
    sweep := { s.sweep with startCap := ((s.sweep.startCap : Int) + 8 * ns).toNat }
    ptp := { s.ptp with adj := s.ptp.adj + 8 * ns, slew := 0, sync := none } }
  if !s.sweep.taiKnown ∨ ns.natAbs < 1000000 ∨ s.mapState = 0 then s
  else
    have ms := if 0 ≤ ns then ns / 1000000 else -((-ns) / 1000000)
    have s := s.civilStep ms
    if s.sweep.zones.isEmpty then s else s.stepBilling ms before

/-- The port on which PTP runs: 1 ETH0, 2 ETH1 (R261). -/
def State.ptpPort (s : State) : Nat :=
  have c := s.fld Reg.PTP_CFG 25 24
  if c = 1 ∨ c = 2 then c else max 1 (s.fld Reg.PTP_STAT 25 24)
def State.ptpAuto (s : State) : Bool := s.fld Reg.PTP_CFG 25 24 == 0 || s.fld Reg.PTP_CFG 25 24 == 3

/-- A PTP message leaves on a port (R261). -/
def State.sendPtp (s : State) (i kind : Nat) : State :=
  have tr := s.fld Reg.PTP_CFG 9 8
  (s.send (.ptp i kind (s.fld Reg.PTP_CFG 22 16) (if tr = 3 then 1 else tr))).bump (Reg.ETH_TX_OK i)

/-- A path delay is measured (R262): MPD shows it in ns, not below 0. -/
def State.takePath (s : State) (d : Int) : State :=
  { s with ptp := { s.ptp with path := some d } }.setReg Reg.PTP_MPD (min (d.toNat / 16) (2 ^ 32 - 1))

/-- An offset from the master in 1/16 ns (R262): one at or above STEP_TH is stepped, one below it is slewed from now on. OFS shows it in
ns, what is left dropped towards 0 (log 77). -/
def State.takeOffset (s : State) (o : Int) : State :=
  have ns := if 0 ≤ o then o / 16 else -((-o) / 16)
  have s := s.setReg Reg.PTP_OFS (ofSigned 32 (satSigned 32 ns))
  if clampNat 1000 1000000000 (s.reg Reg.PTP_STEP_TH) ≤ ns.natAbs then s.stepPtp (-ns)
  else { s with ptp := { s.ptp with slew := -(o / 2) } }

/-- A Sync (R262): the offset, once the path delay is known; and the request that measures the delay (Table 13.1). -/
def State.takeSync (s : State) (i : Nat) (origin : Int) (rx : Int) : State :=
  have s := { s with ptp := { s.ptp with sync := some (origin, rx) } }
  have s := match s.ptp.path with
    | some d => s.takeOffset (rx - origin - d)
    | none => s
  s.sendPtp i (if s.flag Reg.PTP_CFG 4 then 2 else 1)

/-- What a message on the port of PTP does (R261 to R263): the times of the module are taken at the MDI; a master that announces ARB and
management messages do nothing. -/
def State.takePtpMsg (s : State) (i : Nat) : PtpMsg → State
  | .announce gm utc _ _ => (s.setReg64 Reg.PTP_GM_LO Reg.PTP_GM_HI gm.toNat).setFld Reg.PTP_STAT 15 0 utc.toNat
  | .sync origin mac => s.takeSync i (2 * origin) (s.stampAt i true mac)
  | .delayResp mac received =>
    match s.ptp.sync with
    | some (t1, t2) =>
      if s.flag Reg.PTP_CFG 4 then s else s.takePath (((t2 - t1) + (2 * (received : Int) - s.stampAt i false mac)) / 2)
    | none => s
  | .pdelayReq => if s.flag Reg.PTP_CFG 4 then (s.sendPtp i 3).sendPtp i 10 else s
  | .pdelayResp mac received sent back =>
    if s.flag Reg.PTP_CFG 4 then
      s.takePath (((s.stampAt i true back - s.stampAt i false mac) - (2 * (sent : Int) - 2 * (received : Int))) / 2)
    else s
  | .management => s

/-- A message on the port of PTP, and the state that follows (R262). -/
def State.takePtp (s : State) (m : PtpRx) : State :=
  have s := (s.takePtpMsg m.port.val m.msg).setPtpState m.state.val
  if m.state.val = 3 then s.firstTai else s

/-- A message that PTP takes (R261, Table 13.1): of its domain and its transport, neither a management message nor the Announce of a
master on the timescale ARB. -/
def State.ptpTakes (s : State) (m : PtpRx) : Bool :=
  have tr := s.fld Reg.PTP_CFG 9 8
  m.domain.toNat == s.fld Reg.PTP_CFG 22 16 && m.transport.val == (if tr = 3 then 1 else tr) &&
    (match m.msg with
    | .announce _ _ scale _ => scale
    | .management => false
    | _ => true)

/-- An Announce on ETH0 while AUTO runs on ETH1 (R261): once Announce messages have come for ten announce intervals, PTP moves back. Three
intervals without one end the run. -/
def State.backPtp (s : State) (interval : Nat) : State :=
  have now := s.uptime
  have first := match s.ptp.backRun with
    | some (a, b) => if now < b + 3 * interval * 8000000 then a else now
    | none => now
  if first + 10 * interval * 8000000 ≤ now then
    ({ s with ptp := { s.ptp with backRun := none, sync := none, path := none } }.setFld Reg.PTP_STAT 25 24 1).setPtpState 1
  else { s with ptp := { s.ptp with backRun := some (first, now) } }

/-- PTP_MESSAGE (R261, R262): a message that PTP takes, on its port; under AUTO, Announce messages on ETH0 while PTP runs on ETH1. -/
def execPtpMessage (t : Angle) (m : PtpRx) (s : State) : Outcome :=
  have s := s.tick t
  have p := m.port.val + 1
  .next (
    if !s.flag Reg.PTP_CFG 0 ∨ !(s.ethUp m.port.val) ∨ !(s.ptpTakes m) then s
    else if p = s.ptpPort then (s.setFld Reg.PTP_STAT 25 24 p).takePtp m
    else if s.ptpAuto ∧ p = 1 then
      (match m.msg with
      | .announce _ _ _ interval => s.backPtp interval
      | _ => s)
    else s)

/-- PTP_ANNOUNCE_TIMEOUT (R261): three announce intervals without a valid Announce; under AUTO, PTP moves from ETH0 to ETH1. The counter
runs on from its last discipline in HOLDOVER (R34). -/
def execPtpAnnounceTimeout (t : Angle) (s : State) : Outcome :=
  have s := s.tick t
  .next (
    if !s.flag Reg.PTP_CFG 0 then s
    else
      have s := if s.ptpAuto ∧ s.ptpPort = 1 then
          { s with ptp := { s.ptp with backRun := none, sync := none, path := none } }.setFld Reg.PTP_STAT 25 24 2
        else s
      s.setPtpState (if s.sweep.taiKnown then 4 else 1))

/-- TRIGGER_ARM (R265): the write of TRIGn_NS arms the trigger. -/
def effTrigNs (n : Nat) (v : Word) (s : State) : WriteResult :=
  (s.plainWrite 0x06 (0x108 + 0x20 * n) v).andThen (fun s =>
    have sec := s.reg (Reg.PTP_TRIG_SEC_LO n) + 2 ^ 32 * (s.reg (Reg.PTP_TRIG_SEC_HI n) % 65536)
    s.pinTrigger n { tai := (sec * 1000000000 + s.fld (Reg.PTP_TRIG_NS n) 29 0) * 8 })
def execTriggerArm (t : Angle) (p : Path) (n : Fin 4) (v : Word) (s : State) : Outcome :=
  .next ((s.tick t).hostWrite p 0x06 (0x108 + 0x20 * n.val) (effTrigNs n.val v))

/-- The points of a channel before a time that were not GOOD, since its last close (Table 9.8; log 102): its interval close. -/
def State.badPoints (s : State) (ch at' : Nat) : Nat :=
  have c := s.chan false ch
  have closed := match s.billChan ch with
    | some b => if b.valid then (c.before b.start).notGood else 0
    | none => 0
  min 65535 ((c.before at').notGood - closed)

/-- A snapshot (R265): for each valid place of the channel list, a close result with the trigger's sweep time, the channel's total at that
tick and the firing count. -/
def State.snapshot (s : State) (at' count : Nat) : State :=
  have s := s.pumpAll
  (List.range 16).foldl (fun (s : State) m =>
    if !s.flag (Reg.PTP_SNAP_CH m) 31 then s
    else
      have ch := s.fld (Reg.PTP_SNAP_CH m) 19 0
      have c := (s.chan false ch).before at'
      have a := ofSigned 128 c.total
      have words := [at' % 2 ^ 32, at' / 2 ^ 32] ++ (List.range 4).map (fun i => a / 2 ^ (32 * i) % 2 ^ 32) ++
        [ch + 7 * 2 ^ 20 + b2n c.sat * 2 ^ 25 + 2 ^ 31, count % 65536 + s.badPoints ch at' * 2 ^ 16]
      { s with ptp := { s.ptp with snaps := s.ptp.snaps.put m words } }) s
def State.readSnap (s : State) (k : Nat) : Nat := (s.ptp.snaps.getD (s.fld Reg.PTP_SNAP_SEL 3 0) []).getD k 0

/-- The next instant of a repeating trigger after the current tick (R265, R35). -/
def State.nextTrigger (s : State) (tai step : Nat) : Nat :=
  have now := s.timeOf s.now
  have skip := if now < (tai + step : Nat) then 0 else ((now - (tai : Int)) / step).toNat
  tai + max 1 (skip + b2n (decide (0 < skip))) * step

/-- TRIGGER_FIRE (R265): at its tick. -/
def execTriggerFire (t : Angle) (n : Fin 4) (s : State) : Outcome :=
  have s := s.tick t
  have k := n.val
  .next (
    match s.ptp.trigs.find k with
    | none => s
    | some g =>
      match g.pin with
      | none => s
      | some at' =>
        if s.now < at' ∨ !s.flag (Reg.PTP_TRIG_CTL k) 0 then s
        else
          have late := g.late || s.inGap at'
          have count := s.ptp.fired.getD k 0 + 1
          have s := { s with ptp := { s.ptp with fired := s.ptp.fired.put k count, trigs := s.ptp.trigs.del k } }
          have s := s.setFlag (Reg.PTP_TRIG_STAT k) 0 true
          have s := if late then s.setFlag (Reg.PTP_TRIG_STAT k) 1 true else s
          have s := if s.flag (Reg.PTP_TRIG_CTL k) 3 then s.snapshot at' count else s
          have s := if s.flag (Reg.PTP_TRIG_CTL k) 1 then s.raise 0x06 2 else s
          have s := if s.flag (Reg.PTP_TRIG_CTL k) 2 then s.raise 0x53 3 else s
          have rep := s.fld (Reg.PTP_TRIG_CTL k) 31 16
          if rep = 0 then s else s.pinTrigger k { tai := s.nextTrigger g.tai (rep * 8000000) })

/-- A capture input latches a PTP time in units of 125 ps (R266). -/
def State.captureEvent (s : State) (n time : Nat) : State :=
  have k := Reg.PTP_CAP_CTL n
  if !s.flag k 0 then s
  else
    have ns := time / 8
    have s := s.setFld k 31 16 (satAdd 16 (s.fld k 31 16) 1)
    have s := s.setReg64 (Reg.PTP_CAP_SEC_LO n) (Reg.PTP_CAP_SEC_HI n) (ns / 1000000000 % 2 ^ 48)
    (s.setReg (Reg.PTP_CAP_NS n) (ns % 1000000000)).raise 0x06 3

/-- Captures 0 to 2 whose SRC and EDGE name a source and its edge (R266, Table 13.8). -/
def State.captures (s : State) (src : Nat) (falling : Bool) : List Nat :=
  (List.range 3).filter (fun n => s.fld (Reg.PTP_CAP_CTL n) 7 4 == src && s.flag (Reg.PTP_CAP_CTL n) 1 == falling)

/-- CAPTURE_EVENT (R266): an edge on a source: 0 to 3 the feedback inputs FB0 to FB3, 4 the tamper auxiliary input, 5 to 7 the raw
zero-crossing detectors of L1 to L3. `cap` is the reference's count at the edge. -/
def execCaptureEvent (t : Angle) (src : Fin 8) (falling : Bool) (cap : Nat) (s : State) : Outcome :=
  have s := s.tick t
  .next ((s.captures src.val falling).foldl (fun (s : State) n => s.captureEvent n (s.ptpTime cap)) s)

/-- A due mark fires, LATE where its target was past when it was armed or fell into GAP cycles; ROUTE_CAPT drives capture 3 (R35, R266). -/
def State.fireDue (s : State) (n : Nat) : State :=
  have s := s.fireMark n (s.sweep.armed.getD n false || s.inGap (s.markTarget n))
  if s.flag (Reg.SWEEP_MARK_CTL n) 2 then (s.send (.mark n)).captureEvent 3 (s.timeOf s.now).toNat else s

/-- MARK_FIRED (R35): a mark fires at the first tick at or after its target, after those that are due with it and have earlier targets. -/
def execMarkFired (t : Angle) (n : Fin 16) (s : State) : Outcome :=
  have s := s.tick t
  .next ((s.dueMarks n.val).foldl (fun (s : State) m => s.fireDue m) s)

/-- The valid entries of the staged schedule, in the order of their registers (Table 1.10). -/
def State.stagedZones (s : State) : List ZoneRule :=
  (List.range 32).filterMap (fun m =>
    if s.flag (Reg.SWEEP_ZONE_EFF_HI m) 31 then some {
      eff := s.reg (Reg.SWEEP_ZONE_EFF_LO m) + 2 ^ 32 * s.fld (Reg.SWEEP_ZONE_EFF_HI m) 15 0
      taiUtc := toSigned 16 (s.fld (Reg.SWEEP_ZONE_OFFS m) 31 16)
      localUtc := toSigned 16 (s.fld (Reg.SWEEP_ZONE_OFFS m) 15 0) }
    else none)

/-- Strictly ascending order of effect (R30). -/
def zonesOrdered : List ZoneRule → Bool
  | a :: b :: zs => decide (a.eff < b.eff) && zonesOrdered (b :: zs)
  | _ => true

/-- The change of civil time that a commit makes (R33): at the current tick, or at the earliest pinned instant whose mapping it changes, in
seconds; 0 where it changes none, or where nothing was mapped before. DESIGN CHOICE (log 96): after a commit that leaves no valid entry local
time is taken as TAI. -/
def State.commitStep (s : State) (zs : List ZoneRule) : Int :=
  if !s.mapped then 0
  else
    have change := fun (t : Int) => localOf zs t - localOf s.sweep.zones t
    have now := change s.taiNow
    if now ≠ 0 then now
    else (((sortBy (fun (a b : Int) => decide (a ≤ b)) s.sweep.pinned).map change).find? (· ≠ 0)).getD 0

/-- ZCOMMIT (R30, R31, R33, R214): the schedule and ZVALID take effect together. -/
def effZcommit (v : Word) (s : State) : WriteResult :=
  if !bit 0 v.toNat then .ignored s
  else
    have zs := s.stagedZones
    if !zonesOrdered zs then .discard (s.setFlag Reg.SWEEP_CIVSTAT 3 true) 0x0C
    else
      have step := s.commitStep zs
      have before := localOf s.sweep.zones s.taiNow
      have s := { s with sweep := { s.sweep with
        zones := zs
        zvalid := s.reg Reg.SWEEP_ZVALID_LO + 2 ^ 32 * s.fld Reg.SWEEP_ZVALID_HI 15 0 } }
      have s := s.journal 0x26 (leBytes 4 Reg.SWEEP_ZCOMMIT ++ leBytes 8 s.sweep.zvalid ++ leBytes 2 zs.length ++ zs.flatMap (fun z =>
        leBytes 8 z.eff ++ leBytes 2 (ofSigned 16 z.taiUtc) ++ leBytes 2 (ofSigned 16 z.localUtc)))
      have s := if step ≠ 0 then (s.civilStep (step * 1000)).stepBilling (step * 1000) before else s
      .done ((((s.recompile (fun _ => true)).pinPast).showZone).checkSched)
def execZcommit (t : Angle) (p : Path) (v : Word) (s : State) : Outcome := .next ((s.tick t).hostWrite p 0x04 0x084 (effZcommit v))

/-- REPORT_POST (R283): a REPORT record is placed in the next slot of the report ring, which advances and rings the doorbell; a full ring
holds it back. -/
def execReportPost (t : Angle) (id : Nat) (s : State) : Outcome :=
  have s := s.tick t
  .next (
    match s.obl id with
    | none => s
    | some o =>
      have wr := s.fld Reg.PCIE_RPT_WR 11 0
      if o.cls ≠ 2 ∨ (wr + 1) % 4096 = s.fld Reg.PCIE_RPT_RD 11 0 ∨ s.pageOff 0x53 then s
      else
        have s := s.store (0xC00000 + 1024 * wr) ((o.records ++ zeros 1024).take 1024)
        ((s.setReg Reg.PCIE_RPT_WR ((wr + 1) % 4096)).raise 0x53 3).endId (some id) 0 0)

/-- REPORT_RING_ADVANCE (R283): slots become free, and reports that were held may be posted. -/
def execReportRingAdvance (t : Angle) (p : Path) (v : Word) (s : State) : Outcome :=
  .next ((s.tick t).hostWrite p 0x53 0x054 (fun s => s.plainWrite 0x53 0x054 v))

/-- ENDPOINT_RESET (R281): PERST# or the loss of the link resets the endpoint alone, its vector table with it. -/
def execEndpointReset (t : Angle) (s : State) : Outcome :=
  have s := (s.tick t).bump Reg.PCIE_PERST
  have was := s.flag Reg.PCIE_STAT 31
  have s := { s.setReg Reg.PCIE_STAT 0 with msixMasked := [], msixPending := [] }
  .next (if was then s.raise 0x53 0 else s)

/-- PCIE_LINK_UP (R281): the link trains at a generation and a width. -/
def execPcieLinkUp (t : Angle) (gen : Fin 4) (width : Fin 3) (s : State) : Outcome :=
  have s := s.tick t
  .next (
    if s.flag Reg.PCIE_STAT 31 ∨ s.pageOff 0x53 then s
    else (s.setReg Reg.PCIE_STAT (2 ^ 31 + gen.val * 2 ^ 16 + width.val * 2 ^ 8)).raise 0x53 0)

/-- The challenge of the service port is renewed after each response (Table 13.11). -/
def State.newSvcChal (s : State) : State :=
  have d := s.draw
  d.2.setReg64 Reg.SVC_CHAL1 Reg.SVC_CHAL0 (d.1 % 2 ^ 64)

/-- The response that unlocks the service port (R285, R296): the first 16 octets of the presence proof of slot 4 over SVC_CHAL. -/
def State.svcProof (s : State) : Nat :=
  (Config.presence (s.slot 4).key (s.reg64 Reg.SVC_CHAL1 Reg.SVC_CHAL0)).toNat / 2 ^ 128
def effSvcResp3 (v : Word) (s : State) : WriteResult :=
  have resp := ((s.reg Reg.SVC_RESP0 * 2 ^ 32 + s.reg Reg.SVC_RESP1) * 2 ^ 32 + s.reg Reg.SVC_RESP2) * 2 ^ 32 + v.toNat
  have ok := s.hashRuns && s.secretOpen 4 && resp == s.svcProof
  have s := s.newSvcChal
  .done (if ok then { s.setFlag Reg.SVC_STAT 0 true with svcLast := s.cycle }.raise 0x54 1 else s)

/-- SVC_UNLOCK (R285): the write of RESP3 checks the response. -/
def execSvcUnlock (t : Angle) (p : Path) (v : Word) (s : State) : Outcome :=
  .next ((s.tick t).hostWrite p 0x54 0x064 (effSvcResp3 v))

/-- SVC_UNLOCK_EXPIRY (R285): UNLOCK_CYC cycles without an access of the service port. -/
def execSvcUnlockExpiry (t : Angle) (s : State) : Outcome :=
  have s := s.tick t
  .next (if s.flag Reg.SVC_STAT 0 ∧ s.svcLast + s.fld Reg.SVC_UNLOCK 15 0 ≤ s.cycle then s.setFlag Reg.SVC_STAT 0 false else s)

end Sys2Proof.Machine
end

