-- ==== Sys2Proof/Machine/Power.lean ====
section
/-!
DEFINITION. Supply, power states and wake (spec/17_power_domains.md): the supply monitor, the power-fail warning and the
shutdown commit (R245, R342 to R345), the domains' states and wakes (R346 to R355), clocks and thermal levels.
-/

namespace Sys2Proof.Machine

/-- The usable reserve in mJ at a bank voltage in 10 mV (R343): ETA in 1/256, C_MEAS in µF. -/
def State.reserveAt (s : State) (v : Nat) : Nat :=
  if v ≤ s.fac.vMin then 0
  else s.fac.eta * s.fld Reg.PWR_BANKCAL 15 0 * (v * v - s.fac.vMin * s.fac.vMin) / (512 * 10000000)

/-- The ENERGY condition of the power-fail warning (R342). -/
def State.energyLow (s : State) : Bool :=
  decide (s.fld Reg.SLALOM_E_USABLE 15 0 < s.fac.eFix + ceilDiv (s.reg Reg.SLALOM_E_UNC) 4096 + max 50 (s.fld Reg.SLALOM_E_GUARD 15 0) / 2)

/-- SUPPLY_MEASURE (R343, R47, R45): the bank voltage in 10 mV and the two inputs in 0.1 V at a quarter-cycle angle. The readings of the
cover queue are tested again. -/
def execSupplyMeasure (t : Angle) (v vin1 vin2 : BitVec 16) (s : State) : Outcome :=
  have s := s.tick t
  have e := min (s.reserveAt v.toNat) 65535
  have s := (s.setFld Reg.PWR_PWRSTAT 15 0 v.toNat).setReg Reg.PWR_INPUT (vin2.toNat * 65536 + vin1.toNat)
  have s := s.setFld Reg.SLALOM_E_USABLE 15 0 e
  have s := s.setUnc (s.reg Reg.SLALOM_E_UNC)
  have hold := decide (e < s.fac.eFix + max 50 (s.fld Reg.SLALOM_E_GUARD 15 0))
  have s := if hold && !s.flag Reg.SLALOM_STATUS 30 then s.raise 0x05 2 else s
  have s := s.setFlag Reg.SLALOM_STATUS 30 hold
  have s := (s.sample 0x15 e).sample 0x16 (s.reg Reg.SLALOM_E_UNC / 4096 : Nat)
  .next s.drainMirror.drainCover.pumpAll

/-- SUPPLY_PHASE_MOVE (R341): the supply moves to the other of L1 and L2. -/
def execSupplyPhaseMove (t : Angle) (s : State) : Outcome :=
  have s := s.tick t
  .next ((s.setFld Reg.PWR_PWRSTAT 25 24 (if s.fld Reg.PWR_PWRSTAT 25 24 = 1 then 2 else 1)).raise 0x02 1)

/-- The domains that the variant lacks (Table 0.3). -/
def domainAbsent (v : Variant) (d : Nat) : Bool :=
  match v with
  | .f => false
  | .s => d == 14 || d == 15
  | .n => decide (16 ≤ d) && decide (d ≤ 19)
  | .h => decide (11 ≤ d) && decide (d ≤ 19)

/-- The pages of a domain (Table 17.3). -/
def domainPages (d : Nat) : List Nat := definedPages.filter (fun p => pageDomain p == d)

/-- The resources of a domain's units (Tables 2.12 and 17.3), and the reason of their loss (Table 2.4). -/
def domainUnits (d : Nat) : List Nat :=
  if d = 7 then (List.range 8).map (0x10 + ·)
  else if d = 8 then (List.range 8).map (0x18 + ·)
  else if d = 10 then (List.range 4).map (0x20 + ·)
  else if 11 ≤ d ∧ d ≤ 13 then [2 * (d - 11), 2 * (d - 11) + 1]
  else if d = 14 then [8] else if d = 15 then [9]
  else if 16 ≤ d ∧ d ≤ 19 then [0x0C + (d - 16)]
  else if d = 20 then [0x30, 0x31] else if d = 21 then [0x32] else []
def domainReason (d : Nat) : Nat := if d = 2 ∨ d = 3 then 0x13 else if 6 ≤ d ∧ d ≤ 10 then 0x11 else 0x10

/-- A unit is lost with what runs on it. -/
def State.loseUnit (s : State) (reason r : Nat) : State :=
  if 0x10 ≤ r ∧ r ≤ 0x1F then s.laneGone (r - 0x10)
  else if 0x0C ≤ r ∧ r ≤ 0x0F then (s.sourceOff (r - 0x0C) s.offState).loseRes r reason
  else if 0x30 = r ∨ 0x31 = r then ((s.setReg (Reg.ETH_STAT (r - 0x30)) 0)).loseRes r reason
  else (s.endExchange r).loseRes r reason
def State.regainUnit (s : State) (r : Nat) : State :=
  have s := if 0x10 ≤ r ∧ r ≤ 0x1F then s.setLaneRec (r - 0x10) { s.laneRec (r - 0x10) with lost := false } else s
  if (s.slalom.lost.find r).isSome then s.regainRes r else s

/-- The units of a domain count as lost, and Slalom recomputes (R354, R355). A domain without power keeps nothing: Lift memory and
running crypto jobs are gone, a link is down, a download from the card has ended; without control cores the cycle is no healthy one (R399). -/
def State.loseDomain (s : State) (d : Nat) : State :=
  have s := (domainUnits d).foldl (fun (s : State) r => s.loseUnit (domainReason d) r) s
  have s := if d = 6 then s.liftOff
    else if d = 10 then { s with crypto := { s.crypto with engines := s.crypto.engines.mapVals (fun _ e => { e with running := [], held := none }) } }
    else if d = 3 then { s with upd := { s.upd with unhealthy := true } }
    else if d = 21 then s.setReg Reg.PCIE_STAT 0
    else if d = 22 then s.setFlag Reg.PAIRS_STAT 23 false
    else if d = 23 then s.endCard else s
  if (domainUnits d).isEmpty ∧ (d = 2 ∨ d = 3 ∨ d = 6) then s.recomputeOn (domainReason d) (if d = 2 ∨ d = 3 then [0x38] else []) else s
def State.regainDomain (s : State) (d : Nat) : State :=
  have s := (domainUnits d).foldl State.regainUnit s
  if d = 3 then s.recomputeOn 0x13 [0x38] else s

/-- Registers that show what stands outside their block, in VIGIL, Keeper NV, the store, a link or the tables: a BLOCK reset clears none
of them (log 45). -/
def shownKeys : List Nat :=
  [ Reg.SYS_BOOTSTAT, Reg.SYS_RSTCAUSE, Reg.SYS_ALERT_SRC, Reg.SYS_ERR_WR, Reg.PWR_PWRSTAT, Reg.PWR_BANKCAL, Reg.PWR_INPUT, Reg.PWR_DOM_STAT,
    Reg.PWR_CELL, Reg.SWEEP_LOCKSTAT, Reg.SWEEP_PERIOD, Reg.SWEEP_FREQ, Reg.SWEEP_PHOFS, Reg.SWEEP_OUT_EST, Reg.SWEEP_OUT_VIG,
    Reg.SWEEP_CIVSTAT, Reg.SWEEP_ZVALID_LO, Reg.SWEEP_ZVALID_HI, Reg.SLALOM_STATUS, Reg.SLALOM_CAL_HWM, Reg.SLALOM_CLS0, Reg.SLALOM_CLS1,
    Reg.SLALOM_CLS2, Reg.SLALOM_CLS3, Reg.SLALOM_CLS4, Reg.SLALOM_E_USABLE, Reg.SLALOM_E_UNC, Reg.SLALOM_E_HEAD, Reg.SLALOM_COVER,
    Reg.SLALOM_OUT_WR, Reg.PTP_STAT ]
  ++ [ Reg.TAMP_TP_STAT, Reg.TAMP_LOG_WR, Reg.TAMP_LOG_OVF, Reg.TAMP_OPHRS, Reg.TAMP_PWRCYC, Reg.CRED_AC_STAT, Reg.BAL_STAT,
    Reg.BAL_AL_WR, Reg.BALG_GSTAT, Reg.LEDG_STAT, Reg.LEDG_CSN_LO, Reg.LEDG_CSN_HI, Reg.LEDG_RSN_LO, Reg.LEDG_RSN_HI, Reg.LEDG_CMT_AT_LO,
    Reg.LEDG_CMT_AT_HI, Reg.LEDG_ARCH_LO, Reg.LEDG_ARCH_HI, Reg.LEDG_RING_REL_LO, Reg.LEDG_RING_REL_HI, Reg.LEDG_LOSS_CNT,
    Reg.LEDG_LOSS_FIRST_LO, Reg.LEDG_LOSS_FIRST_HI, Reg.LEDG_LOSS_N, Reg.NAND_REBUILD, Reg.GROOM_PASS_POS, Reg.GROOM_PASS_TOT,
    Reg.GROOM_PASS_CNT, Reg.GROOM_PASS_END_LO, Reg.GROOM_PASS_END_HI, Reg.KEEP_SESS, Reg.MERK_BNUM_LO, Reg.MERK_BNUM_HI ]
  ++ (List.range 4).map Reg.CRED_IL_STAT ++ (List.range 16).map (Reg.MERK_ROOT0 + 4 * ·)
  ++ [ Reg.BIST_STAT, Reg.BIST_BLK_STAT, Reg.BIST_SIG_LO, Reg.BIST_SIG_HI, Reg.BIST_FAIL_AT_LO, Reg.BIST_FAIL_AT_HI, Reg.LOGB_STAT, Reg.LOGB_ENT_SEQ,
    Reg.UPD_STAT, Reg.UPD_PROG, Reg.UPD_HEALTHY, Reg.UPD_TRIAL_LEFT, Reg.UPD_W_LO, Reg.UPD_W_HI, Reg.PAIRS_STAT, Reg.PAIRS_HOLD_LEFT,
    Reg.PAIRS_LAG, Reg.PAIRS_SYNC_LEFT, Reg.PAIRS_LASTSW, Reg.PAIRS_SW_AT_LO, Reg.PAIRS_SW_AT_HI, Reg.PAIRS_TWIN_SER0, Reg.PAIRS_TWIN_SER1,
    Reg.PAIRS_TWIN_SER2, Reg.PAIRS_TWIN_SER3, Reg.PAIRS_TWIN_UNITS, Reg.ETH_STAT 0, Reg.ETH_STAT 1, Reg.FEED_PEER_STAT,
    Reg.FEED_PEER_EPOCH, Reg.FEED_PEER_ACKRSN_LO, Reg.FEED_PEER_ACKRSN_HI, Reg.FEED_PEER_D, Reg.PCIE_STAT, Reg.SVC_CHAL0, Reg.SVC_CHAL1,
    Reg.SDC_STAT, Reg.SDC_FILE_N, Reg.THERM_TNOW, Reg.THERM_TSTAT, Reg.CRY_ALM_CNT 0, Reg.CRY_ALM_CNT 1 ]

/-- What a register holds after a BLOCK reset of its page (R365): its reset value, but for RWL fields under a set CFG_LOCK and the lock
itself, unless the locks clear too; IFSEL stays under its LOCK (R421). -/
def State.blockWord (s : State) (locks : Bool) (k w : Nat) : Nat :=
  have base := k % 0x1000000
  have page := base / 0x1000
  have off := base % 0x1000
  if shownKeys.contains base then w
  else if off = 0x008 then (if locks then regReset k else w)
  else match findSpec page off with
    | none => regReset k
    | some r =>
      have lock := if lockOffset page = some off then 2 ^ 31 else 0
      have keep := if s.locked page && !locks then r.rwl ||| lock else 0
      (w &&& keep) ||| (regReset k &&& (0xFFFFFFFF ^^^ keep))

/-- The registers of some pages after their BLOCK reset. -/
def State.blockRegs (s : State) (locks : Bool) (pages : List Nat) : State :=
  { s with regs := s.regs.filterMap (fun (x : Nat × Word) =>
    if pages.contains (x.1 % 0x1000000 / 0x1000) then
      (have w := s.blockWord locks x.1 x.2.toNat
       if w = regReset x.1 then none else some (x.1, BitVec.ofNat 32 w))
    else some x) }

/-- What a block holds beside its registers, after its BLOCK reset: an exchange or a source ends, the queues of a Lift page and the ring
of an FCA lane are empty (packets of MEDIA and FEED that wait are with their producers, which offer them again), an engine holds no job and no key, the timestamp queue and the triggers are empty, a freeze of the
Logbook ends, which stores the held entries, and its cursors return (R389, R391). -/
def State.blockRest (s : State) (page : Nat) : State :=
  if 0x08 ≤ page ∧ page ≤ 0x0D then s.endExchange (page - 0x08)
  else if page = 0x10 ∨ page = 0x11 then s.endExchange (8 + (page - 0x10))
  else if 0x14 ≤ page ∧ page ≤ 0x17 then s.sourceOff (page - 0x14) s.offState
  else if 0x18 ≤ page ∧ page ≤ 0x1B then
    have back := (s.lift.queues.filter (fun x => x.1 / 8 = page - 0x18)).flatMap (fun x =>
      (x.2.waiting.filter (fun pk => pk.src != 2)).map (fun pk => (⟨x.1, pk.src == 1, pk⟩ : LiftOffer)))
    { s with lift := { s.lift with
      offers := back ++ s.lift.offers
      queues := s.lift.queues.mapVals (fun q x => if q / 8 = page - 0x18 then {} else x) } }
  else if 0x20 ≤ page ∧ page ≤ 0x2F then
    s.setLaneRec (page - 0x20) { lost := (s.laneRec (page - 0x20)).lost }
  else if 0x41 ≤ page ∧ page ≤ 0x44 then
    { s with crypto := { s.crypto with engines := s.crypto.engines.modify (page - 0x41) (fun e => { lost := e.lost }) } }
  else if page = 0x06 then { s with ptp := { adj := s.ptp.adj } }
  else if page = 0x49 then
    have held := s.log.hold
    have s := held.foldl State.logStore (((s.setFlag Reg.LOGB_STAT 31 false).setFld Reg.LOGB_STAT 22 16 0).dropHold)
    { s with log := { s.log with
      cursors := []
      instruments := s.log.instruments.mapVals (fun i x =>
        have r := instrumentReset i
        { x with
          lo := r.1
          width := r.2 }) } }
  else s

/-- The resource of a page's unit. -/
def pageUnit (page : Nat) : Option Nat :=
  ((List.range 0x38).filter resourceNamed).find? (fun r => resourcePage r == page && r != 0x28)

/-- The pages of a domain that returns from OFF start from their reset values, locks included (R354, R365); their causes are clear, so
their lines follow (R425). -/
def State.domainReset (s : State) (d : Nat) : State :=
  have pages := domainPages d
  pages.foldl State.updateLines (pages.foldl State.blockRest (s.blockRegs true pages))

/-- A domain returns to RUN from OFF (R354): the wake is counted, its blocks start from their reset values, its units are regained. -/
def State.domainOn (s : State) (d : Nat) : State :=
  if s.dom d ≠ 3 then s
  else (((((s.setDom d 0).setFld (domKey d) 28 27 0).touch d).bump (bankKey d Reg.PWR_DOM_WAKES)).domainReset d).regainDomain d

/-- DOM_CMD (R354): 1 ON, 2 OFF, for the domain that DOM_SEL names. -/
def effDomCmd (v : Word) (s : State) : WriteResult :=
  have d := s.fld Reg.PWR_DOM_SEL 4 0
  have cmd := v.toNat % 4
  if cmd = 0 ∨ cmd = 3 then .ignored s
  else if !(mayOff d) then .discard s 0x11
  else if domainAbsent s.fac.variant d then .done s
  else if cmd = 1 then .done (s.domainOn d)
  else if s.dom d = 3 ∨ s.dom d = 4 then .done s
  else .done ((s.setDom d 3).loseDomain d)
def execDomainOff (t : Angle) (p : Path) (s : State) : Outcome := .next ((s.tick t).hostWrite p 0x02 0x068 (effDomCmd 2))
def execDomainOn (t : Angle) (p : Path) (s : State) : Outcome := .next ((s.tick t).hostWrite p 0x02 0x068 (effDomCmd 1))

/-- Admitted work on the units of a domain that must start within 2 cycles to meet its deadline (R349, Table 17.4 ID 0x01). -/
def State.workSoon (s : State) (d : Nat) : Bool :=
  (domainUnits d).any (fun r => s.slalom.calendar.any (fun x =>
    x.2.work r != 0 && decide (x.2.deadline ≤ s.now + 131072 + x.2.work r)))

/-- A retransmission of a KFP record or a keepalive falls due within 2 cycles (R269, Table 17.4 ID 0x09). -/
def State.kfpSoon (s : State) : Bool :=
  have span := 2 * s.sweep.period
  s.sessions.any (fun x =>
    x.2.unacked.any (fun u => decide (u.sentAt + s.rto u.retx ≤ s.uptime + span)) ||
    (if x.2.isOpen then decide (x.2.lastTx + s.kaCyc ≤ s.cycle + 2)
     else x.2.sent.1 != 0 && decide (x.2.sentAt + s.rto x.2.retx ≤ s.uptime + span)))

/-- A beacon hold, a search window or a pilot window of a domain's lanes lies within the next 2 cycles (Table 17.4 ID 0x0D). -/
def State.windowSoon (s : State) (d : Nat) : Bool :=
  (domainUnits d).any (fun r =>
    (if r ≤ 5 then s.lineReady r else if r = 8 ∨ r = 9 then s.airReady (r - 8) else false) &&
      s.heldTicks r s.now (s.now + 131072) != 0) ||
    (s.pilotOn && s.plan != 0 && d == 10 + s.pilotPhase)

/-- Refusers of an entry that the state shows (Table 17.4). -/
def State.ownRefusers (s : State) (d : Nat) : List Nat :=
  (if s.workSoon d then [0x01] else []) ++
  (if d = 6 ∧ s.lift.queues.any (fun x => !x.2.isEmpty) then [0x04] else []) ++
  (if (d = 7 ∨ d = 8) ∧ (List.range 8).any (fun i => s.stagedOn (8 * (d - 7) + i) != 0) then [0x05] else []) ++
  (if d = 10 ∧ (List.range 4).any (fun e => !(s.engine e).running.isEmpty || s.jrRd e != s.jrWr e) then [0x06] else []) ++
  (if d = 5 ∧ !s.led.groups.isEmpty then [0x07] else []) ++
  (if d = 20 ∧ s.kfpSoon then [0x09] else []) ++
  (if d = 20 ∧ s.fld Reg.PTP_STAT 31 29 ≠ 0 then [0x0A] else []) ++
  (if d = 22 ∧ s.paired then [0x0B] else []) ++
  (if 16 ≤ d ∧ d ≤ 19 ∧ s.loopState (d - 16) = 3 then [0x0C] else []) ++
  (if s.windowSoon d then [0x0D] else []) ++
  (if d = 23 ∧ s.upd.hover.isSome then [0x0F] else []) ++
  (if s.flag (bankKey d Reg.PWR_DOM_CFG) 0 then [0xFF] else [])

/-- The first refuser of an entry in ascending ID order (R350): those of the state and those that the world shows. -/
def State.firstRefuser (s : State) (d : Nat) (world : List (BitVec 8)) : Option Nat :=
  (s.ownRefusers d ++ world.map BitVec.toNat).foldl (fun (m : Option Nat) i =>
    match m with | none => some i | some k => some (min i k)) none

/-- An entry of a domain into DOZE or RETAIN (R348, R350): refused, aborted by a wake that arrives during it, or made. -/
def State.enter (s : State) (d mode : Nat) (world : List (BitVec 8)) (abort : Option (BitVec 8)) : State :=
  match s.firstRefuser d world with
  | some id => s.refusal id d false
  | none =>
    match abort with
    | some id => ((s.refusal id.toNat d true).setDom d 0).touch d
    | none => s.setDom d mode

/-- The idle timer of a domain (R348): the largest IDLE_CYC of its pages; none where a page holds it out of DOZE. -/
def State.idleTimer (s : State) (d : Nat) : Option Nat :=
  have ts := (domainPages d).map (fun p => s.fld (p * 0x1000 + 0x024) 15 0)
  if ts.isEmpty ∨ ts.contains 0 then none else some (ts.foldl max 0)

/-- DOMAIN_DOZE (R348). -/
def execDomainDoze (t : Angle) (d : BitVec 5) (refusers : List (BitVec 8)) (abort : Option (BitVec 8)) (s : State) : Outcome :=
  have s := s.tick t
  have n := d.toNat
  match s.idleTimer n with
  | some timer =>
    if mayDoze n && s.dom n == 0 && decide (timer ≤ s.fld (domKey n) 15 0) && !domainAbsent s.fac.variant n then
      .next (s.enter n 1 refusers abort)
    else .next s
  | none => .next s

/-- A wake source is enabled for a domain: on one of its pages (R351). -/
def State.wakeEnabled (s : State) (d bit' : Nat) : Bool := (domainPages d).any (fun p => s.flag (p * 0x1000 + 0x024) bit')

/-- The domain of a lane holds its receive front end in DOZE where its preamble source is enabled on any page (R351). -/
def State.keepsFrontEnd (s : State) (d : Nat) : Bool :=
  (decide (11 ≤ d) && decide (d ≤ 13) && definedPages.any (fun p => s.flag (p * 0x1000 + 0x024) 25)) ||
    ((d == 14 || d == 15) && definedPages.any (fun p => s.flag (p * 0x1000 + 0x024) 26))

/-- DOMAIN_RETAIN (R348): after RET_CYC cycles in DOZE, where every page permits it. -/
def execDomainRetain (t : Angle) (d : BitVec 5) (refusers : List (BitVec 8)) (abort : Option (BitVec 8)) (s : State) : Outcome :=
  have s := s.tick t
  have n := d.toNat
  have pages := domainPages n
  have wait := (pages.map (fun p => max 1 (s.fld (p * 0x1000 + 0x024) 23 16))).foldl max 1
  if mayRetain n && s.dom n == 1 && pages.all (fun p => s.flag (p * 0x1000 + 0x024) 31) && !s.keepsFrontEnd n &&
      decide (wait ≤ s.idleRetain.getD n 0) then
    .next (s.enter n 2 refusers abort)
  else .next s

/-- PRE_WAKE (R349): admitted work on a sleeping domain begins in the next cycle. -/
def execPreWake (t : Angle) (d : BitVec 5) (s : State) : Outcome :=
  have s := s.tick t
  if s.dom d.toNat = 5 then .next (((s.setDom d.toNat 0).refusal 0x27 d.toNat true).touch d.toNat) else .next (s.wake d.toNat)

/-- A frame wakes (Table 17.5): the 16 octets at WPOFS equal WAKEPAT wherever WAKEMASK is 1; bits 31:24 of each word come first on the
wire (log 70). -/
def State.wakeMatch (s : State) (frame : List Byte) : Bool :=
  have ofs := s.fld Reg.PWR_WPOFS 10 0
  decide (ofs + 16 ≤ frame.length) && (List.range 4).all (fun i =>
    have w := ofBe ((frame.drop (ofs + 4 * i)).take 4)
    have m := s.reg (Reg.PWR_WAKEMASK0 + 4 * i)
    (w &&& m) == (s.reg (Reg.PWR_WAKEPAT0 + 4 * i) &&& m))

/-- WAKE_SOURCE (R351, Table 17.5): source 24 + src; `lane` is the lane of a preamble, heard only where its domain runs or dozes, and
`frame` the frame that arrives, which wakes only where it matches. The service-port address acts in every state of domain 24 and raises
WAKE. -/
def execWakeSource (t : Angle) (src lane : Fin 6) (frame : List Byte) (s : State) : Outcome :=
  have s := s.tick t
  have heard := fun (d : Nat) => s.dom d == 0 || s.dom d == 1 || s.dom d == 5
  have acts := if src.val = 1 then heard (11 + lane.val / 2) else if src.val = 2 then heard (14 + lane.val % 2)
    else if src.val = 3 then s.wakeMatch frame else true
  if !acts then .next s
  else
    have s := (List.range 25).foldl (fun (s : State) d =>
      if !(s.wakeEnabled d (24 + src.val)) then s
      else if s.dom d = 5 then ((s.setDom d 0).refusal (0x20 + src.val) d true).touch d
      else if s.dom d = 1 ∨ s.dom d = 2 then s.wake d else s) s
    .next (if src.val = 5 then s.raise 0x54 0 else s)

/-- WAKE_ACCESS_TIMEOUT (R352): an access to a domain that has not reached RUN after 60 µs completes as to an OFF domain, with the cause
"wake"; a read answers 0. The wake goes on. -/
def execWakeAccessTimeout (t : Angle) (p : Path) (page : BitVec 8) (off : BitVec 12) (write : Bool) (s : State) : Outcome :=
  have s := s.tick t
  have d := pageDomain page.toNat
  if s.dom d = 0 ∨ s.dom d = 3 ∨ s.dom d = 4 then .next s
  else
    have s := (s.setDom d 6).offAccess p page.toNat off.toNat 0x03
    .next (if write then s else s.send (.word p 0))

/-- A domain is FAILED (R355). -/
def State.failDomain (s : State) (d : Nat) : State :=
  if s.dom d = 4 ∨ domainAbsent s.fac.variant d then s
  else
    have s := (s.setDom d 4).loseDomain d
    have s := s.logEntry 3 0x02 0x0001 (d + s.fld (domKey d) 28 27 * 2 ^ 32)
    (s.raiseAlert 0x02 3).reportFailure

/-- WAKE_FAIL (R355): a supervised wake of a domain misses a deadline; it is retried once, and a second failure puts the domain in
FAILED. -/
def execWakeFail (t : Angle) (d : BitVec 5) (s : State) : Outcome :=
  have s := s.tick t
  have n := d.toNat
  if s.dom n = 0 ∨ s.dom n = 1 ∨ s.dom n = 4 ∨ 25 ≤ n then .next s
  else if s.dom n = 6 ∧ 1 ≤ s.fld (domKey n) 28 27 then .next ((s.setFld (domKey n) 28 27 2).failDomain n)
  else .next (((s.setDom n 6).setFld (domKey n) 28 27 1).logEntry 1 0x02 0x0004 n)

/-- The power domains that a clock serves (Table 23.8): those whose blocks it clocks. -/
def clockDomains (cd : Nat) : List Nat :=
  if cd = 0 then [0] else if cd = 1 then [] else if cd = 2 then [2, 3]
  else if cd = 3 then [] else if cd = 4 then [4] else if cd = 5 then [6, 7, 8] else if cd = 6 then [10]
  else if cd = 7 then [5, 6, 23] else if cd = 8 then [11, 12, 13] else if cd = 9 then [14, 15] else if cd = 10 then [20]
  else if cd = 12 then [16, 17, 18, 19] else if cd = 13 then [21, 22] else []

/-- CLOCK_FAIL (R355, Table 17.9): a clock is marked FAIL; CD11 is exempt. The domains that it clocks are FAILED. -/
def execClockFail (t : Angle) (cd : Fin 14) (s : State) : Outcome :=
  have s := s.tick t
  if cd.val = 11 ∨ s.clocks.getD cd.val 0 = 1 then .next s
  else
    have s := ({ s with clocks := s.clocks.put cd.val 1 }.raiseAlert 0x01 0)
    .next ((clockDomains cd.val).foldl State.failDomain s)

/-- Baseplate or die are at the CRIT level of Table 17.6, in °C + 40. -/
def critical (base die : Nat) : Bool := decide (145 ≤ base) || decide (165 ≤ die)

/-- The uptime from which the temperatures measured have stood at the CRIT level, a measurement included, and whether that is 1 s (R358, R12). -/
def State.critFrom (s : State) (base die : Nat) : Option Nat :=
  if critical base die then some (s.boot.critSince.getD s.uptime) else none
def State.critHeld (s : State) (base die : Nat) : Bool :=
  match s.critFrom base die with
  | some at' => decide (at' + 8000000000 ≤ s.uptime)
  | none => false

/-- The thermal level after a measurement, in °C + 40; a level is left at 5 °C below its entry value (R358), and CRIT only once it has held for 1 s. -/
def State.thermalLevel (s : State) (base die : Nat) (held : Bool) : Nat :=
  have warn := clampNat 70 100 (s.fld Reg.THERM_TCFG 7 0) + 40
  have now := s.fld Reg.THERM_TSTAT 1 0
  have at' := fun (b d : Nat) (below : Bool) => have h := if below then 4 else 0
    decide (b ≤ base + h) || decide (d ≤ die + h)
  if now = 3 then 3
  else if held && critical base die then 3
  else if at' 140 155 (now == 2) then 2
  else if decide (warn ≤ base + (if 1 ≤ now then 4 else 0)) then 1
  else 0

/-- THERMAL_LEVEL (R358): the three temperatures in °C + 40; a level entered raises its cause and is logged. -/
def execThermalLevel (t : Angle) (base die bank : BitVec 8) (s : State) : Outcome :=
  have s := s.tick t
  have held := s.critHeld base.toNat die.toNat
  have s := { s with boot := { s.boot with critSince := s.critFrom base.toNat die.toNat } }
  have old := s.fld Reg.THERM_TSTAT 1 0
  have s := s.setReg Reg.THERM_TNOW (bank.toNat * 65536 + die.toNat * 256 + base.toNat)
  have m := fun (hi lo v : Nat) => max v (s.fld Reg.THERM_TMAX hi lo)
  have s := s.setReg Reg.THERM_TMAX (m 23 16 bank.toNat * 65536 + m 15 8 die.toNat * 256 + m 7 0 base.toNat)
  have new := s.thermalLevel base.toNat die.toNat held
  have s := s.setFld Reg.THERM_TSTAT 1 0 new
  have s := if old ≤ 1 then s else if 1 < new then s
    else ((List.range 4).foldl (fun (s : State) e => s.startJobs e 3) s).pumpAll
  .next ((List.range 3).foldl (fun (s : State) i =>
    if old < i + 1 ∧ i + 1 ≤ new then
      (s.raise 0x58 i).logEntry (if i = 2 then 3 else 2) 0x58 0x0003 ((i + 1) + (if i = 0 then base.toNat else max base.toNat die.toNat) * 2 ^ 32)
    else s) s)

/-- The bins of the air budgets in the SHUTDOWN record (Table 12.17): oldest first, ending with the bin of the warning. -/
def State.airBins (s : State) (key n : Nat) : List Byte :=
  have l := s.field.bins.getD key []
  (List.range n).flatMap (fun i =>
    have ms := (l.filter (fun b => b.sec + n == s.second + 1 + i)).foldl (fun a b => a + b.ms) 0
    leBytes 2 (min 65535 ms))

/-- A section of the SHUTDOWN record. -/
def shutSection (type : Nat) (body : List Byte) : List Byte := leBytes 2 type ++ zeros 2 ++ leBytes 4 body.length ++ body

/-- The receive counters of the session table, those of nodes and of KFP sessions, wrapped under slot 5 (RFC 3394, log 3). DESIGN
CHOICE (log 102): a KFP session has index 0x2000 plus its number modulo 0x2000. -/
def State.rxCounters (s : State) : List Byte :=
  have used := s.field.nodes.filter (fun x => x.2.session)
  have body := used.flatMap (fun x => leBytes 2 x.1 ++ zeros 6 ++ leBytes 8 (x.2.fcnt.getD 0)) ++
    s.sessions.flatMap (fun x => leBytes 2 (0x2000 + x.1 % 0x2000) ++ zeros 6 ++ leBytes 8 (x.2.rxTop - 1))
  fixLen (body.length + 8) (Config.std 0x08 (s.slot 5).key [body])

/-- The SHUTDOWN record (Table 12.17). -/
def State.shutdownRecord (s : State) : List Byte :=
  have eu := if s.region = 1 then [shutSection 1 ((List.range 6).flatMap (fun b => s.airBins b 3600))] else []
  have us := if s.region = 2 then
      [shutSection 2 ((List.range (channelCount 2 (s.airRate 0))).flatMap (fun c =>
        s.airBins (gridKey (s.airRate 0) c) (budgetWindow (gridKey (s.airRate 0) c))))]
    else []
  have sections := eu ++ us ++ [shutSection 3 s.rxCounters]
  leBytes 4 0x4B534844 ++ leBytes 2 1 ++ leBytes 2 sections.length ++ leBytes 8 (s.cycle - 1) ++
    leBytes 4 ((s.entry (s.cycle - 1)).getD 0) ++ leBytes 4 (s.fld Reg.PWR_PWRSTAT 31 29) ++ leBytes 8 s.now ++
    leBytes 8 s.led.nextRsn ++ sections.flatten

/-- PF_STOP stands, and a handover under way ends (R245). -/
def State.stopWriting (s : State) : State := (s.setFlag Reg.SLALOM_STATUS 29 true).abortHandover
/-- The open group of a shutdown, with the SHUTDOWN record as its last one (R245, Table 12.17). -/
def State.shutdownOpen (s : State) : State :=
  have s := s.closeSegment 1
  have s := { s with
    led := { s.led with
      ckptOpen := false
      victim := none
      groups := s.led.groups.map (fun (g : CommitGroup) => if bit 1 g.flags && decide (1 < g.stripes.length) then { g with flags := g.flags - 2 } else g) }
    sweep := { s.sweep with
      shutdown := some (s.cycle - 1, (s.entry (s.cycle - 1)).getD 0)
      discAtLast := s.ptpSlave
      capAtLast := s.sweep.startCap
      mappedAtLast := s.mapped } }
  s.journal 0x27 s.shutdownRecord
/-- The shutdown commit (R245): acceptance and admission stop, a handover and a checkpoint under way are abandoned, the open segment
closes, and the SHUTDOWN record and every charged record form the group. -/
def State.beginShutdown (s : State) : State :=
  have s := s.stopWriting
  if s.storeRuns then s.shutdownOpen.closeGroup 1 else s

/-- Every domain that the commit does not need turns off (R345): sources, transmitters and interlock drivers stop. -/
def State.shed (s : State) : State :=
  have ds := (List.range 25).filter (fun d => !commitDomain d && s.dom d != 3 && s.dom d != 4 && !domainAbsent s.fac.variant d)
  have s := { s with
    boot := { s.boot with shed := ds }
    interlock := { s.interlock with pulse := none, queue := [] } }
  ds.foldl (fun (s : State) d => (s.setDom d 3).loseDomain d) s

/-- The module stops in VIGIL (R345, R361): only D0 stays powered, and the sweep stands until the restart. -/
def State.enterVigil (s : State) : State :=
  have s := (List.range 24).foldl (fun (s : State) d => s.setDom (d + 1) 3) s
  { s.setFld Reg.SWEEP_LOCKSTAT 2 0 0 with boot := { s.boot with hold := 1 } }

/-- 0.75 cycle has passed since the last accepted crossing of the supply phase, or none has been accepted, or the sweep stands (R342,
Table 1.2). -/
def State.crossingOverdue (s : State) : Bool :=
  have p := s.fld Reg.PWR_PWRSTAT 25 24
  s.timebase == 0 || (match (s.phase p).accepted with
    | some (c, e) => decide ((((c * 65536 + s.predicted p : Nat) : Int) + e) + 49152 ≤ (s.now : Int))
    | none => true)

/-- The condition of a warning's cause (R342): 0 CROSSING, 1 ENERGY, 2 THERMAL. -/
def State.warns (s : State) (cause : Nat) : Bool :=
  if cause = 0 then s.crossingOverdue && decide (s.fld Reg.PWR_PWRSTAT 15 0 < clampNat 4500 4900 (s.fld Reg.PWR_BANKCFG 15 0))
  else if cause = 1 then s.energyLow
  else s.fld Reg.THERM_TSTAT 1 0 == 3

/-- PWR_FAIL_WARN (R342, R345, R361); a restart that was under way is a POWER reset then (Table 22.4). -/
def execPwrFailWarn (t : Angle) (cause : Fin 3) (s : State) : Outcome :=
  have s := s.tick t
  if !(s.warns cause.val) || s.fld Reg.PWR_PWRSTAT 31 29 != 0 || s.boot.hold == 1 || s.boot.hold == 2 then .next s
  else
    have s := (s.setFld Reg.PWR_PWRSTAT 31 29 (cause.val + 1)).raise 0x02 0
    if s.boot.kind.isSome then .next { s.shed with boot := { s.shed.boot with kind := none } }
    else if s.boot.done.contains 10 && s.storeRuns then .next s.shed.beginShutdown
    else if cause.val = 2 then .next { s.enterVigil with boot := { s.boot with hold := 2 } }
    else .next s.enterVigil

/-- VIGIL_ENTRY (R345): after PARKED the bank reaches V_MIN. -/
def execVigilEntry (t : Angle) (s : State) : Outcome :=
  have s := s.tick t
  .next (if s.fld Reg.LEDG_STAT 31 29 = 2 ∧ s.boot.hold = 0 ∧ s.boot.kind.isNone then s.enterVigil else s)

end Sys2Proof.Machine
end

