-- ==== Sys2Proof/Machine/Tamper.lean ====
section
/-!
DEFINITION. The tamper inputs and the tamper log in VIGIL memory (R230 to R232).
-/

namespace Sys2Proof.Machine

/-- The octets of a tamper log entry (Table 11.6). -/
def tamperBytes (e : TamperEntry) : List Byte :=
  leBytes 1 e.source ++ leBytes 1 e.bits ++ leBytes 6 e.vigil ++ leBytes 4 e.hours ++ leBytes 4 e.cycles ++ leBytes 8 (e.time.getD 0)

/-- An entry raises TAMPER and is written to the ledger (R230). -/
def State.tamperEvent (s : State) (e : TamperEntry) : State := (s.raise 0x35 0).journalEvent 0x04 0 (tamperBytes e)

/-- The module runs: from step 9 of the start-up until the power-fail warning or VIGIL (R230). -/
def State.runs (s : State) : Bool := s.boot.done.contains 9 && s.boot.hold == 0 && !s.pfStop
/-- The mains are lost: a warning found no crossing (R342), or the module stands in VIGIL. -/
def State.noMains (s : State) : Bool := s.boot.hold == 1 || s.fld Reg.PWR_PWRSTAT 31 29 == 1

/-- An entry takes the next place of the log (R231): the first 32 are kept, the other 32 form a ring. While the module does not run it
waits for its place in the ledger (R232). -/
def State.recordTamper (s : State) (source low vigil : Nat) : State :=
  have runs := s.runs
  have e : TamperEntry := {
    source := source
    bits := low + 2 * b2n s.noMains
    vigil := vigil % 2 ^ 48
    hours := s.hours
    cycles := s.powerCycles
    time := if s.timebase = 0 then none else some s.now
    logged := runs }
  have wr := s.fld Reg.TAMP_LOG_WR 5 0
  have s := if (s.tamper.find wr).isSome then s.bump Reg.TAMP_LOG_OVF else s
  have s := { s with tamper := s.tamper.put wr e }
  have s := s.setFld Reg.TAMP_LOG_WR 5 0 (if wr = 63 then 32 else wr + 1)
  if runs then s.tamperEvent e else s

/-- TAMPER_INPUT (R230): a debounced change of an input: 0 cover, 1 terminal cover, 2 auxiliary; an opening sets its LATCH bit. `vigil` is the
VIGIL counter. -/
def execTamperInput (t : Angle) (input : Fin 3) (opened : Bool) (vigil : BitVec 48) (s : State) : Outcome :=
  have s := s.tick t
  have s := s.setFlag Reg.TAMP_TP_STAT input.val opened
  have s := if opened then s.setFlag Reg.TAMP_TP_STAT (4 + input.val) true else s
  .next (s.recordTamper input.val (b2n opened) vigil.toNat)

/-- The VIGIL counter of an entry: as the command gives it, else free (log 2). -/
def State.vigilNow (s : State) (vigil : Option Nat) : Nat × State :=
  match vigil with
  | some v => (v, s)
  | none => s.draw

/-- TAMPER_LATCH_CLEAR (R230): a write of TP_STAT; each LATCH bit that it clears writes an entry (log 46). -/
def effTpStat (vigil : Option Nat) (v : Word) (s : State) : WriteResult :=
  have hit := (List.range 3).filter (fun i => bit (4 + i) v.toNat && s.flag Reg.TAMP_TP_STAT (4 + i))
  .done (hit.foldl (fun (s : State) i =>
    have d := s.vigilNow vigil
    (d.2.setFlag Reg.TAMP_TP_STAT (4 + i) false).recordTamper 3 0 d.1) s)
def execTamperLatchClear (t : Angle) (p : Path) (v : Word) (vigil : BitVec 48) (s : State) : Outcome :=
  .next ((s.tick t).hostWrite p 0x35 0x040 (effTpStat (some vigil.toNat) v))

/-- TAMPER_LOG_CLEAR (R231): the log is emptied, and the clear is its entry 0. -/
def effLogClr (vigil : Option Nat) (v : Word) (s : State) : WriteResult :=
  if !bit 0 v.toNat then .ignored s
  else
    have d := s.vigilNow vigil
    .done (({ d.2 with tamper := [] }.setFld Reg.TAMP_LOG_WR 5 0 0).recordTamper 3 0 d.1)
def execTamperLogClear (t : Angle) (p : Path) (v : Word) (vigil : BitVec 48) (s : State) : Outcome :=
  .next ((s.tick t).hostWrite p 0x35 0x05C (effLogClr (some vigil.toNat) v))

/-- LOG_D0 to LOG_D5: the entry at LOG_RD (Table 11.10). -/
def State.readTampLog (s : State) (i : Nat) : Nat :=
  match s.tamper.find (s.fld Reg.TAMP_LOG_RD 5 0) with
  | some e => leAt (tamperBytes e) (4 * i) 4
  | none => 0

/-- The slots of the log in log order. -/
def State.tamperOrder (s : State) : List Nat :=
  have wr := s.fld Reg.TAMP_LOG_WR 5 0
  if 32 ≤ wr ∧ (s.tamper.find wr).isSome then
    List.range 32 ++ ((List.range 64).filter (fun i => decide (wr ≤ i))) ++ ((List.range 64).filter (fun i => decide (32 ≤ i) && decide (i < wr)))
  else List.range 64

/-- The sweep time that an entry written without the sweep takes at the restart (R232). -/
def State.placeTamper (s : State) (e : TamperEntry) : Nat :=
  match s.sweep.outage with
  | none => 65536
  | some (first, gaps, dur) =>
    have src := s.fld Reg.SWEEP_OUT_EST 31 30
    have offset := (e.vigil + 2 ^ 48 - s.sweep.outFrom % 2 ^ 48) % 2 ^ 48
    have k := offset * 1953125 / (8 * max 1 dur)
    if (src = 0 ∨ src = 2) ∧ offset < s.reg Reg.SWEEP_OUT_VIG then min (first + k) (first + gaps) * 65536
    else (first + gaps) * 65536

/-- The entries that are not in the ledger yet are placed and logged, in log order (R232, R369). -/
def State.logTamper (s : State) : State :=
  s.tamperOrder.foldl (fun (s : State) i =>
    match s.tamper.find i with
    | none => s
    | some e =>
      if e.logged then s
      else
        have e := { e with
          time := some (e.time.getD (s.placeTamper e))
          logged := true }
        { s with tamper := s.tamper.put i e }.tamperEvent e) s

end Sys2Proof.Machine
end

