-- ==== Sys2Proof/Machine/Logbook.lean ====
section
/-!
DEFINITION. The host's side of the Logbook (spec/20_logbook.md): instrument configuration and clears (R387), freeze and release
(R389), the cursor (R390), host samples and notes, and the clear of everything (R392).
-/

namespace Sys2Proof.Machine

/-- The unit of an instrument is absent in the variant (R385). -/
def instrumentAbsent (v : Variant) (i : Nat) : Bool :=
  if i ≤ 0x05 then pageAbsent v (0x08 + i)
  else if i ≤ 0x07 then pageAbsent v (0x10 + (i - 0x06))
  else if i ≤ 0x0B then pageAbsent v (0x14 + (i - 0x08))
  else if 0x38 ≤ i ∧ i ≤ 0x3D then pageAbsent v 0x12
  else false

/-- The five words of an extreme (Table 20.4). -/
def extremeWords (e : Option Extreme) : List Nat :=
  match e with
  | some e => [ofSigned 32 e.value, e.hours, e.cycles, e.time % 2 ^ 32, e.time / 2 ^ 32]
  | none => [0, 0, 0, 0, 0]

/-- The 48 words of an instrument record (Table 20.4). -/
def State.instrumentWords (s : State) (i : Nat) : List Nat :=
  have x := s.instrument i
  have valid := instrumentKnown i && !(instrumentAbsent s.fac.variant i)
  [b2n valid * 2 ^ 31 + i, ofSigned 32 x.lo, x.width] ++ (List.range 32).map (fun b => x.bins.getD b 0) ++ extremeWords x.least ++
    extremeWords x.most ++ [x.count % 2 ^ 32, x.count / 2 ^ 32, 0]

/-- The octets of an instrument record, as a SYSDATA record holds them (Table 12.18). -/
def State.instrumentBytes (s : State) (i : Nat) : List Byte := (s.instrumentWords i).flatMap (leBytes 4)

/-- The 8 words of an entry slot (Table 20.2): zero where it has never held an entry. -/
def State.entryWords (s : State) (i : Nat) : List Nat :=
  match s.log.entries.find i with
  | some e => (List.range 8).map (fun k => leAt (logEntryBytes e) (4 * k) 4)
  | none => List.replicate 8 0

/-- LO and W of an instrument come into force: its bins and N are cleared, its extremes stay (R387). -/
def State.configInstrument (s : State) (i : Nat) : State :=
  have x := s.instrument i
  have lo := toSigned 32 (s.reg (bankKey i Reg.LOGB_I_LO))
  have w := max 1 (s.reg (bankKey i Reg.LOGB_I_W))
  { s with log := { s.log with instruments := s.log.instruments.put i { x with
    lo := lo
    width := w
    bins := []
    count := 0 } } }

/-- After a restart the instruments take the LO and W of the restored registers (R367, R391). -/
def State.syncInstruments (s : State) : State :=
  (List.range 256).foldl (fun (s : State) i =>
    have x := s.instrument i
    if instrumentKnown i && (x.lo != toSigned 32 (s.reg (bankKey i Reg.LOGB_I_LO)) || x.width != max 1 (s.reg (bankKey i Reg.LOGB_I_W))) then
      s.configInstrument i
    else s) s

/-- A write of I_LO is staged for the instrument in I_SEL; reserved instruments ignore it (R387). -/
def effILo (v : Word) (s : State) : WriteResult :=
  if !instrumentKnown (s.fld Reg.LOGB_I_SEL 7 0) then .ignored s else s.plainWrite 0x49 0x064 v

/-- INSTRUMENT_CONFIG (R387): a write of I_W. -/
def effIW (v : Word) (s : State) : WriteResult :=
  have i := s.fld Reg.LOGB_I_SEL 7 0
  if !instrumentKnown i then .ignored s
  else (s.plainWrite 0x49 0x068 v).andThen (fun s => s.configInstrument i)
def execInstrumentConfig (t : Angle) (p : Path) (v : Word) (s : State) : Outcome := .next ((s.tick t).hostWrite p 0x49 0x068 (effIW v))

/-- I_CMD (R387): bit 0 clears the bins and N, bit 1 the extremes. -/
def effICmd (v : Word) (s : State) : WriteResult :=
  have i := s.fld Reg.LOGB_I_SEL 7 0
  have cmd := v.toNat % 4
  if cmd = 0 ∨ !instrumentKnown i then .ignored s
  else
    have x := s.instrument i
    have x := if bit 0 cmd then { x with
        bins := []
        count := 0 } else x
    have x := if bit 1 cmd then { x with
        least := none
        most := none } else x
    .done { s with log := { s.log with instruments := s.log.instruments.put i x } }
def execInstrumentClearBins (t : Angle) (p : Path) (s : State) : Outcome := .next ((s.tick t).hostWrite p 0x49 0x06C (effICmd 1))
def execInstrumentClearExtremes (t : Angle) (p : Path) (s : State) : Outcome := .next ((s.tick t).hostWrite p 0x49 0x06C (effICmd 2))
def execInstrumentClearBoth (t : Angle) (p : Path) (s : State) : Outcome := .next ((s.tick t).hostWrite p 0x49 0x06C (effICmd 3))

/-- Recording stops (R389). -/
def State.freeze (s : State) : State :=
  if s.frozen then s
  else ({ s with log := { s.log with frozenAt := s.cycle } }.setFlag Reg.LOGB_STAT 31 true).setFlag (0x49000 + 0x00C) 2 true

/-- Recording resumes, and the held entries enter the store (R389). -/
def State.thaw (s : State) : State :=
  if !s.frozen then s
  else
    have held := s.log.hold
    have s := (s.setFld Reg.LOGB_STAT 22 16 0).setFlag Reg.LOGB_STAT 31 false
    have s := s.dropHold.setFlag (0x49000 + 0x00C) 2 false
    held.foldl State.logStore s

/-- LOGBOOK_FREEZE and LOGBOOK_THAW: a write of CTRL.FREEZE on the LOGB page. -/
def execLogbookFreeze (t : Angle) (p : Path) (s : State) : Outcome :=
  .next ((s.tick t).hostWrite p 0x49 0x00C (fun (s : State) => .done s.freeze))
def execLogbookThaw (t : Angle) (p : Path) (s : State) : Outcome :=
  .next ((s.tick t).hostWrite p 0x49 0x00C (fun (s : State) => .done s.thaw))

/-- FREEZE_TIMEOUT (R389): after FRZ_MAX cycles recording resumes, and a code 0x0008 entry follows the held ones. -/
def execFreezeTimeout (t : Angle) (s : State) : Outcome :=
  have s := s.tick t
  have n := s.cycle - s.log.frozenAt
  .next (
    if !s.frozen ∨ n < max 50 (s.fld Reg.LOGB_CFG 23 8) then s
    else (s.thaw.raise 0x49 2).logEntry 0 0x49 0x0008 n)

/-- A write of CUR_SEL sets the cursor of its path (R390); a word beyond the record acts as 0. -/
def effCurSel (p : Path) (v : Word) (s : State) : WriteResult :=
  have space := v.toNat / 2 ^ 31
  have word := bits 23 16 v.toNat
  have rec' := if space = 0 then bits 7 0 v.toNat else bits 10 0 v.toNat
  have word := if (if space = 0 then 48 else 8) ≤ word then 0 else word
  (s.plainWrite 0x49 0x050 v).andThen (fun s => { s with log := { s.log with cursors := s.log.cursors.put (pathIdx p) (space, rec', word) } })

/-- A read of CUR_DATA (R390): the word at the path's cursor, and the cursor's advance. -/
def State.readCursor (p : Path) (s : State) : State × Nat :=
  have c := s.log.cursors.getD (pathIdx p) (0, 0, 0)
  have space := c.1
  have rec' := c.2.1
  have word := c.2.2
  have words := if space = 0 then 48 else 8
  have recs := if space = 0 then 256 else 2048
  have value := (if space = 0 then s.instrumentWords rec' else s.entryWords rec').getD word 0
  have next := if word + 1 < words then (space, rec', word + 1) else (space, (rec' + 1) % recs, 0)
  ({ s with log := { s.log with cursors := s.log.cursors.put (pathIdx p) next } }, value)

/-- CURSOR_READ (R390). -/
def execCursorRead (t : Angle) (p : Path) (s : State) : Outcome :=
  .next (answer p ((s.tick t).hostRead p 0x49 0x054 (fun (s : State) => s.readCursor p)))

/-- HOST_SAMPLE (R392): a write of HOST_VAL. -/
def effHostVal (v : Word) (s : State) : WriteResult := .done (s.sample (0xC0 + s.fld Reg.LOGB_HOST_IDX 5 0) v.toInt)
def execHostSample (t : Angle) (p : Path) (v : Word) (s : State) : Outcome := .next ((s.tick t).hostWrite p 0x49 0x074 (effHostVal v))

/-- HOST_NOTE (R392): a write of NOTE_GO with the class of the note. -/
def effNoteGo (v : Word) (s : State) : WriteResult :=
  .done (s.logEntry (v.toNat % 4) 0x49 0x00F0 (s.reg64 Reg.LOGB_NOTE_D0 Reg.LOGB_NOTE_D1))
def execHostNote (t : Angle) (p : Path) (v : Word) (s : State) : Outcome := .next ((s.tick t).hostWrite p 0x49 0x080 (effNoteGo v))

/-- CLR_ALL (R392): with the key, every instrument and entry is cleared; in FACTORY, SERVICE and RECOVERY only. -/
def effClrAll (v : Word) (s : State) : WriteResult :=
  if v.toNat ≠ 0x4C47434C then .ignored s
  else if s.nv.lc ≠ 1 ∧ s.nv.lc ≠ 4 ∧ s.nv.lc ≠ 5 then .discard s 0x07
  else
    .done ({ s with log := { s.log with
      entries := []
      instruments := s.log.instruments.mapVals (fun _ x => { lo := x.lo, width := x.width }) } }.setFld Reg.LOGB_STAT 11 0 0)
def execClrAll (t : Angle) (p : Path) (v : Word) (s : State) : Outcome := .next ((s.tick t).hostWrite p 0x49 0x0B4 (effClrAll v))

end Sys2Proof.Machine
end

