-- ==== Sys2Proof/Machine/Startup.lean ====
section
/-!
DEFINITION. Resets and start-up (spec/18_startup.md): what a reset clears (R365 to R367), the steps of Table 18.1 (R360 to R364, R368 to
R372), and with them the start-up test (R374 to R377), the mount (R257), the choice of the image (R401) and the pending transition
(R291).
-/

namespace Sys2Proof.Machine

/-- Registers that every reset keeps: those of VIGIL and Keeper NV, and those that show what the journal holds since manufacture. -/
def keptKeys : List Nat :=
  [ Reg.TAMP_TP_STAT, Reg.TAMP_LOG_WR, Reg.TAMP_LOG_OVF, Reg.TAMP_OPHRS, Reg.TAMP_PWRCYC, Reg.CRY_ALM_CNT 0, Reg.CRY_ALM_CNT 1,
    Reg.SVC_CHAL0, Reg.SVC_CHAL1, Reg.LEDG_LOSS_CNT, Reg.LEDG_LOSS_FIRST_LO, Reg.LEDG_LOSS_FIRST_HI, Reg.LEDG_LOSS_N,
    Reg.CRED_AC_STAT, Reg.FEED_PEER_ACKRSN_LO, Reg.FEED_PEER_ACKRSN_HI ]

/-- The RW and RWL fields of a word; the rest at the reset value (R367). -/
def workWord (k w : Nat) : Nat :=
  match findSpec (k % 0x1000000 / 0x1000) (k % 0x1000) with
  | some r => (w &&& (r.rw ||| r.rwl)) ||| (regReset k &&& (0xFFFFFFFF ^^^ (r.rw ||| r.rwl)))
  | none => regReset k

/-- A register whose fields mount restores: RW and RWL fields from offset 0x040 on, but no selector, cursor or window index. -/
def worksKey (k : Nat) : Bool :=
  have base := k % 0x1000000
  match findSpec (base / 0x1000) (base % 0x1000) with
  | some r => decide (0x040 ≤ base % 0x1000) && (r.rw ||| r.rwl) != 0 && !(selectorKeys.contains base)
  | none => false

/-- What a register holds after a reset of code 1 to 4 (R365). A SYSTEM or LIFECYCLE reset keeps the AON pages but for their locks; the
pairing survives in Keeper NV (R414). -/
def resetWord (aonKept : Bool) (k w : Nat) : Nat :=
  have base := k % 0x1000000
  have page := base / 0x1000
  have off := base % 0x1000
  if keptKeys.contains base then w
  else if aonKept && pageDomain page == 1 then
    (if off = 0x008 ∨ lockOffset page = some off then w % 2 ^ 31 else w)
  else if base = Reg.PWR_CELL then w / 2 ^ 31 * 2 ^ 31
  else if page = 0x4C ∧ worksKey k then workWord k w
  else regReset k

/-- Does the register lose its word in the reset. -/
def clearsKey (aonKept : Bool) (k : Nat) : Bool := !(aonKept && pageDomain (k % 0x1000000 / 0x1000) == 1)

/-- The words that mount restores: those of the working state, and for a register whose last write the shutdown commit has voided the word
before it (R367). -/
def State.mountWords (s : State) (aonKept : Bool) (regs : SMap Word) : SMap Word :=
  have held := (regs.filter (fun x => clearsKey aonKept x.1 && worksKey x.1 && !(s.led.cfgLost.contains x.1))).map
    (fun x => (x.1, BitVec.ofNat 32 (workWord x.1 x.2.toNat)))
  have before := s.led.cfg.filter (fun x => clearsKey aonKept x.1 && worksKey x.1 && s.led.cfgLost.contains x.1)
  before.foldl (fun (m : SMap Word) x => m.put x.1 x.2) (held : SMap Word)

/-- The registers after a reset, and the words that mount restores. -/
def State.resetRegs (s : State) (aonKept : Bool) : State :=
  have words := s.mountWords aonKept s.regs
  { s with
    regs := s.regs.filterMap (fun (x : Nat × Word) =>
      have w := resetWord aonKept x.1 x.2.toNat
      if w = regReset x.1 then none else some (x.1, BitVec.ofNat 32 w))
    boot := { s.boot with restore := words } }

/-- The records that no commit has taken are lost with the DRAM; RSNs and CSNs go on after the committed ones. -/
def State.dropUncommitted (s : State) : State :=
  have last := s.committed
  { s with led := { s.led with
    recs := s.led.recs.filter (fun x => decide (x.1 ≤ last))
    side := s.led.side.filter (fun x => decide (x.1 < s.led.sideDone))
    sideNext := s.led.sideDone
    sideOpen := s.led.sideDone
    stalled := false
    nextRsn := last + 1
    openFirst := last + 1
    nextCsn := s.reg64 Reg.LEDG_CSN_LO Reg.LEDG_CSN_HI + 1
    groups := []
    segments := []
    leafSegs := []
    copies := []
    eraseQueue := []
    victim := none
    ckptOpen := false
    resumed := false } }

/-- What the registers show of leaves and of the peers of open sessions (Table 13.10, R273, R279, R280). -/
def State.showLeafRegs (s : State) (n : Nat) : State :=
  have x := s.leaf n
  have s := s.setReg64 (bankKey n Reg.FEED_PEER_ACKRSN_LO) (bankKey n Reg.FEED_PEER_ACKRSN_HI) x.acked
  (s.setReg (bankKey n Reg.FEED_PEER_D) (if x.known then ofSigned 32 x.offset else 0)).setFlag (bankKey n Reg.FEED_PEER_STAT) 8 x.unver
def State.showPeers (s : State) (leaves : List Nat) : State :=
  have s := leaves.foldl State.showLeafRegs s
  s.sessions.foldl (fun (s : State) x =>
    have s := if x.2.ofLeaf then s.setReg (bankKey x.2.peer Reg.FEED_PEER_EPOCH) (s.peerEpoch x.2) else s
    s.showPeer x.2.peer) s

/-- A node record of an earlier working state with its present entries of the session table, which are persisted whenever they are created or
change key (R297); `counters` says that the receive counters are too, as a completed shutdown commit leaves them. A record that is FREE now
has none. -/
def Node.withSession (old now : Node) (counters : Bool) : Node :=
  if now.serial ≠ old.serial ∨ now.state = 0 then old
  else
    { old with
      session := now.session
      key := now.key
      keyIdx := now.keyIdx
      gkeyDue := now.gkeyDue
      rekey := now.rekey
      nextKey := now.nextKey
      oldKeyUntil := now.oldKeyUntil
      fcnt := if counters then now.fcnt else if now.key = old.key then old.fcnt else none
      fcntNext := if counters then now.fcntNext else if now.nextKey = old.nextKey then old.fcntNext else none }

/-- The tables of a working state take the place of the present ones (R233, R257). -/
def State.loadTables (s : State) (k : Working) : State :=
  have was := s.leaves.map (·.1)
  have s := { s with
    fca := k.fca
    billing := k.billing
    balance := k.balance
    leaves := k.leaves
    epochs := k.epochs
    field := { s.field with nodes := k.nodes.map (fun (x : Nat × Node) => (x.1, x.2.withSession (s.node x.1) false)) }
    sweep := { s.sweep with zones := k.zones, zvalid := k.zvalid } }
  (s.setCalendar k.calendar).showPeers (was ++ k.leaves.map (·.1))

/-- The registers of some pages are those of a working state again. -/
def State.loadRegs (s : State) (k : Working) (pages : Nat → Bool) : State :=
  have mine := fun (x : Nat × Word) => pages (x.1 % 0x1000000 / 0x1000) && worksKey x.1
  { s with regs := (k.regs.filter mine).foldl (fun (m : SMap Word) x => m.put x.1 x.2) (s.regs.filter (fun x => !(mine x))) }

/-- What an uncharged record that no commit holds has set up is as the last commit left it (R233, R245): a graph, a program, a CONFIG record of
the channel table, the zone-rule schedule, an account or the Balance Engine, or a node record. The register words of CONFIG records,
descriptors and SYSDATA records have rules of their own (R367, R166, R391). -/
def State.revertRecord (k : Working) (s : State) (r : LedgerRecord) : State :=
  have key := leAt r.payload 0 4
  if r.cls = 0x24 then { s with balance := k.balance }.recompile ownsWindow
  else if r.cls = 0x25 then
    have n := if r.payload.length = 4 then leAt r.payload 0 2 else Image.prog r.payload
    have p := k.billing.programs.getD n {}
    ((s.unpinActivate n).setProg n { s.prog n with
      image := p.image
      pending := p.pending
      closeFrom := p.closeFrom }).recompile (ownsProgram n)
  else if r.cls = 0x28 then
    have n := leAt r.payload 0 2
    { s with field := { s.field with nodes := match k.nodes.find n with
      | some x => s.field.nodes.put n (x.withSession (s.node n) true)
      | none => s.field.nodes.del n } }
  else if r.cls = 0x26 ∧ r.payload.length = 25 then
    have n := leAt r.payload 1 20
    { s with epochs := match k.epochs.find n with
      | some e => s.epochs.put n e
      | none => s.epochs.del n }
  else if r.cls ≠ 0x26 ∨ r.payload.length = 13 then s
  else if r.payload.length = 12 then
    have s := { s with billing := { s.billing with chans := match k.billing.chans.find key, s.billing.chans.find key with
      | some o, some c => s.billing.chans.put key { c with
          w0 := o.w0
          w1 := o.w1
          nextW1 := o.nextW1
          valid := o.valid }
      | _, _ => s.billing.chans.del key } }
    s.recompile ownsInterval
  else if key = Reg.SWEEP_ZCOMMIT then
    { s with sweep := { s.sweep with zones := k.zones, zvalid := k.zvalid } }.recompile (fun _ => true)
  else if key / 0x1000 = 0x34 then
    have n := leAt r.payload 4 4
    have a := k.billing.accounts.getD n {}
    (s.setAccount n { s.account n with
      prices := a.prices
      pending := a.pending
      limits := a.limits }).loadRegs k (· == 0x34)
  else ({ s with balance := { s.balance with
    slots := k.balance.slots
    insulation := k.balance.insulation
    ambient := k.balance.ambient
    corr := k.balance.corr } }).loadRegs k (· == 0x31)

/-- Nothing in the DRAM is relied on across a restart (R233): what the records that no commit holds have done is undone; where charged ones are
among them, the tables of the last commit are loaded. -/
def State.revertLost (s : State) : State :=
  have k := s.led.kept
  have lost := s.led.recs.filter (fun x => decide (s.committed < x.1) || (x.2.void && decide (s.boot.shutFirst ≤ x.1))) ++
    s.led.side.filter (fun x => decide (s.led.sideDone ≤ x.1))
  if lost.any (fun x => x.2.charged && !x.2.void) then (s.loadTables k).loadRegs k (fun _ => true)
  else lost.foldl (fun (s : State) x => s.revertRecord k x.2) s

/-- A node record after a restart (R370, R371): ACTIVE stays, a join under way is over, and what the links had learned is gone. -/
def restartNode (initial : Nat) (n : Node) : Node :=
  { n with
    state := if n.state = 2 then 1 else n.state
    mode := initial
    good := 0
    rpt := false
    miss := 0
    routeAbs := false
    route := []
    ackDue := false
    waiting := []
    unmirrored := []
    join := none }

/-- A KFP session after a restart (R297): its handshake is over, its records are sent again from the last committed one on. -/
def State.restartSessions (s : State) : State :=
  have s := { s with sessions := (s.sessions.filter (fun (x : Nat × Session) => x.2.isOpen)).map (fun (x : Nat × Session) => (x.1, s.renewed x.2)) }
  s.showPeers (s.leaves.map (fun (x : Nat × Leaf) => x.1))

/-- Descriptors whose record the shutdown commit has voided are not in force, and blocks first journalled with them are lost (R166). -/
def State.dropVoidDescs (s : State) : State :=
  have ok := fun (rsn : Nat) => match s.led.recs.find rsn with
    | some r => !r.void
    | none => decide (rsn < s.led.nextRsn)
  have gone := ((SMap.vals s.fca.live ++ SMap.vals s.fca.redo).flatMap (fun l => l.filter (fun d => !ok d.rsn))).flatMap (·.blocks)
  have kept := fun (m : SMap (List DescEntry)) => (m.mapVals (fun _ l => l.filter (fun d => ok d.rsn))).filter (fun x => !x.2.isEmpty)
  { s with fca := { s.fca with
    live := kept s.fca.live
    redo := kept s.fca.redo
    fixed := s.fca.fixed.filter (fun i => !gone.contains i)
    blocks := s.fca.blocks.filter (fun x => !gone.contains x.1) } }

/-- The update after a restart (R402): a download is gone, a stage is verified again, a handover whose record is not committed has not
been. -/
def State.restartUpdate (s : State) : State :=
  have st := s.stage
  have pendingHover := s.upd.hover.isSome
  have images := if pendingHover && (s.upd.hover.bind (·.rsn)).isSome then
      s.upd.images.mapVals (fun _ x => if x.role = 2 then { x with role := 4 } else x)
    else if st = 1 ∨ st = 2 ∧ s.upd.data.isEmpty then s.upd.images.mapVals (fun _ x => if x.role = 4 then {} else x) else s.upd.images
  have staged := images.find? (fun x => x.2.role == 4)
  have s := { s with upd := { s.upd with
    images := images
    target := if st = 1 then none else match staged with
      | some x => some x.1
      | none => s.upd.target
    fromCard := false
    data := if st = 2 then s.upd.data else match staged with
      | some x => x.2.cart
      | none => []
    hover := none
    trial := if pendingHover && (s.upd.hover.bind (·.rsn)).isSome then none else s.upd.trial
    confirm := none
    unhealthy := false
    files := [] } }
  have again := st == 2 || staged.isSome
  s.setFld Reg.UPD_STAT 31 29 (if again then 2 else if s.upd.trial.isSome then 5 else 0)

/-- The engines, queues, lanes, media, link and interlocks start empty. -/
def State.resetBlocks (s : State) : State :=
  have s := { s with
    latch := []
    mem := []
    lcWait := none
    lcYield := none
    crypto := { rngBad := none, alarmAt := none, engines := [] }
    lift := {}
    interlock := {}
    pairs := { twinDrives := s.pairs.twinDrives }
    ptp := { adj := s.ptp.adj }
    staleStop := false
    fwdUsed := []
    idleRetain := []
    touched := []
    ackedRsn := 0
    fca := { s.fca with
      lanes := []
      waitRsn := none
      redoChans := [] }
    balance := { s.balance with alarms := [] }
    slalom := { s.slalom with
      late := []
      heldOwn := []
      triggers := []
      drawn := []
      heldPlan := none
      heldRegion := none
      placed := []
      used := []
      lost := []
      reserved := []
      waiting := [] } }
  { s with field := { s.field with
    nodes := s.field.nodes.mapVals (fun _ n => restartNode (s.fld Reg.LINEC_LINKCFG 2 0) n)
    exch := []
    links := []
    hopModes := []
    airSearch := []
    overMs := []
    uvSince := []
    idents := []
    cover := []
    firmware := []
    gapUntil := 0 } }

/-- What a POWER or THERMAL reset clears beside (R365): the AON domain, with the sweep. -/
def State.resetAon (s : State) : State :=
  { s with
    errRing := []
    msixMasked := []
    msixPending := []
    lineActive := []
    clocks := []
    slalom := { s.slalom with ring := [], held := none }
    sweep := { s.sweep with
      phases := []
      lockRun := 0
      realigned := false
      src := 0
      fNom := none
      taiKnown := false
      segCount := 0
      vigilValid := s.sweep.vigilValid && !(s.flag Reg.PWR_CELL 31) } }

/-- The SYSDATA records of a subtype (Table 12.18), in the order in which they were built. -/
def State.sysdataOf (s : State) (subtype : Nat) : List (Nat × LedgerRecord) :=
  sortBy (fun (a b : Nat × LedgerRecord) => decide (a.2.time < b.2.time ∨ a.2.time = b.2.time ∧ a.1 ≤ b.1))
    (s.heldRecs.filter (fun x => x.2.cls == 0x29 && !x.2.void && !x.2.lost && leAt x.2.payload 0 2 == subtype))
/-- The last committed one: its number and its body. -/
def State.lastSysdata (s : State) (subtype : Nat) : Option (Nat × List Byte) :=
  (s.sysdataOf subtype).getLast?.map (fun x => (x.1, x.2.payload.drop 16))

/-- A Logbook entry as a SYSDATA record holds it. -/
def logEntryOf (b : List Byte) : LogEntry :=
  ⟨leAt b 0 8, leAt b 8 4, leAt b 12 4, leAt b 16 4, leAt b 20 1, leAt b 21 1, leAt b 22 2, leAt b 24 8⟩

/-- The Logbook returns from its last committed copy, with the class 3 entries committed after it (R391). -/
def State.restoreLogbook (s : State) : State :=
  match s.lastSysdata 3 with
  | none =>
    have s := { s with log := {} }
    (s.setReg Reg.LOGB_ENT_SEQ 0).setReg Reg.LOGB_STAT 0
  | some (rsn, _) =>
    match s.log.copies.find? (fun c => c.1 == rsn) with
    | none => { s with log := {} }
    | some (_, is, es) =>
      have at' := ((s.heldRecs.find rsn).map (·.time)).getD 0
      have later := (s.sysdataOf 4).filter (fun x => decide (at' < x.2.time) || x.2.time == at' && decide (rsn < x.1))
      have es := later.foldl (fun (m : SMap LogEntry) x =>
        have e := logEntryOf (x.2.payload.drop 16)
        match logSlot m e.cls with
        | some i => m.put i e
        | none => m) es
      have top := es.foldl (fun m e => max m (e.2.eseq + 1)) 0
      have s := { s with log := { instruments := is, entries := es, copies := s.log.copies } }
      ((s.setReg Reg.LOGB_ENT_SEQ top).setFld Reg.LOGB_STAT 11 0 es.length).setFlag Reg.LOGB_STAT 30 true

/-- The learned phase offsets return from their last committed record (R19, Table 18.3). -/
def State.restoreOffsets (s : State) : State :=
  match s.lastSysdata 1 with
  | none => s
  | some (_, b) =>
    have put := fun (s : State) (p ofs bit' : Nat) => if bit bit' (leAt b 4 4) then s.setPhase p { s.phase p with ofs := ofs, learned := true } else s
    have s := put (put s 2 (leAt b 0 2) 0) 3 (leAt b 2 2) 1
    s.setFlag Reg.SWEEP_LOCKSTAT 12 (!((s.phase 2).learned && (s.phase 3).learned))

/-- The Groomer resumes at the position that its last committed record holds (R255). -/
def State.restoreGroomer (s : State) : State :=
  match s.lastSysdata 5 with
  | none => s
  | some (_, b) =>
    have s := (s.setReg Reg.GROOM_PASS_POS (leAt b 0 4)).setReg Reg.GROOM_PASS_TOT (leAt b 4 4)
    { s.setReg Reg.GROOM_PASS_CNT (leAt b 8 4) with led := { s.led with
      passStart := leAt b 12 8
      groomed := s.dataStripes.take (leAt b 0 4) } }

/-- After VIGIL_LOST the hours and the power cycles return from their last copy, and the tamper log is empty (R357). -/
def State.vigilLoss (s : State) : State :=
  have b := ((s.lastSysdata 2).map (·.2)).getD []
  have s := (s.setFlag Reg.PWR_CELL 31 true).setReg Reg.TAMP_OPHRS (leAt b 0 4)
  have s := ((s.setReg Reg.TAMP_PWRCYC (leAt b 4 4)).setReg Reg.TAMP_LOG_WR 0).setReg Reg.TAMP_LOG_OVF 0
  { s with
    tamper := []
    sweep := { s.sweep with vigilValid := false, stamp := none } }

/-- The domains run after a reset; one that is FAILED stays so until its start-up test (R377). -/
def State.resetDomains (s : State) : State :=
  (List.range 25).foldl (fun (s : State) d => if s.dom d = 4 then s else s.setReg (domKey d) 0) s

/-- A reset of code 1 to 4 (R365, Table 18.2). -/
def State.performReset (s : State) (kind src : Nat) : State :=
  have before := s
  have aonKept := kind == 2 || kind == 3
  have failed := (List.range 25).filter (fun d => s.dom d == 4)
  have s := s.setFence false
  have s := s.revertLost
  have packets := s.unreadPackets
  have s := s.dropUncommitted.dropVoidDescs
  have upd := s.restartUpdate
  have stage := upd.stage
  have s := upd.resetRegs aonKept
  have s := if aonKept then s.resetBlocks else s.resetBlocks.resetAon
  have s := packets.foldl (fun (s : State) x => s.stagePacket false x.1 x.2) s
  have s := (if aonKept then s else s.restoreLogbook.restoreOffsets).restoreGroomer
  have s := s.restartSessions
  have s := failed.foldl (fun (s : State) d => s.setDom d 4) s.resetDomains
  have s := if kind = 4 then s else { s with nv := { s.nv with role := s.nv.roleNext } }
  have s := (s.setUnc 0).setCalendar s.slalom.calendar
  have s := s.setFld Reg.UPD_STAT 31 29 stage
  have s := s.setReg Reg.SYS_RSTCAUSE (src * 16 + kind)
  have s := s.setFld Reg.SYS_BOOTSTAT 15 0 0
  have s := ((s.setFlag Reg.SLALOM_STATUS 29 false).setFld Reg.PWR_PWRSTAT 31 29 0).showFence
  have s := { s with lineActive := s.lineActive.filter (fun n => s.lineOn n) }
  ({ s with boot := { s.boot with
    done := if aonKept then [1, 3] else []
    due := none
    kind := none
    hold := 0
    shed := []
    resumed := false
    passAt := []
    again := none
    queuesBad := [] }, pairs := { s.pairs with unacked := before.heldBack } }).showStep |> State.updateDoorbell before

/-- A reset is requested (R365): a running store commits first, and the reset follows its SHUTDOWN commit. -/
def State.startReset (s : State) (kind src : Nat) : State :=
  if s.boot.kind.isSome ∨ s.boot.hold = 1 ∨ s.boot.hold = 2 then s
  else if s.storeRuns && !s.pfStop then { s with boot := { s.boot with kind := some (kind, src) } }.beginShutdown
  else if s.pfStop && s.storeRuns then s
  else s.performReset kind src

/-- SYS_RESET (Table 23.9): the key requests a SYSTEM reset one cycle after the write. -/
def effSysReset (v : Word) (s : State) : WriteResult :=
  if v.toNat ≠ 0x53595354 then .discard s 0x0B
  else .done { s with boot := { s.boot with due := some (2, 0, s.cycle + 1) } }
def execSysReset (t : Angle) (p : Path) (v : Word) (s : State) : Outcome := .next ((s.tick t).hostWrite p 0x00 0x068 (effSysReset v))

/-- WATCHDOG_RESET (Table 18.2): the cycle is no healthy one (R399). -/
def execWatchdogReset (t : Angle) (s : State) : Outcome :=
  have s := s.tick t
  .next (({ s with upd := { s.upd with unhealthy := true } }).startReset 2 1)

/-- RESET_PIN (R440): ignored during a shutdown commit. -/
def execResetPin (t : Angle) (s : State) : Outcome :=
  have s := s.tick t
  .next (if s.pfStop then s else s.startReset 2 0)

/-- MAINS_ON (R360): after VIGIL or OFF. `vigilLost` tells that the supply of D0 has failed (R357), `l1` that L1 supplies (R341). -/
def execMainsOn (t : Angle) (vigilLost l1 : Bool) (s : State) : Outcome :=
  have s := s.tick t
  .next (
    if s.boot.hold ≠ 1 ∧ !(s.boot.done.isEmpty && s.boot.hold == 0 && s.reg Reg.SYS_RSTCAUSE == 0) then s
    else
      have s := if vigilLost then s.vigilLoss else s
      (s.performReset 1 0).setFld Reg.PWR_PWRSTAT 25 24 (if l1 then 1 else 2))

/-- SUPPLY_RETURN (R345): the supply returns after PARKED, and the module restarts. -/
def execSupplyReturn (t : Angle) (s : State) : Outcome :=
  have s := s.tick t
  have ph := s.fld Reg.PWR_PWRSTAT 25 24
  .next (
    if s.fld Reg.LEDG_STAT 31 29 = 2 ∧ s.boot.hold = 0 ∧ s.boot.kind.isNone then (s.performReset 1 1).setFld Reg.PWR_PWRSTAT 25 24 ph
    else s)

/-- THERMAL_HOLD_END (R358): the baseplate, in °C + 40, is at or below 90 °C. -/
def execThermalHoldEnd (t : Angle) (base : BitVec 8) (s : State) : Outcome :=
  have s := s.tick t
  have ph := s.fld Reg.PWR_PWRSTAT 25 24
  .next (if s.boot.hold = 2 ∧ base.toNat ≤ 130 then (s.performReset 4 0).setFld Reg.PWR_PWRSTAT 25 24 ph else s)

/-- A page's block returns from its BLOCK reset (R365): its unit counts as lost, then regained; its lines follow its causes (R425). -/
def effBlockReset (page : Nat) (s : State) : WriteResult :=
  have s := match pageUnit page with
    | some r => s.loseUnit (if 0x10 ≤ r ∧ r ≤ 0x23 then 0x11 else 0x10) r
    | none => s
  have s := ((s.blockRegs false [page]).blockRest page).updateLines page
  .done (match pageUnit page with
    | some r => s.regainUnit r
    | none => s)
def execBlockReset (t : Angle) (p : Path) (page : BitVec 8) (s : State) : Outcome :=
  .next ((s.tick t).hostWrite p page.toNat 0x00C (effBlockReset page.toNat))

/-- The test blocks of Table 19.1: domain, slices, and units with the reason of their loss. -/
def blockDomain (b : Nat) : Nat :=
  [2, 2, 3, 3, 4, 5, 9, 10, 10, 10, 10, 20, 21, 22, 6, 23, 7, 7, 7, 7, 7, 7, 7, 7, 8, 8, 8, 8, 8, 8, 8, 8, 11, 12, 13, 14, 15, 16, 17, 18,
    19, 24].getD b 25
def blockSlices (b : Nat) : Nat :=
  if b ≤ 3 then 55 else if 0x10 ≤ b ∧ b ≤ 0x1F then 10 else if 0x20 ≤ b ∧ b ≤ 0x22 then 15
  else if b = 0x23 ∨ b = 0x24 then 13 else if 0x25 ≤ b ∧ b ≤ 0x28 then 8 else if b = 0x29 then 5
  else [50, 15, 30, 30, 20, 20, 15, 20, 15, 15, 10, 10].getD (b - 4) 0
def blockUnits (b : Nat) : List Nat :=
  if b = 0x07 then [0x23] else if 0x08 ≤ b ∧ b ≤ 0x0A then [0x20 + (b - 0x08)]
  else if b = 0x0B then [0x30, 0x31] else if b = 0x0C then [0x32]
  else if 0x10 ≤ b ∧ b ≤ 0x1F then [b]
  else if 0x20 ≤ b ∧ b ≤ 0x22 then [2 * (b - 0x20), 2 * (b - 0x20) + 1]
  else if b = 0x23 ∨ b = 0x24 then [8 + (b - 0x23)]
  else if 0x25 ≤ b ∧ b ≤ 0x28 then [0x0C + (b - 0x25)] else []
def blockReason (b : Nat) : Nat := if b ≤ 3 then 0x13 else if (0x07 ≤ b ∧ b ≤ 0x0A) ∨ b = 0x0E ∨ (0x10 ≤ b ∧ b ≤ 0x1F) then 0x11 else 0x10
def blockModule (b : Nat) : Bool := decide (4 ≤ b) && decide (b ≤ 6)

/-- A block whose units the variant lacks (R373). -/
def blockAbsent (v : Variant) (b : Nat) : Bool := domainAbsent v (blockDomain b)

/-- The units of a block are lost, or regained (R376, R380). -/
def State.loseBlock (s : State) (b : Nat) : State :=
  have s := (blockUnits b).foldl (fun (s : State) r => s.loseUnit (blockReason b) r) s
  have s := if b = 0x0D then s.setFlag Reg.PAIRS_STAT 23 false else if b = 0x0F then s.endCard else s
  if b ≤ 3 then s.recomputeOn 0x13 [0x38] else s

/-- The verdict of the start-up test on a block (R375, Table 19.5). -/
def State.startVerdict (s : State) (tests : List BlockTest) (b : Nat) : State :=
  if blockAbsent s.fac.variant b then s.setReg (bankKey b Reg.BIST_BLK_STAT) (2 * 2 ^ 29)
  else match tests.find? (fun x => x.blk == b) with
    | none => s.setReg (bankKey b Reg.BIST_BLK_STAT) 0
    | some x =>
      have s := s.setReg64 (bankKey b Reg.BIST_SIG_LO) (bankKey b Reg.BIST_SIG_HI) x.sig.toNat
      if !x.bad then s.setReg (bankKey b Reg.BIST_BLK_STAT) 0
      else
        have s := s.setReg (bankKey b Reg.BIST_BLK_STAT) (2 ^ 29)
        have s := s.setReg64 (bankKey b Reg.BIST_FAIL_AT_LO) (bankKey b Reg.BIST_FAIL_AT_HI) s.now
        ((s.logEntry 3 0x48 0x0002 (b + 0xFFFF * 2 ^ 32)).raise 0x48 2).loseBlock b

/-- Every key copy outside Keeper NV is zeroized (R381, R382). -/
def State.zeroizeKeys (s : State) : State :=
  { s.zeroizeSessions with crypto := { s.crypto with engines := s.crypto.engines.mapVals (fun _ e => { e with held := none }) } }

/-- Step 1: the power-cycle count rises after VIGIL or OFF (R356, Table 18.2). -/
def State.stepSupply (s : State) : State :=
  have first := s.reg Reg.SYS_RSTCAUSE == 0
  have s := if first then s.setReg Reg.SYS_RSTCAUSE 1 else s
  have s := if s.fld Reg.PWR_PWRSTAT 25 24 = 0 then s.setFld Reg.PWR_PWRSTAT 25 24 1 else s
  have s := if s.fld Reg.SYS_RSTCAUSE 2 0 = 1 then s.bump Reg.TAMP_PWRCYC else s
  s.endStep 1

/-- A cartridge passes steps 1 to 6 of R394; the image of the factory, which the model holds as an empty one, does (log 5). -/
def State.bootsImage (s : State) (c : List Byte) : Bool := c.isEmpty || s.verifyCode c == 0 || s.verifyCode c == 7

/-- KVZ4811/RECOVER.KFW on the card. -/
def recoverName : List Byte := [0x52, 0x45, 0x43, 0x4F, 0x56, 0x45, 0x52, 0x2E, 0x4B, 0x46, 0x57]
def recoveryFile (card : Option CardRx) : Option (List Byte) :=
  match card with
  | some c => if c.ok then (c.files.find? (fun f => f.1 == recoverName)).map (·.2) else none
  | none => none

/-- The boots of the image on trial, and its trial's start and end (R400, R401). -/
def State.countBoot (s : State) (n : Nat) : State := { s with nv := { s.nv with boots := n } }
def State.startTrial (s : State) : State := { s with upd := { s.upd with trial := some s.cycle } }
def State.noTrial (s : State) : State := { s with upd := { s.upd with trial := none } }

/-- The image on trial is out of boots, and is gone (R400). -/
def State.dropTrial (s : State) : State :=
  match s.roleSlot 2 with
  | none => s
  | some n => ((s.setImage n {}).noTrial.setFld Reg.UPD_STAT 31 29 0).raise 0x4A 4

/-- Step 2: the image that boots (R364, R400, R401). A trial image that has been booted BOOT_MAX times is freed. -/
def State.stepBoot (s : State) (card : Option CardRx) : State :=
  have most := clampNat 1 8 (s.fld Reg.UPD_CFG 11 8)
  have spent := (s.roleSlot 2).isSome && decide (most ≤ s.nv.boots)
  have s := if spent then s.dropTrial else s
  have good := fun (role : Nat) => match s.roleSlot role with
    | some n => s.bootsImage (s.image n).cart
    | none => false
  if good 2 then ((s.countBoot (s.nv.boots + 1)).initCard card).endStep 2
  else if good 1 ∨ good 3 then (s.initCard card).endStep 2
  else match recoveryFile card, (List.range 3).find? (fun n => (s.image n).role == 0) with
    | some c, some n =>
      if cartKind c = 1 ∧ s.verifyCode c = 0 then
        ((((s.setImage n { role := 2, cart := c }).countBoot 1).startTrial.setFld Reg.UPD_STAT 31 29 5).initCard card).endStep 2
      else s.setFld Reg.SYS_BOOTSTAT 7 4 1
    | _, _ => s.setFld Reg.SYS_BOOTSTAT 7 4 1

/-- A slot is emptied: the marker for TYPE EMPTY carries the next generation (R298). -/
def emptied (k : KeySlot) : KeySlot :=
  if attrType k.attr = 0 then k else { genAct := (k.genAct + 1) % 65536, genOther := k.genAct, half := !k.half }

/-- The accepted transition takes effect (R291, R288, Table 14.2). `intact` tells whether Keeper NV holds the owner root intact. -/
def State.takeTransition (s : State) (n : LcNext) (intact : Bool) : State :=
  have old := s.nv.lc
  have anyGone := (old == 1 || old == 4) && n.target != old
  have gone := fun (k : KeySlot) => n.target == 6 || (anyGone && attrDest k.attr == 15) || (n.transfer.isSome && attrRoot k.attr == 1)
  have s := { s with nv := { s.nv with
    lc := n.target
    prev := old
    lcCnt := s.nv.lcCnt + 1
    next := none
    slots := s.nv.slots.mapVals (fun _ k => if gone k then emptied k else k) } }
  have s := match n.transfer with
    | some (o, r) => { s with nv := { s.nv with ownerHash := o, recoveryHash := r } }.newOwner
    | none => s
  have s := if n.target = 6 then { s.zeroizeSessions with nv := { s.nv with ownerRoot := none, txKeys := [] } } else s
  have s := if old = 5 ∧ n.target = 2 ∧ (!intact ∨ s.nv.ownerRoot.isNone) then
      { s with nv := { s.nv with slots := s.nv.slots.mapVals (fun _ k => if attrRoot k.attr = 1 then emptied k else k) } }.newOwner
    else s
  s.raise 0x40 0

/-- Step 4: a broken-off key update (R299), the pending transition, the owner root's integrity (R289), and the counters' positions (R301). -/
def State.stepKeeper (s : State) (intact : Bool) : State :=
  have s := s.settleHalf
  have s := match s.nv.next with
    | some n => s.takeTransition n intact
    | none => s
  have s := if !intact ∧ (s.nv.lc = 2 ∨ s.nv.lc = 3) then
      (({ s with nv := { s.nv with prev := s.nv.lc, lc := 5, ownerRoot := none } }).raise 0x40 0).alert 0x40
    else s
  (s.resumeKeys 0).sessMark.endStep 4

/-- Step 5: the start-up test (R374 to R377), or external scan (R382). -/
def State.stepTest (s : State) (ms : Nat) (tests : List BlockTest) (queues : List (Fin 32)) : State :=
  if s.flag Reg.BIST_SCANCTL 0 then
    have s := { s.zeroizeKeys with mem := [] }
    have s := (s.setFld Reg.BIST_STAT 31 29 3).setFld Reg.SYS_BOOTSTAT 7 4 4
    { s with boot := { s.boot with hold := 3 } }
  else
    have s := { s with crypto := { s.crypto with engines := s.crypto.engines.mapVals (fun _ e => { e with held := none }) } }
    have s := (List.range 42).foldl (fun (s : State) b => s.startVerdict tests b) s
    have s := { s with boot := { s.boot with queuesBad := queues.map (fun (q : Fin 32) => q.val) } }
    have s := (List.range 25).foldl (fun (s : State) d =>
      if s.dom d ≠ 4 then s
      else if (List.range 42).any (fun b => blockDomain b == d && s.blockBad b) then s.loseDomain d
      else s.setDom d 0) s
    have s := (s.setFld Reg.BIST_STAT 10 0 (min ms 1200)).raise 0x48 0
    have s := s.endStep 5
    match (List.range 42).find? (fun b => blockModule b && s.blockBad b) with
    | none => s
    | some b =>
      have s := ((s.setFld Reg.SYS_BOOTSTAT 15 8 b).setFld Reg.SYS_BOOTSTAT 7 4 2).alert 0x48
      { s.setFence false with boot := { s.boot with hold := 3 } }

/-- Step 6: the bank's capacitance (R344) and the cell (R357). -/
def State.stepBank (s : State) (cMeas vCell : Nat) : State :=
  have s := s.setReg Reg.PWR_BANKCAL cMeas
  have s := if 5 * cMeas < 4 * s.fac.cFact then s.raiseAlert 0x02 2 else s
  have s := s.setFld Reg.PWR_CELL 15 0 vCell
  have low := decide (vCell < 2600)
  have s := s.setFlag Reg.PWR_CELL 30 low
  (if low then s.raiseAlert 0x02 4 else s).endStep 6

/-- The registers that mount restores (R367). Role, band plan and air region come from Keeper (R410). -/
def State.restoreWords (s : State) : State :=
  have s := s.boot.restore.foldl (fun (s : State) x => s.setReg x.1 x.2.toNat) s
  have code := s.fld Reg.SYS_RSTCAUSE 2 0
  have s := if code = 1 ∨ code = 4 then
      (s.setFld Reg.LINEC_BANDCFG 1 0 s.nv.planProv).setFld Reg.AIRC_REGCFG 1 0 s.nv.regionProv
    else s
  { (s.setReg Reg.LINEC_LVLMAX (fullScale s.plan)).showChannels with boot := { s.boot with restore := [] } }

/-- The superblocks listed for erase, and those that hold only stale pages, are erased (R257, R249). -/
def State.eraseStale (s : State) : State :=
  have stale := s.led.sbs.filter (fun x => x.2.phase == 3 ||
    (decide (0 < x.2.next) && (x.2.phase == 1 || x.2.phase == 2) && (s.validPages x.1).isEmpty))
  stale.foldl (fun (s : State) x => s.eraseSb x.1) s

/-- The RSNs of the charged records of a SHUTDOWN commit among those from a CSN on: they were acknowledged (R257). -/
def State.shutdownRsns (s : State) (stop : Nat) : List Nat :=
  match s.led.undo.find? (fun u => decide (stop ≤ u.csn) && u.shutdown) with
  | some u => (s.led.recs.filter (fun x => decide (u.first ≤ x.1) && !x.2.void && x.2.charged)).map (·.1)
  | none => []

/-- The commits from a CSN on count as not made (R257): the map, the superblocks, the journal and the working state are those that the commit
before them left. -/
def State.discardCommits (s : State) (stop : Nat) : State :=
  match (s.led.undo.filter (fun u => decide (stop ≤ u.csn))).getLast? with
  | none => s
  | some u =>
    have shut := s.led.undo.any (fun x => decide (stop ≤ x.csn) && x.shutdown)
    have code := s.fld Reg.SYS_RSTCAUSE 2 0
    have s := { s with
      led := { s.led with
        map := u.map
        pages := u.pages
        sbs := u.sbs
        cfg := u.cfg
        cfgLost := u.cfgLost
        nextCsn := u.csn
        nextRsn := u.first
        recs := s.led.recs.filter (fun x => decide (x.1 < u.first))
        undo := s.led.undo.filter (fun x => decide (x.csn < stop))
        kept := u.work }
      boot := { s.boot with shutLost := shut } }
    have s := { s with boot := { s.boot with restore := s.mountWords (code == 2 || code == 3) u.work.regs } }
    have s := s.loadTables { u.work with
      fca := { u.work.fca with
        lanes := []
        waitRsn := none
        redoChans := [] }
      balance := { u.work.balance with alarms := [] }
      nodes := u.work.nodes.mapVals (fun _ n => restartNode (s.fld Reg.LINEC_LINKCFG 2 0) n) }
    u.work.packets.foldl (fun (s : State) x => s.stagePacket false x.1 x.2) s

/-- The cycles and seconds of the outage before this start: none after a SYSTEM or LIFECYCLE reset. -/
def State.outageSpan (s : State) : Nat × Nat :=
  have code := s.fld Reg.SYS_RSTCAUSE 2 0
  match s.sweep.outage with
  | some (_, gaps, dur) => if code = 2 ∨ code = 3 then (0, 0) else (gaps, gaps * dur / 8000000000)
  | none => (0, 0)

/-- A formatted store (R363): the dies, their superblocks and the ring's size stay. -/
def State.formatStore (s : State) : State :=
  { s with led := {
    dies := s.led.dies
    sbTotal := s.led.sbTotal
    ringPages := s.led.ringPages
    kept := s.led.kept
    formatted := true } }

/-- The mounted store opens its first group at the next RSN, and its checkpoint time runs from here. -/
def State.openStore (s : State) : State :=
  { s with
    led := { s.led with openFirst := s.led.nextRsn, openSince := s.cycle, ckptAt := s.cycle }
    boot := { s.boot with shutFirst := s.led.nextRsn } }

/-- A replay that stops at CSN `stop` discards the commits from it on; its records are then lost. -/
def State.stopReplay (s : State) (stop : Option (BitVec 64)) : State :=
  match stop with
  | some n => s.discardCommits n.toNat
  | none => s

/-- Step 7: the mount (R257, R363): a store with no valid superblock table is formatted in FACTORY and RECOVERY, and is READ_ONLY in any
other state. `stop` is the CSN at which the replay stops, at a gap or at a commit with a page that cannot be read, and `reads` what the
stripes that it reads show (R250). -/
def State.stepMount (s : State) (readable : Bool) (stop : Option (BitVec 64)) (reads : List (BitVec 19 × StripeRead)) : State :=
  have valid := readable && s.led.formatted
  have s := { s with boot := { s.boot with shutLost := false } }
  have gone := match stop with
    | some n => if valid then s.shutdownRsns n.toNat else []
    | none => []
  have s := (if valid then s.stopReplay stop else s).restoreWords.syncInstruments
  if !valid ∧ s.nv.lc ≠ 1 ∧ s.nv.lc ≠ 5 then
    have s := ((s.setFld Reg.LEDG_STAT 31 29 3).setFld Reg.SYS_BOOTSTAT 7 4 3).alert 0x38
    (s.raise 0x38 2).endStep 7
  else
    have s := if valid then s.keepWorking.eraseStale else s.keepWorking.formatStore
    have s := (s.setReg64 Reg.LEDG_RSN_LO Reg.LEDG_RSN_HI (s.led.nextRsn - 1)).setReg64 Reg.LEDG_CSN_LO Reg.LEDG_CSN_HI (s.led.nextCsn - 1)
    have s := s.setFld Reg.LEDG_STAT 31 29 (if s.led.ringPages < 4 * 65536 then 3 else 1)
    have s := (s.openStore.readStripes reads).loseRecords gone
    have span := s.outageSpan
    have s := (s.restoreZones s.committed s.led.ckptTime span.1 span.2).showGraph
    have s := s.rebuildRecords
    have s := s.releasePages.pumpAll
    (s.raise 0x38 2).endStep 7

/-- The wait of step 8 starts at this cycle (R368). -/
def State.startPairing (s : State) : State := { s with boot := { s.boot with pairAt := s.cycle } }

/-- The module finds itself fenced as it starts, and enters FENCED (R336, R368). -/
def State.startFenced (s : State) : State := (s.setFld Reg.PAIRS_STAT 31 29 3).raise 0x4C 5

/-- Step 8: a module that can pair waits for a HELLO (R368); any other one is SOLO, or FENCED while its fence input is asserted (R336,
Table 22.2). -/
def State.stepPairing (s : State) (link : Bool) : State :=
  if s.pairable then
    (((s.setFld Reg.PAIRS_STAT 31 29 4).setFlag Reg.PAIRS_STAT 23 (link && s.linkWorks)).dropSources).startPairing.sendPairHello
  else (if s.fenced && s.mayFence then s.startFenced else s).endStep 8

/-- PAIRING_TIMEOUT (R368): 100 cycles without a valid HELLO. -/
def execPairingTimeout (t : Angle) (s : State) : Outcome :=
  have s := s.tick t
  .next (
    if s.pairState ≠ 4 ∨ s.cycle < s.boot.pairAt + 100 ∨ s.boot.done.contains 8 then s
    else if s.flag Reg.PAIRS_STAT 22 then s.startFenced.endStep 8
    else ((s.setFld Reg.PAIRS_STAT 31 29 1).raiseEpoch.setFence true).endStep 8)

/-- A CUSTODY obligation whose readings waited in the cover queue, which a restart empties, is still to be served: its poll is made again, and
its lane work with it (R45, R51). -/
def State.pollAgain (s : State) (o : Obligation) : Obligation :=
  if o.cls = 0 ∧ o.readings ≠ 0 then
    have n := s.node o.node
    { o with answered := false, readings := 0, rest := o.rest.put n.resource (s.exchangeWork n false 0 o.up) }
  else o

/-- An obligation without the records that have been committed. -/
def Obligation.withoutRsns (o : Obligation) (done : Nat) : Obligation := { o with rsns := o.rsns.filter (fun r => decide (done < r)) }

/-- Obligations at a restart (R51, R366): what is committed ends DONE; every other one whose deadline has passed is revoked OUTAGE; one
bound for a field that the role no longer has is revoked LANE_LOST (R411). -/
def State.restartObligations (s : State) : State :=
  have s := s.slalom.calendar.foldl (fun (s : State) x =>
    have s := s.modObl x.1 (fun o => (s.pollAgain o).withoutRsns s.committed)
    s.settleObl (oblId x.1 x.2)) s
  have past := (s.slalom.calendar.filter (fun x => decide (x.2.deadline ≤ s.now))).map (·.1)
  have s := s.revokeAll 0x18 past
  if s.nv.role ≠ 2 then s
  else s.revokeAll 0x10 ((s.slalom.calendar.filter (fun x => x.2.field)).map (·.1))

/-- A requested instant that fell in an outage whose TAI is known takes the first GAP cycle at or after it (R217); past the committed
schedule it is flagged so (R32). -/
def State.pinGap (s : State) (first gaps dur : Nat) (x : Nat × Instant) : Nat × Instant :=
  match x.2.pin, s.instantTai x.2 with
  | none, some tai =>
    have gap := ((tai * 8000000000 - (s.sweep.capAtLast : Int)).toNat + dur - 1) / max 1 dur
    if gap < gaps then (x.1, { x.2 with
      pin := some ((first + gap) * 65536)
      beyond := decide ((s.sweep.zvalid : Int) < tai)
      late := true })
    else x
  | _, _ => x

/-- Boundaries that were not pinned before the outage, those among them that had not been requested yet, are pinned in it where its TAI is
known (R217). -/
def State.pinOutage (s : State) : State :=
  match s.sweep.outage with
  | none => s
  | some (first, gaps, dur) =>
    have known := s.sweep.mappedAtLast && s.fld Reg.SWEEP_OUT_EST 31 30 != 3 &&
      (match s.sweep.shutdown with | some (c, _) => c + 1 == first | none => false)
    if !known || s.sweep.zones.isEmpty then s
    else
      have s := s.compileTo ((((s.sweep.capAtLast + gaps * dur) / 8000000000 : Nat) : Int) + 1)
      { s with sweep := { s.sweep with instants := s.sweep.instants.map (s.pinGap first gaps dur) } }

/-- Air budgets at a restart (R117): the bins age by the outage; without persisted usage or a valid outage time they are preloaded. A
reset without an outage keeps them. -/
def State.restoreBudgets (s : State) : State :=
  have code := s.fld Reg.SYS_RSTCAUSE 2 0
  have src := s.fld Reg.SWEEP_OUT_EST 31 30
  if code = 2 ∨ code = 3 then
    (s.setFlag Reg.AIRC_DUTYSTAT 0 s.field.coldUntil.isSome).setFlag Reg.AIRC_DUTYSTAT 1 true
  else if s.sweep.shutdown.isSome ∧ !s.boot.shutLost ∧ (src = 0 ∨ src = 2) then
    ({ s with field := { s.field with coldUntil := none } }.setFlag Reg.AIRC_DUTYSTAT 0 false).setFlag Reg.AIRC_DUTYSTAT 1 true
  else { s with field := { s.field with bins := [], coldUntil := some s.second } }.setFlag Reg.AIRC_DUTYSTAT 0 true

/-- Leases at a restart (R106): the outage time that R27 takes counts against each; `uptime` holds VIGIL's already, and with outage source
NONE every lease has expired. -/
def State.restoreLeases (s : State) : State :=
  have code := s.fld Reg.SYS_RSTCAUSE 2 0
  have src := s.fld Reg.SWEEP_OUT_EST 31 30
  if code = 2 ∨ code = 3 then s
  else
    have vigil := if src = 0 ∨ src = 2 then s.reg Reg.SWEEP_OUT_VIG * 1953125 / 8 else 0
    have more := match s.sweep.outage with | some (_, gaps, dur) => gaps * dur - vigil | none => 0
    (s.field.nodes.filter (fun x => x.2.medium == 2 && x.2.leaseEnd.isSome)).foldl (fun (s : State) x =>
      have n := { x.2 with leaseEnd := x.2.leaseEnd.map (fun e => e - more) }
      have s := s.setNode x.1 n
      if src = 3 ∨ !(s.leaseRuns n) then s.expireLease x.1 else s) s

/-- The first intervals and demand intervals after a restart are PART (R212, R221, Table 18.3). -/
def State.partIntervals (s : State) : State :=
  { s with billing := { s.billing with
    chans := s.billing.chans.mapVals (fun _ b => { b with part := true })
    programs := s.billing.programs.mapVals (fun _ p => { p with dpart := true }) } }

/-- The revocations of step 9 among the obligations with later deadlines: without capacity of a lane or loop before field start, with
reason OUTAGE (R51, R366). -/
def State.revokeOutage (s : State) : State :=
  (s.recompute 0x18).revokeLoop (s.slalom.calendar.length + 1)

/-- Step 9: the restart work, in the order of R369. -/
def State.stepCatchUp (s : State) : State :=
  have s := s.restartObligations.revokeOutage
  have s := s.pinOutage.lateBoundaries
  have s := if s.serves && !s.pfStop then s.processDue (s.sweep.instants.length + 1) else s
  have s := s.rebatch 1
  have s := s.endStep 9
  have s := s.logTamper
  have s := s.restoreBudgets.restoreLeases.partIntervals
  s.recompute 0x18

/-- Step 10: field start (R370): the loops sense, and the module is in service. -/
def State.stepField (s : State) (ms : Nat) : State :=
  have s := s.setFld Reg.SYS_BOOTSTAT 31 16 (min ms 65535)
  have s := (List.range 4).foldl (fun (s : State) n =>
    if s.maySource n ∧ (s.loopState n = 0 ∨ s.loopState n = 6) then s.setLoopState n 2 else s) s
  ((s.endStep 10).raise 0x00 2).resumeInterlocks

/-- The steps that a step depends on (Table 18.1), and its number. -/
def stepNeeds (n : Nat) : List Nat :=
  [[], [], [1], [1], [2], [4], [1], [3, 5], [5], [7, 8], [3, 6, 9]].getD n []
def stepNumber (x : StartStep) : Nat :=
  match x with
  | .supply => 1
  | .boot _ => 2
  | .sweep => 3
  | .keeper _ => 4
  | .selfTest _ _ _ => 5
  | .bank _ _ => 6
  | .mount _ _ _ => 7
  | .pairing _ => 8
  | .catchUp => 9
  | .fieldStart _ => 10

/-- A start-up step may end: the steps before it have, step 3 has an accepted crossing, and step 10 finds the sweep LOCKED. -/
def State.stepReady (s : State) (n : Nat) : Bool :=
  s.boot.hold == 0 && !(s.boot.done.contains n) && (stepNeeds n).all (fun d => s.boot.done.contains d) &&
    (n != 3 || s.timebase != 0) && (n != 10 || s.timebase == 2) && (n != 8 || s.pairState != 4)

/-- STARTUP_STEP (R360). -/
def execStartupStep (t : Angle) (x : StartStep) (s : State) : Outcome :=
  have s := s.tick t
  .next (
    if !(s.stepReady (stepNumber x)) then s
    else match x with
      | .supply => s.stepSupply
      | .boot card => s.stepBoot card
      | .sweep => s.endStep 3
      | .keeper intact => s.stepKeeper intact
      | .selfTest ms tests queues => s.stepTest ms tests queues
      | .bank c v => s.stepBank c.toNat v.toNat
      | .mount readable stop reads => s.stepMount readable stop reads
      | .pairing link => s.stepPairing link
      | .catchUp => s.stepCatchUp
      | .fieldStart ms => s.stepField ms)

end Sys2Proof.Machine
end

