-- ==== Sys2Proof/Machine/Commit.lean ====
section
/-!
DEFINITION. The completion of a commit (R239, R245, R246), checkpoints (R256) and DRAM errors (R233).
-/

namespace Sys2Proof.Machine

/-- What a completed group replaces is kept until a state checkpoint completes (R256, R257). -/
def State.keepUndo (s : State) (g : CommitGroup) : State :=
  have u : StoreUndo := {
    csn := g.csn
    first := g.first
    shutdown := bit 0 g.flags
    map := s.led.map
    pages := s.led.pages
    sbs := s.led.sbs
    cfg := s.led.cfg
    cfgLost := s.led.cfgLost
    work := s.led.kept }
  { s with led := { s.led with
    undo := if bit 1 g.flags then [] else u :: s.led.undo
    kept := if bit 0 g.flags then s.led.kept else g.work } }

/-- The map deltas of a completed group take effect (R239): page entries, relocations of pages that are still mapped, and superblocks
listed for erase, as far as they are closed and hold nothing mapped any more (R241). -/
def State.applyDeltas (s : State) (g : CommitGroup) : State :=
  have map := g.listed.foldl (fun (m : SMap Nat) x => m.put x.1 x.2) s.led.map
  have map := g.rels.foldl (fun (m : SMap Nat) x => if (m.find x.1).isSome then m.put x.1 x.2 else m) map
  have pages := g.infos.foldl (fun (m : SMap PageInfo) x => m.put x.1 x.2) s.led.pages
  have s := { s with led := { s.led with
    map := map
    pages := pages } }
  g.erases.foldl (fun (s : State) n =>
    if (s.sb n).phase = 2 ∧ (s.validPages n).isEmpty then s.setSb n { s.sb n with phase := 3 } else s) s

/-- The register words of the CONFIG records of a group (R367): a void one leaves the word before it in force. -/
def State.commitConfig (s : State) (g : CommitGroup) : State :=
  have mine := s.led.recs.filter (fun x => decide (g.first ≤ x.1) && decide (x.1 ≤ g.last)) ++
    s.led.side.filter (fun x => decide (s.led.sideDone ≤ x.1) && decide (x.1 < g.sideEnd))
  mine.foldl (fun (s : State) x =>
    match configWord x.2 with
    | none => s
    | some (k, w) =>
      have lost := s.led.cfgLost.filter (· ≠ k)
      if x.2.void then { s with led := { s.led with cfgLost := k :: lost } }
      else { s with led := { s.led with
        cfg := s.led.cfg.put k w
        cfgLost := lost } }) s

/-- CUSTODY obligations whose records are all committed become DONE (R37, R239), and the late commits of revoked ones are recorded
(R50). -/
def State.commitObligations (s : State) (last : Nat) : State :=
  have left := fun (l : List Nat) => l.filter (fun r => decide (last < r))
  have due := s.slalom.calendar.filter (fun x => !x.2.rsns.isEmpty)
  have s := due.foldl (fun (s : State) x =>
    (s.modObl x.1 (fun o => { o with rsns := left o.rsns })).settleObl (oblId x.1 x.2)) s
  have late := s.slalom.late.map (fun (x : LateCommit) => { x with rsns := left x.rsns })
  have s := { s with slalom := { s.slalom with late := late.filter (fun x => !x.rsns.isEmpty) } }
  (late.filter (fun x => x.rsns.isEmpty)).foldl (fun (s : State) x => s.ringPut ⟨x.id, x.word1, s.now⟩) s

/-- The commit latency of instrument 0x60 in µs (Table 20.1): where it is not whole, one of its two neighbours, free (log 2). -/
def State.sampleLatency (s : State) (closedAt : Nat) : State :=
  have n := (s.now - closedAt) * s.sweep.period
  have q := n / 524288000
  if n % 524288000 = 0 then s.sample 0x60 q
  else
    have up := s.drawBit
    up.2.sample 0x60 (q + b2n up.1 : Nat)

/-- After PARKED every remaining domain except VIGIL turns off (R345): the sweep stands. -/
def State.powerDown (s : State) (hold : Nat) : State :=
  have s := s.enterVigil
  { s with boot := { s.boot with hold := hold } }

/-- The store resumes without a restart (R246). -/
def State.unshed (s : State) : State := s.boot.shed.foldl State.domainOn s
def State.markResumed (s : State) : State :=
  { s with
    led := { s.led with resumed := true }
    boot := { s.boot with
      shed := []
      resumed := true } }
def State.resumeStore (s : State) : State :=
  (((s.setFld Reg.LEDG_STAT 31 29 1).raise 0x38 3).setFld Reg.PWR_PWRSTAT 31 29 0).unshed.markResumed.keepWorking

/-- A SHUTDOWN commit is complete (R245). A reset that waited for it follows; after a warning the module powers down, holds in
CRIT, or resumes where the supply is back. -/
def State.afterPark (s : State) (first : Nat) (supplied : Bool) : State :=
  have s := { s with boot := { s.boot with shutFirst := first } }
  match s.boot.kind with
  | some (kind, src) => s.performReset kind src
  | none =>
    if s.fld Reg.PWR_PWRSTAT 31 29 = 3 then s.powerDown 2
    else if supplied then s.resumeStore
    else s.powerDown 0

/-- The store is PARKED. -/
def State.park (s : State) (first : Nat) (supplied : Bool) : State :=
  ((s.setFld Reg.LEDG_STAT 31 29 2).raise 0x38 3).afterPark first supplied

/-- What the completion of a commit group does to the ledger and to what waited for its records (R239). -/
def State.settleGroup (s : State) (g : CommitGroup) (rest : List CommitGroup) : State :=
  have was := s
  have s := { s with led := { s.led with groups := rest } }
  have s := (s.keepUndo g).applyDeltas g
  have cost := g.charged.foldl (fun a r => a + ((s.heldRecs.find r).map (fun x => recordCost x.cls)).getD 0) 0
  have s := s.setUnc (s.reg Reg.SLALOM_E_UNC - cost)
  have s := (s.setReg64 Reg.LEDG_CSN_LO Reg.LEDG_CSN_HI g.csn).setReg64 Reg.LEDG_RSN_LO Reg.LEDG_RSN_HI g.last
  have s := s.setReg64 Reg.LEDG_CMT_AT_LO Reg.LEDG_CMT_AT_HI s.now
  have s := if s.flag Reg.LEDG_CFG 0 then s.raise 0x38 0 else s
  have s := if bit 1 g.flags then { s with led := { s.led with ckptCsn := g.csn, ckptOpen := false, ckptArea := 1 - s.led.ckptArea } }.raise 0x38 1
    else s
  have s := s.commitConfig g
  have s := { s with led := { s.led with sideDone := g.sideEnd } }
  have s := s.commitObligations g.last
  have s := (s.descCommitted g.last).topupsCommitted g.last
  have s := if bit 0 g.flags then s else s.periodsCommitted g.last false
  have s := s.updCommitted
  have s := if s.nv.role = 1 then { s with segOut := s.segOut ++ g.segs } else s
  have s := s.sampleLatency g.closedAt
  (was.checkSpace s).releasePages

/-- A complete SHUTDOWN group parks the store; any other one frees the mirror and the packet queues it held. -/
def State.endGroup (s : State) (g : CommitGroup) (supplied : Bool) : State :=
  if bit 0 g.flags then s.park g.first supplied else s.drainMirror.pumpAll

/-- The oldest group is complete (R239). -/
def State.completeGroup (s : State) (g : CommitGroup) (rest : List CommitGroup) (supplied : Bool) : State :=
  (s.settleGroup g rest).endGroup g supplied

/-- COMMIT_COMPLETE (R239): the last stripe of the oldest group, once it has been issued, reports success. `supplied` tells that the supply
has recovered (R246). -/
def execCommitComplete (t : Angle) (supplied : Bool) (s : State) : Outcome :=
  have s := s.tick t
  match s.led.groups with
  | [] => .next s
  | g :: rest => if g.stripes.length = 1 ∧ !s.led.stalled then .next (s.completeGroup g rest supplied) else .next s

/-- The SYSDATA records of a state checkpoint (Table 12.18, R19, R255, R357, R391). -/
def State.checkpointData (s : State) : State :=
  have s := s.sysdata 0x01 (leBytes 4 (s.reg Reg.SWEEP_PHOFS) ++ leBytes 4 (b2n (s.phase 2).learned + 2 * b2n (s.phase 3).learned))
  have s := s.sysdata 0x02 (leBytes 4 s.hours ++ leBytes 4 s.powerCycles)
  have r := s.appendSysdata 0x03 (logbookBody s.instrumentBytes s.log.entries)
  have s := r.2
  have copy := (r.1, s.log.instruments, s.log.entries)
  have s := { s with log := { s.log with copies := copy :: s.log.copies.take 7 } }
  s.sysdata 0x05 s.groomBody

/-- A checkpoint opens with its records in the open group (R256). -/
def State.startCheckpoint (s : State) : State :=
  { s with led := { s.led with
    ckptOpen := true
    ckptAt := s.cycle
    ckptTime := s.now } }.checkpointData

/-- CHECKPOINT (R256): every CKPT_CYC cycles; it is made later where its group finds no place. -/
def execCheckpoint (t : Angle) (s : State) : Outcome :=
  have s := s.tick t
  have every := clampNat 500 15000 (s.fld Reg.LEDG_CKPTCFG 15 0)
  .next (
    if !s.storeRuns || s.pfStop || s.led.ckptOpen || s.cycle < s.led.ckptAt + every then s
    else if s.startCheckpoint.groupFits 2 then s.startCheckpoint.closeGroup 2
    else s)

/-- DRAM_ERROR (R233): a corrected error is counted; an uncorrectable one in a charged record is repaired from its other copy;
elsewhere the module commits and restarts. -/
def execDramError (t : Angle) (e : DramError) (s : State) : Outcome :=
  have s := s.tick t
  .next (
    match e with
    | .corrected => s.bump Reg.LEDG_DRAM_CE
    | .charged => s.bump Reg.LEDG_DRAM_UE
    | .elsewhere => ((s.bump Reg.LEDG_DRAM_UE).raiseAlert 0x38 11).reportFailure.startReset 2 2)

end Sys2Proof.Machine
end

