-- ==== Sys2Proof/Machine/Bist.lean ====
section
/-!
DEFINITION. The self-test in service (R378 to R382): slices, verdicts, late passes and the request for external scan.
-/

namespace Sys2Proof.Machine

/-- Slices run: SVC_EN is 1, the module is in service, and neither a shutdown commit nor a handover runs (R378, R379). -/
def State.slicesRun (s : State) : Bool :=
  s.flag Reg.BIST_CFG 0 && s.boot.done.contains 10 && s.boot.hold == 0 && !s.pfStop && s.upd.hover.isNone

/-- The register that holds a block's verdict, and the fields of it (Table 19.5). -/
abbrev blockKey (b : Nat) : Nat := bankKey b Reg.BIST_BLK_STAT
def State.slicePos (s : State) (b : Nat) : Nat := s.fld (blockKey b) 15 0

/-- A block that can be tested: present, not UNUSABLE, its domain neither OFF nor FAILED. -/
def State.testable (s : State) (b : Nat) : Bool :=
  decide (b < 42) && !(blockAbsent s.fac.variant b) && !(s.blockBad b) && s.dom (blockDomain b) != 3 && s.dom (blockDomain b) != 4

/-- Keyed state of a block is zeroized before its scan (R381); keys are loaded again for the next job. -/
def State.zeroizeBlock (s : State) (b : Nat) : State :=
  if 0x07 ≤ b ∧ b ≤ 0x0A then
    have e := if b = 0x07 then 3 else b - 0x08
    s.setEngine e { s.engine e with held := none }
  else s

/-- The slice has passed: the next one is due, and the last one ends the pass (Table 19.6). -/
def State.slicePass (s : State) (b : Nat) : State :=
  have pos := s.slicePos b + 1
  if pos < blockSlices b then s.setFld (blockKey b) 15 0 pos
  else ({ s with boot := { s.boot with passAt := s.boot.passAt.del b } }.setReg (blockKey b) (2 ^ 28)).raise 0x48 1

/-- Lift queues whose signatures fail are lost with what they hold (Table 19.1, Table 19.2). -/
def State.loseQueues (s : State) (l : List Nat) : State :=
  { s with
    boot := { s.boot with queuesBad := s.boot.queuesBad ++ l.filter (fun q => !s.boot.queuesBad.contains q) }
    lift := { s.lift with queues := s.lift.queues.mapVals (fun q x => if l.contains q then { waiting := x.waiting : LiftQueue } else x) } }

/-- A block becomes UNUSABLE in service (R380): its units are lost; for a "Module" block the shutdown commit and a SYSTEM reset
follow. -/
def State.blockFails (s : State) (b : Nat) (queues : List (Fin 32)) : State :=
  have pos := s.slicePos b
  have s := s.setReg (blockKey b) (2 ^ 29 + 2 ^ 28 + pos)
  have s := s.setReg64 (bankKey b Reg.BIST_FAIL_AT_LO) (bankKey b Reg.BIST_FAIL_AT_HI) s.now
  have s := (s.logEntry 3 0x48 0x0002 (b + pos * 2 ^ 32)).raiseAlert 0x48 2
  have s := if b = 0x0E then (s.loseQueues (queues.map (·.val))).recomputeOn 0x11 [] else s
  have s := (s.loseBlock b).reportFailure
  if blockModule b then s.startReset 2 3 else s

/-- The resource that a slice of a block is charged to, the first of its units, or the control cores, and its work of 2 ms (R378; log
67). -/
def sliceRes (b : Nat) : Nat := if b = 0x06 then 0x28 else (blockUnits b).headD 0x38
def State.sliceWork (s : State) : Nat := s.nsTicksUp 2000000

/-- The TEST obligation of a block's slice stands (R378). -/
def State.sliceStands (s : State) (b : Nat) : Bool :=
  match s.boot.slice with
  | some (x, id) => x == b && (s.obl id).isSome
  | none => false

/-- The repeat of a slice whose signature differed, within 2 cycles, in capacity admitted to no one (R380). -/
def State.repeatRuns (s : State) (b : Nat) : Bool :=
  match s.boot.again with
  | some (x, _, c) => x == b && decide (s.cycle ≤ c + 2) &&
      (s.fitsWork s.slalom.calendar ((c + 3) * 65536) [(sliceRes b, s.sliceWork)]).isNone
  | none => false

/-- The sweep time by which a block's next slice is due: the slices of a pass are spread evenly over PERIOD_H hours (R378). -/
def State.sliceDue (s : State) (b : Nat) : Nat :=
  s.boot.passAt.getD b s.now +
    s.nsTicks (3600000000000 * clampNat 1 168 (s.fld Reg.BIST_CFG 15 8)) * (s.slicePos b + 1) / blockSlices b

/-- The block whose slice is scheduled next: one whose signature differed, else the one that is due first, the lowest of those due at
the same time (DESIGN CHOICE, log 67). -/
def State.nextSlice (s : State) : Option Nat :=
  match s.boot.again with
  | some (b, _, _) => some b
  | none => ((List.range 42).filter s.testable).foldl (fun best b => match best with
      | none => some b
      | some m => if s.sliceDue b < s.sliceDue m then some b else some m) none

/-- The BIST scheduler makes the TEST obligation of the next slice, one at a time across the module; one that is refused is asked for
again in the next cycle (R37, R378). -/
def State.scheduleSlice (s : State) : State :=
  have open' := match s.boot.slice with | some (_, id) => (s.obl id).isSome | none => false
  if open' || !s.slicesRun || s.flag Reg.SLALOM_STATUS 31 then s
  else match s.nextSlice with
    | none => s
    | some b =>
      have r := s.testOwn {
        cls := 3, deadline := max (s.sliceDue b) (s.now + s.admitLead * 65536), rest := [(sliceRes b, s.sliceWork)] }
      match r.1 with
      | some id => { r.2 with boot := { r.2.boot with
          slice := some (b, id), passAt := r.2.boot.passAt.put b (s.boot.passAt.getD b s.now) } }
      | none => r.2

/-- The obligation of a slice that has run and whose signature has been compared is complete (Table 2.1). -/
def State.sliceDone (s : State) (b : Nat) : State :=
  if s.sliceStands b then s.endId (s.boot.slice.map (·.2)) 0 0 else s

/-- BIST_SLICE (R378 to R381): the block's scheduled slice ends with a signature. One that differs is repeated, and a second difference
in a row makes the block UNUSABLE. A slice that Slalom revokes carries the reason of the recomputation that runs, or PREEMPT; one that
is cut short runs again under the obligation that stands. -/
def execBistSlice (t : Angle) (blk : BitVec 6) (sig : BitVec 64) (finish : SliceEnd) (s : State) : Outcome :=
  have s := s.tick t
  have b := blk.toNat
  .next (
    if !s.slicesRun || !(s.testable b) || !(s.sliceStands b || s.repeatRuns b) then s
    else
      have s := ((s.wake (blockDomain b)).touch (blockDomain b)).zeroizeBlock b
      have s := s.bump Reg.BIST_SLICES
      have pos := s.slicePos b
      have second := match s.boot.again with
        | some (x, n, _) => x == b && n == pos
        | none => false
      have drop := { s with boot := { s.boot with again := if second then none else s.boot.again } }
      match finish with
      | .pass => (((drop.setReg64 (bankKey b Reg.BIST_SIG_LO) (bankKey b Reg.BIST_SIG_HI) sig.toNat).sliceDone b).slicePass b)
      | .differs queues =>
        have s := (drop.setReg64 (bankKey b Reg.BIST_SIG_LO) (bankKey b Reg.BIST_SIG_HI) sig.toNat).bump Reg.BIST_MISMATCH
        have s := s.sliceDone b
        if second then s.blockFails b queues else { s with boot := { s.boot with again := some (b, pos, s.cycle) } }
      | .revoked =>
        if s.sliceStands b then
          s.endId (s.boot.slice.map (·.2)) 1 (if s.flag Reg.SLALOM_STATUS 31 then s.revokeReason (sliceRes b) else 0x19)
        else s.bump Reg.BIST_ABORTED
      | .cut => s.bump Reg.BIST_ABORTED)

/-- BIST_PASS_LATE (R378): a pass cannot end within PERIOD_H hours; it continues. -/
def execBistPassLate (t : Angle) (blk : BitVec 6) (s : State) : Outcome :=
  have s := s.tick t
  .next (if s.testable blk.toNat then (s.bump Reg.BIST_LATE_PASS).raise 0x48 3 else s)

/-- SCAN_REQUEST (R382): in FACTORY, SERVICE and RECOVERY, after step 1 and before step 5 begins. -/
def effScanCtl (v : Word) (s : State) : WriteResult :=
  if !bit 0 v.toNat then .ignored s
  else if (s.nv.lc = 1 ∨ s.nv.lc = 4 ∨ s.nv.lc = 5) ∧ s.boot.done.contains 1 ∧ !(s.boot.done.contains 4) then
    .done (s.setFlag Reg.BIST_SCANCTL 0 true)
  else .discard s 0x07
def execScanRequest (t : Angle) (p : Path) (v : Word) (s : State) : Outcome := .next ((s.tick t).hostWrite p 0x48 0x044 (effScanCtl v))

/-- BIST.STAT (Table 19.5): the phase, the units unusable and the length of the last start-up test. -/
def State.readBistStat (s : State) : Nat :=
  have phase := if s.fld Reg.BIST_STAT 31 29 = 3 then 3
    else if s.boot.done.contains 4 && !(s.boot.done.contains 5) then 1
    else if s.slicesRun then 2 else 0
  phase * 2 ^ 29 + min 255 s.unitsLost * 2 ^ 16 + s.fld Reg.BIST_STAT 10 0
/-- The registers of the block in BLK_SEL. -/
def State.readBlock (s : State) (k : Nat) : Nat :=
  have b := s.fld Reg.BIST_BLK_SEL 5 0
  if 42 ≤ b then 0
  else if k = Reg.BIST_REF_LO then (Config.bistRef b).toNat % 2 ^ 32
  else if k = Reg.BIST_REF_HI then (Config.bistRef b).toNat / 2 ^ 32
  else s.reg (bankKey b k)

end Sys2Proof.Machine
end

