-- ==== Sys2Proof/Machine/Cycle.lean ====
section
/-!
DEFINITION. CYCLE_START: the angle-0 tick of the sweep (R25) and what the other families do in every cycle.
-/

namespace Sys2Proof.Machine

/-- The samples that the instruments take in every cycle (Table 20.1). -/
def State.cycleSamples (s : State) : State :=
  have s := (List.range 4).foldl (fun (s : State) n => if s.loopState n = 3 then s.sample (0x08 + n) (s.fld (Reg.LOOP_VOLT n) 15 0) else s) s
  have s := match s.sweep.fNom with
    | some f => s.sample 0x11 (((s.fld Reg.SWEEP_FREQ 23 0 : Int) - f) / 10)
    | none => s
  have s := if s.cycle % 50 ≠ 0 then s
    else (List.range 3).foldl (fun (s : State) i => s.sample (0x12 + i) ((s.fld Reg.THERM_TNOW (8 * i + 7) (8 * i) : Int) - 40)) s
  have s := (List.range 32).foldl (fun (s : State) q => s.sample (0x18 + q) (s.queue q).level) s
  have s := if s.cycle % 256 ≠ 0 ∨ s.region ≠ 1 then s
    else (List.range 6).foldl (fun (s : State) b => s.sample (0x38 + b) (256 * s.usage b / budgetOf b : Nat)) s
  (List.range 16).foldl (fun (s : State) l => s.sample (0x50 + l) (s.stagedOn l)) s

/-- The idle counts at the end of a cycle (R348): domains in RUN without a register access count it, as do those in DOZE. `busy`
names the domains in which a job, a frame, a sample or another domain's memory access fell in the cycle that ends (log 70). -/
def State.countIdle (s : State) (busy : Nat) : State :=
  have s := (List.range 25).foldl (fun (s : State) d =>
    if s.dom d = 0 then
      (if busy.testBit d then s.setFld (domKey d) 15 0 0
      else if s.touched.contains d then s
      else s.setFld (domKey d) 15 0 (satAdd 16 (s.fld (domKey d) 15 0) 1))
    else if s.dom d = 1 then { s with idleRetain := s.idleRetain.put d (s.idleRetain.getD d 0 + 1) }
    else s) s
  { s with touched := [] }

/-- Resets that fall due at a cycle start: a requested one (Table 23.9), and the restart of a transition whose twin has not taken over
(R409). -/
def State.dueResets (s : State) : State :=
  have s := match s.lcYield with
    | some c => if c ≤ s.cycle then ({ s with lcYield := none }).startReset 3 0 else s
    | none => s
  match s.boot.due with
  | some (kind, src, c) =>
    if c ≤ s.cycle ∨ s.timebase = 0 then ({ s with boot := { s.boot with due := none } }).startReset kind src else s
  | none => s

/-- A store that has resumed accepts again from the next cycle start on (R246), and tamper entries that waited enter the ledger (R230). -/
def State.resumeAccepting (s : State) : State :=
  if s.boot.resumed then ({ s with boot := { s.boot with resumed := false } }.setFlag Reg.SLALOM_STATUS 29 false).logTamper else s

/-- The servo slews the PTP counter in the cycle that ends, by no more than 200 ppm of it (R262). -/
def State.slewPtp (s : State) : State :=
  have most : Int := s.sweep.period / 5000
  have d := max (-most) (min most s.ptp.slew)
  { s with ptp := { s.ptp with adj := s.ptp.adj + d, slew := s.ptp.slew - d } }

/-- CYCLE_START (R25): `cap` is the reference's count at the tick, to which the servo's part is added (R262), `vigil` the VIGIL counter.
Nothing ticks while the sweep stands. -/
def execCycleStart (cap vigil : Nat) (busy : BitVec 25) (s : State) : Outcome :=
  if s.timebase = 0 then .next s.dueResets
  else
    have s := s.countIdle busy.toNat
    have s := s.slewPtp
    have s := (s.sweepCycle (s.ptpTime cap) vigil).resumeAccepting
    have s := ((s.refreshPhase 1).refreshPhase 2).refreshPhase 3
    have s := s.cycleSamples
    have s := (s.compile.advanceWindows).checkSched
    have s := s.checkAlarm.trialCycle.pairCycle.scheduleSlice.forwardDue
    .next s.pumpAll.dueResets

end Sys2Proof.Machine
end

