-- ==== Sys2Proof/Machine/Reads.lean ====
section
/-!
DEFINITION. What a read of every register answers: the common header (Tables 23.2 to 23.5), the registers that latch on
read (R276), the windows behind selectors, and the registers that show the state of their block. A register that none of
these names answers the word it holds.
-/

namespace Sys2Proof.Machine

/-- The test block of a page's unit, or of its domain, is UNUSABLE. -/
def State.pageBad (s : State) (page : Nat) : Bool :=
  (List.range 42).any (fun b => s.blockBad b && (match pageUnit page with
    | some r => (blockUnits b).contains r
    | none => blockDomain b == pageDomain page))

/-- STAT of a page header (Table 23.4). READY: the domain is in RUN and step 2 of the start-up has ended (log 48). -/
def State.readStat (s : State) (page : Nat) : Nat :=
  have d := pageDomain page
  have absent := pageAbsent s.fac.variant page
  have ready := !absent && s.dom d == 0 && s.boot.done.contains 2 && !(s.pageBad page)
  have lost := match pageUnit page with
    | some r => (s.slalom.lost.find r).isSome
    | none => false
  b2n ready * 2 ^ 31 + b2n (ready && lost) * 2 ^ 30 + b2n (absent || s.dom d == 4 || s.pageBad page) * 2 ^ 29 +
    (if absent then 3 else s.dom d) * 2 ^ 18 + d

/-- CTRL of a page header: ENABLE of a LINE, AIR or LOOP page reads its bit of SYS.LANE_EN (R422). -/
def State.readCtrl (s : State) (page : Nat) : Nat :=
  match laneBit page with
  | some i => b2n (s.flag Reg.SYS_LANE_EN i)
  | none => s.reg (page * 0x1000 + 0x00C) &&& 5

/-- The common header of a page (Table 23.2). -/
def State.readHeader (s : State) (page off : Nat) : Nat :=
  have kind := (pageKind page).getD page
  if off = 0x000 then (0x4B00 + kind) * 2 ^ 16 + (page - kind) * 2 ^ 8 + 1
  else if off = 0x004 then 0x01000100
  else if off = 0x00C then s.readCtrl page
  else if off = 0x010 then s.readStat page
  else if off = 0x014 then s.reg (evRaw page)
  else if off = 0x018 then s.pend page
  else if off = 0x01C ∨ off = 0x020 then s.reg (evEn page)
  else if off = 0x008 ∨ (0x024 ≤ off ∧ off ≤ 0x030) then s.reg (page * 0x1000 + off)
  else 0

/-- SYS.MODE and SYS.PROV (Table 22.5). -/
def State.degraded (s : State) : Nat := if s.noService then 2 else if s.unitsLost = 0 then 0 else 1
def State.readMode (s : State) : Nat :=
  s.nv.role % 4 * 2 ^ 30 + s.pairState % 8 * 2 ^ 27 + s.plan % 4 * 2 ^ 24 + s.region % 4 * 2 ^ 22 + s.nv.lc % 8 * 2 ^ 18 +
    s.degraded * 2 ^ 16 + b2n s.inService * 2 ^ 15 + min 255 s.unitsLost
def State.readProv (s : State) : Nat :=
  s.nv.planProv % 4 * 2 ^ 24 + s.nv.regionProv % 4 * 2 ^ 22 + s.nv.roleProv % 4 * 2 ^ 20 + s.nv.roleNext % 4 * 2 ^ 16

/-- VARIANT of SYS.INFO. -/
def variantCode : Variant → Nat
  | .f => 0 | .s => 1 | .n => 2 | .h => 3

/-- The entry of the error ring at ERR_RD. -/
def State.readErr (s : State) (k : Nat) : Nat :=
  match s.errRing.find (s.fld Reg.SYS_ERR_RD 4 0) with
  | none => 0
  | some e =>
    if k = Reg.SYS_ERR_D0 then e.cap.toNat else if k = Reg.SYS_ERR_D1 then e.addr.toNat
    else if k = Reg.SYS_ERR_D2 then e.time % 2 ^ 32 else e.time / 2 ^ 32
def State.readSys (s : State) (k : Nat) : Nat :=
  if k = Reg.SYS_INFO then variantCode s.fac.variant * 2 ^ 30 + s.fac.stepping % 256 * 256
  else if Reg.SYS_SERIAL0 ≤ k ∧ k ≤ Reg.SYS_SERIAL3 then s.fac.serial.toNat / 2 ^ (32 * (3 - (k - Reg.SYS_SERIAL0) / 4)) % 2 ^ 32
  else if Reg.SYS_ERR_D0 ≤ k ∧ k ≤ Reg.SYS_ERR_D3 then s.readErr k
  else if k = Reg.SYS_MODE then s.readMode
  else if k = Reg.SYS_PROV then s.readProv
  else s.reg k

/-- The frequencies of Table 23.8 in kHz, rounded; CD11 follows the sweep. -/
def State.clockKhz (s : State) (cd : Nat) : Nat :=
  if cd = 11 then (65536 * 8000000 + s.sweep.period / 2) / max 1 s.sweep.period
  else [33, 25000, 1200000, 600000, 1066000, 800000, 500000, 200000, 49152, 32000, 125000, 0, 2000, 250000].getD cd 0
/-- CLK_STAT of the clock in CLK_SEL (Table 17.9, log 49): what a clock marked FAIL does is open. -/
def State.readClock (s : State) : State × Nat :=
  have cd := s.fld Reg.CLK_CLK_SEL 3 0
  have doms := clockDomains cd
  have gated := !doms.isEmpty && doms.all (fun d => s.dom d == 1 || s.dom d == 2 || s.dom d == 3 || s.dom d == 4)
  if 14 ≤ cd then (s, 0)
  else if s.clocks.getD cd 0 = 1 then
    have d := s.draw
    (d.2, d.1 % 4 * 2 ^ 30 + 2 ^ 29 + b2n gated * 2 ^ 28 + d.1 / 4 % 2 ^ 24)
  else
    have runs := cd != 11 || s.timebase != 0
    (s, b2n runs * 2 ^ 31 + b2n runs * 2 ^ 30 + b2n gated * 2 ^ 28 + (if runs then s.clockKhz cd % 2 ^ 24 else 0))

def State.readPwr (s : State) (k : Nat) : Nat :=
  if k = Reg.PWR_BANKCAL then s.fac.cFact % 65536 * 2 ^ 16 + s.fld Reg.PWR_BANKCAL 15 0
  else if k = Reg.PWR_BANKPAR then s.fac.vMin % 65536 * 2 ^ 16 + s.fac.eta % 256
  else s.reg (s.windowKey 0x02 (k % 0x1000))

/-- EVT: the lines that are active, and the pages behind the line in SRC_LINE (Table 23.10). -/
def State.readEvt (s : State) (k : Nat) : Nat :=
  if k = Reg.EVT_LINE_LO then s.lineWord % 2 ^ 32
  else if k = Reg.EVT_LINE_HI then s.lineWord / 2 ^ 32
  else if Reg.EVT_SRC0 ≤ k ∧ k ≤ Reg.EVT_SRC7 then
    (s.linePages (s.fld Reg.EVT_SRC_LINE 5 0)).foldl (fun m p => if p / 32 = (k - Reg.EVT_SRC0) / 4 then m ||| 2 ^ (p % 32) else m) 0
  else s.reg (s.windowKey 0x03 (k % 0x1000))

/-- SWEEP: NOW and CAP latch on read (R17, R276); the period-record cursor stands for each path. -/
def State.readSweep (s : State) (p : Path) (k : Nat) : State × Nat :=
  if k = Reg.SWEEP_NOW_LO then s.readNowLo p
  else if k = Reg.SWEEP_CAP_CYC then
    have sec := s.sweep.tickCap / 8000000000
    (((s.latchAt p Reg.SWEEP_CAP_SEC_LO (sec % 2 ^ 32)).latchAt p Reg.SWEEP_CAP_SEC_HI (sec / 2 ^ 32 % 65536)).latchAt p Reg.SWEEP_CAP_NS
      (s.sweep.tickCap % 8000000000 / 8), s.cycle % 2 ^ 32)
  else if k = Reg.SWEEP_PREC_DATA then s.readPrecData p
  else if k = Reg.SWEEP_CIVSTAT then (s, s.showZone.reg k)
  else if k = Reg.SWEEP_NOW_HI ∨ k = Reg.SWEEP_CAP_SEC_LO ∨ k = Reg.SWEEP_CAP_SEC_HI ∨ k = Reg.SWEEP_CAP_NS ∨ k = Reg.SWEEP_PREC_CUR_LO ∨
      k = Reg.SWEEP_PREC_CUR_HI then (s, s.latched p k)
  else (s, s.reg k)

/-- SLALOM: the resource window, the ring entry at OUT_RD (Table 2.7) and the energy registers. -/
def State.readSlalom (s : State) (k : Nat) : Nat :=
  if k = Reg.SLALOM_RES_STAT then s.readResStat
  else if k = Reg.SLALOM_RES_LOAD then s.readResLoad
  else if k = Reg.SLALOM_RES_RUSED then s.readResRused
  else if k = Reg.SLALOM_RES_RETRY ∧ !(resourceNamed (s.fld Reg.SLALOM_RES_SEL 7 0)) then 0
  else if k = Reg.SLALOM_E_FIX then (1200 - s.fac.eFix) % 65536 * 65536 + s.fac.eFix % 65536
  else if Reg.SLALOM_OUT_DATA0 ≤ k ∧ k ≤ Reg.SLALOM_OUT_DATA3 then
    match s.slalom.ring.find (s.fld Reg.SLALOM_OUT_RD 11 0) with
    | none => 0
    | some e => if k = Reg.SLALOM_OUT_DATA0 then e.id else if k = Reg.SLALOM_OUT_DATA1 then e.word1
      else if k = Reg.SLALOM_OUT_DATA2 then e.time % 2 ^ 32 else e.time / 2 ^ 32
  else s.reg (s.windowKey 0x05 (k % 0x1000))

def State.readPtp (s : State) (k : Nat) : Nat :=
  if k = Reg.PTP_TSQ_STAT then s.readTsqStat
  else if Reg.PTP_TSQ_D0 ≤ k ∧ k ≤ Reg.PTP_TSQ_D3 then s.readTsq ((k - Reg.PTP_TSQ_D0) / 4)
  else if Reg.PTP_SNAP_D0 ≤ k ∧ k ≤ Reg.PTP_SNAP_D7 then s.readSnap ((k - Reg.PTP_SNAP_D0) / 4)
  else s.reg k

/-- STAT.STATE of a line or air lane: 0 OFF, 1 IDLE, 2 TX, 3 RX, 4 LOST, 5 SEARCH (Tables 3.8 and 5.9; log 50). -/
def State.mediaState (s : State) (page r : Nat) : Nat :=
  if !(s.laneEnabled page) then 0
  else if (s.slalom.lost.find r).isSome then 4
  else match s.field.exch.find r with
    | some x => if s.cycle ≤ x.txLast then 2 else 3
    | none => if (r = 8 ∨ r = 9) && s.airSearching (r - 8) then 5 else 1

/-- LINEC and LINEM: the pilot's switch and rotation (Table 4.7), and the node window (Table 4.8). -/
def State.readLinem (s : State) (k : Nat) : Nat :=
  if k = Reg.LINEM_PILOTCFG then setBits 31 31 (b2n (s.pairState == 1 || s.pairState == 2)) (setBits 2 0 s.pairRot (s.reg k))
  else if (Reg.LINEM_NODE_SER_LO ≤ k ∧ k ≤ Reg.LINEM_NODE_FCNT) ∨ (Reg.LINEM_ROUTE_HDR ≤ k ∧ k ≤ Reg.LINEM_ROUTE_C) then
    s.readNodeWindow (k % 0x1000)
  else s.reg k

/-- LIFT: the queues' pointers and the peek window (Tables 7.4 and 7.5). -/
def State.readLift (s : State) (p : Path) (g off : Nat) : State × Nat :=
  have q := 8 * g + (off - 0x100) / 0x40
  have r := off % 0x40
  if off = 0x044 then s.readPeek p g
  else if 0x048 ≤ off ∧ off ≤ 0x054 then (s, s.latched p ((0x18 + g) * 0x1000 + off))
  else if off < 0x100 then (s, s.reg ((0x18 + g) * 0x1000 + off))
  else (s, if r = 0x04 then s.readQptr q else if r = 0x08 then s.readQptr2 q else if r = 0x0C then s.readQstat q
    else s.reg ((0x18 + g) * 0x1000 + off))

/-- FCAC: FP_LO latches FP_HI (Table 9.11). -/
def State.readFcac (s : State) (p : Path) (k : Nat) : State × Nat :=
  if k = Reg.FCAC_INFO then (s, s.readFcacInfo)
  else if k = Reg.FCAC_FP_LO then (s.latchAt p Reg.FCAC_FP_HI (s.fca.points / 2 ^ 32), s.fca.points % 2 ^ 32)
  else if k = Reg.FCAC_FP_HI then (s, s.latched p k)
  else (s, s.reg k)

/-- FCAn: the lane's state, its host ring and its close list (Table 9.13). -/
def State.readFca (s : State) (l off : Nat) : State × Nat :=
  if 0x060 ≤ off ∧ off ≤ 0x07C then s.readSlot l none ((off - 0x060) / 4)
  else (s, if off = 0x044 then s.readLstat l else if off = 0x048 then s.readDescn l else if off = 0x050 then s.readTkStat l
    else if off = 0x058 then 0x900000 + l * 0x2000 else if off = 0x088 then s.readCloseN l
    else if off = 0x080 then 0 else s.reg ((0x20 + l) * 0x1000 + off))

def State.readBal (s : State) (k : Nat) : Nat :=
  if k = Reg.BAL_ZSTAT then s.readZstat
  else if k = Reg.BAL_ZWNUM then s.readZwnum
  else if Reg.BAL_ZREC0 ≤ k ∧ k ≤ Reg.BAL_ZREC31 then s.readZrec ((k - Reg.BAL_ZREC0) / 4)
  else if Reg.BAL_AL_D0 ≤ k ∧ k ≤ Reg.BAL_AL_D15 then s.readAlarm ((k - Reg.BAL_AL_D0) / 4)
  else s.reg k

/-- BILL and TARIF: the channel's registers, RG_LO latching RG_HI, and the program window (Tables 11.7 and 11.8). -/
def State.readBill (s : State) (p : Path) (k : Nat) : State × Nat :=
  if k = Reg.BILL_RG_LO then s.readRgLo p
  else (s, if k = Reg.BILL_RG_HI then s.latched p k else if k = Reg.BILL_MD_AT_LO then s.mdSelected.1 % 2 ^ 32
    else if k = Reg.BILL_MD_AT_HI then s.mdSelected.1 / 2 ^ 32 else if k = Reg.BILL_MD_INFO then s.mdSelected.2
    else if k = Reg.BILL_IV_NUM then s.readIvNum else if k = Reg.BILL_IV_UNITS then s.readIvUnits else s.reg k)
def State.readTarif (s : State) (k : Nat) : Nat :=
  if k = Reg.TARIF_PINFO then s.readPinfo
  else if k = Reg.TARIF_NEXT_LO then s.readNext % 2 ^ 32 else if k = Reg.TARIF_NEXT_HI then s.readNext / 2 ^ 32
  else if k = Reg.TARIF_NEXT_KIND then s.readNextKind else if k = Reg.TARIF_HORIZON then s.readHorizon else s.reg k

/-- CRED: AC_BAL_LO latches AC_BAL_HI; TOPUP is write-only (Table 11.9). -/
def State.readCred (s : State) (p : Path) (k : Nat) : State × Nat :=
  if k = Reg.CRED_AC_BAL_LO then s.readAcBalLo p
  else (s, if k = Reg.CRED_AC_BAL_HI then s.latched p k else if k = Reg.CRED_TOPUP_LO ∨ k = Reg.CRED_TOPUP_HI then 0
    else if k = Reg.CRED_AC_STAT then s.readAcStat else if k = Reg.CRED_PR_NOW then s.readPrNow
    else s.reg (s.windowKey 0x34 (k % 0x1000)))

/-- LEDG: CSN_LO and RSN_LO latch their high words (Table 12.7). -/
def State.readLedg (s : State) (p : Path) (k : Nat) : State × Nat :=
  if k = Reg.LEDG_CSN_LO ∨ k = Reg.LEDG_RSN_LO then (s.latchAt p (k + 4) (s.reg (k + 4)), s.reg k)
  else (s, if k = Reg.LEDG_CSN_HI ∨ k = Reg.LEDG_RSN_HI then s.latched p k
    else if k = Reg.LEDG_PART_SIZE then s.readPartSize else if k = Reg.LEDG_PART_FREE then s.readPartFree
    else if k = Reg.LEDG_PART_OLD_LO then s.readPartOld % 2 ^ 32 else if k = Reg.LEDG_PART_OLD_HI then s.readPartOld / 2 ^ 32
    else if k = Reg.LEDG_RD_OFS then 0x1000000 else s.reg k)
def State.readNand (s : State) (k : Nat) : Nat :=
  if k = Reg.NAND_INFO then s.readNandInfo else if k = Reg.NAND_SBSTAT then s.readSbstat
  else if k = Reg.NAND_DIE_STAT then s.readDieStat else if k = Reg.NAND_DIE_WEAR then s.readDieWear else s.reg k

/-- KEEP: life cycle, the slot in SL_SEL and the public key in PUB_SEL (Table 14.9). -/
def State.readKeep (s : State) (k : Nat) : State × Nat :=
  if k = Reg.KEEP_PUB_D then s.readPub
  else (s, if k = Reg.KEEP_LC_STAT then s.readLcStat else if k = Reg.KEEP_LC_CNT then s.nv.lcCnt
    else if Reg.KEEP_LC_NONCE0 ≤ k ∧ k ≤ Reg.KEEP_LC_NONCE3 then s.nv.nonce.toNat / 2 ^ (32 * ((k - Reg.KEEP_LC_NONCE0) / 4)) % 2 ^ 32
    else if k = Reg.KEEP_SL_ATTR then s.readSlAttr else if k = Reg.KEEP_SL_GEN then s.readSlGen
    else if k = Reg.KEEP_SL_KCV then s.readSlKcv
    else if k = Reg.KEEP_SESS then s.fld k 30 16 * 65536 + s.sessUsed else s.reg k)
/-- MERK and BIST: BNUM_LO and SIG_LO latch their high words (Tables 14.11 and 19.5). -/
def State.readMerk (s : State) (p : Path) (k : Nat) : State × Nat :=
  if k = Reg.MERK_BNUM_LO then (s.latchAt p Reg.MERK_BNUM_HI (s.reg Reg.MERK_BNUM_HI), s.reg k)
  else (s, if k = Reg.MERK_BNUM_HI then s.latched p k else if k = Reg.MERK_STAT then s.readMerkStat
    else if Reg.MERK_PRF_H0 ≤ k ∧ k ≤ Reg.MERK_PRF_H15 then s.readProofHash ((k - Reg.MERK_PRF_H0) / 4) else s.reg k)
def State.readBist (s : State) (p : Path) (k : Nat) : State × Nat :=
  if k = Reg.BIST_SIG_LO then (s.latchAt p Reg.BIST_SIG_HI (s.readBlock Reg.BIST_SIG_HI), s.readBlock k)
  else (s, if k = Reg.BIST_SIG_HI then s.latched p k else if k = Reg.BIST_STAT then s.readBistStat
    else if Reg.BIST_BLK_STAT ≤ k ∧ k ≤ Reg.BIST_FAIL_AT_HI then s.readBlock k else s.reg k)

/-- UPD and SDC: versions, the node cartridge in NC_SEL, the file in FILE_SEL (Tables 21.5 and 21.6). -/
def State.readUpd (s : State) (k : Nat) : Nat :=
  if k = Reg.UPD_VER_ACT then s.readVerOf 1 else if k = Reg.UPD_VER_TRIAL then s.readVerOf 2 else if k = Reg.UPD_VER_RB then s.readVerOf 3
  else if k = Reg.UPD_MIN_LEVEL then s.nv.minLevel else if k = Reg.UPD_BOOTS then s.nv.boots % 16
  else if k = Reg.UPD_NC_STAT then s.readNcStat else if k = Reg.UPD_NC_IMG then s.readNcImg else if k = Reg.UPD_NC_NSEG then s.readNcNseg
  else s.reg (s.windowKey 0x4A (k % 0x1000))
def State.readSdc (s : State) (k : Nat) : Nat :=
  if Reg.SDC_FILE_NAME0 ≤ k ∧ k ≤ Reg.SDC_FILE_NAME7 then s.readFileName ((k - Reg.SDC_FILE_NAME0) / 4)
  else if k = Reg.SDC_FILE_LEN_LO then s.readFileLen false else if k = Reg.SDC_FILE_LEN_HI then s.readFileLen true else s.reg k

/-- ETHn: the MAC address and the calibration are factory values (Table 13.9). -/
def State.readEth (s : State) (i off : Nat) : Nat :=
  have mac := (if i = 0 then s.fac.mac0 else s.fac.mac1).toNat
  if off = 0x044 then mac % 2 ^ 32 else if off = 0x048 then mac / 2 ^ 32
  else if off = 0x090 then (if i = 0 then s.fac.ingCal0 else s.fac.ingCal1).toNat
  else if off = 0x094 then (if i = 0 then s.fac.egCal0 else s.fac.egCal1).toNat
  else s.reg ((0x50 + i) * 0x1000 + off)
/-- FEED: EPOCH, and the window of PEER_SEL, which names the peers 1 to 291 (Table 13.10). -/
def State.readFeed (s : State) (k : Nat) : Nat :=
  if k = Reg.FEED_EPOCH then s.nv.epoch
  else if Reg.FEED_PEER_W0 ≤ k ∧ k ≤ Reg.FEED_PEER_D then
    (if s.fld Reg.FEED_PEER_SEL 8 0 = 0 ∨ 291 < s.fld Reg.FEED_PEER_SEL 8 0 then 0 else s.reg (s.windowKey 0x52 (k % 0x1000)))
  else s.reg k

/-- A register at 0x040 or above, on a path: the state after the read, and the word. -/
def State.readReg (s : State) (p : Path) (page off : Nat) : State × Nat :=
  have k := page * 0x1000 + off
  if page = 0x00 then (s, s.readSys k)
  else if k = Reg.CLK_CLK_STAT then s.readClock
  else if page = 0x02 then (s, s.readPwr k)
  else if page = 0x03 then (s, s.readEvt k)
  else if page = 0x04 then s.readSweep p k
  else if page = 0x05 then (s, s.readSlalom k)
  else if page = 0x06 then (s, s.readPtp k)
  else if 0x08 ≤ page ∧ page ≤ 0x0D ∧ off = 0x048 then (s, setBits 31 29 (s.mediaState page (page - 0x08)) (s.reg k))
  else if page = 0x0F then (s, s.readLinem k)
  else if (page = 0x10 ∨ page = 0x11) ∧ off = 0x048 then (s, setBits 31 29 (s.mediaState page (page - 0x08)) (s.reg k))
  else if page = 0x12 then (s, if 0x074 ≤ off ∧ off ≤ 0x07C then s.readBudget off
    else if 0x050 ≤ off ∧ off ≤ 0x060 then s.readUsMask ((off - 0x050) / 4) else s.reg k)
  else if page = 0x13 then (s, if 0x090 ≤ off ∧ off ≤ 0x0A8 then s.readAirNode off else s.reg k)
  else if 0x14 ≤ page ∧ page ≤ 0x17 ∧ (off = 0x048 ∨ off = 0x04C) then s.readExtreme k
  else if 0x14 ≤ page ∧ page ≤ 0x17 ∧ off = 0x044 then (s, setBits 15 8 (min 255 (s.recentTrips (page - 0x14)).length) (s.reg k))
  else if 0x18 ≤ page ∧ page ≤ 0x1B then s.readLift p (page - 0x18) off
  else if page = 0x1C then s.readFcac p k
  else if 0x20 ≤ page ∧ page ≤ 0x2F then s.readFca (page - 0x20) off
  else if page = 0x30 then (s, s.readBal k)
  else if page = 0x32 then s.readBill p k
  else if page = 0x33 then (s, s.readTarif k)
  else if page = 0x34 then s.readCred p k
  else if page = 0x35 then (s, if 0x060 ≤ off ∧ off ≤ 0x074 then s.readTampLog ((off - 0x060) / 4) else s.reg k)
  else if page = 0x38 then s.readLedg p k
  else if page = 0x39 then (s, s.readNand k)
  else if page = 0x40 then s.readKeep k
  else if page = 0x45 then s.readMerk p k
  else if page = 0x48 then s.readBist p k
  else if k = Reg.LOGB_CUR_DATA then s.readCursor p
  else if page = 0x4A then (s, s.readUpd k)
  else if page = 0x50 ∨ page = 0x51 then (s, s.readEth (page - 0x50) off)
  else if page = 0x52 then (s, s.readFeed k)
  else if Reg.SVC_RESP0 ≤ k ∧ k ≤ Reg.SVC_RESP3 then (s, 0)
  else if page = 0x55 then (s, s.readSdc k)
  else if k = Reg.PAIRS_LAG then (s, s.mirrorLag)
  else if k = Reg.THERM_TMAX then (s.setReg k (s.reg Reg.THERM_TNOW), s.reg k)
  else (s, s.reg (s.windowKey page off))

/-- A read of any address of the register pages on a path: header, registers and what is neither (R13, R417, R418). -/
def State.readAny (s : State) (p : Path) (page off : Nat) : State × Nat :=
  if off % 4 ≠ 0 then (s.capture p page off 0x01, 0)
  else s.hostRead p page off (fun (s : State) => if off < 0x040 then (s, s.readHeader page off) else s.readReg p page off)

/-- LATCHING_READ (R276): a read on a path, which latches what its register latches for that path; `whole` says that the
access is 32 bits wide, and one that is not answers 0 and is captured (R13). -/
def execLatchingRead (t : Angle) (p : Path) (page : BitVec 8) (off : BitVec 12) (whole : Bool) (s : State) : Outcome :=
  have s := s.tick t
  .next (answer p (if whole then s.readAny p page.toNat off.toNat else (s.capture p page.toNat off.toNat 0x01, 0)))

end Sys2Proof.Machine
end

