-- ==== Sys2Proof/Machine/Writes.lean ====
section
/-!
DEFINITION. What a write of every register does: the common header (R421 to R424), the lane enables (R422, R408), ROLE_NEXT
(R410), RESEND (R426), the counter clears, and the routing of every other address to the effect that its family gives it.
-/

namespace Sys2Proof.Machine

/-- A write of IFSEL (R421). -/
def effIfsel (page : Nat) (v : Word) (s : State) : WriteResult :=
  have k := page * 0x1000 + 0x008
  have ver := bits 15 0 v.toNat
  if s.flag k 31 then (if ver = s.fld k 15 0 then .done s else .discard s 0x07)
  else if ver = 0x0100 then .done (s.setReg k (b2n (bit 31 v.toNat) * 2 ^ 31 + ver))
  else .discard s 0x06

/-- A write of EV_RAW sets causes for test (R424). -/
def effEvRaw (page : Nat) (v : Word) (s : State) : WriteResult := .done (s.raiseMask page v.toNat)

/-- The cause DB stays set while the report ring holds a report (R283; log 52). -/
def State.holdDb (s : State) : State :=
  if s.fld Reg.PCIE_RPT_WR 11 0 = s.fld Reg.PCIE_RPT_RD 11 0 then s else s.raise 0x53 3

/-- A write of EV_PEND clears causes; one whose rule holds it while a condition lasts sets again (R424, R143, R244, R264). -/
def effEvPend (page : Nat) (v : Word) (s : State) : WriteResult :=
  if 0x18 ≤ page ∧ page ≤ 0x1B then effLiftPend (page - 0x18) v s
  else
    have s := s.clearCauses page v.toNat
    .done (if page = 0x06 ∧ bit 0 v.toNat then s.holdTs
      else if page = 0x53 ∧ bit 3 v.toNat then s.holdDb
      else if page = 0x38 ∧ bit 8 v.toNat then (s.setReg64 Reg.LEDG_LOW_AT_LO Reg.LEDG_LOW_AT_HI 0).setReg Reg.LEDG_LOW_MIN 0
      else s)

/-- Writes of EV_EN_SET and EV_EN_CLR (R424). -/
def effEvEnSet (page : Nat) (v : Word) (s : State) : WriteResult :=
  .done ((s.setReg (evEn page) (s.reg (evEn page) ||| (v.toNat &&& causeMask page))).updateLines page)
def effEvEnClr (page : Nat) (v : Word) (s : State) : WriteResult :=
  .done ((s.setReg (evEn page) (s.reg (evEn page) &&& (0xFFFFFFFF ^^^ v.toNat))).updateLines page)

/-- A write of ERRCAP: a 1 to VALID clears VALID and MORE (Table 23.5). -/
def effErrcap (page : Nat) (v : Word) (s : State) : WriteResult :=
  if bit 31 v.toNat then .done (s.setFld (page * 0x1000 + 0x028) 31 30 0) else .ignored s

/-- Lanes and loops that may not be enabled (R408, R422): held by the life-cycle state or by the role. -/
def State.lanesHeld (s : State) : Bool := s.fieldHeld || s.roleHeld

/-- A write of SYS.LANE_EN: enabling a held lane is discarded (R408, R422; log 53). -/
def effLaneEn (v : Word) (s : State) : WriteResult :=
  if (v.toNat &&& laneMask s.fac.variant) ≠ 0 ∧ s.lanesHeld then .discard s 0x07 else .done (s.applyLanes v.toNat)

/-- ENABLE of CTRL (R422): on a LINE, AIR or LOOP page its bit of SYS.LANE_EN, else the bit of the page. -/
def effEnable (page : Nat) (on : Bool) (s : State) : WriteResult :=
  match laneBit page with
  | some i =>
    if on && s.lanesHeld then .discard s 0x07
    else if s.flag Reg.SYS_LANE_EN i = on then .done s
    else .done (s.applyLanes (setBits i i (b2n on) (s.reg Reg.SYS_LANE_EN)))
  | none => .done (s.setFlag (page * 0x1000 + 0x00C) 0 on)

/-- FREEZE of the logbook's page (Table 20.2). -/
def State.freezeBy (s : State) (page : Nat) (on : Bool) : State :=
  if page ≠ 0x49 then s else if on then s.freeze else s.thaw

/-- A block reset after an accepted write. -/
def WriteResult.thenReset (r : WriteResult) (page : Nat) (on : Bool) : WriteResult :=
  match r with
  | .done s => if on then effBlockReset page s else .done s
  | r => r

/-- A write of CTRL (Table 23.4): ENABLE, FREEZE on the LOGB page (R389), and SRESET (R365). -/
def effCtrl (page : Nat) (v : Word) (s : State) : WriteResult :=
  ((effEnable page (bit 0 v.toNat) s).andThen (fun s => s.freezeBy page (bit 2 v.toNat))).thenReset page (bit 1 v.toNat)

/-- A write below 0x040: the header registers (Table 23.2). PWRCTL is Table 17.7's, and
on pages of domains that never sleep ignores writes (R359, R18). -/
def effHeader (page off : Nat) (v : Word) (s : State) : WriteResult :=
  if off = 0x008 then effIfsel page v s
  else if off = 0x00C then effCtrl page v s
  else if off = 0x014 then effEvRaw page v s
  else if off = 0x018 then effEvPend page v s
  else if off = 0x01C then effEvEnSet page v s
  else if off = 0x020 then effEvEnClr page v s
  else if off = 0x024 then (if mayDoze (pageDomain page) then .done (s.setReg (page * 0x1000 + 0x024) (v.toNat &&& 0xBFFFFFFF)) else .ignored s)
  else if off = 0x028 then effErrcap page v s
  else .ignored s

/-- A write of SYS.PROV (R410): ROLE_NEXT by life-cycle state, variant and pairing. -/
def effRoleNext (v : Word) (s : State) : WriteResult :=
  have r := bits 17 16 v.toNat
  if s.nv.lc ≠ 1 ∧ s.nv.lc ≠ 2 then .discard s 0x07
  else if s.modeBusy then .discard s 0x08
  else if s.fac.variant = .h ∧ (r = 1 ∨ r = 3) then .discard s 0x13
  else .done { s with nv := { s.nv with roleNext := r } }

/-- A write of EVT.RESEND_LO or RESEND_HI (R426). -/
def effResend (hi : Bool) (v : Word) (s : State) : WriteResult :=
  .done (((List.range 32).map (fun i => 32 * b2n hi + i)).foldl (fun (s : State) n =>
    if bit (n % 32) v.toNat && s.lineActive.contains n then s.msiFor n else s) s)

/-- The offset of a page's CNT_CLR or REF_CLR, and the counters that it clears; a Lift page has one for each queue (Tables 3.8, 4.9, 5.9,
5.13, 6.7, 7.6, 9.13, 12.9, 13.9, 13.10, 15.6, 15.7, 16.7, 17.8, 19.5; log 54). -/
def counterClear (page q : Nat) : Option (Nat × List Nat) :=
  have span := fun (a b : Nat) => (List.range ((b - a) / 4 + 1)).map (fun i => a + 4 * i)
  match pageKind page with
  | some 0x02 => some (0x204, (List.range 32).map (fun n => 0x104 + 8 * n) ++ [0x200])
  | some 0x08 => some (0x070, span 0x050 0x06C)
  | some 0x0F => some (0x108, span 0x0E0 0x0FC)
  | some 0x10 => some (0x070, span 0x050 0x06C)
  | some 0x13 => some (0x100, span 0x0E0 0x0FC)
  | some 0x14 => some (0x120, span 0x100 0x11C)
  | some 0x18 => some (0x138 + 0x40 * q, span (0x124 + 0x40 * q) (0x134 + 0x40 * q))
  | some 0x20 => some (0x0C0, span 0x0A0 0x0B8)
  | some 0x39 => some (0x090, span 0x070 0x08C)
  | some 0x41 => some (0x070, [0x060, 0x064, 0x08C])
  | some 0x43 => some (0x070, [0x060, 0x064])
  | some 0x44 => some (0x070, [0x060, 0x064, 0x080])
  | some 0x48 => some (0x0A0, span 0x080 0x090)
  | some 0x4C => some (0x0D0, span 0x0B0 0x0C4)
  | some 0x50 => some (0x0C0, span 0x0A0 0x0B0)
  | some 0x52 => some (0x120, span 0x100 0x118)
  | _ => none

/-- A write of CNT_CLR or REF_CLR: writing 1 clears the counters. -/
def effCounterClear (page : Nat) (counters : List Nat) (v : Word) (s : State) : WriteResult :=
  if bit 0 v.toNat then .done (counters.foldl (fun (s : State) off => s.setReg (page * 0x1000 + off) 0) s) else .ignored s

/-- PTP runs or not (Table 13.8, CFG.EN): it is DISABLED, or listens. -/
def effPtpCfg (v : Word) (s : State) : WriteResult :=
  have was := s.flag Reg.PTP_CFG 0
  (s.plainWrite 0x06 0x040 v).andThen (fun s => if was = s.flag Reg.PTP_CFG 0 then s else s.setPtpState (b2n (!was)))

/-- A port that is no longer enabled has no link (Table 13.9, CFG.EN). -/
def effEthCfg (i : Nat) (v : Word) (s : State) : WriteResult :=
  (s.plainWrite (0x50 + i) 0x040 v).andThen (fun s => if s.flag (Reg.ETH_CFG i) 0 then s else s.ethLink i 0)

/-- Registers that are written and never read: their word waits for the register that commits it. -/
def stagedOnly : List Nat :=
  [Reg.CRED_TOPUP_LO, Reg.SVC_RESP0, Reg.SVC_RESP1, Reg.SVC_RESP2] ++ (List.range 16).map Reg.FCA_CLOSE_LO

/-- Writes of the pages 0x00 to 0x06. -/
def effTimePages (p : Path) (k : Nat) (v : Word) (s : State) : WriteResult :=
  if k = Reg.SYS_RESET then effSysReset v s
  else if k = Reg.SYS_LANE_EN then effLaneEn v s
  else if k = Reg.SYS_PROV then effRoleNext v s
  else if k = Reg.PWR_DOM_CMD then effDomCmd v s
  else if k = Reg.EVT_DB_MASK_LO ∨ k = Reg.EVT_DB_MASK_HI then
    (s.plainWrite 0x03 (k % 0x1000) v).andThen (fun s' => State.updateDoorbell s s')
  else if k = Reg.EVT_RESEND_LO then effResend false v s
  else if k = Reg.EVT_RESEND_HI then effResend true v s
  else if k = Reg.SWEEP_ZCOMMIT then effZcommit v s
  else if k = Reg.SWEEP_PREC_CUR_LO ∨ k = Reg.SWEEP_PREC_CUR_HI then .done (s.latchAt p k (if k = Reg.SWEEP_PREC_CUR_HI then v.toNat % 65536 else v.toNat))
  else if Reg.SWEEP_MARK_AT_LO 0 ≤ k ∧ k ≤ Reg.SWEEP_MARK_STAT 15 ∧ k % 16 = 8 then effMarkCtl ((k - Reg.SWEEP_MARK_AT_LO 0) / 16) v s
  else if Reg.SWEEP_MARK_AT_LO 0 ≤ k ∧ k ≤ Reg.SWEEP_MARK_STAT 15 ∧ k % 16 = 4 then effMarkAtHi ((k - Reg.SWEEP_MARK_AT_LO 0) / 16) v s
  else if k = Reg.SLALOM_CAL_HWM then effHwmClr v s
  else if k = Reg.SLALOM_REQ_GO then effReqGo v [] s
  else if k = Reg.SLALOM_CANCEL then effCancel v s
  else if k = Reg.SLALOM_E_GUARD then
    (s.plainWrite 0x05 0x088 v).andThen (fun s => s.setUnc (s.reg Reg.SLALOM_E_UNC))
  else if k = Reg.PTP_CFG then effPtpCfg v s
  else if k = Reg.PTP_TSQ_POP then effTsqPop v s
  else if (List.range 4).any (fun n => Reg.PTP_TRIG_NS n == k) then effTrigNs ((k - Reg.PTP_TRIG_NS 0) / 0x20) v s
  else s.plainWrite (k / 0x1000) (k % 0x1000) v

/-- Writes of the line, air and loop pages. -/
def effFieldPages (k page off : Nat) (v : Word) (s : State) : WriteResult :=
  if k = Reg.LINEC_BANDCFG then effPlan v s
  else if Reg.LINEC_FSA_P1 ≤ k ∧ k ≤ Reg.LINEC_FSA_P3 then effPilotConfig ((k - Reg.LINEC_BANDCFG) / 4) v s
  else if k = Reg.LINEC_LONGPRE then effBeaconConfig 1 v s
  else if k = Reg.LINEM_BCNCFG then effBeaconConfig 0 v s
  else if k = Reg.LINEM_PILOTCFG then effPilotConfig 0 v s
  else if k = Reg.LINEM_NODE_SER_LO then effNodeSerial false v s
  else if k = Reg.LINEM_NODE_SER_HI then effNodeSerial true v s
  else if k = Reg.LINEM_NODE_CTL then effNodeCtl (bits 31 29 v.toNat) v s
  else if (page = 0x10 ∨ page = 0x11) ∧ off = 0x040 then effRfcfg (page - 0x10) v s
  else if (page = 0x10 ∨ page = 0x11) ∧ off = 0x044 then effChan (page - 0x10) v s
  else if k = Reg.AIRC_REGCFG then effRegion v s
  else if k = Reg.AIRC_HOPCFG then effHopConfig 0 v s
  else if Reg.AIRC_US_MASK0 ≤ k ∧ k ≤ Reg.AIRC_US_MASK4 then effHopConfig ((off - 0x04C) / 4) v s
  else if k = Reg.AIRM_BCNCFG then effBeaconConfig 2 v s
  else if k = Reg.AIRM_NODE_RDV then effNodeRdv false v s
  else if k = Reg.AIRM_NODE_ANG then effNodeRdv true v s
  else if 0x14 ≤ page ∧ page ≤ 0x17 ∧ off = 0x040 then effSupcfg (page - 0x14) v s
  else if 0x14 ≤ page ∧ page ≤ 0x17 ∧ off = 0x050 then effRestore (page - 0x14) v s
  else if 0x14 ≤ page ∧ page ≤ 0x17 ∧ 0x080 ≤ off ∧ off < 0x100 ∧ off % 16 = 0 then effAddrCfg (page - 0x14) ((off - 0x080) / 16) v s
  else if 0x18 ≤ page ∧ page ≤ 0x1B ∧ 0x100 ≤ off ∧ off % 0x40 = 0x00 then effQcfg (8 * (page - 0x18) + (off - 0x100) / 0x40) v s
  else if 0x18 ≤ page ∧ page ≤ 0x1B ∧ 0x100 ≤ off ∧ off % 0x40 = 0x20 then effFlush (8 * (page - 0x18) + (off - 0x100) / 0x40) v s
  else s.plainWrite page off v

/-- Writes of the FCA, the Balance Engine, billing, tariffs, credit and tamper. -/
def effMeterPages (k page off : Nat) (v : Word) (s : State) : WriteResult :=
  if k = Reg.FCAC_DW_CMD then effDwCmd v s
  else if k = Reg.FCAC_PB_HI then effPbHi v s
  else if 0x20 ≤ page ∧ page ≤ 0x2F then
    (if off = 0x040 then effLaneMode (page - 0x20) v s else if off = 0x054 then effTkAck (page - 0x20) v s
    else if off = 0x084 then effCloseHi (page - 0x20) v s else if off = 0x08C then effCloseEnd (page - 0x20) v s else s.plainWrite page off v)
  else if k = Reg.BAL_ZRESET then effZreset v s
  else if k = Reg.BALG_GCMD then effGcmd v s
  else if k = Reg.BALG_ZP_HI then effZpHi v s
  else if k = Reg.BALG_IC_HI then effIcHi v s
  else if Reg.BALG_TAMB0_LO ≤ k ∧ k ≤ Reg.BALG_TAMB3_HI ∧ k % 8 = 4 then effTambHi ((k - Reg.BALG_TAMB0_LO) / 8) v s
  else if k = Reg.BALG_CG_HI then effCgHi v s
  else if k = Reg.BILL_CT_CMD then effCtCmd v s
  else if k = Reg.TARIF_PCMD then effPcmd v s
  else if k = Reg.CRED_AC_CFG then effAcCfg v s
  else if k = Reg.CRED_AC_WARN_HI then effLimitHi 0 v s
  else if k = Reg.CRED_AC_CUT_HI then effLimitHi 1 v s
  else if k = Reg.CRED_AC_REST_HI then effLimitHi 2 v s
  else if k = Reg.CRED_TOPUP_HI then effTopupHi v s
  else if k = Reg.CRED_PR_EFF_HI then effPrEffHi v s
  else if k = Reg.CRED_MB_W then effMbW v s
  else if Reg.CRED_IL_CTL 0 ≤ k ∧ k ≤ Reg.CRED_IL_CTL 3 ∧ k % 16 = 0 then
    (if bits 1 0 v.toNat = 1 then effIlCtl ((k - Reg.CRED_IL_CTL 0) / 16) true v s
    else if bits 1 0 v.toNat = 2 then effIlCtl ((k - Reg.CRED_IL_CTL 0) / 16) false v s
    else writeIlCtl ((k - Reg.CRED_IL_CTL 0) / 16) v s)
  else if k = Reg.TAMP_TP_STAT then effTpStat none v s
  else if k = Reg.TAMP_LOG_CLR then effLogClr none v s
  else s.plainWrite page off v

/-- Writes of the store, Keeper, the engines, self-test, the Logbook and field update. -/
def effStorePages (p : Path) (k page off : Nat) (v : Word) (s : State) : WriteResult :=
  if k = Reg.LEDG_ARCH_LO then effArchLo v s
  else if k = Reg.LEDG_ARCH_HI then effArchHi v s
  else if k = Reg.LEDG_SYNC then effSync v s
  else if k = Reg.LEDG_RD_GO then effRdGo [] v s
  else if k = Reg.KEEP_LC_CMD then effLcCmd p (bits 1 0 v.toNat) s
  else if k = Reg.KEEP_KC_CMD then effKcCmd (bits 2 0 v.toNat) none s
  else if 0x41 ≤ page ∧ page ≤ 0x44 ∧ (off = 0x040 ∨ off = 0x044) then effJrConfig (page - 0x41) off v s
  else if 0x41 ≤ page ∧ page ≤ 0x44 ∧ off = 0x048 then effJrWr (page - 0x41) v s
  else if 0x41 ≤ page ∧ page ≤ 0x44 ∧ off = 0x054 then effJrAck (page - 0x41) v s
  else if k = Reg.MERK_PRF_GO then effPrfGo v s
  else if k = Reg.BIST_SCANCTL then effScanCtl v s
  else if k = Reg.LOGB_CUR_SEL then effCurSel p v s
  else if k = Reg.LOGB_I_LO then effILo v s
  else if k = Reg.LOGB_I_W then effIW v s
  else if k = Reg.LOGB_I_CMD then effICmd v s
  else if k = Reg.LOGB_HOST_VAL then effHostVal v s
  else if k = Reg.LOGB_NOTE_GO then effNoteGo v s
  else if k = Reg.LOGB_CLR_ALL then effClrAll v s
  else if k = Reg.UPD_CMD then effUpdCmd (bits 3 0 v.toNat) s
  else if k = Reg.UPD_GRP_W then effGrpW v s
  else s.plainWrite page off v

/-- The card as the last initialisation found it: what a rescan finds where the command brings no other (log 55). -/
def State.knownCard (s : State) : Option CardRx :=
  if s.flag Reg.SDC_STAT 31 then
    some { kind := s.fld Reg.SDC_STAT 30 29, mode := s.fld Reg.SDC_STAT 27 26, ok := s.flag Reg.SDC_STAT 0, files := s.upd.files }
  else none

/-- Writes of Pairs, the Ethernet ports, FEED, PCIE, SVC and SDC. -/
def effLinkPages (k page off : Nat) (v : Word) (s : State) : WriteResult :=
  if k = Reg.PAIRS_CMD then effPairsCmd (bits 2 0 v.toNat) s
  else if (page = 0x50 ∨ page = 0x51) ∧ off = 0x040 then effEthCfg (page - 0x50) v s
  else if k = Reg.FEED_PEER_W0 then effPeerW0 v s
  else if Reg.FEED_PEER_KH0 ≤ k ∧ k ≤ Reg.FEED_PEER_D ∧ (s.fld Reg.FEED_PEER_SEL 8 0 = 0 ∨ 291 < s.fld Reg.FEED_PEER_SEL 8 0) then .ignored s
  else if k = Reg.PCIE_HTX_WR then effHtxWr v [] s
  else if k = Reg.SVC_RESP3 then effSvcResp3 v s
  else if k = Reg.SDC_RESCAN then effRescan v s.knownCard s
  else s.plainWrite page off v

/-- A write of a register of a page, at any offset. -/
def effWrite (p : Path) (page off : Nat) (v : Word) (s : State) : WriteResult :=
  have k := page * 0x1000 + off
  if off < 0x040 then effHeader page off v s
  else if stagedOnly.contains k then .done (s.setReg k v.toNat)
  else match (List.range 8).find? (fun q => (counterClear page q).map (·.1) == some off) with
    | some q => effCounterClear page (((counterClear page q).map (·.2)).getD []) v s
    | none =>
      if page ≤ 0x06 then effTimePages p k v s
      else if page ≤ 0x1B then effFieldPages k page off v s
      else if page ≤ 0x35 then effMeterPages k page off v s
      else if page ≤ 0x4A then effStorePages p k page off v s
      else if page = 0x58 then s.plainWrite page off v
      else effLinkPages k page off v s

/-- A 32-bit write of any address of the register pages on a path (R13, R417, R418). -/
def State.writeAny (s : State) (p : Path) (page off : Nat) (v : Word) : State :=
  if off % 4 ≠ 0 then s.capture p page off 0x01
  else s.hostWrite p page off (effWrite p page off v)

end Sys2Proof.Machine
end

