-- ==== Sys2Proof/Machine/HostBus.lean ====
section
/-!
DEFINITION. The commands of the register bus that no other family has (spec/23_register_directory.md, R410), the register
tunnel (R274, R275) and the service port (R284).
-/

namespace Sys2Proof.Machine

/-- ROLE_NEXT_WRITE (R410): a write of SYS.PROV. -/
def execRoleNextWrite (t : Angle) (p : Path) (v : Word) (s : State) : Outcome := .next ((s.tick t).hostWrite p 0x00 0x0C4 (effRoleNext v))

/-- IFSEL_WRITE (R421). -/
def execIfselWrite (t : Angle) (p : Path) (page : BitVec 8) (v : Word) (s : State) : Outcome :=
  .next ((s.tick t).hostWrite p page.toNat 0x008 (effIfsel page.toNat v))

/-- EV_RAW_WRITE, EV_PEND_CLEAR, EV_EN_SET and EV_EN_CLR (R424). -/
def execEvRawWrite (t : Angle) (p : Path) (page : BitVec 8) (v : Word) (s : State) : Outcome :=
  .next ((s.tick t).hostWrite p page.toNat 0x014 (effEvRaw page.toNat v))
def execEvPendClear (t : Angle) (p : Path) (page : BitVec 8) (v : Word) (s : State) : Outcome :=
  .next ((s.tick t).hostWrite p page.toNat 0x018 (effEvPend page.toNat v))
def execEvEnSet (t : Angle) (p : Path) (page : BitVec 8) (v : Word) (s : State) : Outcome :=
  .next ((s.tick t).hostWrite p page.toNat 0x01C (effEvEnSet page.toNat v))
def execEvEnClr (t : Angle) (p : Path) (page : BitVec 8) (v : Word) (s : State) : Outcome :=
  .next ((s.tick t).hostWrite p page.toNat 0x020 (effEvEnClr page.toNat v))

/-- RESEND (R426): `hi` names RESEND_HI. -/
def execResend (t : Angle) (p : Path) (hi : Bool) (v : Word) (s : State) : Outcome :=
  .next ((s.tick t).hostWrite p 0x03 (0x050 + 4 * b2n hi) (effResend hi v))

/-- ERRCAP_CLEAR (R423). -/
def execErrcapClear (t : Angle) (p : Path) (page : BitVec 8) (v : Word) (s : State) : Outcome :=
  .next ((s.tick t).hostWrite p page.toNat 0x028 (effErrcap page.toNat v))

/-- COUNTER_CLEAR (R422): a write of a page's CNT_CLR or REF_CLR, `q` the queue on a Lift page; a page without one is not written. -/
def execCounterClear (t : Angle) (p : Path) (page : BitVec 8) (q : Fin 8) (v : Word) (s : State) : Outcome :=
  have s := s.tick t
  .next (match counterClear page.toNat q.val with
    | some (off, counters) => s.hostWrite p page.toNat off (effCounterClear page.toNat counters v)
    | none => s)

/-- REGISTER_WRITE (R422): `whole` says that the access is 32 bits wide (R13). -/
def execRegisterWrite (t : Angle) (p : Path) (page : BitVec 8) (off : BitVec 12) (whole : Bool) (v : Word) (s : State) : Outcome :=
  have s := s.tick t
  .next (if whole then s.writeAny p page.toNat off.toNat v else s.capture p page.toNat off.toNat 0x01)

/-- The bits of a register that a write under mask keeps outside its mask: the readable and writable ones (R274; log 56). -/
def keptBits (page off : Nat) : Nat :=
  if off = 0x008 then 0xFFFF else if off = 0x00C then 5 else if off = 0x024 then 0xBFFFFFFF
  else if off < 0x040 then 0
  else match findSpec page off with
    | some r => r.rw ||| r.rwl
    | none => 0

/-- The 8 octets of an operation in REGRSP (Table 13.3): value, error octet and three octets of zero (R274; log 56). -/
def tunnelAnswer (v err : Nat) : List Byte := beBytes 4 v ++ beBytes 1 err ++ zeros 3

/-- One operation of a REG record (R274): the state, its value and its error octet. An OP that is none is not executed, and its
error octet is open (log 56). -/
def State.tunnelOp (s : State) (peer sid : Nat) (op : List Byte) : State × List Byte :=
  have p : Path := .kfp (BitVec.ofNat 9 peer) sid
  have code := beAt op 0 1
  have page := beAt op 1 1
  have off := beAt op 2 2 % 0x1000 / 4 * 4
  have v := beAt op 4 4
  have mask := beAt op 8 4
  if code = 0 ∨ 3 < code then
    have d := s.draw
    (d.2, tunnelAnswer 0 d.1)
  else if s.tunnelDenies peer page (code != 1) then (s, tunnelAnswer 0 2)
  else if code = 1 then
    have r := s.readAny p page off
    (r.1, tunnelAnswer r.2 0)
  else
    have old := (s.readReg p page off).2
    have old := if off < 0x040 then s.readHeader page off else old
    have w := if code = 2 then v else (v &&& mask) ||| (old &&& keptBits page off &&& (0xFFFFFFFF ^^^ mask))
    (s.writeAny p page off (BitVec.ofNat 32 w), tunnelAnswer v 0)

/-- One operation, and the answer so far with its answer. -/
def State.tunnelNext (s : State) (peer sid : Nat) (op ans : List Byte) : State × List Byte :=
  have q := s.tunnelOp peer sid op
  (q.1, ans ++ q.2)

/-- The operations of a record, 12 octets each. -/
def tunnelOps (body : List Byte) : List (List Byte) :=
  (List.range (body.length / 12)).map (fun i => (body.drop (12 * i)).take 12)

/-- The operations of a record, one after the other: the first `most` of a host session. -/
def State.tunnelRun (s : State) (peer sid most : Nat) (body : List Byte) : State × List Byte :=
  have host := decide (260 ≤ peer)
  (tunnelOps body).zipIdx.foldl (fun (a : State × List Byte) o =>
    if host && decide (o.2 < most) then a.1.tunnelNext peer sid o.1 a.2
    else (a.1, a.2 ++ tunnelAnswer 0 2)) (s, beBytes 1 (if host then 0 else 2))

/-- A complete REG record runs its operations back to back, and REGRSP answers it and is kept (R274, R275). Only a host session has
rights; operations beyond the version's number are not executed (R271; log 56). -/
def State.runReg (s : State) (r : KfpRx) (x : Session) (body : List Byte) : State :=
  have run := s.tunnelRun x.peer r.sid (if x.version = 2 then 8 else 32) body
  have s := run.1.modSession r.sid (fun y => { y with cache := ((r.seq, run.2) :: y.cache).take 64 })
  s.sendMessage r.sid 0x31 run.2

/-- A REG record whose SEQ is already accepted: the kept REGRSP is sent once more, or nothing (R275). -/
def State.repeatReg (s : State) (r : KfpRx) : State :=
  match (s.sessions.find r.sid).bind (fun x => x.cache.find? (fun c => c.1 == r.seq)) with
  | some c => s.sendMessage r.sid 0x31 c.2
  | none => s

/-- REG (R274, R275). -/
def execReg (t : Angle) (r : KfpRx) (s : State) : Outcome :=
  .next (
    match (s.tick t).kfpAccept r (fun s => s.repeatReg r) with
    | .done s => s
    | .fresh x s =>
      match s.assemble r 0x30 x with
      | (none, s) => s.sendAck r.sid
      | (some body, s) => (s.runReg r x body).sendAck r.sid)

/-- The pointer of the service port moves on by 4 (R284; log 57). -/
def State.svcStep (s : State) : State := { s with svcPtr := (s.svcPtr + 4) % 2 ^ 20 }

/-- SVC_TRANSACTION (R284): the port answers its own address alone; bytes sent to a busy port are answered with NACK and counted; the pointer, the words written and the words
read run in order. A port whose domain does not answer takes nothing. -/
def execSvcTransaction (t : Angle) (x : SvcRx) (s : State) : Outcome :=
  have s := s.tick t
  .next (
    if s.dom 24 = 4 ∨ x.addr.toNat ≠ s.fld Reg.SVC_CFG 6 0 then s
    else
      have s := (List.range x.naks).foldl (fun (s : State) _ => s.send .svcNack) (s.bump Reg.SVC_NAK x.naks)
      have s := match x.pointer with
        | some (page, off) => { s with svcPtr := page.toNat * 4096 + off.toNat }
        | none => s
      have s := x.words.foldl (fun (s : State) w => (s.writeAny .svc (s.svcPtr / 4096) (s.svcPtr % 4096) w).svcStep) s
      (List.range x.reads).foldl (fun (s : State) _ => (answer .svc (s.readAny .svc (s.svcPtr / 4096) (s.svcPtr % 4096))).svcStep) s)

end Sys2Proof.Machine
end

