-- ==== Sys2Proof/Machine/Dispatch.lean ====
section
/-!
DEFINITION. The meaning of every command: one arm per constructor of Instr, each one call of the command's meaning.
-/

namespace Sys2Proof.Machine

def exec (i : Instr) (s : State) : Host.Outcome State Fault Refusal :=
  match i with
  | .crossingDetected t phase w => Sys2Proof.Machine.execCrossingDetected t phase w s
  | .crossingMiss t phase => Sys2Proof.Machine.execCrossingMiss t phase s
  | .cycleStart cap vigil busy => Sys2Proof.Machine.execCycleStart cap vigil busy s
  | .sweepNowRead t p => Sys2Proof.Machine.execSweepNowRead t p s
  | .latchingRead t p page off whole => Sys2Proof.Machine.execLatchingRead t p page off whole s
  | .precDataRead t p => Sys2Proof.Machine.execPrecDataRead t p s
  | .zcommit t p v => Sys2Proof.Machine.execZcommit t p v s
  | .instantPin t id => Sys2Proof.Machine.execInstantPin t id s
  | .schedShort t => Sys2Proof.Machine.execSchedShort t s
  | .markAtHiWrite t p n v => Sys2Proof.Machine.execMarkAtHiWrite t p n v s
  | .markFired t n => Sys2Proof.Machine.execMarkFired t n s
  | .reqGo t p v img => Sys2Proof.Machine.execReqGo t p v img s
  | .cancel t p v => Sys2Proof.Machine.execCancel t p v s
  | .hwmClr t p v => Sys2Proof.Machine.execHwmClr t p v s
  | .recomputeEnd t => Sys2Proof.Machine.execRecomputeEnd t s
  | .obligationDeadline t id => Sys2Proof.Machine.execObligationDeadline t id s
  | .supplyMeasure t v vin1 vin2 => Sys2Proof.Machine.execSupplyMeasure t v vin1 vin2 s
  | .coverWaitExpiry t => Sys2Proof.Machine.execCoverWaitExpiry t s
  | .boundaryPrebuild t prog => Sys2Proof.Machine.execBoundaryPrebuild t prog s
  | .boundaryReservation t => Sys2Proof.Machine.execBoundaryReservation t s
  | .planWrite t p v => Sys2Proof.Machine.execPlanWrite t p v s
  | .exchangeStart t lane w => Sys2Proof.Machine.execExchangeStart t lane w s
  | .lineFrameReceived t lane start rx => Sys2Proof.Machine.execLineFrameReceived t lane start rx s
  | .driverTemperature t phase temp lo up => Sys2Proof.Machine.execDriverTemperature t phase temp lo up s
  | .phaseResume t phase => Sys2Proof.Machine.execPhaseResume t phase s
  | .beacon t lane => Sys2Proof.Machine.execBeacon t lane s
  | .repeaterDemote t node => Sys2Proof.Machine.execRepeaterDemote t node s
  | .jreq t j => Sys2Proof.Machine.execJreq t j s
  | .jconf t node resp nonce => Sys2Proof.Machine.execJconf t node resp nonce s
  | .joinTimeout t node => Sys2Proof.Machine.execJoinTimeout t node s
  | .dataResponse t r node seq records scheds => Sys2Proof.Machine.execDataResponse t r node seq records scheds s
  | .cackResponse t r node seq records => Sys2Proof.Machine.execCackResponse t r node seq records s
  | .rfail t lane failed => Sys2Proof.Machine.execRfail t lane failed s
  | .exchangeMiss t r => Sys2Proof.Machine.execExchangeMiss t r s
  | .searchWindow t lane => Sys2Proof.Machine.execSearchWindow t lane s
  | .pilotWindow t rx => Sys2Proof.Machine.execPilotWindow t rx s
  | .pilotConfigWrite t p reg v => Sys2Proof.Machine.execPilotConfigWrite t p reg v s
  | .beaconConfigWrite t p reg v => Sys2Proof.Machine.execBeaconConfigWrite t p reg v s
  | .nodeProvision t p v => Sys2Proof.Machine.execNodeProvision t p v s
  | .nodeBar t p v => Sys2Proof.Machine.execNodeBar t p v s
  | .nodeRelease t p v => Sys2Proof.Machine.execNodeRelease t p v s
  | .forceSearch t p v => Sys2Proof.Machine.execForceSearch t p v s
  | .regionWrite t p v => Sys2Proof.Machine.execRegionWrite t p v s
  | .chanWrite t p lane v => Sys2Proof.Machine.execChanWrite t p lane v s
  | .hopConfigWrite t p reg v => Sys2Proof.Machine.execHopConfigWrite t p reg v s
  | .hopSlotStart t => Sys2Proof.Machine.execHopSlotStart t s
  | .airFrameReceived t lane rx => Sys2Proof.Machine.execAirFrameReceived t lane rx s
  | .airBeacon t lane => Sys2Proof.Machine.execAirBeacon t lane s
  | .rendezvous t lane node w => Sys2Proof.Machine.execRendezvous t lane node w s
  | .rejoin t lane node pan counter micOk off => Sys2Proof.Machine.execRejoin t lane node pan counter micOk off s
  | .seek t lane source pan => Sys2Proof.Machine.execSeek t lane source pan s
  | .airSearchWindow t lane => Sys2Proof.Machine.execAirSearchWindow t lane s
  | .leaseExpiry t node => Sys2Proof.Machine.execLeaseExpiry t node s
  | .rekeyTimeout t node => Sys2Proof.Machine.execRekeyTimeout t node s
  | .budgetBinExpiry t => Sys2Proof.Machine.execBudgetBinExpiry t s
  | .loopSrcEn t p n v => Sys2Proof.Machine.execLoopSrcEn t p n v s
  | .loopSenseEnd t n mv => Sys2Proof.Machine.execLoopSenseEnd t n mv s
  | .loopMeasure t n mv ma10 kohm => Sys2Proof.Machine.execLoopMeasure t n mv ma10 kohm s
  | .loopTripRetry t n => Sys2Proof.Machine.execLoopTripRetry t n s
  | .loopRestore t p n v => Sys2Proof.Machine.execLoopRestore t p n v s
  | .loopDwellEnd t => Sys2Proof.Machine.execLoopDwellEnd t s
  | .loopSync t n => Sys2Proof.Machine.execLoopSync t n s
  | .loopExchangeStart t n w => Sys2Proof.Machine.execLoopExchangeStart t n w s
  | .loopFrameReceived t n octets check => Sys2Proof.Machine.execLoopFrameReceived t n octets check s
  | .ident t n m => Sys2Proof.Machine.execIdent t n m s
  | .idrsp t n m serial range latency resp scheds => Sys2Proof.Machine.execIdrsp t n m serial range latency resp scheds s
  | .packetOffer t feed => Sys2Proof.Machine.execPacketOffer t feed s
  | .packetResume t q => Sys2Proof.Machine.execPacketResume t q s
  | .hostIntakeWord t q index w => Sys2Proof.Machine.execHostIntakeWord t q index w s
  | .wmCauseClear t p g v => Sys2Proof.Machine.execWmCauseClear t p g v s
  | .liftWordRead t q => Sys2Proof.Machine.execLiftWordRead t q s
  | .liftLaneWrite t p q v => Sys2Proof.Machine.execLiftLaneWrite t p q v s
  | .peekRead t p g => Sys2Proof.Machine.execPeekRead t p g s
  | .flush t p q v => Sys2Proof.Machine.execFlush t p q v s
  | .flushTimeout t q => Sys2Proof.Machine.execFlushTimeout t q s
  | .flowPointWaitExpiry t ch => Sys2Proof.Machine.execFlowPointWaitExpiry t ch s
  | .laneModeWrite t p lane v => Sys2Proof.Machine.execLaneModeWrite t p lane v s
  | .fcaLaneLost t lane => Sys2Proof.Machine.execFcaLaneLost t lane s
  | .descCommit t p v => Sys2Proof.Machine.execDescCommit t p v s
  | .descRead t p v => Sys2Proof.Machine.execDescRead t p v s
  | .descRetire t p v => Sys2Proof.Machine.execDescRetire t p v s
  | .pbSlotCommit t p v => Sys2Proof.Machine.execPbSlotCommit t p v s
  | .tkAck t p lane v => Sys2Proof.Machine.execTkAck t p lane v s
  | .resultRead t p lane place => Sys2Proof.Machine.execResultRead t p lane place s
  | .closePush t p lane v => Sys2Proof.Machine.execClosePush t p lane v s
  | .closeEnd t p lane v => Sys2Proof.Machine.execCloseEnd t p lane v s
  | .graphCommit t p img => Sys2Proof.Machine.execGraphCommit t p img s
  | .graphDrop t p => Sys2Proof.Machine.execGraphDrop t p s
  | .zoneParamCommit t p v => Sys2Proof.Machine.execZoneParamCommit t p v s
  | .balanceParamCommit t p which v => Sys2Proof.Machine.execBalanceParamCommit t p which v s
  | .windowEvaluate t zone => Sys2Proof.Machine.execWindowEvaluate t zone s
  | .zoneRestart t p v => Sys2Proof.Machine.execZoneRestart t p v s
  | .channelTableWrite t p => Sys2Proof.Machine.execChannelTableWrite t p s
  | .channelTableRead t p => Sys2Proof.Machine.execChannelTableRead t p s
  | .channelTableInvalidate t p => Sys2Proof.Machine.execChannelTableInvalidate t p s
  | .intervalClose t => Sys2Proof.Machine.execIntervalClose t s
  | .programCommit t p img => Sys2Proof.Machine.execProgramCommit t p img s
  | .programWithdraw t p v => Sys2Proof.Machine.execProgramWithdraw t p v s
  | .periodCloseCmd t p v => Sys2Proof.Machine.execPeriodCloseCmd t p v s
  | .boundaryProcess t => Sys2Proof.Machine.execBoundaryProcess t s
  | .priceCommit t p v => Sys2Proof.Machine.execPriceCommit t p v s
  | .topup t p v => Sys2Proof.Machine.execTopup t p v s
  | .accountLimitCommit t p limit v => Sys2Proof.Machine.execAccountLimitCommit t p limit v s
  | .memberCommit t p v => Sys2Proof.Machine.execMemberCommit t p v s
  | .interlockOn t p k v => Sys2Proof.Machine.execInterlockOn t p k v s
  | .interlockOff t p k v => Sys2Proof.Machine.execInterlockOff t p k v s
  | .pulseEnd t k short => Sys2Proof.Machine.execPulseEnd t k short s
  | .feedbackWaitExpiry t k => Sys2Proof.Machine.execFeedbackWaitExpiry t k s
  | .feedbackChange t k level => Sys2Proof.Machine.execFeedbackChange t k level s
  | .tamperInput t input opened vigil => Sys2Proof.Machine.execTamperInput t input opened vigil s
  | .tamperLatchClear t p v vigil => Sys2Proof.Machine.execTamperLatchClear t p v vigil s
  | .tamperLogClear t p v vigil => Sys2Proof.Machine.execTamperLogClear t p v vigil s
  | .groupClose t => Sys2Proof.Machine.execGroupClose t s
  | .ledgSync t p v => Sys2Proof.Machine.execLedgSync t p v s
  | .stripeProgrammed t => Sys2Proof.Machine.execStripeProgrammed t s
  | .commitComplete t supplied => Sys2Proof.Machine.execCommitComplete t supplied s
  | .programFail t die gc dead => Sys2Proof.Machine.execProgramFail t die gc dead s
  | .eraseFail t sb die dead => Sys2Proof.Machine.execEraseFail t sb die dead s
  | .dramError t e => Sys2Proof.Machine.execDramError t e s
  | .gcStep t reads => Sys2Proof.Machine.execGcStep t reads s
  | .rebuildStep t reads => Sys2Proof.Machine.execRebuildStep t reads s
  | .checkpoint t => Sys2Proof.Machine.execCheckpoint t s
  | .archiveCommit t p v => Sys2Proof.Machine.execArchiveCommit t p v s
  | .ledgerRead t p v reads => Sys2Proof.Machine.execLedgerRead t p v reads s
  | .groomStep t r => Sys2Proof.Machine.execGroomStep t r s
  | .groomLate t => Sys2Proof.Machine.execGroomLate t s
  | .ethFrameReceived t port bad frame mac => Sys2Proof.Machine.execEthFrameReceived t port bad frame mac s
  | .ethLinkChange t port speed => Sys2Proof.Machine.execEthLinkChange t port speed s
  | .ptpMessage t m => Sys2Proof.Machine.execPtpMessage t m s
  | .ptpAnnounceTimeout t => Sys2Proof.Machine.execPtpAnnounceTimeout t s
  | .hostTx t p v slots stamps => Sys2Proof.Machine.execHostTx t p v slots stamps s
  | .tsqPop t p v => Sys2Proof.Machine.execTsqPop t p v s
  | .triggerArm t p n v => Sys2Proof.Machine.execTriggerArm t p n v s
  | .triggerFire t n => Sys2Proof.Machine.execTriggerFire t n s
  | .captureEvent t src falling cap => Sys2Proof.Machine.execCaptureEvent t src falling cap s
  | .helloI t msg => Sys2Proof.Machine.execHelloI t msg s
  | .helloR t sid msg => Sys2Proof.Machine.execHelloR t sid msg s
  | .finI t sid sig => Sys2Proof.Machine.execFinI t sid sig s
  | .refuse t sid reason => Sys2Proof.Machine.execRefuse t sid reason s
  | .handshakeStart t peer => Sys2Proof.Machine.execHandshakeStart t peer s
  | .kfpAck t r => Sys2Proof.Machine.execKfpAck t r s
  | .ping t r => Sys2Proof.Machine.execPing t r s
  | .kfpClose t r => Sys2Proof.Machine.execKfpClose t r s
  | .stale t r => Sys2Proof.Machine.execStale t r s
  | .fwd t r => Sys2Proof.Machine.execFwd t r s
  | .per t r => Sys2Proof.Machine.execPer t r s
  | .seg t r => Sys2Proof.Machine.execSeg t r s
  | .reg t r => Sys2Proof.Machine.execReg t r s
  | .regrsp t r => Sys2Proof.Machine.execRegrsp t r s
  | .evt t r => Sys2Proof.Machine.execEvt t r s
  | .kfpRetransmit t sid seq => Sys2Proof.Machine.execKfpRetransmit t sid seq s
  | .sessionDead t sid => Sys2Proof.Machine.execSessionDead t sid s
  | .keepalive t sid => Sys2Proof.Machine.execKeepalive t sid s
  | .oldSessionClose t sid => Sys2Proof.Machine.execOldSessionClose t sid s
  | .forwardSend t sid => Sys2Proof.Machine.execForwardSend t sid s
  | .peerEntryWrite t p v => Sys2Proof.Machine.execPeerEntryWrite t p v s
  | .reportPost t id => Sys2Proof.Machine.execReportPost t id s
  | .reportRingAdvance t p v => Sys2Proof.Machine.execReportRingAdvance t p v s
  | .endpointReset t => Sys2Proof.Machine.execEndpointReset t s
  | .svcTransaction t x => Sys2Proof.Machine.execSvcTransaction t x s
  | .svcUnlock t p v => Sys2Proof.Machine.execSvcUnlock t p v s
  | .svcUnlockExpiry t => Sys2Proof.Machine.execSvcUnlockExpiry t s
  | .lcSubmit t p img => Sys2Proof.Machine.execLcSubmit t p img s
  | .lcProvision t p img => Sys2Proof.Machine.execLcProvision t p img s
  | .keyGenerate t p cut => Sys2Proof.Machine.execKeyGenerate t p cut s
  | .keyImport t p img cut => Sys2Proof.Machine.execKeyImport t p img cut s
  | .keyImportKem t p img cut => Sys2Proof.Machine.execKeyImportKem t p img cut s
  | .keyDerive t p img cut => Sys2Proof.Machine.execKeyDerive t p img cut s
  | .keyZeroize t p cut => Sys2Proof.Machine.execKeyZeroize t p cut s
  | .pubRead t p => Sys2Proof.Machine.execPubRead t p s
  | .reservationWritten t key acked => Sys2Proof.Machine.execReservationWritten t key acked s
  | .batchClose t => Sys2Proof.Machine.execBatchClose t s
  | .batchSigned t ok iters => Sys2Proof.Machine.execBatchSigned t ok iters s
  | .proof t p v => Sys2Proof.Machine.execProof t p v s
  | .jobSubmit t p e v imgs => Sys2Proof.Machine.execJobSubmit t p e v imgs s
  | .jobSegmentEnd t e => Sys2Proof.Machine.execJobSegmentEnd t e s
  | .jobComplete t e iters fault => Sys2Proof.Machine.execJobComplete t e iters fault s
  | .jrAck t p e v => Sys2Proof.Machine.execJrAck t p e v s
  | .rngFail t => Sys2Proof.Machine.execRngFail t s
  | .rngTimeout t => Sys2Proof.Machine.execRngTimeout t s
  | .cryptoAlarm t sensors => Sys2Proof.Machine.execCryptoAlarm t sensors s
  | .alarmClear t => Sys2Proof.Machine.execAlarmClear t s
  | .pairsHello t h => Sys2Proof.Machine.execPairsHello t h s
  | .syncComplete t => Sys2Proof.Machine.execSyncComplete t s
  | .mirrorItem t m => Sys2Proof.Machine.execMirrorItem t m s
  | .mirrorAck t rsn => Sys2Proof.Machine.execMirrorAck t rsn s
  | .mirrorAckTimeout t => Sys2Proof.Machine.execMirrorAckTimeout t s
  | .heartbeatSend t => Sys2Proof.Machine.execHeartbeatSend t s
  | .heartbeatReceived t h => Sys2Proof.Machine.execHeartbeatReceived t h s
  | .switchoverGapEnd t => Sys2Proof.Machine.execSwitchoverGapEnd t s
  | .fenceInput t drives => Sys2Proof.Machine.execFenceInput t drives s
  | .supervisorRelease t => Sys2Proof.Machine.execSupervisorRelease t s
  | .pairsPair t p => Sys2Proof.Machine.execPairsPair t p s
  | .pairsUnpair t p => Sys2Proof.Machine.execPairsUnpair t p s
  | .pairsSwitch t p => Sys2Proof.Machine.execPairsSwitch t p s
  | .pairsYield t p => Sys2Proof.Machine.execPairsYield t p s
  | .pairsForce t p => Sys2Proof.Machine.execPairsForce t p s
  | .takebackRequest t => Sys2Proof.Machine.execTakebackRequest t s
  | .takebackStop t => Sys2Proof.Machine.execTakebackStop t s
  | .takebackSwitch t => Sys2Proof.Machine.execTakebackSwitch t s
  | .supplyPhaseMove t => Sys2Proof.Machine.execSupplyPhaseMove t s
  | .pwrFailWarn t cause => Sys2Proof.Machine.execPwrFailWarn t cause s
  | .vigilEntry t => Sys2Proof.Machine.execVigilEntry t s
  | .supplyReturn t => Sys2Proof.Machine.execSupplyReturn t s
  | .domainDoze t d refusers abort => Sys2Proof.Machine.execDomainDoze t d refusers abort s
  | .domainRetain t d refusers abort => Sys2Proof.Machine.execDomainRetain t d refusers abort s
  | .preWake t d => Sys2Proof.Machine.execPreWake t d s
  | .wakeSource t src lane frame => Sys2Proof.Machine.execWakeSource t src lane frame s
  | .wakeAccessTimeout t p page off write => Sys2Proof.Machine.execWakeAccessTimeout t p page off write s
  | .domainOff t p => Sys2Proof.Machine.execDomainOff t p s
  | .domainOn t p => Sys2Proof.Machine.execDomainOn t p s
  | .wakeFail t d => Sys2Proof.Machine.execWakeFail t d s
  | .clockFail t cd => Sys2Proof.Machine.execClockFail t cd s
  | .thermalLevel t base die bank => Sys2Proof.Machine.execThermalLevel t base die bank s
  | .thermalHoldEnd t base => Sys2Proof.Machine.execThermalHoldEnd t base s
  | .mainsOn t vigilLost l1 => Sys2Proof.Machine.execMainsOn t vigilLost l1 s
  | .startupStep t x => Sys2Proof.Machine.execStartupStep t x s
  | .pairingTimeout t => Sys2Proof.Machine.execPairingTimeout t s
  | .sysReset t p v => Sys2Proof.Machine.execSysReset t p v s
  | .watchdogReset t => Sys2Proof.Machine.execWatchdogReset t s
  | .resetPin t => Sys2Proof.Machine.execResetPin t s
  | .blockReset t p page => Sys2Proof.Machine.execBlockReset t p page s
  | .bistSlice t blk sig finish => Sys2Proof.Machine.execBistSlice t blk sig finish s
  | .bistPassLate t blk => Sys2Proof.Machine.execBistPassLate t blk s
  | .scanRequest t p v => Sys2Proof.Machine.execScanRequest t p v s
  | .instrumentConfig t p v => Sys2Proof.Machine.execInstrumentConfig t p v s
  | .instrumentClearBins t p => Sys2Proof.Machine.execInstrumentClearBins t p s
  | .instrumentClearExtremes t p => Sys2Proof.Machine.execInstrumentClearExtremes t p s
  | .instrumentClearBoth t p => Sys2Proof.Machine.execInstrumentClearBoth t p s
  | .logbookFreeze t p => Sys2Proof.Machine.execLogbookFreeze t p s
  | .logbookThaw t p => Sys2Proof.Machine.execLogbookThaw t p s
  | .freezeTimeout t => Sys2Proof.Machine.execFreezeTimeout t s
  | .cursorRead t p => Sys2Proof.Machine.execCursorRead t p s
  | .hostSample t p v => Sys2Proof.Machine.execHostSample t p v s
  | .hostNote t p v => Sys2Proof.Machine.execHostNote t p v s
  | .clrAll t p v => Sys2Proof.Machine.execClrAll t p v s
  | .updStage t p => Sys2Proof.Machine.execUpdStage t p s
  | .updChunk t p img => Sys2Proof.Machine.execUpdChunk t p img s
  | .updEnd t p => Sys2Proof.Machine.execUpdEnd t p s
  | .downloadEnd t crc timeouts => Sys2Proof.Machine.execDownloadEnd t crc timeouts s
  | .verifyComplete t => Sys2Proof.Machine.execVerifyComplete t s
  | .updActivate t p => Sys2Proof.Machine.execUpdActivate t p s
  | .handoverReady t => Sys2Proof.Machine.execHandoverReady t s
  | .handoverSwitch t => Sys2Proof.Machine.execHandoverSwitch t s
  | .handoverAbort t => Sys2Proof.Machine.execHandoverAbort t s
  | .updConfirm t p => Sys2Proof.Machine.execUpdConfirm t p s
  | .trialExpiry t => Sys2Proof.Machine.execTrialExpiry t s
  | .updRollback t p => Sys2Proof.Machine.execUpdRollback t p s
  | .updDiscard t p => Sys2Proof.Machine.execUpdDiscard t p s
  | .cardChange t card => Sys2Proof.Machine.execCardChange t card s
  | .cardRescan t p v card => Sys2Proof.Machine.execCardRescan t p v card s
  | .groupJoin t p v => Sys2Proof.Machine.execGroupJoin t p v s
  | .bulkSegment t r id => Sys2Proof.Machine.execBulkSegment t r id s
  | .roleNextWrite t p v => Sys2Proof.Machine.execRoleNextWrite t p v s
  | .ifselWrite t p page v => Sys2Proof.Machine.execIfselWrite t p page v s
  | .evRawWrite t p page v => Sys2Proof.Machine.execEvRawWrite t p page v s
  | .evPendClear t p page v => Sys2Proof.Machine.execEvPendClear t p page v s
  | .evEnSet t p page v => Sys2Proof.Machine.execEvEnSet t p page v s
  | .evEnClr t p page v => Sys2Proof.Machine.execEvEnClr t p page v s
  | .resend t p hi v => Sys2Proof.Machine.execResend t p hi v s
  | .errcapClear t p page v => Sys2Proof.Machine.execErrcapClear t p page v s
  | .counterClear t p page q v => Sys2Proof.Machine.execCounterClear t p page q v s
  | .registerWrite t p page off whole v => Sys2Proof.Machine.execRegisterWrite t p page off whole v s
  | .eraseComplete t sb => Sys2Proof.Machine.execEraseComplete t sb s
  | .pcieLinkUp t gen width => Sys2Proof.Machine.execPcieLinkUp t gen width s
  | .rngRecovery t => Sys2Proof.Machine.execRngRecovery t s
  | .cardError t init crc timeouts => Sys2Proof.Machine.execCardError t init crc timeouts s

end Sys2Proof.Machine
end

