-- ==== Sys2Proof/Safety.lean ====
section
/-!
DEFINITION. A safe step: one that answers a next state. The spec gives every access and event of the block an outcome
(R13, R417), so no command faults.
-/

namespace Sys2Proof

/-- A step of a state is safe when it answers a next state. -/
def safeStep (s : Machine.State) : Prop := ∃ t, Machine.step s = .next t

/-- Every one of the next `k` steps is safe. -/
def safeRun (k : Nat) (s : Machine.State) : Prop := ∃ t, core.run k s = .next t

namespace Machine

/-- An access that its gate lets through: the state in which its register acts, and none where the access ends at the gate (R417, R353,
R285, R274). -/
def State.through (s : State) (p : Path) (page off : Nat) (write : Bool) : Option State :=
  match s.gate p page off write with
  | .proceed a => some a
  | .complete _ => none

/-- Nothing waits on the media: no reading waits for energy or for its mirror, and no packet stands staged on a channel. -/
def State.calm (s : State) : Bool :=
  s.field.cover.isEmpty && (s.pairState != 2 || s.pairs.waiting.isEmpty) &&
    s.fca.chans.all (fun x => x.2.staged.isEmpty) && s.fca.redoChans.all (fun x => x.2.staged.isEmpty)

/-- A secured record of an open session is taken: its tag holds, its SEQ is new and inside the window, and its epoch is not stale
(R267, R269, R273). -/
def State.takesRecord (s : State) (r : KfpRx) (x : Session) : Bool :=
  s.sessions.find r.sid == some x && x.isOpen && r.tagOk && s.kfpServes x.peer && decide (x.rxTop ≤ r.seq + 1024) &&
    decide (s.peerEpoch x ≤ r.epoch) && !(x.rxSeen.contains r.seq)

/-- A record that the module sends on a session now leaves at once, under the SEQ `n`: the session is open and serves, and its key has a
reserved counter (R267, R300, Table 16.3). -/
def State.sendsAs (s : State) (sid : Nat) (x : Session) (n : Nat) : Bool :=
  x.isOpen && !((s.pairState == 2 || s.pairState == 3) && decide (x.peer < 260)) && (s.nv.lc == 2 || s.nv.lc == 3) &&
    (drawKey (s.txKey (sessKey sid)) (s.openBlocks (s.txKey (sessKey sid))) (2 ^ 64 - 1)).1 == .value n

/-- The state with what event lines, their pushes and waiting records move taken from another one: the registers, the outputs, the active
lines, the pending messages, the sessions and the transmit counters (R426, R300). -/
def State.eventsOf (s u : State) : State :=
  { s with
    regs := u.regs
    out := u.out
    lineActive := u.lineActive
    msixPending := u.msixPending
    sessions := u.sessions
    nv := { s.nv with txKeys := u.nv.txKeys } }

/-- A register that no message of an event line and no counter draw moves: neither an EVT.MSG_CNT nor Keeper's RSV_WAIT, KEY_STOP and
causes. -/
def stillKey (k : Nat) : Bool :=
  k % 0x1000000 != Reg.EVT_MSG_CNT && k != Reg.KEEP_RSV_WAIT && k != Reg.KEEP_KEY_STOP && k != evRaw 0x40

/-- The registers that the capture of an access to a page moves (R423): its capture pair, that of SYS, the error ring's, and the causes of
SYS. -/
def captureKeys (page : Nat) : List Nat :=
  [page * 0x1000 + 0x028, page * 0x1000 + 0x02C, 0x00028, 0x0002C, Reg.SYS_ERR_WR, Reg.SYS_ERR_OVF, evRaw 0]

/-- The commands that carry what the host has placed in the BAR2 window before their register is written: configurations and requests,
tokens and cartridges, and the inputs of key and engine commands (R422, Table 19.2). -/
def carriesImage (i : Instr) : Bool :=
  match i with
  | .reqGo .. | .graphCommit .. | .programCommit .. => true
  | .lcSubmit .. | .lcProvision .. | .updChunk .. => true
  | .keyImport .. | .keyImportKem .. | .keyDerive .. | .jobSubmit .. | .hostTx .. => true
  | _ => false

/-- The commands by which the module itself stores octets in the window: the results of jobs and reads, and frames for the host. -/
def fillsWindow (i : Instr) : Bool :=
  match i with
  | .jobComplete .. | .ledgerRead .. | .reportPost .. | .commitComplete .. => true
  | .dramError .. | .bistSlice .. | .ethFrameReceived .. => true
  | _ => false

/-- The commands that may reset the module, and with it the window: supplies, pins, supervisors, temperature and the start itself (R356). -/
def mayReset (i : Instr) : Bool :=
  match i with
  | .mainsOn .. | .supplyReturn .. | .startupStep .. | .cycleStart .. => true
  | .resetPin .. | .watchdogReset .. | .thermalLevel .. | .thermalHoldEnd .. => true
  | .rngRecovery .. | .rngTimeout .. => true
  | _ => false

/-- The commands that reach any register, so also those whose write stores octets. -/
def reachesAny (i : Instr) : Bool :=
  match i with
  | .registerWrite .. | .svcTransaction .. | .reg .. | .alarmClear .. => true
  | _ => false

/-- The commands that may store octets in the BAR2 window. -/
def storesMemory (i : Instr) : Bool := carriesImage i || fillsWindow i || mayReset i || reachesAny i

end Machine

end Sys2Proof
end

