-- ==== Sys2Proof/Certificates/Slice0/Obligations.lean ====
section
/-!
DEFINITION. The statements about the model. Each docstring says what its statement claims; a completion statement names, for every
command in it, a condition on the state and the operands under which exec answers a next state that holds the command's effect.
-/

open Sys2Proof Sys2Proof.Machine

/-- A step takes the command at the front of the queue and runs exec on it with the rest of the queue; on an empty queue the block idles, which is the model's choice of log 1. -/
def Obligations.StepRunsFrontCommand : Prop :=
  (∀ (c : Instr) (rest : List Instr) (s : State), s.pending = c :: rest → step s = exec c { s with pending := rest }) ∧
  (∀ s : State, s.pending = [] → step s = .next s)

/-- At reset every defined page has interface version 1.0 selected and unlocked, CTRL.ENABLE set, no cause set, the enables of the causes on lines 0 and 1 set and every other one clear, and PWRCTL, the capture pair and SEQ at 0; the timebase is UNLOCKED, and no start-up step has ended. -/
def Obligations.ResetRegisterValues : Prop :=
  (∀ p ∈ definedPages, State.reset.reg (p * 0x1000 + 0x008) = 0x0100 ∧ State.reset.reg (p * 0x1000 + 0x00C) = 1 ∧
    State.reset.reg (evRaw p) = 0 ∧ State.reset.reg (evEn p) = routeMask p 0 ||| routeMask p 1 ∧
    State.reset.reg (p * 0x1000 + 0x024) = 0 ∧ State.reset.reg (p * 0x1000 + 0x028) = 0 ∧ State.reset.reg (p * 0x1000 + 0x02C) = 0 ∧
    State.reset.reg (p * 0x1000 + 0x030) = 0) ∧
  State.reset.timebase = 0 ∧ State.reset.boot.done = []

/-- At reset the BAR2 window has its canonical form, the queue is empty, sweep time is 0, and no event line is active; the life-cycle state is FACTORY, which is the model's choice of log 6. -/
def Obligations.ResetMeetsInvariants : Prop :=
  memWf State.reset.mem = true ∧ State.reset.pending = [] ∧ State.reset.now = 0 ∧ State.reset.nv.lc = 1 ∧
  ∀ n < 64, State.reset.lineActive.contains n = false ∧ State.reset.lineOn n = false

/-- If the list that holds the BAR2 window is in its canonical form, every address below the reserved half and no octet of zero listed, then it is so after every step. -/
def Obligations.MemoryStaysCanonical : Prop :=
  ∀ s u : State, memWf s.mem = true → step s = .next u → memWf u.mem = true

/-- No step lowers sweep time, and the cycle count changes only in a cycle start, which is the running of the sweep clock, in an accepted crossing, which takes the outage estimate at restart, and in a pairing HELLO, which makes the forward alignment. -/
def Obligations.SweepTimeNeverDecreases : Prop :=
  (∀ s u : State, step s = .next u → s.now ≤ u.now) ∧
  (∀ (c : Instr) (s u : State), exec c s = .next u → u.cycle ≠ s.cycle →
    (∃ cap vigil busy, c = .cycleStart cap vigil busy) ∨ (∃ t ph w, c = .crossingDetected t ph w) ∨ (∃ t h, c = .pairsHello t h))

/-- A command that changes the life-cycle state is the Keeper step of the start-up, and the new state is the target of the accepted transition, or RECOVERY where the owner root is not intact. -/
def Obligations.LifeCycleChangesOnlyAtStep4 : Prop :=
  ∀ (c : Instr) (s u : State), exec c s = .next u → u.nv.lc = s.nv.lc ∨
    (∃ t intact, c = .startupStep t (.keeper intact) ∧ ((u.nv.lc = 5 ∧ intact = false) ∨ ∃ n, s.nv.next = some n ∧ u.nv.lc = n.target))

/-- Every command answers a next state, in every state and for all its operands, and leaves the factory values and the rest of the queue as they are. -/
def Obligations.FactoryValuesSurvive : Prop :=
  ∀ (c : Instr) (s : State), ∃ u, exec c s = .next u ∧ u.fac = s.fac ∧ u.pending = s.pending

/-- Of the commands outside the list of those that store in BAR2 (images that the host places, frames, jobs, reads of the store, reports, resets and tunnelled writes), none changes an octet of the window. -/
def Obligations.CommandsThatStoreNothingKeepMemory : Prop :=
  ∀ (c : Instr) (s u : State), storesMemory c = false → exec c s = .next u → ∀ x, memByte u.mem x = memByte s.mem x

/-- Tokens, key material, programs, graphs, update chunks and request payloads are stored at the offset that their register names, frames for transmission in the slots that they name, and every octet outside them stays as it is; a read of the ledger stores nothing below its window. -/
def Obligations.ImageCommandsStoreOnlyTheirImage : Prop :=
  /- lcSubmit -/ (∀ (t : Angle) (p : Path) (img : List Byte) (x : Nat) (s u : State), exec (.lcSubmit t p img) s = .next u →
  x < s.reg Reg.KEEP_LC_OFS ∨ s.reg Reg.KEEP_LC_OFS + img.length ≤ x → memByte u.mem x = memByte s.mem x) ∧
  /- lcProvision -/ (∀ (t : Angle) (p : Path) (img : List Byte) (x : Nat) (s u : State), exec (.lcProvision t p img) s = .next u →
  x < s.reg Reg.KEEP_LC_OFS ∨ s.reg Reg.KEEP_LC_OFS + img.length ≤ x → memByte u.mem x = memByte s.mem x) ∧
  /- keyImport -/ (∀ (t : Angle) (p : Path) (img : List Byte) (cut : Option Bool) (x : Nat) (s u : State), exec (.keyImport t p img cut) s = .next u →
  x < s.reg Reg.KEEP_KC_OFS ∨ s.reg Reg.KEEP_KC_OFS + img.length ≤ x → memByte u.mem x = memByte s.mem x) ∧
  /- keyImportKem -/ (∀ (t : Angle) (p : Path) (img : List Byte) (cut : Option Bool) (x : Nat) (s u : State), exec (.keyImportKem t p img cut) s = .next u →
  x < s.reg Reg.KEEP_KC_OFS ∨ s.reg Reg.KEEP_KC_OFS + img.length ≤ x → memByte u.mem x = memByte s.mem x) ∧
  /- keyDerive -/ (∀ (t : Angle) (p : Path) (img : List Byte) (cut : Option Bool) (x : Nat) (s u : State), exec (.keyDerive t p img cut) s = .next u →
  x < s.reg Reg.KEEP_KC_OFS ∨ s.reg Reg.KEEP_KC_OFS + img.length ≤ x → memByte u.mem x = memByte s.mem x) ∧
  /- programCommit -/ (∀ (t : Angle) (p : Path) (img : List Byte) (x : Nat) (s u : State), exec (.programCommit t p img) s = .next u →
  x < s.reg Reg.TARIF_PIMG_OFS ∨ s.reg Reg.TARIF_PIMG_OFS + img.length ≤ x → memByte u.mem x = memByte s.mem x) ∧
  /- graphCommit -/ (∀ (t : Angle) (p : Path) (img : List Byte) (x : Nat) (s u : State), exec (.graphCommit t p img) s = .next u →
  x < s.reg Reg.BALG_GIMG_OFS ∨ s.reg Reg.BALG_GIMG_OFS + img.length ≤ x → memByte u.mem x = memByte s.mem x) ∧
  /- updChunk -/ (∀ (t : Angle) (p : Path) (img : List Byte) (x : Nat) (s u : State), exec (.updChunk t p img) s = .next u →
  x < s.reg Reg.UPD_HCHUNK_OFS ∨ s.reg Reg.UPD_HCHUNK_OFS + img.length ≤ x → memByte u.mem x = memByte s.mem x) ∧
  /- reqGo -/ (∀ (t : Angle) (p : Path) (v : Word) (img : List Byte) (x : Nat) (s u : State), exec (.reqGo t p v img) s = .next u →
  x < s.reg Reg.SLALOM_REQ_HANDLE ∨ s.reg Reg.SLALOM_REQ_HANDLE + img.length ≤ x → memByte u.mem x = memByte s.mem x) ∧
  /- hostTx -/ (∀ (t : Angle) (p : Path) (v : Word) (slots : List (BitVec 8 × List Byte)) (stamps : List Nat) (x : Nat) (s u : State),
  exec (.hostTx t p v slots stamps) s = .next u → (∀ y ∈ slots, x < txSlot y.1.toNat ∨ txSlot y.1.toNat + 2048 ≤ x) →
  memByte u.mem x = memByte s.mem x) ∧
  /- ledgerRead -/ (∀ (t : Angle) (p : Path) (v : Word) (reads : List (BitVec 19 × StripeRead)) (x : Nat) (s u : State), exec (.ledgerRead t p v reads) s = .next u →
  x < 0x1000000 → memByte u.mem x = memByte s.mem x)

/-- A read of NOW_LO answers bits 31:0 of the sweep time and latches bits 63:32 for its path; a read of NOW_HI answers the value latched by the last read of NOW_LO. -/
def Obligations.SweepTimeIsReadConsistently : Prop :=
  (∀ (t : Angle) (p : Path) (s a : State), (s.tick t).through p 0x04 0x040 false = some a →
    ∃ u, exec (.sweepNowRead t p) s = .next u ∧ u.out = .word p (BitVec.ofNat 32 a.now) :: a.out ∧
      u.latched p Reg.SWEEP_NOW_HI = a.now / 2 ^ 32 % 2 ^ 32) ∧
  (∀ (t : Angle) (p : Path) (s a : State), (s.tick t).through p 0x04 0x044 false = some a →
    ∃ u, exec (.latchingRead t p 0x04 0x044 true) s = .next u ∧ u.out = .word p (BitVec.ofNat 32 (a.latched p Reg.SWEEP_NOW_HI)) :: a.out ∧
      a.latched p Reg.SWEEP_NOW_HI = s.latched p Reg.SWEEP_NOW_HI ∧ u.latched p Reg.SWEEP_NOW_HI = s.latched p Reg.SWEEP_NOW_HI)

/-- A read of any register on one access path leaves the word that every other path has latched for every register as it is. -/
def Obligations.PathsKeepTheirLatches : Prop :=
  (∀ (t : Angle) (p q : Path) (page : BitVec 8) (off : BitVec 12) (whole : Bool) (k : Nat) (s u : State), q ≠ p → k < 2 ^ 20 →
    exec (.latchingRead t p page off whole) s = .next u → u.latched q k = s.latched q k) ∧
  (∀ (t : Angle) (p q : Path) (k : Nat) (s u : State), q ≠ p → k < 2 ^ 20 → exec (.sweepNowRead t p) s = .next u → u.latched q k = s.latched q k) ∧
  (∀ (t : Angle) (p q : Path) (k : Nat) (s u : State), q ≠ p → k < 2 ^ 20 → exec (.precDataRead t p) s = .next u → u.latched q k = s.latched q k)

/-- A read at 0x040 or above of a page whose domain is OFF, FAILED or absent answers 0, and a write at any offset changes no register; SYS.ERRCAP takes page, offset and the cause "off" where it is free, and the cause of event 61 is set; a read of the header answers and leaves every domain as it is. -/
def Obligations.AccessToOffDomain : Prop :=
  (∀ (t : Angle) (p : Path) (page : BitVec 8) (off : BitVec 12) (s : State), p = .pcie ∨ p = .svc → pageKind page.toNat ≠ none →
    0x040 ≤ off.toNat → off.toNat % 4 = 0 → s.pageOff page.toNat = true →
    ∃ u, exec (.latchingRead t p page off true) s = .next u ∧ (∃ rest, u.out = .word p 0 :: rest) ∧ u.flag (evRaw 0x02) 5 = true ∧
      (s.flag 0x00028 31 = false → u.reg 0x00028 = 0x80020000 + pathCode p * 2 ^ 28 + page.toNat * 2 ^ 8 ∧ u.reg 0x0002C = off.toNat)) ∧
  (∀ (t : Angle) (p : Path) (page : BitVec 8) (off : BitVec 12) (v : Word) (s : State), p = .pcie ∨ p = .svc → pageKind page.toNat ≠ none →
    off.toNat % 4 = 0 → s.pageOff page.toNat = true →
    ∃ u, exec (.registerWrite t p page off true v) s = .next u ∧ u.flag (evRaw 0x02) 5 = true ∧
      (s.flag 0x00028 31 = false → u.reg 0x00028 = 0x80020000 + pathCode p * 2 ^ 28 + page.toNat * 2 ^ 8 ∧ u.reg 0x0002C = off.toNat) ∧
      ∀ k, stillKey k = true → k ∉ captureKeys page.toNat ++ [evRaw 0x02] → u.reg k = s.reg k) ∧
  (∀ (t : Angle) (p : Path) (page : BitVec 8) (off : BitVec 12) (s : State), p = .pcie ∨ p = .svc → pageKind page.toNat ≠ none →
    off.toNat < 0x040 → off.toNat % 4 = 0 →
    ∃ u, exec (.latchingRead t p page off true) s = .next u ∧ (∃ w rest, u.out = .word p w :: rest) ∧ ∀ d, u.dom d = s.dom d)

/-- Every register holds 32 bits. A write that is not 32 bits wide, or not aligned, changes no register but those of the capture, and such a read answers 0; SYS.ERRCAP takes it with the cause "width" where it is free. -/
def Obligations.WidthErrorsAreCaptured : Prop :=
  (∀ (s : State) (k : Nat), s.reg k < 2 ^ 32) ∧
  (∀ (t : Angle) (p : Path) (page : BitVec 8) (off : BitVec 12) (whole : Bool) (v : Word) (s : State), whole = false ∨ off.toNat % 4 ≠ 0 →
    ∃ u, exec (.registerWrite t p page off whole v) s = .next u ∧
      (s.flag 0x00028 31 = false → u.reg 0x00028 = 0x80010000 + pathCode p * 2 ^ 28 + page.toNat * 2 ^ 8) ∧
      ∀ k, stillKey k = true → k ∉ captureKeys page.toNat → u.reg k = s.reg k) ∧
  (∀ (t : Angle) (p : Path) (page : BitVec 8) (off : BitVec 12) (whole : Bool) (s : State), whole = false ∨ off.toNat % 4 ≠ 0 →
    ∃ u, exec (.latchingRead t p page off whole) s = .next u ∧ (∃ rest, u.out = .word p 0 :: rest) ∧
      (s.flag 0x00028 31 = false → u.reg 0x00028 = 0x80010000 + pathCode p * 2 ^ 28 + page.toNat * 2 ^ 8) ∧
      ∀ k, stillKey k = true → k ∉ captureKeys page.toNat → u.reg k = s.reg k)

/-- Before the register acts, an access changes only registers of page PWR, the count of tunnel operations, the idle counts and the last cycle of the service port; its page is defined, and an access at 0x040 or above names a register and finds its domain neither asleep nor waking. -/
def Obligations.GateChangesOnlyPowerState : Prop :=
  ∀ (p : Path) (page off : Nat) (write : Bool) (s a : State), s.through p page off write = some a →
    a = { s with regs := a.regs, svcLast := a.svcLast, idleRetain := a.idleRetain, touched := a.touched } ∧
    (∀ k, k % 0x1000000 / 0x1000 ≠ 0x02 → k ≠ Reg.FEED_TUN_OPS → a.reg k = s.reg k) ∧ (p ≠ .svc → a.svcLast = s.svcLast) ∧
    pageKind page ≠ none ∧ (0x040 ≤ off → findSpec page off ≠ none ∧ a.dom (pageDomain page) ∉ [1, 2, 3, 4, 5, 6])

/-- Wherever event 0 fires for a page, the cause ALERT of page SYS is set afterwards; ALERT_SRC takes the page where ALERT was clear, and keeps its page where ALERT was set. -/
def Obligations.AlertNamesItsFirstPage : Prop :=
  ∀ (page : Nat) (s : State), (s.alert page).flag (evRaw 0) 0 = true ∧
    (s.alert page).fld Reg.SYS_ALERT_SRC 7 0 = (if s.flag (evRaw 0) 0 then s.fld Reg.SYS_ALERT_SRC 7 0 else page % 256)

/-- After a write of EV_RAW, EV_PEND or an enable, and after the raising of a cause, each line of the page is active exactly where some page has a cause that is set, enabled and routed to it. -/
def Obligations.LinesFollowTheirCauses : Prop :=
  /- evRawWrite -/ (∀ (t : Angle) (p : Path) (page : BitVec 8) (v : Word) (n : Nat) (s a : State), (s.tick t).through p page.toNat 0x014 true = some a →
  n ∈ pageLines page.toNat → ∃ u, exec (.evRawWrite t p page v) s = .next u ∧ u.lineActive.contains n = u.lineOn n) ∧
  /- evPendClear -/ (∀ (t : Angle) (p : Path) (page : BitVec 8) (v : Word) (n : Nat) (s a : State), (s.tick t).through p page.toNat 0x018 true = some a →
  n ∈ pageLines page.toNat → ∃ u, exec (.evPendClear t p page v) s = .next u ∧ u.lineActive.contains n = u.lineOn n) ∧
  /- evEnSet -/ (∀ (t : Angle) (p : Path) (page : BitVec 8) (v : Word) (n : Nat) (s a : State), (s.tick t).through p page.toNat 0x01C true = some a →
  n ∈ pageLines page.toNat → ∃ u, exec (.evEnSet t p page v) s = .next u ∧ u.lineActive.contains n = u.lineOn n) ∧
  /- evEnClr -/ (∀ (t : Angle) (p : Path) (page : BitVec 8) (v : Word) (n : Nat) (s a : State), (s.tick t).through p page.toNat 0x020 true = some a →
  n ∈ pageLines page.toNat → ∃ u, exec (.evEnClr t p page v) s = .next u ∧ u.lineActive.contains n = u.lineOn n) ∧
  /- raise -/ (∀ (page i n : Nat) (s : State), n ∈ pageLines page → (s.raise page i).lineActive.contains n = (s.raise page i).lineOn n)

/-- A counter drawn under a key is the key's next one, lies in a block whose reservation Keeper NV holds, and is never drawn again; a key that waits keeps its next counter, and no other key changes. -/
def Obligations.DrawnCountersAreReserved : Prop :=
  (∀ (key c : Nat) (s u : State), s.drawCounter key = (.value c, u) → c = (s.txKey key).next ∧ c / 4096 < (s.txKey key).blocks ∧
    (u.txKey key).next = c + 1 ∧ (u.txKey key).blocks = (s.txKey key).blocks ∧ ∀ key', key' ≠ key → u.txKey key' = s.txKey key') ∧
  (∀ (k : TxKey) (opened last c : Nat), (drawKey k opened last).1 = .value c → c = k.next ∧ c ≤ last ∧ c / 4096 < opened) ∧
  (∀ (k : TxKey) (opened last : Nat), (drawKey k opened last).1 = .wait → (drawKey k opened last).2 = { k with asked := true })

/-- While the store has a free slot, a note displaces no entry; in a full store it takes the slot of an entry of the lowest class present, the oldest of them, whose class is at or below its own; and where every entry is of a higher class it is discarded and counted, and the entry sequence stays. -/
def Obligations.LogbookKeepsHigherClasses : Prop :=
  (∀ (t : Angle) (p : Path) (v : Word) (i : Nat) (e : LogEntry) (s a : State), (s.tick t).through p 0x49 0x080 true = some a → a.frozen = false →
    a.log.entries.length < 2048 → a.log.entries.find i = some e →
    ∃ u, exec (.hostNote t p v) s = .next u ∧ u.log.entries.find i = some e ∧ u.reg Reg.LOGB_ENT_SEQ = (a.reg Reg.LOGB_ENT_SEQ + 1) % 2 ^ 32) ∧
  (∀ (m : SMap LogEntry) (cls i : Nat), cls ≤ 3 → 2048 ≤ m.length → logSlot m cls = some i →
    ∃ x ∈ m, x.1 = i ∧ x.2.cls ≤ cls ∧ ∀ y ∈ m, x.2.cls ≤ y.2.cls ∧ (y.2.cls = x.2.cls → x.2.eseq ≤ y.2.eseq)) ∧
  (∀ (t : Angle) (p : Path) (v : Word) (s a : State), (s.tick t).through p 0x49 0x080 true = some a → a.frozen = false →
    2048 ≤ a.log.entries.length → (∀ x ∈ a.log.entries, v.toNat % 4 < x.2.cls) →
    ∃ u, exec (.hostNote t p v) s = .next u ∧ u.log.entries = a.log.entries ∧ u.reg Reg.LOGB_ENT_SEQ = a.reg Reg.LOGB_ENT_SEQ ∧
      u.reg (Reg.LOGB_DROP0 + 4 * (v.toNat % 4)) = satAdd 32 (a.reg (Reg.LOGB_DROP0 + 4 * (v.toNat % 4))) 1)

/-- Reads of the sweep, pins, supply changes, node records, hop slots and loop states: each of these commands changes only the parts of the state and the registers that its clause names, beside what event lines send; an access on the bus may also be captured and counts in SEQ. -/
def Obligations.FieldCommandsFrame : Prop :=
  /- sweepNowRead -/ (∀ (t : Angle) (p : Path) (s a u : State), (s.tick t).through p 0x04 0x040 false = some a →
  exec (.sweepNowRead t p) s = .next u → u = ({ a with latch := u.latch }).eventsOf u ∧ ∀ k, u.reg k = a.reg k) ∧
  /- precDataRead -/ (∀ (t : Angle) (p : Path) (s a u : State), (s.tick t).through p 0x04 0x0A8 false = some a →
  exec (.precDataRead t p) s = .next u → u = ({ a with latch := u.latch }).eventsOf u ∧ ∀ k, u.reg k = a.reg k) ∧
  /- instantPin -/ (∀ (t : Angle) (id : Nat) (s u : State), exec (.instantPin t id) s = .next u →
  u = ({ s.tick t with sweep := u.sweep }).eventsOf u ∧ ∀ k, stillKey k = true → u.reg k = s.reg k) ∧
  /- schedShort -/ (∀ (t : Angle) (s u : State), exec (.schedShort t) s = .next u →
  u = (s.tick t).eventsOf u ∧ ∀ k, stillKey k = true → k ∉ [Reg.SWEEP_CIVSTAT, evRaw 0x04] → u.reg k = s.reg k) ∧
  /- hwmClr -/ (∀ (t : Angle) (p : Path) (v : Word) (s a u : State), (s.tick t).through p 0x05 0x048 true = some a →
  exec (.hwmClr t p v) s = .next u → u = ({ a with errRing := u.errRing }).eventsOf u ∧
    ∀ k, stillKey k = true → k ∉ captureKeys 0x05 ++ [0x05 * 0x1000 + 0x030, Reg.SLALOM_CAL_HWM] → u.reg k = a.reg k) ∧
  /- supplyPhaseMove -/ (∀ (t : Angle) (s u : State), exec (.supplyPhaseMove t) s = .next u →
  u = (s.tick t).eventsOf u ∧ ∀ k, stillKey k = true → k ∉ [Reg.PWR_PWRSTAT, evRaw 0x02] → u.reg k = s.reg k) ∧
  /- joinTimeout -/ (∀ (t : Angle) (node : BitVec 13) (s u : State), exec (.joinTimeout t node) s = .next u →
  u = ({ s.tick t with field := u.field }).eventsOf u ∧ ∀ k, stillKey k = true → u.reg k = s.reg k) ∧
  /- repeaterDemote -/ (∀ (t : Angle) (node : BitVec 13) (s u : State), exec (.repeaterDemote t node) s = .next u →
  u = ({ s.tick t with field := u.field }).eventsOf u ∧ ∀ k, stillKey k = true → k ∉ [evRaw 0x0F] → u.reg k = s.reg k) ∧
  /- nodeProvision -/ (∀ (t : Angle) (p : Path) (v : Word) (s a u : State), (s.tick t).through p 0x0F 0x08C true = some a →
  exec (.nodeProvision t p v) s = .next u → u = ({ a with errRing := u.errRing, field := u.field, led := u.led }).eventsOf u ∧
    ∀ k, stillKey k = true → k ∉ captureKeys 0x0F ++ [0x0F * 0x1000 + 0x030] → u.reg k = a.reg k) ∧
  /- nodeBar -/ (∀ (t : Angle) (p : Path) (v : Word) (s a u : State), (s.tick t).through p 0x0F 0x08C true = some a →
  exec (.nodeBar t p v) s = .next u → u = ({ a with errRing := u.errRing, field := u.field, led := u.led }).eventsOf u ∧
    ∀ k, stillKey k = true → k ∉ captureKeys 0x0F ++ [0x0F * 0x1000 + 0x030] → u.reg k = a.reg k) ∧
  /- nodeRelease -/ (∀ (t : Angle) (p : Path) (v : Word) (s a u : State), (s.tick t).through p 0x0F 0x08C true = some a →
  exec (.nodeRelease t p v) s = .next u → u = ({ a with errRing := u.errRing, field := u.field, led := u.led }).eventsOf u ∧
    ∀ k, stillKey k = true → k ∉ captureKeys 0x0F ++ [0x0F * 0x1000 + 0x030] → u.reg k = a.reg k) ∧
  /- forceSearch -/ (∀ (t : Angle) (p : Path) (v : Word) (s a u : State), (s.tick t).through p 0x0F 0x08C true = some a →
  exec (.forceSearch t p v) s = .next u → u = ({ a with errRing := u.errRing, field := u.field, led := u.led }).eventsOf u ∧
    ∀ k, stillKey k = true → k ∉ captureKeys 0x0F ++ [0x0F * 0x1000 + 0x030] → u.reg k = a.reg k) ∧
  /- hopSlotStart -/ (∀ (t : Angle) (s u : State), exec (.hopSlotStart t) s = .next u →
  u = ({ s.tick t with field := u.field }).eventsOf u ∧ ∀ k, stillKey k = true → k ∉ [Reg.AIR_STAT 0, Reg.AIR_STAT 1] → u.reg k = s.reg k) ∧
  /- airSearchWindow -/ (∀ (t : Angle) (lane : Fin 2) (s u : State), exec (.airSearchWindow t lane) s = .next u →
  u = ({ s.tick t with field := u.field }).eventsOf u ∧ ∀ k, stillKey k = true → k ∉ [Reg.AIR_STAT lane] → u.reg k = s.reg k) ∧
  /- loopSync -/ (∀ (t : Angle) (n : Fin 4) (s u : State), exec (.loopSync t n) s = .next u →
  u = ({ s.tick t with field := u.field }).eventsOf u ∧ ∀ k, stillKey k = true → k ∉ [Reg.LOOP_SYNC_TX n] → u.reg k = s.reg k) ∧
  /- loopDwellEnd -/ (∀ (t : Angle) (s u : State), exec (.loopDwellEnd t) s = .next u →
  u = ({ s.tick t with field := u.field }).eventsOf u ∧ ∀ k, stillKey k = true → k ∉ [Reg.LOOP_SUPSTAT 0, Reg.LOOP_SUPSTAT 1, Reg.LOOP_SUPSTAT 2, Reg.LOOP_SUPSTAT 3] → u.reg k = s.reg k) ∧
  /- loopTripRetry -/ (∀ (t : Angle) (n : Fin 4) (s u : State), exec (.loopTripRetry t n) s = .next u →
  u = ({ s.tick t with field := u.field }).eventsOf u ∧ ∀ k, stillKey k = true → k ∉ [Reg.LOOP_SUPSTAT n] → u.reg k = s.reg k) ∧
  /- loopRestore -/ (∀ (t : Angle) (p : Path) (n : Fin 4) (v : Word) (s a u : State), (s.tick t).through p (0x14 + n.val) 0x050 true = some a →
  exec (.loopRestore t p n v) s = .next u → u = ({ a with errRing := u.errRing, field := u.field }).eventsOf u ∧
    ∀ k, stillKey k = true → k ∉ captureKeys (0x14 + n.val) ++ [(0x14 + n.val) * 0x1000 + 0x030, Reg.LOOP_SUPSTAT n] → u.reg k = a.reg k) ∧
  /- ident -/ (∀ (t : Angle) (n : Fin 4) (m : Fin 8) (s u : State), exec (.ident t n m) s = .next u →
  u = ({ s.tick t with field := u.field, fresh := u.fresh }).eventsOf u ∧ ∀ k, stillKey k = true → u.reg k = s.reg k)

/-- Queue settings and flushes, close instants, parameter slots, zone restarts, prices, members and tamper inputs: each of these commands changes only the parts of the state and the registers that its clause names, beside what event lines send; an access on the bus may also be captured and counts in SEQ. -/
def Obligations.MeterCommandsFrame : Prop :=
  /- flush -/ (∀ (t : Angle) (p : Path) (q : Fin 32) (v : Word) (s a u : State), (s.tick t).through p (queuePage q.val) (0x120 + 0x40 * (q % 8)) true = some a →
  exec (.flush t p q v) s = .next u → u = ({ a with errRing := u.errRing, lift := u.lift }).eventsOf u ∧
    ∀ k, stillKey k = true → k ∉ captureKeys (queuePage q.val) ++ [(queuePage q.val) * 0x1000 + 0x030, queueReg Reg.LIFT_Q_FL_DISC q, evRaw (queuePage q)] → u.reg k = a.reg k) ∧
  /- wmCauseClear -/ (∀ (t : Angle) (p : Path) (g : Fin 4) (v : Word) (s a u : State), (s.tick t).through p (0x18 + g.val) 0x018 true = some a →
  exec (.wmCauseClear t p g v) s = .next u → u = ({ a with errRing := u.errRing }).eventsOf u ∧
    ∀ k, stillKey k = true → k ∉ captureKeys (0x18 + g.val) ++ [] ++ (evRaw (0x18 + g.val) :: (List.range 8).flatMap (fun i => [queueReg Reg.LIFT_Q_WMPEAK (8 * g.val + i), queueReg Reg.LIFT_Q_WMAT_LO (8 * g.val + i),
      queueReg Reg.LIFT_Q_WMAT_HI (8 * g.val + i)])) → u.reg k = a.reg k) ∧
  /- liftLaneWrite -/ (∀ (t : Angle) (p : Path) (q : Fin 32) (v : Word) (s a u : State), (s.tick t).through p (queuePage q.val) (0x100 + 0x40 * (q % 8)) true = some a →
  exec (.liftLaneWrite t p q v) s = .next u → u = ({ a with errRing := u.errRing, led := u.led }).eventsOf u ∧
    ∀ k, stillKey k = true → k ∉ captureKeys (queuePage q.val) ++ [(queuePage q.val) * 0x1000 + 0x030, queueReg Reg.LIFT_Q_QCFG q] → u.reg k = a.reg k) ∧
  /- peekRead -/ (∀ (t : Angle) (p : Path) (g : Fin 4) (s a u : State), (s.tick t).through p (0x18 + g.val) 0x044 false = some a →
  exec (.peekRead t p g) s = .next u → u = ({ a with latch := u.latch }).eventsOf u ∧ (∀ k, u.reg k = a.reg k) ∧
    ∀ q k, k < 2 ^ 20 → q ≠ p ∨ k ∉ [Reg.LIFT_PEEK_D0 g, Reg.LIFT_PEEK_D1 g, Reg.LIFT_PEEK_D2 g, Reg.LIFT_PEEK_D3 g] → u.latched q k = a.latched q k) ∧
  /- closePush -/ (∀ (t : Angle) (p : Path) (lane : Fin 16) (v : Word) (s a u : State), (s.tick t).through p (0x20 + lane.val) 0x084 true = some a →
  exec (.closePush t p lane v) s = .next u → u = ({ a with errRing := u.errRing, fca := u.fca }).eventsOf u ∧
    ∀ k, stillKey k = true → k ∉ captureKeys (0x20 + lane.val) ++ [(0x20 + lane.val) * 0x1000 + 0x030] → u.reg k = a.reg k) ∧
  /- pbSlotCommit -/ (∀ (t : Angle) (p : Path) (v : Word) (s a u : State), (s.tick t).through p 0x1C 0x05C true = some a →
  exec (.pbSlotCommit t p v) s = .next u → u = ({ a with errRing := u.errRing, fca := u.fca }).eventsOf u ∧
    ∀ k, stillKey k = true → k ∉ captureKeys 0x1C ++ [0x1C * 0x1000 + 0x030, Reg.FCAC_PB_HI] → u.reg k = a.reg k) ∧
  /- closeEnd -/ (∀ (t : Angle) (p : Path) (lane : Fin 16) (v : Word) (s a u : State), (s.tick t).through p (0x20 + lane.val) 0x08C true = some a →
  exec (.closeEnd t p lane v) s = .next u → u = ({ a with errRing := u.errRing, fca := u.fca }).eventsOf u ∧
    ∀ k, stillKey k = true → k ∉ captureKeys (0x20 + lane.val) ++ [(0x20 + lane.val) * 0x1000 + 0x030, evRaw (0x20 + lane.val)] → u.reg k = a.reg k) ∧
  /- zoneRestart -/ (∀ (t : Angle) (p : Path) (v : Word) (s a u : State), (s.tick t).through p 0x30 0x100 true = some a →
  exec (.zoneRestart t p v) s = .next u → u = ({ a with errRing := u.errRing, balance := u.balance, sweep := u.sweep }).eventsOf u ∧
    ∀ k, stillKey k = true → k ∉ captureKeys 0x30 ++ [0x30 * 0x1000 + 0x030, Reg.BAL_STAT, Reg.BALG_GSTAT] → u.reg k = a.reg k) ∧
  /- priceCommit -/ (∀ (t : Angle) (p : Path) (v : Word) (s a u : State), (s.tick t).through p 0x34 0x090 true = some a →
  exec (.priceCommit t p v) s = .next u → u = ({ a with errRing := u.errRing, billing := u.billing, led := u.led }).eventsOf u ∧
    ∀ k, stillKey k = true → k ∉ captureKeys 0x34 ++ [0x34 * 0x1000 + 0x030, bankKey a.acSel Reg.CRED_PR_EFF_HI] → u.reg k = a.reg k) ∧
  /- memberCommit -/ (∀ (t : Angle) (p : Path) (v : Word) (s a u : State), (s.tick t).through p 0x34 0x0A4 true = some a →
  exec (.memberCommit t p v) s = .next u → u = ({ a with errRing := u.errRing, billing := u.billing, led := u.led }).eventsOf u ∧
    ∀ k, stillKey k = true → k ∉ captureKeys 0x34 ++ [0x34 * 0x1000 + 0x030, bankKey (a.acSel * 32 + a.fld Reg.CRED_MB_SEL 4 0) Reg.CRED_MB_W] → u.reg k = a.reg k) ∧
  /- tamperInput -/ (∀ (t : Angle) (input : Fin 3) (opened : Bool) (vigil : BitVec 48) (s u : State), exec (.tamperInput t input opened vigil) s = .next u →
  u = ({ s.tick t with tamper := u.tamper, led := u.led }).eventsOf u ∧ ∀ k, stillKey k = true → k ∉ [Reg.TAMP_TP_STAT, Reg.TAMP_LOG_WR, Reg.TAMP_LOG_OVF, Reg.SLALOM_E_UNC, Reg.SLALOM_E_HEAD, evRaw 0x35] → u.reg k = s.reg k)

/-- Stripes, groups, collection, batches, reservations, engine segments and the pair: each of these commands changes only the parts of the state and the registers that its clause names, beside what event lines send; an access on the bus may also be captured and counts in SEQ. -/
def Obligations.StoreCommandsFrame : Prop :=
  /- stripeProgrammed -/ (∀ (t : Angle) (s u : State), exec (.stripeProgrammed t) s = .next u →
  u = ({ s.tick t with led := u.led }).eventsOf u ∧ ∀ k, stillKey k = true → u.reg k = s.reg k) ∧
  /- groupClose -/ (∀ (t : Angle) (s u : State), exec (.groupClose t) s = .next u →
  u = ({ s.tick t with led := u.led }).eventsOf u ∧ ∀ k, stillKey k = true → u.reg k = s.reg k) ∧
  /- ledgSync -/ (∀ (t : Angle) (p : Path) (v : Word) (s a u : State), (s.tick t).through p 0x38 0x0A0 true = some a →
  exec (.ledgSync t p v) s = .next u → u = ({ a with errRing := u.errRing, led := u.led }).eventsOf u ∧
    ∀ k, stillKey k = true → k ∉ captureKeys 0x38 ++ [0x38 * 0x1000 + 0x030] → u.reg k = a.reg k) ∧
  /- gcStep -/ (∀ (t : Angle) (reads : List (BitVec 19 × StripeRead)) (s u : State), (∀ x ∈ reads, ∃ n w, x.2 = .corrected n w) →
  exec (.gcStep t reads) s = .next u → u = ({ s.tick t with led := u.led }).eventsOf u ∧ ∀ k, stillKey k = true →
    k ∉ [Reg.NAND_RELOC, Reg.NAND_CORR_CW, Reg.GROOM_PASS_POS, Reg.GROOM_REFRESHES, evRaw 0x3A] → u.reg k = s.reg k) ∧
  /- rebuildStep -/ (∀ (t : Angle) (reads : List (BitVec 19 × StripeRead)) (s u : State), (∀ x ∈ reads, ∃ n w, x.2 = .corrected n w) →
  exec (.rebuildStep t reads) s = .next u → u = ({ s.tick t with led := u.led }).eventsOf u ∧ ∀ k, stillKey k = true →
    k ∉ [Reg.NAND_RELOC, Reg.NAND_REBUILD, evRaw 0x39, Reg.NAND_CORR_CW, Reg.GROOM_PASS_POS, Reg.GROOM_REFRESHES, evRaw 0x3A] → u.reg k = s.reg k) ∧
  /- programFail -/ (∀ (t : Angle) (die : Fin 8) (gc : Bool) (s u : State), exec (.programFail t die gc false) s = .next u →
  u = ({ s.tick t with led := u.led }).eventsOf u ∧ ∀ k, stillKey k = true → k ∉ [Reg.NAND_PROG_FAIL] → u.reg k = s.reg k) ∧
  /- groomLate -/ (∀ (t : Angle) (s u : State), exec (.groomLate t) s = .next u →
  u = ({ s.tick t with led := u.led }).eventsOf u ∧ ∀ k, stillKey k = true → k ∉ [Reg.GROOM_LATE, evRaw 0x3A] → u.reg k = s.reg k) ∧
  /- batchClose -/ (∀ (t : Angle) (s u : State), exec (.batchClose t) s = .next u →
  u = ({ s.tick t with merk := u.merk }).eventsOf u ∧ ∀ k, stillKey k = true → u.reg k = s.reg k) ∧
  /- reservationWritten -/ (∀ (t : Angle) (key : Nat) (acked : Bool) (s u : State), exec (.reservationWritten t key acked) s = .next u →
  u = (s.tick t).eventsOf u ∧ ∀ k, stillKey k = true → k ∉ [Reg.KEEP_RSV_WRITES] → u.reg k = s.reg k) ∧
  /- pubRead -/ (∀ (t : Angle) (p : Path) (s a u : State), (s.tick t).through p 0x40 0x0C8 false = some a →
  exec (.pubRead t p) s = .next u → u = a.eventsOf u ∧ ∀ k, k ∉ [Reg.KEEP_PUB_IDX] → u.reg k = a.reg k) ∧
  /- jobSegmentEnd -/ (∀ (t : Angle) (e : Fin 4) (s u : State), exec (.jobSegmentEnd t e) s = .next u →
  u = ({ s.tick t with crypto := u.crypto }).eventsOf u ∧ ∀ k, stillKey k = true → u.reg k = s.reg k) ∧
  /- jrAck -/ (∀ (t : Angle) (p : Path) (e : Fin 4) (v : Word) (s a u : State), (s.tick t).through p (enginePage e.val) 0x054 true = some a →
  exec (.jrAck t p e v) s = .next u → u = ({ a with errRing := u.errRing, crypto := u.crypto }).eventsOf u ∧
    ∀ k, stillKey k = true → k ∉ captureKeys (enginePage e.val) ++ [(enginePage e.val) * 0x1000 + 0x030] → u.reg k = a.reg k) ∧
  /- rngFail -/ (∀ (t : Angle) (s u : State), exec (.rngFail t) s = .next u →
  u = ({ s.tick t with crypto := u.crypto }).eventsOf u ∧ ∀ k, stillKey k = true → k ∉ [Reg.CRY_ESTAT 0, Reg.CRY_ESTAT 1, Reg.CRY_ESTAT 2, Reg.CRY_ESTAT 3, Reg.CRY_HASH_CORES] → u.reg k = s.reg k) ∧
  /- takebackRequest -/ (∀ (t : Angle) (s u : State), exec (.takebackRequest t) s = .next u →
  u = ({ s.tick t with pairs := u.pairs }).eventsOf u ∧ ∀ k, stillKey k = true → u.reg k = s.reg k) ∧
  /- mirrorAck -/ (∀ (t : Angle) (rsn : Nat) (s u : State), exec (.mirrorAck t rsn) s = .next u →
  u = ({ s.tick t with ackedRsn := u.ackedRsn, field := u.field, pairs := u.pairs }).eventsOf u ∧ ∀ k, stillKey k = true → k ∉ [Reg.PAIRS_LAG] → u.reg k = s.reg k) ∧
  /- supervisorRelease -/ (∀ (t : Angle) (s u : State), exec (.supervisorRelease t) s = .next u →
  u = ({ s.tick t with field := u.field, pairs := u.pairs }).eventsOf u ∧ ∀ k, stillKey k = true →
    k ∉ [Reg.PAIRS_STAT, Reg.LOOP_SUPSTAT 0, Reg.LOOP_SUPSTAT 1, Reg.LOOP_SUPSTAT 2, Reg.LOOP_SUPSTAT 3] → u.reg k = s.reg k) ∧
  /- handoverReady -/ (∀ (t : Angle) (s u : State), exec (.handoverReady t) s = .next u →
  u = ({ s.tick t with upd := u.upd }).eventsOf u ∧ ∀ k, stillKey k = true → u.reg k = s.reg k) ∧
  /- bistPassLate -/ (∀ (t : Angle) (blk : BitVec 6) (s u : State), exec (.bistPassLate t blk) s = .next u →
  u = (s.tick t).eventsOf u ∧ ∀ k, stillKey k = true → k ∉ [Reg.BIST_LATE_PASS, evRaw 0x48] → u.reg k = s.reg k)

/-- Link events, captures, frames received, header registers, resets asked for and the Logbook's registers: each of these commands changes only the parts of the state and the registers that its clause names, beside what event lines send; an access on the bus may also be captured and counts in SEQ. -/
def Obligations.BusCommandsFrame : Prop :=
  /- keepalive -/ (∀ (t : Angle) (sid : Nat) (s u : State), exec (.keepalive t sid) s = .next u →
  u = (s.tick t).eventsOf u ∧ ∀ k, stillKey k = true → u.reg k = s.reg k) ∧
  /- kfpRetransmit -/ (∀ (t : Angle) (sid : Nat) (seq : Nat) (s u : State), exec (.kfpRetransmit t sid seq) s = .next u →
  u = (s.tick t).eventsOf u ∧ ∀ k, stillKey k = true → k ∉ [Reg.FEED_RETX] → u.reg k = s.reg k) ∧
  /- endpointReset -/ (∀ (t : Angle) (s u : State), exec (.endpointReset t) s = .next u →
  u = ({ s.tick t with msixMasked := u.msixMasked }).eventsOf u ∧ ∀ k, stillKey k = true → k ∉ [Reg.PCIE_PERST, Reg.PCIE_STAT, evRaw 0x53] → u.reg k = s.reg k) ∧
  /- pcieLinkUp -/ (∀ (t : Angle) (gen : Fin 4) (width : Fin 3) (s u : State), exec (.pcieLinkUp t gen width) s = .next u →
  u = (s.tick t).eventsOf u ∧ ∀ k, stillKey k = true → k ∉ [Reg.PCIE_STAT, evRaw 0x53] → u.reg k = s.reg k) ∧
  /- captureEvent -/ (∀ (t : Angle) (src : Fin 8) (falling : Bool) (cap : Nat) (s u : State), exec (.captureEvent t src falling cap) s = .next u →
  u = (s.tick t).eventsOf u ∧ ∀ k, stillKey k = true → k ≠ evRaw 0x06 →
    (∀ n ∈ (s.tick t).captures src falling, k ∉ [Reg.PTP_CAP_CTL n, Reg.PTP_CAP_SEC_LO n, Reg.PTP_CAP_SEC_HI n, Reg.PTP_CAP_NS n]) → u.reg k = s.reg k) ∧
  /- ptpAnnounceTimeout -/ (∀ (t : Angle) (s u : State), exec (.ptpAnnounceTimeout t) s = .next u →
  u = ({ s.tick t with ptp := u.ptp }).eventsOf u ∧ ∀ k, stillKey k = true → k ∉ [Reg.PTP_STAT, Reg.SWEEP_LOCKSTAT, Reg.SWEEP_CIVSTAT, evRaw 0x06] → u.reg k = s.reg k) ∧
  /- tsqPop -/ (∀ (t : Angle) (p : Path) (v : Word) (s a u : State), (s.tick t).through p 0x06 0x074 true = some a →
  exec (.tsqPop t p v) s = .next u → u = ({ a with errRing := u.errRing, ptp := u.ptp }).eventsOf u ∧
    ∀ k, stillKey k = true → k ∉ captureKeys 0x06 ++ [0x06 * 0x1000 + 0x030, evRaw 0x06] → u.reg k = a.reg k) ∧
  /- svcUnlockExpiry -/ (∀ (t : Angle) (s u : State), exec (.svcUnlockExpiry t) s = .next u →
  u = (s.tick t).eventsOf u ∧ ∀ k, stillKey k = true → k ∉ [Reg.SVC_STAT] → u.reg k = s.reg k) ∧
  /- ethFrameReceived -/ (∀ (t : Angle) (port : Fin 2) (bad : Bool) (frame : List Byte) (mac : Nat) (s u : State), exec (.ethFrameReceived t port bad frame mac) s = .next u →
  u = ({ s.tick t with mem := u.mem }).eventsOf u ∧ ∀ k, stillKey k = true → k ∉ [Reg.ETH_RX_ERR port, Reg.ETH_RX_OK port, Reg.ETH_TX_OK port, Reg.ETH_DROP port, Reg.PCIE_HRX_WR, evRaw (ethPage port), evRaw 0x53] → u.reg k = s.reg k) ∧
  /- ethFrameReceived -/ (∀ (t : Angle) (port : Fin 2) (bad : Bool) (frame : List Byte) (mac : Nat) (x : Nat) (s u : State),
  exec (.ethFrameReceived t port bad frame mac) s = .next u →
  x < rxSlot ((s.tick t).fld Reg.PCIE_HRX_WR 7 0) ∨ rxSlot ((s.tick t).fld Reg.PCIE_HRX_WR 7 0) + 20 + min 2028 frame.length ≤ x →
  memByte u.mem x = memByte s.mem x) ∧
  /- sysReset -/ (∀ (t : Angle) (p : Path) (v : Word) (s a u : State), (s.tick t).through p 0x00 0x068 true = some a →
  exec (.sysReset t p v) s = .next u → u = ({ a with errRing := u.errRing, boot := u.boot }).eventsOf u ∧
    ∀ k, stillKey k = true → k ∉ captureKeys 0x00 ++ [0x00 * 0x1000 + 0x030] → u.reg k = a.reg k) ∧
  /- scanRequest -/ (∀ (t : Angle) (p : Path) (v : Word) (s a u : State), (s.tick t).through p 0x48 0x044 true = some a →
  exec (.scanRequest t p v) s = .next u → u = ({ a with errRing := u.errRing }).eventsOf u ∧
    ∀ k, stillKey k = true → k ∉ captureKeys 0x48 ++ [0x48 * 0x1000 + 0x030, Reg.BIST_SCANCTL] → u.reg k = a.reg k) ∧
  /- roleNextWrite -/ (∀ (t : Angle) (p : Path) (v : Word) (s a u : State), (s.tick t).through p 0x00 0x0C4 true = some a →
  exec (.roleNextWrite t p v) s = .next u → u = ({ a with errRing := u.errRing, nv := { a.nv with roleNext := u.nv.roleNext } }).eventsOf u ∧
    ∀ k, stillKey k = true → k ∉ captureKeys 0x00 ++ [0x00 * 0x1000 + 0x030] → u.reg k = a.reg k) ∧
  /- ifselWrite -/ (∀ (t : Angle) (p : Path) (page : BitVec 8) (v : Word) (s a u : State), (s.tick t).through p page.toNat 0x008 true = some a →
  exec (.ifselWrite t p page v) s = .next u → u = ({ a with errRing := u.errRing }).eventsOf u ∧
    ∀ k, stillKey k = true → k ∉ captureKeys page.toNat ++ [page.toNat * 0x1000 + 0x030, page.toNat * 0x1000 + 0x008] → u.reg k = a.reg k) ∧
  /- evRawWrite -/ (∀ (t : Angle) (p : Path) (page : BitVec 8) (v : Word) (s a u : State), (s.tick t).through p page.toNat 0x014 true = some a →
  exec (.evRawWrite t p page v) s = .next u → u = ({ a with errRing := u.errRing }).eventsOf u ∧
    ∀ k, stillKey k = true → k ∉ captureKeys page.toNat ++ [evRaw page.toNat] → u.reg k = a.reg k) ∧
  /- evEnSet -/ (∀ (t : Angle) (p : Path) (page : BitVec 8) (v : Word) (s a u : State), (s.tick t).through p page.toNat 0x01C true = some a →
  exec (.evEnSet t p page v) s = .next u → u = ({ a with errRing := u.errRing }).eventsOf u ∧
    ∀ k, stillKey k = true → k ∉ captureKeys page.toNat ++ [evEn page.toNat] → u.reg k = a.reg k) ∧
  /- evEnClr -/ (∀ (t : Angle) (p : Path) (page : BitVec 8) (v : Word) (s a u : State), (s.tick t).through p page.toNat 0x020 true = some a →
  exec (.evEnClr t p page v) s = .next u → u = ({ a with errRing := u.errRing }).eventsOf u ∧
    ∀ k, stillKey k = true → k ∉ captureKeys page.toNat ++ [evEn page.toNat] → u.reg k = a.reg k) ∧
  /- errcapClear -/ (∀ (t : Angle) (p : Path) (page : BitVec 8) (v : Word) (s a u : State), (s.tick t).through p page.toNat 0x028 true = some a →
  exec (.errcapClear t p page v) s = .next u → u = ({ a with errRing := u.errRing }).eventsOf u ∧
    ∀ k, stillKey k = true → k ∉ captureKeys page.toNat ++ [] → u.reg k = a.reg k) ∧
  /- logbookFreeze -/ (∀ (t : Angle) (p : Path) (s a u : State), (s.tick t).through p 0x49 0x00C true = some a →
  exec (.logbookFreeze t p) s = .next u → u = ({ a with errRing := u.errRing, log := u.log }).eventsOf u ∧
    ∀ k, stillKey k = true → k ∉ captureKeys 0x49 ++ [0x49 * 0x1000 + 0x030, Reg.LOGB_STAT, 0x4900C] → u.reg k = a.reg k) ∧
  /- clrAll -/ (∀ (t : Angle) (p : Path) (v : Word) (s a u : State), (s.tick t).through p 0x49 0x0B4 true = some a →
  exec (.clrAll t p v) s = .next u → u = ({ a with errRing := u.errRing, log := u.log }).eventsOf u ∧
    ∀ k, stillKey k = true → k ∉ captureKeys 0x49 ++ [0x49 * 0x1000 + 0x030, Reg.LOGB_STAT] → u.reg k = a.reg k) ∧
  /- instrumentClearBins -/ (∀ (t : Angle) (p : Path) (s a u : State), (s.tick t).through p 0x49 0x06C true = some a →
  exec (.instrumentClearBins t p) s = .next u → u = ({ a with errRing := u.errRing, log := u.log }).eventsOf u ∧
    ∀ k, stillKey k = true → k ∉ captureKeys 0x49 ++ [0x49 * 0x1000 + 0x030] → u.reg k = a.reg k) ∧
  /- instrumentClearExtremes -/ (∀ (t : Angle) (p : Path) (s a u : State), (s.tick t).through p 0x49 0x06C true = some a →
  exec (.instrumentClearExtremes t p) s = .next u → u = ({ a with errRing := u.errRing, log := u.log }).eventsOf u ∧
    ∀ k, stillKey k = true → k ∉ captureKeys 0x49 ++ [0x49 * 0x1000 + 0x030] → u.reg k = a.reg k) ∧
  /- instrumentClearBoth -/ (∀ (t : Angle) (p : Path) (s a u : State), (s.tick t).through p 0x49 0x06C true = some a →
  exec (.instrumentClearBoth t p) s = .next u → u = ({ a with errRing := u.errRing, log := u.log }).eventsOf u ∧
    ∀ k, stillKey k = true → k ∉ captureKeys 0x49 ++ [0x49 * 0x1000 + 0x030] → u.reg k = a.reg k) ∧
  /- hostSample -/ (∀ (t : Angle) (p : Path) (v : Word) (s a u : State), (s.tick t).through p 0x49 0x074 true = some a →
  exec (.hostSample t p v) s = .next u → u = ({ a with errRing := u.errRing, log := u.log }).eventsOf u ∧
    ∀ k, stillKey k = true → k ∉ captureKeys 0x49 ++ [0x49 * 0x1000 + 0x030, Reg.LOGB_FRZ_LOST] → u.reg k = a.reg k) ∧
  /- cursorRead -/ (∀ (t : Angle) (p : Path) (s a u : State), (s.tick t).through p 0x49 0x054 false = some a →
  exec (.cursorRead t p) s = .next u → u = ({ a with log := u.log }).eventsOf u ∧ ∀ k, u.reg k = a.reg k)

/-- An accepted crossing becomes the record of its phase; a missed one is counted on its phase; the angle-0 tick starts the next cycle; reads of NOW_LO and PREC_DATA answer the sweep time and the entry at the path's cursor and latch for their path; any read answers the word of its register. -/
def Obligations.TimebaseCommandsComplete : Prop :=
  /- crossingDetected -/ (∀ (t : Angle) (ph : Phase) (w : CrossingInput) (s : State),
  ((s.tick t).timebase = 1 ∨ (s.tick t).timebase = 2) →
  ((s.tick t).phaseError (phaseNo ph)).natAbs ≤ 0x0800 →
  periodOk w.ival (((s.tick t).phase (phaseNo ph)).misses + 1) = true →
  ∃ u, exec (.crossingDetected t ph w) s = .next u ∧ (u.phase (phaseNo ph)).misses = 0 ∧
    (u.phase (phaseNo ph)).accepted = some ((s.tick t).crossingCycle (phaseNo ph), (s.tick t).phaseError (phaseNo ph))) ∧
  /- crossingMiss -/ (∀ (t : Angle) (ph : Phase) (s : State), (s.tick t).timebase ≠ 0 → (s.tick t).timebase ≠ 3 →
  ∃ u, exec (.crossingMiss t ph) s = .next u ∧ (u.phase (phaseNo ph)).misses = ((s.tick t).phase (phaseNo ph)).misses + 1) ∧
  /- cycleStart -/ (∀ (cap vigil : Nat) (busy : BitVec 25) (s : State), s.timebase ≠ 0 → s.lcYield = none → s.boot.due = none →
  ∃ u, exec (.cycleStart cap vigil busy) s = .next u ∧ u.now = (s.cycle + 1) * 65536) ∧
  /- sweepNowRead -/ (∀ (t : Angle) (p : Path) (s a : State), (s.tick t).through p 0x04 0x040 false = some a →
  ∃ u, exec (.sweepNowRead t p) s = .next u ∧ u.out = .word p (BitVec.ofNat 32 a.now) :: a.out ∧
    u.latched p Reg.SWEEP_NOW_HI = a.now / 2 ^ 32 % 2 ^ 32) ∧
  /- precDataRead -/ (∀ (t : Angle) (p : Path) (s a : State), (s.tick t).through p 0x04 0x0A8 false = some a →
  ∃ u, exec (.precDataRead t p) s = .next u ∧
    u.out = .word p (BitVec.ofNat 32 ((a.entry (a.precCursor p)).getD 0)) :: a.out ∧
    u.precCursor p = (a.precCursor p + 1) % 2 ^ 48) ∧
  /- latchingRead -/ (∀ (t : Angle) (p : Path) (page : BitVec 8) (off : BitVec 12) (s a : State), off.toNat % 4 = 0 → 0x040 ≤ off.toNat →
  (s.tick t).through p page.toNat off.toNat false = some a →
  ∃ u, exec (.latchingRead t p page off true) s = .next u ∧
    u.out = .word p (BitVec.ofNat 32 (a.readReg p page.toNat off.toNat).2) :: (a.readReg p page.toNat off.toNat).1.out)

/-- ZCOMMIT puts the staged schedule and ZVALID into effect together; INSTANT_PIN pins a due instant at its tick, or at the current one where that is past; SCHED_SHORT follows ZVALID; MARK_AT_HI sets a mark's target; an armed mark whose target has come shows FIRED. -/
def Obligations.CivilTimeCommandsComplete : Prop :=
  /- zcommit -/ (∀ (t : Angle) (p : Path) (v : Word) (s a : State), (s.tick t).through p 0x04 0x084 true = some a → v.toNat.testBit 0 = true →
  zonesOrdered a.stagedZones = true →
  ∃ u, exec (.zcommit t p v) s = .next u ∧ u.sweep.zones = a.stagedZones ∧
    u.sweep.zvalid = a.reg Reg.SWEEP_ZVALID_LO + 2 ^ 32 * a.fld Reg.SWEEP_ZVALID_HI 15 0) ∧
  /- instantPin -/ (∀ (t : Angle) (id : Nat) (i : Instant) (tai : Int) (s : State), (s.tick t).sweep.instants.find id = some i → i.pin = none →
  (s.tick t).instantTai i = some tai → (s.tick t).mapped = true → (s.tick t).tickOf tai ≤ (s.tick t).now + 8 * 65536 →
  ∃ u, exec (.instantPin t id) s = .next u ∧
    (u.sweep.instants.find id).bind (·.pin) = some (max ((s.tick t).tickOf tai).toNat (s.tick t).now)) ∧
  /- schedShort -/ (∀ (t : Angle) (s : State), ∃ u, exec (.schedShort t) s = .next u ∧ u.flag Reg.SWEEP_CIVSTAT 2 = (s.tick t).shortNow) ∧
  /- markAtHiWrite -/ (∀ (t : Angle) (p : Path) (n : Fin 16) (v : Word) (s a : State), (s.tick t).through p 0x04 (0x104 + 0x10 * n.val) true = some a →
  ∃ u, exec (.markAtHiWrite t p n v) s = .next u ∧
    u.sweep.marks.find n.val = some (a.reg (Reg.SWEEP_MARK_AT_LO n) + 2 ^ 32 * v.toNat)) ∧
  /- markFired -/ (∀ (t : Angle) (n : Fin 16) (s : State), (s.tick t).markDue n.val = true →
  ∃ u, exec (.markFired t n) s = .next u ∧ u.flag (Reg.SWEEP_MARK_STAT n) 0 = true)

/-- A staged request is answered by the admission test; CANCEL takes a host obligation out of the calendar; HWM_CLR sets the high-water mark to the calendar's use; a recomputation ends; an obligation past its deadline leaves the calendar; a reading that waited too long for cover is dropped. -/
def Obligations.SlalomCommandsComplete : Prop :=
  /- reqGo -/ (∀ (t : Angle) (p : Path) (v : Word) (img : List Byte) (s a b : State), (s.tick t).through p 0x05 0x0D8 true = some a →
  a.flag Reg.SLALOM_RESP_STAT 31 = false → v.toNat.testBit 0 = true → a.flag Reg.SLALOM_STATUS 31 = false →
  b = a.store (a.reg Reg.SLALOM_REQ_HANDLE) img → opSuits b.stagedRequest.cls b.stagedRequest.op = true →
  b.stagedRequest.op ≠ 0x02 →
  ∃ u, exec (.reqGo t p v img) s = .next u ∧
    (match b.admission b.stagedRequest with
    | .admitted id _ => u.reg Reg.SLALOM_RESP_STAT = 2 ^ 28 ∧ u.reg Reg.SLALOM_RESP_OBL = id % 2 ^ 32
    | .refused reason _ => u.reg Reg.SLALOM_RESP_STAT = (2 ^ 29 + reason * 2 ^ 8) % 2 ^ 32)) ∧
  /- cancel -/ (∀ (t : Angle) (p : Path) (v : Word) (o : Obligation) (s a : State), (s.tick t).through p 0x05 0x0F0 true = some a →
  a.obl v.toNat = some o → o.host = true →
  ∃ u, exec (.cancel t p v) s = .next u ∧ u.slalom.calendar.find (v.toNat % 2 ^ 20) = none) ∧
  /- hwmClr -/ (∀ (t : Angle) (p : Path) (v : Word) (s a : State), (s.tick t).through p 0x05 0x048 true = some a → v.toNat.testBit 31 = true →
  ∃ u, exec (.hwmClr t p v) s = .next u ∧ u.fld Reg.SLALOM_CAL_HWM 20 0 = a.fld Reg.SLALOM_STATUS 20 0) ∧
  /- recomputeEnd -/ (∀ (t : Angle) (s : State), (s.tick t).flag Reg.SLALOM_STATUS 31 = true → (s.tick t).slalom.heldPlan = none →
  (s.tick t).slalom.heldRegion = none → (s.tick t).slalom.held = none →
  ∃ u, exec (.recomputeEnd t) s = .next u ∧ u.flag Reg.SLALOM_STATUS 31 = false) ∧
  /- obligationDeadline -/ (∀ (t : Angle) (id : Nat) (o : Obligation) (s : State), (s.tick t).obl id = some o → o.deadline ≤ (s.tick t).now →
  (s.tick t).boot.done.contains 9 = true →
  ∃ u, exec (.obligationDeadline t id) s = .next u ∧ u.slalom.calendar.find (id % 2 ^ 20) = none) ∧
  /- coverWaitExpiry -/ (∀ (t : Angle) (c : CoverItem) (s : State), (s.tick t).field.cover = [c] → c.fwd = none →
  c.cycle + max 2 ((s.tick t).fld Reg.SLALOM_CFG 15 8) ≤ (s.tick t).cycle →
  ∃ u, exec (.coverWaitExpiry t) s = .next u ∧ u.field.cover = [])

/-- A supply measurement shows the usable reserve and the two inputs; a boundary's cost is reserved or waits for the headroom; a change of PLAN takes effect and starts a recomputation. -/
def Obligations.SupplyAndBoundaryCommandsComplete : Prop :=
  /- supplyMeasure -/ (∀ (t : Angle) (v vin1 vin2 : BitVec 16) (s : State), (s.tick t).calm = true →
  ∃ u, exec (.supplyMeasure t v vin1 vin2) s = .next u ∧
    u.fld Reg.SLALOM_E_USABLE 15 0 = min ((s.tick t).reserveAt v.toNat) 65535 ∧
    u.reg Reg.PWR_INPUT = vin2.toNat * 65536 + vin1.toNat) ∧
  /- supplyPhaseMove -/ (∀ (t : Angle) (s : State), ∃ u, exec (.supplyPhaseMove t) s = .next u ∧
    u.fld Reg.PWR_PWRSTAT 25 24 = (if (s.tick t).fld Reg.PWR_PWRSTAT 25 24 = 1 then 2 else 1)) ∧
  /- boundaryPrebuild -/ (∀ (t : Angle) (prog : BitVec 6) (id pin : Nat) (i : Instant) (s : State), (s.tick t).serves = true → (s.tick t).pfStop = false →
  (id, i) ∈ (s.tick t).sweep.instants → i.owner = .boundary prog.toNat → i.pin = some pin → pin ≤ (s.tick t).now + 131072 →
  ∃ u, exec (.boundaryPrebuild t prog) s = .next u ∧
    (prog.toNat + 64 * pin ∈ u.slalom.reserved ∨ prog.toNat + 64 * pin ∈ u.slalom.waiting)) ∧
  /- boundaryReservation -/ (∀ (t : Angle) (key : Nat) (s : State), (s.tick t).slalom.waiting = [key] → (s.tick t).takes (recordCost 0x06) = true →
  (s.tick t).nextDue = none → (s.tick t).slalom.reserved.contains key = false →
  ∃ u, exec (.boundaryReservation t) s = .next u ∧ u.slalom.reserved.contains key = true ∧ u.slalom.waiting = []) ∧
  /- planWrite -/ (∀ (t : Angle) (p : Path) (v : Word) (s a : State), (s.tick t).through p 0x0E 0x040 true = some a → a.locked 0x0E = false →
  bits 1 0 v.toNat ≠ a.fld Reg.LINEC_BANDCFG 1 0 → (a.nv.lc = 3 → bits 1 0 v.toNat = 0 ∨ bits 1 0 v.toNat = a.nv.planProv) →
  a.linesDisabled = true → a.modeBusy = false → a.flag Reg.SLALOM_STATUS 31 = false →
  ∃ u, exec (.planWrite t p v) s = .next u ∧ u.fld Reg.LINEC_BANDCFG 1 0 = bits 1 0 v.toNat ∧
    u.flag Reg.SLALOM_STATUS 31 = true)

/-- A lane that may start an exchange enters the one its work asks for; a frame that passes every check is counted on its lane; a driver's temperature is shown, and a phase that has cooled is neither folded nor stopped any more; a beacon leaves, secured under its lane's group key; a search window polls the node in turn. -/
def Obligations.LineMediumCommandsComplete : Prop :=
  /- exchangeStart -/ (∀ (t : Angle) (lane : Fin 6) (w : Work) (x : Exchange) (s a : State), (s.tick t).cycle % 2 = 0 → (s.tick t).lineReady lane = true →
  (s.tick t).startsHere lane = true → (s.tick t).exchange lane = none →
  ((s.tick t).prepareRoute lane w).openExchange lane w (fun s => s.lineExchange lane) = (some x, a) →
  (a.node x.node).state = 3 → (a.node x.node).medium = 1 → (a.node x.node).lane = lane.val → a.rolesSet (a.node x.node).route = true →
  a.sends lane x.first x.last = false → a.awaits lane x.first x.last = false → a.lineClear lane x.first x.last = true →
  a.beforeTakeback x.last = true → a.sisterClash lane x.first x.txLast x.rxFirst x.last = false →
  (x.isCmd = false ∨ ((a.node x.node).session = true ∧ ∃ c, (a.drawCounter (nodeKey x.node)).1 = .value c)) →
  ∃ u, exec (.exchangeStart t lane w) s = .next u ∧ u.exchange lane = some x) ∧
  /- lineFrameReceived -/ (∀ (t : Angle) (lane : Fin 6) (start : Angle) (rx h y : LineRx) (e : List Bool) (s b a : State),
  (s.tick t).lineHears lane rx.ago start.toNat = true → (s.tick t).inWindow lane start.toNat = true → rx.found = true →
  (s.tick t).decodeHeader lane rx = (h, e, b) → headerFault lane h.header.toNat = .none →
  b.decodeFrame lane h e = (y, a) → crc16 y.payload = y.check.toNat →
  y.payload.length = bits 28 20 y.header.toNat → findCollapse a.collN (y.syms.map (fun q => a.collapsed y.snr q.2)) 0 ≠ .early →
  ∃ u, exec (.lineFrameReceived t lane start rx) s = .next u ∧
    u.reg (Reg.LINE_FR_OK lane) = satAdd 32 ((s.tick t).reg (Reg.LINE_FR_OK lane)) 1) ∧
  /- driverTemperature -/ (∀ (t : Angle) (ph : Phase) (temp : BitVec 8) (clipLower clipUpper : Nat) (s : State),
  ∃ u, exec (.driverTemperature t ph temp clipLower clipUpper) s = .next u ∧
    u.fld Reg.LINEC_PHTEMP (8 * phaseNo ph - 1) (8 * (phaseNo ph - 1)) = temp.toNat ∧
    (180 < temp.toNat → u.flag Reg.LINEC_PHFOLD (3 + phaseNo ph) = true)) ∧
  /- phaseResume -/ (∀ (t : Angle) (ph : Phase) (c : Nat) (s : State), (s.tick t).field.coolSince.find (phaseNo ph) = some c →
  c + 3000 ≤ (s.tick t).cycle →
  ∃ u, exec (.phaseResume t ph) s = .next u ∧ u.flag Reg.LINEC_PHFOLD (phaseNo ph - 1) = false ∧
    u.flag Reg.LINEC_PHFOLD (3 + phaseNo ph) = false) ∧
  /- beacon -/ (∀ (t : Angle) (lane : Fin 6) (c key : Nat) (s a k : State), (s.tick t).cycle % (s.tick t).lineBcn = 0 → (s.tick t).lineReady lane = true →
  (s.tick t).startsHere lane = true → (s.tick t).drawGroup 1 lane = (.value c, a) → a.groupSecretNow (lineGroupKey lane) = (key, k) →
  ∃ u, exec (.beacon t lane) s = .next u ∧ Output.line lane 0xFFFF 0 3 (klpSecured key 0xFFFF lane c
    (klpHeader 0 1 true false 0xFFFF 0 (s.tick t).cycle 0 []) ((s.tick t).beaconPayload lane)) ∈ u.out) ∧
  /- searchWindow -/ (∀ (t : Angle) (lane : Fin 6) (id : Nat) (s : State), (s.tick t).lineReady lane = true → (s.tick t).startsHere lane = true →
  (s.tick t).cycle = (s.tick t).searchStart lane (s.tick t).cycle → (s.tick t).searchNode lane = some id →
  ∃ u, exec (.searchWindow t lane) s = .next u ∧ (u.exchange lane).map (fun x => (x.node, x.search)) = some (id, true) ∧
    (u.node id).forced = false)

/-- A join request that is answered leaves its attempt with the record, which is JOINING if it was PROVISIONED; a valid confirmation makes the record ACTIVE under the session key that both sides derive, and an attempt that is not confirmed in time ends; a CACK, and a DATA whose records are all known, is noted under its SEQ, and a DATA that holds an unknown record is neither noted nor acknowledged; the exchange in which a response does not come in time ends, and so does the one of which an RFAIL names a hop that a KLP 2 repeater sends; an RFAIL that names no such hop is counted; an idle repeater is demoted and sent ROLE 0. -/
def Obligations.LineNetworkCommandsComplete : Prop :=
  /- jreq -/ (∀ (t : Angle) (j : JoinRequest) (id ver challenge cycle : Nat) (n : Node) (s k a : State),
  (s.tick t).hearsJoin j.medium j.lane = true → j.medium = 1 ∨ j.pan = (s.tick t).fld Reg.AIRM_PANCFG 15 0 → (s.tick t).findSerial j.serial = some (id, n) → n.state ≠ 2 → n.state ≠ 5 →
  n.ignoreUntil ≤ (s.tick t).cycle → (s.tick t).hashRuns = true →
  (if j.medium = 1 then (s.tick t).lineReady j.lane else (s.tick t).airReady j.lane) = true → (s.tick t).joinVersion j = some ver →
  (s.tick t).drawChallenge = (challenge, k) →
  k.sendJacc j id ((s.tick t).joinLane j) ver challenge (n.rdvNext.getD n.rdv) = (some cycle, a) →
  ∃ u, exec (.jreq t j) s = .next u ∧ (u.node id).state = (if (a.node id).state = 1 then 2 else (a.node id).state) ∧
    (u.node id).join.map (fun x => (x.cycle, x.ver, x.challenge, x.medium)) = some (cycle, ver, challenge, j.medium)) ∧
  /- jconf -/ (∀ (t : Angle) (node : BitVec 13) (resp : BitVec 128) (nonce : BitVec 64) (x : JoinAttempt) (s : State),
  ((s.tick t).node node.toNat).join = some x → (s.tick t).hearsJoin x.medium x.lane = true → (s.tick t).hashRuns = true →
  (s.tick t).sessRoom 1 = true → (s.tick t).secretOpen ((s.tick t).node node.toNat).keyslot = true →
  resp.toNat = (s.tick t).proof ((s.tick t).node node.toNat).keyslot ((s.tick t).node node.toNat).serial x.challenge →
  ∃ u, exec (.jconf t node resp nonce) s = .next u ∧ (u.node node.toNat).state = 3 ∧ (u.node node.toNat).session = true ∧
    (u.node node.toNat).key = (s.tick t).sessionKey x.medium ((s.tick t).node node.toNat).keyslot
      ((s.tick t).node node.toNat).serial x.challenge nonce.toNat) ∧
  /- joinTimeout -/ (∀ (t : Angle) (node : BitVec 13) (x : JoinAttempt) (s : State), ((s.tick t).node node.toNat).join = some x →
  x.cycle + 2 * (s.tick t).bcn x.medium ≤ (s.tick t).cycle →
  ∃ u, exec (.joinTimeout t node) s = .next u ∧ (u.node node.toNat).join = none) ∧
  /- dataResponse -/ (∀ (t : Angle) (r : Fin 16) (node : BitVec 13) (seq : BitVec 8) (records : List Byte) (scheds : List (Nat × StreamSched)) (x : Exchange)
    (s : State), ((s.tick t).setStreams node.toNat scheds).takesFrames = true →
  ((s.tick t).setStreams node.toNat scheds).answers r node.toNat seq.toNat false = some x →
  ∃ u, exec (.dataResponse t r node seq records scheds) s = .next u ∧
    (if (splitRecords false (decide (r.val ≤ 5)) (records.length + 1) records).2
      then (u.node node.toNat).rspSeq = none ∧ (u.node node.toNat).ackDue = false
      else (u.node node.toNat).rspSeq = some seq.toNat)) ∧
  /- cackResponse -/ (∀ (t : Angle) (r : Fin 16) (node : BitVec 13) (seq : BitVec 8) (records : List Byte) (x : Exchange) (s : State),
  (s.tick t).takesFrames = true → (s.tick t).answers r node.toNat seq.toNat true = some x →
  ∃ u, exec (.cackResponse t r node seq records) s = .next u ∧ (u.node node.toNat).rspSeq = some seq.toNat) ∧
  /- rfail -/ (∀ (t : Angle) (lane : Fin 6) (failed : BitVec 13) (x : Exchange) (h : Nat × Nat) (s : State), (s.tick t).exchange lane = some x →
  (routeHops moduleEnd x.route x.node).find? (fun h => h.2 = failed.toNat) = some h → h.1 ≠ moduleEnd → ((s.tick t).node h.1).ver ≠ 1 →
  ∃ u, exec (.rfail t lane failed) s = .next u ∧ u.exchange lane = none) ∧
  /- rfail -/ (∀ (t : Angle) (lane : Fin 6) (failed : BitVec 13) (s : State),
  (∀ x, (s.tick t).exchange lane = some x → ∀ h, (routeHops moduleEnd x.route x.node).find? (fun h => h.2 = failed.toNat) = some h →
    h.1 = moduleEnd ∨ ((s.tick t).node h.1).ver = 1) →
  ∃ u, exec (.rfail t lane failed) s = .next u ∧ u.exchange lane = (s.tick t).exchange lane ∧
    u.reg Reg.LINEM_RFAIL_RX = satAdd 32 ((s.tick t).reg Reg.LINEM_RFAIL_RX) 1) ∧
  /- exchangeMiss -/ (∀ (t : Angle) (r : Fin 16) (x : Exchange) (s : State), (s.tick t).exchange r = some x → (s.tick t).dueBy r x ≤ (s.tick t).now →
  ∃ u, exec (.exchangeMiss t r) s = .next u ∧ u.exchange r = none) ∧
  /- repeaterDemote -/ (∀ (t : Angle) (node : BitVec 13) (s : State), ((s.tick t).node node.toNat).rpt = true → (s.tick t).fan node.toNat = 0 →
  ((s.tick t).node node.toNat).lastUsed + (s.tick t).fld Reg.LINEM_RPTCFG 31 16 ≤ (s.tick t).cycle →
  ∃ u, exec (.repeaterDemote t node) s = .next u ∧ (u.node node.toNat).rpt = false ∧
    { node := node.toNat, records := leBytes 1 0x51 ++ leBytes 1 0 ++ leBytes 1 ((s.tick t).node node.toNat).level } ∈ u.field.firmware)

/-- The ACTIVE twin sends its pilot, except on a phase that is stopped, and every eighth cycle takes the result of its own window; a pilot setting, a frame start angle and a beacon setting take the written value where the rule allows it, and one that changes a beacon recomputes; PROVISION, BAR, RELEASE and FORCE_SEARCH do to the selected record what Table 4.8 says. -/
def Obligations.LineSettingsComplete : Prop :=
  /- pilotWindow -/ (∀ (t : Angle) (rx : Option PilotRx) (s : State), (s.tick t).pilotOn = true → (s.tick t).plan ≠ 0 → (s.tick t).pairState = 1 →
  (s.tick t).cycle % 8 ≠ 0 →
  ∃ u, exec (.pilotWindow t rx) s = .next u ∧
    (if (s.tick t).flag Reg.LINEC_PHFOLD (3 + (s.tick t).pilotPhase) then u.out = (s.tick t).out
      else u.out.head? = some (.pilot (s.tick t).pilotPhase (s.tick t).pairs.failing))) ∧
  /- pilotWindow -/ (∀ (t : Angle) (rx : Option PilotRx) (s : State), (s.tick t).pilotOn = true → (s.tick t).plan ≠ 0 → (s.tick t).pairState = 1 →
  (s.tick t).cycle % 8 = 0 →
  ∃ u, exec (.pilotWindow t rx) s = .next u ∧ u.flag Reg.LINEM_PILOTSTAT 0 = (match rx with
    | some x => decide ((s.tick t).fld Reg.LINEM_PILOTCFG 15 8 ≤ x.corr) && rotMatch x.rot (s.tick t).pairRot
    | none => false)) ∧
  /- pilotConfigWrite -/ (∀ (t : Angle) (p : Path) (reg : Fin 4) (v : Word) (s a b : State), reg.val ≠ 0 →
  (s.tick t).through p 0x0E (0x040 + 4 * reg.val) true = some a →
  (reg.val = a.pilotPhase → a.pilotClash reg.val (bits 15 0 v.toNat) = false) → a.plainWrite 0x0E (0x040 + 4 * reg.val) v = .done b →
  ∃ u, exec (.pilotConfigWrite t p reg v) s = .next u ∧
    u.reg (Reg.LINEC_FSA_P1 + 4 * (reg.val - 1)) = b.reg (Reg.LINEC_FSA_P1 + 4 * (reg.val - 1))) ∧
  /- pilotConfigWrite -/ (∀ (t : Angle) (p : Path) (v : Word) (ph : Nat) (s a b : State), (s.tick t).through p 0x0F 0x050 true = some a →
  ph = (if bits 17 16 v.toNat = 0 then 3 else bits 17 16 v.toNat) →
  a.locked 0x0F = true ∨ a.pilotClash ph (a.fld (Reg.LINEC_FSA_P1 + 4 * (ph - 1)) 15 0) = false → a.plainWrite 0x0F 0x050 v = .done b →
  ∃ u, exec (.pilotConfigWrite t p 0 v) s = .next u ∧ u.reg Reg.LINEM_PILOTCFG = b.reg Reg.LINEM_PILOTCFG) ∧
  /- beaconConfigWrite -/ (∀ (t : Angle) (p : Path) (v : Word) (s a b : State), (s.tick t).through p 0x0F 0x044 true = some a →
  a.plainWrite 0x0F 0x044 v = .done b →
  (b.lineBcn = a.lineBcn ∧ b.lineJoinN = a.lineJoinN ∧ b.levelMax = a.levelMax) ∨ (a.linesDisabled = true ∧ b.searchFits = true) →
  ∃ u, exec (.beaconConfigWrite t p 0 v) s = .next u ∧ u.reg Reg.LINEM_BCNCFG = b.reg Reg.LINEM_BCNCFG ∧
    (¬(b.lineBcn = a.lineBcn ∧ b.lineJoinN = a.lineJoinN ∧ b.levelMax = a.levelMax) → u.slalom.trigger = 0x10)) ∧
  /- beaconConfigWrite -/ (∀ (t : Angle) (p : Path) (v : Word) (s a b : State), (s.tick t).through p 0x0E 0x05C true = some a →
  a.plainWrite 0x0E 0x05C v = .done b → b.searchFits = true →
  ∃ u, exec (.beaconConfigWrite t p 1 v) s = .next u ∧ u.reg Reg.LINEC_LONGPRE = b.reg Reg.LINEC_LONGPRE) ∧
  /- beaconConfigWrite -/ (∀ (t : Angle) (p : Path) (v : Word) (s a b : State), (s.tick t).through p 0x13 0x044 true = some a →
  a.plainWrite 0x13 0x044 v = .done b → (b.airBcn = a.airBcn ∧ b.airJoinN = a.airJoinN) ∨ a.airsDisabled = true →
  ∃ u, exec (.beaconConfigWrite t p 2 v) s = .next u ∧ u.reg Reg.AIRM_BCNCFG = b.reg Reg.AIRM_BCNCFG ∧
    (¬(b.airBcn = a.airBcn ∧ b.airJoinN = a.airJoinN) → u.slalom.trigger = 0x10)) ∧
  /- nodeProvision -/ (∀ (t : Angle) (p : Path) (v : Word) (s a : State), (s.tick t).through p 0x0F 0x08C true = some a →
  (a.node (a.fld Reg.LINEM_NODE_SEL 12 0)).state = 0 →
  a.findSerial (a.node (a.fld Reg.LINEM_NODE_SEL 12 0)).serial = none →
  ∃ u, exec (.nodeProvision t p v) s = .next u ∧ (u.node (a.fld Reg.LINEM_NODE_SEL 12 0)).state = 1 ∧
    (u.node (a.fld Reg.LINEM_NODE_SEL 12 0)).keyslot = v.toNat % 256) ∧
  /- nodeBar -/ (∀ (t : Angle) (p : Path) (v : Word) (s a : State), (s.tick t).through p 0x0F 0x08C true = some a →
  a.targeted (a.fld Reg.LINEM_NODE_SEL 12 0) = false →
  (a.node (a.fld Reg.LINEM_NODE_SEL 12 0)).state ≠ 0 → (a.node (a.fld Reg.LINEM_NODE_SEL 12 0)).state ≠ 5 →
  ∃ u, exec (.nodeBar t p v) s = .next u ∧ (u.node (a.fld Reg.LINEM_NODE_SEL 12 0)).state = 5) ∧
  /- nodeRelease -/ (∀ (t : Angle) (p : Path) (v : Word) (s a : State), (s.tick t).through p 0x0F 0x08C true = some a →
  (a.node (a.fld Reg.LINEM_NODE_SEL 12 0)).state = 1 ∨ (a.node (a.fld Reg.LINEM_NODE_SEL 12 0)).state = 5 →
  ∃ u, exec (.nodeRelease t p v) s = .next u ∧ (u.node (a.fld Reg.LINEM_NODE_SEL 12 0)).state = 0) ∧
  /- forceSearch -/ (∀ (t : Angle) (p : Path) (v : Word) (s a : State), (s.tick t).through p 0x0F 0x08C true = some a →
  (a.node (a.fld Reg.LINEM_NODE_SEL 12 0)).state = 4 →
  ∃ u, exec (.forceSearch t p v) s = .next u ∧ (u.node (a.fld Reg.LINEM_NODE_SEL 12 0)).forced = true)

/-- A change of REGION takes effect and starts a recomputation; a channel and a hopping setting take the written value where the rule allows it; each lane moves to its hopping channel at a slot's start; bins that have left their window are dropped. -/
def Obligations.AirSettingsComplete : Prop :=
  /- regionWrite -/ (∀ (t : Angle) (p : Path) (v : Word) (s a : State), (s.tick t).through p 0x12 0x040 true = some a → a.locked 0x12 = false →
  bits 1 0 v.toNat ≠ a.fld Reg.AIRC_REGCFG 1 0 → (a.nv.lc = 3 → bits 1 0 v.toNat = 0 ∨ bits 1 0 v.toNat = a.nv.regionProv) →
  a.airsDisabled = true → a.modeBusy = false → a.flag Reg.SLALOM_STATUS 31 = false →
  ∃ u, exec (.regionWrite t p v) s = .next u ∧ u.fld Reg.AIRC_REGCFG 1 0 = bits 1 0 v.toNat ∧ u.flag Reg.SLALOM_STATUS 31 = true) ∧
  /- chanWrite -/ (∀ (t : Angle) (p : Path) (lane : Fin 2) (v : Word) (s a : State), (s.tick t).through p (0x10 + lane) 0x044 true = some a →
  (subBandOf (a.airRate lane) (v.toNat % 256)).isSome = true →
  1000 ≤ ((channelKhz 1 (a.airRate lane) (v.toNat % 256) : Int) -
    channelKhz 1 (a.airRate (1 - lane)) (a.fld (Reg.AIR_CHAN (1 - lane)) 7 0)).natAbs →
  a.laneEnabled (0x10 + lane) = false →
  ∃ u, exec (.chanWrite t p lane v) s = .next u ∧ u.fld (Reg.AIR_CHAN lane) 7 0 = v.toNat % 256) ∧
  /- hopConfigWrite -/ (∀ (t : Angle) (p : Path) (reg : Fin 6) (v : Word) (s a b : State),
  (s.tick t).through p 0x12 (if reg.val = 0 then 0x048 else 0x04C + 4 * reg.val) true = some a →
  a.plainWrite 0x12 (if reg.val = 0 then 0x048 else 0x04C + 4 * reg.val) v = .done b →
  b.hopSound (b.airRate 0) = true → b.hopSound (b.airRate 1) = true →
  ∃ u, exec (.hopConfigWrite t p reg v) s = .next u ∧
    u.reg (0x12000 + (if reg.val = 0 then 0x048 else 0x04C + 4 * reg.val)) =
      b.reg (0x12000 + (if reg.val = 0 then 0x048 else 0x04C + 4 * reg.val))) ∧
  /- hopSlotStart -/ (∀ (t : Angle) (s : State), (s.tick t).region = 2 → (s.tick t).cycle % (s.tick t).hopCyc = 0 →
  ∃ u, exec (.hopSlotStart t) s = .next u ∧ ∀ lane : Fin 2, (s.tick t).airSearching lane = false →
    u.fld (Reg.AIR_STAT lane) 7 0 = (s.tick t).hopChannel lane ((s.tick t).cycle / (s.tick t).hopCyc)) ∧
  /- airSearchWindow -/ (∀ (t : Angle) (lane : Fin 2) (s : State), (s.tick t).airReady lane = true →
  (s.tick t).cycle % (s.tick t).airSearchInt = (s.tick t).airSearchInt / 2 →
  ∃ u, exec (.airSearchWindow t lane) s = .next u ∧
    u.field.airSearch.find lane = some ((s.tick t).cycle + (s.tick t).airSearchLen - 1) ∧ u.fld (Reg.AIR_STAT lane) 31 29 = 5) ∧
  /- budgetBinExpiry -/ (∀ (t : Angle) (s : State), ∃ u, exec (.budgetBinExpiry t) s = .next u ∧
  u.field.bins = (s.tick t).field.bins.mapVals (fun k l =>
    l.filter (fun b => decide ((s.tick t).second < b.sec + budgetWindow k))))

/-- A secured frame that passes every check makes its node heard under its counter; beacons and SYNC leave on their lane; a rendezvous with work enters its exchange; a node that rejoins is ACTIVE on its new lane; a lease that has ended leaves the record PROVISIONED; an unfinished rekey ends, and so does the time of an old key. -/
def Obligations.AirMediumCommandsComplete : Prop :=
  /- airFrameReceived -/ (∀ (t : Angle) (lane : Fin 2) (rx : AirRx) (id : BitVec 13) (s : State), (s.tick t).region ≠ 0 →
  (s.tick t).laneEnabled (0x10 + lane) = true → airUnsupported rx = false → rx.fcsOk = true → kapUnsupported rx = false →
  (leAt rx.kap 0 1 / 16 ≠ 5 ∧ leAt rx.kap 0 1 / 16 ≠ 0xA ∧ leAt rx.kap 0 1 / 16 ≠ 7 ∧ leAt rx.kap 0 1 / 16 ≠ 8) → rx.short = some id → 6 ≤ rx.level →
  rx.pan = (s.tick t).fld Reg.AIRM_PANCFG 15 0 → rx.micOk = true →
  ((s.tick t).node id.toNat).session = true ∨ ((s.tick t).node id.toNat).oldKeyUntil.isSome = true →
  ((s.tick t).node id.toNat).medium = 2 → counterOk ((s.tick t).node id.toNat) rx = true →
  (s.tick t).leaseRuns ((s.tick t).node id.toNat) = true → (s.tick t).estimateOk ((s.tick t).node id.toNat) rx = true →
  (s.tick t).takesFrames = true →
  ∃ u, exec (.airFrameReceived t lane rx) s = .next u ∧ (u.node id.toNat).miss = 0 ∧ (u.node id.toNat).heard = (s.tick t).now ∧
    (if rx.keyIdx = ((s.tick t).node id.toNat).keyIdx then (u.node id.toNat).fcnt = some rx.counter
      else (u.node id.toNat).fcntNext = some rx.counter)) ∧
  /- airBeacon -/ (∀ (t : Angle) (lane : Fin 2) (key key2 c start start2 : Nat) (sec : AirSec) (s b k : State), (s.tick t).beaconDue lane = true →
  (s.tick t).airReady lane = true → (s.tick t).airStart ((s.tick t).cycle * 65536) ((s.tick t).thirdsTicks ((s.tick t).airtime lane 47)) = start →
  (s.tick t).budgetKey lane (start / 65536) = some key →
  (s.tick t).permitted key ((s.tick t).secondAt start) ((s.tick t).airCharge lane 47) = true →
  ((s.tick t).noteBeacon lane).drawGroup 2 lane = (.value c, b) → b.groupSec lane 2 c = (sec, k) → k.airReady lane = true →
  k.airStart (k.cycle * 65536) (k.thirdsTicks (k.airtime lane 47)) = start2 → k.budgetKey lane (start2 / 65536) = some key2 →
  k.permitted key2 (k.secondAt start2) (k.airCharge lane 47) = true →
  ∃ u, exec (.airBeacon t lane) s = .next u ∧ ∃ ch kap, u.out.head? = some (.air lane 0xFFFF 0 ch u.extAddress kap)) ∧
  /- rendezvous -/ (∀ (t : Angle) (lane : Fin 2) (node : BitVec 13) (w : Work) (x : Exchange) (key c start : Nat) (s a : State),
  ((s.tick t).node node.toNat).state = 3 → ((s.tick t).node node.toNat).session = true → ((s.tick t).node node.toNat).medium = 2 → ((s.tick t).node node.toNat).lane = lane.val →
  (s.tick t).atRendezvous lane ((s.tick t).node node.toNat) = true → (s.tick t).airReady lane = true → (s.tick t).airSearching lane = false →
  (s.tick t).exchange (8 + lane) = none → (s.tick t).guardNs ((s.tick t).node node.toNat) ≤ (s.tick t).guardMaxNs →
  (s.tick t).openExchange (8 + lane) w (fun s => s.airExch lane) = (some x, a) → x.node = node.toNat →
  a.beforeTakeback x.last = true → a.airReady lane = true →
  a.airStart x.start (a.thirdsTicks (a.airtime lane (39 + x.records.length))) = start → a.budgetKey lane (start / 65536) = some key →
  a.permitted key (a.secondAt start) (a.airCharge lane (39 + x.records.length)) = true → (a.drawCounter (nodeKey x.node)).1 = .value c →
  ∃ u, exec (.rendezvous t lane node (some w)) s = .next u ∧ u.exchange (8 + lane) = some x) ∧
  /- rejoin -/ (∀ (t : Angle) (lane : Fin 2) (node : BitVec 13) (pan : BitVec 16) (counter : BitVec 32) (off : Nat) (s : State),
  (s.tick t).airReady lane = true → pan.toNat = (s.tick t).fld Reg.AIRM_PANCFG 15 0 →
  (s.tick t).airSearching lane = true ∨ ((s.tick t).node node.toNat).rekey = none → ((s.tick t).node node.toNat).medium = 2 →
  2 ≤ ((s.tick t).node node.toNat).ver → ((s.tick t).node node.toNat).session = true →
  ((s.tick t).node node.toNat).state = 3 ∨ ((s.tick t).node node.toNat).state = 4 →
  (s.tick t).leaseRuns ((s.tick t).node node.toNat) = true → newer ((s.tick t).node node.toNat).fcnt counter.toNat = true →
  off ≤ (s.tick t).nsTicksUp ((s.tick t).guardNs ((s.tick t).node node.toNat)) →
  ∃ u, exec (.rejoin t lane node pan counter true off) s = .next u ∧ (u.node node.toNat).state = 3 ∧
    (u.node node.toNat).fcnt = some counter.toNat ∧ (u.node node.toNat).lane = lane.val) ∧
  /- seek -/ (∀ (t : Angle) (lane : Fin 2) (source : BitVec 64) (pan : BitVec 16) (key c : Nat) (sec : AirSec) (s b k : State), (s.tick t).airReady lane = true →
  (s.tick t).seekOk source.toNat pan.toNat = true → (s.tick t).airSearching lane = true ∨ ((s.tick t).region = 1 ∧ (s.tick t).exchange (8 + lane) = none) →
  (s.tick t).drawGroup 2 lane = (.value c, b) → b.groupSec lane 2 c = (sec, k) → k.airReady lane = true →
  k.budgetKey lane 0 = some key →
  k.permitted key (k.secondAt (k.now + k.thirdsTicks 3000)) (k.airCharge lane 47) = true →
  ∃ u, exec (.seek t lane source pan) s = .next u ∧ ∃ ch kap, u.out.head? = some (.air lane source.toNat 0xB ch u.extAddress kap)) ∧
  /- leaseExpiry -/ (∀ (t : Angle) (node : BitVec 13) (s : State), ((s.tick t).node node.toNat).medium = 2 →
  ((s.tick t).node node.toNat).leaseEnd.isSome = true → (s.tick t).leaseRuns ((s.tick t).node node.toNat) = false →
  ∃ u, exec (.leaseExpiry t node) s = .next u ∧ (u.node node.toNat).state = 1 ∧ (u.node node.toNat).session = false) ∧
  /- rekeyTimeout -/ (∀ (t : Angle) (node : BitVec 13) (c : Nat) (s : State), ((s.tick t).node node.toNat).rekey = some c →
  c + 2 * (s.tick t).airBcn ≤ (s.tick t).cycle →
  ∃ u, exec (.rekeyTimeout t node) s = .next u ∧ (u.node node.toNat).rekey = none) ∧
  /- rekeyTimeout -/ (∀ (t : Angle) (node : BitVec 13) (c : Nat) (s : State), ((s.tick t).node node.toNat).rekey = none →
  ((s.tick t).node node.toNat).oldKeyUntil = some c → c ≤ (s.tick t).cycle →
  ∃ u, exec (.rekeyTimeout t node) s = .next u ∧ (u.node node.toNat).oldKeyUntil = none)

/-- SRC_EN starts sensing, after what is left of a trip's wait or of the dwell, or switches the source off; after its sensing period a port without a foreign voltage switches ON, and one with a foreign voltage shows it and senses on; measurements are shown; a tripped port goes on after 250 cycles; RESTORE leaves LOCKOUT; after the dwell the ports sense. -/
def Obligations.LoopSourceCommandsComplete : Prop :=
  /- loopSrcEn -/ (∀ (t : Angle) (p : Path) (n : Fin 4) (v : Word) (s a b : State), (s.tick t).through p (0x14 + n) 0x040 true = some a →
  a.plainWrite (0x14 + n) 0x040 v = .done b → b.maySource n = true → b.loopState n = 0 ∨ b.loopState n = 6 →
  ∃ u, exec (.loopSrcEn t p n v) s = .next u ∧ u.loopState n = (if b.tripWaits n then 4 else if b.dwells then 2 else 1)) ∧
  /- loopSrcEn -/ (∀ (t : Angle) (p : Path) (n : Fin 4) (v : Word) (s a b : State), (s.tick t).through p (0x14 + n) 0x040 true = some a →
  a.plainWrite (0x14 + n) 0x040 v = .done b → b.srcEn n = false → b.loopState n ≠ 5 →
  ∃ u, exec (.loopSrcEn t p n v) s = .next u ∧ u.loopState n = b.offState) ∧
  /- loopSenseEnd -/ (∀ (t : Angle) (n : Fin 4) (mv : Nat) (s : State), (s.tick t).loopState n = 1 → (s.tick t).maySource n = true →
  (s.tick t).field.loopSince.getD n 0 + 8000000 ≤ (s.tick t).uptime →
  ∃ u, exec (.loopSenseEnd t n mv) s = .next u ∧ u.loopState n = (if mv < 2000 then 3 else 1) ∧
    (2000 ≤ mv → u.flag (Reg.LOOP_SUPSTAT n) 2 = true)) ∧
  /- loopMeasure -/ (∀ (t : Angle) (n : Fin 4) (mv ma10 : BitVec 16) (kohm : Nat) (s : State),
  ∃ u, exec (.loopMeasure t n mv ma10 kohm) s = .next u ∧ u.fld (Reg.LOOP_VOLT n) 15 0 = mv.toNat ∧
    u.fld (Reg.LOOP_CURR n) 15 0 = ma10.toNat) ∧
  /- loopTripRetry -/ (∀ (t : Angle) (n : Fin 4) (s : State), (s.tick t).loopState n = 4 → (s.tick t).maySource n = true →
  ((s.tick t).field.tripAt.getD n []).getLastD 0 + 250 ≤ (s.tick t).cycle →
  ∃ u, exec (.loopTripRetry t n) s = .next u ∧ u.loopState n = (if (s.tick t).dwells then 2 else 1)) ∧
  /- loopRestore -/ (∀ (t : Angle) (p : Path) (n : Fin 4) (v : Word) (s a : State), (s.tick t).through p (0x14 + n) 0x050 true = some a →
  v.toNat.testBit 0 = true → a.loopState n = 5 → a.maySource n = true →
  ∃ u, exec (.loopRestore t p n v) s = .next u ∧ u.loopState n = (if a.dwells then 2 else 1)) ∧
  /- loopDwellEnd -/ (∀ (t : Angle) (s : State), (s.tick t).dwells = false → ∃ u, exec (.loopDwellEnd t) s = .next u ∧
  ∀ n : Fin 4, (s.tick t).loopState n = 2 → u.loopState n = (if (s.tick t).maySource n then 1 else (s.tick t).offState))

/-- SYNC leaves, once a cycle at its angle, on a loop that is ON; an exchange that may start is entered for its loop; a valid frame of an attached node makes it heard; an IDENT leaves with a fresh challenge, and a valid answer makes its node ACTIVE at its address. -/
def Obligations.LoopMediumCommandsComplete : Prop :=
  /- loopSync -/ (∀ (t : Angle) (n : Fin 4) (s : State), (s.tick t).loopReady n = true → (s.tick t).field.syncAt.find n ≠ some (s.tick t).cycle →
  (((s.tick t).angle : Int) - (s.tick t).fld (Reg.LOOP_KLLCFG n) 31 16).natAbs ≤ 1 →
  ∃ u, exec (.loopSync t n) s = .next u ∧ ∃ octets, u.out.head? = some (.loop n 0xFF 0 octets)) ∧
  /- loopExchangeStart -/ (∀ (t : Angle) (n : Fin 4) (w : Work) (x : Exchange) (s a : State), (s.tick t).loopReady n = true →
  (s.tick t).exchange (0x0C + n) = none → (s.tick t).openExchange (0x0C + n) w (fun s => s.loopExch n) = (some x, a) →
  (a.node x.node).state = 3 → (a.node x.node).medium = 3 → (a.node x.node).lane = n.val → a.beforeTakeback x.last = true →
  ∃ u, exec (.loopExchangeStart t n w) s = .next u ∧ u.exchange (0x0C + n) = some x) ∧
  /- loopFrameReceived -/ (∀ (t : Angle) (n : Fin 4) (octets : List Byte) (check : BitVec 16) (id : Nat) (s : State), (s.tick t).laneEnabled (0x14 + n) = true →
  crc16 octets = check.toNat → 3 ≤ octets.length → leAt octets 0 1 / 16 = 2 ∨ leAt octets 0 1 / 16 = 4 →
  leAt octets 0 1 / 4 % 4 = 1 → leAt octets 0 1 % 2 = 0 → leAt octets 1 1 ≤ 7 → (s.tick t).loopNode n (leAt octets 1 1) = some id →
  ((s.tick t).node id).medium = 3 → (s.tick t).takesFrames = true →
  ∃ u, exec (.loopFrameReceived t n octets check) s = .next u ∧ (u.node id).miss = 0 ∧ (u.node id).heard = (s.tick t).now) ∧
  /- ident -/ (∀ (t : Angle) (n : Fin 4) (m : Fin 8) (id : Nat) (s : State), (s.tick t).loopReady n = true → (s.tick t).identDue n m = true → (s.tick t).loopNode n m = some id →
  ((s.tick t).node id).state ≠ 2 → ¬(((s.tick t).node id).state = 3 ∧ ((s.tick t).node id).medium = 3 ∧ ((s.tick t).node id).lane = n.val ∧
    ((s.tick t).node id).addr = m.val) →
  ∃ u, exec (.ident t n m) s = .next u ∧ (u.field.idents.find (n.val * 8 + m.val)).isSome = true ∧
    u.field.identAt.find (n.val * 8 + m.val) = some (s.tick t).cycle) ∧
  /- idrsp -/ (∀ (t : Angle) (n : Fin 4) (m : Fin 8) (serial range latency resp challenge id : Nat) (scheds : List (Nat × StreamSched)) (s : State),
  (s.tick t).loopNode n m = some id → (s.tick t).field.idents.find (n.val * 8 + m.val) = some challenge → (s.tick t).takesFrames = true → (s.tick t).hashRuns = true →
  ((s.tick t).node id).serial = serial →
  ((s.tick t).node id).state = 1 ∨ ((s.tick t).node id).state = 3 ∨ ((s.tick t).node id).state = 4 →
  range % 4 ≤ 1 → 1 ≤ range / 4 % 4 → (s.tick t).secretOpen ((s.tick t).node id).keyslot = true →
  resp = (s.tick t).proof ((s.tick t).node id).keyslot serial challenge →
  ∃ u, exec (.idrsp t n m serial range latency resp scheds) s = .next u ∧ (u.node id).state = 3 ∧ (u.node id).medium = 3 ∧
    (u.node id).lane = n.val ∧ (u.node id).addr = m.val)

/-- A packet that finds space leaves its producer's list; one that finds none waits behind the earlier ones; packets that wait are written once space allows; a host header opens its packet and a data word enters the open packet; QCFG names the reading lane; a flush empties the queue; a read of a header word takes it; the watermark clears; PEEK answers the tag at R. -/
def Obligations.LiftQueueCommandsComplete : Prop :=
  /- packetOffer -/ (∀ (t : Angle) (feed : Bool) (o : LiftOffer) (s : State), (s.tick t).lift.offers.find? (fun o => o.feed == feed) = some o →
  (s.tick t).queueSrc o.queue = b2n feed → (s.tick t).pageOff (queuePage o.queue) = false →
  ∃ u, exec (.packetOffer t feed) s = .next u ∧ u.lift.offers = (s.tick t).lift.offers.erase o ∧
    ((s.tick t).canOpen o.queue o.packet = false → (u.queue o.queue).waiting = ((s.tick t).queue o.queue).waiting ++ [o.packet])) ∧
  /- packetResume -/ (∀ (t : Angle) (q : Fin 32) (pk : LiftPacket) (rest : List LiftPacket) (s : State), ((s.tick t).queue q).waiting = pk :: rest →
  (s.tick t).queueOn q = true → ((s.tick t).queue q).opened = none → 1 + headerWords pk.header ≤ ((s.tick t).queue q).space →
  ∃ u, exec (.packetResume t q) s = .next u ∧ (u.queue q).waiting.length ≤ rest.length) ∧
  /- hostIntakeWord -/ (∀ (t : Angle) (q : Fin 32) (w : BitVec 128) (s : State), (s.tick t).pageOff (queuePage q) = false → (s.tick t).queueSrc q = 2 →
  (s.tick t).canOpen q { header := w.toNat } = true →
  ∃ u, exec (.hostIntakeWord t q 0 w) s = .next u ∧ (u.queue q).opened = some { header := w.toNat } ∧
    (u.queue q).cells.find (((s.tick t).queue q).w % 512) = some (w.toNat, headerTag)) ∧
  /- hostIntakeWord -/ (∀ (t : Angle) (q : Fin 32) (i : Fin 2048) (w : BitVec 128) (o : LiftPacket) (s : State), 0 < i.val →
  (s.tick t).pageOff (queuePage q) = false → (s.tick t).queueOn q = true → (s.tick t).queueSrc q = 2 →
  ((s.tick t).queue q).waiting = [] → ((s.tick t).queue q).opened = some o → o.words.length = i.val - 1 →
  i.val < headerWords o.header →
  ∃ u, exec (.hostIntakeWord t q i w) s = .next u ∧ (u.queue q).opened = some { o with words := o.words ++ [w.toNat] }) ∧
  /- wmCauseClear -/ (∀ (t : Angle) (p : Path) (g : Fin 4) (i : Fin 8) (v : Word) (s a : State), (s.tick t).through p (0x18 + g) 0x018 true = some a →
  v.toNat.testBit i = true →
  a.fld (queueReg Reg.LIFT_Q_WMCFG (8 * g + i)) 9 0 = 0 ∨
    (a.queue (8 * g + i)).level ≤ min 511 (a.fld (queueReg Reg.LIFT_Q_WMCFG (8 * g + i)) 9 0) →
  ∃ u, exec (.wmCauseClear t p g v) s = .next u ∧ u.fld (queueReg Reg.LIFT_Q_WMPEAK (8 * g + i)) 9 0 = 0) ∧
  /- liftWordRead -/ (∀ (t : Angle) (q : Fin 32) (word tag : Nat) (s : State), (s.tick t).pageOff (queuePage q) = false →
  (s.tick t).laneServes ((s.tick t).readingLane q) 1 = true → (s.tick t).laneTakes ((s.tick t).readingLane q) = true →
  (s.tick t).peekWord q = (word, tag) → bit 15 tag = false → bit 12 tag = false → bit 14 tag = true →
  (∀ m, m < 16 → (s.tick t).stagedOn m ≤ 4096) →
  ∃ u, exec (.liftWordRead t q) s = .next u ∧ (u.queue q).taken = some (word, []) ∧
    (u.queue q).r = (((s.tick t).queue q).r + 1) % 1024) ∧
  /- liftLaneWrite -/ (∀ (t : Angle) (p : Path) (q : Fin 32) (v : Word) (s a : State),
  (s.tick t).through p (queuePage q) (0x100 + 0x40 * (q % 8)) true = some a →
  ∃ u, exec (.liftLaneWrite t p q v) s = .next u ∧ u.queueLane q = bits 3 0 v.toNat ∧ u.queueEn q = bit 31 v.toNat) ∧
  /- peekRead -/ (∀ (t : Angle) (p : Path) (g : Fin 4) (s a : State), (s.tick t).through p (0x18 + g) 0x044 false = some a →
  ∃ u, exec (.peekRead t p g) s = .next u ∧
    u.out = .word p (BitVec.ofNat 32 (a.peekWord (8 * g + a.fld (Reg.LIFT_PEEK_SEL g) 2 0)).2) :: a.out ∧
    u.latched p (Reg.LIFT_PEEK_D0 g) = (a.peekWord (8 * g + a.fld (Reg.LIFT_PEEK_SEL g) 2 0)).1 % 2 ^ 32) ∧
  /- flush -/ (∀ (t : Angle) (p : Path) (q : Fin 32) (v : Word) (s a : State),
  (s.tick t).through p (queuePage q) (0x120 + 0x40 * (q % 8)) true = some a → v.toNat.testBit 0 = true →
  (a.queue q).flushAt = none → (a.queue q).opened = none →
  ∃ u, exec (.flush t p q v) s = .next u ∧ (u.queue q).k = (a.queue q).w ∧ (u.queue q).r = (a.queue q).w ∧
    (u.queue q).p = (a.queue q).w ∧ (u.queue q).w = (a.queue q).w) ∧
  /- flushTimeout -/ (∀ (t : Angle) (q : Fin 32) (c : Nat) (o : LiftPacket) (s : State), ((s.tick t).queue q).flushAt = some c →
  ((s.tick t).queue q).opened = some o → c + 2 * 65536 ≤ (s.tick t).now →
  ∃ u, exec (.flushTimeout t q) s = .next u ∧ (u.queue q).opened = none ∧ (u.queue q).flushAt = none ∧
    (u.queue q).k = ((s.tick t).queue q).w ∧ (u.queue q).p = (((s.tick t).queue q).w + 1) % 1024)

/-- MODE takes the written value; a lane that fails is lost; a point whose wait has ended is evaluated; TK_ACK retires the slots up to the named one; a read of a result answers its word; a pushed close is appended to its lane's list, and CLOSE_END, on a lane that re-derives with ROUT = 1, closes what remains or goes on when the ring has room, and leaves any other lane as it is. -/
def Obligations.FlowLaneCommandsComplete : Prop :=
  /- laneModeWrite -/ (∀ (t : Angle) (p : Path) (lane : Fin 16) (v : Word) (s a : State), (s.tick t).through p (0x20 + lane) 0x040 true = some a →
  a.laneMode lane ≠ 1 → bits 1 0 v.toNat % 3 ≠ 1 → a.stagedOn lane = 0 →
  ∃ u, exec (.laneModeWrite t p lane v) s = .next u ∧ u.laneMode lane = bits 1 0 v.toNat % 3) ∧
  /- laneModeWrite -/ (∀ (t : Angle) (p : Path) (lane : Fin 16) (v : Word) (s a : State), (s.tick t).through p (0x20 + lane) 0x040 true = some a →
  a.calm = true → a.laneMode lane ≠ 1 → bits 1 0 v.toNat % 3 = 1 → a.stagedOn lane = 0 →
  ∃ u, exec (.laneModeWrite t p lane v) s = .next u ∧ u.laneMode lane = 1) ∧
  /- fcaLaneLost -/ (∀ (t : Angle) (lane : Fin 16) (s : State), (s.tick t).calm = true →
  ∃ u, exec (.fcaLaneLost t lane) s = .next u ∧ (u.laneRec lane).lost = true) ∧
  /- flowPointWaitExpiry -/ (∀ (t : Angle) (ch : BitVec 20) (pt : StagedPoint) (e : DescEntry) (s b : State), (s.tick t).descs true ch.toNat = [] →
  ((s.tick t).chan false ch.toNat).staged = [pt] → ((s.tick t).chan false ch.toNat).prev = none →
  (s.tick t).descAt false ch.toNat pt.t = some e → (s.tick t).laneServes ((s.tick t).homeOf false ch.toNat 0 e) 1 = true →
  (s.tick t).ready e ((s.tick t).chan false ch.toNat) pt.t = true →
  b = ((s.tick t).setChan false ch.toNat { (s.tick t).chan false ch.toNat with staged := [] }).evaluate false
    ((s.tick t).homeOf false ch.toNat 0 e) ch.toNat e pt →
  (s.tick t).commits ((s.tick t).chan false ch.toNat) pt.t = false ∨ (s.tick t).chargedBy b = 0 ∨
    (s.tick t).takes ((s.tick t).chargedBy b) = true →
  ∃ u, exec (.flowPointWaitExpiry t ch) s = .next u ∧ (u.chan false ch.toNat).staged = [] ∧
    ((u.chan false ch.toNat).prev.map (·.t)) = some pt.t) ∧
  /- tkAck -/ (∀ (t : Angle) (p : Path) (lane : Fin 16) (v : Word) (n : Nat) (s a : State), (s.tick t).through p (0x20 + lane) 0x054 true = some a →
  a.calm = true → (a.laneRec lane).ending = false →
  (SMap.keys (a.laneRec lane).ring).find? (fun n => n % 65536 == v.toNat % 65536) = some n →
  ∃ u, exec (.tkAck t p lane v) s = .next u ∧ (u.laneRec lane).head = n + 1 ∧
    (u.laneRec lane).ring = (a.laneRec lane).ring.filter (fun r => decide (n < r.1))) ∧
  /- resultRead -/ (∀ (t : Angle) (p : Path) (lane : Fin 16) (n : Nat) (x : RingSlot) (s a : State),
  (s.tick t).through p (0x20 + lane) 0x078 false = some a → a.slotOf lane none = some (n, x) →
  ∃ u, exec (.resultRead t p lane none) s = .next u ∧ u.out = .word p (BitVec.ofNat 32 (slotWord x 6)) :: a.out) ∧
  /- resultRead -/ (∀ (t : Angle) (p : Path) (lane : Fin 16) (i : Fin 256) (n : Nat) (x : RingSlot) (s : State),
  (s.tick t).slotOf lane (some i.val) = some (n, x) →
  ∃ u, exec (.resultRead t p lane (some i)) s = .next u ∧
    u.out = .word p (BitVec.ofNat 32 (slotWord x 6)) :: (s.tick t).out) ∧
  /- closePush -/ (∀ (t : Angle) (p : Path) (lane : Fin 16) (v : Word) (s a : State), (s.tick t).through p (0x20 + lane) 0x084 true = some a →
  (∀ c, (a.laneRec lane).lastClose = some c → c < a.reg (Reg.FCA_CLOSE_LO lane) + 2 ^ 32 * v.toNat) →
  (a.laneRec lane).closes.length < 64 →
  ∃ u, exec (.closePush t p lane v) s = .next u ∧
    (u.laneRec lane).closes = (a.laneRec lane).closes ++ [a.reg (Reg.FCA_CLOSE_LO lane) + 2 ^ 32 * v.toNat]) ∧
  /- closeEnd -/ (∀ (t : Angle) (p : Path) (lane : Fin 16) (v : Word) (s a : State), (s.tick t).through p (0x20 + lane) 0x08C true = some a →
  v.toNat.testBit 0 = true → a.laneMode lane = 2 → a.flag (Reg.FCA_LCFG lane) 4 = true →
  ∃ u, exec (.closeEnd t p lane v) s = .next u ∧ ((u.laneRec lane).closes = [] ∨ (u.laneRec lane).ending = true)) ∧
  /- closeEnd -/ (∀ (t : Angle) (p : Path) (lane : Fin 16) (v : Word) (s a : State), (s.tick t).through p (0x20 + lane) 0x08C true = some a →
  (a.laneMode lane ≠ 2 ∨ a.flag (Reg.FCA_LCFG lane) 4 = false) →
  ∃ u, exec (.closeEnd t p lane v) s = .next u ∧ u.laneRec lane = a.laneRec lane)

/-- A staged descriptor that passes the checks enters its table for its channel at its EFF; a READ shows the descriptor in force; a RETIRE enters the end of its channel; a slot write sets its slot of a block no descriptor uses. -/
def Obligations.DescriptorCommandsComplete : Prop :=
  /- descCommit -/ (∀ (t : Angle) (p : Path) (v : Word) (s a : State), (s.tick t).through p 0x1C 0x048 true = some a →
  a.flag Reg.FCAC_DW_STAT 31 = false → v.toNat.testBit 5 = false → a.checkDesc false a.stagedDesc = 0 →
  ∃ u, exec (.descCommit t p v) s = .next u ∧
    ∃ e, e ∈ u.fca.live.getD a.stagedDesc.ch [] ∧ e.eff = a.stagedDesc.eff ∧ e.raw = a.stagedDesc ∧ e.retire = false) ∧
  /- descRead -/ (∀ (t : Angle) (p : Path) (v : Word) (i : Fin 16) (e : DescEntry) (s a : State), (s.tick t).through p 0x1C 0x048 true = some a →
  a.flag Reg.FCAC_DW_STAT 31 = false → a.descAt (v.toNat.testBit 5) (a.fld Reg.FCAC_DW_CH 19 0) a.now = some e →
  ∃ u, exec (.descRead t p v) s = .next u ∧ u.reg (Reg.FCAC_DW_D0 + 4 * i) = e.raw / 2 ^ (32 * i.val) % 2 ^ 32 ∧
    u.reg Reg.FCAC_DW_STAT = 2 ^ 28) ∧
  /- descRetire -/ (∀ (t : Angle) (p : Path) (v : Word) (s a : State), (s.tick t).through p 0x1C 0x048 true = some a →
  a.flag Reg.FCAC_DW_STAT 31 = false → v.toNat.testBit 5 = false →
  (∀ x, (a.chan false (a.fld Reg.FCAC_DW_CH 19 0)).prev = some x → x.t < a.reg64 Reg.FCAC_DW_D8 (Reg.FCAC_DW_D8 + 4)) →
  ∃ u, exec (.descRetire t p v) s = .next u ∧
    ∃ e, e ∈ u.fca.live.getD (a.fld Reg.FCAC_DW_CH 19 0) [] ∧ e.eff = a.reg64 Reg.FCAC_DW_D8 (Reg.FCAC_DW_D8 + 4) ∧ e.retire = true) ∧
  /- pbSlotCommit -/ (∀ (t : Angle) (p : Path) (v : Word) (s a : State), (s.tick t).through p 0x1C 0x05C true = some a →
  a.fca.fixed.contains (a.fld Reg.FCAC_PB_IDX 19 0) = false →
  ∃ u, exec (.pbSlotCommit t p v) s = .next u ∧
    slotInt (u.block (a.fld Reg.FCAC_PB_IDX 19 0)) (a.fld Reg.FCAC_PB_SLOT 4 0) = a.reg Reg.FCAC_PB_LO + 2 ^ 32 * v.toNat)

/-- An image that passes the checks becomes the pending graph with its GEN and GEFF; a DROP removes a graph not yet begun; a slot, an insulation value, an ambient temperature and a correlation take the written value; a due window is evaluated for its zone; ZRESET gives the zone its starting state. -/
def Obligations.BalanceCommandsComplete : Prop :=
  /- graphCommit -/ (∀ (t : Angle) (p : Path) (img : List Byte) (s a : State),
  ((s.tick t).store ((s.tick t).reg Reg.BALG_GIMG_OFS) img).through p 0x31 0x050 true = some a →
  a.advanceWindows.checkGraph (a.advanceWindows.load (a.advanceWindows.reg Reg.BALG_GIMG_OFS) (a.advanceWindows.reg Reg.BALG_GIMG_LEN))
    (a.advanceWindows.reg Reg.BALG_GIMG_LEN) (a.advanceWindows.reg64 Reg.BALG_GEFF_LO Reg.BALG_GEFF_HI) = none →
  ∃ u, exec (.graphCommit t p img) s = .next u ∧ ∃ g, u.balance.pending = some g ∧ g.begun = false ∧
    g.eff = a.advanceWindows.reg64 Reg.BALG_GEFF_LO Reg.BALG_GEFF_HI ∧
    g.gen = GraphImage.gen (a.advanceWindows.load (a.advanceWindows.reg Reg.BALG_GIMG_OFS) (a.advanceWindows.reg Reg.BALG_GIMG_LEN))) ∧
  /- graphDrop -/ (∀ (t : Angle) (p : Path) (g : PendingGraph) (s a : State), (s.tick t).through p 0x31 0x050 true = some a →
  a.advanceWindows.balance.pending = some g → g.begun = false →
  ∃ u, exec (.graphDrop t p) s = .next u ∧ u.balance.pending = none ∧ u.fld Reg.BALG_GSTAT 29 28 = 1) ∧
  /- zoneParamCommit -/ (∀ (t : Angle) (p : Path) (v : Word) (s a : State), (s.tick t).through p 0x31 0x06C true = some a →
  slotInRange (a.fld Reg.BALG_ZP_SLOT 4 0) (a.reg Reg.BALG_ZP_LO + 2 ^ 32 * v.toNat) = true →
  ∃ u, exec (.zoneParamCommit t p v) s = .next u ∧
    u.balance.slots.find (a.fld Reg.BALG_ZP_ZONE 11 0 * 32 + a.fld Reg.BALG_ZP_SLOT 4 0) = some (a.reg Reg.BALG_ZP_LO + 2 ^ 32 * v.toNat)) ∧
  /- balanceParamCommit -/ (∀ (t : Angle) (p : Path) (v : Word) (s a : State), (s.tick t).through p 0x31 0x078 true = some a →
  negative (a.staged64 (bankKey (a.fld Reg.BALG_IC_SEL 3 0) Reg.BALG_IC_LO) v) = false →
  ∃ u, exec (.balanceParamCommit t p .insulation v) s = .next u ∧ u.balance.insulation.find (a.fld Reg.BALG_IC_SEL 3 0) =
    some (a.staged64 (bankKey (a.fld Reg.BALG_IC_SEL 3 0) Reg.BALG_IC_LO) v)) ∧
  /- balanceParamCommit -/ (∀ (t : Angle) (p : Path) (j : Fin 4) (v : Word) (s a : State), (s.tick t).through p 0x31 (0x084 + 8 * j) true = some a →
  ∃ u, exec (.balanceParamCommit t p (.ambient j) v) s = .next u ∧
    u.balance.ambient.find j = some (a.staged64 (Reg.BALG_TAMB0_LO + 8 * j) v)) ∧
  /- balanceParamCommit -/ (∀ (t : Angle) (p : Path) (v : Word) (s a : State), (s.tick t).through p 0x31 0x0A8 true = some a →
  F.zero.le (F.ofBits (a.staged64 (bankKey (a.fld Reg.BALG_CG_SEL 7 0) Reg.BALG_CG_LO) v)) = true →
  (F.ofBits (a.staged64 (bankKey (a.fld Reg.BALG_CG_SEL 7 0) Reg.BALG_CG_LO) v)).le (F.ofNat 1) = true → a.fld Reg.BALG_CG_SEL 7 0 ≠ 0 →
  ∃ u, exec (.balanceParamCommit t p .correlation v) s = .next u ∧ u.balance.corr.find (a.fld Reg.BALG_CG_SEL 7 0) =
    some (a.staged64 (bankKey (a.fld Reg.BALG_CG_SEL 7 0) Reg.BALG_CG_LO) v)) ∧
  /- windowEvaluate -/ (∀ (t : Angle) (zone : BitVec 12) (z : Zone) (w : Window) (s : State),
  (s.tick t).advanceWindows.dueWindow zone.toNat = some (false, z, w) → (s.tick t).advanceWindows.flag Reg.BAL_CFG 0 = true →
  (s.tick t).advanceWindows.skipsWindow w = false →
  ∃ u, exec (.windowEvaluate t zone) s = .next u ∧
    ∃ y, u.balance.zones.find zone.toNat = some y ∧ y.evaluated = w.stop ∧ ((s.tick t).serves = true → y.lastNum = w.num) ∧ y.ended = z.ended.drop 1) ∧
  /- zoneRestart -/ (∀ (t : Angle) (p : Path) (v : Word) (z : Zone) (s a : State), (s.tick t).through p 0x30 0x100 true = some a → v.toNat.testBit 0 = true →
  a.advanceWindows.balance.zones.find (a.advanceWindows.fld Reg.BAL_ZSEL 11 0) = some z →
  ∃ u, exec (.zoneRestart t p v) s = .next u ∧ u.balance.zones.find (a.advanceWindows.fld Reg.BAL_ZSEL 11 0) =
    some { z with ended := [], saves := z.plainSaves, run := freshRun z.defn.cfg (z.params.getD 17 0) })

/-- A valid entry stands in the table, is read back and is invalidated; the due interval boundary is processed and gone; an accepted program image is pending until it is withdrawn; CLOSE asks for a PERIOD boundary two cycles ahead; a processed boundary is the last one of its program. -/
def Obligations.BillingCommandsComplete : Prop :=
  /- channelTableWrite -/ (∀ (t : Angle) (p : Path) (s a : State), (s.tick t).through p 0x32 0x04C true = some a → bit 31 (a.reg Reg.BILL_CT_W0) = true →
  a.channelCheck (a.fld Reg.BILL_CT_CH 19 0) (a.reg Reg.BILL_CT_W0) (a.reg Reg.BILL_CT_W1) = 0 →
  ∃ u, exec (.channelTableWrite t p) s = .next u ∧ u.reg Reg.BILL_CT_STAT = 2 ^ 28 ∧
    ∃ c, u.billChan (a.fld Reg.BILL_CT_CH 19 0) = some c ∧ c.w0 = a.reg Reg.BILL_CT_W0 ∧ c.valid = true) ∧
  /- channelTableRead -/ (∀ (t : Angle) (p : Path) (c : BillChan) (s a : State), (s.tick t).through p 0x32 0x04C true = some a →
  a.billChan (a.fld Reg.BILL_CT_CH 19 0) = some c →
  ∃ u, exec (.channelTableRead t p) s = .next u ∧ u.reg Reg.BILL_CT_W0 = setBit 31 c.valid c.w0 % 2 ^ 32 ∧
    u.reg Reg.BILL_CT_W1 = c.nextW1.getD c.w1 % 2 ^ 32 ∧ u.reg Reg.BILL_CT_STAT = 2 ^ 28) ∧
  /- channelTableInvalidate -/ (∀ (t : Angle) (p : Path) (c : BillChan) (s a : State), (s.tick t).through p 0x32 0x04C true = some a →
  a.billChan (a.fld Reg.BILL_CT_CH 19 0) = some c → c.valid = true →
  ∃ u, exec (.channelTableInvalidate t p) s = .next u ∧ u.billChan (a.fld Reg.BILL_CT_CH 19 0) = some { c with valid := false }) ∧
  /- intervalClose -/ (∀ (t : Angle) (x : Nat × Nat × Instant) (l : List (Nat × Nat × Instant)) (s : State),
  (s.tick t).dueInstants ownsInterval = x :: l → (s.tick t).serves = true → (s.tick t).pfStop = false →
  ∃ u, exec (.intervalClose t) s = .next u ∧ u.sweep.instants.find x.2.1 = none) ∧
  /- programCommit -/ (∀ (t : Angle) (p : Path) (img : List Byte) (s a : State),
  ((s.tick t).store ((s.tick t).reg Reg.TARIF_PIMG_OFS) img).through p 0x33 0x048 true = some a →
  a.programCheck (a.load (a.reg Reg.TARIF_PIMG_OFS) (a.reg Reg.TARIF_PIMG_LEN)) (a.reg Reg.TARIF_PIMG_LEN) = 0 →
  ∃ u, exec (.programCommit t p img) s = .next u ∧
    (u.prog (Image.prog (a.load (a.reg Reg.TARIF_PIMG_OFS) (a.reg Reg.TARIF_PIMG_LEN)))).pending =
      some (a.load (a.reg Reg.TARIF_PIMG_OFS) (a.reg Reg.TARIF_PIMG_LEN))) ∧
  /- programWithdraw -/ (∀ (t : Angle) (p : Path) (v : Word) (s a : State), (s.tick t).through p 0x33 0x048 true = some a →
  (a.prog (bits 5 0 v.toNat)).pending.isSome = true →
  ∃ u, exec (.programWithdraw t p v) s = .next u ∧ (u.prog (bits 5 0 v.toNat)).pending = none) ∧
  /- periodCloseCmd -/ (∀ (t : Angle) (p : Path) (v : Word) (img : Image) (s a : State), (s.tick t).through p 0x33 0x048 true = some a →
  (a.prog (bits 5 0 v.toNat)).image = some img → img.periodKind = 0 →
  ∃ u, exec (.periodCloseCmd t p v) s = .next u ∧ (u.prog (bits 5 0 v.toNat)).closeFrom = some (a.now + 2 * 65536)) ∧
  /- boundaryProcess -/ (∀ (t : Angle) (b : BoundaryDue) (s : State), (s.tick t).nextDue = some b → (s.tick t).serves = true → (s.tick t).pfStop = false →
  (s.tick t).slalom.reserved.contains b.key = true ∨ (s.tick t).takes (recordCost 0x06) = true →
  ∃ u, exec (.boundaryProcess t) s = .next u ∧ (u.prog b.prog).lastS = some b.at')

/-- The pending price table waits for its EFF; a top-up adds its amount to the balance; a threshold and a member entry take the written value. -/
def Obligations.CreditCommandsComplete : Prop :=
  /- priceCommit -/ (∀ (t : Angle) (p : Path) (v : Word) (s a : State), (s.tick t).through p 0x34 0x090 true = some a →
  ∃ u, exec (.priceCommit t p v) s = .next u ∧
    ∃ table, (u.account a.acSel).pending = some (a.reg (bankKey a.acSel Reg.CRED_PR_EFF_LO) + 2 ^ 32 * v.toNat, table)) ∧
  /- topup -/ (∀ (t : Angle) (p : Path) (v : Word) (s a : State), (s.tick t).through p 0x34 0x06C true = some a → bit 31 (a.acCfg a.acSel) = true →
  ∃ u, exec (.topup t p v) s = .next u ∧ (u.account a.acSel).balance =
    satSigned 64 ((a.account a.acSel).balance + toSigned 64 (a.reg (bankKey a.acSel Reg.CRED_TOPUP_LO) + 2 ^ 32 * v.toNat))) ∧
  /- accountLimitCommit -/ (∀ (t : Angle) (p : Path) (limit : Fin 3) (v : Word) (s a : State), (s.tick t).through p 0x34 (0x054 + 8 * limit) true = some a →
  ∃ u, exec (.accountLimitCommit t p limit v) s = .next u ∧ (u.account a.acSel).limits =
    (a.account a.acSel).limits.set limit (toSigned 64 (a.reg (bankKey a.acSel (Reg.CRED_AC_WARN_LO + 8 * limit)) + 2 ^ 32 * v.toNat))) ∧
  /- memberCommit -/ (∀ (t : Angle) (p : Path) (v : Word) (s a : State), (s.tick t).through p 0x34 0x0A4 true = some a →
  bit 31 (v.toNat &&& 0xF00FFFFF) = false ∨ a.memberFits a.acSel (a.fld Reg.CRED_MB_SEL 4 0) (v.toNat &&& 0xF00FFFFF) = true →
  ∃ u, exec (.memberCommit t p v) s = .next u ∧
    u.reg (bankKey (a.acSel * 32 + a.fld Reg.CRED_MB_SEL 4 0) Reg.CRED_MB_W) = v.toNat &&& 0xF00FFFFF)

/-- A command of an output starts its pulse, or waits behind the running one; a pulse that has run its time gives the driver to the next command; a feedback that does not come in time costs one more pulse, unless the command is cancelled, then FAULT; the feedback level is shown; a tamper input shows its state and is logged; LATCH bits and the log clear. -/
def Obligations.OutputAndTamperCommandsComplete : Prop :=
  /- interlockOn -/ (∀ (t : Angle) (p : Path) (k : Fin 4) (v : Word) (s a b : State), (s.tick t).through p 0x34 (0x0C0 + 0x10 * k) true = some a →
  a.pairState = 0 ∨ a.pairState = 1 → a.plainWrite 0x34 (0x0C0 + 0x10 * k) v = .done b → a.field.gapUntil ≤ a.now → a.pairs.stopped = false →
  a.interlock.pulse = none →
  ∃ u, exec (.interlockOn t p k v) s = .next u ∧ u.interlock.pulse = some { output := k, on := true } ∧ u.fld (Reg.CRED_IL_STAT k) 31 29 = 3) ∧
  /- interlockOn -/ (∀ (t : Angle) (p : Path) (k : Fin 4) (v : Word) (c : DriveCmd) (s a b : State), (s.tick t).through p 0x34 (0x0C0 + 0x10 * k) true = some a →
  a.pairState = 0 ∨ a.pairState = 1 → a.plainWrite 0x34 (0x0C0 + 0x10 * k) v = .done b → a.interlock.pulse = some c →
  ∃ u, exec (.interlockOn t p k v) s = .next u ∧ u.interlock.queue = a.interlock.queue ++ [{ output := k, on := true }]) ∧
  /- interlockOff -/ (∀ (t : Angle) (p : Path) (k : Fin 4) (v : Word) (s a b : State), (s.tick t).through p 0x34 (0x0C0 + 0x10 * k) true = some a →
  a.pairState = 0 ∨ a.pairState = 1 → a.plainWrite 0x34 (0x0C0 + 0x10 * k) v = .done b → a.field.gapUntil ≤ a.now → a.pairs.stopped = false →
  a.interlock.pulse = none →
  ∃ u, exec (.interlockOff t p k v) s = .next u ∧ u.interlock.pulse = some { output := k, on := false } ∧ u.fld (Reg.CRED_IL_STAT k) 31 29 = 3) ∧
  /- pulseEnd -/ (∀ (t : Angle) (k : Fin 4) (short : Bool) (c : DriveCmd) (s : State), (s.tick t).interlock.pulse = some c → c.output = k →
  (s.tick t).pulseOver k short = true →
  ∃ u, exec (.pulseEnd t k short) s = .next u ∧ u.interlock.pulse = (s.tick t).interlock.queue.head? ∧
    u.interlock.queue = (s.tick t).interlock.queue.tail) ∧
  /- feedbackWaitExpiry -/ (∀ (t : Angle) (k : Fin 4) (c : DriveCmd) (f : Nat) (s : State), ((s.tick t).output k).cmd = some c → ((s.tick t).output k).since = some f →
  f + max 1 ((s.tick t).fld (Reg.CRED_IL_CTL k) 31 16) ≤ (s.tick t).cycle → ((s.tick t).output k).second = true ∨ c.cancelled = true →
  ∃ u, exec (.feedbackWaitExpiry t k) s = .next u ∧ u.fld (Reg.CRED_IL_STAT k) 31 29 = 5) ∧
  /- feedbackWaitExpiry -/ (∀ (t : Angle) (k : Fin 4) (c : DriveCmd) (f : Nat) (s : State), ((s.tick t).output k).cmd = some c → ((s.tick t).output k).since = some f →
  f + max 1 ((s.tick t).fld (Reg.CRED_IL_CTL k) 31 16) ≤ (s.tick t).cycle → ((s.tick t).output k).second = false → c.cancelled = false →
  (s.tick t).interlock.pulse = none → c.output = k →
  ∃ u, exec (.feedbackWaitExpiry t k) s = .next u ∧ u.fld (Reg.CRED_IL_STAT k) 31 29 = 3 ∧ (u.output k).second = true) ∧
  /- feedbackChange -/ (∀ (t : Angle) (k : Fin 4) (level : Bool) (s : State),
  ∃ u, exec (.feedbackChange t k level) s = .next u ∧ u.flag (Reg.CRED_IL_STAT k) 0 = (level != (s.tick t).flag (Reg.CRED_IL_CTL k) 7)) ∧
  /- tamperInput -/ (∀ (t : Angle) (input : Fin 3) (opened : Bool) (vigil : BitVec 48) (s : State),
  ∃ u, exec (.tamperInput t input opened vigil) s = .next u ∧ u.flag Reg.TAMP_TP_STAT input = opened ∧
    (opened = true → u.flag Reg.TAMP_TP_STAT (4 + input) = true) ∧
    ∃ e, u.tamper.find ((s.tick t).fld Reg.TAMP_LOG_WR 5 0) = some e ∧ e.source = input ∧ e.vigil = vigil.toNat) ∧
  /- tamperLatchClear -/ (∀ (t : Angle) (p : Path) (v : Word) (vigil : BitVec 48) (i : Fin 3) (s a : State), (s.tick t).through p 0x35 0x040 true = some a →
  v.toNat.testBit (4 + i) = true →
  ∃ u, exec (.tamperLatchClear t p v vigil) s = .next u ∧ u.flag Reg.TAMP_TP_STAT (4 + i) = false) ∧
  /- tamperLogClear -/ (∀ (t : Angle) (p : Path) (v : Word) (vigil : BitVec 48) (s a : State), (s.tick t).through p 0x35 0x05C true = some a →
  v.toNat.testBit 0 = true →
  ∃ u, exec (.tamperLogClear t p v vigil) s = .next u ∧ ∃ e, u.tamper = [(0, e)] ∧ e.source = 3 ∧ e.vigil = vigil.toNat)

/-- A group that is due, or that SYNC asks for, is closed under the next CSN; a stripe that reports success leaves its group; a complete group is gone and the last committed RSN and CSN are its own; a checkpoint closes a group that carries its flag; ARCH takes the written value; a read answers with its result. -/
def Obligations.LedgerCommandsComplete : Prop :=
  /- groupClose -/ (∀ (t : Angle) (s : State), (s.tick t).storeRuns = true → (s.tick t).openWork = true →
  (s.tick t).groupFits 0 = true → (s.tick t).led.openSince + max 1 ((s.tick t).fld Reg.LEDG_CFG 11 8) ≤ (s.tick t).cycle →
  ∃ u, exec (.groupClose t) s = .next u ∧ u.led.nextCsn = (s.tick t).led.nextCsn + 1 ∧
    ∃ g, u.led.groups = (s.tick t).led.groups ++ [g] ∧ g.csn = (s.tick t).led.nextCsn) ∧
  /- ledgSync -/ (∀ (t : Angle) (p : Path) (v : Word) (s a : State), (s.tick t).through p 0x38 0x0A0 true = some a → v.toNat.testBit 0 = true →
  a.storeRuns = true → a.openWork = true → a.groupFits 0 = true →
  ∃ u, exec (.ledgSync t p v) s = .next u ∧ ∃ g, u.led.groups = a.led.groups ++ [g] ∧ g.csn = a.led.nextCsn) ∧
  /- stripeProgrammed -/ (∀ (t : Angle) (g : CommitGroup) (gs : List CommitGroup) (s : State), (s.tick t).led.groups = g :: gs → 1 < g.stripes.length →
  (s.tick t).led.stalled = false →
  ∃ u, exec (.stripeProgrammed t) s = .next u ∧ u.led.groups = { g with stripes := g.stripes.drop 1 } :: gs) ∧
  /- commitComplete -/ (∀ (t : Angle) (supplied : Bool) (g : CommitGroup) (gs : List CommitGroup) (s : State), (s.tick t).calm = true →
  (s.tick t).led.groups = g :: gs → g.stripes.length = 1 → (s.tick t).led.stalled = false → bit 0 g.flags = false →
  ∃ u, exec (.commitComplete t supplied) s = .next u ∧ u.led.groups = gs ∧ u.committed = g.last % 2 ^ 64) ∧
  /- checkpoint -/ (∀ (t : Angle) (s : State), (s.tick t).storeRuns = true → (s.tick t).pfStop = false → (s.tick t).led.ckptOpen = false →
  (s.tick t).led.ckptAt + clampNat 500 15000 ((s.tick t).fld Reg.LEDG_CKPTCFG 15 0) ≤ (s.tick t).cycle →
  (s.tick t).startCheckpoint.groupFits 2 = true →
  ∃ u, exec (.checkpoint t) s = .next u ∧ u.led.ckptOpen = true ∧ u.led.ckptAt = (s.tick t).cycle ∧
    ∃ g, u.led.groups = (s.tick t).led.groups ++ [g] ∧ bit 1 g.flags = true) ∧
  /- archiveCommit -/ (∀ (t : Angle) (p : Path) (v : Word) (s a : State), (s.tick t).through p 0x38 0x074 true = some a →
  a.arch ≤ a.latched .pcie Reg.LEDG_ARCH_LO + 2 ^ 32 * v.toNat → a.latched .pcie Reg.LEDG_ARCH_LO + 2 ^ 32 * v.toNat ≤ a.committed →
  ∃ u, exec (.archiveCommit t p v) s = .next u ∧ u.arch = a.latched .pcie Reg.LEDG_ARCH_LO + 2 ^ 32 * v.toNat) ∧
  /- ledgerRead -/ (∀ (t : Angle) (p : Path) (v : Word) (reads : List (BitVec 19 × StripeRead)) (s a b : State), (s.tick t).through p 0x38 0x0C0 true = some a →
  v.toNat.testBit 0 = true → b = a.readStripes reads →
  (b.led.recs.head?.map (·.1)).getD b.led.nextRsn ≤ b.reg64 Reg.LEDG_RD_RSN_LO Reg.LEDG_RD_RSN_HI →
  (b.led.recs.find (b.reg64 Reg.LEDG_RD_RSN_LO Reg.LEDG_RD_RSN_HI)).isSome = true →
  ∃ u, exec (.ledgerRead t p v reads) s = .next u ∧ (u.fld Reg.LEDG_RD_STAT 31 28 = 1 ∨ u.fld Reg.LEDG_RD_STAT 31 28 = 3)) ∧
  /- ledgerRead -/ (∀ (t : Angle) (p : Path) (v : Word) (reads : List (BitVec 19 × StripeRead)) (s a b : State), (s.tick t).through p 0x38 0x0C0 true = some a →
  v.toNat.testBit 0 = true → b = a.readStripes reads →
  b.reg64 Reg.LEDG_RD_RSN_LO Reg.LEDG_RD_RSN_HI < (b.led.recs.head?.map (·.1)).getD b.led.nextRsn →
  ∃ u, exec (.ledgerRead t p v reads) s = .next u ∧ u.reg Reg.LEDG_RD_STAT = 2 * 2 ^ 28)

/-- A program failure is counted and its superblock is queued for relocation; a failed erase retires the block; a DRAM error that is corrected or strikes charged records is counted, and one elsewhere is counted and starts the shutdown for a SYSTEM reset; a step of collection or rebuild copies from its superblock or lists it for erase; the Groomer moves on by one stripe, and a late pass is counted. -/
def Obligations.StoreMediaCommandsComplete : Prop :=
  /- programFail -/ (∀ (t : Angle) (die : Fin 8) (gc dead : Bool) (s : State),
  ∃ u, exec (.programFail t die gc dead) s = .next u ∧ u.reg Reg.NAND_PROG_FAIL = satAdd 32 ((s.tick t).reg Reg.NAND_PROG_FAIL) 1) ∧
  /- programFail -/ (∀ (t : Angle) (die : Fin 8) (g : CommitGroup) (gs : List CommitGroup) (stripe : Nat) (rest : List Nat) (s : State),
  (s.tick t).led.groups = g :: gs → g.stripes = stripe :: rest → (s.tick t).led.stalled = false →
  ∃ u, exec (.programFail t die false false) s = .next u ∧ (stripe / 256, die.val) ∈ u.led.retire) ∧
  /- programFail -/ (∀ (t : Angle) (die : Fin 8) (g : CommitGroup) (gs : List CommitGroup) (stripe : Nat) (rest : List Nat) (s : State),
  (s.tick t).led.groups = g :: gs → g.stripes = stripe :: rest → (s.tick t).led.stalled = false → ((s.tick t).die die).state = 0 →
  ∃ u, exec (.programFail t die false true) s = .next u ∧ (u.die die).state = 1) ∧
  /- eraseFail -/ (∀ (t : Angle) (sb : BitVec 11) (die : Fin 8) (dead : Bool) (s : State), (s.tick t).erasing sb.toNat = true →
  (∀ x ∈ (s.tick t).led.retire, x.1 ≠ sb.toNat) →
  ∃ u, exec (.eraseFail t sb die dead) s = .next u ∧ (u.die die).retired = ((s.tick t).die die).retired + 1) ∧
  /- dramError -/ (∀ (t : Angle) (s : State),
  ∃ u, exec (.dramError t .corrected) s = .next u ∧ u.reg Reg.LEDG_DRAM_CE = satAdd 32 ((s.tick t).reg Reg.LEDG_DRAM_CE) 1) ∧
  /- dramError -/ (∀ (t : Angle) (s : State),
  ∃ u, exec (.dramError t .charged) s = .next u ∧ u.reg Reg.LEDG_DRAM_UE = satAdd 32 ((s.tick t).reg Reg.LEDG_DRAM_UE) 1) ∧
  /- dramError -/ (∀ (t : Angle) (s : State), (s.tick t).boot.kind = none → (s.tick t).boot.hold ≠ 1 → (s.tick t).boot.hold ≠ 2 →
  (s.tick t).storeRuns = true → (s.tick t).pfStop = false →
  ∃ u, exec (.dramError t .elsewhere) s = .next u ∧ u.reg Reg.LEDG_DRAM_UE = satAdd 32 ((s.tick t).reg Reg.LEDG_DRAM_UE) 1 ∧
    u.boot.kind = some (2, 2)) ∧
  /- gcStep -/ (∀ (t : Angle) (reads : List (BitVec 19 × StripeRead)) (n : Nat) (s : State), (s.tick t).storeRuns = true → (s.tick t).pfStop = false →
  (s.tick t).hot = false → (s.tick t).pickCollect = some n →
  ∃ u, exec (.gcStep t reads) s = .next u ∧ (u.led.victim = some n ∨ n ∈ u.led.eraseQueue)) ∧
  /- rebuildStep -/ (∀ (t : Angle) (reads : List (BitVec 19 × StripeRead)) (n : Nat) (rest : List Nat) (s : State), (s.tick t).storeRuns = true →
  (s.tick t).pfStop = false → (s.tick t).led.rebuild = n :: rest → (s.tick t).releasing n = false → ((s.tick t).sb n).phase = 2 →
  ∃ u, exec (.rebuildStep t reads) s = .next u ∧ (u.led.victim = some n ∨ n ∈ u.led.eraseQueue)) ∧
  /- rebuildStep -/ (∀ (t : Angle) (reads : List (BitVec 19 × StripeRead)) (n : Nat) (rest : List Nat) (s : State), (s.tick t).storeRuns = true →
  (s.tick t).pfStop = false → (s.tick t).led.rebuild = n :: rest → (s.tick t).releasing n = true ∨ ((s.tick t).sb n).phase ≠ 2 →
  ∃ u, exec (.rebuildStep t reads) s = .next u ∧ u.led.rebuild = rest.filter (· ≠ n)) ∧
  /- groomStep -/ (∀ (t : Angle) (r : StripeRead) (stripe other : Nat) (s : State), (s.tick t).flag Reg.GROOM_CFG 0 = true → (s.tick t).storeRuns = true →
  (s.tick t).pfStop = false → (s.tick t).hot = false →
  (s.tick t).dataStripes.find? (fun n => !((s.tick t).led.groomed.contains n)) = some stripe →
  other ∈ (s.tick t).dataStripes → (s.tick t).led.groomed.contains other = false → other ≠ stripe →
  ∃ u, exec (.groomStep t r) s = .next u ∧ stripe ∈ u.led.groomed) ∧
  /- groomStep -/ (∀ (t : Angle) (r : StripeRead) (stripe : Nat) (s : State), (s.tick t).flag Reg.GROOM_CFG 0 = true → (s.tick t).storeRuns = true →
  (s.tick t).pfStop = false → (s.tick t).hot = false →
  (s.tick t).dataStripes.find? (fun n => !((s.tick t).led.groomed.contains n)) = some stripe →
  (∀ other ∈ (s.tick t).dataStripes, other ≠ stripe → (s.tick t).led.groomed.contains other = true) →
  ∃ u, exec (.groomStep t r) s = .next u ∧ u.reg Reg.GROOM_PASS_POS = 0 ∧
    u.reg Reg.GROOM_PASS_CNT = satAdd 32 ((s.tick t).reg Reg.GROOM_PASS_CNT) 1) ∧
  /- groomLate -/ (∀ (t : Angle) (s : State), (s.tick t).reg Reg.GROOM_PASS_POS ≠ 0 → (s.tick t).led.passLate = false →
  (s.tick t).led.passUp + (s.tick t).passPeriod ≤ (s.tick t).uptime →
  ∃ u, exec (.groomLate t) s = .next u ∧ u.reg Reg.GROOM_LATE = satAdd 32 ((s.tick t).reg Reg.GROOM_LATE) 1)

/-- A batch that is due closes under the next number; the signature of the oldest closed batch signs it; a proof of a record in a signed batch shows the root of its batch, and one of a record of no batch answers 3. -/
def Obligations.MerkleCommandsComplete : Prop :=
  /- batchClose -/ (∀ (t : Angle) (s : State), (s.tick t).serves = true → (s.tick t).pfStop = false → (s.tick t).batchDue = true →
  ∃ u, exec (.batchClose t) s = .next u ∧ u.merk.num = (s.tick t).merk.num + 1 ∧
    ∃ b, u.merk.closed = (s.tick t).merk.closed ++ [b] ∧ b.num = (s.tick t).merk.num + 1) ∧
  /- batchSigned -/ (∀ (t : Angle) (iters : BitVec 10) (b : Batch) (rest : List Batch) (s : State), (s.tick t).merk.closed = b :: rest →
  (s.tick t).serves = true → (s.tick t).pfStop = false → (s.tick t).engineState 3 < 2 → (s.tick t).pqcRuns = true →
  (s.tick t).hashRuns = true → (s.tick t).slotOpen 1 = true → (s.tick t).takes 516 = true →
  ∃ u, exec (.batchSigned t true iters) s = .next u ∧ u.merk.closed = rest ∧ (u.merk.signed.find b.num).isSome = true) ∧
  /- proof -/ (∀ (t : Angle) (p : Path) (v : Word) (x : Nat × Batch) (s a : State), (s.tick t).through p 0x45 0x0A8 true = some a →
  v.toNat.testBit 0 = true →
  a.merk.signed.find? (fun (x : Nat × Batch) => x.2.recs.contains (a.reg64 Reg.MERK_PRF_RSN_LO Reg.MERK_PRF_RSN_HI)) = some x →
  (∀ n, n ∈ x.2.recs → (a.heldRecord n).isSome = true) →
  ∃ u, exec (.proof t p v) s = .next u ∧ u.merk.root = x.2.root) ∧
  /- proof -/ (∀ (t : Angle) (p : Path) (v : Word) (s a : State), (s.tick t).through p 0x45 0x0A8 true = some a → v.toNat.testBit 0 = true →
  a.merk.signed.find? (fun (x : Nat × Batch) => x.2.recs.contains (a.reg64 Reg.MERK_PRF_RSN_LO Reg.MERK_PRF_RSN_HI)) = none →
  a.merk.closed.any (fun b => b.recs.contains (a.reg64 Reg.MERK_PRF_RSN_LO Reg.MERK_PRF_RSN_HI)) = false →
  a.openRecs.any (fun x => x.1 == a.reg64 Reg.MERK_PRF_RSN_LO Reg.MERK_PRF_RSN_HI) = false →
  ∃ u, exec (.proof t p v) s = .next u ∧ u.reg Reg.MERK_PRF_STAT = 3 * 2 ^ 28)

/-- A frame is counted and a host frame enters the receive ring; a change of a link is shown; PTP takes the state its messages and timeouts give it; HTX_WR moves; the timestamp queue loses its oldest entry; a trigger is armed, and fires at its tick; a capture latches its time. -/
def Obligations.EthernetAndPtpCommandsComplete : Prop :=
  /- ethFrameReceived -/ (∀ (t : Angle) (port : Fin 2) (frame : List Byte) (mac : Nat) (s : State), (s.tick t).ethUp port = true →
  ∃ u, exec (.ethFrameReceived t port false frame mac) s = .next u ∧
    u.reg (Reg.ETH_RX_OK port) = satAdd 32 ((s.tick t).reg (Reg.ETH_RX_OK port)) 1) ∧
  /- ethFrameReceived -/ (∀ (t : Angle) (port : Fin 2) (frame : List Byte) (mac : Nat) (s : State), (s.tick t).ethUp port = true → (s.tick t).rxFull = false →
  ((s.tick t).bump (Reg.ETH_RX_OK port)).frameKind port frame = .other →
  ∃ u, exec (.ethFrameReceived t port false frame mac) s = .next u ∧
    u.fld Reg.PCIE_HRX_WR 7 0 = ((s.tick t).fld Reg.PCIE_HRX_WR 7 0 + 1) % 256) ∧
  /- ethLinkChange -/ (∀ (t : Angle) (port : Fin 2) (speed : Fin 3) (s : State), ∃ u, exec (.ethLinkChange t port speed) s = .next u ∧
  u.flag (Reg.ETH_STAT port) 31 = (decide (speed.val ≠ 0) && (s.tick t).flag (Reg.ETH_CFG port) 0 &&
    ((s.tick t).fld (Reg.ETH_CFG port) 9 8 == 0 || (s.tick t).fld (Reg.ETH_CFG port) 9 8 == 3 || (s.tick t).fld (Reg.ETH_CFG port) 9 8 == speed.val))) ∧
  /- ptpMessage -/ (∀ (t : Angle) (m : PtpRx) (s : State), (s.tick t).flag Reg.PTP_CFG 0 = true → (s.tick t).ethUp m.port.val = true →
  (s.tick t).ptpTakes m = true → m.port.val + 1 = (s.tick t).ptpPort →
  ∃ u, exec (.ptpMessage t m) s = .next u ∧ u.fld Reg.PTP_STAT 31 29 = m.state.val) ∧
  /- ptpAnnounceTimeout -/ (∀ (t : Angle) (s : State), (s.tick t).flag Reg.PTP_CFG 0 = true →
  ∃ u, exec (.ptpAnnounceTimeout t) s = .next u ∧ u.fld Reg.PTP_STAT 31 29 = (if (s.tick t).sweep.taiKnown then 4 else 1)) ∧
  /- hostTx -/ (∀ (t : Angle) (p : Path) (v : Word) (slots : List (BitVec 8 × List Byte)) (stamps : List Nat) (s a : State),
  ((s.tick t).fillSlots slots).through p 0x53 0x058 true = some a →
  ∃ u, exec (.hostTx t p v slots stamps) s = .next u ∧ u.reg Reg.PCIE_HTX_WR = v.toNat % 256) ∧
  /- tsqPop -/ (∀ (t : Angle) (p : Path) (v : Word) (s a : State), (s.tick t).through p 0x06 0x074 true = some a → v.toNat.testBit 0 = true →
  ∃ u, exec (.tsqPop t p v) s = .next u ∧ u.ptp.tsq = a.ptp.tsq.drop 1) ∧
  /- triggerArm -/ (∀ (t : Angle) (p : Path) (n : Fin 4) (v : Word) (s a b : State), (s.tick t).through p 0x06 (0x108 + 0x20 * n) true = some a →
  a.plainWrite 0x06 (0x108 + 0x20 * n) v = .done b →
  ∃ u, exec (.triggerArm t p n v) s = .next u ∧ ∃ g, u.ptp.trigs.find n = some g ∧
    g.tai = ((b.reg (Reg.PTP_TRIG_SEC_LO n) + 2 ^ 32 * (b.reg (Reg.PTP_TRIG_SEC_HI n) % 65536)) * 1000000000 +
      b.fld (Reg.PTP_TRIG_NS n) 29 0) * 8) ∧
  /- triggerFire -/ (∀ (t : Angle) (n : Fin 4) (g : Trigger) (c : Nat) (s : State), (s.tick t).ptp.trigs.find n = some g → g.pin = some c → c ≤ (s.tick t).now →
  (s.tick t).flag (Reg.PTP_TRIG_CTL n) 0 = true → (s.tick t).calm = true →
  ∃ u, exec (.triggerFire t n) s = .next u ∧ u.ptp.fired.find n = some ((s.tick t).ptp.fired.getD n 0 + 1) ∧
    u.flag (Reg.PTP_TRIG_STAT n) 0 = true) ∧
  /- captureEvent -/ (∀ (t : Angle) (n : Fin 3) (src : Fin 8) (falling : Bool) (cap : Nat) (s : State), (s.tick t).flag (Reg.PTP_CAP_CTL n) 0 = true →
  (s.tick t).fld (Reg.PTP_CAP_CTL n) 7 4 = src → (s.tick t).flag (Reg.PTP_CAP_CTL n) 1 = falling →
  ∃ u, exec (.captureEvent t src falling cap) s = .next u ∧
    u.reg (Reg.PTP_CAP_NS n) = (s.tick t).ptpTime cap / 8 % 1000000000 ∧
    u.fld (Reg.PTP_CAP_CTL n) 31 16 = satAdd 16 ((s.tick t).fld (Reg.PTP_CAP_CTL n) 31 16) 1)

/-- A report takes the next slot of its ring, and its ring advances; the endpoint resets and trains; the service port is unlocked by the presence proof of slot 4 and locked again after its time; a transaction sets the pointer, and a read answers the word there. -/
def Obligations.EndpointAndServiceCommandsComplete : Prop :=
  /- reportPost -/ (∀ (t : Angle) (id : Nat) (o : Obligation) (s : State), (s.tick t).obl id = some o → o.cls = 2 →
  ((s.tick t).fld Reg.PCIE_RPT_WR 11 0 + 1) % 4096 ≠ (s.tick t).fld Reg.PCIE_RPT_RD 11 0 → (s.tick t).pageOff 0x53 = false →
  ∃ u, exec (.reportPost t id) s = .next u ∧ u.reg Reg.PCIE_RPT_WR = ((s.tick t).fld Reg.PCIE_RPT_WR 11 0 + 1) % 4096) ∧
  /- reportRingAdvance -/ (∀ (t : Angle) (p : Path) (v : Word) (s a : State), (s.tick t).through p 0x53 0x054 true = some a →
  ∃ u, exec (.reportRingAdvance t p v) s = .next u ∧ u.fld Reg.PCIE_RPT_RD 11 0 = v.toNat % 4096) ∧
  /- endpointReset -/ (∀ (t : Angle) (s : State), ∃ u, exec (.endpointReset t) s = .next u ∧ u.reg Reg.PCIE_STAT = 0 ∧
  u.reg Reg.PCIE_PERST = satAdd 32 ((s.tick t).reg Reg.PCIE_PERST) 1) ∧
  /- pcieLinkUp -/ (∀ (t : Angle) (gen : Fin 4) (width : Fin 3) (s : State), (s.tick t).flag Reg.PCIE_STAT 31 = false → (s.tick t).pageOff 0x53 = false →
  ∃ u, exec (.pcieLinkUp t gen width) s = .next u ∧ u.reg Reg.PCIE_STAT = 2 ^ 31 + gen.val * 2 ^ 16 + width.val * 2 ^ 8) ∧
  /- svcTransaction -/ (∀ (t : Angle) (x : SvcRx) (page : BitVec 8) (off : BitVec 12) (s : State), (s.tick t).dom 24 ≠ 4 →
  x.addr.toNat = (s.tick t).fld Reg.SVC_CFG 6 0 → x.pointer = some (page, off) → x.words = [] → x.reads = 0 →
  ∃ u, exec (.svcTransaction t x) s = .next u ∧ u.svcPtr = page.toNat * 4096 + off.toNat) ∧
  /- svcTransaction -/ (∀ (t : Angle) (addr : BitVec 7) (s : State), (s.tick t).dom 24 ≠ 4 → addr.toNat = (s.tick t).fld Reg.SVC_CFG 6 0 →
  ∃ u, exec (.svcTransaction t { addr := addr, pointer := none, words := [], reads := 1, naks := 0 }) s = .next u ∧
    u.out.head? = some (.word .svc (BitVec.ofNat 32
      (((s.tick t).bump Reg.SVC_NAK 0).readAny .svc ((s.tick t).svcPtr / 4096) ((s.tick t).svcPtr % 4096)).2))) ∧
  /- svcUnlock -/ (∀ (t : Angle) (p : Path) (v : Word) (s a : State), (s.tick t).through p 0x54 0x064 true = some a → a.hashRuns = true → a.secretOpen 4 = true →
  ((a.reg Reg.SVC_RESP0 * 2 ^ 32 + a.reg Reg.SVC_RESP1) * 2 ^ 32 + a.reg Reg.SVC_RESP2) * 2 ^ 32 + v.toNat = a.svcProof →
  ∃ u, exec (.svcUnlock t p v) s = .next u ∧ u.flag Reg.SVC_STAT 0 = true) ∧
  /- svcUnlockExpiry -/ (∀ (t : Angle) (s : State), (s.tick t).flag Reg.SVC_STAT 0 = true →
  (s.tick t).svcLast + (s.tick t).fld Reg.SVC_UNLOCK 15 0 ≤ (s.tick t).cycle →
  ∃ u, exec (.svcUnlockExpiry t) s = .next u ∧ u.flag Reg.SVC_STAT 0 = false)

/-- The initiating side sends HELLO_I in a new session; a responder that accepts it holds a session with that HELLO; a HELLO_R whose signature holds is answered with FIN_I, and another ends the handshake; a FIN_I whose signature holds opens the session, and another ends it; REFUSE, CLOSE, death and the age of an old session end it; PEER_W0 puts its entry into effect. -/
def Obligations.KfpHandshakeCommandsComplete : Prop :=
  /- handshakeStart -/ (∀ (t : Angle) (peer : BitVec 9) (e : Peer) (s : State), (s.tick t).peer peer.toNat = some e → e.initiate = true → (s.tick t).kfpRuns = true →
  (s.tick t).kfpServes peer.toNat = true → (∀ x, x ∈ (s.tick t).sessions → x.2.peer ≠ peer.toNat) →
  ∃ u, exec (.handshakeStart t peer) s = .next u ∧
    ∃ y, u.sessions.find (s.tick t).newSid = some y ∧ y.peer = peer.toNat ∧ y.initiator = true ∧ y.isOpen = false ∧ y.sent.1 = 1) ∧
  /- helloI -/ (∀ (t : Angle) (msg : List Byte) (p q : Nat) (e : Peer) (rest : List (Nat × Peer)) (s : State), msg.length = 4211 →
  (∀ x, x ∈ (s.tick t).sessions → x.2.peer ≠ p ∧ x.2.hello ≠ msg) → (s.tick t).peersOf ((msg.drop 1619).take 2592) = (q, e) :: rest →
  ((q, e) :: rest).find? (fun x => x.2.role == leAt msg 2 1) = some (p, e) →
  max (s.tick t).kfpMin (leAt msg 1 1) ≤ min (s.tick t).kfpMax (leAt msg 0 1) → (s.tick t).kfpRuns = true → (s.tick t).kfpServes p = true →
  ((s.tick t).sessions.filter (fun x => sameKind x.2.peer p && !x.2.initiator)).length < sessionLimit p → (s.tick t).sessRoom 2 = true →
  ∃ u, exec (.helloI t msg) s = .next u ∧
    ∃ y, u.sessions.find (s.tick t).newSid = some y ∧ y.peer = p ∧ y.hello = msg ∧ y.isOpen = false ∧ y.sent.1 = 2) ∧
  /- helloR -/ (∀ (t : Angle) (sid : Nat) (msg : List Byte) (x : Session) (e : Peer) (s : State), (s.tick t).sessions.find sid = some x → x.isOpen = false →
  x.initiator = true → x.sent.1 = 1 → 8837 ≤ msg.length → (s.tick t).peer x.peer = some e → (s.tick t).kfpMin ≤ leAt msg 0 1 →
  leAt msg 0 1 ≤ (s.tick t).kfpMax → Config.sha3 ((msg.drop 1618).take 2592) = e.hash → leAt msg 1 1 = e.role → (s.tick t).sessRoom 2 = true →
  ∃ u, exec (.helloR t sid msg) s = .next u ∧
    (if Config.verify ((msg.drop 1618).take 2592) (0x00 :: beBytes 64 (Config.sha3 (x.hello ++ msg.take (msg.length - 4627))).toNat) []
        (msg.drop (msg.length - 4627)) = true
      then ∃ y, u.sessions.find sid = some y ∧ y.sent.1 = 3 ∧ y.version = leAt msg 0 1
      else u.sessions.find sid = none)) ∧
  /- finI -/ (∀ (t : Angle) (sid : Nat) (sig : List Byte) (x : Session) (s : State), (s.tick t).sessions.find sid = some x → x.isOpen = false →
  x.initiator = false →
  ∃ u, exec (.finI t sid sig) s = .next u ∧
    (if Config.verify x.peerKey (0x00 :: beBytes 64 x.transcript.toNat ++ x.sig) [] sig = true
      then ∃ y, u.sessions.find sid = some y ∧ y.isOpen = true else u.sessions.find sid = none)) ∧
  /- refuse -/ (∀ (t : Angle) (sid : Nat) (reason : BitVec 8) (x : Session) (s : State), (s.tick t).sessions.find sid = some x → x.isOpen = false →
  ∃ u, exec (.refuse t sid reason) s = .next u ∧ u.sessions.find sid = none) ∧
  /- kfpClose -/ (∀ (t : Angle) (r : KfpRx) (x : Session) (s : State), (s.tick t).takesRecord r x = true →
  ∃ u, exec (.kfpClose t r) s = .next u ∧ u.sessions.find r.sid = none) ∧
  /- sessionDead -/ (∀ (t : Angle) (sid : Nat) (x : Session) (s : State), (s.tick t).sessions.find sid = some x →
  (s.tick t).sealedRoot = false →
  x.unacked.any (fun w => decide ((s.tick t).retxMax ≤ w.retx)) = true ∨ (x.isOpen = false ∧ (s.tick t).retxMax ≤ x.retx) ∨ x.lastRx + (s.tick t).deadCyc ≤ (s.tick t).cycle →
  ∃ u, exec (.sessionDead t sid) s = .next u ∧ u.sessions.find sid = none) ∧
  /- oldSessionClose -/ (∀ (t : Angle) (sid : Nat) (x : Session) (s : State), (s.tick t).sessions.find sid = some x → x.old = true →
  x.oldAt + 16000000000 ≤ (s.tick t).uptime →
  ∃ u, exec (.oldSessionClose t sid) s = .next u ∧ u.sessions.find sid = none) ∧
  /- peerEntryWrite -/ (∀ (t : Angle) (p : Path) (v : Word) (s a b : State), (s.tick t).through p 0x52 0x084 true = some a → a.fld Reg.FEED_PEER_SEL 8 0 ≠ 0 →
  a.fld Reg.FEED_PEER_SEL 8 0 ≤ 291 → a.plainWrite 0x52 0x084 v = .done b →
  ∃ u, exec (.peerEntryWrite t p v) s = .next u ∧ u.peers.find (a.fld Reg.FEED_PEER_SEL 8 0) = some (b.stagedPeer (a.fld Reg.FEED_PEER_SEL 8 0)))

/-- A new record of an open session is accepted under its SEQ and acknowledged at once where its type is PING, REGRSP or EVT; an ACK takes the acknowledged records from the unacknowledged ones; a STALE report of a higher epoch stops forwarding; a hub takes a leaf's frame or keeps it in the cover queue, a leaf's PER joins its period record, and its SEG too, which waits for its page; a REG record's response is kept under its SEQ; a retransmission and a keepalive leave; forwarding sends the closed period entries and moves on to the last of them. -/
def Obligations.KfpRecordCommandsComplete : Prop :=
  /- kfpAck -/ (∀ (t : Angle) (r : KfpRx) (x : Session) (s : State), (s.tick t).takesRecord r x = true →
  beAt r.body 0 8 < ((s.tick t).txKey (sessKey r.sid)).next → beAt r.body 0 8 ≠ 2 ^ 64 - 1 →
  ∃ u, exec (.kfpAck t r) s = .next u ∧ ∃ y, u.sessions.find r.sid = some y ∧ r.seq ∈ y.rxSeen ∧ ∀ w, w ∈ y.unacked → beAt r.body 0 8 < w.seq) ∧
  /- ping -/ (∀ (t : Angle) (r : KfpRx) (x : Session) (s : State), (s.tick t).takesRecord r x = true →
  ∃ u, exec (.ping t r) s = .next u ∧ (∃ y, u.sessions.find r.sid = some y ∧ r.seq ∈ y.rxSeen ∧ y.lastRx = (s.tick t).cycle) ∧
    ∀ n, (s.tick t).sendsAs r.sid x n = true → ∃ body, u.out.head? = some (.kfp x.peer 0x10 n body)) ∧
  /- stale -/ (∀ (t : Angle) (r : KfpRx) (x : Session) (s : State), (s.tick t).takesRecord r x = true → (s.tick t).nv.epoch < beAt r.body 0 4 →
  ∃ u, exec (.stale t r) s = .next u ∧ u.staleStop = true ∧ ∃ y, u.sessions.find r.sid = some y ∧ r.seq ∈ y.rxSeen) ∧
  /- fwd -/ (∀ (t : Angle) (r : KfpRx) (x : Session) (rsn cls : Nat) (payload : List Byte) (s : State), (s.tick t).takesRecord r x = true →
  r.more = false → x.part = none → (s.tick t).fromLeaf x = true → fwdFrames (r.body.length + 1) r.body = [(rsn, cls, payload)] →
  ((s.tick t).leaf x.peer).acked < rsn → cls ∈ [1, 2, 3, 5, 7] → validRecord cls payload = true →
  ∃ u, exec (.fwd t r) s = .next u ∧ (∃ y, u.sessions.find r.sid = some y ∧ r.seq ∈ y.rxSeen) ∧
    (rsn ≤ (u.leaf x.peer).acked ∨ ∃ c ∈ u.field.cover, c.leaf = x.peer ∧ c.fwd = some (r.sid, r.seq, rsn))) ∧
  /- per -/ (∀ (t : Angle) (r : KfpRx) (x : Session) (s : State), (s.tick t).takesRecord r x = true → r.more = false → x.part = none →
  (s.tick t).fromLeaf x = true → 20 + 4 * min 64 (beAt r.body 8 2) ≤ r.body.length →
  ∃ u, exec (.per t r) s = .next u ∧ (u.leaf x.peer).known = true ∧
    (u.leaf x.peer).record = placeRuns ((s.tick t).leaf x.peer).record (beAt r.body 0 8)
      ((List.range (min 64 (beAt r.body 8 2))).map (fun i => beAt r.body (20 + 4 * i) 4))) ∧
  /- seg -/ (∀ (t : Angle) (r : KfpRx) (x : Session) (s : State), (s.tick t).takesRecord r x = true → r.more = false → x.part = none →
  (s.tick t).fromLeaf x = true → (s.tick t).readOnly = false → 256 + 4 * min 4032 (leAt r.body 28 4) ≤ r.body.length →
  ∃ u, exec (.seg t r) s = .next u ∧ (x.peer, r.body.take 16384) ∈ u.led.leafSegs ∧
    (u.leaf x.peer).record = placeRuns ((s.tick t).leaf x.peer).record (leAt r.body 8 8)
      ((List.range (min 4032 (leAt r.body 28 4))).map (fun i => leAt r.body (256 + 4 * i) 4))) ∧
  /- reg -/ (∀ (t : Angle) (r : KfpRx) (x : Session) (s : State), (s.tick t).takesRecord r x = true → r.more = false → x.part = none →
  r.body.length = 12 → beAt r.body 0 1 = 1 →
  ∃ u, exec (.reg t r) s = .next u ∧ ∃ y ans, u.sessions.find r.sid = some y ∧ y.cache.head? = some (r.seq, ans) ∧ ans.length = 9) ∧
  /- regrsp -/ (∀ (t : Angle) (r : KfpRx) (x : Session) (s : State), (s.tick t).takesRecord r x = true →
  ∃ u, exec (.regrsp t r) s = .next u ∧ (∃ y, u.sessions.find r.sid = some y ∧ r.seq ∈ y.rxSeen ∧ y.lastRx = (s.tick t).cycle) ∧
    ∀ n, (s.tick t).sendsAs r.sid x n = true → ∃ body, u.out.head? = some (.kfp x.peer 0x10 n body)) ∧
  /- evt -/ (∀ (t : Angle) (r : KfpRx) (x : Session) (s : State), (s.tick t).takesRecord r x = true →
  ∃ u, exec (.evt t r) s = .next u ∧ (∃ y, u.sessions.find r.sid = some y ∧ r.seq ∈ y.rxSeen ∧ y.lastRx = (s.tick t).cycle) ∧
    ∀ n, (s.tick t).sendsAs r.sid x n = true → ∃ body, u.out.head? = some (.kfp x.peer 0x10 n body)) ∧
  /- kfpRetransmit -/ (∀ (t : Angle) (sid seq : Nat) (x : Session) (w : TxRecord) (s : State), (s.tick t).sessions.find sid = some x → (s.tick t).kfpServes x.peer = true →
  x.isOpen = true → x.unacked.find? (fun u => u.seq == seq) = some w → w.retx < (s.tick t).retxMax →
  ¬((s.tick t).staleStop = true ∧ stoppedType w.ftype = true) → w.sentAt + (s.tick t).rto w.retx ≤ (s.tick t).uptime →
  ∃ u, exec (.kfpRetransmit t sid seq) s = .next u ∧ u.out.head? = some (.kfp x.peer w.ftype w.seq w.body)) ∧
  /- keepalive -/ (∀ (t : Angle) (sid n : Nat) (x : Session) (s : State), (s.tick t).sessions.find sid = some x →
  x.lastTx + (s.tick t).kaCyc ≤ (s.tick t).cycle → (s.tick t).sendsAs sid x n = true →
  ∃ u, exec (.keepalive t sid) s = .next u ∧ u.out.head? = some (.kfp x.peer 0x11 n [])) ∧
  /- forwardSend -/ (∀ (t : Angle) (sid m n : Nat) (x : Session) (s : State), (s.tick t).sessions.find sid = some x → (s.tick t).forwards x = true →
  n = min 64 ((s.tick t).cycle - x.perAt) → 0 < n → (s.tick t).forwardFits x.peer ((s.tick t).perBody x.perAt n) = true →
  (s.tick t).sendsAs sid x m = true →
  ∃ u, exec (.forwardSend t sid) s = .next u ∧ .kfp x.peer 0x21 m ((s.tick t).perBody x.perAt n) ∈ u.out ∧
    ∃ y, u.sessions.find sid = some y ∧ y.perAt = x.perAt + n)

/-- A HELLO that nothing refuses pairs the twin; a completed sync is SYNCED; a mirrored item is applied; a mirror acknowledgement moves the acknowledged RSN, and its timeout degrades the pair; heartbeats leave and are taken; the twin's fence output is noted. -/
def Obligations.PairLinkCommandsComplete : Prop :=
  /- pairsHello -/ (∀ (t : Angle) (h : PairHello) (s : State),
  (s.tick t).pairState = 3 ∨ (s.tick t).pairState = 4 ∨ ((s.tick t).pairState = 0 ∧ (s.tick t).pairs.seeking = true) ∨
    (((s.tick t).pairState = 1 ∨ (s.tick t).pairState = 2) ∧ (s.tick t).syncState ≠ 2) →
  (s.tick t).linkWorks = true → (s.tick t).pairable = true → h.authentic = true →
  ((s.tick t).setFlag Reg.PAIRS_STAT 23 true).pairRefusal h = 0 →
  ∃ u, exec (.pairsHello t h) s = .next u ∧ u.nv.pairing = some h.serial ∧ u.syncState = 1 ∧ (u.pairState = 1 ∨ u.pairState = 2)) ∧
  /- syncComplete -/ (∀ (t : Angle) (s : State), (s.tick t).syncState = 1 → (s.tick t).pairState = 1 ∨ (s.tick t).pairState = 2 →
  ∃ u, exec (.syncComplete t) s = .next u ∧ u.syncState = 2) ∧
  /- mirrorItem -/ (∀ (t : Angle) (m : MirrorItem) (s : State), (s.tick t).pairState = 2 → (s.tick t).syncState ≠ 0 → (s.tick t).linkWorks = true →
  (s.tick t).readOnly = false → (s.tick t).pairs.waiting = [] → (s.tick t).takesItem m = true →
  ∃ u, exec (.mirrorItem t m) s = .next u ∧ u.pairs.waiting = [] ∧
    (∀ rsn cls leaf leafRsn payload, m = .record rsn cls leaf leafRsn payload →
      ((u.led.recs.find rsn).map (fun r => (r.cls, r.leaf, r.leafRsn, r.payload))) = some (cls, leaf, leafRsn, payload)) ∧
    (∀ ch b, m = .channel ch b → u.billing.chans.find ch = some b) ∧
    (∀ n y, m = .program n y → u.billing.programs.find n = some y) ∧
    (∀ n y, m = .account n y → u.billing.accounts.find n = some y) ∧
    (∀ id y, m = .instant id y → u.sweep.instants.find id = y) ∧
    (∀ sid y, m = .session sid y → u.pairs.kept.find sid = some y) ∧
    (∀ idx o, m = .obligation idx o → o.cls ≠ 3 → u.slalom.calendar.find idx = some o) ∧
    (∀ idx place e, m = .outcome idx place e → u.slalom.calendar.find idx = none ∧ u.slalom.ring.find place = some e) ∧
    (∀ id n, m = .node id n → u.node id = n) ∧
    (∀ key blocks, m = .key key blocks → (u.txKey key).blocks = blocks ∧ (u.txKey key).next = blocks * 4096) ∧
    (∀ ch at', m = .evaluated ch at' → (u.chan false ch).mirrored = some at')) ∧
  /- mirrorAck -/ (∀ (t : Angle) (rsn : Nat) (s : State), (s.tick t).pairState = 1 → (s.tick t).syncState ≠ 0 → (s.tick t).linkWorks = true →
  ∃ u, exec (.mirrorAck t rsn) s = .next u ∧ u.ackedRsn = max (s.tick t).ackedRsn (min rsn ((s.tick t).led.nextRsn - 1))) ∧
  /- mirrorAckTimeout -/ (∀ (t : Angle) (s : State), (s.tick t).pairState = 1 → (s.tick t).pairs.ackAt + 3 ≤ (s.tick t).cycle →
  ∃ u, exec (.mirrorAckTimeout t) s = .next u ∧ u.syncState = 3) ∧
  /- heartbeatSend -/ (∀ (t : Angle) (s : State), (s.tick t).pairState = 1 ∨ (s.tick t).pairState = 3 → (s.tick t).angle % 0x8000 = 0 → (s.tick t).linkWorks = true →
  (s.tick t).pairs.seen = true →
  ∃ u, exec (.heartbeatSend t) s = .next u ∧ ∃ body, u.out.head? = some (.pairs 0x48 body)) ∧
  /- heartbeatReceived -/ (∀ (t : Angle) (h : Heartbeat) (s : State), (s.tick t).pairState = 1 ∨ (s.tick t).pairState = 3 → (s.tick t).linkWorks = true →
  h.authentic = true → h.pairId.toNat = (s.tick t).pairId → ((h.time : Int) - (s.tick t).now).natAbs ≤ 0x0400 →
  ∃ u, exec (.heartbeatReceived t h) s = .next u ∧ u.pairs.lastHb = some (s.tick t).now ∧ u.pairs.twinEpoch = h.epoch) ∧
  /- fenceInput -/ (∀ (t : Angle) (drives : Bool) (s : State), ∃ u, exec (.fenceInput t drives) s = .next u ∧ u.pairs.twinDrives = drives) ∧
  /- supervisorRelease -/ (∀ (t : Angle) (s : State), ∃ u, exec (.supervisorRelease t) s = .next u ∧ u.flag Reg.PAIRS_STAT 21 = false)

/-- PAIR seeks a pairing, UNPAIR ends it at the next cycle, SWITCH schedules the sequence, YIELD reports a failure, FORCE and the switch at H:8000 raise the epoch; the home twin asks for its takeback; the ACTIVE twin stops and releases the fence at H:0000; the gap ends. -/
def Obligations.PairSwitchCommandsComplete : Prop :=
  /- pairsPair -/ (∀ (t : Angle) (p : Path) (s a : State), (s.tick t).through p 0x4C 0x080 true = some a → a.pfStop = false → a.pairState = 0 → a.pairable = true →
  ∃ u, exec (.pairsPair t p) s = .next u ∧ u.pairs.seeking = true) ∧
  /- pairsUnpair -/ (∀ (t : Angle) (p : Path) (s a : State), (s.tick t).through p 0x4C 0x080 true = some a → a.pfStop = false → a.pairState ≠ 0 → a.pairState ≠ 3 →
  ¬(a.pairState = 1 ∧ (a.syncState = 1 ∨ a.syncState = 2)) →
  ∃ u, exec (.pairsUnpair t p) s = .next u ∧ u.pairs.unpairing = true) ∧
  /- pairsSwitch -/ (∀ (t : Angle) (p : Path) (s a : State), (s.tick t).through p 0x4C 0x080 true = some a → a.pfStop = false → a.mayYield = true →
  ∃ u, exec (.pairsSwitch t p) s = .next u ∧ u.pairs.takeback = some (a.pickH, 4, false)) ∧
  /- pairsYield -/ (∀ (t : Angle) (p : Path) (s a : State), (s.tick t).through p 0x4C 0x080 true = some a → a.pfStop = false → a.pairState = 1 → a.syncState = 2 →
  a.fld Reg.PAIRS_TWIN_UNITS 15 0 < a.unitsLost → a.pairs.failing = false →
  ∃ u, exec (.pairsYield t p) s = .next u ∧ u.pairs.failing = true ∧ u.flag Reg.PAIRS_STAT 21 = false) ∧
  /- pairsForce -/ (∀ (t : Angle) (p : Path) (s a : State), (s.tick t).through p 0x4C 0x080 true = some a → a.pfStop = false → a.calm = true → a.pairState = 2 →
  a.syncState ≠ 2 → a.silent = true →
  ∃ u, exec (.pairsForce t p) s = .next u ∧ u.nv.epoch = (a.nv.epoch + 1) % 2 ^ 32) ∧
  /- takebackRequest -/ (∀ (t : Angle) (s : State), (s.tick t).pairState = 2 → max 3000 ((s.tick t).fld Reg.PAIRS_HOLD 15 0) ≤ (s.tick t).pairs.healthy →
  (s.tick t).pairs.takeback = none →
  ∃ u, exec (.takebackRequest t) s = .next u ∧ u.pairs.asking = true) ∧
  /- takebackStop -/ (∀ (t : Angle) (h code : Nat) (s : State), (s.tick t).pairs.takeback = some (h, code, false) → h ≤ (s.tick t).cycle →
  (s.tick t).pairs.stopped = false →
  ∃ u, exec (.takebackStop t) s = .next u ∧ u.pairs.stopped = true ∧ u.flag Reg.PAIRS_STAT 21 = false) ∧
  /- takebackSwitch -/ (∀ (t : Angle) (h code : Nat) (s : State), (s.tick t).pairs.takeback = some (h, code, true) → h * 65536 + 0x8000 ≤ (s.tick t).now →
  (s.tick t).calm = true → (s.tick t).pairState = 2 → (s.tick t).flag Reg.PAIRS_STAT 22 = false →
  ∃ u, exec (.takebackSwitch t) s = .next u ∧ u.nv.epoch = ((s.tick t).nv.epoch + 1) % 2 ^ 32) ∧
  /- switchoverGapEnd -/ (∀ (t : Angle) (s : State), (s.tick t).field.gapUntil ≠ 0 → (s.tick t).field.gapUntil ≤ (s.tick t).now →
  ∃ u, exec (.switchoverGapEnd t) s = .next u ∧ u.field.gapUntil = 0)

/-- An accepted token is the next transition and a refused one leaves none; PROVISION takes the owner's hash; a generated, imported or derived key enters its slot with its attributes, and a blob that does not unwrap leaves code 0x14; ZEROIZE empties the slot; an update that a power failure breaks off stands beside the slots, which keep what they held; PUB_IDX advances with a read; an asked block is reserved. -/
def Obligations.KeeperCommandsComplete : Prop :=
  /- lcSubmit -/ (∀ (t : Angle) (p : Path) (img : List Byte) (s a : State), ((s.tick t).store (s.reg Reg.KEEP_LC_OFS) img).through p 0x40 0x05C true = some a →
  p = .pcie ∨ p = .svc → a.pfStop = false → a.lcWait = none → a.field.gapUntil ≤ a.now → a.nv.next = none → a.handingOver = false →
  ∃ u, exec (.lcSubmit t p img) s = .next u ∧
    (if a.tokenCode (a.load (a.reg Reg.KEEP_LC_OFS) 7395) = 0
      then ∃ n, u.nv.next = some n ∧ n.target = leAt (a.load (a.reg Reg.KEEP_LC_OFS) 7395) 0x004 1
      else u.nv.next = none)) ∧
  /- lcProvision -/ (∀ (t : Angle) (p : Path) (img : List Byte) (s a : State), ((s.tick t).store (s.reg Reg.KEEP_LC_OFS) img).through p 0x40 0x05C true = some a →
  p = .pcie ∨ p = .svc → a.pfStop = false → a.lcWait = none → a.field.gapUntil ≤ a.now → a.nv.next = none → a.handingOver = false →
  a.provisionCode (a.load (a.reg Reg.KEEP_LC_OFS) 7395) = 0 →
  ∃ u, exec (.lcProvision t p img) s = .next u ∧ u.nv.next = some { target := 2 } ∧
    u.nv.ownerHash = tokenHash (a.load (a.reg Reg.KEEP_LC_OFS) 7395) 0x030) ∧
  /- keyGenerate -/ (∀ (t : Angle) (p : Path) (s a : State), (s.tick t).through p 0x40 0x0A0 true = some a → a.pfStop = false → a.nv.half = none → a.createCode 1 = 0 →
  ∃ u, exec (.keyGenerate t p none) s = .next u ∧ (u.slot (a.fld Reg.KEEP_KC_SLOT 7 0)).attr = a.newAttr 0) ∧
  /- keyGenerate -/ (∀ (t : Angle) (p : Path) (marked : Bool) (s a : State), (s.tick t).through p 0x40 0x0A0 true = some a → a.pfStop = false →
  a.nv.half = none → a.createCode 1 = 0 →
  ∃ u, exec (.keyGenerate t p (some marked)) s = .next u ∧ u.nv.slots = a.nv.slots ∧
    ∃ h, u.nv.half = some h ∧ h.slot = a.fld Reg.KEEP_KC_SLOT 7 0 ∧ h.new.attr = a.newAttr 0 ∧ h.marked = marked) ∧
  /- keyImport -/ (∀ (t : Angle) (p : Path) (img : List Byte) (s a : State), ((s.tick t).store (s.reg Reg.KEEP_KC_OFS) img).through p 0x40 0x0A0 true = some a →
  a.pfStop = false → a.nv.half = none → a.createCode 2 = 0 → a.slotOpen (a.fld Reg.KEEP_KC_SLOT 15 8) = true →
  attrType (a.slot (a.fld Reg.KEEP_KC_SLOT 15 8)).attr = 3 → attrDest (a.slot (a.fld Reg.KEEP_KC_SLOT 15 8)).attr = 15 →
  attrUse (a.slot (a.fld Reg.KEEP_KC_SLOT 15 8)).attr 1 = true →
  (a.load (a.reg Reg.KEEP_KC_OFS) (a.reg Reg.KEEP_KC_LEN % 2 ^ 23)).take 16 = a.blobHead →
  ∃ u, exec (.keyImport t p img none) s = .next u ∧
    (match Config.unwrap (Config.kdf (a.slot (a.fld Reg.KEEP_KC_SLOT 15 8)).key
        (a.blobHead ++ [0x4B, 0x56, 0x5A, 0x20, 0x69, 0x6D, 0x70, 0x6F, 0x72, 0x74])).toNat
        ((a.load (a.reg Reg.KEEP_KC_OFS) (a.reg Reg.KEEP_KC_LEN % 2 ^ 23)).drop 16) with
    | some key => (u.slot (a.fld Reg.KEEP_KC_SLOT 7 0)).key = key ∧ (u.slot (a.fld Reg.KEEP_KC_SLOT 7 0)).attr = a.newAttr 1
    | none => u.reg Reg.KEEP_KC_RES = 2 ^ 29 + 0x14)) ∧
  /- keyImportKem -/ (∀ (t : Angle) (p : Path) (img : List Byte) (s a : State), ((s.tick t).store (s.reg Reg.KEEP_KC_OFS) img).through p 0x40 0x0A0 true = some a →
  a.pfStop = false → a.nv.half = none → a.createCode 3 = 0 → a.slotOpen 2 = true →
  (a.load (a.reg Reg.KEEP_KC_OFS) (a.reg Reg.KEEP_KC_LEN % 2 ^ 23)).take 16 = a.blobHead →
  ∃ u, exec (.keyImportKem t p img none) s = .next u ∧
    ((u.slot (a.fld Reg.KEEP_KC_SLOT 7 0)).attr = a.newAttr 1 ∧ u.reg Reg.KEEP_KC_RES = 2 ^ 28 ∨
      u.reg Reg.KEEP_KC_RES = 2 ^ 29 + 0x14)) ∧
  /- keyDerive -/ (∀ (t : Angle) (p : Path) (img : List Byte) (form : Nat) (s a : State),
  ((s.tick t).store (s.reg Reg.KEEP_KC_OFS) img).through p 0x40 0x0A0 true = some a →
  a.pfStop = false → a.nv.half = none → a.createCode 4 = 0 → a.slotOpen (a.fld Reg.KEEP_KC_SLOT 15 8) = true →
  (attrDest (a.slot (a.fld Reg.KEEP_KC_SLOT 15 8)).attr = 15 → attrUse (a.slot (a.fld Reg.KEEP_KC_SLOT 15 8)).attr 0 = true) →
  deriveForm (attrType (a.slot (a.fld Reg.KEEP_KC_SLOT 15 8)).attr)
    (if attrDest (a.slot (a.fld Reg.KEEP_KC_SLOT 15 8)).attr = 15 then 2 else attrDest (a.slot (a.fld Reg.KEEP_KC_SLOT 15 8)).attr)
    (attrType (a.fld Reg.KEEP_KC_ATTR 31 16)) (attrDest (a.fld Reg.KEEP_KC_ATTR 31 16)) (a.reg Reg.KEEP_KC_LEN) = some form →
  ∃ u, exec (.keyDerive t p img none) s = .next u ∧ (u.slot (a.fld Reg.KEEP_KC_SLOT 7 0)).attr = a.newAttr 2 ∧
    (u.slot (a.fld Reg.KEEP_KC_SLOT 7 0)).key = (Config.kdf (a.slot (a.fld Reg.KEEP_KC_SLOT 15 8)).key
      (leBytes 1 form ++ a.load (a.reg Reg.KEEP_KC_OFS) (a.reg Reg.KEEP_KC_LEN))).toNat) ∧
  /- keyZeroize -/ (∀ (t : Angle) (p : Path) (s a : State), (s.tick t).through p 0x40 0x0A0 true = some a → a.pfStop = false → a.nv.half = none → a.nv.next = none →
  a.handingOver = false → a.fld Reg.KEEP_KC_SLOT 7 0 < 5 ∨ 7 < a.fld Reg.KEEP_KC_SLOT 7 0 → a.slotSealed (a.fld Reg.KEEP_KC_SLOT 7 0) = false →
  ∃ u, exec (.keyZeroize t p none) s = .next u ∧ (u.slot (a.fld Reg.KEEP_KC_SLOT 7 0)).attr = 0 ∧ (u.slot (a.fld Reg.KEEP_KC_SLOT 7 0)).key = 0) ∧
  /- keyZeroize -/ (∀ (t : Angle) (p : Path) (marked : Bool) (s a : State), (s.tick t).through p 0x40 0x0A0 true = some a → a.pfStop = false →
  a.nv.half = none → a.nv.next = none → a.handingOver = false → a.fld Reg.KEEP_KC_SLOT 7 0 < 5 ∨ 7 < a.fld Reg.KEEP_KC_SLOT 7 0 →
  a.slotSealed (a.fld Reg.KEEP_KC_SLOT 7 0) = false →
  ∃ u, exec (.keyZeroize t p (some marked)) s = .next u ∧ u.nv.slots = a.nv.slots ∧
    ∃ h, u.nv.half = some h ∧ h.slot = a.fld Reg.KEEP_KC_SLOT 7 0 ∧ h.new.key = 0 ∧ h.marked = marked) ∧
  /- pubRead -/ (∀ (t : Angle) (p : Path) (s a : State), (s.tick t).through p 0x40 0x0C8 false = some a →
  ∃ u, exec (.pubRead t p) s = .next u ∧ u.fld Reg.KEEP_PUB_IDX 9 0 = (a.fld Reg.KEEP_PUB_IDX 9 0 + 1) % 1024) ∧
  /- reservationWritten -/ (∀ (t : Angle) (key : Nat) (acked : Bool) (s : State), ((s.tick t).txKey key).asked = true →
  ∃ u, exec (.reservationWritten t key acked) s = .next u ∧
    u.reg Reg.KEEP_RSV_WRITES = satAdd 32 ((s.tick t).reg Reg.KEEP_RSV_WRITES) 1 ∧
    (key < 0x100000 → (u.txKey key).blocks = ((s.tick t).txKey key).blocks + 1))

/-- A written JR_WR stands unless it passes the ring; a segment's end frees the held key; the oldest running job ends and JR_DONE passes it; JR_ACK moves; a failed generator stalls the engines, its timeout ends their jobs, and its recovery ends the stall; an alarm is noted and clears. -/
def Obligations.CryptoEngineCommandsComplete : Prop :=
  /- jobSubmit -/ (∀ (t : Angle) (p : Path) (e : Fin 4) (v : Word) (imgs : List (BitVec 23 × List Byte)) (s a : State),
  (imgs.foldl (fun (s : State) i => s.store i.1.toNat i.2) (s.tick t)).through p (enginePage e) 0x048 true = some a →
  ringDist (a.jrRd e) (bits 8 0 v.toNat) ≤ a.ringSize e →
  ∃ u, exec (.jobSubmit t p e v imgs) s = .next u ∧ u.jrWr e = bits 8 0 v.toNat) ∧
  /- jobSegmentEnd -/ (∀ (t : Angle) (e : Fin 4) (s : State), ((s.tick t).engine e).running ≠ [] →
  ∃ u, exec (.jobSegmentEnd t e) s = .next u ∧ (u.engine e).held = none ∧ (u.engine e).running = ((s.tick t).engine e).running) ∧
  /- jobComplete -/ (∀ (t : Angle) (e : Fin 4) (iters : BitVec 10) (fault : Bool) (x : CryptoJob) (rest : List CryptoJob) (s : State),
  ((s.tick t).engine e).running = x :: rest → (s.tick t).engineState e < 2 → (s.tick t).resLost (0x20 + e) = false → Job.op ((s.tick t).jobAt e x.idx) ≠ 2 →
  ∃ u, exec (.jobComplete t e iters fault) s = .next u ∧ u.jrDone e = (x.idx + 1) % 512) ∧
  /- jrAck -/ (∀ (t : Angle) (p : Path) (e : Fin 4) (v : Word) (s a : State), (s.tick t).through p (enginePage e) 0x054 true = some a →
  ringDist (a.engine e).acked (bits 8 0 v.toNat) ≤ ringDist (a.engine e).acked (a.jrDone e) →
  ∃ u, exec (.jrAck t p e v) s = .next u ∧ (u.engine e).acked = bits 8 0 v.toNat) ∧
  /- rngFail -/ (∀ (t : Angle) (s : State), (s.tick t).crypto.rngBad = none →
  ∃ u, exec (.rngFail t) s = .next u ∧ u.crypto.rngBad = some (s.tick t).uptime) ∧
  /- rngTimeout -/ (∀ (t : Angle) (c : Nat) (s : State), (s.tick t).crypto.rngBad = some c → c + 8000000 ≤ (s.tick t).uptime →
  ∃ u, exec (.rngTimeout t) s = .next u ∧ ∀ e : Fin 4, (u.engine e).running = []) ∧
  /- rngRecovery -/ (∀ (t : Angle) (s : State), (s.tick t).crypto.rngBad ≠ none →
  ∃ u, exec (.rngRecovery t) s = .next u ∧ u.crypto.rngBad = none) ∧
  /- cryptoAlarm -/ (∀ (t : Angle) (sensors : BitVec 5) (s : State), sensors ≠ 0 →
  ∃ u, exec (.cryptoAlarm t sensors) s = .next u ∧
    u.crypto.alarmAt = some ((s.tick t).crypto.alarmAt.getD (s.tick t).cycle)) ∧
  /- alarmClear -/ (∀ (t : Angle) (s : State), (s.tick t).crypto.alarmAt ≠ none →
  ∃ u, exec (.alarmClear t) s = .next u ∧ u.crypto.alarmAt = none)

/-- A domain that the host turns off reads OFF and one that it turns on reads RUN; an entry into DOZE or RETAIN is made, refused with its record, or aborted; a pre-wake, a wake source and an access that times out act on the domain; the first missed wake is retried and the second one puts the domain in FAILED; a failed clock is marked. -/
def Obligations.DomainCommandsComplete : Prop :=
  /- domainOff -/ (∀ (t : Angle) (p : Path) (s a : State), (s.tick t).through p 0x02 0x068 true = some a → mayOff (a.fld Reg.PWR_DOM_SEL 4 0) = true →
  domainAbsent a.fac.variant (a.fld Reg.PWR_DOM_SEL 4 0) = false → a.dom (a.fld Reg.PWR_DOM_SEL 4 0) ≠ 4 →
  ∃ u, exec (.domainOff t p) s = .next u ∧ u.dom (a.fld Reg.PWR_DOM_SEL 4 0) = 3) ∧
  /- domainOn -/ (∀ (t : Angle) (p : Path) (s a : State), (s.tick t).through p 0x02 0x068 true = some a → mayOff (a.fld Reg.PWR_DOM_SEL 4 0) = true →
  domainAbsent a.fac.variant (a.fld Reg.PWR_DOM_SEL 4 0) = false → a.dom (a.fld Reg.PWR_DOM_SEL 4 0) = 3 →
  ∃ u, exec (.domainOn t p) s = .next u ∧ u.dom (a.fld Reg.PWR_DOM_SEL 4 0) = 0) ∧
  /- domainDoze -/ (∀ (t : Angle) (d : BitVec 5) (refusers : List (BitVec 8)) (timer : Nat) (s : State), (s.tick t).idleTimer d.toNat = some timer →
  mayDoze d.toNat = true → (s.tick t).dom d.toNat = 0 → timer ≤ (s.tick t).fld (domKey d.toNat) 15 0 →
  domainAbsent s.fac.variant d.toNat = false → (s.tick t).firstRefuser d.toNat refusers = none →
  ∃ u, exec (.domainDoze t d refusers none) s = .next u ∧ u.dom d.toNat = 1) ∧
  /- domainDoze -/ (∀ (t : Angle) (d : BitVec 5) (refusers : List (BitVec 8)) (abort : Option (BitVec 8)) (timer id : Nat) (s : State),
  (s.tick t).idleTimer d.toNat = some timer → mayDoze d.toNat = true → (s.tick t).dom d.toNat = 0 →
  timer ≤ (s.tick t).fld (domKey d.toNat) 15 0 → domainAbsent s.fac.variant d.toNat = false →
  (s.tick t).firstRefuser d.toNat refusers = some id →
  ∃ u, exec (.domainDoze t d refusers abort) s = .next u ∧ u.dom d.toNat = 0 ∧
    u.reg Reg.PWR_LASTREF = (id * 2 ^ 24 + d.toNat * 2 ^ 16) % 2 ^ 32) ∧
  /- domainRetain -/ (∀ (t : Angle) (d : BitVec 5) (refusers : List (BitVec 8)) (abort : Option (BitVec 8)) (s : State), mayRetain d.toNat = true →
  (s.tick t).dom d.toNat = 1 → (∀ p ∈ domainPages d.toNat, (s.tick t).flag (p * 0x1000 + 0x024) 31 = true) →
  (s.tick t).keepsFrontEnd d.toNat = false →
  (∀ p ∈ domainPages d.toNat, max 1 ((s.tick t).fld (p * 0x1000 + 0x024) 23 16) ≤ (s.tick t).idleRetain.getD d.toNat 0) →
  (s.tick t).firstRefuser d.toNat refusers = none →
  ∃ u, exec (.domainRetain t d refusers abort) s = .next u ∧ u.dom d.toNat = (if abort.isSome then 0 else 2)) ∧
  /- preWake -/ (∀ (t : Angle) (d : BitVec 5) (s : State), (s.tick t).dom d.toNat = 1 ∨ (s.tick t).dom d.toNat = 2 ∨ (s.tick t).dom d.toNat = 5 ∨
  (s.tick t).dom d.toNat = 6 →
  ∃ u, exec (.preWake t d) s = .next u ∧ u.dom d.toNat = 0) ∧
  /- wakeSource -/ (∀ (t : Angle) (src lane : Fin 6) (frame : List Byte) (d : Nat) (s : State), src.val ≠ 1 → src.val ≠ 2 →
  (src.val = 3 → (s.tick t).wakeMatch frame = true) → d < 25 →
  (s.tick t).wakeEnabled d (24 + src.val) = true → (s.tick t).dom d = 1 ∨ (s.tick t).dom d = 2 →
  ∃ u, exec (.wakeSource t src lane frame) s = .next u ∧ u.dom d = 0) ∧
  /- wakeSource -/ (∀ (t : Angle) (lane : Fin 6) (frame : List Byte) (d : Nat) (s : State), (s.tick t).dom (11 + lane.val / 2) = 0 ∨ (s.tick t).dom (11 + lane.val / 2) = 1 → d < 25 →
  (s.tick t).wakeEnabled d 25 = true → (s.tick t).dom d = 1 ∨ (s.tick t).dom d = 2 →
  ∃ u, exec (.wakeSource t 1 lane frame) s = .next u ∧ u.dom d = 0) ∧
  /- wakeSource -/ (∀ (t : Angle) (lane : Fin 6) (frame : List Byte) (d : Nat) (s : State), (s.tick t).dom (14 + lane.val % 2) = 0 ∨ (s.tick t).dom (14 + lane.val % 2) = 1 → d < 25 →
  (s.tick t).wakeEnabled d 26 = true → (s.tick t).dom d = 1 ∨ (s.tick t).dom d = 2 →
  ∃ u, exec (.wakeSource t 2 lane frame) s = .next u ∧ u.dom d = 0) ∧
  /- wakeAccessTimeout -/ (∀ (t : Angle) (p : Path) (page : BitVec 8) (off : BitVec 12) (write : Bool) (s : State),
  (s.tick t).dom (pageDomain page.toNat) = 1 ∨ (s.tick t).dom (pageDomain page.toNat) = 2 ∨ (s.tick t).dom (pageDomain page.toNat) = 6 →
  ∃ u, exec (.wakeAccessTimeout t p page off write) s = .next u ∧ u.dom (pageDomain page.toNat) = 6 ∧
    (write = false → ∃ rest, u.out = .word p 0 :: rest)) ∧
  /- wakeFail -/ (∀ (t : Angle) (d : BitVec 5) (s : State), d.toNat < 25 → (s.tick t).dom d.toNat = 2 ∨ (s.tick t).dom d.toNat = 3 ∨ (s.tick t).dom d.toNat = 5 →
  ∃ u, exec (.wakeFail t d) s = .next u ∧ u.dom d.toNat = 6 ∧ u.fld (domKey d.toNat) 28 27 = 1) ∧
  /- wakeFail -/ (∀ (t : Angle) (d : BitVec 5) (s : State), d.toNat < 25 → (s.tick t).dom d.toNat = 6 → 1 ≤ (s.tick t).fld (domKey d.toNat) 28 27 →
  domainAbsent s.fac.variant d.toNat = false →
  ∃ u, exec (.wakeFail t d) s = .next u ∧ u.dom d.toNat = 4) ∧
  /- clockFail -/ (∀ (t : Angle) (cd : Fin 14) (s : State), cd.val ≠ 11 →
  ∃ u, exec (.clockFail t cd) s = .next u ∧ u.clocks.getD cd.val 0 = 1)

/-- A warning outside service puts the module in VIGIL, or in the CRIT hold for its thermal cause, and one in service closes the SHUTDOWN group; after PARKED the module enters VIGIL, or restarts where the supply returns; mains-on and the end of the thermal hold restart it; a temperature reading is shown with its level. -/
def Obligations.SupplyAndThermalCommandsComplete : Prop :=
  /- pwrFailWarn -/ (∀ (t : Angle) (cause : Fin 3) (s : State), (s.tick t).warns cause = true → (s.tick t).fld Reg.PWR_PWRSTAT 31 29 = 0 →
  (s.tick t).boot.hold ≠ 1 → (s.tick t).boot.hold ≠ 2 → (s.tick t).boot.kind = none → (s.tick t).boot.done.contains 10 = false →
  ∃ u, exec (.pwrFailWarn t cause) s = .next u ∧ u.boot.hold = (if cause.val = 2 then 2 else 1) ∧ u.dom 1 = 3) ∧
  /- pwrFailWarn -/ (∀ (t : Angle) (cause : Fin 3) (s b : State), (s.tick t).warns cause = true → (s.tick t).fld Reg.PWR_PWRSTAT 31 29 = 0 →
  (s.tick t).boot.hold ≠ 1 → (s.tick t).boot.hold ≠ 2 → (s.tick t).boot.kind = none → (s.tick t).boot.done.contains 10 = true →
  (s.tick t).storeRuns = true → b = (((s.tick t).setFld Reg.PWR_PWRSTAT 31 29 (cause.val + 1)).raise 0x02 0).shed.stopWriting →
  b.storeRuns = true → b.shutdownOpen.groupFits 1 = true →
  ∃ u, exec (.pwrFailWarn t cause) s = .next u ∧ ∃ gs g, u.led.groups = gs ++ [g] ∧ g.flags % 2 = 1) ∧
  /- pwrFailWarn -/ (∀ (t : Angle) (cause : Fin 3) (k : Nat × Nat) (s : State), (s.tick t).warns cause = true → (s.tick t).fld Reg.PWR_PWRSTAT 31 29 = 0 →
  (s.tick t).boot.hold ≠ 1 → (s.tick t).boot.hold ≠ 2 → (s.tick t).boot.kind = some k →
  ∃ u, exec (.pwrFailWarn t cause) s = .next u ∧ u.boot.kind = none) ∧
  /- vigilEntry -/ (∀ (t : Angle) (s : State), (s.tick t).fld Reg.LEDG_STAT 31 29 = 2 → (s.tick t).boot.hold = 0 → (s.tick t).boot.kind = none →
  ∃ u, exec (.vigilEntry t) s = .next u ∧ u.boot.hold = 1 ∧ u.fld Reg.SWEEP_LOCKSTAT 2 0 = 0) ∧
  /- supplyReturn -/ (∀ (t : Angle) (s : State), (s.tick t).fld Reg.LEDG_STAT 31 29 = 2 → (s.tick t).boot.hold = 0 → (s.tick t).boot.kind = none →
  ∃ u, exec (.supplyReturn t) s = .next u ∧ u.boot.done = [] ∧ u.reg Reg.SYS_RSTCAUSE = 0x11) ∧
  /- mainsOn -/ (∀ (t : Angle) (vigilLost l1 : Bool) (s : State), (s.tick t).boot.hold = 1 →
  ∃ u, exec (.mainsOn t vigilLost l1) s = .next u ∧ u.boot.done = [] ∧ u.boot.hold = 0 ∧ u.reg Reg.SYS_RSTCAUSE = 1 ∧
    u.fld Reg.PWR_PWRSTAT 25 24 = (if l1 then 1 else 2)) ∧
  /- thermalHoldEnd -/ (∀ (t : Angle) (base : BitVec 8) (s : State), (s.tick t).boot.hold = 2 → base.toNat ≤ 130 →
  ∃ u, exec (.thermalHoldEnd t base) s = .next u ∧ u.boot.done = [] ∧ u.boot.hold = 0 ∧ u.reg Reg.SYS_RSTCAUSE = 4) ∧
  /- thermalLevel -/ (∀ (t : Angle) (base die bank : BitVec 8) (s : State), (s.tick t).fld Reg.THERM_TSTAT 1 0 ≤ 1 ∨
  2 ≤ (s.tick t).thermalLevel base.toNat die.toNat ((s.tick t).critHeld base.toNat die.toNat) →
  ∃ u, exec (.thermalLevel t base die bank) s = .next u ∧
    u.reg Reg.THERM_TNOW = bank.toNat * 65536 + die.toNat * 256 + base.toNat ∧
    u.fld Reg.THERM_TSTAT 1 0 = (s.tick t).thermalLevel base.toNat die.toNat ((s.tick t).critHeld base.toNat die.toNat))

/-- The key requests a reset one cycle after its write; the watchdog and the pin reset a module whose store does not run at once, and wait for the SHUTDOWN commit of one whose store runs; a BLOCK reset returns the power control of its page to its reset value. -/
def Obligations.ResetCommandsComplete : Prop :=
  /- sysReset -/ (∀ (t : Angle) (p : Path) (v : Word) (s a : State), (s.tick t).through p 0x00 0x068 true = some a → v = 0x53595354 →
  ∃ u, exec (.sysReset t p v) s = .next u ∧ u.boot.due = some (2, 0, a.cycle + 1)) ∧
  /- watchdogReset -/ (∀ (t : Angle) (s : State), (s.tick t).boot.kind = none → (s.tick t).boot.hold ≠ 1 → (s.tick t).boot.hold ≠ 2 → (s.tick t).storeRuns = false →
  ∃ u, exec (.watchdogReset t) s = .next u ∧ u.boot.done = [1, 3] ∧ u.reg Reg.SYS_RSTCAUSE = 0x12) ∧
  /- watchdogReset -/ (∀ (t : Angle) (s : State), (s.tick t).boot.kind = none → (s.tick t).boot.hold ≠ 1 → (s.tick t).boot.hold ≠ 2 → (s.tick t).storeRuns = true →
  (s.tick t).pfStop = false →
  ∃ u, exec (.watchdogReset t) s = .next u ∧ u.boot.kind = some (2, 1)) ∧
  /- resetPin -/ (∀ (t : Angle) (s : State), (s.tick t).pfStop = false → (s.tick t).boot.kind = none → (s.tick t).boot.hold ≠ 1 → (s.tick t).boot.hold ≠ 2 →
  (s.tick t).storeRuns = false →
  ∃ u, exec (.resetPin t) s = .next u ∧ u.boot.done = [1, 3] ∧ u.reg Reg.SYS_RSTCAUSE = 2) ∧
  /- resetPin -/ (∀ (t : Angle) (s : State), (s.tick t).pfStop = false → (s.tick t).boot.kind = none → (s.tick t).boot.hold ≠ 1 → (s.tick t).boot.hold ≠ 2 →
  (s.tick t).storeRuns = true →
  ∃ u, exec (.resetPin t) s = .next u ∧ u.boot.kind = some (2, 0)) ∧
  /- blockReset -/ (∀ (t : Angle) (p : Path) (page : BitVec 8) (s a : State), (s.tick t).through p page.toNat 0x00C true = some a →
  ∃ u, exec (.blockReset t p page) s = .next u ∧ u.reg (page.toNat * 0x1000 + 0x024) = 0)

/-- Step 1 counts the power cycle; step 2 boots an image that verifies; step 4 takes the accepted transition; step 5 ends unless external scan is asked for, which holds the module; step 6 takes the bank's capacitance; step 7 makes a store that is not valid read-only outside FACTORY and RECOVERY; step 8 waits for the twin, and ends at its timeout; step 9 asks for a recomputation; step 10 ends the start-up. -/
def Obligations.StartupCommandsComplete : Prop :=
  /- startupStep -/ (∀ (t : Angle) (s : State), (s.tick t).stepReady 1 = true → (s.tick t).reg Reg.SYS_RSTCAUSE = 0 ∨ (s.tick t).fld Reg.SYS_RSTCAUSE 2 0 = 1 →
  ∃ u, exec (.startupStep t .supply) s = .next u ∧ 1 ∈ u.boot.done ∧
    u.reg Reg.TAMP_PWRCYC = satAdd 32 ((s.tick t).reg Reg.TAMP_PWRCYC) 1) ∧
  /- startupStep -/ (∀ (t : Angle) (card : Option CardRx) (n : Nat) (s : State), (s.tick t).stepReady 2 = true → (s.tick t).roleSlot 2 = none →
  (s.tick t).roleSlot 1 = some n → (s.tick t).bootsImage ((s.tick t).image n).cart = true →
  ∃ u, exec (.startupStep t (.boot card)) s = .next u ∧ 2 ∈ u.boot.done) ∧
  /- startupStep -/ (∀ (t : Angle) (s : State), (s.tick t).stepReady 3 = true → ∃ u, exec (.startupStep t .sweep) s = .next u ∧ 3 ∈ u.boot.done) ∧
  /- startupStep -/ (∀ (t : Angle) (intact : Bool) (n : LcNext) (s : State), (s.tick t).stepReady 4 = true → (s.tick t).nv.next = some n →
  intact = true ∨ (n.target ≠ 2 ∧ n.target ≠ 3) →
  ∃ u, exec (.startupStep t (.keeper intact)) s = .next u ∧ 4 ∈ u.boot.done ∧ u.nv.lc = n.target ∧ u.nv.prev = (s.tick t).nv.lc) ∧
  /- startupStep -/ (∀ (t : Angle) (intact : Bool) (s : State), (s.tick t).stepReady 4 = true → (s.tick t).nv.next = none →
  ∃ u, exec (.startupStep t (.keeper intact)) s = .next u ∧ 4 ∈ u.boot.done ∧
    u.nv.lc = (if intact = false ∧ ((s.tick t).nv.lc = 2 ∨ (s.tick t).nv.lc = 3) then 5 else (s.tick t).nv.lc)) ∧
  /- startupStep -/ (∀ (t : Angle) (ms : Nat) (tests : List BlockTest) (queues : List (Fin 32)) (s : State), (s.tick t).stepReady 5 = true →
  (s.tick t).flag Reg.BIST_SCANCTL 0 = false →
  ∃ u, exec (.startupStep t (.selfTest ms tests queues)) s = .next u ∧ 5 ∈ u.boot.done ∧ u.fld Reg.BIST_STAT 10 0 = min ms 1200) ∧
  /- startupStep -/ (∀ (t : Angle) (ms : Nat) (tests : List BlockTest) (queues : List (Fin 32)) (s : State), (s.tick t).stepReady 5 = true →
  (s.tick t).flag Reg.BIST_SCANCTL 0 = true →
  ∃ u, exec (.startupStep t (.selfTest ms tests queues)) s = .next u ∧ u.boot.hold = 3 ∧ u.mem = []) ∧
  /- startupStep -/ (∀ (t : Angle) (c v : BitVec 16) (s : State), (s.tick t).stepReady 6 = true →
  ∃ u, exec (.startupStep t (.bank c v)) s = .next u ∧ 6 ∈ u.boot.done ∧ u.reg Reg.PWR_BANKCAL = c.toNat ∧
    u.fld Reg.PWR_CELL 15 0 = v.toNat ∧ u.flag Reg.PWR_CELL 30 = decide (v.toNat < 2600)) ∧
  /- startupStep -/ (∀ (t : Angle) (readable : Bool) (stop : Option (BitVec 64)) (reads : List (BitVec 19 × StripeRead)) (s : State), (s.tick t).stepReady 7 = true → readable = false ∨ (s.tick t).led.formatted = false →
  (s.tick t).nv.lc ≠ 1 → (s.tick t).nv.lc ≠ 5 →
  ∃ u, exec (.startupStep t (.mount readable stop reads)) s = .next u ∧ 7 ∈ u.boot.done ∧ u.fld Reg.LEDG_STAT 31 29 = 3) ∧
  /- startupStep -/ (∀ (t : Angle) (readable : Bool) (stop : Option (BitVec 64)) (reads : List (BitVec 19 × StripeRead)) (s : State), (s.tick t).stepReady 7 = true →
  (readable = true ∧ (s.tick t).led.formatted = true) ∨ (s.tick t).nv.lc = 1 ∨ (s.tick t).nv.lc = 5 →
  ∃ u, exec (.startupStep t (.mount readable stop reads)) s = .next u ∧ 7 ∈ u.boot.done) ∧
  /- startupStep -/ (∀ (t : Angle) (link : Bool) (s : State), (s.tick t).stepReady 8 = true → (s.tick t).pairable = true →
  ∃ u, exec (.startupStep t (.pairing link)) s = .next u ∧ u.pairState = 4 ∧ u.boot.pairAt = (s.tick t).cycle) ∧
  /- startupStep -/ (∀ (t : Angle) (link : Bool) (s : State), (s.tick t).stepReady 8 = true → (s.tick t).pairable = false →
  ∃ u, exec (.startupStep t (.pairing link)) s = .next u ∧ 8 ∈ u.boot.done) ∧
  /- startupStep -/ (∀ (t : Angle) (s : State), (s.tick t).stepReady 9 = true →
  ∃ u, exec (.startupStep t .catchUp) s = .next u ∧ u.slalom.trigger = 0x18 ∧ u.flag Reg.SLALOM_STATUS 31 = true) ∧
  /- startupStep -/ (∀ (t : Angle) (ms : Nat) (s : State), (s.tick t).stepReady 10 = true →
  ∃ u, exec (.startupStep t (.fieldStart ms)) s = .next u ∧ 10 ∈ u.boot.done ∧ u.fld Reg.SYS_BOOTSTAT 31 16 = min ms 65535) ∧
  /- pairingTimeout -/ (∀ (t : Angle) (s : State), (s.tick t).pairState = 4 → (s.tick t).boot.pairAt + 100 ≤ (s.tick t).cycle → (s.tick t).boot.done.contains 8 = false →
  ∃ u, exec (.pairingTimeout t) s = .next u ∧ 8 ∈ u.boot.done ∧ u.pairState = (if (s.tick t).flag Reg.PAIRS_STAT 22 then 3 else 1))

/-- A slice that passes moves the block's position on, or ends its pass; one that differs is repeated, and a second difference makes the block UNUSABLE, or starts the SHUTDOWN commit for a Module block; a slice that is revoked or cut is counted in BIST_ABORTED, and one whose obligation is revoked in BIST_REVOKED too; a late pass is counted; the scan request stands. -/
def Obligations.SelfTestCommandsComplete : Prop :=
  /- bistSlice -/ (∀ (t : Angle) (blk : BitVec 6) (sig : BitVec 64) (s : State), (s.tick t).slicesRun = true → (s.tick t).testable blk.toNat = true →
  (s.tick t).sliceStands blk.toNat = true ∨ (s.tick t).repeatRuns blk.toNat = true →
  (s.tick t).slicePos blk.toNat + 1 < blockSlices blk.toNat →
  ∃ u, exec (.bistSlice t blk sig .pass) s = .next u ∧ u.slicePos blk.toNat = (s.tick t).slicePos blk.toNat + 1) ∧
  /- bistSlice -/ (∀ (t : Angle) (blk : BitVec 6) (sig : BitVec 64) (s : State), (s.tick t).slicesRun = true → (s.tick t).testable blk.toNat = true →
  (s.tick t).sliceStands blk.toNat = true ∨ (s.tick t).repeatRuns blk.toNat = true →
  blockSlices blk.toNat ≤ (s.tick t).slicePos blk.toNat + 1 →
  ∃ u, exec (.bistSlice t blk sig .pass) s = .next u ∧ u.reg (blockKey blk.toNat) = 2 ^ 28) ∧
  /- bistSlice -/ (∀ (t : Angle) (blk : BitVec 6) (sig : BitVec 64) (queues : List (Fin 32)) (s : State), (s.tick t).slicesRun = true → (s.tick t).testable blk.toNat = true →
  (s.tick t).sliceStands blk.toNat = true ∨ (s.tick t).repeatRuns blk.toNat = true →
  (∀ n c, (s.tick t).boot.again = some (blk.toNat, n, c) → n ≠ (s.tick t).slicePos blk.toNat) →
  ∃ u, exec (.bistSlice t blk sig (.differs queues)) s = .next u ∧
    u.boot.again = some (blk.toNat, (s.tick t).slicePos blk.toNat, (s.tick t).cycle) ∧
    u.reg Reg.BIST_MISMATCH = satAdd 32 ((s.tick t).reg Reg.BIST_MISMATCH) 1) ∧
  /- bistSlice -/ (∀ (t : Angle) (blk : BitVec 6) (sig : BitVec 64) (queues : List (Fin 32)) (c : Nat) (s : State), (s.tick t).slicesRun = true → (s.tick t).testable blk.toNat = true →
  (s.tick t).sliceStands blk.toNat = true ∨ (s.tick t).repeatRuns blk.toNat = true →
  (s.tick t).boot.again = some (blk.toNat, (s.tick t).slicePos blk.toNat, c) → blockModule blk.toNat = false →
  ∃ u, exec (.bistSlice t blk sig (.differs queues)) s = .next u ∧ u.blockBad blk.toNat = true) ∧
  /- bistSlice -/ (∀ (t : Angle) (blk : BitVec 6) (sig : BitVec 64) (queues : List (Fin 32)) (c : Nat) (s : State), (s.tick t).slicesRun = true → (s.tick t).testable blk.toNat = true →
  (s.tick t).sliceStands blk.toNat = true ∨ (s.tick t).repeatRuns blk.toNat = true →
  (s.tick t).boot.again = some (blk.toNat, (s.tick t).slicePos blk.toNat, c) → blockModule blk.toNat = true → (s.tick t).boot.kind = none →
  (s.tick t).storeRuns = true →
  ∃ u, exec (.bistSlice t blk sig (.differs queues)) s = .next u ∧ u.boot.kind = some (2, 3)) ∧
  /- bistSlice -/ (∀ (t : Angle) (blk : BitVec 6) (sig : BitVec 64) (id : Nat) (o : Obligation) (s : State), (s.tick t).slicesRun = true →
  (s.tick t).testable blk.toNat = true → (s.tick t).boot.slice = some (blk.toNat, id) → (s.tick t).obl id = some o → o.cls = 3 →
  ((s.tick t).flag Reg.SLALOM_STATUS 31 = true → (s.tick t).revokeReason (sliceRes blk.toNat) ≠ 0x1F) →
  ∃ u, exec (.bistSlice t blk sig .revoked) s = .next u ∧ u.reg Reg.BIST_ABORTED = satAdd 32 ((s.tick t).reg Reg.BIST_ABORTED) 1 ∧
    u.reg Reg.BIST_REVOKED = satAdd 32 ((s.tick t).reg Reg.BIST_REVOKED) 1 ∧ u.slalom.calendar.find (id % 2 ^ 20) = none) ∧
  /- bistSlice -/ (∀ (t : Angle) (blk : BitVec 6) (sig : BitVec 64) (finish : SliceEnd) (s : State), (s.tick t).slicesRun = true →
  (s.tick t).testable blk.toNat = true →
  (finish = .cut ∧ (s.tick t).sliceStands blk.toNat = true) ∨
    ((finish = .cut ∨ finish = .revoked) ∧ (s.tick t).sliceStands blk.toNat = false ∧ (s.tick t).repeatRuns blk.toNat = true) →
  ∃ u, exec (.bistSlice t blk sig finish) s = .next u ∧ u.reg Reg.BIST_ABORTED = satAdd 32 ((s.tick t).reg Reg.BIST_ABORTED) 1 ∧
    u.reg Reg.BIST_REVOKED = (s.tick t).reg Reg.BIST_REVOKED) ∧
  /- bistPassLate -/ (∀ (t : Angle) (blk : BitVec 6) (s : State), (s.tick t).testable blk.toNat = true →
  ∃ u, exec (.bistPassLate t blk) s = .next u ∧ u.reg Reg.BIST_LATE_PASS = satAdd 32 ((s.tick t).reg Reg.BIST_LATE_PASS) 1) ∧
  /- scanRequest -/ (∀ (t : Angle) (p : Path) (v : Word) (s a : State), (s.tick t).through p 0x48 0x044 true = some a → v.toNat.testBit 0 = true →
  a.nv.lc = 1 ∨ a.nv.lc = 4 ∨ a.nv.lc = 5 → a.boot.done.contains 1 = true → a.boot.done.contains 4 = false →
  ∃ u, exec (.scanRequest t p v) s = .next u ∧ u.flag Reg.BIST_SCANCTL 0 = true)

/-- A write of I_W puts LO and W in force with empty bins, and a clear empties bins or extremes; a freeze stops recording and its release or timeout lets it go on; a read of CUR_DATA moves the cursor to the next word or record; a host sample is folded in; a note waits in a frozen Logbook, and takes the next entry number in another one; CLR_ALL empties the store. -/
def Obligations.LogbookCommandsComplete : Prop :=
  /- instrumentConfig -/ (∀ (t : Angle) (p : Path) (v : Word) (s a b : State), (s.tick t).through p 0x49 0x068 true = some a →
  instrumentKnown (a.fld Reg.LOGB_I_SEL 7 0) = true → a.plainWrite 0x49 0x068 v = .done b →
  ∃ u, exec (.instrumentConfig t p v) s = .next u ∧ (u.instrument (a.fld Reg.LOGB_I_SEL 7 0)).bins = [] ∧
    (u.instrument (a.fld Reg.LOGB_I_SEL 7 0)).count = 0 ∧
    (u.instrument (a.fld Reg.LOGB_I_SEL 7 0)).lo = toSigned 32 (b.reg (bankKey (a.fld Reg.LOGB_I_SEL 7 0) Reg.LOGB_I_LO)) ∧
    (u.instrument (a.fld Reg.LOGB_I_SEL 7 0)).width = max 1 (b.reg (bankKey (a.fld Reg.LOGB_I_SEL 7 0) Reg.LOGB_I_W))) ∧
  /- instrumentClearBins -/ (∀ (t : Angle) (p : Path) (s a : State), (s.tick t).through p 0x49 0x06C true = some a → instrumentKnown (a.fld Reg.LOGB_I_SEL 7 0) = true →
  ∃ u, exec (.instrumentClearBins t p) s = .next u ∧ (u.instrument (a.fld Reg.LOGB_I_SEL 7 0)).bins = [] ∧
    (u.instrument (a.fld Reg.LOGB_I_SEL 7 0)).count = 0 ∧
    (u.instrument (a.fld Reg.LOGB_I_SEL 7 0)).most = (a.instrument (a.fld Reg.LOGB_I_SEL 7 0)).most) ∧
  /- instrumentClearExtremes -/ (∀ (t : Angle) (p : Path) (s a : State), (s.tick t).through p 0x49 0x06C true = some a → instrumentKnown (a.fld Reg.LOGB_I_SEL 7 0) = true →
  ∃ u, exec (.instrumentClearExtremes t p) s = .next u ∧ (u.instrument (a.fld Reg.LOGB_I_SEL 7 0)).least = none ∧
    (u.instrument (a.fld Reg.LOGB_I_SEL 7 0)).most = none ∧
    (u.instrument (a.fld Reg.LOGB_I_SEL 7 0)).bins = (a.instrument (a.fld Reg.LOGB_I_SEL 7 0)).bins) ∧
  /- instrumentClearBoth -/ (∀ (t : Angle) (p : Path) (s a : State), (s.tick t).through p 0x49 0x06C true = some a → instrumentKnown (a.fld Reg.LOGB_I_SEL 7 0) = true →
  ∃ u, exec (.instrumentClearBoth t p) s = .next u ∧ (u.instrument (a.fld Reg.LOGB_I_SEL 7 0)).bins = [] ∧
    (u.instrument (a.fld Reg.LOGB_I_SEL 7 0)).count = 0 ∧ (u.instrument (a.fld Reg.LOGB_I_SEL 7 0)).most = none) ∧
  /- logbookFreeze -/ (∀ (t : Angle) (p : Path) (s a : State), (s.tick t).through p 0x49 0x00C true = some a →
  ∃ u, exec (.logbookFreeze t p) s = .next u ∧ u.frozen = true) ∧
  /- logbookThaw -/ (∀ (t : Angle) (p : Path) (s a : State), (s.tick t).through p 0x49 0x00C true = some a →
  ∃ u, exec (.logbookThaw t p) s = .next u ∧ u.frozen = false) ∧
  /- freezeTimeout -/ (∀ (t : Angle) (s : State), (s.tick t).frozen = true → (s.tick t).log.frozenAt + max 50 ((s.tick t).fld Reg.LOGB_CFG 23 8) ≤ (s.tick t).cycle →
  ∃ u, exec (.freezeTimeout t) s = .next u ∧ u.frozen = false ∧ u.log.hold = []) ∧
  /- cursorRead -/ (∀ (t : Angle) (p : Path) (rec' word : Nat) (s a : State), (s.tick t).through p 0x49 0x054 false = some a →
  a.log.cursors.find (pathIdx p) = some (0, rec', word) →
  ∃ u, exec (.cursorRead t p) s = .next u ∧
    u.log.cursors.find (pathIdx p) = some (if word < 47 then (0, rec', word + 1) else (0, (rec' + 1) % 256, 0)) ∧
    ∃ rest, u.out = .word p (BitVec.ofNat 32 ((a.instrumentWords rec').getD word 0)) :: rest) ∧
  /- cursorRead -/ (∀ (t : Angle) (p : Path) (rec' word : Nat) (s a : State), (s.tick t).through p 0x49 0x054 false = some a →
  a.log.cursors.find (pathIdx p) = some (1, rec', word) →
  ∃ u, exec (.cursorRead t p) s = .next u ∧
    u.log.cursors.find (pathIdx p) = some (if word < 7 then (1, rec', word + 1) else (1, (rec' + 1) % 2048, 0)) ∧
    ∃ rest, u.out = .word p (BitVec.ofNat 32 ((a.entryWords rec').getD word 0)) :: rest) ∧
  /- hostSample -/ (∀ (t : Angle) (p : Path) (v : Word) (s a : State), (s.tick t).through p 0x49 0x074 true = some a → a.frozen = false →
  ∃ u, exec (.hostSample t p v) s = .next u ∧
    (u.instrument (0xC0 + a.fld Reg.LOGB_HOST_IDX 5 0)).count = ((a.instrument (0xC0 + a.fld Reg.LOGB_HOST_IDX 5 0)).count + 1) % 2 ^ 64) ∧
  /- hostNote -/ (∀ (t : Angle) (p : Path) (v : Word) (i : Nat) (s a : State), (s.tick t).through p 0x49 0x080 true = some a → a.frozen = false →
  logSlot a.log.entries (v.toNat % 4) = some i →
  ∃ u, exec (.hostNote t p v) s = .next u ∧ ∃ e, u.log.entries.find i = some e ∧ e.cls = v.toNat % 4 ∧ e.page = 0x49 ∧ e.code = 0x00F0 ∧
    e.eseq = a.reg Reg.LOGB_ENT_SEQ ∧ e.data = a.reg64 Reg.LOGB_NOTE_D0 Reg.LOGB_NOTE_D1) ∧
  /- hostNote -/ (∀ (t : Angle) (p : Path) (v : Word) (s a : State), (s.tick t).through p 0x49 0x080 true = some a → a.frozen = true → a.log.hold.length < 64 →
  ∃ u, exec (.hostNote t p v) s = .next u ∧ u.log.hold.length = a.log.hold.length + 1 ∧ u.log.entries = a.log.entries) ∧
  /- clrAll -/ (∀ (t : Angle) (p : Path) (v : Word) (s a : State), (s.tick t).through p 0x49 0x0B4 true = some a → v = 0x4C47434C →
  a.nv.lc = 1 ∨ a.nv.lc = 4 ∨ a.nv.lc = 5 →
  ∃ u, exec (.clrAll t p v) s = .next u ∧ u.log.entries = [] ∧ u.fld Reg.LOGB_STAT 11 0 = 0)

/-- STAGE starts a download, or is refused with its code; a chunk joins the cartridge; END and the end of a card file lead to verification; verification ends in VERIFIED, in a node cartridge held in its entry, or in a refusal with its code; DISCARD empties the stage; a card is found as its initialisation finds it, and its error is shown. -/
def Obligations.UpdateStageCommandsComplete : Prop :=
  /- updStage -/ (∀ (t : Angle) (p : Path) (s a : State), (s.tick t).through p 0x4A 0x058 true = some a → a.stageBusy = false → a.flag Reg.UPD_SRC 8 = true →
  ∃ u, exec (.updStage t p) s = .next u ∧ u.stage = 1 ∧ u.upd.fromCard = false ∧ u.upd.data = []) ∧
  /- updStage -/ (∀ (t : Angle) (p : Path) (f : List Byte × List Byte) (s a : State), (s.tick t).through p 0x4A 0x058 true = some a → a.stageBusy = false →
  a.flag Reg.UPD_SRC 8 = false → a.flag Reg.SDC_STAT 0 = true → a.upd.files[a.fld Reg.UPD_SRC 3 0]? = some f →
  ∃ u, exec (.updStage t p) s = .next u ∧ u.stage = 1 ∧ u.upd.fromCard = true ∧ u.upd.data = f.2) ∧
  /- updChunk -/ (∀ (t : Angle) (p : Path) (img : List Byte) (s a : State),
  ((s.tick t).store (s.reg Reg.UPD_HCHUNK_OFS) img).through p 0x4A 0x058 true = some a → a.stage = 1 → a.upd.fromCard = false →
  a.reg Reg.UPD_HCHUNK_LEN ≤ 0x800000 →
  ∃ u, exec (.updChunk t p img) s = .next u ∧
    u.upd.data = a.upd.data ++ a.load (a.reg Reg.UPD_HCHUNK_OFS) (a.reg Reg.UPD_HCHUNK_LEN)) ∧
  /- updEnd -/ (∀ (t : Angle) (p : Path) (s a : State), (s.tick t).through p 0x4A 0x058 true = some a → a.stage = 1 → a.upd.fromCard = false →
  ∃ u, exec (.updEnd t p) s = .next u ∧ u.stage = 2) ∧
  /- downloadEnd -/ (∀ (t : Angle) (crc timeouts : BitVec 8) (s : State), (s.tick t).stage = 1 → (s.tick t).upd.fromCard = true →
  ∃ u, exec (.downloadEnd t crc timeouts) s = .next u ∧ u.stage = 2) ∧
  /- verifyComplete -/ (∀ (t : Angle) (s : State), (s.tick t).stage = 2 →
  ∃ u, exec (.verifyComplete t) s = .next u ∧
    (if (s.tick t).verifyCode (s.tick t).upd.data ≠ 0 then u.stage = 0 ∧ u.fld Reg.UPD_STAT 7 0 = (s.tick t).verifyCode (s.tick t).upd.data
    else if cartKind (s.tick t).upd.data = 1 then u.stage = 3 ∧ (u.image ((s.tick t).upd.target.getD 0 % 4)).cart = (s.tick t).upd.data
    else u.stage = 0 ∧ u.upd.nodes.find ((s.tick t).upd.target.getD 0 / 4) = some (s.tick t).upd.data)) ∧
  /- updDiscard -/ (∀ (t : Angle) (p : Path) (s a : State), (s.tick t).through p 0x4A 0x058 true = some a → a.stage = 1 ∨ a.stage = 3 →
  ∃ u, exec (.updDiscard t p) s = .next u ∧ u.stage = 0 ∧ u.upd.data = [] ∧ u.upd.target = none) ∧
  /- cardChange -/ (∀ (t : Angle) (card : Option CardRx) (s : State),
  ∃ u, exec (.cardChange t card) s = .next u ∧ u.flag Reg.SDC_STAT 31 = card.isSome ∧
    (∀ c, card = some c → u.flag Reg.SDC_STAT 0 = (c.ok && (c.kind == 1 || c.kind == 2)) ∧ u.flag Reg.SDC_STAT 1 = !c.ok)) ∧
  /- cardRescan -/ (∀ (t : Angle) (p : Path) (v : Word) (card : Option CardRx) (s a : State), (s.tick t).through p 0x55 0x074 true = some a → v.toNat.testBit 0 = true →
  ∃ u, exec (.cardRescan t p v card) s = .next u ∧ u.flag Reg.SDC_STAT 31 = card.isSome ∧
    (∀ c, card = some c → u.flag Reg.SDC_STAT 0 = (c.ok && (c.kind == 1 || c.kind == 2)) ∧ u.flag Reg.SDC_STAT 1 = !c.ok)) ∧
  /- cardError -/ (∀ (t : Angle) (init : Bool) (crc timeouts : BitVec 8) (s : State), (s.tick t).flag Reg.SDC_STAT 31 = true →
  ∃ u, exec (.cardError t init crc timeouts) s = .next u ∧ u.flag Reg.SDC_STAT 1 = true ∧ (init = true → u.flag Reg.SDC_STAT 0 = false))

/-- ACTIVATE and ROLLBACK start a handover to their image; READY chooses a switch cycle that lies ahead; at the switch the new image is on trial, or the rollback is done; a READY that does not come aborts the handover; CONFIRM awaits its record; a trial that expires hands control back; a node joins its group; a BULK frame is counted off. -/
def Obligations.HandoverCommandsComplete : Prop :=
  /- updActivate -/ (∀ (t : Angle) (p : Path) (n : Nat) (s a : State), (s.tick t).through p 0x4A 0x058 true = some a → a.roleSlot 4 = some n → a.stage = 3 →
  a.handingOver = false → a.coresCarry = true →
  ∃ u, exec (.updActivate t p) s = .next u ∧ u.stage = 4 ∧ ∃ h, u.upd.hover = some h ∧ h.slot = n ∧ h.back = false ∧ h.w = none) ∧
  /- handoverReady -/ (∀ (t : Angle) (h : Handover) (s : State), (s.tick t).upd.hover = some h → h.w = none → (s.tick t).cycle ≤ h.since + (s.tick t).hoverMax →
  ∃ u, exec (.handoverReady t) s = .next u ∧ ∃ w, u.upd.hover = some { h with w := some w } ∧ (s.tick t).cycle + 2 ≤ w) ∧
  /- handoverSwitch -/ (∀ (t : Angle) (h : Handover) (w : Nat) (s : State), (s.tick t).upd.hover = some h → h.w = some w → w ≤ (s.tick t).cycle → h.rsn = none → h.back = false →
  ∃ u, exec (.handoverSwitch t) s = .next u ∧ u.stage = 5 ∧ u.upd.trial = some w ∧ u.nv.boots = 0 ∧ (u.image h.slot).role = 2) ∧
  /- handoverSwitch -/ (∀ (t : Angle) (h : Handover) (w : Nat) (s : State), (s.tick t).upd.hover = some h → h.w = some w → w ≤ (s.tick t).cycle → h.rsn = none → h.back = true →
  ∃ u, exec (.handoverSwitch t) s = .next u ∧ u.stage = 0 ∧ u.upd.trial = none) ∧
  /- handoverAbort -/ (∀ (t : Angle) (h : Handover) (s : State), (s.tick t).upd.hover = some h → h.w = none → h.rsn = none → h.since + (s.tick t).hoverMax ≤ (s.tick t).cycle →
  ∃ u, exec (.handoverAbort t) s = .next u ∧ u.upd.hover = none ∧ u.fld Reg.UPD_STAT 7 0 = 0x0A) ∧
  /- updConfirm -/ (∀ (t : Angle) (p : Path) (s a : State), (s.tick t).through p 0x4A 0x058 true = some a → a.stage = 5 → a.handingOver = false → a.upd.confirm = none →
  a.confCyc ≤ a.fld Reg.UPD_HEALTHY 15 0 → a.readOnly = false →
  ∃ u, exec (.updConfirm t p) s = .next u ∧ (a.pairState ≠ 2 → u.upd.confirm = some a.led.nextRsn ∧ u.led.nextRsn = a.led.nextRsn + 1) ∧
    (a.pairState = 2 → u.upd.confirm = some a.led.sideNext ∧ u.led.sideNext = a.led.sideNext + 1)) ∧
  /- trialExpiry -/ (∀ (t : Angle) (w n : Nat) (s : State), (s.tick t).upd.trial = some w → w + (s.tick t).trialCyc ≤ (s.tick t).cycle → (s.tick t).upd.confirm = none →
  (s.tick t).handingOver = false → (s.tick t).roleSlot 1 = some n →
  ∃ u, exec (.trialExpiry t) s = .next u ∧ ∃ h, u.upd.hover = some h ∧ h.slot = n ∧ h.back = true) ∧
  /- trialExpiry -/ (∀ (t : Angle) (w : Nat) (s : State), (s.tick t).upd.trial = some w → w + (s.tick t).trialCyc ≤ (s.tick t).cycle → (s.tick t).upd.confirm = none →
  (s.tick t).handingOver = false → (s.tick t).roleSlot 1 = none →
  ∃ u, exec (.trialExpiry t) s = .next u ∧ u.upd.trial = none ∧ u.stage = 0) ∧
  /- updRollback -/ (∀ (t : Angle) (p : Path) (n : Nat) (s a : State), (s.tick t).through p 0x4A 0x058 true = some a → a.handingOver = false → a.stage = 5 →
  a.upd.confirm = none → a.roleSlot 1 = some n →
  ∃ u, exec (.updRollback t p) s = .next u ∧ ∃ h, u.upd.hover = some h ∧ h.slot = n ∧ h.back = true) ∧
  /- updRollback -/ (∀ (t : Angle) (p : Path) (n : Nat) (s a : State), (s.tick t).through p 0x4A 0x058 true = some a → a.handingOver = false → a.stage = 0 ∨ a.stage = 3 →
  a.roleSlot 3 = some n → a.nv.minLevel ≤ cartLevel (a.image n).cart → a.coresCarry = true →
  ∃ u, exec (.updRollback t p) s = .next u ∧ u.stage = 4 ∧ ∃ h, u.upd.hover = some h ∧ h.slot = n ∧ h.back = false) ∧
  /- groupJoin -/ (∀ (t : Angle) (p : Path) (v : Word) (s a : State), (s.tick t).through p 0x4A 0x0A4 true = some a →
  (a.node (a.fld Reg.UPD_GRP_NODE 12 0)).state ≠ 0 →
  ∃ u, exec (.groupJoin t p v) s = .next u ∧
    (u.node (a.fld Reg.UPD_GRP_NODE 12 0)).group = if v.toNat.testBit 31 then some (bits 12 0 v.toNat) else none) ∧
  /- bulkSegment -/ (∀ (t : Angle) (r : Fin 10) (id c : Nat) (key : Nat × State) (o : Obligation) (s a : State), (s.tick t).obl id = some o →
  o.op = 0x20 → 2 ≤ o.frames.getD r 0 → (s.tick t).exchange r = none → r.val ≤ 5 → (s.tick t).lineReady r = true →
  (s.tick t).startsHere r = true → (s.tick t).sends r (s.tick t).cycle (s.tick t).cycle = false →
  (s.tick t).awaits r (s.tick t).cycle (s.tick t).cycle = false →
  (s.tick t).expects (sisterOf r) (s.tick t).cycle ((s.tick t).cycle + (s.tick t).bulkFrameWork r / 65536 - 1) = false →
  (s.tick t).lineClear r (s.tick t).cycle ((s.tick t).cycle + (s.tick t).bulkFrameWork r / 65536 - 1) = true →
  (s.tick t).drawGroup 1 r = (.value c, a) → a.groupSecretNow (lineGroupKey r) = key → key.2.obl id = some o →
  ∃ u, exec (.bulkSegment t r id) s = .next u ∧ ∃ o', u.obl id = some o' ∧ o'.frames.getD r 0 = o.frames.getD r 0 - 1) ∧
  /- bulkSegment -/ (∀ (t : Angle) (r : Fin 10) (id c : Nat) (sec : AirSec) (body : List Byte) (o : Obligation) (s a k : State),
  (s.tick t).obl id = some o → o.op = 0x20 → 2 ≤ o.frames.getD r 0 → (s.tick t).exchange r = none → 8 ≤ r.val →
  (s.tick t).airSearching (r - 8) = false → (s.tick t).drawGroup 2 (r - 8) = (.value c, a) → a.groupSec (r - 8) 6 c = (sec, k) →
  k.obl id = some o →
  body = Sys2Proof.Machine.bulkSegment ((s.tick t).upd.nodes.getD (leAt o.records 0 1) []) o.records 128
    (clampNat 1 4 (leAt o.records 1 1) * leAt o.records 6 2 - o.frames.getD r 0) →
  (k.sendAir (r - 8) (0x8000 + o.node) 0xC (39 + body.length) k.now 3 false none (some sec) body).1 = true →
  ∃ u, exec (.bulkSegment t r id) s = .next u ∧ ∃ o', u.obl id = some o' ∧ o'.frames.getD r 0 = o.frames.getD r 0 - 1)

/-- ROLE_NEXT takes its value; an accepted IFSEL stands with its lock; causes are set and cleared and enables changed as written; an active line whose bit is written sends its message again; a capture is cleared; a counter clear zeroes its counters; a plain register takes the word that its field types leave, and an access that is not 32 bits wide and aligned is captured. -/
def Obligations.RegisterBusCommandsComplete : Prop :=
  /- roleNextWrite -/ (∀ (t : Angle) (p : Path) (v : Word) (s a : State), (s.tick t).through p 0x00 0x0C4 true = some a → a.nv.lc = 1 ∨ a.nv.lc = 2 → a.modeBusy = false →
  a.fac.variant ≠ .h ∨ (bits 17 16 v.toNat ≠ 1 ∧ bits 17 16 v.toNat ≠ 3) →
  ∃ u, exec (.roleNextWrite t p v) s = .next u ∧ u.nv.roleNext = bits 17 16 v.toNat) ∧
  /- ifselWrite -/ (∀ (t : Angle) (p : Path) (page : BitVec 8) (v : Word) (s a : State), (s.tick t).through p page.toNat 0x008 true = some a →
  a.flag (page.toNat * 0x1000 + 0x008) 31 = false → bits 15 0 v.toNat = 0x0100 →
  ∃ u, exec (.ifselWrite t p page v) s = .next u ∧ u.fld (page.toNat * 0x1000 + 0x008) 15 0 = 0x0100 ∧
    u.flag (page.toNat * 0x1000 + 0x008) 31 = v.toNat.testBit 31) ∧
  /- evRawWrite -/ (∀ (t : Angle) (p : Path) (page : BitVec 8) (v : Word) (s a : State), (s.tick t).through p page.toNat 0x014 true = some a →
  ∃ u, exec (.evRawWrite t p page v) s = .next u ∧
    u.reg (evRaw page.toNat) = a.reg (evRaw page.toNat) ||| (v.toNat &&& causeMask page.toNat)) ∧
  /- evPendClear -/ (∀ (t : Angle) (p : Path) (page : BitVec 8) (v : Word) (i : Nat) (s a : State), (s.tick t).through p page.toNat 0x018 true = some a →
  page.toNat < 0x18 ∨ 0x1B < page.toNat → (page.toNat = 0x06 → a.ptp.tsq = []) →
  (page.toNat = 0x53 → a.fld Reg.PCIE_RPT_WR 11 0 = a.fld Reg.PCIE_RPT_RD 11 0) → v.toNat.testBit i = true →
  ∃ u, exec (.evPendClear t p page v) s = .next u ∧ u.flag (evRaw page.toNat) i = false) ∧
  /- evEnSet -/ (∀ (t : Angle) (p : Path) (page : BitVec 8) (v : Word) (s a : State), (s.tick t).through p page.toNat 0x01C true = some a →
  ∃ u, exec (.evEnSet t p page v) s = .next u ∧
    u.reg (evEn page.toNat) = a.reg (evEn page.toNat) ||| (v.toNat &&& causeMask page.toNat)) ∧
  /- evEnClr -/ (∀ (t : Angle) (p : Path) (page : BitVec 8) (v : Word) (i : Nat) (s a : State), (s.tick t).through p page.toNat 0x020 true = some a →
  ∃ u, exec (.evEnClr t p page v) s = .next u ∧
    u.flag (evEn page.toNat) i = (a.flag (evEn page.toNat) i && !v.toNat.testBit i)) ∧
  /- resend -/ (∀ (t : Angle) (p : Path) (hi : Bool) (v : Word) (i : Nat) (s a : State), (s.tick t).through p 0x03 (0x050 + 4 * b2n hi) true = some a →
  i < 32 → v.toNat.testBit i = true → a.lineActive.contains (32 * b2n hi + i) = true → a.msixMasked.contains (32 * b2n hi + i) = false →
  ∃ u, exec (.resend t p hi v) s = .next u ∧ .msix (32 * b2n hi + i) ∈ u.out) ∧
  /- errcapClear -/ (∀ (t : Angle) (p : Path) (page : BitVec 8) (v : Word) (s a : State), (s.tick t).through p page.toNat 0x028 true = some a →
  v.toNat.testBit 31 = true →
  ∃ u, exec (.errcapClear t p page v) s = .next u ∧ u.fld (page.toNat * 0x1000 + 0x028) 31 30 = 0) ∧
  /- counterClear -/ (∀ (t : Angle) (p : Path) (page : BitVec 8) (q : Fin 8) (v : Word) (off : Nat) (counters : List Nat) (s a : State),
  counterClear page.toNat q = some (off, counters) → (s.tick t).through p page.toNat off true = some a → v.toNat.testBit 0 = true →
  ∃ u, exec (.counterClear t p page q v) s = .next u ∧ ∀ o ∈ counters, u.reg (page.toNat * 0x1000 + o) = 0) ∧
  /- registerWrite -/ (∀ (t : Angle) (p : Path) (page : BitVec 8) (off : BitVec 12) (v : Word) (r : RegSpec) (s a : State), 0x040 ≤ off.toNat → off.toNat % 4 = 0 →
  (s.tick t).through p page.toNat off.toNat true = some a → findSpec page.toNat off.toNat = some r → r.rw ≠ 0 →
  effWrite p page.toNat off.toNat v a = a.plainWrite page.toNat off.toNat v →
  ∃ u, exec (.registerWrite t p page off true v) s = .next u ∧ u.reg (a.windowKey page.toNat off.toNat) =
    plainWord r (a.locked page.toNat) (a.reg (a.windowKey page.toNat off.toNat)) v.toNat % 2 ^ 32) ∧
  /- registerWrite -/ (∀ (t : Angle) (p : Path) (page : BitVec 8) (off : BitVec 12) (whole : Bool) (v : Word) (s : State), whole = false ∨ off.toNat % 4 ≠ 0 →
  ∃ u, exec (.registerWrite t p page off whole v) s = .next u ∧ u.flag 0x00028 31 = true ∧
    ∃ e, u.errRing.find ((s.tick t).fld Reg.SYS_ERR_WR 4 0) = some e) ∧
  /- eraseComplete -/ (∀ (t : Angle) (sb : BitVec 11) (s : State), (s.tick t).erasing sb.toNat = true → (s.tick t).led.stalled = false →
  ∃ u, exec (.eraseComplete t sb) s = .next u ∧ (u.sb sb.toNat).erases = ((s.tick t).sb sb.toNat).erases + 1 ∧
    (u.sb sb.toNat).phase ≠ 3)
end

