-- ==== Sys2Proof/Laws/State.lean ====
section
/-!
SUPPORT. What the primitive updates of State leave of each of its fields: one lemma per field per update, true by rfl. The proofs are
written so that simp leaves a proof term: the kernel then need not unfold the updates again.
-/

namespace Sys2Proof.Machine

@[simp] theorem State.setReg_pending (s : State) (k v : Nat) : (s.setReg k v).pending = s.pending := eq_of_heq HEq.rfl
@[simp] theorem State.setReg_now (s : State) (k v : Nat) : (s.setReg k v).now = s.now := eq_of_heq HEq.rfl
@[simp] theorem State.setReg_regs (s : State) (k v : Nat) : (s.setReg k v).regs = regsPut s.regs k v := eq_of_heq HEq.rfl
@[simp] theorem State.setReg_latch (s : State) (k v : Nat) : (s.setReg k v).latch = s.latch := eq_of_heq HEq.rfl
@[simp] theorem State.setReg_mem (s : State) (k v : Nat) : (s.setReg k v).mem = s.mem := eq_of_heq HEq.rfl
@[simp] theorem State.setReg_errRing (s : State) (k v : Nat) : (s.setReg k v).errRing = s.errRing := eq_of_heq HEq.rfl
@[simp] theorem State.setReg_fresh (s : State) (k v : Nat) : (s.setReg k v).fresh = s.fresh := eq_of_heq HEq.rfl
@[simp] theorem State.setReg_out (s : State) (k v : Nat) : (s.setReg k v).out = s.out := eq_of_heq HEq.rfl
@[simp] theorem State.setReg_fac (s : State) (k v : Nat) : (s.setReg k v).fac = s.fac := eq_of_heq HEq.rfl
@[simp] theorem State.setReg_lineActive (s : State) (k v : Nat) : (s.setReg k v).lineActive = s.lineActive := eq_of_heq HEq.rfl
@[simp] theorem State.setReg_msixMasked (s : State) (k v : Nat) : (s.setReg k v).msixMasked = s.msixMasked := eq_of_heq HEq.rfl
@[simp] theorem State.setReg_msixPending (s : State) (k v : Nat) : (s.setReg k v).msixPending = s.msixPending := eq_of_heq HEq.rfl
@[simp] theorem State.setReg_clocks (s : State) (k v : Nat) : (s.setReg k v).clocks = s.clocks := eq_of_heq HEq.rfl
@[simp] theorem State.setReg_svcLast (s : State) (k v : Nat) : (s.setReg k v).svcLast = s.svcLast := eq_of_heq HEq.rfl
@[simp] theorem State.setReg_svcPtr (s : State) (k v : Nat) : (s.setReg k v).svcPtr = s.svcPtr := eq_of_heq HEq.rfl
@[simp] theorem State.setReg_touched (s : State) (k v : Nat) : (s.setReg k v).touched = s.touched := eq_of_heq HEq.rfl
@[simp] theorem State.setReg_idleRetain (s : State) (k v : Nat) : (s.setReg k v).idleRetain = s.idleRetain := eq_of_heq HEq.rfl
@[simp] theorem State.setReg_sweep (s : State) (k v : Nat) : (s.setReg k v).sweep = s.sweep := eq_of_heq HEq.rfl
@[simp] theorem State.setReg_slalom (s : State) (k v : Nat) : (s.setReg k v).slalom = s.slalom := eq_of_heq HEq.rfl
@[simp] theorem State.setReg_log (s : State) (k v : Nat) : (s.setReg k v).log = s.log := eq_of_heq HEq.rfl
@[simp] theorem State.setReg_led (s : State) (k v : Nat) : (s.setReg k v).led = s.led := eq_of_heq HEq.rfl
@[simp] theorem State.setReg_nv (s : State) (k v : Nat) : (s.setReg k v).nv = s.nv := eq_of_heq HEq.rfl
@[simp] theorem State.setReg_ackedRsn (s : State) (k v : Nat) : (s.setReg k v).ackedRsn = s.ackedRsn := eq_of_heq HEq.rfl
@[simp] theorem State.setReg_merk (s : State) (k v : Nat) : (s.setReg k v).merk = s.merk := eq_of_heq HEq.rfl
@[simp] theorem State.setReg_lcWait (s : State) (k v : Nat) : (s.setReg k v).lcWait = s.lcWait := eq_of_heq HEq.rfl
@[simp] theorem State.setReg_lcYield (s : State) (k v : Nat) : (s.setReg k v).lcYield = s.lcYield := eq_of_heq HEq.rfl
@[simp] theorem State.setReg_crypto (s : State) (k v : Nat) : (s.setReg k v).crypto = s.crypto := eq_of_heq HEq.rfl
@[simp] theorem State.setReg_fca (s : State) (k v : Nat) : (s.setReg k v).fca = s.fca := eq_of_heq HEq.rfl
@[simp] theorem State.setReg_billing (s : State) (k v : Nat) : (s.setReg k v).billing = s.billing := eq_of_heq HEq.rfl
@[simp] theorem State.setReg_balance (s : State) (k v : Nat) : (s.setReg k v).balance = s.balance := eq_of_heq HEq.rfl
@[simp] theorem State.setReg_leaves (s : State) (k v : Nat) : (s.setReg k v).leaves = s.leaves := eq_of_heq HEq.rfl
@[simp] theorem State.setReg_tamper (s : State) (k v : Nat) : (s.setReg k v).tamper = s.tamper := eq_of_heq HEq.rfl
@[simp] theorem State.setReg_upd (s : State) (k v : Nat) : (s.setReg k v).upd = s.upd := eq_of_heq HEq.rfl
@[simp] theorem State.setReg_boot (s : State) (k v : Nat) : (s.setReg k v).boot = s.boot := eq_of_heq HEq.rfl
@[simp] theorem State.setReg_sessions (s : State) (k v : Nat) : (s.setReg k v).sessions = s.sessions := eq_of_heq HEq.rfl
@[simp] theorem State.setReg_nextSess (s : State) (k v : Nat) : (s.setReg k v).nextSess = s.nextSess := eq_of_heq HEq.rfl
@[simp] theorem State.setReg_staleStop (s : State) (k v : Nat) : (s.setReg k v).staleStop = s.staleStop := eq_of_heq HEq.rfl
@[simp] theorem State.setReg_peers (s : State) (k v : Nat) : (s.setReg k v).peers = s.peers := eq_of_heq HEq.rfl
@[simp] theorem State.setReg_ptp (s : State) (k v : Nat) : (s.setReg k v).ptp = s.ptp := eq_of_heq HEq.rfl
@[simp] theorem State.setReg_segOut (s : State) (k v : Nat) : (s.setReg k v).segOut = s.segOut := eq_of_heq HEq.rfl
@[simp] theorem State.setReg_epochs (s : State) (k v : Nat) : (s.setReg k v).epochs = s.epochs := eq_of_heq HEq.rfl
@[simp] theorem State.setReg_fwdDone (s : State) (k v : Nat) : (s.setReg k v).fwdDone = s.fwdDone := eq_of_heq HEq.rfl
@[simp] theorem State.setReg_fwdUsed (s : State) (k v : Nat) : (s.setReg k v).fwdUsed = s.fwdUsed := eq_of_heq HEq.rfl
@[simp] theorem State.setReg_lift (s : State) (k v : Nat) : (s.setReg k v).lift = s.lift := eq_of_heq HEq.rfl
@[simp] theorem State.setReg_pairs (s : State) (k v : Nat) : (s.setReg k v).pairs = s.pairs := eq_of_heq HEq.rfl
@[simp] theorem State.setReg_field (s : State) (k v : Nat) : (s.setReg k v).field = s.field := eq_of_heq HEq.rfl
@[simp] theorem State.setReg_interlock (s : State) (k v : Nat) : (s.setReg k v).interlock = s.interlock := eq_of_heq HEq.rfl

@[simp] theorem State.setFld_pending (s : State) (k hi lo v : Nat) : (s.setFld k hi lo v).pending = s.pending := eq_of_heq HEq.rfl
@[simp] theorem State.setFld_now (s : State) (k hi lo v : Nat) : (s.setFld k hi lo v).now = s.now := eq_of_heq HEq.rfl
@[simp] theorem State.setFld_latch (s : State) (k hi lo v : Nat) : (s.setFld k hi lo v).latch = s.latch := eq_of_heq HEq.rfl
@[simp] theorem State.setFld_mem (s : State) (k hi lo v : Nat) : (s.setFld k hi lo v).mem = s.mem := eq_of_heq HEq.rfl
@[simp] theorem State.setFld_errRing (s : State) (k hi lo v : Nat) : (s.setFld k hi lo v).errRing = s.errRing := eq_of_heq HEq.rfl
@[simp] theorem State.setFld_fresh (s : State) (k hi lo v : Nat) : (s.setFld k hi lo v).fresh = s.fresh := eq_of_heq HEq.rfl
@[simp] theorem State.setFld_out (s : State) (k hi lo v : Nat) : (s.setFld k hi lo v).out = s.out := eq_of_heq HEq.rfl
@[simp] theorem State.setFld_fac (s : State) (k hi lo v : Nat) : (s.setFld k hi lo v).fac = s.fac := eq_of_heq HEq.rfl
@[simp] theorem State.setFld_lineActive (s : State) (k hi lo v : Nat) : (s.setFld k hi lo v).lineActive = s.lineActive := eq_of_heq HEq.rfl
@[simp] theorem State.setFld_msixMasked (s : State) (k hi lo v : Nat) : (s.setFld k hi lo v).msixMasked = s.msixMasked := eq_of_heq HEq.rfl
@[simp] theorem State.setFld_msixPending (s : State) (k hi lo v : Nat) : (s.setFld k hi lo v).msixPending = s.msixPending := eq_of_heq HEq.rfl
@[simp] theorem State.setFld_clocks (s : State) (k hi lo v : Nat) : (s.setFld k hi lo v).clocks = s.clocks := eq_of_heq HEq.rfl
@[simp] theorem State.setFld_svcLast (s : State) (k hi lo v : Nat) : (s.setFld k hi lo v).svcLast = s.svcLast := eq_of_heq HEq.rfl
@[simp] theorem State.setFld_svcPtr (s : State) (k hi lo v : Nat) : (s.setFld k hi lo v).svcPtr = s.svcPtr := eq_of_heq HEq.rfl
@[simp] theorem State.setFld_touched (s : State) (k hi lo v : Nat) : (s.setFld k hi lo v).touched = s.touched := eq_of_heq HEq.rfl
@[simp] theorem State.setFld_idleRetain (s : State) (k hi lo v : Nat) : (s.setFld k hi lo v).idleRetain = s.idleRetain := eq_of_heq HEq.rfl
@[simp] theorem State.setFld_sweep (s : State) (k hi lo v : Nat) : (s.setFld k hi lo v).sweep = s.sweep := eq_of_heq HEq.rfl
@[simp] theorem State.setFld_slalom (s : State) (k hi lo v : Nat) : (s.setFld k hi lo v).slalom = s.slalom := eq_of_heq HEq.rfl
@[simp] theorem State.setFld_log (s : State) (k hi lo v : Nat) : (s.setFld k hi lo v).log = s.log := eq_of_heq HEq.rfl
@[simp] theorem State.setFld_led (s : State) (k hi lo v : Nat) : (s.setFld k hi lo v).led = s.led := eq_of_heq HEq.rfl
@[simp] theorem State.setFld_nv (s : State) (k hi lo v : Nat) : (s.setFld k hi lo v).nv = s.nv := eq_of_heq HEq.rfl
@[simp] theorem State.setFld_ackedRsn (s : State) (k hi lo v : Nat) : (s.setFld k hi lo v).ackedRsn = s.ackedRsn := eq_of_heq HEq.rfl
@[simp] theorem State.setFld_merk (s : State) (k hi lo v : Nat) : (s.setFld k hi lo v).merk = s.merk := eq_of_heq HEq.rfl
@[simp] theorem State.setFld_lcWait (s : State) (k hi lo v : Nat) : (s.setFld k hi lo v).lcWait = s.lcWait := eq_of_heq HEq.rfl
@[simp] theorem State.setFld_lcYield (s : State) (k hi lo v : Nat) : (s.setFld k hi lo v).lcYield = s.lcYield := eq_of_heq HEq.rfl
@[simp] theorem State.setFld_crypto (s : State) (k hi lo v : Nat) : (s.setFld k hi lo v).crypto = s.crypto := eq_of_heq HEq.rfl
@[simp] theorem State.setFld_fca (s : State) (k hi lo v : Nat) : (s.setFld k hi lo v).fca = s.fca := eq_of_heq HEq.rfl
@[simp] theorem State.setFld_billing (s : State) (k hi lo v : Nat) : (s.setFld k hi lo v).billing = s.billing := eq_of_heq HEq.rfl
@[simp] theorem State.setFld_balance (s : State) (k hi lo v : Nat) : (s.setFld k hi lo v).balance = s.balance := eq_of_heq HEq.rfl
@[simp] theorem State.setFld_leaves (s : State) (k hi lo v : Nat) : (s.setFld k hi lo v).leaves = s.leaves := eq_of_heq HEq.rfl
@[simp] theorem State.setFld_tamper (s : State) (k hi lo v : Nat) : (s.setFld k hi lo v).tamper = s.tamper := eq_of_heq HEq.rfl
@[simp] theorem State.setFld_upd (s : State) (k hi lo v : Nat) : (s.setFld k hi lo v).upd = s.upd := eq_of_heq HEq.rfl
@[simp] theorem State.setFld_boot (s : State) (k hi lo v : Nat) : (s.setFld k hi lo v).boot = s.boot := eq_of_heq HEq.rfl
@[simp] theorem State.setFld_sessions (s : State) (k hi lo v : Nat) : (s.setFld k hi lo v).sessions = s.sessions := eq_of_heq HEq.rfl
@[simp] theorem State.setFld_nextSess (s : State) (k hi lo v : Nat) : (s.setFld k hi lo v).nextSess = s.nextSess := eq_of_heq HEq.rfl
@[simp] theorem State.setFld_staleStop (s : State) (k hi lo v : Nat) : (s.setFld k hi lo v).staleStop = s.staleStop := eq_of_heq HEq.rfl
@[simp] theorem State.setFld_peers (s : State) (k hi lo v : Nat) : (s.setFld k hi lo v).peers = s.peers := eq_of_heq HEq.rfl
@[simp] theorem State.setFld_ptp (s : State) (k hi lo v : Nat) : (s.setFld k hi lo v).ptp = s.ptp := eq_of_heq HEq.rfl
@[simp] theorem State.setFld_segOut (s : State) (k hi lo v : Nat) : (s.setFld k hi lo v).segOut = s.segOut := eq_of_heq HEq.rfl
@[simp] theorem State.setFld_epochs (s : State) (k hi lo v : Nat) : (s.setFld k hi lo v).epochs = s.epochs := eq_of_heq HEq.rfl
@[simp] theorem State.setFld_fwdDone (s : State) (k hi lo v : Nat) : (s.setFld k hi lo v).fwdDone = s.fwdDone := eq_of_heq HEq.rfl
@[simp] theorem State.setFld_fwdUsed (s : State) (k hi lo v : Nat) : (s.setFld k hi lo v).fwdUsed = s.fwdUsed := eq_of_heq HEq.rfl
@[simp] theorem State.setFld_lift (s : State) (k hi lo v : Nat) : (s.setFld k hi lo v).lift = s.lift := eq_of_heq HEq.rfl
@[simp] theorem State.setFld_pairs (s : State) (k hi lo v : Nat) : (s.setFld k hi lo v).pairs = s.pairs := eq_of_heq HEq.rfl
@[simp] theorem State.setFld_field (s : State) (k hi lo v : Nat) : (s.setFld k hi lo v).field = s.field := eq_of_heq HEq.rfl
@[simp] theorem State.setFld_interlock (s : State) (k hi lo v : Nat) : (s.setFld k hi lo v).interlock = s.interlock := eq_of_heq HEq.rfl

@[simp] theorem State.setFlag_pending (s : State) (k i : Nat) (b : Bool) : (s.setFlag k i b).pending = s.pending := eq_of_heq HEq.rfl
@[simp] theorem State.setFlag_now (s : State) (k i : Nat) (b : Bool) : (s.setFlag k i b).now = s.now := eq_of_heq HEq.rfl
@[simp] theorem State.setFlag_latch (s : State) (k i : Nat) (b : Bool) : (s.setFlag k i b).latch = s.latch := eq_of_heq HEq.rfl
@[simp] theorem State.setFlag_mem (s : State) (k i : Nat) (b : Bool) : (s.setFlag k i b).mem = s.mem := eq_of_heq HEq.rfl
@[simp] theorem State.setFlag_errRing (s : State) (k i : Nat) (b : Bool) : (s.setFlag k i b).errRing = s.errRing := eq_of_heq HEq.rfl
@[simp] theorem State.setFlag_fresh (s : State) (k i : Nat) (b : Bool) : (s.setFlag k i b).fresh = s.fresh := eq_of_heq HEq.rfl
@[simp] theorem State.setFlag_out (s : State) (k i : Nat) (b : Bool) : (s.setFlag k i b).out = s.out := eq_of_heq HEq.rfl
@[simp] theorem State.setFlag_fac (s : State) (k i : Nat) (b : Bool) : (s.setFlag k i b).fac = s.fac := eq_of_heq HEq.rfl
@[simp] theorem State.setFlag_lineActive (s : State) (k i : Nat) (b : Bool) : (s.setFlag k i b).lineActive = s.lineActive := eq_of_heq HEq.rfl
@[simp] theorem State.setFlag_msixMasked (s : State) (k i : Nat) (b : Bool) : (s.setFlag k i b).msixMasked = s.msixMasked := eq_of_heq HEq.rfl
@[simp] theorem State.setFlag_msixPending (s : State) (k i : Nat) (b : Bool) : (s.setFlag k i b).msixPending = s.msixPending := eq_of_heq HEq.rfl
@[simp] theorem State.setFlag_clocks (s : State) (k i : Nat) (b : Bool) : (s.setFlag k i b).clocks = s.clocks := eq_of_heq HEq.rfl
@[simp] theorem State.setFlag_svcLast (s : State) (k i : Nat) (b : Bool) : (s.setFlag k i b).svcLast = s.svcLast := eq_of_heq HEq.rfl
@[simp] theorem State.setFlag_svcPtr (s : State) (k i : Nat) (b : Bool) : (s.setFlag k i b).svcPtr = s.svcPtr := eq_of_heq HEq.rfl
@[simp] theorem State.setFlag_touched (s : State) (k i : Nat) (b : Bool) : (s.setFlag k i b).touched = s.touched := eq_of_heq HEq.rfl
@[simp] theorem State.setFlag_idleRetain (s : State) (k i : Nat) (b : Bool) : (s.setFlag k i b).idleRetain = s.idleRetain := eq_of_heq HEq.rfl
@[simp] theorem State.setFlag_sweep (s : State) (k i : Nat) (b : Bool) : (s.setFlag k i b).sweep = s.sweep := eq_of_heq HEq.rfl
@[simp] theorem State.setFlag_slalom (s : State) (k i : Nat) (b : Bool) : (s.setFlag k i b).slalom = s.slalom := eq_of_heq HEq.rfl
@[simp] theorem State.setFlag_log (s : State) (k i : Nat) (b : Bool) : (s.setFlag k i b).log = s.log := eq_of_heq HEq.rfl
@[simp] theorem State.setFlag_led (s : State) (k i : Nat) (b : Bool) : (s.setFlag k i b).led = s.led := eq_of_heq HEq.rfl
@[simp] theorem State.setFlag_nv (s : State) (k i : Nat) (b : Bool) : (s.setFlag k i b).nv = s.nv := eq_of_heq HEq.rfl
@[simp] theorem State.setFlag_ackedRsn (s : State) (k i : Nat) (b : Bool) : (s.setFlag k i b).ackedRsn = s.ackedRsn := eq_of_heq HEq.rfl
@[simp] theorem State.setFlag_merk (s : State) (k i : Nat) (b : Bool) : (s.setFlag k i b).merk = s.merk := eq_of_heq HEq.rfl
@[simp] theorem State.setFlag_lcWait (s : State) (k i : Nat) (b : Bool) : (s.setFlag k i b).lcWait = s.lcWait := eq_of_heq HEq.rfl
@[simp] theorem State.setFlag_lcYield (s : State) (k i : Nat) (b : Bool) : (s.setFlag k i b).lcYield = s.lcYield := eq_of_heq HEq.rfl
@[simp] theorem State.setFlag_crypto (s : State) (k i : Nat) (b : Bool) : (s.setFlag k i b).crypto = s.crypto := eq_of_heq HEq.rfl
@[simp] theorem State.setFlag_fca (s : State) (k i : Nat) (b : Bool) : (s.setFlag k i b).fca = s.fca := eq_of_heq HEq.rfl
@[simp] theorem State.setFlag_billing (s : State) (k i : Nat) (b : Bool) : (s.setFlag k i b).billing = s.billing := eq_of_heq HEq.rfl
@[simp] theorem State.setFlag_balance (s : State) (k i : Nat) (b : Bool) : (s.setFlag k i b).balance = s.balance := eq_of_heq HEq.rfl
@[simp] theorem State.setFlag_leaves (s : State) (k i : Nat) (b : Bool) : (s.setFlag k i b).leaves = s.leaves := eq_of_heq HEq.rfl
@[simp] theorem State.setFlag_tamper (s : State) (k i : Nat) (b : Bool) : (s.setFlag k i b).tamper = s.tamper := eq_of_heq HEq.rfl
@[simp] theorem State.setFlag_upd (s : State) (k i : Nat) (b : Bool) : (s.setFlag k i b).upd = s.upd := eq_of_heq HEq.rfl
@[simp] theorem State.setFlag_boot (s : State) (k i : Nat) (b : Bool) : (s.setFlag k i b).boot = s.boot := eq_of_heq HEq.rfl
@[simp] theorem State.setFlag_sessions (s : State) (k i : Nat) (b : Bool) : (s.setFlag k i b).sessions = s.sessions := eq_of_heq HEq.rfl
@[simp] theorem State.setFlag_nextSess (s : State) (k i : Nat) (b : Bool) : (s.setFlag k i b).nextSess = s.nextSess := eq_of_heq HEq.rfl
@[simp] theorem State.setFlag_staleStop (s : State) (k i : Nat) (b : Bool) : (s.setFlag k i b).staleStop = s.staleStop := eq_of_heq HEq.rfl
@[simp] theorem State.setFlag_peers (s : State) (k i : Nat) (b : Bool) : (s.setFlag k i b).peers = s.peers := eq_of_heq HEq.rfl
@[simp] theorem State.setFlag_ptp (s : State) (k i : Nat) (b : Bool) : (s.setFlag k i b).ptp = s.ptp := eq_of_heq HEq.rfl
@[simp] theorem State.setFlag_segOut (s : State) (k i : Nat) (b : Bool) : (s.setFlag k i b).segOut = s.segOut := eq_of_heq HEq.rfl
@[simp] theorem State.setFlag_epochs (s : State) (k i : Nat) (b : Bool) : (s.setFlag k i b).epochs = s.epochs := eq_of_heq HEq.rfl
@[simp] theorem State.setFlag_fwdDone (s : State) (k i : Nat) (b : Bool) : (s.setFlag k i b).fwdDone = s.fwdDone := eq_of_heq HEq.rfl
@[simp] theorem State.setFlag_fwdUsed (s : State) (k i : Nat) (b : Bool) : (s.setFlag k i b).fwdUsed = s.fwdUsed := eq_of_heq HEq.rfl
@[simp] theorem State.setFlag_lift (s : State) (k i : Nat) (b : Bool) : (s.setFlag k i b).lift = s.lift := eq_of_heq HEq.rfl
@[simp] theorem State.setFlag_pairs (s : State) (k i : Nat) (b : Bool) : (s.setFlag k i b).pairs = s.pairs := eq_of_heq HEq.rfl
@[simp] theorem State.setFlag_field (s : State) (k i : Nat) (b : Bool) : (s.setFlag k i b).field = s.field := eq_of_heq HEq.rfl
@[simp] theorem State.setFlag_interlock (s : State) (k i : Nat) (b : Bool) : (s.setFlag k i b).interlock = s.interlock := eq_of_heq HEq.rfl

@[simp] theorem State.bump_pending (s : State) (k n : Nat) : (s.bump k n).pending = s.pending := eq_of_heq HEq.rfl
@[simp] theorem State.bump_now (s : State) (k n : Nat) : (s.bump k n).now = s.now := eq_of_heq HEq.rfl
@[simp] theorem State.bump_latch (s : State) (k n : Nat) : (s.bump k n).latch = s.latch := eq_of_heq HEq.rfl
@[simp] theorem State.bump_mem (s : State) (k n : Nat) : (s.bump k n).mem = s.mem := eq_of_heq HEq.rfl
@[simp] theorem State.bump_errRing (s : State) (k n : Nat) : (s.bump k n).errRing = s.errRing := eq_of_heq HEq.rfl
@[simp] theorem State.bump_fresh (s : State) (k n : Nat) : (s.bump k n).fresh = s.fresh := eq_of_heq HEq.rfl
@[simp] theorem State.bump_out (s : State) (k n : Nat) : (s.bump k n).out = s.out := eq_of_heq HEq.rfl
@[simp] theorem State.bump_fac (s : State) (k n : Nat) : (s.bump k n).fac = s.fac := eq_of_heq HEq.rfl
@[simp] theorem State.bump_lineActive (s : State) (k n : Nat) : (s.bump k n).lineActive = s.lineActive := eq_of_heq HEq.rfl
@[simp] theorem State.bump_msixMasked (s : State) (k n : Nat) : (s.bump k n).msixMasked = s.msixMasked := eq_of_heq HEq.rfl
@[simp] theorem State.bump_msixPending (s : State) (k n : Nat) : (s.bump k n).msixPending = s.msixPending := eq_of_heq HEq.rfl
@[simp] theorem State.bump_clocks (s : State) (k n : Nat) : (s.bump k n).clocks = s.clocks := eq_of_heq HEq.rfl
@[simp] theorem State.bump_svcLast (s : State) (k n : Nat) : (s.bump k n).svcLast = s.svcLast := eq_of_heq HEq.rfl
@[simp] theorem State.bump_svcPtr (s : State) (k n : Nat) : (s.bump k n).svcPtr = s.svcPtr := eq_of_heq HEq.rfl
@[simp] theorem State.bump_touched (s : State) (k n : Nat) : (s.bump k n).touched = s.touched := eq_of_heq HEq.rfl
@[simp] theorem State.bump_idleRetain (s : State) (k n : Nat) : (s.bump k n).idleRetain = s.idleRetain := eq_of_heq HEq.rfl
@[simp] theorem State.bump_sweep (s : State) (k n : Nat) : (s.bump k n).sweep = s.sweep := eq_of_heq HEq.rfl
@[simp] theorem State.bump_slalom (s : State) (k n : Nat) : (s.bump k n).slalom = s.slalom := eq_of_heq HEq.rfl
@[simp] theorem State.bump_log (s : State) (k n : Nat) : (s.bump k n).log = s.log := eq_of_heq HEq.rfl
@[simp] theorem State.bump_led (s : State) (k n : Nat) : (s.bump k n).led = s.led := eq_of_heq HEq.rfl
@[simp] theorem State.bump_nv (s : State) (k n : Nat) : (s.bump k n).nv = s.nv := eq_of_heq HEq.rfl
@[simp] theorem State.bump_ackedRsn (s : State) (k n : Nat) : (s.bump k n).ackedRsn = s.ackedRsn := eq_of_heq HEq.rfl
@[simp] theorem State.bump_merk (s : State) (k n : Nat) : (s.bump k n).merk = s.merk := eq_of_heq HEq.rfl
@[simp] theorem State.bump_lcWait (s : State) (k n : Nat) : (s.bump k n).lcWait = s.lcWait := eq_of_heq HEq.rfl
@[simp] theorem State.bump_lcYield (s : State) (k n : Nat) : (s.bump k n).lcYield = s.lcYield := eq_of_heq HEq.rfl
@[simp] theorem State.bump_crypto (s : State) (k n : Nat) : (s.bump k n).crypto = s.crypto := eq_of_heq HEq.rfl
@[simp] theorem State.bump_fca (s : State) (k n : Nat) : (s.bump k n).fca = s.fca := eq_of_heq HEq.rfl
@[simp] theorem State.bump_billing (s : State) (k n : Nat) : (s.bump k n).billing = s.billing := eq_of_heq HEq.rfl
@[simp] theorem State.bump_balance (s : State) (k n : Nat) : (s.bump k n).balance = s.balance := eq_of_heq HEq.rfl
@[simp] theorem State.bump_leaves (s : State) (k n : Nat) : (s.bump k n).leaves = s.leaves := eq_of_heq HEq.rfl
@[simp] theorem State.bump_tamper (s : State) (k n : Nat) : (s.bump k n).tamper = s.tamper := eq_of_heq HEq.rfl
@[simp] theorem State.bump_upd (s : State) (k n : Nat) : (s.bump k n).upd = s.upd := eq_of_heq HEq.rfl
@[simp] theorem State.bump_boot (s : State) (k n : Nat) : (s.bump k n).boot = s.boot := eq_of_heq HEq.rfl
@[simp] theorem State.bump_sessions (s : State) (k n : Nat) : (s.bump k n).sessions = s.sessions := eq_of_heq HEq.rfl
@[simp] theorem State.bump_nextSess (s : State) (k n : Nat) : (s.bump k n).nextSess = s.nextSess := eq_of_heq HEq.rfl
@[simp] theorem State.bump_staleStop (s : State) (k n : Nat) : (s.bump k n).staleStop = s.staleStop := eq_of_heq HEq.rfl
@[simp] theorem State.bump_peers (s : State) (k n : Nat) : (s.bump k n).peers = s.peers := eq_of_heq HEq.rfl
@[simp] theorem State.bump_ptp (s : State) (k n : Nat) : (s.bump k n).ptp = s.ptp := eq_of_heq HEq.rfl
@[simp] theorem State.bump_segOut (s : State) (k n : Nat) : (s.bump k n).segOut = s.segOut := eq_of_heq HEq.rfl
@[simp] theorem State.bump_epochs (s : State) (k n : Nat) : (s.bump k n).epochs = s.epochs := eq_of_heq HEq.rfl
@[simp] theorem State.bump_fwdDone (s : State) (k n : Nat) : (s.bump k n).fwdDone = s.fwdDone := eq_of_heq HEq.rfl
@[simp] theorem State.bump_fwdUsed (s : State) (k n : Nat) : (s.bump k n).fwdUsed = s.fwdUsed := eq_of_heq HEq.rfl
@[simp] theorem State.bump_lift (s : State) (k n : Nat) : (s.bump k n).lift = s.lift := eq_of_heq HEq.rfl
@[simp] theorem State.bump_pairs (s : State) (k n : Nat) : (s.bump k n).pairs = s.pairs := eq_of_heq HEq.rfl
@[simp] theorem State.bump_field (s : State) (k n : Nat) : (s.bump k n).field = s.field := eq_of_heq HEq.rfl
@[simp] theorem State.bump_interlock (s : State) (k n : Nat) : (s.bump k n).interlock = s.interlock := eq_of_heq HEq.rfl

@[simp] theorem State.setReg64_pending (s : State) (klo khi v : Nat) : (s.setReg64 klo khi v).pending = s.pending := eq_of_heq HEq.rfl
@[simp] theorem State.setReg64_now (s : State) (klo khi v : Nat) : (s.setReg64 klo khi v).now = s.now := eq_of_heq HEq.rfl
@[simp] theorem State.setReg64_latch (s : State) (klo khi v : Nat) : (s.setReg64 klo khi v).latch = s.latch := eq_of_heq HEq.rfl
@[simp] theorem State.setReg64_mem (s : State) (klo khi v : Nat) : (s.setReg64 klo khi v).mem = s.mem := eq_of_heq HEq.rfl
@[simp] theorem State.setReg64_errRing (s : State) (klo khi v : Nat) : (s.setReg64 klo khi v).errRing = s.errRing := eq_of_heq HEq.rfl
@[simp] theorem State.setReg64_fresh (s : State) (klo khi v : Nat) : (s.setReg64 klo khi v).fresh = s.fresh := eq_of_heq HEq.rfl
@[simp] theorem State.setReg64_out (s : State) (klo khi v : Nat) : (s.setReg64 klo khi v).out = s.out := eq_of_heq HEq.rfl
@[simp] theorem State.setReg64_fac (s : State) (klo khi v : Nat) : (s.setReg64 klo khi v).fac = s.fac := eq_of_heq HEq.rfl
@[simp] theorem State.setReg64_lineActive (s : State) (klo khi v : Nat) : (s.setReg64 klo khi v).lineActive = s.lineActive := eq_of_heq HEq.rfl
@[simp] theorem State.setReg64_msixMasked (s : State) (klo khi v : Nat) : (s.setReg64 klo khi v).msixMasked = s.msixMasked := eq_of_heq HEq.rfl
@[simp] theorem State.setReg64_msixPending (s : State) (klo khi v : Nat) : (s.setReg64 klo khi v).msixPending = s.msixPending := eq_of_heq HEq.rfl
@[simp] theorem State.setReg64_clocks (s : State) (klo khi v : Nat) : (s.setReg64 klo khi v).clocks = s.clocks := eq_of_heq HEq.rfl
@[simp] theorem State.setReg64_svcLast (s : State) (klo khi v : Nat) : (s.setReg64 klo khi v).svcLast = s.svcLast := eq_of_heq HEq.rfl
@[simp] theorem State.setReg64_svcPtr (s : State) (klo khi v : Nat) : (s.setReg64 klo khi v).svcPtr = s.svcPtr := eq_of_heq HEq.rfl
@[simp] theorem State.setReg64_touched (s : State) (klo khi v : Nat) : (s.setReg64 klo khi v).touched = s.touched := eq_of_heq HEq.rfl
@[simp] theorem State.setReg64_idleRetain (s : State) (klo khi v : Nat) : (s.setReg64 klo khi v).idleRetain = s.idleRetain := eq_of_heq HEq.rfl
@[simp] theorem State.setReg64_sweep (s : State) (klo khi v : Nat) : (s.setReg64 klo khi v).sweep = s.sweep := eq_of_heq HEq.rfl
@[simp] theorem State.setReg64_slalom (s : State) (klo khi v : Nat) : (s.setReg64 klo khi v).slalom = s.slalom := eq_of_heq HEq.rfl
@[simp] theorem State.setReg64_log (s : State) (klo khi v : Nat) : (s.setReg64 klo khi v).log = s.log := eq_of_heq HEq.rfl
@[simp] theorem State.setReg64_led (s : State) (klo khi v : Nat) : (s.setReg64 klo khi v).led = s.led := eq_of_heq HEq.rfl
@[simp] theorem State.setReg64_nv (s : State) (klo khi v : Nat) : (s.setReg64 klo khi v).nv = s.nv := eq_of_heq HEq.rfl
@[simp] theorem State.setReg64_ackedRsn (s : State) (klo khi v : Nat) : (s.setReg64 klo khi v).ackedRsn = s.ackedRsn := eq_of_heq HEq.rfl
@[simp] theorem State.setReg64_merk (s : State) (klo khi v : Nat) : (s.setReg64 klo khi v).merk = s.merk := eq_of_heq HEq.rfl
@[simp] theorem State.setReg64_lcWait (s : State) (klo khi v : Nat) : (s.setReg64 klo khi v).lcWait = s.lcWait := eq_of_heq HEq.rfl
@[simp] theorem State.setReg64_lcYield (s : State) (klo khi v : Nat) : (s.setReg64 klo khi v).lcYield = s.lcYield := eq_of_heq HEq.rfl
@[simp] theorem State.setReg64_crypto (s : State) (klo khi v : Nat) : (s.setReg64 klo khi v).crypto = s.crypto := eq_of_heq HEq.rfl
@[simp] theorem State.setReg64_fca (s : State) (klo khi v : Nat) : (s.setReg64 klo khi v).fca = s.fca := eq_of_heq HEq.rfl
@[simp] theorem State.setReg64_billing (s : State) (klo khi v : Nat) : (s.setReg64 klo khi v).billing = s.billing := eq_of_heq HEq.rfl
@[simp] theorem State.setReg64_balance (s : State) (klo khi v : Nat) : (s.setReg64 klo khi v).balance = s.balance := eq_of_heq HEq.rfl
@[simp] theorem State.setReg64_leaves (s : State) (klo khi v : Nat) : (s.setReg64 klo khi v).leaves = s.leaves := eq_of_heq HEq.rfl
@[simp] theorem State.setReg64_tamper (s : State) (klo khi v : Nat) : (s.setReg64 klo khi v).tamper = s.tamper := eq_of_heq HEq.rfl
@[simp] theorem State.setReg64_upd (s : State) (klo khi v : Nat) : (s.setReg64 klo khi v).upd = s.upd := eq_of_heq HEq.rfl
@[simp] theorem State.setReg64_boot (s : State) (klo khi v : Nat) : (s.setReg64 klo khi v).boot = s.boot := eq_of_heq HEq.rfl
@[simp] theorem State.setReg64_sessions (s : State) (klo khi v : Nat) : (s.setReg64 klo khi v).sessions = s.sessions := eq_of_heq HEq.rfl
@[simp] theorem State.setReg64_nextSess (s : State) (klo khi v : Nat) : (s.setReg64 klo khi v).nextSess = s.nextSess := eq_of_heq HEq.rfl
@[simp] theorem State.setReg64_staleStop (s : State) (klo khi v : Nat) : (s.setReg64 klo khi v).staleStop = s.staleStop := eq_of_heq HEq.rfl
@[simp] theorem State.setReg64_peers (s : State) (klo khi v : Nat) : (s.setReg64 klo khi v).peers = s.peers := eq_of_heq HEq.rfl
@[simp] theorem State.setReg64_ptp (s : State) (klo khi v : Nat) : (s.setReg64 klo khi v).ptp = s.ptp := eq_of_heq HEq.rfl
@[simp] theorem State.setReg64_segOut (s : State) (klo khi v : Nat) : (s.setReg64 klo khi v).segOut = s.segOut := eq_of_heq HEq.rfl
@[simp] theorem State.setReg64_epochs (s : State) (klo khi v : Nat) : (s.setReg64 klo khi v).epochs = s.epochs := eq_of_heq HEq.rfl
@[simp] theorem State.setReg64_fwdDone (s : State) (klo khi v : Nat) : (s.setReg64 klo khi v).fwdDone = s.fwdDone := eq_of_heq HEq.rfl
@[simp] theorem State.setReg64_fwdUsed (s : State) (klo khi v : Nat) : (s.setReg64 klo khi v).fwdUsed = s.fwdUsed := eq_of_heq HEq.rfl
@[simp] theorem State.setReg64_lift (s : State) (klo khi v : Nat) : (s.setReg64 klo khi v).lift = s.lift := eq_of_heq HEq.rfl
@[simp] theorem State.setReg64_pairs (s : State) (klo khi v : Nat) : (s.setReg64 klo khi v).pairs = s.pairs := eq_of_heq HEq.rfl
@[simp] theorem State.setReg64_field (s : State) (klo khi v : Nat) : (s.setReg64 klo khi v).field = s.field := eq_of_heq HEq.rfl
@[simp] theorem State.setReg64_interlock (s : State) (klo khi v : Nat) : (s.setReg64 klo khi v).interlock = s.interlock := eq_of_heq HEq.rfl

@[simp] theorem State.send_pending (s : State) (o : Output) : (s.send o).pending = s.pending := eq_of_heq HEq.rfl
@[simp] theorem State.send_now (s : State) (o : Output) : (s.send o).now = s.now := eq_of_heq HEq.rfl
@[simp] theorem State.send_regs (s : State) (o : Output) : (s.send o).regs = s.regs := eq_of_heq HEq.rfl
@[simp] theorem State.send_latch (s : State) (o : Output) : (s.send o).latch = s.latch := eq_of_heq HEq.rfl
@[simp] theorem State.send_mem (s : State) (o : Output) : (s.send o).mem = s.mem := eq_of_heq HEq.rfl
@[simp] theorem State.send_errRing (s : State) (o : Output) : (s.send o).errRing = s.errRing := eq_of_heq HEq.rfl
@[simp] theorem State.send_fresh (s : State) (o : Output) : (s.send o).fresh = s.fresh := eq_of_heq HEq.rfl
@[simp] theorem State.send_out (s : State) (o : Output) : (s.send o).out = o :: s.out := eq_of_heq HEq.rfl
@[simp] theorem State.send_fac (s : State) (o : Output) : (s.send o).fac = s.fac := eq_of_heq HEq.rfl
@[simp] theorem State.send_lineActive (s : State) (o : Output) : (s.send o).lineActive = s.lineActive := eq_of_heq HEq.rfl
@[simp] theorem State.send_msixMasked (s : State) (o : Output) : (s.send o).msixMasked = s.msixMasked := eq_of_heq HEq.rfl
@[simp] theorem State.send_msixPending (s : State) (o : Output) : (s.send o).msixPending = s.msixPending := eq_of_heq HEq.rfl
@[simp] theorem State.send_clocks (s : State) (o : Output) : (s.send o).clocks = s.clocks := eq_of_heq HEq.rfl
@[simp] theorem State.send_svcLast (s : State) (o : Output) : (s.send o).svcLast = s.svcLast := eq_of_heq HEq.rfl
@[simp] theorem State.send_svcPtr (s : State) (o : Output) : (s.send o).svcPtr = s.svcPtr := eq_of_heq HEq.rfl
@[simp] theorem State.send_touched (s : State) (o : Output) : (s.send o).touched = s.touched := eq_of_heq HEq.rfl
@[simp] theorem State.send_idleRetain (s : State) (o : Output) : (s.send o).idleRetain = s.idleRetain := eq_of_heq HEq.rfl
@[simp] theorem State.send_sweep (s : State) (o : Output) : (s.send o).sweep = s.sweep := eq_of_heq HEq.rfl
@[simp] theorem State.send_slalom (s : State) (o : Output) : (s.send o).slalom = s.slalom := eq_of_heq HEq.rfl
@[simp] theorem State.send_log (s : State) (o : Output) : (s.send o).log = s.log := eq_of_heq HEq.rfl
@[simp] theorem State.send_led (s : State) (o : Output) : (s.send o).led = s.led := eq_of_heq HEq.rfl
@[simp] theorem State.send_nv (s : State) (o : Output) : (s.send o).nv = s.nv := eq_of_heq HEq.rfl
@[simp] theorem State.send_ackedRsn (s : State) (o : Output) : (s.send o).ackedRsn = s.ackedRsn := eq_of_heq HEq.rfl
@[simp] theorem State.send_merk (s : State) (o : Output) : (s.send o).merk = s.merk := eq_of_heq HEq.rfl
@[simp] theorem State.send_lcWait (s : State) (o : Output) : (s.send o).lcWait = s.lcWait := eq_of_heq HEq.rfl
@[simp] theorem State.send_lcYield (s : State) (o : Output) : (s.send o).lcYield = s.lcYield := eq_of_heq HEq.rfl
@[simp] theorem State.send_crypto (s : State) (o : Output) : (s.send o).crypto = s.crypto := eq_of_heq HEq.rfl
@[simp] theorem State.send_fca (s : State) (o : Output) : (s.send o).fca = s.fca := eq_of_heq HEq.rfl
@[simp] theorem State.send_billing (s : State) (o : Output) : (s.send o).billing = s.billing := eq_of_heq HEq.rfl
@[simp] theorem State.send_balance (s : State) (o : Output) : (s.send o).balance = s.balance := eq_of_heq HEq.rfl
@[simp] theorem State.send_leaves (s : State) (o : Output) : (s.send o).leaves = s.leaves := eq_of_heq HEq.rfl
@[simp] theorem State.send_tamper (s : State) (o : Output) : (s.send o).tamper = s.tamper := eq_of_heq HEq.rfl
@[simp] theorem State.send_upd (s : State) (o : Output) : (s.send o).upd = s.upd := eq_of_heq HEq.rfl
@[simp] theorem State.send_boot (s : State) (o : Output) : (s.send o).boot = s.boot := eq_of_heq HEq.rfl
@[simp] theorem State.send_sessions (s : State) (o : Output) : (s.send o).sessions = s.sessions := eq_of_heq HEq.rfl
@[simp] theorem State.send_nextSess (s : State) (o : Output) : (s.send o).nextSess = s.nextSess := eq_of_heq HEq.rfl
@[simp] theorem State.send_staleStop (s : State) (o : Output) : (s.send o).staleStop = s.staleStop := eq_of_heq HEq.rfl
@[simp] theorem State.send_peers (s : State) (o : Output) : (s.send o).peers = s.peers := eq_of_heq HEq.rfl
@[simp] theorem State.send_ptp (s : State) (o : Output) : (s.send o).ptp = s.ptp := eq_of_heq HEq.rfl
@[simp] theorem State.send_segOut (s : State) (o : Output) : (s.send o).segOut = s.segOut := eq_of_heq HEq.rfl
@[simp] theorem State.send_epochs (s : State) (o : Output) : (s.send o).epochs = s.epochs := eq_of_heq HEq.rfl
@[simp] theorem State.send_fwdDone (s : State) (o : Output) : (s.send o).fwdDone = s.fwdDone := eq_of_heq HEq.rfl
@[simp] theorem State.send_fwdUsed (s : State) (o : Output) : (s.send o).fwdUsed = s.fwdUsed := eq_of_heq HEq.rfl
@[simp] theorem State.send_lift (s : State) (o : Output) : (s.send o).lift = s.lift := eq_of_heq HEq.rfl
@[simp] theorem State.send_pairs (s : State) (o : Output) : (s.send o).pairs = s.pairs := eq_of_heq HEq.rfl
@[simp] theorem State.send_field (s : State) (o : Output) : (s.send o).field = s.field := eq_of_heq HEq.rfl
@[simp] theorem State.send_interlock (s : State) (o : Output) : (s.send o).interlock = s.interlock := eq_of_heq HEq.rfl

@[simp] theorem State.latchAt_pending (s : State) (p : Path) (k v : Nat) : (s.latchAt p k v).pending = s.pending := eq_of_heq HEq.rfl
@[simp] theorem State.latchAt_now (s : State) (p : Path) (k v : Nat) : (s.latchAt p k v).now = s.now := eq_of_heq HEq.rfl
@[simp] theorem State.latchAt_regs (s : State) (p : Path) (k v : Nat) : (s.latchAt p k v).regs = s.regs := eq_of_heq HEq.rfl
@[simp] theorem State.latchAt_latch (s : State) (p : Path) (k v : Nat) : (s.latchAt p k v).latch = s.latch.put (pathIdx p * 2 ^ 20 + k) (BitVec.ofNat 32 v) := eq_of_heq HEq.rfl
@[simp] theorem State.latchAt_mem (s : State) (p : Path) (k v : Nat) : (s.latchAt p k v).mem = s.mem := eq_of_heq HEq.rfl
@[simp] theorem State.latchAt_errRing (s : State) (p : Path) (k v : Nat) : (s.latchAt p k v).errRing = s.errRing := eq_of_heq HEq.rfl
@[simp] theorem State.latchAt_fresh (s : State) (p : Path) (k v : Nat) : (s.latchAt p k v).fresh = s.fresh := eq_of_heq HEq.rfl
@[simp] theorem State.latchAt_out (s : State) (p : Path) (k v : Nat) : (s.latchAt p k v).out = s.out := eq_of_heq HEq.rfl
@[simp] theorem State.latchAt_fac (s : State) (p : Path) (k v : Nat) : (s.latchAt p k v).fac = s.fac := eq_of_heq HEq.rfl
@[simp] theorem State.latchAt_lineActive (s : State) (p : Path) (k v : Nat) : (s.latchAt p k v).lineActive = s.lineActive := eq_of_heq HEq.rfl
@[simp] theorem State.latchAt_msixMasked (s : State) (p : Path) (k v : Nat) : (s.latchAt p k v).msixMasked = s.msixMasked := eq_of_heq HEq.rfl
@[simp] theorem State.latchAt_msixPending (s : State) (p : Path) (k v : Nat) : (s.latchAt p k v).msixPending = s.msixPending := eq_of_heq HEq.rfl
@[simp] theorem State.latchAt_clocks (s : State) (p : Path) (k v : Nat) : (s.latchAt p k v).clocks = s.clocks := eq_of_heq HEq.rfl
@[simp] theorem State.latchAt_svcLast (s : State) (p : Path) (k v : Nat) : (s.latchAt p k v).svcLast = s.svcLast := eq_of_heq HEq.rfl
@[simp] theorem State.latchAt_svcPtr (s : State) (p : Path) (k v : Nat) : (s.latchAt p k v).svcPtr = s.svcPtr := eq_of_heq HEq.rfl
@[simp] theorem State.latchAt_touched (s : State) (p : Path) (k v : Nat) : (s.latchAt p k v).touched = s.touched := eq_of_heq HEq.rfl
@[simp] theorem State.latchAt_idleRetain (s : State) (p : Path) (k v : Nat) : (s.latchAt p k v).idleRetain = s.idleRetain := eq_of_heq HEq.rfl
@[simp] theorem State.latchAt_sweep (s : State) (p : Path) (k v : Nat) : (s.latchAt p k v).sweep = s.sweep := eq_of_heq HEq.rfl
@[simp] theorem State.latchAt_slalom (s : State) (p : Path) (k v : Nat) : (s.latchAt p k v).slalom = s.slalom := eq_of_heq HEq.rfl
@[simp] theorem State.latchAt_log (s : State) (p : Path) (k v : Nat) : (s.latchAt p k v).log = s.log := eq_of_heq HEq.rfl
@[simp] theorem State.latchAt_led (s : State) (p : Path) (k v : Nat) : (s.latchAt p k v).led = s.led := eq_of_heq HEq.rfl
@[simp] theorem State.latchAt_nv (s : State) (p : Path) (k v : Nat) : (s.latchAt p k v).nv = s.nv := eq_of_heq HEq.rfl
@[simp] theorem State.latchAt_ackedRsn (s : State) (p : Path) (k v : Nat) : (s.latchAt p k v).ackedRsn = s.ackedRsn := eq_of_heq HEq.rfl
@[simp] theorem State.latchAt_merk (s : State) (p : Path) (k v : Nat) : (s.latchAt p k v).merk = s.merk := eq_of_heq HEq.rfl
@[simp] theorem State.latchAt_lcWait (s : State) (p : Path) (k v : Nat) : (s.latchAt p k v).lcWait = s.lcWait := eq_of_heq HEq.rfl
@[simp] theorem State.latchAt_lcYield (s : State) (p : Path) (k v : Nat) : (s.latchAt p k v).lcYield = s.lcYield := eq_of_heq HEq.rfl
@[simp] theorem State.latchAt_crypto (s : State) (p : Path) (k v : Nat) : (s.latchAt p k v).crypto = s.crypto := eq_of_heq HEq.rfl
@[simp] theorem State.latchAt_fca (s : State) (p : Path) (k v : Nat) : (s.latchAt p k v).fca = s.fca := eq_of_heq HEq.rfl
@[simp] theorem State.latchAt_billing (s : State) (p : Path) (k v : Nat) : (s.latchAt p k v).billing = s.billing := eq_of_heq HEq.rfl
@[simp] theorem State.latchAt_balance (s : State) (p : Path) (k v : Nat) : (s.latchAt p k v).balance = s.balance := eq_of_heq HEq.rfl
@[simp] theorem State.latchAt_leaves (s : State) (p : Path) (k v : Nat) : (s.latchAt p k v).leaves = s.leaves := eq_of_heq HEq.rfl
@[simp] theorem State.latchAt_tamper (s : State) (p : Path) (k v : Nat) : (s.latchAt p k v).tamper = s.tamper := eq_of_heq HEq.rfl
@[simp] theorem State.latchAt_upd (s : State) (p : Path) (k v : Nat) : (s.latchAt p k v).upd = s.upd := eq_of_heq HEq.rfl
@[simp] theorem State.latchAt_boot (s : State) (p : Path) (k v : Nat) : (s.latchAt p k v).boot = s.boot := eq_of_heq HEq.rfl
@[simp] theorem State.latchAt_sessions (s : State) (p : Path) (k v : Nat) : (s.latchAt p k v).sessions = s.sessions := eq_of_heq HEq.rfl
@[simp] theorem State.latchAt_nextSess (s : State) (p : Path) (k v : Nat) : (s.latchAt p k v).nextSess = s.nextSess := eq_of_heq HEq.rfl
@[simp] theorem State.latchAt_staleStop (s : State) (p : Path) (k v : Nat) : (s.latchAt p k v).staleStop = s.staleStop := eq_of_heq HEq.rfl
@[simp] theorem State.latchAt_peers (s : State) (p : Path) (k v : Nat) : (s.latchAt p k v).peers = s.peers := eq_of_heq HEq.rfl
@[simp] theorem State.latchAt_ptp (s : State) (p : Path) (k v : Nat) : (s.latchAt p k v).ptp = s.ptp := eq_of_heq HEq.rfl
@[simp] theorem State.latchAt_segOut (s : State) (p : Path) (k v : Nat) : (s.latchAt p k v).segOut = s.segOut := eq_of_heq HEq.rfl
@[simp] theorem State.latchAt_epochs (s : State) (p : Path) (k v : Nat) : (s.latchAt p k v).epochs = s.epochs := eq_of_heq HEq.rfl
@[simp] theorem State.latchAt_fwdDone (s : State) (p : Path) (k v : Nat) : (s.latchAt p k v).fwdDone = s.fwdDone := eq_of_heq HEq.rfl
@[simp] theorem State.latchAt_fwdUsed (s : State) (p : Path) (k v : Nat) : (s.latchAt p k v).fwdUsed = s.fwdUsed := eq_of_heq HEq.rfl
@[simp] theorem State.latchAt_lift (s : State) (p : Path) (k v : Nat) : (s.latchAt p k v).lift = s.lift := eq_of_heq HEq.rfl
@[simp] theorem State.latchAt_pairs (s : State) (p : Path) (k v : Nat) : (s.latchAt p k v).pairs = s.pairs := eq_of_heq HEq.rfl
@[simp] theorem State.latchAt_field (s : State) (p : Path) (k v : Nat) : (s.latchAt p k v).field = s.field := eq_of_heq HEq.rfl
@[simp] theorem State.latchAt_interlock (s : State) (p : Path) (k v : Nat) : (s.latchAt p k v).interlock = s.interlock := eq_of_heq HEq.rfl

@[simp] theorem State.draw_pending (s : State) : (s.draw.2).pending = s.pending := eq_of_heq HEq.rfl
@[simp] theorem State.draw_now (s : State) : (s.draw.2).now = s.now := eq_of_heq HEq.rfl
@[simp] theorem State.draw_regs (s : State) : (s.draw.2).regs = s.regs := eq_of_heq HEq.rfl
@[simp] theorem State.draw_latch (s : State) : (s.draw.2).latch = s.latch := eq_of_heq HEq.rfl
@[simp] theorem State.draw_mem (s : State) : (s.draw.2).mem = s.mem := eq_of_heq HEq.rfl
@[simp] theorem State.draw_errRing (s : State) : (s.draw.2).errRing = s.errRing := eq_of_heq HEq.rfl
@[simp] theorem State.draw_fresh (s : State) : (s.draw.2).fresh = s.fresh + 1 := eq_of_heq HEq.rfl
@[simp] theorem State.draw_out (s : State) : (s.draw.2).out = s.out := eq_of_heq HEq.rfl
@[simp] theorem State.draw_fac (s : State) : (s.draw.2).fac = s.fac := eq_of_heq HEq.rfl
@[simp] theorem State.draw_lineActive (s : State) : (s.draw.2).lineActive = s.lineActive := eq_of_heq HEq.rfl
@[simp] theorem State.draw_msixMasked (s : State) : (s.draw.2).msixMasked = s.msixMasked := eq_of_heq HEq.rfl
@[simp] theorem State.draw_msixPending (s : State) : (s.draw.2).msixPending = s.msixPending := eq_of_heq HEq.rfl
@[simp] theorem State.draw_clocks (s : State) : (s.draw.2).clocks = s.clocks := eq_of_heq HEq.rfl
@[simp] theorem State.draw_svcLast (s : State) : (s.draw.2).svcLast = s.svcLast := eq_of_heq HEq.rfl
@[simp] theorem State.draw_svcPtr (s : State) : (s.draw.2).svcPtr = s.svcPtr := eq_of_heq HEq.rfl
@[simp] theorem State.draw_touched (s : State) : (s.draw.2).touched = s.touched := eq_of_heq HEq.rfl
@[simp] theorem State.draw_idleRetain (s : State) : (s.draw.2).idleRetain = s.idleRetain := eq_of_heq HEq.rfl
@[simp] theorem State.draw_sweep (s : State) : (s.draw.2).sweep = s.sweep := eq_of_heq HEq.rfl
@[simp] theorem State.draw_slalom (s : State) : (s.draw.2).slalom = s.slalom := eq_of_heq HEq.rfl
@[simp] theorem State.draw_log (s : State) : (s.draw.2).log = s.log := eq_of_heq HEq.rfl
@[simp] theorem State.draw_led (s : State) : (s.draw.2).led = s.led := eq_of_heq HEq.rfl
@[simp] theorem State.draw_nv (s : State) : (s.draw.2).nv = s.nv := eq_of_heq HEq.rfl
@[simp] theorem State.draw_ackedRsn (s : State) : (s.draw.2).ackedRsn = s.ackedRsn := eq_of_heq HEq.rfl
@[simp] theorem State.draw_merk (s : State) : (s.draw.2).merk = s.merk := eq_of_heq HEq.rfl
@[simp] theorem State.draw_lcWait (s : State) : (s.draw.2).lcWait = s.lcWait := eq_of_heq HEq.rfl
@[simp] theorem State.draw_lcYield (s : State) : (s.draw.2).lcYield = s.lcYield := eq_of_heq HEq.rfl
@[simp] theorem State.draw_crypto (s : State) : (s.draw.2).crypto = s.crypto := eq_of_heq HEq.rfl
@[simp] theorem State.draw_fca (s : State) : (s.draw.2).fca = s.fca := eq_of_heq HEq.rfl
@[simp] theorem State.draw_billing (s : State) : (s.draw.2).billing = s.billing := eq_of_heq HEq.rfl
@[simp] theorem State.draw_balance (s : State) : (s.draw.2).balance = s.balance := eq_of_heq HEq.rfl
@[simp] theorem State.draw_leaves (s : State) : (s.draw.2).leaves = s.leaves := eq_of_heq HEq.rfl
@[simp] theorem State.draw_tamper (s : State) : (s.draw.2).tamper = s.tamper := eq_of_heq HEq.rfl
@[simp] theorem State.draw_upd (s : State) : (s.draw.2).upd = s.upd := eq_of_heq HEq.rfl
@[simp] theorem State.draw_boot (s : State) : (s.draw.2).boot = s.boot := eq_of_heq HEq.rfl
@[simp] theorem State.draw_sessions (s : State) : (s.draw.2).sessions = s.sessions := eq_of_heq HEq.rfl
@[simp] theorem State.draw_nextSess (s : State) : (s.draw.2).nextSess = s.nextSess := eq_of_heq HEq.rfl
@[simp] theorem State.draw_staleStop (s : State) : (s.draw.2).staleStop = s.staleStop := eq_of_heq HEq.rfl
@[simp] theorem State.draw_peers (s : State) : (s.draw.2).peers = s.peers := eq_of_heq HEq.rfl
@[simp] theorem State.draw_ptp (s : State) : (s.draw.2).ptp = s.ptp := eq_of_heq HEq.rfl
@[simp] theorem State.draw_segOut (s : State) : (s.draw.2).segOut = s.segOut := eq_of_heq HEq.rfl
@[simp] theorem State.draw_epochs (s : State) : (s.draw.2).epochs = s.epochs := eq_of_heq HEq.rfl
@[simp] theorem State.draw_fwdDone (s : State) : (s.draw.2).fwdDone = s.fwdDone := eq_of_heq HEq.rfl
@[simp] theorem State.draw_fwdUsed (s : State) : (s.draw.2).fwdUsed = s.fwdUsed := eq_of_heq HEq.rfl
@[simp] theorem State.draw_lift (s : State) : (s.draw.2).lift = s.lift := eq_of_heq HEq.rfl
@[simp] theorem State.draw_pairs (s : State) : (s.draw.2).pairs = s.pairs := eq_of_heq HEq.rfl
@[simp] theorem State.draw_field (s : State) : (s.draw.2).field = s.field := eq_of_heq HEq.rfl
@[simp] theorem State.draw_interlock (s : State) : (s.draw.2).interlock = s.interlock := eq_of_heq HEq.rfl

@[simp] theorem State.drawBit_pending (s : State) : (s.drawBit.2).pending = s.pending := eq_of_heq HEq.rfl
@[simp] theorem State.drawBit_now (s : State) : (s.drawBit.2).now = s.now := eq_of_heq HEq.rfl
@[simp] theorem State.drawBit_regs (s : State) : (s.drawBit.2).regs = s.regs := eq_of_heq HEq.rfl
@[simp] theorem State.drawBit_latch (s : State) : (s.drawBit.2).latch = s.latch := eq_of_heq HEq.rfl
@[simp] theorem State.drawBit_mem (s : State) : (s.drawBit.2).mem = s.mem := eq_of_heq HEq.rfl
@[simp] theorem State.drawBit_errRing (s : State) : (s.drawBit.2).errRing = s.errRing := eq_of_heq HEq.rfl
@[simp] theorem State.drawBit_fresh (s : State) : (s.drawBit.2).fresh = s.fresh + 1 := eq_of_heq HEq.rfl
@[simp] theorem State.drawBit_out (s : State) : (s.drawBit.2).out = s.out := eq_of_heq HEq.rfl
@[simp] theorem State.drawBit_fac (s : State) : (s.drawBit.2).fac = s.fac := eq_of_heq HEq.rfl
@[simp] theorem State.drawBit_lineActive (s : State) : (s.drawBit.2).lineActive = s.lineActive := eq_of_heq HEq.rfl
@[simp] theorem State.drawBit_msixMasked (s : State) : (s.drawBit.2).msixMasked = s.msixMasked := eq_of_heq HEq.rfl
@[simp] theorem State.drawBit_msixPending (s : State) : (s.drawBit.2).msixPending = s.msixPending := eq_of_heq HEq.rfl
@[simp] theorem State.drawBit_clocks (s : State) : (s.drawBit.2).clocks = s.clocks := eq_of_heq HEq.rfl
@[simp] theorem State.drawBit_svcLast (s : State) : (s.drawBit.2).svcLast = s.svcLast := eq_of_heq HEq.rfl
@[simp] theorem State.drawBit_svcPtr (s : State) : (s.drawBit.2).svcPtr = s.svcPtr := eq_of_heq HEq.rfl
@[simp] theorem State.drawBit_touched (s : State) : (s.drawBit.2).touched = s.touched := eq_of_heq HEq.rfl
@[simp] theorem State.drawBit_idleRetain (s : State) : (s.drawBit.2).idleRetain = s.idleRetain := eq_of_heq HEq.rfl
@[simp] theorem State.drawBit_sweep (s : State) : (s.drawBit.2).sweep = s.sweep := eq_of_heq HEq.rfl
@[simp] theorem State.drawBit_slalom (s : State) : (s.drawBit.2).slalom = s.slalom := eq_of_heq HEq.rfl
@[simp] theorem State.drawBit_log (s : State) : (s.drawBit.2).log = s.log := eq_of_heq HEq.rfl
@[simp] theorem State.drawBit_led (s : State) : (s.drawBit.2).led = s.led := eq_of_heq HEq.rfl
@[simp] theorem State.drawBit_nv (s : State) : (s.drawBit.2).nv = s.nv := eq_of_heq HEq.rfl
@[simp] theorem State.drawBit_ackedRsn (s : State) : (s.drawBit.2).ackedRsn = s.ackedRsn := eq_of_heq HEq.rfl
@[simp] theorem State.drawBit_merk (s : State) : (s.drawBit.2).merk = s.merk := eq_of_heq HEq.rfl
@[simp] theorem State.drawBit_lcWait (s : State) : (s.drawBit.2).lcWait = s.lcWait := eq_of_heq HEq.rfl
@[simp] theorem State.drawBit_lcYield (s : State) : (s.drawBit.2).lcYield = s.lcYield := eq_of_heq HEq.rfl
@[simp] theorem State.drawBit_crypto (s : State) : (s.drawBit.2).crypto = s.crypto := eq_of_heq HEq.rfl
@[simp] theorem State.drawBit_fca (s : State) : (s.drawBit.2).fca = s.fca := eq_of_heq HEq.rfl
@[simp] theorem State.drawBit_billing (s : State) : (s.drawBit.2).billing = s.billing := eq_of_heq HEq.rfl
@[simp] theorem State.drawBit_balance (s : State) : (s.drawBit.2).balance = s.balance := eq_of_heq HEq.rfl
@[simp] theorem State.drawBit_leaves (s : State) : (s.drawBit.2).leaves = s.leaves := eq_of_heq HEq.rfl
@[simp] theorem State.drawBit_tamper (s : State) : (s.drawBit.2).tamper = s.tamper := eq_of_heq HEq.rfl
@[simp] theorem State.drawBit_upd (s : State) : (s.drawBit.2).upd = s.upd := eq_of_heq HEq.rfl
@[simp] theorem State.drawBit_boot (s : State) : (s.drawBit.2).boot = s.boot := eq_of_heq HEq.rfl
@[simp] theorem State.drawBit_sessions (s : State) : (s.drawBit.2).sessions = s.sessions := eq_of_heq HEq.rfl
@[simp] theorem State.drawBit_nextSess (s : State) : (s.drawBit.2).nextSess = s.nextSess := eq_of_heq HEq.rfl
@[simp] theorem State.drawBit_staleStop (s : State) : (s.drawBit.2).staleStop = s.staleStop := eq_of_heq HEq.rfl
@[simp] theorem State.drawBit_peers (s : State) : (s.drawBit.2).peers = s.peers := eq_of_heq HEq.rfl
@[simp] theorem State.drawBit_ptp (s : State) : (s.drawBit.2).ptp = s.ptp := eq_of_heq HEq.rfl
@[simp] theorem State.drawBit_segOut (s : State) : (s.drawBit.2).segOut = s.segOut := eq_of_heq HEq.rfl
@[simp] theorem State.drawBit_epochs (s : State) : (s.drawBit.2).epochs = s.epochs := eq_of_heq HEq.rfl
@[simp] theorem State.drawBit_fwdDone (s : State) : (s.drawBit.2).fwdDone = s.fwdDone := eq_of_heq HEq.rfl
@[simp] theorem State.drawBit_fwdUsed (s : State) : (s.drawBit.2).fwdUsed = s.fwdUsed := eq_of_heq HEq.rfl
@[simp] theorem State.drawBit_lift (s : State) : (s.drawBit.2).lift = s.lift := eq_of_heq HEq.rfl
@[simp] theorem State.drawBit_pairs (s : State) : (s.drawBit.2).pairs = s.pairs := eq_of_heq HEq.rfl
@[simp] theorem State.drawBit_field (s : State) : (s.drawBit.2).field = s.field := eq_of_heq HEq.rfl
@[simp] theorem State.drawBit_interlock (s : State) : (s.drawBit.2).interlock = s.interlock := eq_of_heq HEq.rfl

@[simp] theorem State.setTxKey_pending (s : State) (key : Nat) (k : TxKey) : (s.setTxKey key k).pending = s.pending := eq_of_heq HEq.rfl
@[simp] theorem State.setTxKey_now (s : State) (key : Nat) (k : TxKey) : (s.setTxKey key k).now = s.now := eq_of_heq HEq.rfl
@[simp] theorem State.setTxKey_regs (s : State) (key : Nat) (k : TxKey) : (s.setTxKey key k).regs = s.regs := eq_of_heq HEq.rfl
@[simp] theorem State.setTxKey_latch (s : State) (key : Nat) (k : TxKey) : (s.setTxKey key k).latch = s.latch := eq_of_heq HEq.rfl
@[simp] theorem State.setTxKey_mem (s : State) (key : Nat) (k : TxKey) : (s.setTxKey key k).mem = s.mem := eq_of_heq HEq.rfl
@[simp] theorem State.setTxKey_errRing (s : State) (key : Nat) (k : TxKey) : (s.setTxKey key k).errRing = s.errRing := eq_of_heq HEq.rfl
@[simp] theorem State.setTxKey_fresh (s : State) (key : Nat) (k : TxKey) : (s.setTxKey key k).fresh = s.fresh := eq_of_heq HEq.rfl
@[simp] theorem State.setTxKey_out (s : State) (key : Nat) (k : TxKey) : (s.setTxKey key k).out = s.out := eq_of_heq HEq.rfl
@[simp] theorem State.setTxKey_fac (s : State) (key : Nat) (k : TxKey) : (s.setTxKey key k).fac = s.fac := eq_of_heq HEq.rfl
@[simp] theorem State.setTxKey_lineActive (s : State) (key : Nat) (k : TxKey) : (s.setTxKey key k).lineActive = s.lineActive := eq_of_heq HEq.rfl
@[simp] theorem State.setTxKey_msixMasked (s : State) (key : Nat) (k : TxKey) : (s.setTxKey key k).msixMasked = s.msixMasked := eq_of_heq HEq.rfl
@[simp] theorem State.setTxKey_msixPending (s : State) (key : Nat) (k : TxKey) : (s.setTxKey key k).msixPending = s.msixPending := eq_of_heq HEq.rfl
@[simp] theorem State.setTxKey_clocks (s : State) (key : Nat) (k : TxKey) : (s.setTxKey key k).clocks = s.clocks := eq_of_heq HEq.rfl
@[simp] theorem State.setTxKey_svcLast (s : State) (key : Nat) (k : TxKey) : (s.setTxKey key k).svcLast = s.svcLast := eq_of_heq HEq.rfl
@[simp] theorem State.setTxKey_svcPtr (s : State) (key : Nat) (k : TxKey) : (s.setTxKey key k).svcPtr = s.svcPtr := eq_of_heq HEq.rfl
@[simp] theorem State.setTxKey_touched (s : State) (key : Nat) (k : TxKey) : (s.setTxKey key k).touched = s.touched := eq_of_heq HEq.rfl
@[simp] theorem State.setTxKey_idleRetain (s : State) (key : Nat) (k : TxKey) : (s.setTxKey key k).idleRetain = s.idleRetain := eq_of_heq HEq.rfl
@[simp] theorem State.setTxKey_sweep (s : State) (key : Nat) (k : TxKey) : (s.setTxKey key k).sweep = s.sweep := eq_of_heq HEq.rfl
@[simp] theorem State.setTxKey_slalom (s : State) (key : Nat) (k : TxKey) : (s.setTxKey key k).slalom = s.slalom := eq_of_heq HEq.rfl
@[simp] theorem State.setTxKey_log (s : State) (key : Nat) (k : TxKey) : (s.setTxKey key k).log = s.log := eq_of_heq HEq.rfl
@[simp] theorem State.setTxKey_led (s : State) (key : Nat) (k : TxKey) : (s.setTxKey key k).led = s.led := eq_of_heq HEq.rfl
@[simp] theorem State.setTxKey_nv (s : State) (key : Nat) (k : TxKey) : (s.setTxKey key k).nv = { s.nv with txKeys := s.nv.txKeys.put key k } := eq_of_heq HEq.rfl
@[simp] theorem State.setTxKey_ackedRsn (s : State) (key : Nat) (k : TxKey) : (s.setTxKey key k).ackedRsn = s.ackedRsn := eq_of_heq HEq.rfl
@[simp] theorem State.setTxKey_merk (s : State) (key : Nat) (k : TxKey) : (s.setTxKey key k).merk = s.merk := eq_of_heq HEq.rfl
@[simp] theorem State.setTxKey_lcWait (s : State) (key : Nat) (k : TxKey) : (s.setTxKey key k).lcWait = s.lcWait := eq_of_heq HEq.rfl
@[simp] theorem State.setTxKey_lcYield (s : State) (key : Nat) (k : TxKey) : (s.setTxKey key k).lcYield = s.lcYield := eq_of_heq HEq.rfl
@[simp] theorem State.setTxKey_crypto (s : State) (key : Nat) (k : TxKey) : (s.setTxKey key k).crypto = s.crypto := eq_of_heq HEq.rfl
@[simp] theorem State.setTxKey_fca (s : State) (key : Nat) (k : TxKey) : (s.setTxKey key k).fca = s.fca := eq_of_heq HEq.rfl
@[simp] theorem State.setTxKey_billing (s : State) (key : Nat) (k : TxKey) : (s.setTxKey key k).billing = s.billing := eq_of_heq HEq.rfl
@[simp] theorem State.setTxKey_balance (s : State) (key : Nat) (k : TxKey) : (s.setTxKey key k).balance = s.balance := eq_of_heq HEq.rfl
@[simp] theorem State.setTxKey_leaves (s : State) (key : Nat) (k : TxKey) : (s.setTxKey key k).leaves = s.leaves := eq_of_heq HEq.rfl
@[simp] theorem State.setTxKey_tamper (s : State) (key : Nat) (k : TxKey) : (s.setTxKey key k).tamper = s.tamper := eq_of_heq HEq.rfl
@[simp] theorem State.setTxKey_upd (s : State) (key : Nat) (k : TxKey) : (s.setTxKey key k).upd = s.upd := eq_of_heq HEq.rfl
@[simp] theorem State.setTxKey_boot (s : State) (key : Nat) (k : TxKey) : (s.setTxKey key k).boot = s.boot := eq_of_heq HEq.rfl
@[simp] theorem State.setTxKey_sessions (s : State) (key : Nat) (k : TxKey) : (s.setTxKey key k).sessions = s.sessions := eq_of_heq HEq.rfl
@[simp] theorem State.setTxKey_nextSess (s : State) (key : Nat) (k : TxKey) : (s.setTxKey key k).nextSess = s.nextSess := eq_of_heq HEq.rfl
@[simp] theorem State.setTxKey_staleStop (s : State) (key : Nat) (k : TxKey) : (s.setTxKey key k).staleStop = s.staleStop := eq_of_heq HEq.rfl
@[simp] theorem State.setTxKey_peers (s : State) (key : Nat) (k : TxKey) : (s.setTxKey key k).peers = s.peers := eq_of_heq HEq.rfl
@[simp] theorem State.setTxKey_ptp (s : State) (key : Nat) (k : TxKey) : (s.setTxKey key k).ptp = s.ptp := eq_of_heq HEq.rfl
@[simp] theorem State.setTxKey_segOut (s : State) (key : Nat) (k : TxKey) : (s.setTxKey key k).segOut = s.segOut := eq_of_heq HEq.rfl
@[simp] theorem State.setTxKey_epochs (s : State) (key : Nat) (k : TxKey) : (s.setTxKey key k).epochs = s.epochs := eq_of_heq HEq.rfl
@[simp] theorem State.setTxKey_fwdDone (s : State) (key : Nat) (k : TxKey) : (s.setTxKey key k).fwdDone = s.fwdDone := eq_of_heq HEq.rfl
@[simp] theorem State.setTxKey_fwdUsed (s : State) (key : Nat) (k : TxKey) : (s.setTxKey key k).fwdUsed = s.fwdUsed := eq_of_heq HEq.rfl
@[simp] theorem State.setTxKey_lift (s : State) (key : Nat) (k : TxKey) : (s.setTxKey key k).lift = s.lift := eq_of_heq HEq.rfl
@[simp] theorem State.setTxKey_pairs (s : State) (key : Nat) (k : TxKey) : (s.setTxKey key k).pairs = s.pairs := eq_of_heq HEq.rfl
@[simp] theorem State.setTxKey_field (s : State) (key : Nat) (k : TxKey) : (s.setTxKey key k).field = s.field := eq_of_heq HEq.rfl
@[simp] theorem State.setTxKey_interlock (s : State) (key : Nat) (k : TxKey) : (s.setTxKey key k).interlock = s.interlock := eq_of_heq HEq.rfl

@[simp] theorem State.tick_pending (s : State) (t : Angle) : (s.tick t).pending = s.pending := by unfold State.tick; split <;> rfl
@[simp] theorem State.tick_regs (s : State) (t : Angle) : (s.tick t).regs = s.regs := by unfold State.tick; split <;> rfl
@[simp] theorem State.tick_latch (s : State) (t : Angle) : (s.tick t).latch = s.latch := by unfold State.tick; split <;> rfl
@[simp] theorem State.tick_mem (s : State) (t : Angle) : (s.tick t).mem = s.mem := by unfold State.tick; split <;> rfl
@[simp] theorem State.tick_errRing (s : State) (t : Angle) : (s.tick t).errRing = s.errRing := by unfold State.tick; split <;> rfl
@[simp] theorem State.tick_fresh (s : State) (t : Angle) : (s.tick t).fresh = s.fresh := by unfold State.tick; split <;> rfl
@[simp] theorem State.tick_out (s : State) (t : Angle) : (s.tick t).out = s.out := by unfold State.tick; split <;> rfl
@[simp] theorem State.tick_fac (s : State) (t : Angle) : (s.tick t).fac = s.fac := by unfold State.tick; split <;> rfl
@[simp] theorem State.tick_lineActive (s : State) (t : Angle) : (s.tick t).lineActive = s.lineActive := by unfold State.tick; split <;> rfl
@[simp] theorem State.tick_msixMasked (s : State) (t : Angle) : (s.tick t).msixMasked = s.msixMasked := by unfold State.tick; split <;> rfl
@[simp] theorem State.tick_msixPending (s : State) (t : Angle) : (s.tick t).msixPending = s.msixPending := by unfold State.tick; split <;> rfl
@[simp] theorem State.tick_clocks (s : State) (t : Angle) : (s.tick t).clocks = s.clocks := by unfold State.tick; split <;> rfl
@[simp] theorem State.tick_svcLast (s : State) (t : Angle) : (s.tick t).svcLast = s.svcLast := by unfold State.tick; split <;> rfl
@[simp] theorem State.tick_svcPtr (s : State) (t : Angle) : (s.tick t).svcPtr = s.svcPtr := by unfold State.tick; split <;> rfl
@[simp] theorem State.tick_touched (s : State) (t : Angle) : (s.tick t).touched = s.touched := by unfold State.tick; split <;> rfl
@[simp] theorem State.tick_idleRetain (s : State) (t : Angle) : (s.tick t).idleRetain = s.idleRetain := by unfold State.tick; split <;> rfl
@[simp] theorem State.tick_sweep (s : State) (t : Angle) : (s.tick t).sweep = s.sweep := by unfold State.tick; split <;> rfl
@[simp] theorem State.tick_slalom (s : State) (t : Angle) : (s.tick t).slalom = s.slalom := by unfold State.tick; split <;> rfl
@[simp] theorem State.tick_log (s : State) (t : Angle) : (s.tick t).log = s.log := by unfold State.tick; split <;> rfl
@[simp] theorem State.tick_led (s : State) (t : Angle) : (s.tick t).led = s.led := by unfold State.tick; split <;> rfl
@[simp] theorem State.tick_nv (s : State) (t : Angle) : (s.tick t).nv = s.nv := by unfold State.tick; split <;> rfl
@[simp] theorem State.tick_ackedRsn (s : State) (t : Angle) : (s.tick t).ackedRsn = s.ackedRsn := by unfold State.tick; split <;> rfl
@[simp] theorem State.tick_merk (s : State) (t : Angle) : (s.tick t).merk = s.merk := by unfold State.tick; split <;> rfl
@[simp] theorem State.tick_lcWait (s : State) (t : Angle) : (s.tick t).lcWait = s.lcWait := by unfold State.tick; split <;> rfl
@[simp] theorem State.tick_lcYield (s : State) (t : Angle) : (s.tick t).lcYield = s.lcYield := by unfold State.tick; split <;> rfl
@[simp] theorem State.tick_crypto (s : State) (t : Angle) : (s.tick t).crypto = s.crypto := by unfold State.tick; split <;> rfl
@[simp] theorem State.tick_fca (s : State) (t : Angle) : (s.tick t).fca = s.fca := by unfold State.tick; split <;> rfl
@[simp] theorem State.tick_billing (s : State) (t : Angle) : (s.tick t).billing = s.billing := by unfold State.tick; split <;> rfl
@[simp] theorem State.tick_balance (s : State) (t : Angle) : (s.tick t).balance = s.balance := by unfold State.tick; split <;> rfl
@[simp] theorem State.tick_leaves (s : State) (t : Angle) : (s.tick t).leaves = s.leaves := by unfold State.tick; split <;> rfl
@[simp] theorem State.tick_tamper (s : State) (t : Angle) : (s.tick t).tamper = s.tamper := by unfold State.tick; split <;> rfl
@[simp] theorem State.tick_upd (s : State) (t : Angle) : (s.tick t).upd = s.upd := by unfold State.tick; split <;> rfl
@[simp] theorem State.tick_boot (s : State) (t : Angle) : (s.tick t).boot = s.boot := by unfold State.tick; split <;> rfl
@[simp] theorem State.tick_sessions (s : State) (t : Angle) : (s.tick t).sessions = s.sessions := by unfold State.tick; split <;> rfl
@[simp] theorem State.tick_nextSess (s : State) (t : Angle) : (s.tick t).nextSess = s.nextSess := by unfold State.tick; split <;> rfl
@[simp] theorem State.tick_staleStop (s : State) (t : Angle) : (s.tick t).staleStop = s.staleStop := by unfold State.tick; split <;> rfl
@[simp] theorem State.tick_peers (s : State) (t : Angle) : (s.tick t).peers = s.peers := by unfold State.tick; split <;> rfl
@[simp] theorem State.tick_ptp (s : State) (t : Angle) : (s.tick t).ptp = s.ptp := by unfold State.tick; split <;> rfl
@[simp] theorem State.tick_segOut (s : State) (t : Angle) : (s.tick t).segOut = s.segOut := by unfold State.tick; split <;> rfl
@[simp] theorem State.tick_epochs (s : State) (t : Angle) : (s.tick t).epochs = s.epochs := by unfold State.tick; split <;> rfl
@[simp] theorem State.tick_fwdDone (s : State) (t : Angle) : (s.tick t).fwdDone = s.fwdDone := by unfold State.tick; split <;> rfl
@[simp] theorem State.tick_fwdUsed (s : State) (t : Angle) : (s.tick t).fwdUsed = s.fwdUsed := by unfold State.tick; split <;> rfl
@[simp] theorem State.tick_lift (s : State) (t : Angle) : (s.tick t).lift = s.lift := by unfold State.tick; split <;> rfl
@[simp] theorem State.tick_pairs (s : State) (t : Angle) : (s.tick t).pairs = s.pairs := by unfold State.tick; split <;> rfl
@[simp] theorem State.tick_field (s : State) (t : Angle) : (s.tick t).field = s.field := by unfold State.tick; split <;> rfl
@[simp] theorem State.tick_interlock (s : State) (t : Angle) : (s.tick t).interlock = s.interlock := by unfold State.tick; split <;> rfl

@[simp] theorem State.store8_pending (s : State) (a : Nat) (b : Byte) : (s.store8 a b).pending = s.pending := by unfold State.store8; split <;> rfl
@[simp] theorem State.store8_now (s : State) (a : Nat) (b : Byte) : (s.store8 a b).now = s.now := by unfold State.store8; split <;> rfl
@[simp] theorem State.store8_regs (s : State) (a : Nat) (b : Byte) : (s.store8 a b).regs = s.regs := by unfold State.store8; split <;> rfl
@[simp] theorem State.store8_latch (s : State) (a : Nat) (b : Byte) : (s.store8 a b).latch = s.latch := by unfold State.store8; split <;> rfl
@[simp] theorem State.store8_errRing (s : State) (a : Nat) (b : Byte) : (s.store8 a b).errRing = s.errRing := by unfold State.store8; split <;> rfl
@[simp] theorem State.store8_fresh (s : State) (a : Nat) (b : Byte) : (s.store8 a b).fresh = s.fresh := by unfold State.store8; split <;> rfl
@[simp] theorem State.store8_out (s : State) (a : Nat) (b : Byte) : (s.store8 a b).out = s.out := by unfold State.store8; split <;> rfl
@[simp] theorem State.store8_fac (s : State) (a : Nat) (b : Byte) : (s.store8 a b).fac = s.fac := by unfold State.store8; split <;> rfl
@[simp] theorem State.store8_lineActive (s : State) (a : Nat) (b : Byte) : (s.store8 a b).lineActive = s.lineActive := by unfold State.store8; split <;> rfl
@[simp] theorem State.store8_msixMasked (s : State) (a : Nat) (b : Byte) : (s.store8 a b).msixMasked = s.msixMasked := by unfold State.store8; split <;> rfl
@[simp] theorem State.store8_msixPending (s : State) (a : Nat) (b : Byte) : (s.store8 a b).msixPending = s.msixPending := by unfold State.store8; split <;> rfl
@[simp] theorem State.store8_clocks (s : State) (a : Nat) (b : Byte) : (s.store8 a b).clocks = s.clocks := by unfold State.store8; split <;> rfl
@[simp] theorem State.store8_svcLast (s : State) (a : Nat) (b : Byte) : (s.store8 a b).svcLast = s.svcLast := by unfold State.store8; split <;> rfl
@[simp] theorem State.store8_svcPtr (s : State) (a : Nat) (b : Byte) : (s.store8 a b).svcPtr = s.svcPtr := by unfold State.store8; split <;> rfl
@[simp] theorem State.store8_touched (s : State) (a : Nat) (b : Byte) : (s.store8 a b).touched = s.touched := by unfold State.store8; split <;> rfl
@[simp] theorem State.store8_idleRetain (s : State) (a : Nat) (b : Byte) : (s.store8 a b).idleRetain = s.idleRetain := by unfold State.store8; split <;> rfl
@[simp] theorem State.store8_sweep (s : State) (a : Nat) (b : Byte) : (s.store8 a b).sweep = s.sweep := by unfold State.store8; split <;> rfl
@[simp] theorem State.store8_slalom (s : State) (a : Nat) (b : Byte) : (s.store8 a b).slalom = s.slalom := by unfold State.store8; split <;> rfl
@[simp] theorem State.store8_log (s : State) (a : Nat) (b : Byte) : (s.store8 a b).log = s.log := by unfold State.store8; split <;> rfl
@[simp] theorem State.store8_led (s : State) (a : Nat) (b : Byte) : (s.store8 a b).led = s.led := by unfold State.store8; split <;> rfl
@[simp] theorem State.store8_nv (s : State) (a : Nat) (b : Byte) : (s.store8 a b).nv = s.nv := by unfold State.store8; split <;> rfl
@[simp] theorem State.store8_ackedRsn (s : State) (a : Nat) (b : Byte) : (s.store8 a b).ackedRsn = s.ackedRsn := by unfold State.store8; split <;> rfl
@[simp] theorem State.store8_merk (s : State) (a : Nat) (b : Byte) : (s.store8 a b).merk = s.merk := by unfold State.store8; split <;> rfl
@[simp] theorem State.store8_lcWait (s : State) (a : Nat) (b : Byte) : (s.store8 a b).lcWait = s.lcWait := by unfold State.store8; split <;> rfl
@[simp] theorem State.store8_lcYield (s : State) (a : Nat) (b : Byte) : (s.store8 a b).lcYield = s.lcYield := by unfold State.store8; split <;> rfl
@[simp] theorem State.store8_crypto (s : State) (a : Nat) (b : Byte) : (s.store8 a b).crypto = s.crypto := by unfold State.store8; split <;> rfl
@[simp] theorem State.store8_fca (s : State) (a : Nat) (b : Byte) : (s.store8 a b).fca = s.fca := by unfold State.store8; split <;> rfl
@[simp] theorem State.store8_billing (s : State) (a : Nat) (b : Byte) : (s.store8 a b).billing = s.billing := by unfold State.store8; split <;> rfl
@[simp] theorem State.store8_balance (s : State) (a : Nat) (b : Byte) : (s.store8 a b).balance = s.balance := by unfold State.store8; split <;> rfl
@[simp] theorem State.store8_leaves (s : State) (a : Nat) (b : Byte) : (s.store8 a b).leaves = s.leaves := by unfold State.store8; split <;> rfl
@[simp] theorem State.store8_tamper (s : State) (a : Nat) (b : Byte) : (s.store8 a b).tamper = s.tamper := by unfold State.store8; split <;> rfl
@[simp] theorem State.store8_upd (s : State) (a : Nat) (b : Byte) : (s.store8 a b).upd = s.upd := by unfold State.store8; split <;> rfl
@[simp] theorem State.store8_boot (s : State) (a : Nat) (b : Byte) : (s.store8 a b).boot = s.boot := by unfold State.store8; split <;> rfl
@[simp] theorem State.store8_sessions (s : State) (a : Nat) (b : Byte) : (s.store8 a b).sessions = s.sessions := by unfold State.store8; split <;> rfl
@[simp] theorem State.store8_nextSess (s : State) (a : Nat) (b : Byte) : (s.store8 a b).nextSess = s.nextSess := by unfold State.store8; split <;> rfl
@[simp] theorem State.store8_staleStop (s : State) (a : Nat) (b : Byte) : (s.store8 a b).staleStop = s.staleStop := by unfold State.store8; split <;> rfl
@[simp] theorem State.store8_peers (s : State) (a : Nat) (b : Byte) : (s.store8 a b).peers = s.peers := by unfold State.store8; split <;> rfl
@[simp] theorem State.store8_ptp (s : State) (a : Nat) (b : Byte) : (s.store8 a b).ptp = s.ptp := by unfold State.store8; split <;> rfl
@[simp] theorem State.store8_segOut (s : State) (a : Nat) (b : Byte) : (s.store8 a b).segOut = s.segOut := by unfold State.store8; split <;> rfl
@[simp] theorem State.store8_epochs (s : State) (a : Nat) (b : Byte) : (s.store8 a b).epochs = s.epochs := by unfold State.store8; split <;> rfl
@[simp] theorem State.store8_fwdDone (s : State) (a : Nat) (b : Byte) : (s.store8 a b).fwdDone = s.fwdDone := by unfold State.store8; split <;> rfl
@[simp] theorem State.store8_fwdUsed (s : State) (a : Nat) (b : Byte) : (s.store8 a b).fwdUsed = s.fwdUsed := by unfold State.store8; split <;> rfl
@[simp] theorem State.store8_lift (s : State) (a : Nat) (b : Byte) : (s.store8 a b).lift = s.lift := by unfold State.store8; split <;> rfl
@[simp] theorem State.store8_pairs (s : State) (a : Nat) (b : Byte) : (s.store8 a b).pairs = s.pairs := by unfold State.store8; split <;> rfl
@[simp] theorem State.store8_field (s : State) (a : Nat) (b : Byte) : (s.store8 a b).field = s.field := by unfold State.store8; split <;> rfl
@[simp] theorem State.store8_interlock (s : State) (a : Nat) (b : Byte) : (s.store8 a b).interlock = s.interlock := by unfold State.store8; split <;> rfl

theorem State.store_keeps {β : Type} (g : State → β) (h : ∀ s a b, g (State.store8 s a b) = g s) (s : State) (a : Nat) (l : List Byte) :
    g (s.store a l) = g s := by
  induction l generalizing s a with
  | nil => rfl
  | cons b l ih => rw [State.store, ih, h]

@[simp] theorem State.store_pending (s : State) (a : Nat) (l : List Byte) : (s.store a l).pending = s.pending := State.store_keeps (fun x => x.pending) (fun _ _ _ => by simp) s a l
@[simp] theorem State.store_now (s : State) (a : Nat) (l : List Byte) : (s.store a l).now = s.now := State.store_keeps (fun x => x.now) (fun _ _ _ => by simp) s a l
@[simp] theorem State.store_regs (s : State) (a : Nat) (l : List Byte) : (s.store a l).regs = s.regs := State.store_keeps (fun x => x.regs) (fun _ _ _ => by simp) s a l
@[simp] theorem State.store_latch (s : State) (a : Nat) (l : List Byte) : (s.store a l).latch = s.latch := State.store_keeps (fun x => x.latch) (fun _ _ _ => by simp) s a l
@[simp] theorem State.store_errRing (s : State) (a : Nat) (l : List Byte) : (s.store a l).errRing = s.errRing := State.store_keeps (fun x => x.errRing) (fun _ _ _ => by simp) s a l
@[simp] theorem State.store_fresh (s : State) (a : Nat) (l : List Byte) : (s.store a l).fresh = s.fresh := State.store_keeps (fun x => x.fresh) (fun _ _ _ => by simp) s a l
@[simp] theorem State.store_out (s : State) (a : Nat) (l : List Byte) : (s.store a l).out = s.out := State.store_keeps (fun x => x.out) (fun _ _ _ => by simp) s a l
@[simp] theorem State.store_fac (s : State) (a : Nat) (l : List Byte) : (s.store a l).fac = s.fac := State.store_keeps (fun x => x.fac) (fun _ _ _ => by simp) s a l
@[simp] theorem State.store_lineActive (s : State) (a : Nat) (l : List Byte) : (s.store a l).lineActive = s.lineActive := State.store_keeps (fun x => x.lineActive) (fun _ _ _ => by simp) s a l
@[simp] theorem State.store_msixMasked (s : State) (a : Nat) (l : List Byte) : (s.store a l).msixMasked = s.msixMasked := State.store_keeps (fun x => x.msixMasked) (fun _ _ _ => by simp) s a l
@[simp] theorem State.store_msixPending (s : State) (a : Nat) (l : List Byte) : (s.store a l).msixPending = s.msixPending := State.store_keeps (fun x => x.msixPending) (fun _ _ _ => by simp) s a l
@[simp] theorem State.store_clocks (s : State) (a : Nat) (l : List Byte) : (s.store a l).clocks = s.clocks := State.store_keeps (fun x => x.clocks) (fun _ _ _ => by simp) s a l
@[simp] theorem State.store_svcLast (s : State) (a : Nat) (l : List Byte) : (s.store a l).svcLast = s.svcLast := State.store_keeps (fun x => x.svcLast) (fun _ _ _ => by simp) s a l
@[simp] theorem State.store_svcPtr (s : State) (a : Nat) (l : List Byte) : (s.store a l).svcPtr = s.svcPtr := State.store_keeps (fun x => x.svcPtr) (fun _ _ _ => by simp) s a l
@[simp] theorem State.store_touched (s : State) (a : Nat) (l : List Byte) : (s.store a l).touched = s.touched := State.store_keeps (fun x => x.touched) (fun _ _ _ => by simp) s a l
@[simp] theorem State.store_idleRetain (s : State) (a : Nat) (l : List Byte) : (s.store a l).idleRetain = s.idleRetain := State.store_keeps (fun x => x.idleRetain) (fun _ _ _ => by simp) s a l
@[simp] theorem State.store_sweep (s : State) (a : Nat) (l : List Byte) : (s.store a l).sweep = s.sweep := State.store_keeps (fun x => x.sweep) (fun _ _ _ => by simp) s a l
@[simp] theorem State.store_slalom (s : State) (a : Nat) (l : List Byte) : (s.store a l).slalom = s.slalom := State.store_keeps (fun x => x.slalom) (fun _ _ _ => by simp) s a l
@[simp] theorem State.store_log (s : State) (a : Nat) (l : List Byte) : (s.store a l).log = s.log := State.store_keeps (fun x => x.log) (fun _ _ _ => by simp) s a l
@[simp] theorem State.store_led (s : State) (a : Nat) (l : List Byte) : (s.store a l).led = s.led := State.store_keeps (fun x => x.led) (fun _ _ _ => by simp) s a l
@[simp] theorem State.store_nv (s : State) (a : Nat) (l : List Byte) : (s.store a l).nv = s.nv := State.store_keeps (fun x => x.nv) (fun _ _ _ => by simp) s a l
@[simp] theorem State.store_ackedRsn (s : State) (a : Nat) (l : List Byte) : (s.store a l).ackedRsn = s.ackedRsn := State.store_keeps (fun x => x.ackedRsn) (fun _ _ _ => by simp) s a l
@[simp] theorem State.store_merk (s : State) (a : Nat) (l : List Byte) : (s.store a l).merk = s.merk := State.store_keeps (fun x => x.merk) (fun _ _ _ => by simp) s a l
@[simp] theorem State.store_lcWait (s : State) (a : Nat) (l : List Byte) : (s.store a l).lcWait = s.lcWait := State.store_keeps (fun x => x.lcWait) (fun _ _ _ => by simp) s a l
@[simp] theorem State.store_lcYield (s : State) (a : Nat) (l : List Byte) : (s.store a l).lcYield = s.lcYield := State.store_keeps (fun x => x.lcYield) (fun _ _ _ => by simp) s a l
@[simp] theorem State.store_crypto (s : State) (a : Nat) (l : List Byte) : (s.store a l).crypto = s.crypto := State.store_keeps (fun x => x.crypto) (fun _ _ _ => by simp) s a l
@[simp] theorem State.store_fca (s : State) (a : Nat) (l : List Byte) : (s.store a l).fca = s.fca := State.store_keeps (fun x => x.fca) (fun _ _ _ => by simp) s a l
@[simp] theorem State.store_billing (s : State) (a : Nat) (l : List Byte) : (s.store a l).billing = s.billing := State.store_keeps (fun x => x.billing) (fun _ _ _ => by simp) s a l
@[simp] theorem State.store_balance (s : State) (a : Nat) (l : List Byte) : (s.store a l).balance = s.balance := State.store_keeps (fun x => x.balance) (fun _ _ _ => by simp) s a l
@[simp] theorem State.store_leaves (s : State) (a : Nat) (l : List Byte) : (s.store a l).leaves = s.leaves := State.store_keeps (fun x => x.leaves) (fun _ _ _ => by simp) s a l
@[simp] theorem State.store_tamper (s : State) (a : Nat) (l : List Byte) : (s.store a l).tamper = s.tamper := State.store_keeps (fun x => x.tamper) (fun _ _ _ => by simp) s a l
@[simp] theorem State.store_upd (s : State) (a : Nat) (l : List Byte) : (s.store a l).upd = s.upd := State.store_keeps (fun x => x.upd) (fun _ _ _ => by simp) s a l
@[simp] theorem State.store_boot (s : State) (a : Nat) (l : List Byte) : (s.store a l).boot = s.boot := State.store_keeps (fun x => x.boot) (fun _ _ _ => by simp) s a l
@[simp] theorem State.store_sessions (s : State) (a : Nat) (l : List Byte) : (s.store a l).sessions = s.sessions := State.store_keeps (fun x => x.sessions) (fun _ _ _ => by simp) s a l
@[simp] theorem State.store_nextSess (s : State) (a : Nat) (l : List Byte) : (s.store a l).nextSess = s.nextSess := State.store_keeps (fun x => x.nextSess) (fun _ _ _ => by simp) s a l
@[simp] theorem State.store_staleStop (s : State) (a : Nat) (l : List Byte) : (s.store a l).staleStop = s.staleStop := State.store_keeps (fun x => x.staleStop) (fun _ _ _ => by simp) s a l
@[simp] theorem State.store_peers (s : State) (a : Nat) (l : List Byte) : (s.store a l).peers = s.peers := State.store_keeps (fun x => x.peers) (fun _ _ _ => by simp) s a l
@[simp] theorem State.store_ptp (s : State) (a : Nat) (l : List Byte) : (s.store a l).ptp = s.ptp := State.store_keeps (fun x => x.ptp) (fun _ _ _ => by simp) s a l
@[simp] theorem State.store_segOut (s : State) (a : Nat) (l : List Byte) : (s.store a l).segOut = s.segOut := State.store_keeps (fun x => x.segOut) (fun _ _ _ => by simp) s a l
@[simp] theorem State.store_epochs (s : State) (a : Nat) (l : List Byte) : (s.store a l).epochs = s.epochs := State.store_keeps (fun x => x.epochs) (fun _ _ _ => by simp) s a l
@[simp] theorem State.store_fwdDone (s : State) (a : Nat) (l : List Byte) : (s.store a l).fwdDone = s.fwdDone := State.store_keeps (fun x => x.fwdDone) (fun _ _ _ => by simp) s a l
@[simp] theorem State.store_fwdUsed (s : State) (a : Nat) (l : List Byte) : (s.store a l).fwdUsed = s.fwdUsed := State.store_keeps (fun x => x.fwdUsed) (fun _ _ _ => by simp) s a l
@[simp] theorem State.store_lift (s : State) (a : Nat) (l : List Byte) : (s.store a l).lift = s.lift := State.store_keeps (fun x => x.lift) (fun _ _ _ => by simp) s a l
@[simp] theorem State.store_pairs (s : State) (a : Nat) (l : List Byte) : (s.store a l).pairs = s.pairs := State.store_keeps (fun x => x.pairs) (fun _ _ _ => by simp) s a l
@[simp] theorem State.store_field (s : State) (a : Nat) (l : List Byte) : (s.store a l).field = s.field := State.store_keeps (fun x => x.field) (fun _ _ _ => by simp) s a l
@[simp] theorem State.store_interlock (s : State) (a : Nat) (l : List Byte) : (s.store a l).interlock = s.interlock := State.store_keeps (fun x => x.interlock) (fun _ _ _ => by simp) s a l

@[simp] theorem State.sendDatagram_pending (s : State) (peer : Nat) (octets : List Byte) : (s.sendDatagram peer octets).pending = s.pending := by
  unfold State.sendDatagram
  dsimp only
  (repeat' split) <;> simp
@[simp] theorem State.sendDatagram_now (s : State) (peer : Nat) (octets : List Byte) : (s.sendDatagram peer octets).now = s.now := by
  unfold State.sendDatagram
  dsimp only
  (repeat' split) <;> simp
@[simp] theorem State.sendDatagram_regs (s : State) (peer : Nat) (octets : List Byte) : (s.sendDatagram peer octets).regs = s.regs := by
  unfold State.sendDatagram
  dsimp only
  (repeat' split) <;> simp
@[simp] theorem State.sendDatagram_latch (s : State) (peer : Nat) (octets : List Byte) : (s.sendDatagram peer octets).latch = s.latch := by
  unfold State.sendDatagram
  dsimp only
  (repeat' split) <;> simp
@[simp] theorem State.sendDatagram_mem (s : State) (peer : Nat) (octets : List Byte) : (s.sendDatagram peer octets).mem = s.mem := by
  unfold State.sendDatagram
  dsimp only
  (repeat' split) <;> simp
@[simp] theorem State.sendDatagram_errRing (s : State) (peer : Nat) (octets : List Byte) : (s.sendDatagram peer octets).errRing = s.errRing := by
  unfold State.sendDatagram
  dsimp only
  (repeat' split) <;> simp
@[simp] theorem State.sendDatagram_fresh (s : State) (peer : Nat) (octets : List Byte) : (s.sendDatagram peer octets).fresh = s.fresh := by
  unfold State.sendDatagram
  dsimp only
  (repeat' split) <;> simp
@[simp] theorem State.sendDatagram_fac (s : State) (peer : Nat) (octets : List Byte) : (s.sendDatagram peer octets).fac = s.fac := by
  unfold State.sendDatagram
  dsimp only
  (repeat' split) <;> simp
@[simp] theorem State.sendDatagram_lineActive (s : State) (peer : Nat) (octets : List Byte) : (s.sendDatagram peer octets).lineActive = s.lineActive := by
  unfold State.sendDatagram
  dsimp only
  (repeat' split) <;> simp
@[simp] theorem State.sendDatagram_msixMasked (s : State) (peer : Nat) (octets : List Byte) : (s.sendDatagram peer octets).msixMasked = s.msixMasked := by
  unfold State.sendDatagram
  dsimp only
  (repeat' split) <;> simp
@[simp] theorem State.sendDatagram_msixPending (s : State) (peer : Nat) (octets : List Byte) : (s.sendDatagram peer octets).msixPending = s.msixPending := by
  unfold State.sendDatagram
  dsimp only
  (repeat' split) <;> simp
@[simp] theorem State.sendDatagram_clocks (s : State) (peer : Nat) (octets : List Byte) : (s.sendDatagram peer octets).clocks = s.clocks := by
  unfold State.sendDatagram
  dsimp only
  (repeat' split) <;> simp
@[simp] theorem State.sendDatagram_svcLast (s : State) (peer : Nat) (octets : List Byte) : (s.sendDatagram peer octets).svcLast = s.svcLast := by
  unfold State.sendDatagram
  dsimp only
  (repeat' split) <;> simp
@[simp] theorem State.sendDatagram_svcPtr (s : State) (peer : Nat) (octets : List Byte) : (s.sendDatagram peer octets).svcPtr = s.svcPtr := by
  unfold State.sendDatagram
  dsimp only
  (repeat' split) <;> simp
@[simp] theorem State.sendDatagram_touched (s : State) (peer : Nat) (octets : List Byte) : (s.sendDatagram peer octets).touched = s.touched := by
  unfold State.sendDatagram
  dsimp only
  (repeat' split) <;> simp
@[simp] theorem State.sendDatagram_idleRetain (s : State) (peer : Nat) (octets : List Byte) : (s.sendDatagram peer octets).idleRetain = s.idleRetain := by
  unfold State.sendDatagram
  dsimp only
  (repeat' split) <;> simp
@[simp] theorem State.sendDatagram_sweep (s : State) (peer : Nat) (octets : List Byte) : (s.sendDatagram peer octets).sweep = s.sweep := by
  unfold State.sendDatagram
  dsimp only
  (repeat' split) <;> simp
@[simp] theorem State.sendDatagram_slalom (s : State) (peer : Nat) (octets : List Byte) : (s.sendDatagram peer octets).slalom = s.slalom := by
  unfold State.sendDatagram
  dsimp only
  (repeat' split) <;> simp
@[simp] theorem State.sendDatagram_log (s : State) (peer : Nat) (octets : List Byte) : (s.sendDatagram peer octets).log = s.log := by
  unfold State.sendDatagram
  dsimp only
  (repeat' split) <;> simp
@[simp] theorem State.sendDatagram_led (s : State) (peer : Nat) (octets : List Byte) : (s.sendDatagram peer octets).led = s.led := by
  unfold State.sendDatagram
  dsimp only
  (repeat' split) <;> simp
@[simp] theorem State.sendDatagram_nv (s : State) (peer : Nat) (octets : List Byte) : (s.sendDatagram peer octets).nv = s.nv := by
  unfold State.sendDatagram
  dsimp only
  (repeat' split) <;> simp
@[simp] theorem State.sendDatagram_ackedRsn (s : State) (peer : Nat) (octets : List Byte) : (s.sendDatagram peer octets).ackedRsn = s.ackedRsn := by
  unfold State.sendDatagram
  dsimp only
  (repeat' split) <;> simp
@[simp] theorem State.sendDatagram_merk (s : State) (peer : Nat) (octets : List Byte) : (s.sendDatagram peer octets).merk = s.merk := by
  unfold State.sendDatagram
  dsimp only
  (repeat' split) <;> simp
@[simp] theorem State.sendDatagram_lcWait (s : State) (peer : Nat) (octets : List Byte) : (s.sendDatagram peer octets).lcWait = s.lcWait := by
  unfold State.sendDatagram
  dsimp only
  (repeat' split) <;> simp
@[simp] theorem State.sendDatagram_lcYield (s : State) (peer : Nat) (octets : List Byte) : (s.sendDatagram peer octets).lcYield = s.lcYield := by
  unfold State.sendDatagram
  dsimp only
  (repeat' split) <;> simp
@[simp] theorem State.sendDatagram_crypto (s : State) (peer : Nat) (octets : List Byte) : (s.sendDatagram peer octets).crypto = s.crypto := by
  unfold State.sendDatagram
  dsimp only
  (repeat' split) <;> simp
@[simp] theorem State.sendDatagram_fca (s : State) (peer : Nat) (octets : List Byte) : (s.sendDatagram peer octets).fca = s.fca := by
  unfold State.sendDatagram
  dsimp only
  (repeat' split) <;> simp
@[simp] theorem State.sendDatagram_billing (s : State) (peer : Nat) (octets : List Byte) : (s.sendDatagram peer octets).billing = s.billing := by
  unfold State.sendDatagram
  dsimp only
  (repeat' split) <;> simp
@[simp] theorem State.sendDatagram_balance (s : State) (peer : Nat) (octets : List Byte) : (s.sendDatagram peer octets).balance = s.balance := by
  unfold State.sendDatagram
  dsimp only
  (repeat' split) <;> simp
@[simp] theorem State.sendDatagram_leaves (s : State) (peer : Nat) (octets : List Byte) : (s.sendDatagram peer octets).leaves = s.leaves := by
  unfold State.sendDatagram
  dsimp only
  (repeat' split) <;> simp
@[simp] theorem State.sendDatagram_tamper (s : State) (peer : Nat) (octets : List Byte) : (s.sendDatagram peer octets).tamper = s.tamper := by
  unfold State.sendDatagram
  dsimp only
  (repeat' split) <;> simp
@[simp] theorem State.sendDatagram_upd (s : State) (peer : Nat) (octets : List Byte) : (s.sendDatagram peer octets).upd = s.upd := by
  unfold State.sendDatagram
  dsimp only
  (repeat' split) <;> simp
@[simp] theorem State.sendDatagram_boot (s : State) (peer : Nat) (octets : List Byte) : (s.sendDatagram peer octets).boot = s.boot := by
  unfold State.sendDatagram
  dsimp only
  (repeat' split) <;> simp
@[simp] theorem State.sendDatagram_sessions (s : State) (peer : Nat) (octets : List Byte) : (s.sendDatagram peer octets).sessions = s.sessions := by
  unfold State.sendDatagram
  dsimp only
  (repeat' split) <;> simp
@[simp] theorem State.sendDatagram_nextSess (s : State) (peer : Nat) (octets : List Byte) : (s.sendDatagram peer octets).nextSess = s.nextSess := by
  unfold State.sendDatagram
  dsimp only
  (repeat' split) <;> simp
@[simp] theorem State.sendDatagram_staleStop (s : State) (peer : Nat) (octets : List Byte) : (s.sendDatagram peer octets).staleStop = s.staleStop := by
  unfold State.sendDatagram
  dsimp only
  (repeat' split) <;> simp
@[simp] theorem State.sendDatagram_peers (s : State) (peer : Nat) (octets : List Byte) : (s.sendDatagram peer octets).peers = s.peers := by
  unfold State.sendDatagram
  dsimp only
  (repeat' split) <;> simp
@[simp] theorem State.sendDatagram_ptp (s : State) (peer : Nat) (octets : List Byte) : (s.sendDatagram peer octets).ptp = s.ptp := by
  unfold State.sendDatagram
  dsimp only
  (repeat' split) <;> simp
@[simp] theorem State.sendDatagram_segOut (s : State) (peer : Nat) (octets : List Byte) : (s.sendDatagram peer octets).segOut = s.segOut := by
  unfold State.sendDatagram
  dsimp only
  (repeat' split) <;> simp
@[simp] theorem State.sendDatagram_lift (s : State) (peer : Nat) (octets : List Byte) : (s.sendDatagram peer octets).lift = s.lift := by
  unfold State.sendDatagram
  dsimp only
  (repeat' split) <;> simp
@[simp] theorem State.sendDatagram_pairs (s : State) (peer : Nat) (octets : List Byte) : (s.sendDatagram peer octets).pairs = s.pairs := by
  unfold State.sendDatagram
  dsimp only
  (repeat' split) <;> simp
@[simp] theorem State.sendDatagram_field (s : State) (peer : Nat) (octets : List Byte) : (s.sendDatagram peer octets).field = s.field := by
  unfold State.sendDatagram
  dsimp only
  (repeat' split) <;> simp
@[simp] theorem State.sendDatagram_interlock (s : State) (peer : Nat) (octets : List Byte) : (s.sendDatagram peer octets).interlock = s.interlock := by
  unfold State.sendDatagram
  dsimp only
  (repeat' split) <;> simp
@[simp] theorem State.sendDatagram_epochs (s : State) (peer : Nat) (octets : List Byte) : (s.sendDatagram peer octets).epochs = s.epochs := by
  unfold State.sendDatagram
  dsimp only
  (repeat' split) <;> simp
@[simp] theorem State.sendDatagram_fwdDone (s : State) (peer : Nat) (octets : List Byte) : (s.sendDatagram peer octets).fwdDone = s.fwdDone := by
  unfold State.sendDatagram
  dsimp only
  (repeat' split) <;> simp
@[simp] theorem State.sendDatagram_fwdUsed (s : State) (peer : Nat) (octets : List Byte) : (s.sendDatagram peer octets).fwdUsed = s.fwdUsed := by
  unfold State.sendDatagram
  dsimp only
  (repeat' split) <;> simp

end Sys2Proof.Machine
end

