-- ==== Sys2Proof/Laws/Registers.lean ====
section
/-!
SUPPORT. The laws of bit fields, of finite maps and of the register file, and the registers that event lines leave as they are.
-/

namespace Sys2Proof.Machine

theorem setBits_parts (hi lo v n : Nat) (h : lo ≤ hi) :
    setBits hi lo v n = n / 2 ^ (hi + 1) * 2 ^ (hi + 1) + v % 2 ^ (hi - lo + 1) * 2 ^ lo + n % 2 ^ lo := by
  have e : 2 ^ (hi + 1) = 2 ^ lo * 2 ^ (hi - lo + 1) := by rw [← Nat.pow_add]; congr 1; omega
  simp only [setBits, bits, Nat.shiftRight_eq_div_pow]
  have h1 := Nat.div_add_mod n (2 ^ lo)
  have h2 := Nat.div_add_mod (n / 2 ^ lo) (2 ^ (hi - lo + 1))
  rw [Nat.div_div_eq_div_mul, ← e] at h2
  generalize n / 2 ^ lo % 2 ^ (hi - lo + 1) = b at *
  generalize v % 2 ^ (hi - lo + 1) = w at *
  generalize n / 2 ^ (hi + 1) = a at *
  generalize n % 2 ^ lo = c at *
  generalize 2 ^ lo = p at *
  generalize 2 ^ (hi - lo + 1) = q at *
  rw [e]
  rw [← h2] at h1
  have : n = p * q * a + p * b + c := by rw [← h1]; ring
  rw [this]
  have : p * q * a + p * b + c - b * p = p * q * a + c := by
    rw [show p * q * a + p * b + c = p * q * a + c + b * p by ring]; exact Nat.add_sub_cancel ..
  rw [this]; ring

theorem testBit_setBits (hi lo v n i : Nat) (h : lo ≤ hi) :
    (setBits hi lo v n).testBit i = if lo ≤ i ∧ i ≤ hi then v.testBit (i - lo) else n.testBit i := by
  have e : 2 ^ (hi + 1) = 2 ^ (hi - lo + 1) * 2 ^ lo := by rw [← Nat.pow_add]; congr 1; omega
  have key : setBits hi lo v n = 2 ^ (hi + 1) * (n / 2 ^ (hi + 1)) + (2 ^ lo * (v % 2 ^ (hi - lo + 1)) + n % 2 ^ lo) := by
    rw [setBits_parts hi lo v n h]; ring
  have lt1 : n % 2 ^ lo < 2 ^ lo := Nat.mod_lt _ (Nat.two_pow_pos lo)
  have lt2 : 2 ^ lo * (v % 2 ^ (hi - lo + 1)) + n % 2 ^ lo < 2 ^ (hi + 1) := by
    have := Nat.mod_lt v (Nat.two_pow_pos (hi - lo + 1))
    rw [e]
    calc _ < 2 ^ lo * (v % 2 ^ (hi - lo + 1)) + 2 ^ lo := by omega
      _ = (v % 2 ^ (hi - lo + 1) + 1) * 2 ^ lo := by ring
      _ ≤ _ := Nat.mul_le_mul_right _ (by omega)
  rw [key, Nat.testBit_two_pow_mul_add _ lt2]
  by_cases h1 : i < hi + 1
  · rw [if_pos h1, Nat.testBit_two_pow_mul_add _ lt1]
    by_cases h2 : i < lo
    · rw [if_pos h2, if_neg (by omega), Nat.testBit_mod_two_pow]; simp [h2]
    · rw [if_neg h2, if_pos (by omega), Nat.testBit_mod_two_pow]
      simp [show i - lo < hi - lo + 1 by omega]
  · rw [if_neg h1, if_neg (by omega), Nat.testBit_div_two_pow]; congr 1; omega

theorem testBit_bits (hi lo n i : Nat) : (bits hi lo n).testBit i = (decide (i < hi - lo + 1) && n.testBit (i + lo)) := by
  simp [bits, Nat.testBit_mod_two_pow, Nat.testBit_shiftRight, Nat.add_comm]

theorem bits_word (hi lo n : Nat) (l : lo ≤ hi) (h : hi < 32) : bits hi lo (n % 2 ^ 32) = bits hi lo n := by
  apply Nat.eq_of_testBit_eq; intro i
  rw [testBit_bits, testBit_bits, Nat.testBit_mod_two_pow]
  by_cases q : i < hi - lo + 1
  · simp [show i + lo < 32 by omega]
  · simp [q]

theorem bits_setBits_same (hi lo v n : Nat) (l : lo ≤ hi) : bits hi lo (setBits hi lo v n) = v % 2 ^ (hi - lo + 1) := by
  apply Nat.eq_of_testBit_eq; intro i
  rw [testBit_bits, testBit_setBits _ _ _ _ _ l, Nat.testBit_mod_two_pow]
  by_cases q : i < hi - lo + 1
  · rw [if_pos (by omega)]; simp [q]
  · simp [q]

theorem bits_setBits_other (hi lo v n hi' lo' : Nat) (l : lo ≤ hi) (l' : lo' ≤ hi') (d : hi < lo' ∨ hi' < lo) :
    bits hi' lo' (setBits hi lo v n) = bits hi' lo' n := by
  apply Nat.eq_of_testBit_eq; intro i
  rw [testBit_bits, testBit_bits, testBit_setBits _ _ _ _ _ l]
  by_cases q : i < hi' - lo' + 1
  · rw [if_neg (by omega)]
  · simp [q]



theorem SMap.find_put_same {α : Type} (m : SMap α) (k : Nat) (v : α) : (m.put k v).find k = some v := by
  induction m with
  | nil => simp [SMap.put, SMap.find]
  | cons p m ih =>
    obtain ⟨j, w⟩ := p
    simp only [SMap.put]
    split
    · simp [SMap.find]
    · split
      · simp [SMap.find]
      · rename_i h; simp [SMap.find, h, ih]

theorem SMap.find_put_other {α : Type} (m : SMap α) (k j : Nat) (v : α) (h : j ≠ k) : (m.put k v).find j = m.find j := by
  induction m with
  | nil => simp [SMap.put, SMap.find, h]
  | cons p m ih =>
    obtain ⟨i, w⟩ := p
    simp only [SMap.put]
    split
    · simp [SMap.find, h]
    · split
      · rename_i e; subst e; simp [SMap.find, h]
      · simp [SMap.find, ih]

theorem SMap.find_del_same {α : Type} (m : SMap α) (k : Nat) : (m.del k).find k = none := by
  induction m with
  | nil => simp [SMap.del, SMap.find]
  | cons p m ih =>
    obtain ⟨i, w⟩ := p
    by_cases e : i = k
    · subst e; simpa [SMap.del] using ih
    · have : SMap.del ((i, w) :: m) k = (i, w) :: SMap.del m k := by simp [SMap.del, e]
      rw [this, SMap.find, if_neg (Ne.symm e), ih]

theorem SMap.find_del_other {α : Type} (m : SMap α) (k j : Nat) (h : j ≠ k) : (m.del k).find j = m.find j := by
  induction m with
  | nil => simp [SMap.del, SMap.find]
  | cons p m ih =>
    obtain ⟨i, w⟩ := p
    by_cases e : i = k
    · subst e; rw [SMap.find, if_neg h, ← ih]; simp [SMap.del]
    · have : SMap.del ((i, w) :: m) k = (i, w) :: SMap.del m k := by simp [SMap.del, e]
      rw [this, SMap.find, SMap.find, ih]

@[simp] theorem State.reg_setReg (s : State) (k v : Nat) : (s.setReg k v).reg k = v % 2 ^ 32 := by
  simp only [State.setReg, State.reg, regsPut]
  by_cases h : v % 2 ^ 32 = regReset k
  · rw [if_pos h, SMap.find_del_same]; exact h.symm
  · rw [if_neg h, SMap.find_put_same]; simp

theorem State.reg_setReg_other (s : State) (k v j : Nat) (h : j ≠ k) : (s.setReg k v).reg j = s.reg j := by
  simp only [State.setReg, State.reg, regsPut]
  by_cases e : v % 2 ^ 32 = regReset k
  · rw [if_pos e, SMap.find_del_other _ _ _ h]
  · rw [if_neg e, SMap.find_put_other _ _ _ _ h]

@[simp] theorem State.fld_setFld (s : State) (k hi lo v : Nat) (l : lo ≤ hi) (h : hi < 32) :
    (s.setFld k hi lo v).fld k hi lo = v % 2 ^ (hi - lo + 1) := by
  simp only [State.fld, State.setFld, State.reg_setReg]
  rw [bits_word _ _ _ l h, bits_setBits_same _ _ _ _ l]

theorem State.fld_setFld_other (s : State) (k hi lo v hi' lo' : Nat) (l : lo ≤ hi) (l' : lo' ≤ hi') (h : hi' < 32)
    (d : hi < lo' ∨ hi' < lo) : (s.setFld k hi lo v).fld k hi' lo' = s.fld k hi' lo' := by
  simp only [State.fld, State.setFld, State.reg_setReg]
  rw [bits_word _ _ _ l' h, bits_setBits_other _ _ _ _ _ _ l l' d]

theorem State.reg_setFld_other (s : State) (k hi lo v j : Nat) (h : j ≠ k) : (s.setFld k hi lo v).reg j = s.reg j :=
  State.reg_setReg_other _ _ _ _ h

theorem State.reg_bump_other (s : State) (k n j : Nat) (h : j ≠ k) : (s.bump k n).reg j = s.reg j :=
  State.reg_setReg_other _ _ _ _ h

theorem State.fld_eq_of_reg {s u : State} {k : Nat} (h : u.reg k = s.reg k) (hi lo : Nat) : u.fld k hi lo = s.fld k hi lo := by
  simp [State.fld, h]

/-- A register that the raising of a page's cause leaves as it is: not the page's EV_RAW, no message count, and neither the counters of
refused draws nor Keeper's causes. -/
def quiet (page k : Nat) : Bool :=
  k != evRaw page && k % 0x1000000 != Reg.EVT_MSG_CNT && k != Reg.KEEP_RSV_WAIT && k != Reg.KEEP_KEY_STOP && k != evRaw 0x40

/-- No message count, neither counter of refused draws and not Keeper's causes. -/
def still (k : Nat) : Prop :=
  k % 0x1000000 ≠ Reg.EVT_MSG_CNT ∧ k ≠ Reg.KEEP_RSV_WAIT ∧ k ≠ Reg.KEEP_KEY_STOP ∧ k ≠ evRaw 0x40

theorem foldl_reg {α : Type} (k : Nat) (f : State → α → State) (h : ∀ s a, (f s a).reg k = s.reg k) (s : State) (l : List α) :
    (l.foldl f s).reg k = s.reg k := by
  induction l generalizing s with
  | nil => rfl
  | cons a l ih => simp [ih, h]

theorem State.msiFor_reg (s : State) (n k : Nat) (h : k % 0x1000000 ≠ Reg.EVT_MSG_CNT) : (s.msiFor n).reg k = s.reg k := by
  unfold State.msiFor
  split
  · rfl
  · refine State.reg_bump_other _ _ _ _ (fun e => h ?_)
    subst e
    simp [bankKey, Reg.EVT_MSG_CNT]

theorem State.showLine_reg (s : State) (n k : Nat) (h : k % 0x1000000 ≠ Reg.EVT_MSG_CNT) : (s.showLine n).reg k = s.reg k := by
  unfold State.showLine
  dsimp only
  split
  · rw [State.msiFor_reg _ _ _ h]; rfl
  · split <;> rfl

theorem State.updateDoorbell_reg (s s0 : State) (k : Nat) : (s0.updateDoorbell s).reg k = s.reg k := by
  unfold State.updateDoorbell
  split <;> rfl

theorem State.raiseKeep_reg (s : State) (i k : Nat) (h : still k) : (s.raiseKeep i).reg k = s.reg k := by
  rw [State.raiseKeep, State.updateDoorbell_reg, State.showLine_reg _ _ _ h.1, State.reg_setReg_other _ _ _ _ h.2.2.2]

theorem State.sendDatagram_reg (s : State) (peer : Nat) (octets : List Byte) (k : Nat) : (s.sendDatagram peer octets).reg k = s.reg k := by
  simp [State.reg]

theorem State.sendSecured_reg (s : State) (sid ftype : Nat) (body : List Byte) (k : Nat) (h : still k) :
    (s.sendSecured sid ftype body).reg k = s.reg k := by
  unfold State.sendSecured
  split
  · rfl
  · split
    · rfl
    · dsimp only
      split
      · exact State.sendDatagram_reg _ _ _ _
      · rw [State.raiseKeep_reg _ _ _ h]; exact State.reg_bump_other _ _ _ _ h.2.1
      · rw [State.raiseKeep_reg _ _ _ h]; exact State.reg_bump_other _ _ _ _ h.2.2.1

theorem State.updateLine_reg (s : State) (n k : Nat) (h : still k) : (s.updateLine n).reg k = s.reg k := by
  have push : ∀ s : State, (s.pushEvt n).reg k = s.reg k := fun s =>
    foldl_reg k _ (fun s _ => foldl_reg k _ (fun s _ => State.sendSecured_reg _ _ _ _ _ h) _ _) _ _
  unfold State.updateLine
  split
  · rw [push, State.showLine_reg _ _ _ h.1]
  · exact State.showLine_reg _ _ _ h.1

/-- A line that no EVT push names moves no register but its message count. -/
theorem State.updateLine_high (s : State) (n k : Nat) (l : 32 ≤ n) (h : k % 0x1000000 ≠ Reg.EVT_MSG_CNT) :
    (s.updateLine n).reg k = s.reg k := by
  have push : ∀ s : State, s.pushEvt n = s := by
    intro s
    have none : ∀ s : State, s.evtSessions n = [] := by
      intro s; simp [State.evtSessions, Nat.not_lt.mpr l]
    simp only [State.pushEvt, none, List.foldl_nil]
    induction s.linePages n <;> simp_all
  unfold State.updateLine
  rw [push]
  split <;> exact State.showLine_reg _ _ _ h

theorem State.updateLines_reg (s : State) (page k : Nat) (h : still k) : (s.updateLines page).reg k = s.reg k := by
  rw [State.updateLines, State.updateDoorbell_reg]
  exact foldl_reg k _ (fun s _ => State.updateLine_reg _ _ _ h) _ _

/-- The only line of Keeper's page takes no EVT push. -/
theorem State.updateLines_keep (s : State) (k : Nat) (h : k % 0x1000000 ≠ Reg.EVT_MSG_CNT) : (s.updateLines 0x40).reg k = s.reg k := by
  have lines : pageLines 0x40 = [41] := by decide
  rw [State.updateLines, State.updateDoorbell_reg, lines]
  exact State.updateLine_high _ _ _ (by omega) h

theorem State.raise_reg (s : State) (page i k : Nat) (h : quiet page k = true) : (s.raise page i).reg k = s.reg k := by
  simp only [quiet, Bool.and_eq_true, bne_iff_ne, ne_eq] at h
  obtain ⟨⟨⟨⟨a, b⟩, c⟩, d⟩, e⟩ := h
  unfold State.raise State.raiseMask
  rw [State.updateLines_reg _ _ _ ⟨b, c, d, e⟩, State.reg_setReg_other _ _ _ _ a]

end Sys2Proof.Machine
end

