-- ==== Sys2Proof/Laws/Events.lean ====
section
/-!
SUPPORT. What causes, event lines and captures may change, and what the raising of a cause does to its page's EV_RAW.
-/

namespace Sys2Proof.Machine

/-- The second state differs from the first one only in what event lines, their pushes and waiting records move. -/
def Signals (s u : State) : Prop := u = s.eventsOf u

theorem Signals.refl (s : State) : Signals s s := rfl

theorem Signals.trans {s u w : State} (a : Signals s u) (b : Signals u w) : Signals s w := by
  unfold Signals at *; rw [b, a]; rfl

theorem Signals.foldl {α : Type} (f : State → α → State) (h : ∀ s a, Signals s (f s a)) (s : State) (l : List α) :
    Signals s (l.foldl f s) := by
  induction l generalizing s with
  | nil => exact .refl s
  | cons a l ih => exact (h s a).trans (ih _)

theorem State.setReg_signals (s : State) (k v : Nat) : Signals s (s.setReg k v) := rfl
theorem State.setFld_signals (s : State) (k hi lo v : Nat) : Signals s (s.setFld k hi lo v) := rfl
theorem State.setFlag_signals (s : State) (k i : Nat) (b : Bool) : Signals s (s.setFlag k i b) := rfl
theorem State.bump_signals (s : State) (k n : Nat) : Signals s (s.bump k n) := rfl
theorem State.setReg64_signals (s : State) (klo khi v : Nat) : Signals s (s.setReg64 klo khi v) := rfl
theorem State.send_signals (s : State) (o : Output) : Signals s (s.send o) := rfl
theorem State.setTxKey_signals (s : State) (key : Nat) (k : TxKey) : Signals s (s.setTxKey key k) := rfl

theorem State.msiFor_signals (s : State) (n : Nat) : Signals s (s.msiFor n) := by unfold State.msiFor; split <;> rfl

theorem State.showLine_signals (s : State) (n : Nat) : Signals s (s.showLine n) := by
  unfold State.showLine
  dsimp only
  split
  · exact Signals.trans (u := { s with lineActive := n :: s.lineActive }) rfl (State.msiFor_signals _ _)
  · split <;> rfl

theorem State.updateDoorbell_signals (s0 s : State) : Signals s (s0.updateDoorbell s) := by unfold State.updateDoorbell; split <;> rfl

theorem State.raiseKeep_signals (s : State) (i : Nat) : Signals s (s.raiseKeep i) :=
  ((State.setReg_signals _ _ _).trans (State.showLine_signals _ _)).trans (State.updateDoorbell_signals _ _)

theorem State.sendDatagram_signals (s : State) (peer : Nat) (octets : List Byte) : Signals s (s.sendDatagram peer octets) := by
  unfold State.sendDatagram
  dsimp only
  split
  · split <;> rfl
  · rfl

theorem State.sendSecured_signals (s : State) (sid ftype : Nat) (body : List Byte) : Signals s (s.sendSecured sid ftype body) := by
  unfold State.sendSecured
  split
  · exact .refl s
  · split
    · exact .refl s
    · dsimp only
      split
      · exact Signals.trans (Signals.trans (by rfl) (State.sendDatagram_signals _ _ _)) (State.send_signals _ _)
      · exact Signals.trans (by rfl) (State.raiseKeep_signals _ _)
      · exact Signals.trans (by rfl) (State.raiseKeep_signals _ _)

theorem State.updateLine_signals (s : State) (n : Nat) : Signals s (s.updateLine n) := by
  have push : ∀ s : State, Signals s (s.pushEvt n) := fun s =>
    .foldl _ (fun s _ => .foldl _ (fun s _ => State.sendSecured_signals s _ _ _) s _) s _
  unfold State.updateLine
  split
  · exact (State.showLine_signals _ _).trans (push _)
  · exact State.showLine_signals _ _

theorem State.updateLines_signals (s : State) (page : Nat) : Signals s (s.updateLines page) := by
  have lines : Signals s ((pageLines page).foldl State.updateLine s) := .foldl _ State.updateLine_signals s _
  unfold State.updateLines State.updateDoorbell
  split
  · exact lines
  · exact lines.trans (State.send_signals _ _)

theorem State.raiseMask_signals (s : State) (page mask : Nat) : Signals s (s.raiseMask page mask) :=
  (State.setReg_signals s _ _).trans (State.updateLines_signals _ page)

theorem State.raise_signals (s : State) (page i : Nat) : Signals s (s.raise page i) := State.raiseMask_signals s page _

theorem State.clearCauses_signals (s : State) (page mask : Nat) : Signals s (s.clearCauses page mask) :=
  (State.setReg_signals s _ _).trans (State.updateLines_signals _ page)

theorem State.captureHeader_signals (s : State) (page cap addr : Nat) : Signals s (s.captureHeader page cap addr) := by
  unfold State.captureHeader
  dsimp only
  split
  · exact State.setFlag_signals _ _ _ _
  · exact (State.setReg_signals _ _ _).trans (State.setReg_signals _ _ _)

theorem Signals.ring {s u : State} (h : Signals s u) (e : SMap ErrEntry) : Signals { s with errRing := e } { u with errRing := e } := by
  unfold Signals at *; rw [h]; rfl

theorem Signals.ownRing {s u : State} {e : SMap ErrEntry} (h : Signals { s with errRing := e } u) :
    Signals { s with errRing := u.errRing } u := by
  have r : u.errRing = e := congrArg State.errRing h
  rw [r]; exact h

/-- The two headers of a capture. -/
def State.captureHeads (s : State) (page cap addr : Nat) : State :=
  (if (pageKind page).isSome && page ≠ 0 then s.captureHeader page cap addr else s).captureHeader 0 cap addr

/-- The error ring's part of a capture, before the cause of SYS. -/
def State.captureRing (s : State) (cap addr : Nat) : State :=
  { if (s.errRing.find (s.fld Reg.SYS_ERR_WR 4 0)).isSome then s.bump Reg.SYS_ERR_OVF else s with
    errRing := (if (s.errRing.find (s.fld Reg.SYS_ERR_WR 4 0)).isSome then s.bump Reg.SYS_ERR_OVF else s).errRing.put
      (s.fld Reg.SYS_ERR_WR 4 0) ⟨BitVec.ofNat 32 cap, BitVec.ofNat 32 addr,
        (if (s.errRing.find (s.fld Reg.SYS_ERR_WR 4 0)).isSome then s.bump Reg.SYS_ERR_OVF else s).now⟩ }

theorem State.capture_parts (s : State) (p : Path) (page off cause : Nat) :
    s.capture p page off cause =
      (((s.captureHeads page (0x80000000 + pathCode p * 2 ^ 28 + cause * 2 ^ 16 + page * 2 ^ 8) (pathPeer p * 2 ^ 23 + off)).captureRing
        (0x80000000 + pathCode p * 2 ^ 28 + cause * 2 ^ 16 + page * 2 ^ 8) (pathPeer p * 2 ^ 23 + off)).setFld Reg.SYS_ERR_WR 4 0
        ((s.captureHeads page (0x80000000 + pathCode p * 2 ^ 28 + cause * 2 ^ 16 + page * 2 ^ 8) (pathPeer p * 2 ^ 23 + off)).fld
          Reg.SYS_ERR_WR 4 0 + 1)).raise 0 1 := rfl

theorem State.captureHeads_signals (s : State) (page cap addr : Nat) : Signals s (s.captureHeads page cap addr) := by
  unfold State.captureHeads
  split
  · exact (State.captureHeader_signals _ _ _ _).trans (State.captureHeader_signals _ _ _ _)
  · exact State.captureHeader_signals _ _ _ _

theorem State.captureRing_signals (s : State) (cap addr : Nat) :
    Signals { s with errRing := (s.captureRing cap addr).errRing } (s.captureRing cap addr) := by
  have key : ∀ u : State, Signals s u → ∀ e : SMap ErrEntry, Signals { s with errRing := e } { u with errRing := e } := fun u h e => h.ring e
  unfold State.captureRing
  refine key _ ?_ _
  split
  · exact State.bump_signals _ _ _
  · exact .refl s

/-- A capture changes the error ring beside what event lines move. -/
theorem State.capture_signals (s : State) (p : Path) (page off cause : Nat) :
    Signals { s with errRing := (s.capture p page off cause).errRing } (s.capture p page off cause) := by
  have key : ∀ (h : State) (e : SMap ErrEntry) (r w : State), Signals s h → Signals { h with errRing := e } r → Signals r w →
      Signals { s with errRing := w.errRing } w := fun h e r w a b c => Signals.ownRing (((a.ring e).trans b).trans c)
  rw [State.capture_parts]
  exact key _ _ _ _ (State.captureHeads_signals _ _ _ _) (State.captureRing_signals _ _ _)
    ((State.setFld_signals _ _ _ _ _).trans (State.raise_signals _ _ _))

theorem State.alert_signals (s : State) (page : Nat) :
    Signals { s with upd := { s.upd with unhealthy := true } } (s.alert page) := by
  unfold State.alert
  dsimp only
  split <;> exact Signals.trans (by rfl) (State.raise_signals _ _ _)

/-- A register that neither event lines nor the causes of a page count in stays as it is when the page's lines move. -/
theorem State.updateLines_still (s : State) (page k : Nat) (h : stillKey k = true) : (s.updateLines page).reg k = s.reg k := by
  simp only [stillKey, Bool.and_eq_true, bne_iff_ne, ne_eq] at h
  exact State.updateLines_reg s page k ⟨h.1.1.1, h.1.1.2, h.1.2, h.2⟩

/-- EV_RAW of a page stays as it is when the page's lines move, Keeper's too: no EVT push names its line. -/
theorem State.updateLines_raw (s : State) (page : Nat) (h : stillKey (evRaw page) = true ∨ page = 0x40) :
    (s.updateLines page).reg (evRaw page) = s.reg (evRaw page) := by
  rcases h with h | rfl
  · exact State.updateLines_still _ _ _ h
  · exact State.updateLines_keep _ _ (by decide)

/-- EV_RAW of a page after causes of it are set. -/
theorem State.raiseMask_raw (s : State) (page mask : Nat) (h : stillKey (evRaw page) = true ∨ page = 0x40) :
    (s.raiseMask page mask).reg (evRaw page) = (s.reg (evRaw page) ||| (mask &&& causeMask page)) % 2 ^ 32 := by
  rw [State.raiseMask, State.updateLines_raw _ _ h, State.reg_setReg]

/-- EV_RAW of a page after causes of it are cleared. -/
theorem State.clearCauses_raw (s : State) (page mask : Nat) (h : stillKey (evRaw page) = true ∨ page = 0x40) :
    (s.clearCauses page mask).reg (evRaw page) = (s.reg (evRaw page) &&& (0xFFFFFFFF - (mask &&& 0xFFFFFFFF))) % 2 ^ 32 := by
  rw [State.clearCauses, State.updateLines_raw _ _ h, State.reg_setReg]

/-- A register other than the page's EV_RAW stays as it is when a cause of the page is set. -/
theorem State.raise_still (s : State) (page i k : Nat) (h : stillKey k = true) (r : k ≠ evRaw page) :
    (s.raise page i).reg k = s.reg k := by
  rw [State.raise, State.raiseMask, State.updateLines_still _ _ _ h, State.reg_setReg_other _ _ _ _ r]

theorem State.captureHeader_reg (s : State) (page cap addr k : Nat) (a : k ≠ page * 0x1000 + 0x028) (b : k ≠ page * 0x1000 + 0x02C) :
    (s.captureHeader page cap addr).reg k = s.reg k := by
  unfold State.captureHeader
  dsimp only
  split
  · exact State.reg_setFld_other _ _ _ _ _ _ a
  · rw [State.reg_setReg_other _ _ _ _ b, State.reg_setReg_other _ _ _ _ a]

/-- A capture changes no register but those of its two headers, the error ring and the causes of SYS. -/
theorem State.capture_reg (s : State) (p : Path) (page off cause k : Nat) (h : stillKey k = true) (c : k ∉ captureKeys page) :
    (s.capture p page off cause).reg k = s.reg k := by
  simp only [captureKeys, List.mem_cons, List.not_mem_nil, or_false, not_or] at c
  obtain ⟨c1, c2, c3, c4, c5, c6, c7⟩ := c
  rw [State.capture_parts, State.raise_still _ _ _ _ h c7, State.reg_setFld_other _ _ _ _ _ _ c5]
  have ring : ∀ (s : State) (cap addr : Nat), (s.captureRing cap addr).reg k = s.reg k := by
    intro s cap addr
    have put : ∀ (u : State) (e : SMap ErrEntry), u.reg k = s.reg k → State.reg { u with errRing := e } k = s.reg k := fun _ _ h => h
    unfold State.captureRing
    refine put _ _ ?_
    split
    · exact State.reg_bump_other _ _ _ _ c6
    · rfl
  rw [ring]
  unfold State.captureHeads
  rw [State.captureHeader_reg _ 0 _ _ k c3 c4]
  split
  · exact State.captureHeader_reg _ _ _ _ k c1 c2
  · rfl

end Sys2Proof.Machine
end

