-- ==== Sys2Proof/Laws/Access.lean ====
section
/-!
SUPPORT. An access that its gate lets through, the finish of a write, and what waking a domain changes.
-/

namespace Sys2Proof.Machine

theorem State.through_gate {s a : State} {p : Path} {page off : Nat} {write : Bool} (h : s.through p page off write = some a) :
    s.gate p page off write = .proceed a := by
  unfold State.through at h
  split at h
  · rename_i e; rw [e, Option.some.inj h]
  · exact absurd h (by simp)

/-- A write that its gate lets through is its effect, counted or captured. -/
theorem State.hostWrite_through {s a : State} {p : Path} {page off : Nat} (h : s.through p page off true = some a)
    (eff : State → WriteResult) : s.hostWrite p page off eff = State.finish p page off (eff a) := by
  simp only [State.hostWrite, State.through_gate h]

/-- A read that its gate lets through is its register's. -/
theorem State.hostRead_through {s a : State} {p : Path} {page off : Nat} (h : s.through p page off false = some a)
    (f : State → State × Nat) : s.hostRead p page off f = f a := by
  simp only [State.hostRead, State.through_gate h]

theorem answer_out (p : Path) (r : State × Nat) : (answer p r).out = .word p (BitVec.ofNat 32 r.2) :: r.1.out := eq_of_heq HEq.rfl
theorem answer_reg (p : Path) (r : State × Nat) (k : Nat) : (answer p r).reg k = r.1.reg k := eq_of_heq HEq.rfl

/-- An accepted write changes its page's SEQ after its effect, and nothing else. -/
theorem State.finish_done (p : Path) (page off : Nat) (s : State) :
    State.finish p page off (.done s) = { s with regs := (State.finish p page off (.done s)).regs } := by
  simp only [State.finish]; split <;> rfl

theorem State.finish_done_reg (p : Path) (page off k : Nat) (s : State) (h : k ≠ page * 0x1000 + 0x030) :
    (State.finish p page off (.done s)).reg k = s.reg k := by
  simp only [State.finish]
  split
  · exact State.reg_setReg_other _ _ _ _ h
  · rfl

theorem State.finish_ignored (p : Path) (page off : Nat) (s : State) : State.finish p page off (.ignored s) = s := rfl

theorem State.finish_discard (p : Path) (page off cause : Nat) (s : State) :
    State.finish p page off (.discard s cause) = s.capture p page off cause := rfl

/-- Whatever a write comes to, it leaves the error ring, its page's SEQ and what event lines move beside its effect. -/
theorem State.finish_signals (p : Path) (page off : Nat) (r : WriteResult) :
    Signals { r.state with errRing := (State.finish p page off r).errRing } (State.finish p page off r) := by
  cases r with
  | done s =>
    simp only [State.finish, WriteResult.state]
    split <;> rfl
  | ignored s => rfl
  | discard s c => exact State.capture_signals s p page off c

/-- The registers that the finish of a write leaves as its effect left them. -/
theorem State.finish_reg (p : Path) (page off k : Nat) (r : WriteResult) (h : stillKey k = true) (c : k ∉ captureKeys page)
    (q : k ≠ page * 0x1000 + 0x030) : (State.finish p page off r).reg k = r.state.reg k := by
  cases r with
  | done s => exact State.finish_done_reg _ _ _ _ _ q
  | ignored s => rfl
  | discard s d => exact State.capture_reg _ _ _ _ _ _ h c

/-- The second state differs from the first one only in its registers. -/
def RegsOnly (s u : State) : Prop := u = { s with regs := u.regs }

theorem RegsOnly.refl (s : State) : RegsOnly s s := rfl
theorem RegsOnly.trans {s u w : State} (a : RegsOnly s u) (b : RegsOnly u w) : RegsOnly s w := by
  unfold RegsOnly at *; rw [b, a]
theorem RegsOnly.foldl {α : Type} (f : State → α → State) (h : ∀ s a, RegsOnly s (f s a)) (s : State) (l : List α) :
    RegsOnly s (l.foldl f s) := by
  induction l generalizing s with
  | nil => exact .refl s
  | cons a l ih => exact (h s a).trans (ih _)
theorem RegsOnly.signals {s u : State} (h : RegsOnly s u) : Signals s u := by
  unfold RegsOnly Signals at *; rw [h]; rfl

theorem State.setReg_regsOnly (s : State) (k v : Nat) : RegsOnly s (s.setReg k v) := rfl
theorem State.setFld_regsOnly (s : State) (k hi lo v : Nat) : RegsOnly s (s.setFld k hi lo v) := rfl
theorem State.setFlag_regsOnly (s : State) (k i : Nat) (b : Bool) : RegsOnly s (s.setFlag k i b) := rfl
theorem State.bump_regsOnly (s : State) (k n : Nat) : RegsOnly s (s.bump k n) := rfl
theorem State.setReg64_regsOnly (s : State) (klo khi v : Nat) : RegsOnly s (s.setReg64 klo khi v) := rfl
theorem State.setDom_regsOnly (s : State) (d v : Nat) : RegsOnly s (s.setDom d v) := rfl
theorem State.showStep_regsOnly (s : State) : RegsOnly s s.showStep := rfl

theorem State.refusal_regsOnly (s : State) (id dom : Nat) (abort : Bool) : RegsOnly s (s.refusal id dom abort) := by
  have key : ∀ (u : State) (l : List Nat), RegsOnly s u →
      RegsOnly s (if l.isEmpty then u.bump Reg.PWR_REF_OTHER else l.foldl (fun s n => s.bump (Reg.PWR_REF_CNT n)) u) := by
    intro u l h
    split
    · exact h.trans (State.bump_regsOnly _ _ _)
    · exact h.trans (.foldl _ (fun s _ => State.bump_regsOnly s _ _) _ _)
  exact key _ _ ((State.setReg_regsOnly s _ _).trans (State.setReg64_regsOnly _ _ _ _))

theorem State.touch_frame (s : State) (d : Nat) :
    s.touch d = { s with regs := (s.touch d).regs, idleRetain := (s.touch d).idleRetain, touched := (s.touch d).touched } := rfl

end Sys2Proof.Machine
end

