-- ==== Sys2Proof/Laws/Kept.lean ====
section
/-!
SUPPORT. What operations leave as it is, in the four forms that the next files state for every operation, and the lemmas that carry it
through folds, branches and chains.
-/

namespace Sys2Proof.Machine

/-- Sweep time, the BAR2 window, the queue, the factory values and the life-cycle state are as before. -/
abbrev Kept (s u : State) : Prop := u.now = s.now ∧ u.mem = s.mem ∧ u.pending = s.pending ∧ u.fac = s.fac ∧ u.nv.lc = s.nv.lc
/-- As `Kept`, but for sweep time. -/
abbrev Held (s u : State) : Prop := u.mem = s.mem ∧ u.pending = s.pending ∧ u.fac = s.fac ∧ u.nv.lc = s.nv.lc
/-- As `Kept`, but for the life-cycle state. -/
abbrev Moved (s u : State) : Prop := u.now = s.now ∧ u.mem = s.mem ∧ u.pending = s.pending ∧ u.fac = s.fac
/-- As `Kept`, but for the BAR2 window. -/
abbrev Stored (s u : State) : Prop := u.now = s.now ∧ u.pending = s.pending ∧ u.fac = s.fac ∧ u.nv.lc = s.nv.lc
@[simp] theorem WriteResult.state_done (s : State) : (WriteResult.done s).state = s := eq_of_heq HEq.rfl
@[simp] theorem WriteResult.state_ignored (s : State) : (WriteResult.ignored s).state = s := eq_of_heq HEq.rfl
@[simp] theorem WriteResult.state_discard (s : State) (c : Nat) : (WriteResult.discard s c).state = s := eq_of_heq HEq.rfl
theorem foldl_proj {α β : Type} (g : State → β) (f : State → α → State) (h : ∀ s a, g (f s a) = g s) (s : State) (l : List α) :
    g (l.foldl f s) = g s := by
  induction l generalizing s with
  | nil => rfl
  | cons a l ih => simp [ih, h]
theorem Kept.foldl {α : Type} (f : State → α → State) (h : ∀ s a, Kept s (f s a)) (s : State) (l : List α) : Kept s (l.foldl f s) := by
  refine ⟨?_, ?_, ?_, ?_, ?_⟩
  · exact foldl_proj (fun x => x.now) f (fun s a => (h s a).1) s l
  · exact foldl_proj (fun x => x.mem) f (fun s a => (h s a).2.1) s l
  · exact foldl_proj (fun x => x.pending) f (fun s a => (h s a).2.2.1) s l
  · exact foldl_proj (fun x => x.fac) f (fun s a => (h s a).2.2.2.1) s l
  · exact foldl_proj (fun x => x.nv.lc) f (fun s a => (h s a).2.2.2.2) s l

theorem foldl_snd {α γ β : Type} (g : State → β) (f : γ × State → α → γ × State) (h : ∀ r a, g (f r a).2 = g r.2) (r : γ × State) (l : List α) :
    g (l.foldl f r).2 = g r.2 := by
  induction l generalizing r with
  | nil => rfl
  | cons a l ih => simp [ih, h]
theorem Kept.foldlSnd {α γ : Type} (f : γ × State → α → γ × State) (h : ∀ r a, Kept r.2 (f r a).2) (r : γ × State) (l : List α) : Kept r.2 (l.foldl f r).2 := by
  refine ⟨?_, ?_, ?_, ?_, ?_⟩
  · exact foldl_snd (fun x => x.now) f (fun s a => (h s a).1) r l
  · exact foldl_snd (fun x => x.mem) f (fun s a => (h s a).2.1) r l
  · exact foldl_snd (fun x => x.pending) f (fun s a => (h s a).2.2.1) r l
  · exact foldl_snd (fun x => x.fac) f (fun s a => (h s a).2.2.2.1) r l
  · exact foldl_snd (fun x => x.nv.lc) f (fun s a => (h s a).2.2.2.2) r l
theorem Kept.trans {s u w : State} (a : Kept s u) (b : Kept u w) : Kept s w := by
  simp only [Kept] at *; simp [a, b]
theorem Stored.foldlFst {α γ : Type} (f : State × γ → α → State × γ) (h : ∀ r a, Stored r.1 (f r a).1) (r : State × γ) (l : List α) : Stored r.1 (l.foldl f r).1 := by
  induction l generalizing r with
  | nil => simp [Stored]
  | cons a l ih => have x := ih (f r a); have y := h r a; simp only [Stored] at x y ⊢; simp [x, y]
@[simp] theorem foldl_now {α : Type} (f : State → α → State) (h : ∀ s a, (f s a).now = s.now) (s : State) (l : List α) : (l.foldl f s).now = s.now := foldl_proj (fun x => x.now) f h s l
@[simp] theorem ite_now (c : Prop) [Decidable c] (a b : State) : (if c then a else b).now = if c then a.now else b.now := by split <;> rfl
@[simp] theorem foldl_mem {α : Type} (f : State → α → State) (h : ∀ s a, (f s a).mem = s.mem) (s : State) (l : List α) : (l.foldl f s).mem = s.mem := foldl_proj (fun x => x.mem) f h s l
@[simp] theorem ite_mem (c : Prop) [Decidable c] (a b : State) : (if c then a else b).mem = if c then a.mem else b.mem := by split <;> rfl
@[simp] theorem foldl_pending {α : Type} (f : State → α → State) (h : ∀ s a, (f s a).pending = s.pending) (s : State) (l : List α) : (l.foldl f s).pending = s.pending := foldl_proj (fun x => x.pending) f h s l
@[simp] theorem ite_pending (c : Prop) [Decidable c] (a b : State) : (if c then a else b).pending = if c then a.pending else b.pending := by split <;> rfl
@[simp] theorem foldl_fac {α : Type} (f : State → α → State) (h : ∀ s a, (f s a).fac = s.fac) (s : State) (l : List α) : (l.foldl f s).fac = s.fac := foldl_proj (fun x => x.fac) f h s l
@[simp] theorem ite_fac (c : Prop) [Decidable c] (a b : State) : (if c then a else b).fac = if c then a.fac else b.fac := by split <;> rfl
@[simp] theorem foldl_lc {α : Type} (f : State → α → State) (h : ∀ s a, (f s a).nv.lc = s.nv.lc) (s : State) (l : List α) : (l.foldl f s).nv.lc = s.nv.lc := foldl_proj (fun x => x.nv.lc) f h s l
@[simp] theorem ite_lc (c : Prop) [Decidable c] (a b : State) : (if c then a else b).nv.lc = if c then a.nv.lc else b.nv.lc := by split <;> rfl
theorem Kept.ite {s a b : State} {c : Prop} [Decidable c] (ha : Kept s a) (hb : Kept s b) : Kept s (if c then a else b) := by
  split
  · exact ha
  · exact hb
theorem Kept.step {s u : State} {f : State → State} (h : Kept s u) (k : ∀ x, Kept s x → Kept s (f x)) : Kept s (have x := u; f x) := k u h
theorem Kept.stepL {α : Type} {s : State} {u : State × α} {f : State × α → State} (h : Kept s u.1) (k : ∀ x : State × α, Kept s x.1 → Kept s (f x)) : Kept s (have x := u; f x) := k u h
theorem Kept.stepR {α : Type} {s : State} {u : α × State} {f : α × State → State} (h : Kept s u.2) (k : ∀ x : α × State, Kept s x.2 → Kept s (f x)) : Kept s (have x := u; f x) := k u h
theorem Kept.stepV {α : Type} {s : State} {u : α} {f : α → State} (k : ∀ x : α, Kept s (f x)) : Kept s (have x := u; f x) := k u
theorem Held.step {s u : State} {f : State → State} (h : Held s u) (k : ∀ x, Held s x → Held s (f x)) : Held s (have x := u; f x) := k u h
theorem Held.stepL {α : Type} {s : State} {u : State × α} {f : State × α → State} (h : Held s u.1) (k : ∀ x : State × α, Held s x.1 → Held s (f x)) : Held s (have x := u; f x) := k u h
theorem Held.stepR {α : Type} {s : State} {u : α × State} {f : α × State → State} (h : Held s u.2) (k : ∀ x : α × State, Held s x.2 → Held s (f x)) : Held s (have x := u; f x) := k u h
theorem Held.stepV {α : Type} {s : State} {u : α} {f : α → State} (k : ∀ x : α, Held s (f x)) : Held s (have x := u; f x) := k u
theorem Stored.step {s u : State} {f : State → State} (h : Stored s u) (k : ∀ x, Stored s x → Stored s (f x)) : Stored s (have x := u; f x) := k u h
theorem Stored.stepL {α : Type} {s : State} {u : State × α} {f : State × α → State} (h : Stored s u.1) (k : ∀ x : State × α, Stored s x.1 → Stored s (f x)) : Stored s (have x := u; f x) := k u h
theorem Stored.stepR {α : Type} {s : State} {u : α × State} {f : α × State → State} (h : Stored s u.2) (k : ∀ x : α × State, Stored s x.2 → Stored s (f x)) : Stored s (have x := u; f x) := k u h
theorem Stored.stepV {α : Type} {s : State} {u : α} {f : α → State} (k : ∀ x : α, Stored s (f x)) : Stored s (have x := u; f x) := k u
@[simp] theorem andThen_now (r : WriteResult) (f : State → State) (h : ∀ s, (f s).now = s.now) : (r.andThen f).state.now = r.state.now := by
  cases r <;> simp [WriteResult.andThen, h]
@[simp] theorem andThen_mem (r : WriteResult) (f : State → State) (h : ∀ s, (f s).mem = s.mem) : (r.andThen f).state.mem = r.state.mem := by
  cases r <;> simp [WriteResult.andThen, h]
@[simp] theorem andThen_pending (r : WriteResult) (f : State → State) (h : ∀ s, (f s).pending = s.pending) : (r.andThen f).state.pending = r.state.pending := by
  cases r <;> simp [WriteResult.andThen, h]
@[simp] theorem andThen_fac (r : WriteResult) (f : State → State) (h : ∀ s, (f s).fac = s.fac) : (r.andThen f).state.fac = r.state.fac := by
  cases r <;> simp [WriteResult.andThen, h]
@[simp] theorem andThen_lc (r : WriteResult) (f : State → State) (h : ∀ s, (f s).nv.lc = s.nv.lc) : (r.andThen f).state.nv.lc = r.state.nv.lc := by
  cases r <;> simp [WriteResult.andThen, h]
@[simp] theorem ite_state (c : Prop) [Decidable c] (a b : WriteResult) : (if c then a else b).state = if c then a.state else b.state := apply_ite ..
@[simp] theorem ite_fst {α : Type} (c : Prop) [Decidable c] (a b : State × α) : (if c then a else b).1 = if c then a.1 else b.1 := apply_ite ..
@[simp] theorem ite_snd {α : Type} (c : Prop) [Decidable c] (a b : α × State) : (if c then a else b).2 = if c then a.2 else b.2 := apply_ite ..

end Sys2Proof.Machine
end

