-- ==== Sys2Proof/Laws/KeptBus.lean ====
section
/-!
SUPPORT. What each operation of the register file, events, the bus, the sweep and Slalom leaves as it is.
-/

namespace Sys2Proof.Machine

@[simp] theorem State.setReg_kept (s : State) (k : Nat) (v : Nat) : Kept s (s.setReg k v) := by
  simp [Kept, State.setReg]
@[simp] theorem State.setFld_kept (s : State) (k : Nat) (hi : Nat) (lo : Nat) (v : Nat) : Kept s (s.setFld k hi lo v) := by
  simp [Kept, State.setFld]
@[simp] theorem State.setFlag_kept (s : State) (k : Nat) (i : Nat) (b : Bool) : Kept s (s.setFlag k i b) := by
  simp [Kept, State.setFlag]
@[simp] theorem State.bump_kept (s : State) (k : Nat) (n : optParam Nat 1) : Kept s (s.bump k n) := by
  simp [Kept, State.bump]
@[simp] theorem State.setReg64_kept (s : State) (klo : Nat) (khi : Nat) (v : Nat) : Kept s (s.setReg64 klo khi v) := by
  simp [Kept, State.setReg64]
@[simp] theorem State.tick_kept (s : State) (t : Angle) : (s.tick t).mem = s.mem ∧ (s.tick t).pending = s.pending ∧ (s.tick t).fac = s.fac ∧ (s.tick t).nv = s.nv := by
  simp only [State.tick]; split <;> simp
@[simp] theorem State.draw_kept (s : State) : Kept s (s.draw).2 := by
  simp [Kept, State.draw]
@[simp] theorem State.drawBit_kept (s : State) : Kept s (s.drawBit).2 := by
  simp [Kept, State.drawBit]
@[simp] theorem State.send_kept (s : State) (o : Output) : Kept s (s.send o) := by
  simp [Kept, State.send]
@[simp] theorem State.latchAt_kept (s : State) (p : Path) (k : Nat) (v : Nat) : Kept s (s.latchAt p k v) := by
  simp [Kept, State.latchAt]
@[simp] theorem State.store8_kept (s : State) (a : Nat) (b : Byte) : (s.store8 a b).now = s.now ∧ (s.store8 a b).pending = s.pending ∧ (s.store8 a b).fac = s.fac ∧ (s.store8 a b).nv = s.nv := by
  simp only [State.store8]; split <;> simp
@[simp] theorem State.store_kept (s : State) (a : Nat) (bs : List Byte) : (s.store a bs).now = s.now ∧ (s.store a bs).pending = s.pending ∧ (s.store a bs).fac = s.fac ∧ (s.store a bs).nv = s.nv := by
  induction bs generalizing s a with
  | nil => simp [State.store]
  | cons b bs ih => simp [State.store, ih]
@[simp] theorem State.sendDatagram_kept (s : State) (peer : Nat) (octets : List Byte) : Kept s (State.sendDatagram s peer octets) := by
  unfold State.sendDatagram
  dsimp only
  (repeat' split) <;> simp [Kept]

@[simp] theorem State.setTxKey_kept (s : State) (key : Nat) (k : TxKey) : Kept s (s.setTxKey key k) := by
  simp [Kept, State.setTxKey]
@[simp] theorem State.msiFor_kept (s : State) (n : Nat) : Kept s (s.msiFor n) := by
  simp [Kept, State.msiFor]
@[simp] theorem State.showLine_kept (s : State) (n : Nat) : Kept s (s.showLine n) := by
  simp [Kept, State.showLine]
@[simp] theorem State.updateDoorbell_kept (s0 : State) (s : State) : Kept s (s0.updateDoorbell s) := by
  simp [Kept, State.updateDoorbell]
@[simp] theorem State.raiseKeep_kept (s : State) (i : Nat) : Kept s (s.raiseKeep i) := by
  simp [Kept, State.raiseKeep]
@[simp] theorem State.sendSecured_kept (s : State) (sid : Nat) (ftype : Nat) (body : List Byte) : Kept s (s.sendSecured sid ftype body) := by
  unfold State.sendSecured
  dsimp only
  (repeat' split) <;> simp [Kept]
@[simp] theorem State.pushEvt_kept (s : State) (n : Nat) : Kept s (s.pushEvt n) := by
  simp [Kept, State.pushEvt]
@[simp] theorem State.updateLine_kept (s : State) (n : Nat) : Kept s (s.updateLine n) := by
  simp [Kept, State.updateLine]
@[simp] theorem State.updateLines_kept (s : State) (page : Nat) : Kept s (s.updateLines page) := by
  simp [Kept, State.updateLines]
@[simp] theorem State.raiseMask_kept (s : State) (page : Nat) (mask : Nat) : Kept s (s.raiseMask page mask) := by
  simp [Kept, State.raiseMask]
@[simp] theorem State.raise_kept (s : State) (page : Nat) (i : Nat) : Kept s (s.raise page i) := by
  simp [Kept, State.raise]
@[simp] theorem State.clearCauses_kept (s : State) (page : Nat) (mask : Nat) : Kept s (s.clearCauses page mask) := by
  simp [Kept, State.clearCauses]
@[simp] theorem State.alert_kept (s : State) (page : Nat) : Kept s (s.alert page) := by
  simp [Kept, State.alert]
@[simp] theorem State.raiseAlert_kept (s : State) (page : Nat) (i : Nat) : Kept s (s.raiseAlert page i) := by
  simp [Kept, State.raiseAlert]
@[simp] theorem State.captureHeader_kept (s : State) (page : Nat) (cap : Nat) (addr : Nat) : Kept s (s.captureHeader page cap addr) := by
  simp [Kept, State.captureHeader]
@[simp] theorem State.capture_kept (s : State) (p : Path) (page : Nat) (off : Nat) (cause : Nat) : Kept s (s.capture p page off cause) := by
  simp [Kept, State.capture]
@[simp] theorem State.drawCounter_kept (s : State) (key : Nat) : Kept s (s.drawCounter key).2 := by
  unfold State.drawCounter
  dsimp only
  (repeat' split) <;> simp [Kept]

@[simp] theorem State.setUnc_kept (s : State) (u : Nat) : Kept s (s.setUnc u) := by
  simp [Kept, State.setUnc]
@[simp] theorem State.enterRecord_kept (s : State) (r : LedgerRecord) : Kept s (State.enterRecord s r).2 := by
  simp [Kept, State.enterRecord]
@[simp] theorem State.append_kept (s : State) (cls : Nat) (payload : List Byte) (obl : optParam (Option Nat) none) (leaf : optParam Nat 0) : Kept s (s.append cls payload obl leaf).2 := by
  simp [Kept, State.append]
@[simp] theorem State.journal_kept (s : State) (cls : Nat) (payload : List Byte) : Kept s (s.journal cls payload) := by
  simp [Kept, State.journal]
@[simp] theorem State.journalEvent_kept (s : State) (type : Nat) (low : Nat) (body : List Byte) : Kept s (s.journalEvent type low body) := by
  simp [Kept, State.journalEvent]
@[simp] theorem State.appendSysdata_kept (s : State) (subtype : Nat) (body : List Byte) : Kept s (State.appendSysdata s subtype body).2 := by
  simp [Kept, State.appendSysdata]
@[simp] theorem State.sysdata_kept (s : State) (subtype : Nat) (body : List Byte) : Kept s (s.sysdata subtype body) := by
  simp [Kept, State.sysdata]
@[simp] theorem State.logStore_kept (s : State) (e : LogEntry) : Kept s (s.logStore e) := by
  unfold State.logStore
  (repeat' split) <;> simp [Kept]
@[simp] theorem State.dropHold_kept (s : State) : Kept s s.dropHold := by
  simp [Kept, State.dropHold]
@[simp] theorem State.logHold_kept (s : State) (e : LogEntry) : Kept s (s.logHold e) := by
  simp [Kept, State.logHold]
@[simp] theorem State.logEntry_kept (s : State) (cls : Nat) (page : Nat) (code : Nat) (data : Nat) : Kept s (s.logEntry cls page code data) := by
  simp [Kept, State.logEntry]
@[simp] theorem State.sample_kept (s : State) (i : Nat) (v : Int) : Kept s (s.sample i v) := by
  simp [Kept, State.sample]

@[simp] theorem State.setDom_kept (s : State) (d : Nat) (v : Nat) : Kept s (s.setDom d v) := by
  simp [Kept, State.setDom]
@[simp] theorem State.touch_kept (s : State) (d : Nat) : Kept s (s.touch d) := by
  simp [Kept, State.touch]
@[simp] theorem State.wake_kept (s : State) (d : Nat) : Kept s (s.wake d) := by
  simp [Kept, State.wake]
@[simp] theorem State.refusal_kept (s : State) (id : Nat) (dom : Nat) (abort : Bool) : Kept s (s.refusal id dom abort) := by
  simp [Kept, State.refusal]
@[simp] theorem State.accessWake_kept (s : State) (page : Nat) : Kept s (s.accessWake page) := by
  simp [Kept, State.accessWake]
@[simp] theorem State.offAccess_kept (s : State) (p : Path) (page : Nat) (off : Nat) (cause : Nat) : Kept s (s.offAccess p page off cause) := by
  simp [Kept, State.offAccess]
@[simp] theorem State.refuseSvc_kept (s : State) (p : Path) (page : Nat) (off : Nat) : Kept s (State.refuseSvc s p page off) := by
  simp [Kept, State.refuseSvc]
def Gate.state : Gate → State
  | .proceed s => s
  | .complete s => s
theorem State.gate_kept (s : State) (p : Path) (page off : Nat) (write : Bool) : Kept s (s.gate p page off write).state := by
  unfold State.gate
  dsimp only
  (repeat' split) <;> simp [Gate.state, Kept]
@[simp] theorem State.finish_kept (p : Path) (page off : Nat) (r : WriteResult) : Kept r.state (State.finish p page off r) := by
  unfold State.finish
  (repeat' split) <;> simp [Kept]
theorem State.hostWrite_proj {β : Type} (g : State → β) (hk : ∀ s u, Kept s u → g u = g s) (s : State) (p : Path) (page off : Nat)
    (eff : State → WriteResult) (h : ∀ s, g (eff s).state = g s) : g (s.hostWrite p page off eff) = g s := by
  have k := hk _ _ (State.gate_kept s p page off true)
  unfold State.hostWrite
  split <;> rename_i s' e <;> rw [e] at k <;> simp [Gate.state] at k
  · exact k
  · exact (hk _ _ (State.finish_kept p page off (eff s'))).trans ((h s').trans k)
@[simp] theorem State.hostWrite_now (s : State) (p : Path) (page off : Nat) (eff : State → WriteResult) (h : ∀ s, (eff s).state.now = s.now) :
    (s.hostWrite p page off eff).now = s.now := State.hostWrite_proj (fun x => x.now) (by simp +contextual [Kept]) s p page off eff h
@[simp] theorem State.hostWrite_mem (s : State) (p : Path) (page off : Nat) (eff : State → WriteResult) (h : ∀ s, (eff s).state.mem = s.mem) :
    (s.hostWrite p page off eff).mem = s.mem := State.hostWrite_proj (fun x => x.mem) (by simp +contextual [Kept]) s p page off eff h
@[simp] theorem State.hostWrite_pending (s : State) (p : Path) (page off : Nat) (eff : State → WriteResult) (h : ∀ s, (eff s).state.pending = s.pending) :
    (s.hostWrite p page off eff).pending = s.pending := State.hostWrite_proj (fun x => x.pending) (by simp +contextual [Kept]) s p page off eff h
@[simp] theorem State.hostWrite_fac (s : State) (p : Path) (page off : Nat) (eff : State → WriteResult) (h : ∀ s, (eff s).state.fac = s.fac) :
    (s.hostWrite p page off eff).fac = s.fac := State.hostWrite_proj (fun x => x.fac) (by simp +contextual [Kept]) s p page off eff h
@[simp] theorem State.hostWrite_lc (s : State) (p : Path) (page off : Nat) (eff : State → WriteResult) (h : ∀ s, (eff s).state.nv.lc = s.nv.lc) :
    (s.hostWrite p page off eff).nv.lc = s.nv.lc := State.hostWrite_proj (fun x => x.nv.lc) (by simp +contextual [Kept]) s p page off eff h
@[simp] theorem State.journalConfig_kept (s : State) (k : Nat) : Kept s (s.journalConfig k) := by
  simp [Kept, State.journalConfig]
@[simp] theorem State.plainWrite_kept (s : State) (page : Nat) (off : Nat) (v : Word) : Kept s (s.plainWrite page off v).state := by
  unfold State.plainWrite
  (repeat' split) <;> simp [Kept]
@[simp] theorem State.showStep_kept (s : State) : Kept s s.showStep := by
  simp [Kept, State.showStep]
@[simp] theorem State.endStep_kept (s : State) (n : Nat) : Kept s (s.endStep n) := by
  simp [Kept, State.endStep]
theorem State.hostRead_proj {β : Type} (g : State → β) (hk : ∀ s u, Kept s u → g u = g s) (s : State) (p : Path) (page off : Nat)
    (f : State → State × Nat) (h : ∀ s, g (f s).1 = g s) : g (s.hostRead p page off f).1 = g s := by
  have k := hk _ _ (State.gate_kept s p page off false)
  unfold State.hostRead
  split <;> rename_i s' e <;> rw [e] at k <;> simp [Gate.state] at k
  · exact k
  · exact (h s').trans k
@[simp] theorem State.hostRead_now (s : State) (p : Path) (page off : Nat) (f : State → State × Nat) (h : ∀ s, (f s).1.now = s.now) :
    (s.hostRead p page off f).1.now = s.now := State.hostRead_proj (fun x => x.now) (by simp +contextual [Kept]) s p page off f h
@[simp] theorem State.hostRead_mem (s : State) (p : Path) (page off : Nat) (f : State → State × Nat) (h : ∀ s, (f s).1.mem = s.mem) :
    (s.hostRead p page off f).1.mem = s.mem := State.hostRead_proj (fun x => x.mem) (by simp +contextual [Kept]) s p page off f h
@[simp] theorem State.hostRead_pending (s : State) (p : Path) (page off : Nat) (f : State → State × Nat) (h : ∀ s, (f s).1.pending = s.pending) :
    (s.hostRead p page off f).1.pending = s.pending := State.hostRead_proj (fun x => x.pending) (by simp +contextual [Kept]) s p page off f h
@[simp] theorem State.hostRead_fac (s : State) (p : Path) (page off : Nat) (f : State → State × Nat) (h : ∀ s, (f s).1.fac = s.fac) :
    (s.hostRead p page off f).1.fac = s.fac := State.hostRead_proj (fun x => x.fac) (by simp +contextual [Kept]) s p page off f h
@[simp] theorem State.hostRead_lc (s : State) (p : Path) (page off : Nat) (f : State → State × Nat) (h : ∀ s, (f s).1.nv.lc = s.nv.lc) :
    (s.hostRead p page off f).1.nv.lc = s.nv.lc := State.hostRead_proj (fun x => x.nv.lc) (by simp +contextual [Kept]) s p page off f h

@[simp] theorem State.setPhase_kept (s : State) (p : Nat) (r : PhaseRec) : Kept s (s.setPhase p r) := by
  simp [Kept, State.setPhase]
@[simp] theorem State.setTimebase_kept (s : State) (v : Nat) : Kept s (s.setTimebase v) := by
  simp [Kept, State.setTimebase]
@[simp] theorem State.present_kept (s : State) : Kept s s.present := by
  simp [Kept, State.present]
@[simp] theorem State.fixNominal_kept (s : State) : Kept s s.fixNominal := by
  unfold State.fixNominal
  (repeat' split) <;> simp [Kept]
@[simp] theorem State.closeSegment_kept (s : State) (flags : Nat) : Kept s (s.closeSegment flags) := by
  simp [Kept, State.closeSegment]
@[simp] theorem State.addEntries_kept (s : State) (first n entry cap fuel : Nat) : Kept s (s.addEntries first n entry cap fuel) := by
  induction fuel generalizing s first n cap with
  | zero => simp [Kept, State.addEntries]
  | succ fuel ih =>
    unfold State.addEntries
    dsimp only
    (repeat' split) <;> simp [Kept, ih]
@[simp] theorem State.addRun_kept (s : State) (first : Nat) (n : Nat) (entry : Nat) (cap : Nat) : Kept s (s.addRun first n entry cap) := by
  simp [Kept, State.addRun]
@[simp] theorem State.amendEnd_kept (s : State) (c : Nat) : Kept s (State.amendEnd s c) := by
  unfold State.amendEnd
  dsimp only
  (repeat' split) <;> simp [Kept]
@[simp] theorem State.firstCrossing_kept (s : State) (p : Nat) (w : CrossingInput) : Held s (s.firstCrossing p w) := by
  simp [Held, State.firstCrossing]
@[simp] theorem State.trackMove_kept (s : State) (p : Nat) : Kept s (s.trackMove p) := by
  simp [Kept, State.trackMove]
@[simp] theorem State.lockCount_kept (s : State) (p : Nat) (e : Int) : Kept s (s.lockCount p e) := by
  simp [Kept, State.lockCount]
@[simp] theorem State.acceptCrossing_kept (s : State) (p : Nat) : Kept s (s.acceptCrossing p) := by
  simp [Kept, State.acceptCrossing]
@[simp] theorem State.takeCrossing_kept (s : State) (p : Nat) (e : Int) : Kept s (s.takeCrossing p e) := by
  simp [Kept, State.takeCrossing]
@[simp] theorem State.endHoldover_kept (s : State) (e : Int) : Kept s (s.endHoldover e) := by
  simp [Kept, State.endHoldover]
@[simp] theorem State.holdoverCrossing_kept (s : State) (p : Nat) (ival : Nat) : Kept s (s.holdoverCrossing p ival) := by
  simp [Kept, State.holdoverCrossing]
@[simp] theorem State.enterHoldover_kept (s : State) : Kept s s.enterHoldover := by
  simp [Kept, State.enterHoldover]
@[simp] theorem State.learn_kept (s : State) (p : Nat) : Kept s (s.learn p) := by
  unfold State.learn
  (repeat' split) <;> simp [Kept]
@[simp] theorem State.setFreq_kept (s : State) (dur : Nat) : Kept s (s.setFreq dur) := by
  simp [Kept, State.setFreq]
@[simp] theorem State.countHours_kept (s : State) (dur : Nat) : Kept s (s.countHours dur) := by
  simp [Kept, State.countHours]
@[simp] theorem State.sweepCycle_kept (s : State) (cap : Nat) (vigil : Nat) : Held s (s.sweepCycle cap vigil) := by
  simp [Held, State.sweepCycle]
@[simp] theorem State.forwardAlign_kept (s : State) (target : Nat) : Held s (s.forwardAlign target) := by
  simp [Held, State.forwardAlign]
@[simp] theorem State.setMark_kept (s : State) (n : Nat) : Kept s (s.setMark n) := by
  simp [Kept, State.setMark]
@[simp] theorem State.fireMark_kept (s : State) (n : Nat) (late : Bool) : Kept s (s.fireMark n late) := by
  simp [Kept, State.fireMark]
@[simp] theorem State.armMark_kept (s : State) (n : Nat) : Kept s (s.armMark n) := by
  unfold State.armMark
  dsimp only
  (repeat' split) <;> simp [Kept]
@[simp] theorem effMarkAtHi_kept (n : Nat) (v : Word) (s : State) : Kept s (effMarkAtHi n v s).state := by
  simp [Kept, effMarkAtHi]
@[simp] theorem State.readNowLo_kept (s : State) (p : Path) : Kept s (s.readNowLo p).1 := by
  simp [Kept, State.readNowLo]
@[simp] theorem State.readPrecData_kept (s : State) (p : Path) : Kept s (s.readPrecData p).1 := by
  simp [Kept, State.readPrecData]

@[simp] theorem State.pinAt_kept (s : State) (id : Nat) (i : Instant) (tai : Int) : Kept s (s.pinAt id i tai) := by
  simp [Kept, State.pinAt]
@[simp] theorem State.pinPast_kept (s : State) : Kept s s.pinPast := by
  unfold State.pinPast
  dsimp only
  split
  · exact Kept.foldl _ (fun s a => by split <;> simp [Kept]) _ _
  · simp [Kept]
@[simp] theorem State.requestInstant_kept (s : State) (i : Instant) : Kept s (s.requestInstant i) := by
  simp [Kept, State.requestInstant]
@[simp] theorem State.withdraw_kept (s : State) (p : InstantOwner → Bool) : Kept s (s.withdraw p) := by
  simp [Kept, State.withdraw]
@[simp] theorem State.checkSched_kept (s : State) : Kept s s.checkSched := by
  simp [Kept, State.checkSched]
@[simp] theorem State.showZone_kept (s : State) : Kept s s.showZone := by
  simp [Kept, State.showZone]
@[simp] theorem State.civilStep_kept (s : State) (ms : Int) : Kept s (s.civilStep ms) := by
  simp [Kept, State.civilStep]

@[simp] theorem State.calCounts_kept (s : State) : Kept s s.calCounts := by
  simp [Kept, State.calCounts]
@[simp] theorem State.setCalendar_kept (s : State) (c : SMap Obligation) : Kept s (s.setCalendar c) := by
  simp [Kept, State.setCalendar]
@[simp] theorem State.modObl_kept (s : State) (idx : Nat) (f : Obligation → Obligation) : Kept s (s.modObl idx f) := by
  simp [Kept, State.modObl]
@[simp] theorem State.ringPut_kept (s : State) (e : OutcomeEntry) : Kept s (s.ringPut e) := by
  simp [Kept, State.ringPut]
@[simp] theorem State.endSlice_kept (s : State) (id : Nat) (revoked : Bool) : Kept s (s.endSlice id revoked) := by
  unfold State.endSlice
  dsimp only
  (repeat' split) <;> simp [Kept]
@[simp] theorem State.endObl_kept (s : State) (idx : Nat) (outcome : Nat) (reason : Nat) : Kept s (s.endObl idx outcome reason) := by
  unfold State.endObl
  (repeat' split) <;> simp [Kept]
@[simp] theorem State.endId_kept (s : State) (id : Option Nat) (outcome : Nat) (reason : Nat) : Kept s (s.endId id outcome reason) := by
  unfold State.endId
  (repeat' split) <;> simp [Kept]
@[simp] theorem State.revokeAll_kept (s : State) (reason : Nat) (is : List Nat) : Kept s (s.revokeAll reason is) := by
  induction is generalizing s with
  | nil => simp [Kept, State.revokeAll]
  | cons i is ih => simp [Kept, State.revokeAll, ih]
@[simp] theorem State.insertObl_kept (s : State) (q : Obligation) : Kept s (s.insertObl q).2 := by
  simp [Kept, State.insertObl]
@[simp] theorem State.respond_kept (s : State) (result : Nat) (reason : Nat) (id : Nat) (efd : Nat) : Kept s (s.respond result reason id efd) := by
  simp [Kept, State.respond]
theorem State.admission_kept (s : State) (q : Obligation) (id : Nat) (u : State) (h : s.admission q = .admitted id u) : Kept s u := by
  unfold State.admission at h
  dsimp only at h
  (repeat' split at h) <;> simp at h <;> obtain ⟨-, rfl⟩ := h <;> simp [Kept]
@[simp] theorem State.testOwn_kept (s : State) (q : Obligation) : Kept s (s.testOwn q).2 := by
  unfold State.testOwn
  split
  · rename_i h; exact State.admission_kept _ _ _ _ h
  · simp [Kept]
@[simp] theorem State.request_kept (s : State) (q : Obligation) : Kept s (s.request q).2 := by
  unfold State.request
  split <;> simp [Kept]
@[simp] theorem effHwmClr_kept (v : Word) (s : State) : Kept s (effHwmClr v s).state := by
  simp [Kept, effHwmClr]
@[simp] theorem State.settleShare_kept (s : State) (r : Nat) (waiting : List (Nat × Obligation)) : Kept s (s.settleShare r waiting) := by
  unfold State.settleShare
  (repeat' split) <;> simp [Kept]
@[simp] theorem State.drawRetry_kept (s : State) (id r : Nat) (t : Retry) : Kept s (s.drawRetry id r t) := by
  unfold State.drawRetry
  (repeat' split) <;> simp [Kept]
@[simp] theorem State.placeShare_kept (s : State) (r w : Nat) : Kept s (s.placeShare r w) := by
  unfold State.placeShare
  dsimp only
  (repeat' split) <;> simp [Kept]
@[simp] theorem State.drawWait_kept (s : State) (id : Nat) (r : Nat) (w : Nat) : Kept s (State.drawWait s id r w) := by
  unfold State.drawWait
  dsimp only
  (repeat' split) <;> simp [Kept]
@[simp] theorem State.recomputeOn_kept (s : State) (reason : Nat) (rs : List Nat) : Kept s (s.recomputeOn reason rs) := by
  unfold State.recomputeOn
  dsimp only
  (repeat' split) <;> simp [Kept]
@[simp] theorem State.recompute_kept (s : State) (reason : Nat) : Kept s (s.recompute reason) := by
  simp [Kept, State.recompute]
@[simp] theorem State.loseRes_kept (s : State) (r : Nat) (reason : Nat) : Kept s (s.loseRes r reason) := by
  simp [Kept, State.loseRes]
@[simp] theorem State.regainRes_kept (s : State) (r : Nat) : Kept s (s.regainRes r) := by
  simp [Kept, State.regainRes]
@[simp] theorem State.revokeLoop_kept (s : State) (fuel : Nat) : Kept s (s.revokeLoop fuel) := by
  induction fuel generalizing s with
  | zero => simp [Kept, State.revokeLoop]
  | succ fuel ih =>
    unfold State.revokeLoop
    (repeat' split) <;> simp [Kept, ih]
@[simp] theorem State.releaseWork_kept (s : State) (node : Nat) : Kept s (s.releaseWork node) := by
  simp [Kept, State.releaseWork]

end Sys2Proof.Machine
end

