-- ==== Sys2Proof/Laws/KeptField.lean ====
section
/-!
SUPPORT. What each operation of the field side leaves as it is.
-/

namespace Sys2Proof.Machine

@[simp] theorem State.setOutput_kept (s : State) (k : Nat) (o : OutputRec) : Kept s (s.setOutput k o) := by
  simp [Kept, State.setOutput]
@[simp] theorem State.setIlState_kept (s : State) (k : Nat) (v : Nat) : Kept s (s.setIlState k v) := by
  simp [Kept, State.setIlState]
@[simp] theorem State.modId_kept (s : State) (id : Nat) (f : Obligation → Obligation) : Kept s (s.modId id f) := by
  unfold State.modId
  (repeat' split) <;> simp [Kept]
@[simp] theorem State.startPulse_kept (s : State) (c : DriveCmd) : Kept s (s.startPulse c) := by
  unfold State.startPulse
  dsimp only
  (repeat' split) <;> simp [Kept]
@[simp] theorem State.driveOutput_kept (s : State) (c : DriveCmd) : Kept s (s.driveOutput c) := by
  unfold State.driveOutput
  dsimp only
  (repeat' split) <;> simp [Kept]
@[simp] theorem State.settle_kept (s : State) (k : Nat) : Kept s (s.settle k) := by
  unfold State.settle
  dsimp only
  (repeat' split) <;> simp [Kept]
@[simp] theorem State.mismatch_kept (s : State) (k : Nat) (cmd : Bool) (cause : Nat) : Kept s (s.mismatch k cmd cause) := by
  simp [Kept, State.mismatch]
@[simp] theorem State.endPulse_kept (s : State) (k : Nat) : Kept s (s.endPulse k) := by
  unfold State.endPulse
  dsimp only
  (repeat' split) <;> simp [Kept]
@[simp] theorem writeIlCtl_kept (k : Nat) (v : Word) (s : State) : Kept s (writeIlCtl k v s).state := by
  simp [Kept, writeIlCtl]
@[simp] theorem effIlCtl_kept (k : Nat) (on : Bool) (v : Word) (s : State) : Kept s (effIlCtl k on v s).state := by
  simp [Kept, effIlCtl]
@[simp] theorem State.startInterlock_kept (s : State) (id : Nat) (q : Obligation) : Kept s (s.startInterlock id q) := by
  simp [Kept, State.startInterlock]
@[simp] theorem State.resumeInterlock_kept (s : State) (id : Nat) (q : Obligation) : Kept s (State.resumeInterlock s id q) := by
  simp [Kept, State.resumeInterlock]
@[simp] theorem State.startBulk_kept (s : State) (id : Nat) (q : Obligation) : Kept s (State.startBulk s id q) := by
  simp [Kept, State.startBulk]
@[simp] theorem State.testRequest_kept (s : State) (q : Obligation) : Kept s (s.testRequest q) := by
  unfold State.testRequest
  split
  · rename_i h; have k := State.admission_kept _ _ _ _ h; simp [Kept] at k ⊢; simp [k]
  · simp [Kept]
@[simp] theorem effReqGo_kept (v : Word) (img : List Byte) (s : State) : Stored s (effReqGo v img s).state := by
  simp [Stored, effReqGo]
@[simp] theorem State.detach_kept (s : State) (id : Nat) (o : Obligation) : Kept s (s.detach id o) := by
  simp [Kept, State.detach]
@[simp] theorem effCancel_kept (v : Word) (s : State) : Kept s (effCancel v s).state := by
  unfold effCancel
  (repeat' split) <;> simp [Kept]
@[simp] theorem State.applyPlan_kept (s : State) (v : Word) : Kept s (s.applyPlan v) := by
  unfold State.applyPlan
  have h := State.plainWrite_kept s 0x0E 0x040 v
  generalize s.plainWrite 0x0E 0x040 v = r at h ⊢
  cases r <;> simp [Kept] at h ⊢ <;> simp [h]
@[simp] theorem State.showChannels_kept (s : State) : Kept s s.showChannels := by
  unfold State.showChannels
  (repeat' split) <;> simp [Kept]
@[simp] theorem State.applyRegion_kept (s : State) (v : Word) : Kept s (s.applyRegion v) := by
  unfold State.applyRegion
  have h := State.plainWrite_kept s 0x12 0x040 v
  generalize s.plainWrite 0x12 0x040 v = r at h ⊢
  cases r <;> simp [Kept] at h ⊢ <;> simp [h]
@[simp] theorem State.heldModes_kept (s : State) : Kept s s.heldModes := by
  unfold State.heldModes
  dsimp only
  (repeat' split) <;> simp [Kept]
@[simp] theorem State.testHeldOwn_kept (s : State) : Kept s (State.testHeldOwn s) := by
  simp [Kept, State.testHeldOwn]

@[simp] theorem State.divFree_kept (s : State) (a : Int) (b : Nat) : Kept s (s.divFree a b).2 := by
  simp [Kept, State.divFree]
@[simp] theorem State.pushLevel_kept (s : State) (r : Nat) (key : Nat) (v : Int) : Kept s (s.pushLevel r key v) := by
  simp [Kept, State.pushLevel]
@[simp] theorem State.setNode_kept (s : State) (id : Nat) (n : Node) : Kept s (s.setNode id n) := by
  simp [Kept, State.setNode]
@[simp] theorem State.modNode_kept (s : State) (id : Nat) (f : Node → Node) : Kept s (s.modNode id f) := by
  simp [Kept, State.modNode]
@[simp] theorem State.setExchange_kept (s : State) (r : Nat) (x : Exchange) : Kept s (s.setExchange r x) := by
  simp [Kept, State.setExchange]
@[simp] theorem State.endExchange_kept (s : State) (r : Nat) : Kept s (s.endExchange r) := by
  simp [Kept, State.endExchange]
@[simp] theorem State.firmwareSend_kept (s : State) (id : Nat) (records : List Byte) : Kept s (s.firmwareSend id records) := by
  simp [Kept, State.firmwareSend]
@[simp] theorem State.firmwareCommand_kept (s : State) (id : Nat) (records : List Byte) : Kept s (s.firmwareCommand id records) := by
  simp [Kept, State.firmwareCommand]
@[simp] theorem effNodeSerial_kept (high : Bool) (v : Word) (s : State) : Kept s (effNodeSerial high v s).state := by
  simp [Kept, effNodeSerial]
@[simp] theorem State.blank_kept (s : State) (lane : Nat) (groups : List (List Int)) : Kept s (State.blank s lane groups).2 := by
  simp [Kept, State.blank]
@[simp] theorem State.erase_kept (s : State) (lane : Nat) (counts : List Nat) : Kept s (State.erase s lane counts).2 := by
  simp [Kept, State.erase]

@[simp] theorem State.reportLink_kept (s : State) (a : Nat) (b : Nat) (snr : Int) : Kept s (s.reportLink a b snr) := by
  simp [Kept, State.reportLink]
@[simp] theorem State.sendRole_kept (s : State) (r : Nat) (level : Nat) : Kept s (State.sendRole s r level) := by
  simp [Kept, State.sendRole]
@[simp] theorem State.promote_kept (s : State) (rs : List Nat) (level : Nat) : Kept s (s.promote rs level) := by
  induction rs generalizing s level with
  | nil => simp [Kept, State.promote]
  | cons r rs ih => simp [Kept, State.promote, ih]
@[simp] theorem State.startHops_kept (s : State) (lane : Nat) (id : Nat) (rpts : List Nat) : Kept s (State.startHops s lane id rpts) := by
  simp [Kept, State.startHops]
@[simp] theorem State.useRoute_kept (s : State) (rpts : List Nat) : Kept s (s.useRoute rpts) := by
  unfold State.useRoute
  (repeat' split) <;> simp [Kept]
@[simp] theorem State.setRoute_kept (s : State) (id : Nat) (r : Route) : Kept s (s.setRoute id r) := by
  unfold State.setRoute
  dsimp only
  (repeat' split) <;> simp [Kept]
@[simp] theorem State.reassess_kept (s : State) (id : Nat) : Kept s (s.reassess id) := by
  unfold State.reassess
  (repeat' split) <;> simp [Kept]
@[simp] theorem State.reassessLane_kept (s : State) (lane : Nat) : Kept s (s.reassessLane lane) := by
  simp [Kept, State.reassessLane]
@[simp] theorem State.loopAddrStat_kept (s : State) (id : Nat) : Kept s (s.loopAddrStat id) := by
  simp [Kept, State.loopAddrStat]
@[simp] theorem State.absentCause_kept (s : State) (n : Node) : Kept s (s.absentCause n) := by
  simp [Kept, State.absentCause]
@[simp] theorem State.setAbsent_kept (s : State) (id : Nat) (route : Bool) : Kept s (s.setAbsent id route) := by
  simp [Kept, State.setAbsent]
@[simp] theorem State.markAbsent_kept (s : State) (id : Nat) : Kept s (s.markAbsent id) := by
  simp [Kept, State.markAbsent]
@[simp] theorem State.miss_kept (s : State) (id : Nat) : Kept s (s.miss id) := by
  simp [Kept, State.miss]
@[simp] theorem State.heardFrom_kept (s : State) (id : Nat) : Kept s (s.heardFrom id) := by
  simp [Kept, State.heardFrom]
@[simp] theorem State.setLinkGood_kept (s : State) (near : Nat) (far : Nat) (last : Bool) (n : Nat) : Kept s (State.setLinkGood s near far last n) := by
  simp [Kept, State.setLinkGood]
@[simp] theorem State.setLinkMode_kept (s : State) (lane : Nat) (near : Nat) (far : Nat) (last : Bool) (m : Nat) : Kept s (s.setLinkMode lane near far last m) := by
  simp [Kept, State.setLinkMode]
@[simp] theorem State.lowerLinks_kept (s : State) (lane : Nat) (id : Nat) : Kept s (State.lowerLinks s lane id) := by
  simp [Kept, State.lowerLinks]
@[simp] theorem State.countRetry_kept (s : State) (r : Nat) : Kept s (s.countRetry r) := by
  unfold State.countRetry
  (repeat' split) <;> simp [Kept]
@[simp] theorem State.scheduleRetry_kept (s : State) (r : Nat) (x : Exchange) : Kept s (s.scheduleRetry r x) := by
  unfold State.scheduleRetry
  (repeat' split) <;> simp [Kept]
@[simp] theorem State.spend_kept (s : State) (id r w : Nat) : Kept s (s.spend id r w) := by
  unfold State.spend
  (repeat' split) <;> simp [Kept]
@[simp] theorem State.failExchange_kept (s : State) (r : Nat) (blame : Nat) (near : Nat) (far : Nat) : Kept s (s.failExchange r blame near far) := by
  unfold State.failExchange
  (repeat' split) <;> simp [Kept]

@[simp] theorem effPlan_kept (v : Word) (s : State) : Kept s (effPlan v s).state := by
  simp [Kept, effPlan]
@[simp] theorem State.setLineState_kept (s : State) (lane : Nat) (v : Nat) : Kept s (s.setLineState lane v) := by
  simp [Kept, State.setLineState]
@[simp] theorem State.setDerate_kept (s : State) (lane : Nat) (both : Bool) : Kept s (s.setDerate lane both) := by
  simp [Kept, State.setDerate]
@[simp] theorem State.loseLine_kept (s : State) (lane : Nat) : Kept s (s.loseLine lane) := by
  simp [Kept, State.loseLine]
@[simp] theorem State.showSending_kept (s : State) (lane : Nat) : Kept s (s.showSending lane) := by
  unfold State.showSending
  dsimp only
  (repeat' split) <;> simp [Kept]
@[simp] theorem State.refreshPhase_kept (s : State) (phase : Nat) : Kept s (s.refreshPhase phase) := by
  unfold State.refreshPhase
  dsimp only
  (repeat' split) <;> simp [Kept]
@[simp] theorem State.foldPhase_kept (s : State) (p : Nat) : Kept s (s.foldPhase p) := by
  simp [Kept, State.foldPhase]
@[simp] theorem State.stopPhase_kept (s : State) (p : Nat) : Kept s (s.stopPhase p) := by
  simp [Kept, State.stopPhase]
@[simp] theorem State.newKey_kept (s : State) (key : Nat) : Kept s (s.newKey key) := by
  simp [Kept, State.newKey]
@[simp] theorem State.turnGroup_kept (s : State) (key : Nat) : Kept s (s.turnGroup key) := by
  unfold State.turnGroup
  split <;> (try split) <;> simp [Kept]
@[simp] theorem State.forceRekey_kept (s : State) : Kept s s.forceRekey := by simp [Kept, State.forceRekey]
@[simp] theorem State.markForced_kept (s : State) (key : Nat) : Kept s (s.markForced key) := by
  unfold State.markForced
  split <;> simp [Kept]
@[simp] theorem State.groupSecret_kept (s : State) (key gen : Nat) : Kept s (s.groupSecret key gen).2 := by
  unfold State.groupSecret
  dsimp only
  (repeat' split) <;> simp [Kept]
@[simp] theorem State.groupSecretNow_kept (s : State) (key : Nat) : Kept s (State.groupSecretNow s key).2 := by
  simp [Kept, State.groupSecretNow]
@[simp] theorem State.gkeyRecord_kept (s : State) (id key gen cycle : Nat) : Kept s (s.gkeyRecord id key gen cycle).2 := by
  unfold State.gkeyRecord
  dsimp only
  (repeat' split) <;> simp [Kept]
@[simp] theorem State.sendGkey_kept (s : State) (id key gen cycle : Nat) : Kept s (s.sendGkey id key gen cycle) := by
  unfold State.sendGkey
  dsimp only
  (repeat' split) <;> simp [Kept]
@[simp] theorem State.spreadGroup_kept (s : State) (medium lane : Nat) : Kept s (s.spreadGroup medium lane) := by
  simp [Kept, State.spreadGroup]
@[simp] theorem State.noteBeacon_kept (s : State) (lane : Nat) : Kept s (s.noteBeacon lane) := by
  simp [Kept, State.noteBeacon]
@[simp] theorem State.drawGroup_kept (s : State) (medium lane : Nat) : Kept s (s.drawGroup medium lane).2 := by
  unfold State.drawGroup
  dsimp only
  split <;> simp [Kept]
@[simp] theorem State.leaveSent_kept (s : State) (x : Exchange) : Kept s (s.leaveSent x) := by
  simp [Kept, State.leaveSent]
@[simp] theorem State.sessFull_kept (s : State) : Kept s s.sessFull := by
  simp [Kept, State.sessFull]
@[simp] theorem State.startRekey_kept (s : State) (id : Nat) : Kept s (s.startRekey id) := by
  unfold State.startRekey
  dsimp only
  (repeat' split) <;> simp [Kept]
@[simp] theorem State.markSending_kept (s : State) (lane n cycle : Nat) : Kept s (s.markSending lane n cycle) := by
  unfold State.markSending
  dsimp only
  (repeat' split) <;> simp [Kept]
@[simp] theorem State.markReply_kept (s : State) (lane : Nat) (a : Nat) (b : Nat) : Kept s (State.markReply s lane a b) := by
  simp [Kept, State.markReply]
@[simp] theorem State.shareLevel_kept (s : State) (lane : Nat) (a : Nat) (b : Nat) : Kept s (State.shareLevel s lane a b) := by
  simp [Kept, State.shareLevel]
@[simp] theorem State.counterDrawn_kept (s : State) (id c : Nat) : Kept s (s.counterDrawn id c) := by
  unfold State.counterDrawn
  (repeat' split) <;> simp [Kept]
@[simp] theorem State.placeAttempt_kept (s : State) (id r w : Nat) : Kept s (s.placeAttempt id r w) := by
  unfold State.placeAttempt
  dsimp only
  (repeat' split) <;> simp [Kept]
@[simp] theorem State.beginExchange_kept (s : State) (r : Nat) (x : Exchange) : Kept s (s.beginExchange r x) := by
  unfold State.beginExchange
  dsimp only
  (repeat' split) <;> simp [Kept]
@[simp] theorem State.sendLine_kept (s : State) (lane node ftype mode : Nat) (long : Bool) (cycle : Nat) (octets : List Byte) : Kept s (s.sendLine lane node ftype mode long cycle octets) := by
  unfold State.sendLine
  dsimp only
  (repeat' split) <;> simp [Kept]
@[simp] theorem State.sendPilot_kept (s : State) (rot : Nat) (at' : Nat) (fail : Bool) : Kept s (State.sendPilot s rot at' fail) := by
  simp [Kept, State.sendPilot]
@[simp] theorem State.sendLineFrame_kept (s : State) (lane : Nat) (x : Exchange) : Kept s (s.sendLineFrame lane x).2 := by
  unfold State.sendLineFrame
  dsimp only
  (repeat' split) <;> simp [Kept]
@[simp] theorem State.openExchange_kept (s : State) (r : Nat) (w : Work) (build : State → Nat → Option Nat → Bool → List Byte → Nat → Exchange) : Kept s (s.openExchange r w build).2 := by
  unfold State.openExchange
  dsimp only
  (repeat' split) <;> simp [Kept]
@[simp] theorem State.prepareRoute_kept (s : State) (lane : Nat) (w : Work) : Kept s (State.prepareRoute s lane w) := by
  unfold State.prepareRoute
  (repeat' split) <;> simp [Kept]
@[simp] theorem State.stepLink_kept (s : State) (lane : Nat) (near : Nat) (far : Nat) (last : Bool) (snr : Option Int) : Kept s (State.stepLink s lane near far last snr) := by
  unfold State.stepLink
  dsimp only
  (repeat' split) <;> simp [Kept]
@[simp] theorem State.stepUp_kept (s : State) (lane : Nat) (x : Exchange) (snr : Int) : Kept s (s.stepUp lane x snr) := by
  simp [Kept, State.stepUp]
@[simp] theorem State.acceptKlp_kept (s : State) (lane : Nat) (rx : LineRx) (x : Option Exchange) : Kept s (s.acceptKlp lane rx x) := by
  simp [Kept, State.acceptKlp]
@[simp] theorem State.decodeFrame_kept (s : State) (l : Nat) (rx : LineRx) (headErased : List Bool) : Kept s (State.decodeFrame s l rx headErased).2 := by
  simp [Kept, State.decodeFrame]
@[simp] theorem State.breakRun_kept (s : State) (x : Option Exchange) : Kept s (State.breakRun s x) := by
  unfold State.breakRun
  (repeat' split) <;> simp [Kept]
@[simp] theorem State.takeLineFrame_kept (s : State) (l : Nat) (rx : LineRx) : Kept s (State.takeLineFrame s l rx) := by
  unfold State.takeLineFrame
  dsimp only
  (repeat' split) <;> simp [Kept]
@[simp] theorem State.pilotResult_kept (s : State) (rx : Option PilotRx) : Kept s (s.pilotResult rx) := by
  simp [Kept, State.pilotResult]
@[simp] theorem effPilotConfig_kept (reg : Nat) (v : Word) (s : State) : Kept s (effPilotConfig reg v s).state := by
  simp [Kept, effPilotConfig]
@[simp] theorem effBeaconConfig_kept (reg : Nat) (v : Word) (s : State) : Kept s (effBeaconConfig reg v s).state := by
  have a := State.plainWrite_kept s 0x0F 0x044 v
  have b := State.plainWrite_kept s 0x0E 0x05C v
  have c := State.plainWrite_kept s 0x13 0x044 v
  unfold effBeaconConfig
  generalize s.plainWrite 0x0F 0x044 v = ra at a ⊢
  generalize s.plainWrite 0x0E 0x05C v = rb at b ⊢
  generalize s.plainWrite 0x13 0x044 v = rc at c ⊢
  cases ra <;> cases rb <;> cases rc <;> simp [Kept] at a b c ⊢ <;> (repeat' split) <;> simp [a, b, c]
@[simp] theorem State.persistNode_kept (s : State) (id : Nat) : Kept s (s.persistNode id) := by
  simp [Kept, State.persistNode]
@[simp] theorem effNodeCtl_kept (cmd : Nat) (v : Word) (s : State) : Kept s (effNodeCtl cmd v s).state := by
  unfold effNodeCtl
  dsimp only
  (repeat' split) <;> simp [Kept]

@[simp] theorem State.checkLow_kept (s : State) (key : Nat) : Kept s (s.checkLow key) := by
  simp [Kept, State.checkLow]
@[simp] theorem State.checkShort_kept (s : State) : Kept s s.checkShort := by
  simp [Kept, State.checkShort]
@[simp] theorem State.chargeBudget_kept (s : State) (key sec ms : Nat) : Kept s (s.chargeBudget key sec ms) := by
  simp [Kept, State.chargeBudget]
@[simp] theorem State.sendAir_kept (s : State) (lane : Nat) (node : Nat) (ftype : Nat) (n : Nat) (time : Nat) (ver : Nat) (ack : Bool) (seq : Option Nat) (sec : Option AirSec) (body : List Byte) : Kept s (State.sendAir s lane node ftype n time ver ack seq sec body).2 := by
  unfold State.sendAir
  dsimp only
  (repeat' split) <;> simp [Kept]
@[simp] theorem effRegion_kept (v : Word) (s : State) : Kept s (effRegion v s).state := by
  simp [Kept, effRegion]
@[simp] theorem effChan_kept (lane : Nat) (v : Word) (s : State) : Kept s (effChan lane v s).state := by
  simp [Kept, effChan]
@[simp] theorem effRfcfg_kept (lane : Nat) (v : Word) (s : State) : Kept s (effRfcfg lane v s).state := by
  have a := fun w => State.plainWrite_kept s (0x10 + lane) 0x040 w
  unfold effRfcfg
  dsimp only
  split
  · rename_i s' e
    have k : Kept s (WriteResult.done s').state := by rw [← e]; exact a _
    simp only [WriteResult.state_done] at k
    split <;> simp [Kept, k]
  · simp [Kept]
@[simp] theorem effHopConfig_kept (reg : Nat) (v : Word) (s : State) : Kept s (effHopConfig reg v s).state := by
  have a := State.plainWrite_kept s 0x12 (if reg = 0 then 0x048 else 0x04C + 4 * reg) v
  unfold effHopConfig
  generalize s.plainWrite 0x12 (if reg = 0 then 0x048 else 0x04C + 4 * reg) v = r at a ⊢
  cases r <;> simp [Kept] at a ⊢ <;> (repeat' split) <;> simp [a]
@[simp] theorem State.groupSec_kept (s : State) (lane : Nat) (level : Nat) (c : Nat) : Kept s (State.groupSec s lane level c).2 := by
  simp [Kept, State.groupSec]
@[simp] theorem State.failRekey_kept (s : State) (id : Nat) : Kept s (s.failRekey id) := by
  unfold State.failRekey
  dsimp only
  (repeat' split) <;> simp [Kept]
@[simp] theorem State.sendRendezvous_kept (s : State) (lane : Nat) (x : Exchange) : Kept s (s.sendRendezvous lane x) := by
  unfold State.sendRendezvous
  dsimp only
  (repeat' split) <;> simp [Kept]
@[simp] theorem State.expireLease_kept (s : State) (id : Nat) : Kept s (s.expireLease id) := by
  simp [Kept, State.expireLease]
@[simp] theorem State.checkCold_kept (s : State) : Kept s s.checkCold := by
  unfold State.checkCold
  (repeat' split) <;> simp [Kept]
@[simp] theorem effNodeRdv_kept (ang : Bool) (v : Word) (s : State) : Kept s (effNodeRdv ang v s).state := by
  simp [Kept, effNodeRdv]

@[simp] theorem State.setSlot_kept (s : State) (n : Nat) (k : KeySlot) : Kept s (s.setSlot n k) := by
  simp [Kept, State.setSlot]
@[simp] theorem State.sessMark_kept (s : State) : Kept s s.sessMark := by
  simp [Kept, State.sessMark]

@[simp] theorem State.joinCause_kept (s : State) (medium : Nat) (lane : Nat) (b : Nat) : Kept s (s.joinCause medium lane b) := by
  simp [Kept, State.joinCause]
@[simp] theorem State.drawChallenge_kept (s : State) : Kept s (s.drawChallenge).2 := by
  simp [Kept, State.drawChallenge]
@[simp] theorem State.sendJacc_kept (s : State) (j : JoinRequest) (id lane ver challenge : Nat) (rdv : Nat × Nat × Nat) : Kept s (s.sendJacc j id lane ver challenge rdv).2 := by
  unfold State.sendJacc
  dsimp only
  (repeat' split) <;> simp [Kept]
@[simp] theorem State.joinRequest_kept (s : State) (j : JoinRequest) : Kept s (s.joinRequest j) := by
  unfold State.joinRequest
  dsimp only
  (repeat' split) <;> simp [Kept]
@[simp] theorem State.moveWork_kept (s : State) (id : Nat) : Kept s (s.moveWork id) := by
  simp [Kept, State.moveWork]
@[simp] theorem State.sendGroupKeys_kept (s : State) (id medium lane : Nat) : Kept s (s.sendGroupKeys id medium lane) := by
  unfold State.sendGroupKeys
  dsimp only
  split <;> simp [Kept]
@[simp] theorem State.completeJoin_kept (s : State) (id : Nat) (a : JoinAttempt) (key : Nat) : Kept s (s.completeJoin id a key) := by
  simp [Kept, State.completeJoin]

@[simp] theorem State.setLoopState_kept (s : State) (n : Nat) (v : Nat) : Kept s (s.setLoopState n v) := by
  simp [Kept, State.setLoopState]
@[simp] theorem State.sourceOff_kept (s : State) (n : Nat) (v : Nat) : Kept s (s.sourceOff n v) := by
  simp [Kept, State.sourceOff]
@[simp] theorem State.requestSource_kept (s : State) (n : Nat) : Kept s (s.requestSource n) := by
  simp [Kept, State.requestSource]
@[simp] theorem State.applySource_kept (s : State) (n : Nat) : Kept s (s.applySource n) := by
  simp [Kept, State.applySource]
@[simp] theorem effSupcfg_kept (n : Nat) (v : Word) (s : State) : Kept s (effSupcfg n v s).state := by
  simp [Kept, effSupcfg]
@[simp] theorem State.enableSource_kept (s : State) (n : Nat) : Kept s (State.enableSource s n) := by
  simp [Kept, State.enableSource]
@[simp] theorem State.tripLoop_kept (s : State) (n : Nat) : Kept s (s.tripLoop n) := by
  simp [Kept, State.tripLoop]
@[simp] theorem effRestore_kept (n : Nat) (v : Word) (s : State) : Kept s (effRestore n v s).state := by
  simp [Kept, effRestore]
@[simp] theorem State.sendLoop_kept (s : State) (n addr ftype : Nat) (octets : List Byte) : Kept s (s.sendLoop n addr ftype octets) := by
  unfold State.sendLoop
  (repeat' split) <;> simp [Kept]
@[simp] theorem State.identOne_kept (s : State) (n : Nat) (m : Nat) : Kept s (s.identOne n m) := by
  unfold State.identOne
  (repeat' split) <;> simp [Kept]
@[simp] theorem effAddrCfg_kept (n : Nat) (m : Nat) (v : Word) (s : State) : Kept s (effAddrCfg n m v s).state := by
  simp [Kept, effAddrCfg]
@[simp] theorem State.readExtreme_kept (s : State) (key : Nat) : Kept s (s.readExtreme key).1 := by
  simp [Kept, State.readExtreme]

end Sys2Proof.Machine
end

