-- ==== Sys2Proof/Laws/KeptFlow.lean ====
section
/-!
SUPPORT. What each operation of the Lift, the flow array, balances, billing and credit leaves as it is.
-/

namespace Sys2Proof.Machine

@[simp] theorem State.setQueue_kept (s : State) (q : Nat) (x : LiftQueue) : Kept s (s.setQueue q x) := by
  simp [Kept, State.setQueue]
@[simp] theorem State.queueCause_kept (s : State) (q : Nat) (base : Nat) : Kept s (s.queueCause q base) := by
  simp [Kept, State.queueCause]
@[simp] theorem State.watermark_kept (s : State) (q : Nat) (before : Nat) : Kept s (s.watermark q before) := by
  simp [Kept, State.watermark]
@[simp] theorem State.publish_kept (s : State) (q : Nat) : Kept s (s.publish q) := by
  simp [Kept, State.publish]
@[simp] theorem State.flushed_kept (s : State) (q : Nat) : Kept s (s.flushed q) := by
  simp [Kept, State.flushed]
@[simp] theorem State.abortPacket_kept (s : State) (q : Nat) (header : Nat) : Kept s (s.abortPacket q header) := by
  simp [Kept, State.abortPacket]
@[simp] theorem State.endPacket_kept (s : State) (q : Nat) : Kept s (s.endPacket q) := by
  simp [Kept, State.endPacket]
@[simp] theorem State.writeWords_kept (s : State) (q : Nat) (ws : List Nat) : Kept s (s.writeWords q ws) := by
  induction ws generalizing s with
  | nil => simp [Kept, State.writeWords]
  | cons w ws ih =>
    unfold State.writeWords
    dsimp only
    (repeat' split) <;> simp [Kept, ih]
@[simp] theorem State.openPacket_kept (s : State) (q : Nat) (pk : LiftPacket) : Kept s (s.openPacket q pk) := by
  simp [Kept, State.openPacket]
@[simp] theorem State.offerPacket_kept (s : State) (q : Nat) (pk : LiftPacket) : Kept s (s.offerPacket q pk) := by
  simp [Kept, State.offerPacket]
@[simp] theorem State.resumePackets_kept (s : State) (q fuel : Nat) : Kept s (s.resumePackets q fuel) := by
  induction fuel generalizing s with
  | zero => simp [Kept, State.resumePackets]
  | succ fuel ih =>
    unfold State.resumePackets
    dsimp only
    (repeat' split) <;> simp [Kept, ih]
@[simp] theorem State.readPort_kept (s : State) (q : Nat) : Kept s (s.readPort q).1 := by
  simp [Kept, State.readPort]
@[simp] theorem State.laneLostQueue_kept (s : State) (q lane : Nat) (lost : Nat → Bool) (live : List Nat) : Kept s (s.laneLostQueue q lane lost live) := by
  unfold State.laneLostQueue
  (repeat' split) <;> simp [Kept]
@[simp] theorem State.liftOff_kept (s : State) : Kept s s.liftOff := by
  simp [Kept, State.liftOff]
@[simp] theorem State.orphan_kept (s : State) (q : Nat) (n : Nat) : Kept s (s.orphan q n) := by
  simp [Kept, State.orphan]
@[simp] theorem State.hostHeader_kept (s : State) (q : Nat) (w : Nat) : Kept s (s.hostHeader q w) := by
  unfold State.hostHeader
  dsimp only
  (repeat' split) <;> simp [Kept]
@[simp] theorem State.hostData_kept (s : State) (q : Nat) (i : Nat) (w : Nat) : Kept s (s.hostData q i w) := by
  unfold State.hostData
  dsimp only
  (repeat' split) <;> simp [Kept]
@[simp] theorem State.clearWatermark_kept (s : State) (q : Nat) : Kept s (s.clearWatermark q) := by
  simp [Kept, State.clearWatermark]
@[simp] theorem effLiftPend_kept (g : Nat) (v : Word) (s : State) : Kept s (effLiftPend g v s).state := by
  simp [Kept, effLiftPend]
@[simp] theorem effQcfg_kept (q : Nat) (v : Word) (s : State) : Kept s (effQcfg q v s).state := by
  simp [Kept, effQcfg]
@[simp] theorem State.readPeek_kept (p : Path) (g : Nat) (s : State) : Kept s (State.readPeek p g s).1 := by
  simp [Kept, State.readPeek]
@[simp] theorem effFlush_kept (q : Nat) (v : Word) (s : State) : Kept s (effFlush q v s).state := by
  simp [Kept, effFlush]

@[simp] theorem State.setBillChan_kept (s : State) (ch : Nat) (c : BillChan) : Kept s (s.setBillChan ch c) := by
  simp [Kept, State.setBillChan]
@[simp] theorem State.modBillChan_kept (s : State) (ch : Nat) (f : BillChan → BillChan) : Kept s (s.modBillChan ch f) := by
  simp [Kept, State.modBillChan]
@[simp] theorem State.setProg_kept (s : State) (n : Nat) (p : Program) : Kept s (s.setProg n p) := by
  simp [Kept, State.setProg]
@[simp] theorem State.setAccount_kept (s : State) (n : Nat) (a : Account) : Kept s (s.setAccount n a) := by
  simp [Kept, State.setAccount]
@[simp] theorem State.intervalRecord_kept (s : State) (ch : Nat) (qual : Nat) (flags : Nat) (inum : Nat) (units : Nat) : Kept s (s.intervalRecord ch qual flags inum units) := by
  simp [Kept, State.intervalRecord]
@[simp] theorem State.driveAccount_kept (s : State) (n : Nat) (on : Bool) : Kept s (s.driveAccount n on) := by
  simp [Kept, State.driveAccount]
@[simp] theorem State.forgetHost_kept (s : State) (n : Nat) : Kept s (s.forgetHost n) := by
  simp [Kept, State.forgetHost]
@[simp] theorem State.accountState_kept (s : State) (n : Nat) : Kept s (s.accountState n) := by
  simp [Kept, State.accountState]
@[simp] theorem State.charge_kept (s : State) (n : Nat) (kind : Nat) (reg : Nat) (ch : Nat) (net : Bool) (at' : Nat) (growth : Int) (price : Int) : Kept s (s.charge n kind reg ch net at' growth price) := by
  simp [Kept, State.charge]
@[simp] theorem State.chargeLate_kept (s : State) (ch reg t units : Nat) : Kept s (s.chargeLate ch reg t units) := by
  simp [Kept, State.chargeLate]
@[simp] theorem State.adjust_kept (s : State) (ch : Nat) (reg : Nat) (period : Nat) (units : Nat) (t : Nat) : Kept s (s.adjust ch reg period units t) := by
  simp [Kept, State.adjust]
@[simp] theorem State.placeClosed_kept (s : State) (ch : Nat) (c : BillChan) (t : Nat) (units : Nat) (qual : Nat) : Kept s (s.placeClosed ch c t units qual) := by
  simp [Kept, State.placeClosed]
@[simp] theorem State.placeDemand_kept (s : State) (ch : Nat) (p : Program) (reg : Nat) (t : Nat) (units : Nat) : Kept s (s.placeDemand ch p reg t units) := by
  unfold State.placeDemand
  (repeat' split) <;> simp [Kept]
@[simp] theorem State.placeUnits_kept (s : State) (ch : Nat) (c : BillChan) (t : Nat) (units : Nat) (qual : Nat) : Kept s (s.placeUnits ch c t units qual) := by
  unfold State.placeUnits
  dsimp only
  (repeat' split) <;> simp [Kept]
@[simp] theorem State.bill_kept (s : State) (ch : Nat) (t : Nat) (units : Nat) (qual : Nat) : Kept s (s.bill ch t units qual) := by
  unfold State.bill
  (repeat' split) <;> simp [Kept]
@[simp] theorem State.releaseHeld_kept (s : State) : Kept s s.releaseHeld := by
  simp [Kept, State.releaseHeld]
@[simp] theorem State.chargeAccount_kept (s : State) (n : Nat) (at' : Nat) (growth : Nat → Nat → Int) : Kept s (s.chargeAccount n at' growth) := by
  unfold State.chargeAccount
  dsimp only
  (repeat' split) <;> simp [Kept]
@[simp] theorem State.chargeProgram_kept (s : State) (n : Nat) (at' : Nat) : Kept s (s.chargeProgram n at') := by
  simp [Kept, State.chargeProgram]

@[simp] theorem State.setLaneRec_kept (s : State) (l : Nat) (x : LaneRec) : Kept s (s.setLaneRec l x) := by
  simp [Kept, State.setLaneRec]
@[simp] theorem State.setChan_kept (s : State) (redo : Bool) (ch : Nat) (c : ChanState) : Kept s (s.setChan redo ch c) := by
  simp [Kept, State.setChan]
@[simp] theorem State.ringResult_kept (s : State) (l : Nat) (words : List Nat) (last : Nat) : Kept s (s.ringResult l words last) := by
  simp [Kept, State.ringResult]
@[simp] theorem State.lateIncrement_kept (s : State) (ch : Nat) (t : Nat) : Kept s (s.lateIncrement ch t) := by
  simp [Kept, State.lateIncrement]
@[simp] theorem State.keepEvent_kept (s : State) (ch : Nat) (e : PointEvent) : Kept s (s.keepEvent ch e) := by
  simp [Kept, State.keepEvent]
@[simp] theorem State.substEvent_kept (s : State) (ch : Nat) (t : Nat) (b : Block) (i : Nat) (v : InputVal) : Kept s (s.substEvent ch t b i v) := by
  unfold State.substEvent
  (repeat' split) <;> simp [Kept]
@[simp] theorem State.carry_kept (s : State) (ch : Nat) (at' : Nat) (before : Int) (after : Int) (q : Int) (qual : Nat) (has : Bool) (rho : F64) (inc : Bool) : Kept s (State.carry s ch at' before after q qual has rho inc) := by
  simp [Kept, State.carry]
@[simp] theorem State.writeCloses_kept (s : State) (l ch : Nat) (limit : Option Nat) (fuel : Nat) : Kept s (s.writeCloses l ch limit fuel).2 := by
  induction fuel generalizing s with
  | zero => simp [Kept, State.writeCloses]
  | succ fuel ih =>
    unfold State.writeCloses
    dsimp only
    (repeat' split) <;> simp [Kept, ih]
@[simp] theorem State.dropCloses_kept (s : State) (l : Nat) : Kept s (s.dropCloses l) := by
  simp [Kept, State.dropCloses]
@[simp] theorem State.deliver_kept (s : State) (redo : Bool) (l : Nat) (d : Desc) (words : List Nat) (last : Nat) : Kept s (s.deliver redo l d words last) := by
  simp [Kept, State.deliver]
@[simp] theorem State.evaluate_kept (s : State) (redo : Bool) (l : Nat) (ch : Nat) (e : DescEntry) (pt : StagedPoint) : Kept s (s.evaluate redo l ch e pt) := by
  simp [Kept, State.evaluate]
@[simp] theorem State.pumpChan_kept (s : State) (redo : Bool) (reader ch fuel : Nat) : Kept s (s.pumpChan redo reader ch fuel) := by
  induction fuel generalizing s with
  | zero => simp [Kept, State.pumpChan]
  | succ fuel ih =>
    unfold State.pumpChan
    dsimp only
    (repeat' split) <;> simp [Kept, ih]
@[simp] theorem State.pump_kept (s : State) (redo : Bool) (reader : Nat) (ch : Nat) : Kept s (s.pump redo reader ch) := by
  simp [Kept, State.pump]
@[simp] theorem State.writeIvs_kept (s : State) (xs : List (Nat × Nat × Nat × Nat × Nat)) : Kept s (s.writeIvs xs) := by
  induction xs generalizing s with
  | nil => simp [Kept, State.writeIvs]
  | cons x xs ih => simp only [State.writeIvs]; split <;> simp [Kept, ih]
@[simp] theorem State.drainIvs_kept (s : State) : Kept s s.drainIvs := by
  unfold State.drainIvs
  (repeat' split) <;> simp [Kept]
@[simp] theorem State.pumpAll_kept (s : State) : Kept s s.pumpAll := by
  unfold State.pumpAll
  refine Kept.trans (State.drainIvs_kept s) (Kept.trans (Kept.foldl _ (fun s a => ?_) _ _) (Kept.foldl _ (fun s a => ?_) _ _))
  · simp [Kept]
  · simp [Kept]
@[simp] theorem State.stageSample_kept (s : State) (redo : Bool) (key : Nat) (t : Nat) (code : Nat) (sseq : Nat) : Kept s (s.stageSample redo key t code sseq) := by
  simp [Kept, State.stageSample]
@[simp] theorem State.stagePacket_kept (s : State) (redo : Bool) (h : Nat) (words : List Nat) : Kept s (s.stagePacket redo h words) := by
  simp [Kept, State.stagePacket]
@[simp] theorem State.takeWord_kept (s : State) (q : Nat) (l : Nat) (word : Nat) (tag : Nat) : Kept s (s.takeWord q l word tag) := by
  unfold State.takeWord
  dsimp only
  (repeat' split) <;> simp [Kept]

@[simp] theorem State.rehome_kept (s : State) (l : Nat) : Kept s (s.rehome l) := by
  unfold State.rehome
  (repeat' split) <;> simp [Kept]
@[simp] theorem State.requeueLane_kept (s : State) (l : Nat) : Kept s (s.requeueLane l) := by
  simp [Kept, State.requeueLane]
@[simp] theorem effLaneMode_kept (l : Nat) (v : Word) (s : State) : Kept s (effLaneMode l v s).state := by
  simp [Kept, effLaneMode]
@[simp] theorem State.laneGone_kept (s : State) (l : Nat) : Kept s (s.laneGone l) := by
  simp [Kept, State.laneGone]
@[simp] theorem State.loseFcaLane_kept (s : State) (l : Nat) : Kept s (s.loseFcaLane l) := by
  simp [Kept, State.loseFcaLane]
@[simp] theorem State.endDesc_kept (s : State) (code : Nat) : Kept s (s.endDesc code) := by
  simp [Kept, State.endDesc]
@[simp] theorem State.journalDesc_kept (s : State) (body : List Byte) : Kept s (s.journalDesc body).2 := by
  simp [Kept, State.journalDesc]
@[simp] theorem State.putDesc_kept (s : State) (redo : Bool) (ch : Nat) (e : DescEntry) : Kept s (s.putDesc redo ch e) := by
  unfold State.putDesc
  dsimp only
  (repeat' split) <;> simp [Kept]
@[simp] theorem State.installDesc_kept (s : State) (redo cold : Bool) (d : Desc) (rsn : Nat) (new : List Nat) : Kept s (s.installDesc redo cold d rsn new) := by
  unfold State.installDesc
  dsimp only
  (repeat' split) <;> simp [Kept]
@[simp] theorem State.acceptDesc_kept (s : State) (redo : Bool) (cold : Bool) (d : Desc) : Kept s (s.acceptDesc redo cold d) := by
  simp [Kept, State.acceptDesc]
@[simp] theorem State.readDesc_kept (s : State) (redo : Bool) : Kept s (s.readDesc redo) := by
  simp [Kept, State.readDesc]
@[simp] theorem State.retireDesc_kept (s : State) (redo : Bool) : Kept s (s.retireDesc redo) := by
  simp [Kept, State.retireDesc]
@[simp] theorem effDwCmd_kept (v : Word) (s : State) : Kept s (effDwCmd v s).state := by
  simp [Kept, effDwCmd]
@[simp] theorem State.descCommitted_kept (s : State) (rsn : Nat) : Kept s (s.descCommitted rsn) := by
  unfold State.descCommitted
  (repeat' split) <;> simp [Kept]
@[simp] theorem effPbHi_kept (v : Word) (s : State) : Kept s (effPbHi v s).state := by
  simp [Kept, effPbHi]
@[simp] theorem State.closeAll_kept (s : State) (l : Nat) : Kept s (s.closeAll l) := by
  have h := Kept.foldlSnd (fun (r : Bool × State) ch => if r.1 then r.2.writeCloses l ch none 65 else r)
    (fun r a => by by_cases hb : r.1 <;> simp [Kept, hb]) (true, s) (s.laneChans true l)
  unfold State.closeAll
  simp only [Kept] at h ⊢
  split <;> simp [h]
@[simp] theorem effTkAck_kept (l : Nat) (v : Word) (s : State) : Kept s (effTkAck l v s).state := by
  unfold effTkAck
  dsimp only
  (repeat' split) <;> simp [Kept]
@[simp] theorem State.readSlot_kept (s : State) (l : Nat) (place : Option Nat) (i : Nat) : Kept s (s.readSlot l place i).1 := by
  unfold State.readSlot
  (repeat' split) <;> simp [Kept]
@[simp] theorem effCloseHi_kept (l : Nat) (v : Word) (s : State) : Kept s (effCloseHi l v s).state := by
  simp [Kept, effCloseHi]
@[simp] theorem effCloseEnd_kept (l : Nat) (v : Word) (s : State) : Kept s (effCloseEnd l v s).state := by
  simp [Kept, effCloseEnd]

@[simp] theorem State.requestNew_kept (s : State) (i : Instant) : Kept s (s.requestNew i) := by
  simp [Kept, State.requestNew]
@[simp] theorem State.requestMinute_kept (s : State) (acts : SMap (Option Minute)) (m : Minute) : Kept s (s.requestMinute acts m) := by
  simp [Kept, State.requestMinute]
@[simp] theorem State.compileTo_kept (s : State) (b : Int) : Kept s (State.compileTo s b) := by
  simp [Kept, State.compileTo]
@[simp] theorem State.compile_kept (s : State) : Kept s s.compile := by
  simp [Kept, State.compile]
@[simp] theorem State.recompile_kept (s : State) (owners : InstantOwner → Bool) : Kept s (s.recompile owners) := by
  simp [Kept, State.recompile]
@[simp] theorem State.dropInstants_kept (s : State) (ids : List Nat) : Kept s (s.dropInstants ids) := by
  simp [Kept, State.dropInstants]

@[simp] theorem State.setZone_kept (s : State) (id : Nat) (z : Zone) : Kept s (s.setZone id z) := by
  simp [Kept, State.setZone]
@[simp] theorem State.retireZone_kept (s : State) (id : Nat) (z : Zone) : Kept s (s.retireZone id z) := by
  simp [Kept, State.retireZone]
@[simp] theorem State.showGraph_kept (s : State) : Kept s s.showGraph := by
  simp [Kept, State.showGraph]
@[simp] theorem State.changedOver_kept (s : State) (id : Nat) (p : PendingGraph) : Kept s (s.changedOver id p) := by
  simp [Kept, State.changedOver]
@[simp] theorem State.changeTo_kept (s : State) (id : Nat) (at' : Nat) (p : PendingGraph) : Kept s (State.changeTo s id at' p) := by
  unfold State.changeTo
  dsimp only
  (repeat' split) <;> simp [Kept]
@[simp] theorem State.windowEnd_kept (s : State) (id : Nat) (at' : Nat) : Kept s (s.windowEnd id at') := by
  unfold State.windowEnd
  (repeat' split) <;> simp [Kept]
@[simp] theorem State.cycleWindows_kept (s : State) (id fuel : Nat) : Kept s (s.cycleWindows id fuel) := by
  induction fuel generalizing s with
  | zero => simp [Kept, State.cycleWindows]
  | succ fuel ih =>
    unfold State.cycleWindows
    dsimp only
    (repeat' split) <;> simp [Kept, ih]
@[simp] theorem State.openAt_kept (s : State) (id : Nat) (at' : Nat) (p : PendingGraph) : Kept s (State.openAt s id at' p) := by
  unfold State.openAt
  (repeat' split) <;> simp [Kept]
@[simp] theorem State.civilEnd_kept (s : State) (at' : Nat) (i : Instant) : Kept s (s.civilEnd at' i) := by
  unfold State.civilEnd
  (repeat' split) <;> simp [Kept]
@[simp] theorem State.openPending_kept (s : State) (p : PendingGraph) : Kept s (s.openPending p) := by
  simp [Kept, State.openPending]
@[simp] theorem State.advanceWindows_kept (s : State) : Kept s s.advanceWindows := by
  unfold State.advanceWindows
  dsimp only
  (repeat' split) <;> simp [Kept]
@[simp] theorem State.takeGraph_kept (s : State) (eff : Nat) (g : GraphImage) : Kept s (s.takeGraph eff g) := by
  unfold State.takeGraph
  dsimp only
  (repeat' split) <;> simp [Kept]
@[simp] theorem effGraphCommit_kept (s : State) : Kept s (effGraphCommit s).state := by
  unfold effGraphCommit
  dsimp only
  (repeat' split) <;> simp [Kept]
@[simp] theorem effGraphDrop_kept (s : State) : Kept s (effGraphDrop s).state := by
  unfold effGraphDrop
  dsimp only
  (repeat' split) <;> simp [Kept]
@[simp] theorem effGcmd_kept (v : Word) (s : State) : Kept s (effGcmd v s).state := by
  simp [Kept, effGcmd]
@[simp] theorem State.balanceConfig_kept (s : State) (k i x : Nat) : Kept s (s.balanceConfig k i x) := by
  unfold State.balanceConfig
  dsimp only
  (repeat' split) <;> simp [Kept]
@[simp] theorem effZpHi_kept (v : Word) (s : State) : Kept s (effZpHi v s).state := by
  simp [Kept, effZpHi]
@[simp] theorem effIcHi_kept (v : Word) (s : State) : Kept s (effIcHi v s).state := by
  simp [Kept, effIcHi]
@[simp] theorem effTambHi_kept (j : Nat) (v : Word) (s : State) : Kept s (effTambHi j v s).state := by
  simp [Kept, effTambHi]
@[simp] theorem effCgHi_kept (v : Word) (s : State) : Kept s (effCgHi v s).state := by
  simp [Kept, effCgHi]
@[simp] theorem effBalanceParam_kept (which : BalanceParam) (v : Word) (s : State) : Kept s (effBalanceParam which v s).state := by
  unfold effBalanceParam
  (repeat' split) <;> simp [Kept]
@[simp] theorem effZreset_kept (v : Word) (s : State) : Kept s (effZreset v s).state := by
  unfold effZreset
  dsimp only
  (repeat' split) <;> simp [Kept]
@[simp] theorem State.alarm_kept (s : State) (id : Nat) (w : Window) (v : WindowVals) (cands : List Nat × Bool) (a : AlarmAct) : Kept s (s.alarm id w v cands a) := by
  simp [Kept, State.alarm]
@[simp] theorem State.putEvaluated_kept (s : State) (id : Nat) (retired : Bool) (z : Zone) : Kept s (s.putEvaluated id retired z) := by
  simp [Kept, State.putEvaluated]
@[simp] theorem State.mirrorWindow_kept (s : State) (rsn : Nat) (body : List Byte) : Kept s (State.mirrorWindow s rsn body) := by
  simp [Kept, State.mirrorWindow]
@[simp] theorem State.evaluateWindow_kept (s : State) (id : Nat) (retired : Bool) (z : Zone) (w : Window) : Kept s (s.evaluateWindow id retired z w) := by
  simp [Kept, State.evaluateWindow]
@[simp] theorem State.evaluateDue_kept (s : State) (id fuel : Nat) : Kept s (s.evaluateDue id fuel) := by
  induction fuel generalizing s with
  | zero => simp [Kept, State.evaluateDue]
  | succ fuel ih =>
    unfold State.evaluateDue
    (repeat' split) <;> simp [Kept, ih]
@[simp] theorem State.restoreZone_kept (s : State) (committed : Nat) (since : Nat) (gap : Nat) (gapSeconds : Nat) (id : Nat) (z : Zone) : Kept s (s.restoreZone committed since gap gapSeconds id z) := by
  simp [Kept, State.restoreZone]
@[simp] theorem State.restoreZones_kept (s : State) (committed : Nat) (since : Nat) (gap : Nat) (gapSeconds : Nat) : Kept s (s.restoreZones committed since gap gapSeconds) := by
  simp [Kept, State.restoreZones]

@[simp] theorem State.writeChannel_kept (s : State) (ch : Nat) (w0 : Nat) (w1 : Nat) : Kept s (s.writeChannel ch w0 w1) := by
  unfold State.writeChannel
  dsimp only
  (repeat' split) <;> simp [Kept]
@[simp] theorem State.invalidateChannel_kept (s : State) (ch : Nat) : Kept s (s.invalidateChannel ch) := by
  unfold State.invalidateChannel
  (repeat' split) <;> simp [Kept]
@[simp] theorem effCtCmd_kept (v : Word) (s : State) : Kept s (effCtCmd v s).state := by
  unfold effCtCmd
  dsimp only
  (repeat' split) <;> simp [Kept]
@[simp] theorem State.crossCheck_kept (s : State) (ch : Nat) (num : Nat) : Kept s (s.crossCheck ch num) := by
  unfold State.crossCheck
  (repeat' split) <;> simp [Kept]
@[simp] theorem State.closeRecord_kept (s : State) (ch num at' : Nat) : Kept s (s.closeRecord ch num at') := by
  unfold State.closeRecord
  dsimp only
  (repeat' split) <;> simp [Kept]
@[simp] theorem State.produceInterval_kept (s : State) (ch qual flags inum units : Nat) : Kept s (s.produceInterval ch qual flags inum units) := by
  unfold State.produceInterval
  dsimp only
  (repeat' split) <;> simp [Kept]
@[simp] theorem State.closeInterval_kept (s : State) (ch at' : Nat) (late skipped : Bool) (c : BillChan) : Kept s (s.closeInterval ch at' late skipped c) := by
  simp [Kept, State.closeInterval]
@[simp] theorem State.netEnergy_kept (s : State) (ch : Nat) : Kept s (s.netEnergy ch) := by
  unfold State.netEnergy
  (repeat' split) <;> simp [Kept]
@[simp] theorem State.closeChan_kept (s : State) (ch at' : Nat) (late skipped : Bool) : Kept s (s.closeChan ch at' late skipped) := by
  unfold State.closeChan
  (repeat' split) <;> simp [Kept]
@[simp] theorem State.closeLength_kept (s : State) (l at' : Nat) (late skipped : Bool) : Kept s (s.closeLength l at' late skipped) := by
  simp [Kept, State.closeLength]
@[simp] theorem State.closeDue_kept (s : State) (until' : Nat) : Kept s (s.closeDue until') := by
  unfold State.closeDue
  exact Kept.foldl _ (fun s a => by dsimp only; split <;> simp [Kept]) _ _
@[simp] theorem State.progEnd_kept (s : State) (code : Nat) : Kept s (s.progEnd code) := by
  simp [Kept, State.progEnd]
@[simp] theorem State.unpinActivate_kept (s : State) (n : Nat) : Kept s (s.unpinActivate n) := by
  unfold State.unpinActivate
  dsimp only
  (repeat' split) <;> simp [Kept]
@[simp] theorem effProgramCommit_kept (s : State) : Kept s (effProgramCommit s).state := by
  simp [Kept, effProgramCommit]
@[simp] theorem notApplicable_kept (s : State) : Kept s (notApplicable s).state := by
  simp [Kept, notApplicable]
@[simp] theorem effProgramWithdraw_kept (n : Nat) (s : State) : Kept s (effProgramWithdraw n s).state := by
  simp [Kept, effProgramWithdraw]
@[simp] theorem effPeriodClose_kept (n : Nat) (s : State) : Kept s (effPeriodClose n s).state := by
  unfold effPeriodClose
  dsimp only
  (repeat' split) <;> simp [Kept]
@[simp] theorem effPcmd_kept (v : Word) (s : State) : Kept s (effPcmd v s).state := by
  simp [Kept, effPcmd]
@[simp] theorem State.reserveBoundary_kept (s : State) (key : Nat) : Kept s (s.reserveBoundary key) := by
  simp [Kept, State.reserveBoundary]
@[simp] theorem State.processBoundary_kept (s : State) (b : BoundaryDue) : Kept s (s.processBoundary b) := by
  simp [Kept, State.processBoundary]
@[simp] theorem State.processNext_kept (s : State) : Kept s s.processNext := by
  unfold State.processNext
  (repeat' split) <;> simp [Kept]
@[simp] theorem State.journalMissing_kept (s : State) (voids : Bool) (cls : Nat) (bodies : List (List Byte)) : Kept s (State.journalMissing s voids cls bodies) := by
  simp [Kept, State.journalMissing]
@[simp] theorem State.periodsCommitted_kept (s : State) (rsn : Nat) (mount : Bool) : Kept s (State.periodsCommitted s rsn mount) := by
  simp [Kept, State.periodsCommitted]
@[simp] theorem State.stepBilling_kept (s : State) (ms : Int) (local' : Int) : Kept s (s.stepBilling ms local') := by
  simp [Kept, State.stepBilling]
@[simp] theorem State.readRgLo_kept (s : State) (p : Path) : Kept s (s.readRgLo p).1 := by
  simp [Kept, State.readRgLo]

@[simp] theorem State.journalAccount_kept (s : State) (n : Nat) (k : Nat) (v : Nat) : Kept s (s.journalAccount n k v) := by
  simp [Kept, State.journalAccount]
@[simp] theorem effPrEffHi_kept (v : Word) (s : State) : Kept s (effPrEffHi v s).state := by
  simp [Kept, effPrEffHi]
@[simp] theorem effTopupHi_kept (v : Word) (s : State) : Kept s (effTopupHi v s).state := by
  simp [Kept, effTopupHi]
@[simp] theorem State.topupsCommitted_kept (s : State) (rsn : Nat) : Kept s (s.topupsCommitted rsn) := by
  simp [Kept, State.topupsCommitted]
@[simp] theorem effLimitHi_kept (i : Nat) (v : Word) (s : State) : Kept s (effLimitHi i v s).state := by
  simp [Kept, effLimitHi]
@[simp] theorem effMbW_kept (v : Word) (s : State) : Kept s (effMbW v s).state := by
  simp [Kept, effMbW]
@[simp] theorem effAcCfg_kept (v : Word) (s : State) : Kept s (effAcCfg v s).state := by
  simp [Kept, effAcCfg]
@[simp] theorem State.readAcBalLo_kept (s : State) (p : Path) : Kept s (s.readAcBalLo p).1 := by
  simp [Kept, State.readAcBalLo]

end Sys2Proof.Machine
end

