-- ==== Sys2Proof/Laws/KeptStore.lean ====
section
/-!
SUPPORT. What each operation of the store, Keeper, the engines and field update leaves as it is.
-/

namespace Sys2Proof.Machine

@[simp] theorem State.setSb_kept (s : State) (n : Nat) (x : Superblock) : Kept s (s.setSb n x) := by
  simp [Kept, State.setSb]
@[simp] theorem State.setAreaHead_kept (s : State) (a : Nat) (h : Nat) : Kept s (State.setAreaHead s a h) := by
  simp [Kept, State.setAreaHead]
@[simp] theorem State.takeLpn_kept (s : State) (a : Nat) (n : Nat) : Kept s (State.takeLpn s a n).2 := by
  simp [Kept, State.takeLpn]
@[simp] theorem State.nextStripe_kept (s : State) (gc : Bool) : Kept s (s.nextStripe gc).2 := by
  unfold State.nextStripe
  dsimp only
  (repeat' split) <;> simp [Kept]
@[simp] theorem State.placePages_kept (s : State) (gc : Bool) (fuel : Nat) (keys : List Nat) : Kept s (s.placePages gc fuel keys).2.2 := by
  induction fuel generalizing s keys with
  | zero => simp [Kept, State.placePages]
  | succ fuel ih =>
    cases keys with
    | nil => simp [Kept, State.placePages]
    | cons k ks =>
      have h := State.nextStripe_kept s gc
      unfold State.placePages
      split <;> rename_i e <;> rw [e] at h <;> simp [Kept] at h ⊢
      · exact h
      · simp [h, ih]
@[simp] theorem State.issueStripe_kept (s : State) (stripe : Nat) (page : Nat → List Byte) : Kept s (State.issueStripe s stripe page) := by
  unfold State.issueStripe
  dsimp only
  (repeat' split) <;> simp [Kept]
@[simp] theorem State.numberPages_kept (s : State) (list : List (Nat × PageInfo)) : Kept s (s.numberPages list).2 := by
  unfold State.numberPages
  exact Kept.foldlSnd _ (fun r a => by simp [Kept]) ([], s) _
@[simp] theorem State.placeGroup_kept (s : State) (taken : List (Nat × LedgerRecord)) (flags : Nat) (last : Nat) : Kept s (State.placeGroup s taken flags last).2 := by
  simp [Kept, State.placeGroup]
@[simp] theorem State.placeOpen_kept (s : State) (flags : Nat) : Kept s (s.placeOpen flags).2 := by
  simp [Kept, State.placeOpen]
@[simp] theorem State.closeGroup_kept (s : State) (flags : Nat) : Kept s (s.closeGroup flags) := by
  unfold State.closeGroup
  dsimp only
  have h := State.placeOpen_kept s flags
  generalize s.placeOpen flags = p at h ⊢
  simp only [Kept] at h
  simp [Kept, h]
@[simp] theorem effSync_kept (v : Word) (s : State) : Kept s (effSync v s).state := by
  simp [Kept, effSync]
@[simp] theorem State.spaceAfter_kept (was : State) (s : State) (a : Nat) : Kept s (was.spaceAfter s a) := by
  simp [Kept, State.spaceAfter]
@[simp] theorem State.checkSpace_kept (was : State) (s : State) : Kept s (was.checkSpace s) := by
  simp [Kept, State.checkSpace]
@[simp] theorem State.cutPeriods_kept (s : State) (i : PageInfo) : Kept s (State.cutPeriods s i) := by
  simp [Kept, State.cutPeriods]
@[simp] theorem State.releasePages_kept (s : State) : Kept s s.releasePages := by
  simp [Kept, State.releasePages]
@[simp] theorem effArchHi_kept (v : Word) (s : State) : Kept s (effArchHi v s).state := by
  simp [Kept, effArchHi]
@[simp] theorem effArchLo_kept (v : Word) (s : State) : Kept s (effArchLo v s).state := by
  simp [Kept, effArchLo]
@[simp] theorem State.queueRefresh_kept (s : State) (sb : Nat) : Kept s (s.queueRefresh sb) := by
  simp [Kept, State.queueRefresh]
@[simp] theorem State.markRead_kept (s : State) (stripe : Nat) : Kept s (State.markRead s stripe) := by
  simp [Kept, State.markRead]
@[simp] theorem State.noteRead_kept (s : State) (stripe : Nat) : Kept s (State.noteRead s stripe) := by
  simp [Kept, State.noteRead]
@[simp] theorem State.rebuiltPage_kept (s : State) (stripe : Nat) : Kept s (State.rebuiltPage s stripe) := by
  simp [Kept, State.rebuiltPage]
@[simp] theorem State.loseRun_kept (s : State) (first : Nat) (last : Nat) : Kept s (State.loseRun s first last) := by
  simp [Kept, State.loseRun]
@[simp] theorem State.loseRecords_kept (s : State) (gone : List Nat) : Kept s (s.loseRecords gone) := by
  simp [Kept, State.loseRecords]
@[simp] theorem State.askTwin_kept (s : State) (gone back : List Nat) : Kept s (s.askTwin gone back) := by
  simp [Kept, State.askTwin]
@[simp] theorem State.losePages_kept (s : State) (bad : List (Nat × PageInfo)) (left : List Nat) : Kept s (s.losePages bad left) := by
  unfold State.losePages
  split <;> simp [Kept]
@[simp] theorem State.loseStripe_kept (s : State) (stripe : Nat) (dies : Nat) (supplied : List Nat) : Kept s (State.loseStripe s stripe dies supplied) := by
  simp [Kept, State.loseStripe]
@[simp] theorem State.resizeRing_kept (s : State) : Kept s s.resizeRing := by
  simp [Kept, State.resizeRing]
@[simp] theorem State.loseDie_kept (s : State) (d : Nat) : Kept s (s.loseDie d) := by
  simp [Kept, State.loseDie]
@[simp] theorem State.readStripe_kept (s : State) (stripe : Nat) (r : StripeRead) : Kept s (s.readStripe stripe r) := by
  unfold State.readStripe
  dsimp only
  (repeat' split) <;> simp [Kept]
@[simp] theorem State.readStripes_kept (s : State) (reads : List (BitVec 19 × StripeRead)) : Kept s (State.readStripes s reads) := by
  simp [Kept, State.readStripes]
@[simp] theorem effRdGo_kept (reads : List (BitVec 19 × StripeRead)) (v : Word) (s : State) : Stored s (effRdGo reads v s).state := by
  simp [Stored, effRdGo]
@[simp] theorem State.retireBlock_kept (s : State) (sb : Nat) (d : Nat) : Kept s (s.retireBlock sb d) := by
  simp [Kept, State.retireBlock]
@[simp] theorem State.copyStripe_kept (s : State) (n : Nat) : Kept s (s.copyStripe n) := by
  unfold State.copyStripe
  dsimp only
  (repeat' split) <;> simp [Kept]
@[simp] theorem State.rebuildNext_kept (s : State) (n : Nat) : Kept s (State.rebuildNext s n) := by
  simp [Kept, State.rebuildNext]
@[simp] theorem State.rewriteStripe_kept (s : State) : Kept s (State.rewriteStripe s) := by
  unfold State.rewriteStripe
  dsimp only
  (repeat' split) <;> simp [Kept]
@[simp] theorem State.freeSb_kept (s : State) (sb : Nat) (erases : Nat) (dies : List Nat) : Kept s (State.freeSb s sb erases dies) := by
  simp [Kept, State.freeSb]
@[simp] theorem State.eraseSb_kept (s : State) (sb : Nat) : Kept s (s.eraseSb sb) := by
  simp [Kept, State.eraseSb]
@[simp] theorem State.closeBad_kept (s : State) (sb : Nat) (die : Nat) : Kept s (s.closeBad sb die) := by
  simp [Kept, State.closeBad]
@[simp] theorem State.failProgram_kept (s : State) (sb : Nat) (die : Nat) (dead : Bool) : Kept s (State.failProgram s sb die dead) := by
  simp [Kept, State.failProgram]
@[simp] theorem State.failCopies_kept (s : State) (stripe : Nat) : Kept s (State.failCopies s stripe) := by
  simp [Kept, State.failCopies]
@[simp] theorem State.beginPass_kept (s : State) (total : Nat) : Kept s (State.beginPass s total) := by
  simp [Kept, State.beginPass]
@[simp] theorem State.endPass_kept (s : State) : Kept s (State.endPass s) := by
  simp [Kept, State.endPass]

@[simp] theorem State.firstInterval_kept (s : State) (ch : Nat) (num : Nat) (qual : Nat) (units : Nat) : Kept s (s.firstInterval ch num qual units) := by
  unfold State.firstInterval
  (repeat' split) <;> simp [Kept]
@[simp] theorem State.takeIv_kept (s : State) (ch : Nat) (kind : Nat) (num : Nat) (at' : Nat) (place : Nat) (inc : Nat) (leaf : Nat) : Kept s (s.takeIv ch kind num at' place inc leaf).2 := by
  unfold State.takeIv
  (repeat' split) <;> simp [Kept]
@[simp] theorem State.takeTotal_kept (s : State) (ch : Nat) (tot : Nat) (at' : Nat) (leaf : Nat) : Kept s (s.takeTotal ch tot at' leaf).2 := by
  unfold State.takeTotal
  dsimp only
  (repeat' split) <;> simp [Kept]
@[simp] theorem State.takePacket_kept (s : State) (feed : Bool) (header : Nat) (samples : List Byte) (leaf : Nat) : Kept s (s.takePacket feed header samples leaf).2 := by
  simp [Kept, State.takePacket]
@[simp] theorem State.packetHeader_kept (s : State) (node : Nat) (nch : Nat) (sseq : Nat) (n : Nat) (at' : Nat) : Kept s (s.packetHeader node nch sseq n at').2 := by
  unfold State.packetHeader
  (repeat' split) <;> simp [Kept]
@[simp] theorem State.setCover_kept (s : State) (l : List CoverItem) : Kept s (s.setCover l) := by
  simp [Kept, State.setCover]
@[simp] theorem State.settleAck_kept (s : State) (id : Nat) : Kept s (s.settleAck id) := by
  simp [Kept, State.settleAck]
@[simp] theorem State.settleObl_kept (s : State) (id : Nat) : Kept s (s.settleObl id) := by
  unfold State.settleObl
  (repeat' split) <;> simp [Kept]
@[simp] theorem State.sendAck_kept (s : State) (sid : Nat) : Kept s (s.sendAck sid) := by
  unfold State.sendAck
  (repeat' split) <;> simp [Kept]
@[simp] theorem State.settleFwd_kept (s : State) (sid : Nat) : Kept s (s.settleFwd sid) := by
  unfold State.settleFwd
  (repeat' split) <;> simp [Kept]
@[simp] theorem State.takeForwarded_kept (s : State) (c : CoverItem) : Kept s (s.takeForwarded c).2 := by
  simp [Kept, State.takeForwarded]
@[simp] theorem State.takeOwn_kept (s : State) (c : CoverItem) : Kept s (s.takeOwn c).2 := by
  unfold State.takeOwn
  dsimp only
  (repeat' split) <;> simp [Kept]
@[simp] theorem State.hubCustody_kept (s : State) (rsn : Nat) : Kept s (s.hubCustody rsn) := by
  simp [Kept, State.hubCustody]
@[simp] theorem State.acceptRsn_kept (s : State) (leaf : Nat) (rsn : Nat) : Kept s (State.acceptRsn s leaf rsn) := by
  simp [Kept, State.acceptRsn]
@[simp] theorem State.noteLeafRsn_kept (s : State) (rsn : Nat) (leafRsn : Nat) : Kept s (State.noteLeafRsn s rsn leafRsn) := by
  simp [Kept, State.noteLeafRsn]
@[simp] theorem State.takeItem_kept (s : State) (c : CoverItem) : Kept s (s.takeItem c) := by
  unfold State.takeItem
  (repeat' split) <;> simp [Kept]
@[simp] theorem State.offerItem_kept (s : State) (c : CoverItem) : Kept s (s.offerItem c) := by
  simp [Kept, State.offerItem]
@[simp] theorem State.testCover_kept (s : State) (fuel : Nat) : Kept s (s.testCover fuel) := by
  induction fuel generalizing s with
  | zero => simp [Kept, State.testCover]
  | succ fuel ih =>
    unfold State.testCover
    (repeat' split) <;> simp [Kept, ih]
@[simp] theorem State.drainCover_kept (s : State) : Kept s s.drainCover := by
  simp [Kept, State.drainCover]
@[simp] theorem State.dropItem_kept (s : State) (c : CoverItem) : Kept s (s.dropItem c) := by
  have h : ∀ (s : State) (l : List CoverItem), Kept s (l.foldl (fun (s : State) x => match x.fwd with
      | some (sid, seq, _) => { s with sessions := s.sessions.modify sid (fun y => { y with
          rxSeen := y.rxSeen.filter (· ≠ seq)
          fwds := y.fwds.filter (fun f => f.seq != seq) }) }
      | none => s) s) := fun s l => Kept.foldl _ (fun s a => by split <;> simp [Kept]) s l
  unfold State.dropItem
  dsimp only
  split
  · simp [Kept]
  · exact Kept.trans (by simp [Kept]) (h _ _)
@[simp] theorem State.expireCover_kept (s : State) (fuel : Nat) : Kept s (s.expireCover fuel) := by
  induction fuel generalizing s with
  | zero => simp [Kept, State.expireCover]
  | succ fuel ih =>
    unfold State.expireCover
    (repeat' split) <;> simp [Kept, ih]

@[simp] theorem State.takeReading_kept (s : State) (node : Nat) (obl : Option Nat) (o : List Byte) : Kept s (s.takeReading node obl o) := by
  unfold State.takeReading
  (repeat' split) <;> simp [Kept]
@[simp] theorem State.takeVstat_kept (s : State) (node : Nat) (o : List Byte) : Kept s (s.takeVstat node o) := by
  unfold State.takeVstat
  (repeat' split) <;> simp [Kept]
@[simp] theorem State.takeNbr_kept (s : State) (node : Nat) (o : List Byte) : Kept s (s.takeNbr node o) := by
  simp [Kept, State.takeNbr]
@[simp] theorem State.takeRecord_kept (s : State) (r : Nat) (node : Nat) (obl : Option Nat) (o : List Byte) : Kept s (s.takeRecord r node obl o) := by
  simp [Kept, State.takeRecord]
@[simp] theorem State.closeExchange_kept (s : State) (r : Nat) (x : Exchange) : Kept s (s.closeExchange r x) := by
  unfold State.closeExchange
  (repeat' split) <;> simp [Kept]
@[simp] theorem State.takeData_kept (s : State) (r : Nat) (node : Nat) (seq : Nat) (x : Exchange) (records : List Byte) : Kept s (s.takeData r node seq x records) := by
  unfold State.takeData
  (repeat' split) <;> simp [Kept]
@[simp] theorem State.setStreams_kept (s : State) (node : Nat) (scheds : List (Nat × StreamSched)) : Kept s (s.setStreams node scheds) := by
  simp [Kept, State.setStreams]
@[simp] theorem State.commandDone_kept (s : State) (node : Nat) (records : List Byte) : Kept s (s.commandDone node records) := by
  simp [Kept, State.commandDone]
@[simp] theorem State.takeCack_kept (s : State) (r : Nat) (node : Nat) (seq : Nat) (x : Exchange) (records : List Byte) : Kept s (s.takeCack r node seq x records) := by
  unfold State.takeCack
  dsimp only
  (repeat' split) <;> simp [Kept]
@[simp] theorem State.heardAir_kept (s : State) (lane : Nat) (id : Nat) (rx : AirRx) : Kept s (s.heardAir lane id rx) := by
  simp [Kept, State.heardAir]
@[simp] theorem State.attach_kept (s : State) (l : Nat) (m : Nat) (id : Nat) (latency : Nat) (scheds : List (Nat × StreamSched)) : Kept s (s.attach l m id latency scheds) := by
  simp [Kept, State.attach]

@[simp] theorem State.showFence_kept (s : State) : Kept s s.showFence := by
  simp [Kept, State.showFence]
@[simp] theorem State.dropSources_kept (s : State) : Kept s (State.dropSources s) := by
  simp [Kept, State.dropSources]
@[simp] theorem State.cutSources_kept (s : State) : Kept s s.cutSources := by
  unfold State.cutSources
  (repeat' split) <;> simp [Kept]
@[simp] theorem State.setFence_kept (s : State) (b : Bool) : Kept s (s.setFence b) := by
  simp [Kept, State.setFence]
@[simp] theorem State.failureReport_kept (s : State) : Kept s s.failureReport := by
  simp [Kept, State.failureReport]
@[simp] theorem State.reportFailure_kept (s : State) : Kept s s.reportFailure := by
  simp [Kept, State.reportFailure]

@[simp] theorem State.keeperResult_kept (s : State) (k : Nat) (code : Nat) : Kept s (s.keeperResult k code) := by
  simp [Kept, State.keeperResult]
@[simp] theorem State.drawKey256_kept (s : State) : Kept s (s.drawKey256).2 := by
  simp [Kept, State.drawKey256]
@[simp] theorem State.writeSlot_kept (s : State) (n : Nat) (attr : Nat) (key : Nat) : Kept s (s.writeSlot n attr key) := by
  simp [Kept, State.writeSlot]
@[simp] theorem State.generateFixed_kept (s : State) (n : Nat) (type : Nat) (dest : Nat) : Kept s (s.generateFixed n type dest) := by
  simp [Kept, State.generateFixed]
@[simp] theorem State.newOwner_kept (s : State) : Kept s s.newOwner := by
  simp [Kept, State.newOwner]
@[simp] theorem State.fixProvisioned_kept (s : State) : Kept s s.fixProvisioned := by
  simp [Kept, State.fixProvisioned]
@[simp] theorem State.newNonce_kept (s : State) : Kept s s.newNonce := by
  simp [Kept, State.newNonce]
@[simp] theorem State.acceptTransition_kept (s : State) (target : Nat) (transfer : Option (BitVec 512 × BitVec 512)) : Kept s (s.acceptTransition target transfer) := by
  simp [Kept, State.acceptTransition]
@[simp] theorem State.runLc_kept (s : State) (p : Path) (cmd : Nat) : Kept s (s.runLc p cmd) := by
  simp [Kept, State.runLc]
@[simp] theorem effLcCmd_kept (p : Path) (cmd : Nat) (s : State) : Kept s (effLcCmd p cmd s).state := by
  simp [Kept, effLcCmd]
@[simp] theorem State.endKeyCmd_kept (s : State) (code : Nat) : Kept s (s.endKeyCmd code) := by
  simp [Kept, State.endKeyCmd]
@[simp] theorem State.updateSlot_kept (s : State) (cut : Option Bool) (n : Nat) (new : KeySlot) : Kept s (s.updateSlot cut n new) := by
  unfold State.updateSlot
  dsimp only
  (repeat' split) <;> simp [Kept]
@[simp] theorem State.keyGenerate_kept (s : State) (cut : Option Bool) : Kept s (s.keyGenerate cut) := by
  simp [Kept, State.keyGenerate]
@[simp] theorem State.importUnder_kept (s : State) (cut : Option Bool) (k : Nat) (head wrapped : List Byte) : Kept s (s.importUnder cut k head wrapped) := by
  unfold State.importUnder
  dsimp only
  (repeat' split) <;> simp [Kept]
@[simp] theorem State.keyImport_kept (s : State) (cut : Option Bool) : Kept s (s.keyImport cut) := by
  simp [Kept, State.keyImport]
@[simp] theorem State.keyImportKem_kept (s : State) (cut : Option Bool) : Kept s (s.keyImportKem cut) := by
  simp [Kept, State.keyImportKem]
@[simp] theorem State.keyDerive_kept (s : State) (cut : Option Bool) : Kept s (s.keyDerive cut) := by
  unfold State.keyDerive
  dsimp only
  (repeat' split) <;> simp [Kept]
@[simp] theorem State.keyZeroize_kept (s : State) (cut : Option Bool) : Kept s (s.keyZeroize cut) := by
  simp [Kept, State.keyZeroize]
@[simp] theorem effKcCmd_kept (cmd : Nat) (cut : Option Bool) (s : State) : Kept s (effKcCmd cmd cut s).state := by
  simp [Kept, effKcCmd]
@[simp] theorem State.readPub_kept (s : State) : Kept s (s.readPub).1 := by
  simp [Kept, State.readPub]
@[simp] theorem State.sendHeld_kept (s : State) (sid : Nat) : Kept s (s.sendHeld sid) := by
  unfold State.sendHeld
  (repeat' split) <;> simp [Kept]

@[simp] theorem State.setEngine_kept (s : State) (e : Nat) (x : Engine) : Kept s (s.setEngine e x) := by
  simp [Kept, State.setEngine]
@[simp] theorem State.showEngine_kept (s : State) (e : Nat) : Kept s (s.showEngine e) := by
  simp [Kept, State.showEngine]
@[simp] theorem State.jobKey_kept (s : State) (e : Nat) (j : Job) : Kept s (s.jobKey e j).2 := by
  unfold State.jobKey
  (repeat' split) <;> simp [Kept]
@[simp] theorem State.markReread_kept (s : State) (e : Nat) : Stored s (s.markReread e) := by
  unfold State.markReread
  simp [Stored]
@[simp] theorem State.startJobs_kept (s : State) (e fuel : Nat) : Stored s (s.startJobs e fuel) := by
  induction fuel generalizing s with
  | zero => simp [Stored, State.startJobs]
  | succ fuel ih =>
    unfold State.startJobs
    dsimp only
    (repeat' split) <;> simp [Stored, ih]
@[simp] theorem effJrWr_kept (e : Nat) (v : Word) (s : State) : Stored s (effJrWr e v s).state := by
  simp [Stored, effJrWr]
@[simp] theorem effJrConfig_kept (e : Nat) (off : Nat) (v : Word) (s : State) : Kept s (effJrConfig e off v s).state := by
  simp [Kept, effJrConfig]
@[simp] theorem effJrAck_kept (e : Nat) (v : Word) (s : State) : Kept s (effJrAck e v s).state := by
  simp [Kept, effJrAck]
@[simp] theorem State.gcmEncrypt_kept (s : State) (x : CryptoJob) (j : Job) (src : List Byte) (aad : List Byte) : Kept s (s.gcmEncrypt x j src aad).2 := by
  unfold State.gcmEncrypt
  dsimp only
  (repeat' split) <;> simp [Kept]
@[simp] theorem State.jobResult_kept (s : State) (x : CryptoJob) (j : Job) (iters : Nat) (fault : Bool) : Kept s (s.jobResult x j iters fault).2 := by
  simp [Kept, State.jobResult]
  (repeat' split) <;> simp
@[simp] theorem State.pqcFault_kept (s : State) : Kept s s.pqcFault := by
  simp [Kept, State.pqcFault]
@[simp] theorem State.pqcSigned_kept (s : State) (iters : Nat) : Kept s (s.pqcSigned iters) := by
  simp [Kept, State.pqcSigned]
@[simp] theorem State.endJob_kept (s : State) (e : Nat) (x : CryptoJob) (j : Job) (r : JobResult) : Stored s (s.endJob e x j r) := by
  simp [Stored, State.endJob]
@[simp] theorem State.resumeEngines_kept (s : State) : Stored s s.resumeEngines := by
  simp [Stored, State.resumeEngines]
@[simp] theorem State.stopJobs_kept (s : State) (code : Nat) : Stored s (s.stopJobs code) := by
  simp [Stored, State.stopJobs]
@[simp] theorem State.dropSession_kept (s : State) (x : Session) : Kept s (s.dropSession x) := by
  unfold State.dropSession
  dsimp only
  split <;> simp [Kept]
@[simp] theorem State.zeroizeSessions_kept (s : State) : Kept s s.zeroizeSessions := by
  simp [Kept, State.zeroizeSessions]
@[simp] theorem State.checkAlarm_kept (s : State) : Kept s s.checkAlarm := by
  unfold State.checkAlarm
  (repeat' split) <;> simp [Kept]

@[simp] theorem State.closeBatch_kept (s : State) : Kept s s.closeBatch := by
  simp [Kept, State.closeBatch]
@[simp] theorem State.showRoot_kept (s : State) (root : BitVec 512) : Kept s (s.showRoot root) := by
  simp [Kept, State.showRoot]
@[simp] theorem State.proofResult_kept (s : State) (result : Nat) (len : Nat) (index : Nat) : Kept s (s.proofResult result len index) := by
  simp [Kept, State.proofResult]
@[simp] theorem State.proveIn_kept (s : State) (b : Batch) (rsn : Nat) : Kept s (s.proveIn b rsn) := by
  simp [Kept, State.proveIn]
@[simp] theorem effPrfGo_kept (v : Word) (s : State) : Kept s (effPrfGo v s).state := by
  unfold effPrfGo
  dsimp only
  (repeat' split) <;> simp [Kept]

@[simp] theorem State.setImage_kept (s : State) (n : Nat) (x : ImageSlot) : Kept s (s.setImage n x) := by
  simp [Kept, State.setImage]
@[simp] theorem State.setStage_kept (s : State) (v : Nat) : Kept s (s.setStage v) := by
  simp [Kept, State.setStage]
@[simp] theorem State.updRefuse_kept (s : State) (code : Nat) : Kept s (s.updRefuse code) := by
  simp [Kept, State.updRefuse]
@[simp] theorem State.dropStage_kept (s : State) : Kept s s.dropStage := by
  unfold State.dropStage
  (repeat' split) <;> simp [Kept]
@[simp] theorem State.endCard_kept (s : State) : Kept s s.endCard := by
  simp [Kept, State.endCard]
@[simp] theorem State.updStage_kept (s : State) : Kept s s.updStage := by
  unfold State.updStage
  (repeat' split) <;> simp [Kept]
@[simp] theorem State.updChunk_kept (s : State) : Kept s s.updChunk := by
  simp [Kept, State.updChunk]
@[simp] theorem State.updEnd_kept (s : State) : Kept s s.updEnd := by
  simp [Kept, State.updEnd]
@[simp] theorem State.startHandover_kept (s : State) (slot : Nat) (stage : Nat) (back : Bool) : Kept s (s.startHandover slot stage back) := by
  simp [Kept, State.startHandover]
@[simp] theorem State.updActivate_kept (s : State) : Kept s s.updActivate := by
  unfold State.updActivate
  (repeat' split) <;> simp [Kept]
@[simp] theorem State.endTrial_kept (s : State) : Kept s s.endTrial := by
  unfold State.endTrial
  (repeat' split) <;> simp [Kept]
@[simp] theorem State.updRollback_kept (s : State) : Kept s s.updRollback := by
  unfold State.updRollback
  (repeat' split) <;> simp [Kept]
@[simp] theorem State.confirmTrial_kept (s : State) : Kept s s.confirmTrial := by
  simp [Kept, State.confirmTrial]
@[simp] theorem State.updConfirm_kept (s : State) : Kept s s.updConfirm := by
  simp [Kept, State.updConfirm]
@[simp] theorem State.updDiscard_kept (s : State) : Kept s s.updDiscard := by
  simp [Kept, State.updDiscard]
@[simp] theorem effUpdCmd_kept (cmd : Nat) (s : State) : Kept s (effUpdCmd cmd s).state := by
  simp [Kept, effUpdCmd]
@[simp] theorem State.abortHandover_kept (s : State) : Kept s s.abortHandover := by
  unfold State.abortHandover
  (repeat' split) <;> simp [Kept]
@[simp] theorem State.trialCycle_kept (s : State) : Kept s s.trialCycle := by
  unfold State.trialCycle
  (repeat' split) <;> simp [Kept]
@[simp] theorem State.confirmed_kept (s : State) : Kept s s.confirmed := by
  unfold State.confirmed
  (repeat' split) <;> simp [Kept]
@[simp] theorem State.updCommitted_kept (s : State) : Kept s s.updCommitted := by
  unfold State.updCommitted
  dsimp only
  (repeat' split) <;> simp [Kept]
@[simp] theorem State.cardError_kept (s : State) : Kept s s.cardError := by
  simp [Kept, State.cardError]
@[simp] theorem State.initCard_kept (s : State) (card : Option CardRx) : Kept s (s.initCard card) := by
  unfold State.initCard
  (repeat' split) <;> simp [Kept]
@[simp] theorem effRescan_kept (v : Word) (card : Option CardRx) (s : State) : Kept s (effRescan v card s).state := by
  simp [Kept, effRescan]
@[simp] theorem effGrpW_kept (v : Word) (s : State) : Kept s (effGrpW v s).state := by
  simp [Kept, effGrpW]
@[simp] theorem State.bulkSent_kept (s : State) (id : Nat) (r : Nat) : Kept s (s.bulkSent id r) := by
  unfold State.bulkSent
  dsimp only
  (repeat' split) <;> simp [Kept]

end Sys2Proof.Machine
end

