-- ==== Sys2Proof/Laws/KeptLinks.lean ====
section
/-!
SUPPORT. What each operation of the twin, the feeder link, Ethernet, power and the Logbook leaves as it is.
-/

namespace Sys2Proof.Machine

@[simp] theorem State.cancelTakeback_kept (s : State) : Kept s s.cancelTakeback := by
  unfold State.cancelTakeback
  (repeat' split) <;> simp [Kept]
@[simp] theorem State.settleMirrors_kept (s : State) : Kept s s.settleMirrors := by
  simp [Kept, State.settleMirrors]
@[simp] theorem State.stampAck_kept (s : State) : Kept s s.stampAck := by
  simp [Kept, State.stampAck]
@[simp] theorem State.enterSync_kept (s : State) (v : Nat) : Kept s (s.enterSync v) := by
  simp [Kept, State.enterSync]
@[simp] theorem State.setSync_kept (s : State) (v : Nat) : Kept s (s.setSync v) := by
  unfold State.setSync
  (repeat' split) <;> simp [Kept]
@[simp] theorem State.setFault_kept (s : State) (i : Nat) (b : Bool) : Kept s (s.setFault i b) := by
  simp [Kept, State.setFault]
@[simp] theorem State.showPilotFault_kept (s : State) : Kept s s.showPilotFault := by
  simp [Kept, State.showPilotFault]
@[simp] theorem State.resumeKeys_kept (s : State) (skip : Nat) : Kept s (s.resumeKeys skip) := by
  simp [Kept, State.resumeKeys]
@[simp] theorem State.countAcked_kept (s : State) : Kept s s.countAcked := by
  simp [Kept, State.countAcked]
@[simp] theorem State.rebatch_kept (s : State) (flags : Nat) : Kept s (s.rebatch flags) := by
  simp [Kept, State.rebatch]
@[simp] theorem State.raiseEpoch_kept (s : State) : Kept s s.raiseEpoch := by
  simp [Kept, State.raiseEpoch]
@[simp] theorem State.lateBoundaries_kept (s : State) : Kept s s.lateBoundaries := by
  simp [Kept, State.lateBoundaries]
@[simp] theorem State.resumeInterlocks_kept (s : State) : Kept s s.resumeInterlocks := by
  simp [Kept, State.resumeInterlocks]
@[simp] theorem State.readFeedback_kept (s : State) : Kept s (State.readFeedback s) := by
  simp [Kept, State.readFeedback]
@[simp] theorem State.clearHandover_kept (s : State) (taken : Bool) : Kept s (s.clearHandover taken) := by
  simp [Kept, State.clearHandover]
@[simp] theorem State.closeOpenGroup_kept (s : State) : Kept s s.closeOpenGroup := by
  simp [Kept, State.closeOpenGroup]
@[simp] theorem State.switchOver_kept (s : State) (cause : Nat) : Kept s (s.switchOver cause) := by
  simp [Kept, State.switchOver]
@[simp] theorem State.modSession_kept (s : State) (sid : Nat) (f : Session → Session) : Kept s (s.modSession sid f) := by
  simp [Kept, State.modSession]
@[simp] theorem State.showPeer_kept (s : State) (p : Nat) (refused : optParam Bool false) : Kept s (s.showPeer p refused) := by
  simp [Kept, State.showPeer]
@[simp] theorem State.closeSession_kept (s : State) (sid : Nat) (refused : optParam Bool false) : Kept s (s.closeSession sid refused) := by
  unfold State.closeSession
  dsimp only
  (repeat' split) <;> simp [Kept]
@[simp] theorem State.takeSessions_kept (s : State) : Kept s (State.takeSessions s) := by
  simp [Kept, State.takeSessions]
@[simp] theorem State.yieldSid_kept (s : State) (sid : Nat) : Kept s (State.yieldSid s sid) := by
  simp [Kept, State.yieldSid]
@[simp] theorem State.gapSwitch_kept (s : State) : Kept s s.gapSwitch := by
  simp [Kept, State.gapSwitch]
@[simp] theorem State.resumeSources_kept (s : State) : Kept s s.resumeSources := by
  simp [Kept, State.resumeSources]
@[simp] theorem State.resumeDuty_kept (s : State) : Kept s s.resumeDuty := by
  simp [Kept, State.resumeDuty]
@[simp] theorem State.runLeases_kept (s : State) : Kept s s.runLeases := by
  unfold State.runLeases
  dsimp only
  (repeat' split) <;> simp [Kept]
@[simp] theorem State.takeover_kept (s : State) (cause : Nat) (force : Bool) : Kept s (s.takeover cause force) := by
  simp [Kept, State.takeover]
@[simp] theorem State.stopMedia_kept (s : State) : Kept s s.stopMedia := by
  simp [Kept, State.stopMedia]
@[simp] theorem State.enterFenced_kept (s : State) (cause : Nat) : Kept s (s.enterFenced cause) := by
  simp [Kept, State.enterFenced]
@[simp] theorem State.refuseTakeover_kept (s : State) (blocked : Bool) : Kept s (s.refuseTakeover blocked) := by
  simp [Kept, State.refuseTakeover]
@[simp] theorem State.evaluateTakeover_kept (s : State) : Kept s s.evaluateTakeover := by
  simp [Kept, State.evaluateTakeover]
@[simp] theorem State.twinFails_kept (s : State) (b : Bool) : Kept s (s.twinFails b) := by
  simp [Kept, State.twinFails]
@[simp] theorem State.mirrorAcked_kept (s : State) (rsn : Nat) : Kept s (s.mirrorAcked rsn) := by
  simp [Kept, State.mirrorAcked]
@[simp] theorem State.schedule_kept (s : State) (h : Nat) (code : Nat) (takes : Bool) : Kept s (s.schedule h code takes) := by
  simp [Kept, State.schedule]
@[simp] theorem State.takeHeartbeat_kept (s : State) (h : Heartbeat) : Kept s (s.takeHeartbeat h) := by
  simp [Kept, State.takeHeartbeat]
  (repeat' split) <;> simp
@[simp] theorem State.applyLanes_kept (s : State) (w : Nat) : Kept s (s.applyLanes w) := by
  simp [Kept, State.applyLanes]
@[simp] theorem State.clearLanes_kept (s : State) : Kept s s.clearLanes := by
  unfold State.clearLanes
  exact (s.applyLanes_kept 0).trans (Kept.foldl _ (fun s p => by simp [Kept]) _ _)
@[simp] theorem State.pairCycle_kept (s : State) : Kept s s.pairCycle := by
  simp [Kept, State.pairCycle]
@[simp] theorem State.dualDrive_kept (s : State) : Kept s s.dualDrive := by
  simp [Kept, State.dualDrive]
@[simp] theorem State.sendPairHello_kept (s : State) : Kept s s.sendPairHello := by
  simp [Kept, State.sendPairHello]
@[simp] theorem effPair_kept (s : State) : Kept s (effPair s).state := by
  simp [Kept, effPair]
@[simp] theorem effUnpair_kept (s : State) : Kept s (effUnpair s).state := by
  simp [Kept, effUnpair]
@[simp] theorem effSwitch_kept (s : State) : Kept s (effSwitch s).state := by
  simp [Kept, effSwitch]
@[simp] theorem effYield_kept (s : State) : Kept s (effYield s).state := by
  simp [Kept, effYield]
@[simp] theorem effForce_kept (s : State) : Kept s (effForce s).state := by
  simp [Kept, effForce]
@[simp] theorem effPairsCmd_kept (cmd : Nat) (s : State) : Kept s (effPairsCmd cmd s).state := by
  simp [Kept, effPairsCmd]
@[simp] theorem State.appendDivergent_kept (s : State) (cls : Nat) (p : List Byte) : Kept s (s.appendDivergent cls p) := by
  unfold State.appendDivergent
  dsimp only
  (repeat' split) <;> simp [Kept]
@[simp] theorem State.nameLast_kept (s : State) : Kept s s.nameLast := by
  simp [Kept, State.nameLast]
@[simp] theorem State.takeDivergent_kept (s : State) (ver : Nat) (l : List (Nat × Nat × List Byte)) : Kept s (s.takeDivergent ver l) := by
  unfold State.takeDivergent
  (repeat' split) <;> simp [Kept]
@[simp] theorem State.holdLeases_kept (s : State) : Kept s s.holdLeases := by
  unfold State.holdLeases
  dsimp only
  (repeat' split) <;> simp [Kept]
@[simp] theorem State.becomeStandby_kept (s : State) (h : PairHello) (ver : Nat) : Kept s (s.becomeStandby h ver) := by
  simp [Kept, State.becomeStandby]
@[simp] theorem State.notePair_kept (s : State) (h : PairHello) (ver : Nat) : Kept s (s.notePair h ver) := by
  simp [Kept, State.notePair]
@[simp] theorem State.pairUp_kept (s : State) (h : PairHello) : Held s (s.pairUp h) := by
  simp [Held, State.pairUp]
@[simp] theorem State.mirrorDesc_kept (s : State) (rsn : Nat) (p : List Byte) : Kept s (s.mirrorDesc rsn p) := by
  unfold State.mirrorDesc
  dsimp only
  (repeat' split) <;> simp [Kept]
@[simp] theorem State.applyRecord_kept (s : State) (rsn cls leaf : Nat) (payload : List Byte) : Kept s (s.applyRecord rsn cls leaf payload) := by
  unfold State.applyRecord
  dsimp only
  (repeat' split) <;> simp [Kept]
@[simp] theorem State.mirrorRecord_kept (s : State) (rsn : Nat) (cls : Nat) (leaf : Nat) (leafRsn : Nat) (payload : List Byte) : Kept s (State.mirrorRecord s rsn cls leaf leafRsn payload) := by
  simp [Kept, State.mirrorRecord]
@[simp] theorem State.applyItem_kept (s : State) (m : MirrorItem) : Kept s (s.applyItem m) := by
  unfold State.applyItem
  (repeat' split) <;> simp [Kept]
@[simp] theorem State.applyWaiting_kept (s : State) (fuel : Nat) : Kept s (s.applyWaiting fuel) := by
  induction fuel generalizing s with
  | zero => simp [Kept, State.applyWaiting]
  | succ fuel ih =>
    unfold State.applyWaiting
    (repeat' split) <;> simp [Kept, ih]
@[simp] theorem State.drainMirror_kept (s : State) : Kept s s.drainMirror := by
  simp [Kept, State.drainMirror]
@[simp] theorem State.staleYield_kept (s : State) : Kept s s.staleYield := by
  simp [Kept, State.staleYield]

@[simp] theorem State.sendMessage_kept (s : State) (sid : Nat) (ftype : Nat) (body : List Byte) : Kept s (s.sendMessage sid ftype body) := by
  simp [Kept, State.sendMessage]
@[simp] theorem State.openSession_kept (s : State) (sid : Nat) : Kept s (s.openSession sid) := by
  unfold State.openSession
  (repeat' split) <;> simp [Kept]
@[simp] theorem State.sendShake_kept (s : State) (peer ver ftype : Nat) (body : List Byte) : Kept s (s.sendShake peer ver ftype body) := by
  unfold State.sendShake
  dsimp only
  (repeat' split) <;> simp [Kept]
@[simp] theorem State.sendHandshake_kept (s : State) (sid : Nat) (ftype : Nat) (body : List Byte) : Kept s (s.sendHandshake sid ftype body) := by
  unfold State.sendHandshake
  (repeat' split) <;> simp [Kept]
@[simp] theorem State.signIk_kept (s : State) (msg : List Byte) : Kept s (s.signIk msg).2 := by
  simp [Kept, State.signIk]
@[simp] theorem State.refuseHandshake_kept (s : State) (peer : Nat) (reason : Nat) : Kept s (s.refuseHandshake peer reason) := by
  simp [Kept, State.refuseHandshake]
@[simp] theorem State.answerHello_kept (s : State) (p : Nat) (ver : Nat) (msg : List Byte) : Kept s (s.answerHello p ver msg) := by
  simp [Kept, State.answerHello]
@[simp] theorem State.failHandshake_kept (s : State) (sid : Nat) (peer : Nat) (reason : Nat) : Kept s (s.failHandshake sid peer reason) := by
  simp [Kept, State.failHandshake]
@[simp] theorem State.hubTook_kept (s : State) (peer : Nat) (rsn : Nat) : Kept s (State.hubTook s peer rsn) := by
  simp [Kept, State.hubTook]
@[simp] theorem State.perTook_kept (s : State) (peer : Nat) (cycle : Nat) : Kept s (State.perTook s peer cycle) := by
  unfold State.perTook
  (repeat' split) <;> simp [Kept]
@[simp] theorem State.segTook_kept (s : State) (first : Nat) : Kept s (State.segTook s first) := by
  simp [Kept, State.segTook]
@[simp] theorem State.assemble_kept (s : State) (r : KfpRx) (ftype : Nat) (x : Session) : Kept s (s.assemble r ftype x).2 := by
  simp [Kept, State.assemble]
def Accepted.state : Accepted → State
  | .done s => s
  | .fresh _ s => s
@[simp] theorem Accepted.state_done (s : State) : (Accepted.done s).state = s := eq_of_heq HEq.rfl
@[simp] theorem Accepted.state_fresh (x : Session) (s : State) : (Accepted.fresh x s).state = s := eq_of_heq HEq.rfl
@[simp] theorem State.kfpBad_kept (s : State) : Kept s s.kfpBad := by
  simp [Kept, State.kfpBad]
@[simp] theorem State.kfpOpen_kept (s : State) (r : KfpRx) (x : Session) : Kept s (s.kfpOpen r x) := by
  simp [Kept, State.kfpOpen]
@[simp] theorem State.noteEpoch_kept (s : State) (x : Session) (e : Nat) : Kept s (State.noteEpoch s x e) := by
  simp [Kept, State.noteEpoch]
@[simp] theorem State.kfpFresh_kept (s : State) (r : KfpRx) (x : Session) : Kept s (s.kfpFresh r x) := by
  simp [Kept, State.kfpFresh]
theorem State.kfpAccept_kept (s : State) (r : KfpRx) (again : State → State) (acked : Bool) (ha : ∀ s, Kept s (again s)) :
    Kept s (s.kfpAccept r again acked).state := by
  unfold State.kfpAccept
  dsimp only
  (repeat' split) <;> first
    | (simp [Kept]; done)
    | (refine Kept.trans ?_ (ha _); simp [Kept])
theorem State.kfpTake_kept (s : State) (r : KfpRx) (ftype : Nat) (f : Session → List Byte → State → State)
    (hf : ∀ x b s, Kept s (f x b s)) : Kept s (s.kfpTake r ftype f) := by
  have h := s.kfpAccept_kept r id true (fun s => by simp [Kept])
  unfold State.kfpTake
  split
  · rename_i e; rw [e] at h; simpa using h
  · rename_i x u e
    rw [e] at h
    have g := u.assemble_kept r ftype x
    split
    · rename_i e; rw [e] at g; simp [Kept] at h g ⊢; simp [h, g]
    · rename_i b w e; rw [e] at g; have q := hf x b w; simp [Kept] at h g q ⊢; simp [h, g, q]
@[simp] theorem State.takeFrame_kept (s : State) (sid : Nat) (seq : Nat) (leaf : Nat) (f : Nat × Nat × List Byte) : Kept s (s.takeFrame sid seq leaf f) := by
  simp [Kept, State.takeFrame]
@[simp] theorem State.setLeaf_kept (s : State) (n : Nat) (x : Leaf) : Kept s (s.setLeaf n x) := by
  simp [Kept, State.setLeaf]
@[simp] theorem State.showLeaf_kept (s : State) (n : Nat) : Kept s (s.showLeaf n) := by
  simp [Kept, State.showLeaf]
@[simp] theorem State.takeEntries_kept (s : State) (n : Nat) (first : Nat) (cap : Nat) (entries : List Nat) : Kept s (s.takeEntries n first cap entries) := by
  simp [Kept, State.takeEntries]
@[simp] theorem State.forwardMessage_kept (s : State) (sid : Nat) (peer : Nat) (ftype : Nat) (body : List Byte) : Kept s (State.forwardMessage s sid peer ftype body) := by
  simp [Kept, State.forwardMessage]
@[simp] theorem State.askSeq_kept (s : State) (sid : Nat) : Kept s (State.askSeq s sid) := by
  simp [Kept, State.askSeq]
@[simp] theorem State.forwardBatch_kept (s : State) (sid : Nat) (x : Session) : Kept s (s.forwardBatch sid x) := by
  unfold State.forwardBatch
  dsimp only
  (repeat' split) <;> simp [Kept]
@[simp] theorem State.forwardPeriods_kept (s : State) (sid : Nat) (x : Session) : Kept s (s.forwardPeriods sid x) := by
  simp [Kept, State.forwardPeriods]
@[simp] theorem State.forwardSegment_kept (s : State) (sid : Nat) (x : Session) : Kept s (State.forwardSegment s sid x) := by
  unfold State.forwardSegment
  (repeat' split) <;> simp [Kept]
@[simp] theorem State.forwardDue_kept (s : State) : Kept s (State.forwardDue s) := by
  simp [Kept, State.forwardDue]
@[simp] theorem State.enterPeer_kept (s : State) (n : Nat) : Kept s (s.enterPeer n) := by
  simp [Kept, State.enterPeer]
@[simp] theorem State.closePeer_kept (s : State) (n : Nat) (gone : Bool) : Kept s (s.closePeer n gone) := by
  simp [Kept, State.closePeer]
@[simp] theorem effPeerW0_kept (v : Word) (s : State) : Kept s (effPeerW0 v s).state := by
  simp [Kept, effPeerW0]

@[simp] theorem State.frameToHost_kept (s : State) (i : Nat) (frame : List Byte) (mac : Nat) : Stored s (s.frameToHost i frame mac) := by
  simp [Stored, State.frameToHost]
@[simp] theorem State.queueStamp_kept (s : State) (id : Nat) (i : Nat) (mac : Nat) : Kept s (s.queueStamp id i mac) := by
  simp [Kept, State.queueStamp]
@[simp] theorem State.pumpTx_kept (s : State) (stamps : List Nat) (fuel : Nat) : Kept s (s.pumpTx stamps fuel) := by
  induction fuel generalizing s stamps with
  | zero => simp [Kept, State.pumpTx]
  | succ n ih =>
    unfold State.pumpTx
    dsimp only
    (repeat' split) <;> simp [Kept, ih]
@[simp] theorem State.fillSlots_kept (s : State) (slots : List (BitVec 8 × List Byte)) : Stored s (s.fillSlots slots) := by
  simp [Stored, State.fillSlots]
@[simp] theorem effHtxWr_kept (v : Word) (stamps : List Nat) (s : State) : Kept s (effHtxWr v stamps s).state := by
  simp [Kept, effHtxWr]
@[simp] theorem State.ethLink_kept (s : State) (i : Nat) (speed : Nat) : Kept s (s.ethLink i speed) := by
  simp [Kept, State.ethLink]
@[simp] theorem State.holdTs_kept (s : State) : Kept s s.holdTs := by
  simp [Kept, State.holdTs]
@[simp] theorem effTsqPop_kept (v : Word) (s : State) : Kept s (effTsqPop v s).state := by
  simp [Kept, effTsqPop]
@[simp] theorem State.setPtpState_kept (s : State) (v : Nat) : Kept s (s.setPtpState v) := by
  simp [Kept, State.setPtpState]
@[simp] theorem State.pinTrigger_kept (s : State) (n : Nat) (g : Trigger) : Kept s (s.pinTrigger n g) := by
  simp [Kept, State.pinTrigger]
@[simp] theorem State.pinTriggers_kept (s : State) : Kept s s.pinTriggers := by
  simp [Kept, State.pinTriggers]
@[simp] theorem State.firstTai_kept (s : State) : Kept s s.firstTai := by
  simp [Kept, State.firstTai]
@[simp] theorem State.stepPtp_kept (s : State) (ns : Int) : Kept s (s.stepPtp ns) := by
  simp [Kept, State.stepPtp]
@[simp] theorem State.sendPtp_kept (s : State) (i : Nat) (kind : Nat) : Kept s (State.sendPtp s i kind) := by
  simp [Kept, State.sendPtp]
@[simp] theorem State.takePath_kept (s : State) (d : Int) : Kept s (State.takePath s d) := by
  simp [Kept, State.takePath]
@[simp] theorem State.takeOffset_kept (s : State) (o : Int) : Kept s (State.takeOffset s o) := by
  simp [Kept, State.takeOffset]
@[simp] theorem State.takeSync_kept (s : State) (i : Nat) (origin : Int) (rx : Int) : Kept s (State.takeSync s i origin rx) := by
  unfold State.takeSync
  dsimp only
  (repeat' split) <;> simp [Kept]
@[simp] theorem State.takePtpMsg_kept (s : State) (i : Nat) (x0 : PtpMsg) : Kept s (State.takePtpMsg s i x0) := by
  unfold State.takePtpMsg
  (repeat' split) <;> simp [Kept]
@[simp] theorem State.takePtp_kept (s : State) (m : PtpRx) : Kept s (s.takePtp m) := by
  have h : Kept s ((s.takePtpMsg m.port.val m.msg).setPtpState m.state.val) :=
    (State.takePtpMsg_kept _ _ _).trans (State.setPtpState_kept _ _)
  unfold State.takePtp
  dsimp only
  split
  · exact h.trans (State.firstTai_kept _)
  · exact h
@[simp] theorem State.backPtp_kept (s : State) (interval : Nat) : Kept s (State.backPtp s interval) := by
  unfold State.backPtp
  exact Kept.ite (by simp [Kept]) (by simp [Kept])
@[simp] theorem effTrigNs_kept (n : Nat) (v : Word) (s : State) : Kept s (effTrigNs n v s).state := by
  simp [Kept, effTrigNs]
@[simp] theorem State.snapshot_kept (s : State) (at' : Nat) (count : Nat) : Kept s (s.snapshot at' count) := by
  simp [Kept, State.snapshot]
@[simp] theorem State.captureEvent_kept (s : State) (n : Nat) (time : Nat) : Kept s (s.captureEvent n time) := by
  simp [Kept, State.captureEvent]
@[simp] theorem State.fireDue_kept (s : State) (n : Nat) : Kept s (State.fireDue s n) := by
  simp [Kept, State.fireDue]
@[simp] theorem effZcommit_kept (v : Word) (s : State) : Kept s (effZcommit v s).state := by
  simp [Kept, effZcommit]
@[simp] theorem State.newSvcChal_kept (s : State) : Kept s s.newSvcChal := by
  simp [Kept, State.newSvcChal]
@[simp] theorem effSvcResp3_kept (v : Word) (s : State) : Kept s (effSvcResp3 v s).state := by
  simp [Kept, effSvcResp3]

@[simp] theorem State.loseUnit_kept (s : State) (reason : Nat) (r : Nat) : Kept s (s.loseUnit reason r) := by
  simp [Kept, State.loseUnit]
@[simp] theorem State.regainUnit_kept (s : State) (r : Nat) : Kept s (s.regainUnit r) := by
  simp [Kept, State.regainUnit]
@[simp] theorem State.loseDomain_kept (s : State) (d : Nat) : Kept s (s.loseDomain d) := by
  simp [Kept, State.loseDomain]
@[simp] theorem State.regainDomain_kept (s : State) (d : Nat) : Kept s (s.regainDomain d) := by
  simp [Kept, State.regainDomain]
@[simp] theorem State.blockRegs_kept (s : State) (locks : Bool) (pages : List Nat) : Kept s (s.blockRegs locks pages) := by
  simp [Kept, State.blockRegs]
@[simp] theorem State.blockRest_kept (s : State) (page : Nat) : Kept s (s.blockRest page) := by
  simp [Kept, State.blockRest]
@[simp] theorem State.domainReset_kept (s : State) (d : Nat) : Kept s (s.domainReset d) := by
  simp [Kept, State.domainReset]
@[simp] theorem State.domainOn_kept (s : State) (d : Nat) : Kept s (s.domainOn d) := by
  simp [Kept, State.domainOn]
@[simp] theorem effDomCmd_kept (v : Word) (s : State) : Kept s (effDomCmd v s).state := by
  simp [Kept, effDomCmd]
@[simp] theorem State.enter_kept (s : State) (d : Nat) (mode : Nat) (world : List (BitVec 8)) (abort : Option (BitVec 8)) : Kept s (s.enter d mode world abort) := by
  unfold State.enter
  (repeat' split) <;> simp [Kept]
@[simp] theorem State.failDomain_kept (s : State) (d : Nat) : Kept s (s.failDomain d) := by
  simp [Kept, State.failDomain]
@[simp] theorem State.stopWriting_kept (s : State) : Kept s s.stopWriting := by
  simp [Kept, State.stopWriting]
@[simp] theorem State.shutdownOpen_kept (s : State) : Kept s s.shutdownOpen := by
  simp [Kept, State.shutdownOpen]
@[simp] theorem State.beginShutdown_kept (s : State) : Kept s s.beginShutdown := by
  simp [Kept, State.beginShutdown]
@[simp] theorem State.shed_kept (s : State) : Kept s s.shed := by
  simp [Kept, State.shed]
@[simp] theorem State.enterVigil_kept (s : State) : Kept s s.enterVigil := by
  simp [Kept, State.enterVigil]

@[simp] theorem State.tamperEvent_kept (s : State) (e : TamperEntry) : Kept s (s.tamperEvent e) := by
  simp [Kept, State.tamperEvent]
@[simp] theorem State.recordTamper_kept (s : State) (source : Nat) (low : Nat) (vigil : Nat) : Kept s (s.recordTamper source low vigil) := by
  simp [Kept, State.recordTamper]
@[simp] theorem State.vigilNow_kept (s : State) (vigil : Option Nat) : Kept s (s.vigilNow vigil).2 := by
  unfold State.vigilNow
  (repeat' split) <;> simp [Kept]
@[simp] theorem effTpStat_kept (vigil : Option Nat) (v : Word) (s : State) : Kept s (effTpStat vigil v s).state := by
  simp [Kept, effTpStat]
@[simp] theorem effLogClr_kept (vigil : Option Nat) (v : Word) (s : State) : Kept s (effLogClr vigil v s).state := by
  simp [Kept, effLogClr]
@[simp] theorem State.logTamper_kept (s : State) : Kept s s.logTamper := by
  unfold State.logTamper
  exact Kept.foldl _ (fun s a => by dsimp only; (repeat' split) <;> simp [Kept]) _ _

@[simp] theorem State.configInstrument_kept (s : State) (i : Nat) : Kept s (s.configInstrument i) := by
  simp [Kept, State.configInstrument]
@[simp] theorem State.syncInstruments_kept (s : State) : Kept s s.syncInstruments := by
  simp [Kept, State.syncInstruments]
@[simp] theorem effILo_kept (v : Word) (s : State) : Kept s (effILo v s).state := by
  simp [Kept, effILo]
@[simp] theorem effIW_kept (v : Word) (s : State) : Kept s (effIW v s).state := by
  simp [Kept, effIW]
@[simp] theorem effICmd_kept (v : Word) (s : State) : Kept s (effICmd v s).state := by
  simp [Kept, effICmd]
@[simp] theorem State.freeze_kept (s : State) : Kept s s.freeze := by
  simp [Kept, State.freeze]
@[simp] theorem State.thaw_kept (s : State) : Kept s s.thaw := by
  simp [Kept, State.thaw]
@[simp] theorem effCurSel_kept (p : Path) (v : Word) (s : State) : Kept s (effCurSel p v s).state := by
  simp [Kept, effCurSel]
@[simp] theorem State.readCursor_kept (p : Path) (s : State) : Kept s (State.readCursor p s).1 := by
  simp [Kept, State.readCursor]
@[simp] theorem effHostVal_kept (v : Word) (s : State) : Kept s (effHostVal v s).state := by
  simp [Kept, effHostVal]
@[simp] theorem effNoteGo_kept (v : Word) (s : State) : Kept s (effNoteGo v s).state := by
  simp [Kept, effNoteGo]
@[simp] theorem effClrAll_kept (v : Word) (s : State) : Kept s (effClrAll v s).state := by
  simp [Kept, effClrAll]

end Sys2Proof.Machine
end

