-- ==== Sys2Proof/Laws/KeptStart.lean ====
section
/-!
SUPPORT. What each operation of start-up, the shutdown commit, self-test, cycles and register effects leaves as it is.
-/

namespace Sys2Proof.Machine

@[simp] theorem State.resetRegs_kept (s : State) (aonKept : Bool) : Kept s (s.resetRegs aonKept) := by
  simp [Kept, State.resetRegs]
@[simp] theorem State.dropUncommitted_kept (s : State) : Kept s s.dropUncommitted := by
  simp [Kept, State.dropUncommitted]
@[simp] theorem State.showLeafRegs_kept (s : State) (n : Nat) : Kept s (State.showLeafRegs s n) := by
  simp [Kept, State.showLeafRegs]
@[simp] theorem State.showPeers_kept (s : State) (leaves : List Nat) : Kept s (State.showPeers s leaves) := by
  simp [Kept, State.showPeers]
@[simp] theorem State.loadTables_kept (s : State) (k : Working) : Kept s (State.loadTables s k) := by
  simp [Kept, State.loadTables]
@[simp] theorem State.loadRegs_kept (s : State) (k : Working) (pages : Nat → Bool) : Kept s (State.loadRegs s k pages) := by
  simp [Kept, State.loadRegs]
@[simp] theorem State.revertRecord_kept (k : Working) (s : State) (r : LedgerRecord) : Kept s (State.revertRecord k s r) := by
  unfold State.revertRecord
  dsimp only
  (repeat' split) <;> simp [Kept]
@[simp] theorem State.revertLost_kept (s : State) : Kept s (State.revertLost s) := by
  simp [Kept, State.revertLost]
@[simp] theorem State.restartSessions_kept (s : State) : Kept s s.restartSessions := by
  simp [Kept, State.restartSessions]
@[simp] theorem State.dropVoidDescs_kept (s : State) : Kept s s.dropVoidDescs := by
  simp [Kept, State.dropVoidDescs]
@[simp] theorem State.restartUpdate_kept (s : State) : Kept s s.restartUpdate := by
  simp [Kept, State.restartUpdate]
@[simp] theorem State.startFenced_kept (s : State) : Kept s s.startFenced := by
  simp [Kept, State.startFenced]
@[simp] theorem State.resetBlocks_kept (s : State) : Stored s s.resetBlocks := by
  simp [Stored, State.resetBlocks]
@[simp] theorem State.resetAon_kept (s : State) : Kept s s.resetAon := by
  simp [Kept, State.resetAon]
@[simp] theorem State.restoreLogbook_kept (s : State) : Kept s s.restoreLogbook := by
  unfold State.restoreLogbook
  (repeat' split) <;> simp [Kept]
@[simp] theorem State.restoreGroomer_kept (s : State) : Kept s s.restoreGroomer := by
  unfold State.restoreGroomer
  (repeat' split) <;> simp [Kept]
@[simp] theorem State.vigilLoss_kept (s : State) : Kept s s.vigilLoss := by
  simp [Kept, State.vigilLoss]
@[simp] theorem State.resetDomains_kept (s : State) : Kept s s.resetDomains := by
  simp [Kept, State.resetDomains]
@[simp] theorem State.restoreOffsets_kept (s : State) : Kept s s.restoreOffsets := by
  unfold State.restoreOffsets
  dsimp only
  (repeat' split) <;> simp [Kept]
@[simp] theorem State.performReset_kept (s : State) (kind : Nat) (src : Nat) : Stored s (s.performReset kind src) := by
  simp [Stored, State.performReset]
@[simp] theorem State.startReset_kept (s : State) (kind : Nat) (src : Nat) : Stored s (s.startReset kind src) := by
  simp [Stored, State.startReset]
@[simp] theorem effSysReset_kept (v : Word) (s : State) : Kept s (effSysReset v s).state := by
  simp [Kept, effSysReset]
@[simp] theorem effBlockReset_kept (page : Nat) (s : State) : Kept s (effBlockReset page s).state := by
  unfold effBlockReset
  (repeat' split) <;> simp [Kept]
@[simp] theorem State.loseBlock_kept (s : State) (b : Nat) : Kept s (s.loseBlock b) := by
  simp [Kept, State.loseBlock]
@[simp] theorem State.startVerdict_kept (s : State) (tests : List BlockTest) (b : Nat) : Kept s (s.startVerdict tests b) := by
  unfold State.startVerdict
  (repeat' split) <;> simp [Kept]
@[simp] theorem State.zeroizeKeys_kept (s : State) : Kept s s.zeroizeKeys := by
  simp [Kept, State.zeroizeKeys]
@[simp] theorem State.stepSupply_kept (s : State) : Kept s s.stepSupply := by
  simp [Kept, State.stepSupply]
@[simp] theorem State.countBoot_kept (s : State) (n : Nat) : Kept s (s.countBoot n) := by
  simp [Kept, State.countBoot]
@[simp] theorem State.startTrial_kept (s : State) : Kept s s.startTrial := by
  simp [Kept, State.startTrial]
@[simp] theorem State.noTrial_kept (s : State) : Kept s s.noTrial := by
  simp [Kept, State.noTrial]
@[simp] theorem State.dropTrial_kept (s : State) : Kept s s.dropTrial := by
  unfold State.dropTrial
  (repeat' split) <;> simp [Kept]
@[simp] theorem State.stepBoot_kept (s : State) (card : Option CardRx) : Kept s (s.stepBoot card) := by
  unfold State.stepBoot
  dsimp only
  (repeat' split) <;> simp [Kept]
@[simp] theorem State.takeTransition_kept (s : State) (n : LcNext) (intact : Bool) : Moved s (s.takeTransition n intact) := by
  unfold State.takeTransition
  (repeat' split) <;> simp [Moved]
@[simp] theorem State.settleHalf_kept (s : State) : Kept s s.settleHalf := by
  unfold State.settleHalf
  dsimp only
  (repeat' split) <;> simp [Kept]
@[simp] theorem State.stepKeeper_kept (s : State) (intact : Bool) : Moved s (s.stepKeeper intact) := by
  unfold State.stepKeeper
  have h : Moved s (match s.settleHalf.nv.next with | some n => s.settleHalf.takeTransition n intact | none => s.settleHalf) := by
    split <;> simp [Moved]
  dsimp only
  generalize (match s.settleHalf.nv.next with | some n => s.settleHalf.takeTransition n intact | none => s.settleHalf) = u at h ⊢
  simp only [Moved] at h
  (repeat' split) <;> simp [Moved, h]
@[simp] theorem State.stepTest_kept (s : State) (ms : Nat) (tests : List BlockTest) (queues : List (Fin 32)) : Stored s (s.stepTest ms tests queues) := by
  unfold State.stepTest
  dsimp only
  (repeat' split) <;> simp [Stored]
@[simp] theorem State.stepBank_kept (s : State) (cMeas : Nat) (vCell : Nat) : Kept s (s.stepBank cMeas vCell) := by
  simp [Kept, State.stepBank]
@[simp] theorem State.restoreWords_kept (s : State) : Kept s s.restoreWords := by
  simp [Kept, State.restoreWords]
@[simp] theorem State.eraseStale_kept (s : State) : Kept s s.eraseStale := by
  simp [Kept, State.eraseStale]
@[simp] theorem State.discardCommits_kept (s : State) (stop : Nat) : Kept s (State.discardCommits s stop) := by
  unfold State.discardCommits
  dsimp only
  (repeat' split) <;> simp [Kept]
@[simp] theorem State.rebuildRecords_kept (s : State) : Kept s s.rebuildRecords := by
  simp [Kept, State.rebuildRecords]
@[simp] theorem State.keepWorking_kept (s : State) : Kept s s.keepWorking := by
  simp [Kept, State.keepWorking]
@[simp] theorem State.formatStore_kept (s : State) : Kept s s.formatStore := by
  simp [Kept, State.formatStore]
@[simp] theorem State.openStore_kept (s : State) : Kept s s.openStore := by
  simp [Kept, State.openStore]
@[simp] theorem State.startPairing_kept (s : State) : Kept s s.startPairing := by
  simp [Kept, State.startPairing]
@[simp] theorem State.stopReplay_kept (s : State) (stop : Option (BitVec 64)) : Kept s (s.stopReplay stop) := by
  unfold State.stopReplay
  split <;> simp [Kept]
@[simp] theorem State.stepMount_kept (s : State) (readable : Bool) (stop : Option (BitVec 64)) (reads : List (BitVec 19 × StripeRead)) : Kept s (State.stepMount s readable stop reads) := by
  simp [Kept, State.stepMount]
@[simp] theorem State.stepPairing_kept (s : State) (link : Bool) : Kept s (s.stepPairing link) := by
  simp [Kept, State.stepPairing]
@[simp] theorem State.restartObligations_kept (s : State) : Kept s s.restartObligations := by
  simp [Kept, State.restartObligations]
@[simp] theorem State.pinOutage_kept (s : State) : Kept s s.pinOutage := by
  unfold State.pinOutage
  (repeat' split) <;> simp [Kept]
@[simp] theorem State.restoreBudgets_kept (s : State) : Kept s s.restoreBudgets := by
  simp [Kept, State.restoreBudgets]
@[simp] theorem State.partIntervals_kept (s : State) : Kept s s.partIntervals := by
  simp [Kept, State.partIntervals]
@[simp] theorem State.restoreLeases_kept (s : State) : Kept s s.restoreLeases := by
  unfold State.restoreLeases
  dsimp only
  (repeat' split) <;> simp [Kept]
@[simp] theorem State.revokeOutage_kept (s : State) : Kept s s.revokeOutage := by
  unfold State.revokeOutage
  (repeat' split) <;> simp [Kept]
@[simp] theorem State.processDue_kept (s : State) (fuel : Nat) : Kept s (s.processDue fuel) := by
  induction fuel generalizing s with
  | zero => simp [Kept, State.processDue]
  | succ fuel ih =>
    unfold State.processDue
    dsimp only
    (repeat' split) <;> simp [Kept, ih]
@[simp] theorem State.stepCatchUp_kept (s : State) : Kept s s.stepCatchUp := by
  simp [Kept, State.stepCatchUp]
@[simp] theorem State.stepField_kept (s : State) (ms : Nat) : Kept s (s.stepField ms) := by
  simp [Kept, State.stepField]
@[simp] theorem State.keepUndo_kept (s : State) (g : CommitGroup) : Kept s (State.keepUndo s g) := by
  simp [Kept, State.keepUndo]

@[simp] theorem State.applyDeltas_kept (s : State) (g : CommitGroup) : Kept s (s.applyDeltas g) := by
  simp [Kept, State.applyDeltas]
@[simp] theorem State.commitConfig_kept (s : State) (g : CommitGroup) : Kept s (s.commitConfig g) := by
  unfold State.commitConfig
  exact Kept.foldl _ (fun s a => by dsimp only; (repeat' split) <;> simp [Kept]) _ _
@[simp] theorem State.commitObligations_kept (s : State) (last : Nat) : Kept s (s.commitObligations last) := by
  simp [Kept, State.commitObligations]
@[simp] theorem State.sampleLatency_kept (s : State) (closedAt : Nat) : Kept s (s.sampleLatency closedAt) := by
  simp [Kept, State.sampleLatency]
@[simp] theorem State.powerDown_kept (s : State) (hold : Nat) : Kept s (s.powerDown hold) := by
  simp [Kept, State.powerDown]
@[simp] theorem State.unshed_kept (s : State) : Kept s s.unshed := by
  simp [Kept, State.unshed]
@[simp] theorem State.markResumed_kept (s : State) : Kept s s.markResumed := by
  simp [Kept, State.markResumed]
@[simp] theorem State.resumeStore_kept (s : State) : Kept s s.resumeStore := by
  simp [Kept, State.resumeStore]
@[simp] theorem State.afterPark_kept (s : State) (first : Nat) (supplied : Bool) : Stored s (s.afterPark first supplied) := by
  unfold State.afterPark
  dsimp only
  (repeat' split) <;> simp [Stored]
@[simp] theorem State.park_kept (s : State) (first : Nat) (supplied : Bool) : Stored s (s.park first supplied) := by
  simp [Stored, State.park]
@[simp] theorem State.settleGroup_kept (s : State) (g : CommitGroup) (rest : List CommitGroup) : Kept s (s.settleGroup g rest) := by
  simp [Kept, State.settleGroup]
@[simp] theorem State.endGroup_kept (s : State) (g : CommitGroup) (supplied : Bool) : Stored s (s.endGroup g supplied) := by
  simp [Stored, State.endGroup]
@[simp] theorem State.completeGroup_kept (s : State) (g : CommitGroup) (rest : List CommitGroup) (supplied : Bool) : Stored s (s.completeGroup g rest supplied) := by
  simp [Stored, State.completeGroup]
@[simp] theorem State.checkpointData_kept (s : State) : Kept s s.checkpointData := by
  simp [Kept, State.checkpointData]
@[simp] theorem State.startCheckpoint_kept (s : State) : Kept s s.startCheckpoint := by
  simp [Kept, State.startCheckpoint]

@[simp] theorem State.zeroizeBlock_kept (s : State) (b : Nat) : Kept s (s.zeroizeBlock b) := by
  simp [Kept, State.zeroizeBlock]
@[simp] theorem State.slicePass_kept (s : State) (b : Nat) : Kept s (s.slicePass b) := by
  simp [Kept, State.slicePass]
@[simp] theorem State.loseQueues_kept (s : State) (l : List Nat) : Kept s (s.loseQueues l) := by
  simp [Kept, State.loseQueues]
@[simp] theorem State.blockFails_kept (s : State) (b : Nat) (queues : List (Fin 32)) : Stored s (s.blockFails b queues) := by
  simp [Stored, State.blockFails]
@[simp] theorem State.scheduleSlice_kept (s : State) : Kept s (State.scheduleSlice s) := by
  unfold State.scheduleSlice
  dsimp only
  (repeat' split) <;> simp [Kept]
@[simp] theorem State.sliceDone_kept (s : State) (b : Nat) : Kept s (State.sliceDone s b) := by
  simp [Kept, State.sliceDone]
@[simp] theorem effScanCtl_kept (v : Word) (s : State) : Kept s (effScanCtl v s).state := by
  simp [Kept, effScanCtl]

@[simp] theorem State.cycleSamples_kept (s : State) : Kept s s.cycleSamples := by
  unfold State.cycleSamples
  dsimp only
  (repeat' split) <;> simp [Kept]
@[simp] theorem State.countIdle_kept (s : State) (busy : Nat) : Kept s (s.countIdle busy) := by
  simp [Kept, State.countIdle]
@[simp] theorem State.dueResets_kept (s : State) : Stored s s.dueResets := by
  unfold State.dueResets
  dsimp only
  (repeat' split) <;> simp [Stored]
@[simp] theorem State.resumeAccepting_kept (s : State) : Kept s s.resumeAccepting := by
  simp [Kept, State.resumeAccepting]
@[simp] theorem State.slewPtp_kept (s : State) : Kept s (State.slewPtp s) := by
  simp [Kept, State.slewPtp]

@[simp] theorem State.readClock_kept (s : State) : Kept s (s.readClock).1 := by
  simp [Kept, State.readClock]
@[simp] theorem State.readSweep_kept (s : State) (p : Path) (k : Nat) : Kept s (s.readSweep p k).1 := by
  simp [Kept, State.readSweep]
@[simp] theorem State.readLift_kept (s : State) (p : Path) (g : Nat) (off : Nat) : Kept s (State.readLift s p g off).1 := by
  simp [Kept, State.readLift]
@[simp] theorem State.readFcac_kept (s : State) (p : Path) (k : Nat) : Kept s (s.readFcac p k).1 := by
  simp [Kept, State.readFcac]
@[simp] theorem State.readFca_kept (s : State) (l : Nat) (off : Nat) : Kept s (s.readFca l off).1 := by
  simp [Kept, State.readFca]
@[simp] theorem State.readBill_kept (s : State) (p : Path) (k : Nat) : Kept s (s.readBill p k).1 := by
  simp [Kept, State.readBill]
@[simp] theorem State.readCred_kept (s : State) (p : Path) (k : Nat) : Kept s (s.readCred p k).1 := by
  simp [Kept, State.readCred]
@[simp] theorem State.readLedg_kept (s : State) (p : Path) (k : Nat) : Kept s (s.readLedg p k).1 := by
  simp [Kept, State.readLedg]
@[simp] theorem State.readKeep_kept (s : State) (k : Nat) : Kept s (s.readKeep k).1 := by
  simp [Kept, State.readKeep]
@[simp] theorem State.readMerk_kept (s : State) (p : Path) (k : Nat) : Kept s (s.readMerk p k).1 := by
  simp [Kept, State.readMerk]
@[simp] theorem State.readBist_kept (s : State) (p : Path) (k : Nat) : Kept s (s.readBist p k).1 := by
  simp [Kept, State.readBist]
@[simp] theorem State.readReg_kept (s : State) (p : Path) (page : Nat) (off : Nat) : Kept s (s.readReg p page off).1 := by
  simp [Kept, State.readReg]
@[simp] theorem State.readAny_kept (s : State) (p : Path) (page : Nat) (off : Nat) : Kept s (s.readAny p page off).1 := by
  simp [Kept, State.readAny]

@[simp] theorem effIfsel_kept (page : Nat) (v : Word) (s : State) : Kept s (effIfsel page v s).state := by
  simp [Kept, effIfsel]
@[simp] theorem effEvRaw_kept (page : Nat) (v : Word) (s : State) : Kept s (effEvRaw page v s).state := by
  simp [Kept, effEvRaw]
@[simp] theorem State.holdDb_kept (s : State) : Kept s s.holdDb := by
  simp [Kept, State.holdDb]
@[simp] theorem effEvPend_kept (page : Nat) (v : Word) (s : State) : Kept s (effEvPend page v s).state := by
  simp [Kept, effEvPend]
@[simp] theorem effEvEnSet_kept (page : Nat) (v : Word) (s : State) : Kept s (effEvEnSet page v s).state := by
  simp [Kept, effEvEnSet]
@[simp] theorem effEvEnClr_kept (page : Nat) (v : Word) (s : State) : Kept s (effEvEnClr page v s).state := by
  simp [Kept, effEvEnClr]
@[simp] theorem effErrcap_kept (page : Nat) (v : Word) (s : State) : Kept s (effErrcap page v s).state := by
  simp [Kept, effErrcap]
@[simp] theorem effLaneEn_kept (v : Word) (s : State) : Kept s (effLaneEn v s).state := by
  simp [Kept, effLaneEn]
@[simp] theorem effEnable_kept (page : Nat) (on : Bool) (s : State) : Kept s (effEnable page on s).state := by
  unfold effEnable
  (repeat' split) <;> simp [Kept]
@[simp] theorem State.freezeBy_kept (s : State) (page : Nat) (on : Bool) : Kept s (s.freezeBy page on) := by
  simp [Kept, State.freezeBy]
theorem WriteResult.thenReset_kept (r : WriteResult) (page : Nat) (on : Bool) : Kept r.state (r.thenReset page on).state := by
  cases r with
  | done u => cases on <;> simp [Kept, WriteResult.thenReset]
  | ignored u => simp [Kept, WriteResult.thenReset]
  | discard u c => simp [Kept, WriteResult.thenReset]
@[simp] theorem effCtrl_kept (page : Nat) (v : Word) (s : State) : Kept s (effCtrl page v s).state := by
  unfold effCtrl
  refine Kept.trans ?_ (WriteResult.thenReset_kept _ _ _)
  simp [Kept]
@[simp] theorem effHeader_kept (page : Nat) (off : Nat) (v : Word) (s : State) : Kept s (effHeader page off v s).state := by
  simp [Kept, effHeader]
@[simp] theorem effRoleNext_kept (v : Word) (s : State) : Kept s (effRoleNext v s).state := by
  simp [Kept, effRoleNext]
@[simp] theorem effResend_kept (hi : Bool) (v : Word) (s : State) : Kept s (effResend hi v s).state := by
  simp [Kept, effResend]
@[simp] theorem effCounterClear_kept (page : Nat) (counters : List Nat) (v : Word) (s : State) : Kept s (effCounterClear page counters v s).state := by
  simp [Kept, effCounterClear]
@[simp] theorem effPtpCfg_kept (v : Word) (s : State) : Kept s (effPtpCfg v s).state := by
  simp [Kept, effPtpCfg]
@[simp] theorem effEthCfg_kept (i : Nat) (v : Word) (s : State) : Kept s (effEthCfg i v s).state := by
  simp [Kept, effEthCfg]
@[simp] theorem effMarkCtl_kept (n : Nat) (v : Word) (s : State) : Kept s (effMarkCtl n v s).state := by
  unfold effMarkCtl
  dsimp only
  (repeat' split) <;> simp [Kept]
@[simp] theorem effTimePages_kept (p : Path) (k : Nat) (v : Word) (s : State) : Stored s (effTimePages p k v s).state := by
  simp [Stored, effTimePages]
@[simp] theorem effFieldPages_kept (k : Nat) (page : Nat) (off : Nat) (v : Word) (s : State) : Kept s (effFieldPages k page off v s).state := by
  simp [Kept, effFieldPages]
@[simp] theorem effMeterPages_kept (k : Nat) (page : Nat) (off : Nat) (v : Word) (s : State) : Kept s (effMeterPages k page off v s).state := by
  simp [Kept, effMeterPages]
@[simp] theorem effStorePages_kept (p : Path) (k : Nat) (page : Nat) (off : Nat) (v : Word) (s : State) : Stored s (effStorePages p k page off v s).state := by
  simp [Stored, effStorePages]
@[simp] theorem effLinkPages_kept (k : Nat) (page : Nat) (off : Nat) (v : Word) (s : State) : Kept s (effLinkPages k page off v s).state := by
  simp [Kept, effLinkPages]
@[simp] theorem effWrite_kept (p : Path) (page : Nat) (off : Nat) (v : Word) (s : State) : Stored s (effWrite p page off v s).state := by
  unfold effWrite
  (repeat' split) <;> simp [Stored]
@[simp] theorem State.writeAny_kept (s : State) (p : Path) (page : Nat) (off : Nat) (v : Word) : Stored s (s.writeAny p page off v) := by
  simp [Stored, State.writeAny]

@[simp] theorem State.tunnelOp_kept (s : State) (peer : Nat) (sid : Nat) (op : List Byte) : Stored s (State.tunnelOp s peer sid op).1 := by
  simp [Stored, State.tunnelOp]
@[simp] theorem State.tunnelNext_kept (s : State) (peer : Nat) (sid : Nat) (op : List Byte) (ans : List Byte) : Stored s (State.tunnelNext s peer sid op ans).1 := by
  simp [Stored, State.tunnelNext]
@[simp] theorem State.tunnelRun_kept (s : State) (peer : Nat) (sid : Nat) (most : Nat) (body : List Byte) : Stored s (State.tunnelRun s peer sid most body).1 := by
  refine Stored.foldlFst _ (fun r o => ?_) _ _
  split <;> simp [Stored]
@[simp] theorem State.runReg_kept (s : State) (r : KfpRx) (x : Session) (body : List Byte) : Stored s (s.runReg r x body) := by
  simp [Stored, State.runReg]
@[simp] theorem State.repeatReg_kept (s : State) (r : KfpRx) : Kept s (s.repeatReg r) := by
  unfold State.repeatReg
  (repeat' split) <;> simp [Kept]
@[simp] theorem State.svcStep_kept (s : State) : Kept s s.svcStep := by
  simp [Kept, State.svcStep]

end Sys2Proof.Machine
end

