-- ==== Sys2Proof/Laws/Memory.lean ====
section
/-!
SUPPORT. The BAR2 window: every operation that stores octets keeps its canonical form.
-/

namespace Sys2Proof.Machine

@[simp] theorem memWf_ite (c : Prop) [Decidable c] (a b : List Host.Cell) : memWf (if c then a else b) = if c then memWf a else memWf b := apply_ite ..
@[simp] theorem foldl_canon {α : Type} (f : State → α → State) (hf : ∀ s a, memWf s.mem = true → memWf (f s a).mem = true) (s : State) (l : List α)
    (h : memWf s.mem = true) : memWf (l.foldl f s).mem = true := by
  induction l generalizing s with
  | nil => simpa using h
  | cons a l ih => simpa using ih _ (hf s a h)
theorem foldlFst_canon {α γ : Type} (f : State × γ → α → State × γ) (hf : ∀ r a, memWf r.1.mem = true → memWf (f r a).1.mem = true) (r : State × γ) (l : List α)
    (h : memWf r.1.mem = true) : memWf (l.foldl f r).1.mem = true := by
  induction l generalizing r with
  | nil => simpa using h
  | cons a l ih => simpa using ih _ (hf r a h)
@[simp] theorem State.resetBlocks_canon (s : State) (h : memWf s.mem = true) : memWf ((State.resetBlocks s)).mem = true := by
  simp +contextual [State.resetBlocks, h, memWf]
@[simp] theorem State.stepTest_canon (s : State) (ms : Nat) (tests : List BlockTest) (queues : List (Fin 32)) (h : memWf s.mem = true) : memWf ((State.stepTest s ms tests queues)).mem = true := by
  unfold State.stepTest
  dsimp only
  (repeat' split) <;> simp +contextual [h, memWf]
theorem memSet_wf (m : List Host.Cell) (i : Nat) (v : Byte) (hi : i < 0x2000000) (h : memWf m = true) : memWf (memSet m i v) = true := by
  have hv0 : v ≠ 0 → ¬v = 0#8 := fun h => h
  have key : ∀ (m : List Host.Cell), memWf m = true → memWf (memSet m i v) = true ∧
      ∀ a, a < i → (match m with | [] => true | (a', _) :: _ => decide (a < a')) = true →
        (match memSet m i v with | [] => true | (a', _) :: _ => decide (a < a')) = true := by
    intro m
    induction m with
    | nil =>
      intro _
      by_cases hv : v = 0
      · simp [memSet, memWf, hv]
      · rw [memSet, if_neg hv]; simp +contextual [memWf, hi, hv0 hv]
    | cons c m ih =>
      obtain ⟨a, b⟩ := c
      intro hm
      simp only [memWf, Bool.and_eq_true, decide_eq_true_eq] at hm
      obtain ⟨⟨⟨ha, hb⟩, hlt⟩, hw⟩ := hm
      obtain ⟨w1, w2⟩ := ih hw
      simp only [memSet]
      by_cases h1 : i < a
      · by_cases hv : v = 0
        · have hb0 : ¬b = 0#8 := hb
          simp +contextual [h1, hv, memWf, ha, hb0, hlt, hw]
        · have hb0 : ¬b = 0#8 := hb
          rw [if_pos h1, if_neg hv]; simp +contextual [memWf, h1, hv0 hv, ha, hb0, hlt, hw, hi]
      · by_cases h2 : i = a
        · subst h2
          by_cases hv : v = 0
          · rw [if_neg h1, if_pos rfl, if_pos hv]
            refine ⟨hw, fun x hx hx' => ?_⟩
            cases m with
            | nil => rfl
            | cons c m => simp only [decide_eq_true_eq] at hlt ⊢; omega
          · rw [if_neg h1, if_pos rfl, if_neg hv]; simp +contextual [memWf, hv0 hv, ha, hlt, hw]
        · simp only [h1, h2, if_false]
          refine ⟨?_, fun x hx hx' => hx'⟩
          simp only [memWf, Bool.and_eq_true, decide_eq_true_eq]
          exact ⟨⟨⟨ha, hb⟩, w2 a (by omega) hlt⟩, w1⟩
  exact (key m h).1
@[simp] theorem State.store8_canon (s : State) (a : Nat) (b : Byte) (h : memWf s.mem = true) : memWf (s.store8 a b).mem = true := by
  unfold State.store8
  split
  · exact memSet_wf _ _ _ (by assumption) h
  · exact h
@[simp] theorem State.performReset_canon (s : State) (kind : Nat) (src : Nat) (h : memWf s.mem = true) : memWf ((State.performReset s kind src)).mem = true := by
  simp +contextual [State.performReset, h]
@[simp] theorem State.startReset_canon (s : State) (kind : Nat) (src : Nat) (h : memWf s.mem = true) : memWf ((State.startReset s kind src)).mem = true := by
  simp +contextual [State.startReset, h]
@[simp] theorem State.store_canon (s : State) (a : Nat) (bs : List Byte) (h : memWf s.mem = true) : memWf (s.store a bs).mem = true := by
  induction bs generalizing s a with
  | nil => simpa [State.store] using h
  | cons b bs ih => simp [State.store, ih, h]
@[simp] theorem effRdGo_canon (reads : List (BitVec 19 × StripeRead)) (v : Word) (s : State) (h : memWf s.mem = true) :
    memWf (effRdGo reads v s).state.mem = true := by
  simp +contextual [effRdGo, h]
@[simp] theorem effReqGo_canon (v : Word) (img : List Byte) (s : State) (h : memWf s.mem = true) : memWf ((effReqGo v img s).state).mem = true := by
  simp +contextual [effReqGo, h]
@[simp] theorem effTimePages_canon (p : Path) (k : Nat) (v : Word) (s : State) (h : memWf s.mem = true) : memWf (effTimePages p k v s).state.mem = true := by
  unfold effTimePages
  (repeat' split) <;> first | exact effReqGo_canon _ _ _ h | simp [h]
@[simp] theorem State.afterPark_canon (s : State) (first : Nat) (supplied : Bool) (h : memWf s.mem = true) : memWf ((State.afterPark s first supplied)).mem = true := by
  unfold State.afterPark
  dsimp only
  (repeat' split) <;> simp +contextual [h]
@[simp] theorem State.blockFails_canon (s : State) (b : Nat) (queues : List (Fin 32)) (h : memWf s.mem = true) : memWf (s.blockFails b queues).mem = true := by
  simp +contextual [State.blockFails, h]
@[simp] theorem State.dueResets_canon (s : State) (h : memWf s.mem = true) : memWf ((State.dueResets s)).mem = true := by
  unfold State.dueResets
  dsimp only
  (repeat' split) <;> simp +contextual [h]
@[simp] theorem State.endJob_canon (s : State) (e : Nat) (x : CryptoJob) (j : Job) (r : JobResult) (h : memWf s.mem = true) : memWf (s.endJob e x j r).mem = true := by
  have a : memWf (r.also.foldl (fun (s : State) a => s.store a.1 a.2) (s.store (j.word 0x10) r.dst)).mem = true :=
    foldl_canon _ (fun s a hs => by simp [hs]) _ _ (by simp [h])
  unfold State.endJob
  dsimp only
  (repeat' split) <;> simp [a]
@[simp] theorem State.frameToHost_canon (s : State) (i : Nat) (frame : List Byte) (mac : Nat) (h : memWf s.mem = true) : memWf ((State.frameToHost s i frame mac)).mem = true := by
  simp +contextual [State.frameToHost, h]
@[simp] theorem State.markReread_canon (s : State) (e : Nat) (h : memWf s.mem = true) : memWf ((State.markReread s e)).mem = true := by
  simp +contextual [State.markReread, h]
@[simp] theorem State.park_canon (s : State) (first : Nat) (supplied : Bool) (h : memWf s.mem = true) : memWf ((State.park s first supplied)).mem = true := by
  simp +contextual [State.park, h]
@[simp] theorem State.startJobs_canon (s : State) (e : Nat) (n : Nat) (h : memWf s.mem = true) : memWf (s.startJobs e n).mem = true := by
  induction n generalizing s with
  | zero => simp [State.startJobs, h]
  | succ n ih =>
    unfold State.startJobs
    dsimp only
    split
    · simp [h]
    · refine ih _ ?_
      simp [h]
@[simp] theorem State.stopJobs_canon (s : State) (code : Nat) (h : memWf s.mem = true) : memWf (s.stopJobs code).mem = true := by
  unfold State.stopJobs
  exact foldl_canon _ (fun s a hs => foldl_canon _ (fun s a hs => by simp [hs]) _ _ hs) _ _ h
@[simp] theorem effJrWr_canon (e : Nat) (v : Word) (s : State) (h : memWf s.mem = true) : memWf ((effJrWr e v s).state).mem = true := by
  simp +contextual [effJrWr, h]
@[simp] theorem effStorePages_canon (p : Path) (k page off : Nat) (v : Word) (s : State) (h : memWf s.mem = true) : memWf (effStorePages p k page off v s).state.mem = true := by
  unfold effStorePages
  (repeat' split) <;> first | exact effJrWr_canon _ _ _ h  | exact effRdGo_canon _ _ _ h | simp [h]
@[simp] theorem effWrite_canon (p : Path) (page : Nat) (off : Nat) (v : Word) (s : State) (h : memWf s.mem = true) : memWf ((effWrite p page off v s).state).mem = true := by
  unfold effWrite
  dsimp only
  (repeat' split) <;> simp +contextual [h]
@[simp] theorem State.endGroup_canon (s : State) (g : CommitGroup) (supplied : Bool) (h : memWf s.mem = true) : memWf (s.endGroup g supplied).mem = true := by
  unfold State.endGroup
  split <;> simp [h]
@[simp] theorem State.completeGroup_canon (s : State) (g : CommitGroup) (rest : List CommitGroup) (supplied : Bool) (h : memWf s.mem = true) : memWf ((State.completeGroup s g rest supplied)).mem = true := by
  exact State.endGroup_canon _ _ _ (by rw [(State.settleGroup_kept s g rest).2.1]; exact h)
@[simp] theorem State.resumeEngines_canon (s : State) (h : memWf s.mem = true) : memWf ((State.resumeEngines s)).mem = true := by
  simp +contextual [State.resumeEngines, h]
theorem State.hostWrite_canon (s : State) (p : Path) (page off : Nat) (eff : State → WriteResult)
    (hf : ∀ s, memWf s.mem = true → memWf (eff s).state.mem = true) (h : memWf s.mem = true) : memWf (s.hostWrite p page off eff).mem = true := by
  have k := State.gate_kept s p page off true
  unfold State.hostWrite
  split <;> rename_i s' e <;> rw [e] at k <;> simp [Gate.state] at k
  · rw [k.2.1]; exact h
  · have q := (State.finish_kept p page off (eff s')).2.1
    rw [q]; exact hf _ (by rw [k.2.1]; exact h)
@[simp] theorem State.writeAny_canon (s : State) (p : Path) (page off : Nat) (v : Word) (h : memWf s.mem = true) : memWf (s.writeAny p page off v).mem = true := by
  unfold State.writeAny
  (repeat' split) <;> first | exact State.hostWrite_canon _ _ _ _ _ (fun s hs => by simp [hs]) h | simp [h]
@[simp] theorem State.tunnelOp_canon (s : State) (peer sid : Nat) (op : List Byte) (h : memWf s.mem = true) : memWf ((State.tunnelOp s peer sid op).1).mem = true := by
  simp +contextual [State.tunnelOp, h]
@[simp] theorem State.tunnelNext_canon (s : State) (peer sid : Nat) (op ans : List Byte) (h : memWf s.mem = true) : memWf ((State.tunnelNext s peer sid op ans).1).mem = true := by
  simp +contextual [State.tunnelNext, h]
@[simp] theorem State.tunnelRun_canon (s : State) (peer sid most : Nat) (body : List Byte) (h : memWf s.mem = true) : memWf (s.tunnelRun peer sid most body).1.mem = true := by
  refine foldlFst_canon _ (fun r o hr => ?_) _ _ h
  split <;> simp [hr]
@[simp] theorem State.runReg_canon (s : State) (r : KfpRx) (x : Session) (body : List Byte) (h : memWf s.mem = true) : memWf ((State.runReg s r x body)).mem = true := by
  simp +contextual [State.runReg, h]

end Sys2Proof.Machine
end

