-- ==== Sys2Proof/WellFormed.lean ====
section
/-!
DEFINITION. Which commands are well formed: the ranges of operands whose types are wider than what the spec lets the
outside deliver.
-/

namespace Sys2Proof

/-- A join request comes on medium 1 (line) or 2 (air), on a lane that the medium has, with a 64-bit serial (Tables 4.2
and 5.5). -/
def JoinRequest.wellFormed (j : JoinRequest) : Bool :=
  (j.medium == 1 && decide (j.lane < 6) || j.medium == 2 && decide (j.lane < 2)) && decide (j.serial < 2 ^ 64) &&
    decide (j.range < 256)

/-- A line frame has at most 400 payload octets, the longest LEN that is valid (R61), and 560 samples in a symbol at most (R66). -/
def LineRx.wellFormed (rx : LineRx) : Bool :=
  decide (rx.payload.length ≤ 400) && rx.syms.all (fun x => decide (x.1.length ≤ 560))

/-- An air frame carries an 8-octet extended address and a KAP payload of at most 2,047 octets (R95). -/
def AirRx.wellFormed (rx : AirRx) : Bool := decide (rx.ext < 2 ^ 64) && decide (rx.kap.length ≤ 2047)

/-- A pilot's correlation lies in 0 to 256 units of 1/256, its rotation in 0 to 15 units of π/8 (R91, R93). -/
def PilotRx.wellFormed (rx : PilotRx) : Bool := decide (rx.corr ≤ 256) && decide (rx.rot < 16)

/-- The well-formed commands. -/
def Instr.wellFormed (i : Instr) : Bool :=
  match i with
  | .jreq _ j => j.wellFormed
  | .lineFrameReceived _ _ _ rx => rx.wellFormed
  | .pilotWindow _ (some rx) => rx.wellFormed
  | .airFrameReceived _ _ rx => rx.wellFormed
  | _ => true

end Sys2Proof
end

