-- ==== Sys2Proof/Tests/Slice0.lean ====
section
/-!
SUPPORT. The model's own tests: ill-formed commands that the check refuses, single steps whose results the spec gives, and for every
statement a state and operands that meet its hypotheses.
-/

set_option linter.unusedVariables false
set_option Elab.async false

namespace Sys2Proof.Machine.Wit
open Sys2Proof Sys2Proof.Machine

/-- A module in service: locked, every start-up step ended, life-cycle state FIELD, the store running. -/
def run : State :=
  (((({ State.reset with
      now := 100 * 65536 + 0x1000
      nv := { State.reset.nv with lc := 3, role := 1 }
      boot := { State.reset.boot with done := [10, 9, 8, 7, 6, 5, 4, 3, 2, 1] }
      led := { State.reset.led with formatted := true } } : State).setFld Reg.SWEEP_LOCKSTAT 2 0 2).setFld Reg.LEDG_STAT 31 29 1).setFld
    Reg.SYS_BOOTSTAT 3 0 11)

/-- The module with a store of one superblock and every domain off that the shutdown commit does not need. -/
def runSmall : State := ((List.range 25).filter (fun d => !commitDomain d)).foldl (fun (s : State) d => s.setDom d 3)
  { run with led := { run.led with sbTotal := 1 } }

/-- The module with another cycle, and with a node. -/
def at' (s : State) (cycle : Nat) : State := { s with now := cycle * 65536 }
def withNode (s : State) (id : Nat) (n : Node) : State := { s with field := { s.field with nodes := s.field.nodes.put id n } }
/-- The module long after power-up. -/
def aged (s : State) : State := { s with sweep := { s.sweep with uptime := 10 ^ 18 } }

/-- An exchange of node 5. -/
def exch : Exchange := { node := 5, obl := none, isCmd := false, seq := 9, first := 100, last := 110, txLast := 102, work := 0 }
def withExch (s : State) (r : Nat) (x : Exchange) : State := { s with field := { s.field with exch := s.field.exch.put r x } }

/-- Node 5 in a join, its presence secret in slot 9. -/
def keyed : State :=
  withNode ({ run.setFld Reg.LINEC_BANDCFG 1 0 1 with nv := { run.nv with slots := [(9, { attr := 0x4480, key := 1 })] } }) 5
    { state := 2, serial := 77, keyslot := 9, join := some { cycle := 90, ver := 1, lane := 0, challenge := 3 } }

/-- The module with band plan CEN-A, with a poll of node 5 that is admitted for line lane 0, and with region EU868. -/
def line : State := run.setFld Reg.LINEC_BANDCFG 1 0 1
def lineWork : State :=
  { withNode (at' line 100) 5 { state := 3, medium := 1, lane := 0 } with
    slalom := { calendar := [(5, { cls := 0, deadline := 20000000, node := 5, field := true })] } }
def air : State := run.setFld Reg.AIRC_REGCFG 1 0 1

/-- Node 5 on air lane 0 with a session, a lease, a rendezvous and its frame counter, and an obligation that polls it. -/
def airNode : Node :=
  { state := 3, medium := 2, lane := 0, ver := 2, session := true, leaseEnd := some 1000000000000000, rdv := (10, 0, 0) }
def airOn : State :=
  { (withNode (at' air 100) 5 airNode).setTxKey (nodeKey 5) { blocks := 1 } with
    slalom := { calendar := [(5, { cls := 0, deadline := 20000000, node := 5, field := true })] } }

/-- Loop 0 in a state of its source, which is enabled. -/
def loop (state : Nat) : State := (run.setFlag (Reg.LOOP_SUPCFG 0) 0 true).setFld (Reg.LOOP_SUPSTAT 0) 31 29 state

/-- Node 5 at address 2 of loop 0, which is ON. -/
def loopOn (state : Nat) : State :=
  (withNode (loop 3) 5 { state := state, medium := 3, lane := 0, addr := 2, serial := 77, keyslot := 9 }).setReg (Reg.LOOP_ADDR_CFG 0 2) 0x80000005
/-- The same with the node's secret in slot 9 and a challenge under way. -/
def loopKeyed : State :=
  { loopOn 1 with
    nv := { run.nv with slots := [(9, { attr := 0x4480, key := 1 })] }
    field := { (loopOn 1).field with idents := [(2, 3)] } }

/-- Queue 3 with its contents, enabled for the source. -/
def lift (src : Nat) (q : LiftQueue) : State :=
  { run.setReg (queueReg Reg.LIFT_Q_QCFG 3) (0x80000000 + src * 256) with lift := { queues := [(3, q)] } }

/-- Flow lane 0 LIVE, with energy to spare, and a pulse descriptor for channel 0. -/
def flow : State := ((run.setFld (Reg.FCA_LCFG 0) 1 0 1).setFld Reg.SLALOM_E_USABLE 15 0 2050).setFld Reg.LEDG_STAT 31 29 1
def desc : Nat := 0x10600000 + 2 ^ 32 + 2 ^ 160 * 0x100000 + 2 ^ 320

/-- A lane with two slots in its ring. -/
def ring : LaneRec := { head := 5, next := 7, ring := [(5, { words := [1, 2, 3, 4, 5, 6, 7, 8] }), (6, { words := [9] })] }
def withLane (s : State) (l : Nat) (x : LaneRec) : State := { s with fca := { s.fca with lanes := [(l, x)] } }

/-- The descriptor in the staging registers. -/
def descStaged : State :=
  (((flow.setReg Reg.FCAC_DW_D0 0x10600000).setReg (Reg.FCAC_DW_D0 + 4) 1).setReg (Reg.FCAC_DW_D0 + 20) 0x100000).setReg (Reg.FCAC_DW_D0 + 40) 1

/-- A graph of two meters, of channels 0 and 1, and one edge of zone 0; the channels count pulses. -/
def graphImage : List Byte :=
  leBytes 4 0x4B424752 ++ leBytes 2 1 ++ leBytes 2 1 ++ leBytes 4 2 ++ leBytes 4 1 ++ zeros 48 ++
    leBytes 4 0x40000000 ++ zeros 12 ++ leBytes 8 0x3FF0000000000000 ++ zeros 8 ++
    leBytes 4 0x40000001 ++ zeros 12 ++ leBytes 8 0x3FF0000000000000 ++ zeros 8 ++ leBytes 2 0 ++ leBytes 2 1 ++ zeros 36
def graphReady : State :=
  (({ flow with
      fca := { live := [(0, [{ eff := 0, raw := desc }]), (1, [{ eff := 0, raw := desc + 1 }])] }
      balance := { slots := [(0, 0x11)] } } : State).setReg Reg.BALG_GIMG_LEN 168).setReg Reg.BALG_GEFF_LO 10000000

/-- Zone 3 with one window that has ended. -/
def zoneDef : ZoneDef := { cfg := 0x11, members := [], slots := [], volumes := [], losses := [], edges := [], corr := [] }
def window : Window := { start := 0, stop := 65536, num := 1, params := [], ambients := [], defn := zoneDef }
def zone3 : Zone := { gen := 1, defn := zoneDef, params := [], ambients := [], start := 65536, wnum := 1, ended := [window] }
def withZone (s : State) : State := { s with balance := { s.balance with zones := [(3, zone3)] } }

/-- Program 3 with one day profile and one season, in force from the first day of 2030. -/
def program : List Byte :=
  leBytes 4 0x4B545250 ++ leBytes 2 1 ++ leBytes 2 3 ++ leBytes 2 1 ++ [1, 1, 0, 0, 0, 0] ++ zeros 4 ++ [1, 1] ++ leBytes 2 2030 ++
    zeros 8 ++ leBytes 4 0x8000 ++ zeros 60 ++ [1, 1] ++ zeros 10
def programReady : State :=
  { (run.setFld Reg.SWEEP_CIVSTAT 1 0 1).setReg Reg.TARIF_PIMG_LEN 108 with
    sweep := { zones := [{ eff := 0, taiUtc := 0, localUtc := 0 }], zvalid := 1000000000000 } }
def withProgram (p : Program) : State := { flow with billing := { programs := [(3, p)] } }

/-- Channel 0 with a table entry. -/
def chan (c : BillChan) : State := { run with billing := { chans := [(0, c)] } }

/-- The store with its first record in the open group, and with a group under way. -/
def rec1 : LedgerRecord := { cls := 1, payload := [1, 2, 3], charged := false, time := 0 }
def store : State := { at' flow 40000 with led := { flow.led with recs := [(1, rec1)], nextRsn := 2, sbTotal := 1 } }
def group (stripes : List Nat) : CommitGroup := { csn := 7, first := 1, last := 3, closedAt := 0, stripes := stripes }
def withGroup (stripes : List Nat) : State := { flow with led := { flow.led with groups := [group stripes] } }
def withSb (s : State) (n : Nat) (x : Superblock) : State := { s with led := { s.led with sbs := [(n, x)] } }

/-- A closed superblock whose data are to be refreshed, and the head of the rebuild list in a phase. -/
def refreshing : State :=
  { withSb flow 1 { phase := 2 } with led := { (withSb flow 1 { phase := 2 }).led with refresh := [1] } }
def rebuilding (phase : Nat) : State :=
  { withSb flow 1 { phase := phase } with led := { (withSb flow 1 { phase := phase }).led with rebuild := [1] } }

/-- The Groomer over the pages of a map. -/
def grooming (map : List (Nat × Nat)) : State :=
  { flow.setFlag Reg.GROOM_CFG 0 true with led := { flow.led with map := map } }

/-- The Groomer at a position of its pass over a store of one stripe. -/
def groom (pos : Nat) : State :=
  { (flow.setFlag Reg.GROOM_CFG 0 true).setReg Reg.GROOM_PASS_POS pos with led := { flow.led with map := [(5, 256)] } }

/-- Batch 4 of record 1. -/
def batch : Batch := { num := 4, recs := [1], closedAt := 0, root := 0 }

/-- A drive pulse of output 2 that has run its time. -/
def pulse : State := { run with interlock := { pulse := some { output := 2, on := true } } }
def waits (second : Bool) : State :=
  { run with interlock := { outputs := [(2, { cmd := some { output := 2, on := true }, since := some 50, second := second })] } }

/-- ETH0 up, and PTP on it. -/
def eth : State := ((run.setFlag (Reg.ETH_CFG 0) 0 true).setFlag (Reg.ETH_STAT 0) 31 true).setReg Reg.PTP_CFG 0x01000001

/-- Peer 256, a hub that this module calls, and peer 260, a host with full rights; slot 0 holds the identity. -/
def hub : Peer := { w0 := 0x80008000, hash := 0 }
def host : Peer := { w0 := 0x82000000, hash := 0 }
def kfp : State :=
  { (flow.setReg (bankKey 260 Reg.FEED_PEER_W0) 0x82000000) with
    nv := { flow.nv with slots := [(0, { attr := 0x1400 }), (4, { attr := 0x4480 }), (3, { attr := 0x35C0 })], txKeys := [(sessKey 1, { blocks := 1 })] }
    peers := [(256, hub), (260, host)] }
def sess (p : Nat) : Session := { peer := p, version := 3, isOpen := true }
def withSess (x : Session) : State := { kfp with sessions := [(1, x)], nextSess := 2 }
def hubOf (leaf : Nat) : State := { withSess (sess leaf) with nv := { kfp.nv with role := 2 } }
/-- A FWD body of one frame: the EVENT record 9 of 64 octets. -/
def fwdEvent : List Byte := [0, 0, 0, 0, 0, 0, 0, 9, 64, 0, 5, 0] ++ zeros 11 ++ [6] ++ zeros 52
def rx (body : List Byte) : KfpRx := { sid := 1, epoch := 0, seq := 5, more := false, tagOk := true, body := body }

/-- The twins: the pairing key in slot 3 and an identity, with a pairing and a synchronisation state. -/
def pair (state sync : Nat) : State :=
  (((kfp.setFlag Reg.PAIRS_CFG 0 true).setReg Reg.PAIRS_PAIR_ID0 1).setFld Reg.PAIRS_STAT 31 29 state).setFld Reg.PAIRS_STAT 28 27 sync
def hello : PairHello :=
  { lo := 1, hi := 2, serial := 7, role := 1, plan := 0, region := 0, pairId := 2 ^ 96, epoch := 0, prefer := false, inService := false,
    persisted := false, drivesFirst := false, cycle := 90, lastRsn := 0, sameHash := true, divergent := [], authentic := true }
def withPairs (s : State) (x : Pairs) : State := { s with pairs := x }

/-- An ACTIVE module that has lost more than its twin. -/
def withGood : State := { pair 1 2 with led := { flow.led with dies := [(0, { state := 1 })] } }

/-- Handshake messages of an empty key, and the modules that take them. -/
def helloMsg : List Byte := [4, 2, 0] ++ zeros 4208
def calling : Peer := { w0 := 0x80000000, hash := Config.sha3 ((helloMsg.drop 1619).take 2592) }
def called : State := { kfp with peers := [(256, calling)] }
def answerMsg : List Byte := [3, 0] ++ zeros 8835
def answering : Peer := { w0 := 0x80000000, hash := Config.sha3 ((answerMsg.drop 1618).take 2592) }
def answered : State := { withSess { peer := 256, version := 3, initiator := true, sent := (1, []) } with peers := [(256, answering)] }

/-- A module whose service port holds the response to its challenge. -/
def svcAsked : State :=
  { kfp with
    regs := (Reg.SVC_RESP0, BitVec.ofNat 32 (kfp.svcProof / 2 ^ 96)) :: (Reg.SVC_RESP1, BitVec.ofNat 32 (kfp.svcProof / 2 ^ 64)) ::
      (Reg.SVC_RESP2, BitVec.ofNat 32 (kfp.svcProof / 2 ^ 32)) :: kfp.regs }

/-- A PROVISION token, and a module that takes it. -/
def token : List Byte := leBytes 4 0x4B4C4354 ++ [2, 3]
def factory : State := { kfp with nv := { kfp.nv with lc := 1 } }

/-- Slot 10 with an attribute word, and a key command for slot 9 with slot 10 beside it. -/
def keys (attr want len : Nat) : State :=
  (({ flow with nv := { flow.nv with slots := [(2, { attr := 0x5400 }), (9, { attr := 0x4480 }), (10, { attr := attr })] } } : State).setReg Reg.KEEP_KC_ATTR
    (want * 65536)).setReg Reg.KEEP_KC_SLOT 0x0A09 |>.setReg Reg.KEEP_KC_LEN len

/-- Engine 0 with a running job. -/
def engines : State := { flow with crypto := { engines := [(0, { running := [{ idx := 0 }], held := some (9, 1) })] } }

/-- Domain 16 in a state, with the control word of its page. -/
def dom16 (state ctl : Nat) : State := (((run.setDom 16 state).setReg 0x14024 ctl).setReg Reg.PWR_DOM_SEL 16).setFld (domKey 16) 15 0 9

/-- The module before its field start, and with the start-up steps that have ended. -/
def starting (done : List Nat) : State := { flow with boot := { done := done } }
def powered : State := { State.reset with boot := {} }

/-- The self-test running, with the position of block 0, and a slice that has differed. -/
def bist (pos : Nat) (again : Option (Nat × Nat × Nat)) : State :=
  have s := (flow.setFlag Reg.BIST_CFG 0 true).setFld (blockKey 0) 15 0 pos
  { s with boot := { s.boot with again := again } }

/-- The same with the TEST obligation of a slice of block b. -/
def sliced (b pos : Nat) : State :=
  { bist pos none with
    boot := { (bist pos none).boot with slice := some (b, 0x100005) }
    slalom := { calendar := [(5, { cls := 3, deadline := 20000000 })] } }

/-- The Logbook with instrument 1 selected, and with a cursor of the host port. -/
def book : State := run.setReg Reg.LOGB_I_SEL 1
def bookAt (space rec' word : Nat) : State := { run with log := { run.log with cursors := [(0, (space, rec', word))] } }

/-- A stage of the update, in a module whose ACTIVE image stands in slot 0, with slots 1 and 2 in other roles. -/
def stage (n : Nat) : State :=
  { (flow.setFlag Reg.UPD_CFG 0 true).setFld Reg.UPD_STAT 31 29 n with
    upd := { images := [(0, { role := 1 }), (1, { role := 4 }), (2, { role := 3 })] } }
def handing (h : Handover) : State := { stage 4 with upd := { (stage 4).upd with hover := some h } }
def trialOf (s : State) : State := { s with upd := { s.upd with trial := some 0 } }

/-- A BULK obligation with three frames left on a lane. -/
def bulk (r : Nat) : Obligation := { cls := 4, deadline := 20000000, node := 0, field := true, op := 0x20, frames := [(r, 3)] }
def withBulk (s : State) (r : Nat) : State := { s with slalom := { s.slalom with calendar := [(5, bulk r)] } }

/-- The group counter of a lane is drawn. -/
def drawn (s : State) (kind lane : Nat) : State := ((s.tick 0).drawGroup kind lane).2

/-- A poll of node 5 is opened on line lane 0 and on air lane 0. -/
def lineOpened : Option Exchange × State :=
  ((lineWork.tick 0).prepareRoute 0 (.obligation 0x100005)).openExchange 0 (.obligation 0x100005) (fun s => s.lineExchange 0)
def airOpened : Option Exchange × State := (airOn.tick 0).openExchange 8 (.obligation 0x100005) (fun s => s.airExch 0)

/-- A frame of one octet that arrives without symbols of its own. -/
def lineRx : LineRx := { header := 0x00100057, snr := 40, syms := [], payload := [0x55], check := 60320, micOk := true }
def lineHeader : LineRx × List Bool × State := (line.tick 0).decodeHeader 0 lineRx
def lineDecoded : LineRx × State := lineHeader.2.2.decodeFrame 0 lineHeader.1 lineHeader.2.1

/-- Modules at a beacon of line lane 0 and of air lane 0, in an air search window, and with a BULK obligation. -/
def lineBeacon : State := at' (line.setTxKey (lineGroupKey 0) { blocks := 1 }) 0x4000
def airBeacon : State := at' (air.setTxKey (airGroupKey 0) { blocks := 1 }) 256
def airSeek : State := { at' (air.setTxKey (airGroupKey 0) { blocks := 1 }) 250 with field := { airSearch := [(0, 260)] } }
def bulkLine : State := withBulk (at' (line.setTxKey (lineGroupKey 0) { blocks := 1 }) 40) 0
def bulkAir : State := withBulk (at' (air.setTxKey (airGroupKey 0) { blocks := 1 }) 100) 8
def bulkBody : List Byte :=
  bulkSegment ((bulkAir.tick 0).upd.nodes.getD (leAt (bulk 8).records 0 1) []) (bulk 8).records 128
    (clampNat 1 4 (leAt (bulk 8).records 1 1) * leAt (bulk 8).records 6 2 - (bulk 8).frames.getD 8 0)

/-- Node 5, provisioned, asks to join on line lane 0. -/
def joining : JoinRequest := { medium := 1, lane := 0, serial := 77, range := 9, caps := 0, nonce := 0, via := [] }
def joinState : State := withNode (at' line 200) 5 { state := 1, serial := 77 }
def joinSent : Option Nat × State :=
  (joinState.tick 0).drawChallenge.2.sendJacc joining 5 ((joinState.tick 0).joinLane joining) 2 (joinState.tick 0).drawChallenge.1 (0, 0, 0)

/-- Flow lane 0 re-derives and writes close results; one boundary remains. -/
def rederiving : State := withLane (run.setReg (Reg.FCA_LCFG 0) 0x12) 0 { closes := [200] }

end Sys2Proof.Machine.Wit
open Sys2Proof.Machine.Wit

namespace Sys2Proof.Tests
open Sys2Proof Sys2Proof.Machine Sys2Proof.Machine.Wit

/-! ### How a witness is shown -/

/-- A lookup that answers what a test accepts. -/
theorem witSome {α : Type} {P : α → Prop} [DecidablePred P] {x : Option α} (h : x.any (fun a => decide (P a)) = true) :
    ∃ a, x = some a ∧ P a := by
  cases x with
  | none => simp at h
  | some a => exact ⟨a, rfl, by simpa using h⟩

/-- The state in which a register has taken its word, and none where the access took no effect. -/
def doneState (r : WriteResult) : Option State := match r with
  | .done b => some b
  | _ => none

/-- An access that its gate lets through, whose register takes the word, and which a test accepts. -/
theorem witDone {Q : State → State → Prop} [∀ a b, Decidable (Q a b)] {x : Option State} {Y : State → WriteResult}
    (h : x.any (fun a => (doneState (Y a)).any (fun b => decide (Q a b))) = true) :
    ∃ a, x = some a ∧ ∃ b, Y a = .done b ∧ Q a b := by
  cases x with
  | none => simp at h
  | some a =>
    simp only [Option.any_some] at h
    refine ⟨a, rfl, ?_⟩
    generalize hr : Y a = r at h
    cases r with
    | done b => exact ⟨b, rfl, by simpa [doneState] using h⟩
    | ignored b => simp [doneState] at h
    | discard b n => simp [doneState] at h

/-- Whether an outcome is a next state. -/
def answers (o : Host.Outcome State Fault Refusal) : Bool := match o with
  | .next _ => true
  | _ => false

/-- A command that answers a next state. -/
theorem witNext {o : Host.Outcome State Fault Refusal} (h : answers o = true) : ∃ u, o = .next u := by
  cases o with
  | next u => exact ⟨u, rfl⟩
  | fault f => cases h
  | refused r => cases h

/-- A presence proof depends on the secret, the serial and the challenge alone. -/
theorem proof_eq {s u : State} {a a' b b' c : Nat} (ha : a = a') (hb : b = b') (hk : (s.slot a).key = (u.slot a').key) :
    s.proof a b c = u.proof a' b' c := by
  subst ha hb
  simp only [State.proof, State.nodeSecret, hk]

/-- A presence proof has 128 bits. -/
theorem proof_lt (s : State) (a b c : Nat) : s.proof a b c < 2 ^ 128 := by
  unfold State.proof
  have h := (Config.presence (Config.kdf (s.slot a).key (beBytes 8 b)).toNat c).isLt
  omega

/-- A presence proof in the 128 bits of its operand. -/
theorem proof_fits {s u : State} {a a' b b' c : Nat} (ha : a = a') (hb : b = b') (hk : (s.slot a).key = (u.slot a').key) :
    (BitVec.ofNat 128 (s.proof a b c)).toNat = u.proof a' b' c := by
  rw [BitVec.toNat_ofNat, Nat.mod_eq_of_lt (proof_lt s a b c)]
  exact proof_eq ha hb hk

/-- The proof of the service port has 128 bits. -/
theorem svcProof_lt (s : State) : s.svcProof < 2 ^ 128 := by
  unfold State.svcProof
  have h := (Config.presence (s.slot 4).key (s.reg64 Reg.SVC_CHAL1 Reg.SVC_CHAL0)).isLt
  omega

/-- A host access to a register of a defined page whose domain is not off reaches its register. -/
theorem through_host {s : State} {page off : Nat} (h1 : (pageKind page).isNone = false) (h2 : ¬ off < 0x040)
    (h3 : s.pageOff page = false) (h4 : (findSpec page off).isNone = false) :
    s.through .pcie page off true = some (s.accessWake page) := by
  simp [State.through, State.gate, h1, h2, h3, h4]

/-- An access counts its domain as active and leaves every other register as it is. -/
theorem touch_reg {d k : Nat} (s : State) (h : k ≠ domKey d) : (s.touch d).reg k = s.reg k :=
  State.reg_setReg_other s _ _ _ h

/-- A plain register of the Logbook takes its word as every plain register does. -/
theorem effWrite_note (v : Word) (a : State) : effWrite .pcie 0x49 0x078 v a = a.plainWrite 0x49 0x078 v := rfl

/-- The response that the registers of the service port hold is the one expected. -/
theorem svcAsked_meets : ∃ a, (svcAsked.tick 0).through .pcie 0x54 0x064 true = some a ∧ a.hashRuns = true ∧ a.secretOpen 4 = true ∧
    ((a.reg Reg.SVC_RESP0 * 2 ^ 32 + a.reg Reg.SVC_RESP1) * 2 ^ 32 + a.reg Reg.SVC_RESP2) * 2 ^ 32 +
      (BitVec.ofNat 32 kfp.svcProof).toNat = a.svcProof := by
  refine ⟨_, through_host (by decide +kernel) (by decide) (by decide +kernel) (by decide +kernel), by decide +kernel, by decide +kernel, ?_⟩
  have hw : (svcAsked.tick 0).accessWake 0x54 = (svcAsked.tick 0).touch (pageDomain 0x54) := by
    have h : (svcAsked.tick 0).dom (pageDomain 0x54) = 0 := by decide +kernel
    unfold State.accessWake
    rw [if_neg (by rw [h]; decide), if_pos h]
  have hr : ∀ k, k ≠ domKey (pageDomain 0x54) → ((svcAsked.tick 0).accessWake 0x54).reg k = svcAsked.reg k := by
    intro k hk
    rw [hw, touch_reg _ hk]
    simp only [State.reg, State.tick_regs]
  have h0 : svcAsked.reg Reg.SVC_RESP0 = kfp.svcProof / 2 ^ 96 % 2 ^ 32 := by
    simp [State.reg, svcAsked, SMap.find]
  have h1 : svcAsked.reg Reg.SVC_RESP1 = kfp.svcProof / 2 ^ 64 % 2 ^ 32 := by
    simp [State.reg, svcAsked, SMap.find]
  have h2 : svcAsked.reg Reg.SVC_RESP2 = kfp.svcProof / 2 ^ 32 % 2 ^ 32 := by
    simp [State.reg, svcAsked, SMap.find]
  have hp : ((svcAsked.tick 0).accessWake 0x54).svcProof = kfp.svcProof := by
    have ha : (((svcAsked.tick 0).accessWake 0x54).slot 4).key = (kfp.slot 4).key := by decide +kernel
    have hb : ((svcAsked.tick 0).accessWake 0x54).reg64 Reg.SVC_CHAL1 Reg.SVC_CHAL0 = kfp.reg64 Reg.SVC_CHAL1 Reg.SVC_CHAL0 := by
      decide +kernel
    simp only [State.svcProof, ha, hb]
  rw [hr _ (by decide), hr _ (by decide), hr _ (by decide), h0, h1, h2, hp, BitVec.toNat_ofNat]
  have hlt := svcProof_lt kfp
  generalize kfp.svcProof = w at hlt ⊢
  omega

/-- A call of a peer whose key hash is the one that the message's key has. -/
theorem called_peers : (called.tick 0).peersOf ((helloMsg.drop 1619).take 2592) = (256, calling) :: [] := by
  have h : calling.w0.testBit 31 = true := by decide
  show [(256, calling)].filter _ = _
  rw [List.filter_cons_of_pos (by simp [h]; rfl)]
  rfl

theorem called_role : [((256 : Nat), calling)].find? (fun x => x.2.role == leAt helloMsg 2 1) = some (256, calling) :=
  List.find?_cons_of_pos (by decide +kernel)

/-! ### A full Logbook -/

/-- A Logbook whose 2,048 slots all hold entries of a class. -/
def fullLog (cls : Nat) : SMap LogEntry := (List.range 2048).map (fun i =>
  (i, { time := 0, eseq := i, hours := 0, cycles := 0, cls := cls, page := 0, code := 0, data := 0 }))

theorem fullLog_cls {c : Nat} {x : Nat × LogEntry} (h : x ∈ fullLog c) : x.2.cls = c := by
  obtain ⟨i, -, rfl⟩ := List.mem_map.1 h
  rfl

/-- Among entries of class 3 the lowest class is 3. -/
theorem lowest_three (m : SMap LogEntry) (h : ∀ x ∈ m, x.2.cls = 3) : m.foldl (fun c p => min c p.2.cls) 3 = 3 := by
  induction m with
  | nil => rfl
  | cons x m ih =>
    rw [List.foldl_cons, h x (by simp)]
    exact ih (fun y hy => h y (by simp [hy]))

/-- A search whose every step finds something ends with something, where it has a step. -/
theorem search_some {α β : Type} (f : Option β → α → Option β) (hf : ∀ b x, (f b x).isSome) (m : List α) (b : Option β)
    (h : b.isSome ∨ m ≠ []) : (m.foldl f b).isSome := by
  induction m generalizing b with
  | nil => simpa using h
  | cons x m ih => exact ih _ (.inl (hf b x))

/-- A note of class 3 finds a slot in a Logbook full of entries of class 3. -/
theorem fullLog_slot : ∃ i, logSlot (fullLog 3) 3 = some i := by
  have hl : ¬ (fullLog 3).length < 2048 := by simp [fullLog]
  have hm := lowest_three (fullLog 3) (fun x hx => fullLog_cls hx)
  have hf : (fullLog 3).filter (fun p => p.2.cls = 3) = fullLog 3 :=
    List.filter_eq_self.2 (fun x hx => by simpa using fullLog_cls hx)
  unfold logSlot
  rw [if_neg hl]
  simp only [hm, hf, Nat.le_refl, if_true]
  refine Option.isSome_iff_exists.1 ?_
  rw [Option.isSome_map]
  refine search_some _ ?_ _ _ (.inr (by simp [fullLog]))
  intro b x
  cases b with
  | none => rfl
  | some y => simp only; split <;> rfl

/-- An access to a page whose domain runs leaves the Logbook as it is. -/
theorem accessWake_log {s : State} {page : Nat} (h : s.dom (pageDomain page) = 0) : (s.accessWake page).log = s.log := by
  unfold State.accessWake
  rw [if_neg (by rw [h]; decide), if_pos h]
  rfl

/-- A Logbook with room, a full one that a note may enter, and a full one that it may not. -/
theorem meets_LogbookKeepsHigherClasses :
    (∃ (s a : State) (e : LogEntry), (s.tick 0).through .pcie 0x49 0x080 true = some a ∧ a.frozen = false ∧
      a.log.entries.length < 2048 ∧ a.log.entries.find 3 = some e) ∧
    (∃ (m : SMap LogEntry) (cls i : Nat), cls ≤ 3 ∧ 2048 ≤ m.length ∧ logSlot m cls = some i) ∧
    ∃ (v : Word) (s a : State), (s.tick 0).through .pcie 0x49 0x080 true = some a ∧ a.frozen = false ∧
      2048 ≤ a.log.entries.length ∧ ∀ x ∈ a.log.entries, v.toNat % 4 < x.2.cls := by
  obtain ⟨i, hi⟩ := fullLog_slot
  refine ⟨?_, ⟨fullLog 3, 3, i, Nat.le_refl _, by simp [fullLog], hi⟩, ?_⟩
  · obtain ⟨a, h, b, c, d⟩ := witSome (P := fun a => a.frozen = false ∧ a.log.entries.length < 2048 ∧
      a.log.entries.find 3 = some { time := 0, eseq := 3, hours := 0, cycles := 0, cls := 1, page := 0, code := 0, data := 0 })
      (x := ({ run with log := { run.log with entries := (List.range 9).map (fun i =>
        (i, { time := 0, eseq := i, hours := 0, cycles := 0, cls := 1, page := 0, code := 0, data := 0 })) } }.tick 0).through
          .pcie 0x49 0x080 true) (by decide +kernel)
    exact ⟨_, a, _, h, b, c, d⟩
  · have hd : ({ run with log := { run.log with entries := fullLog 3 } }.tick 0).dom (pageDomain 0x49) = 0 := by decide +kernel
    have hlog := accessWake_log hd
    have he : (({ run with log := { run.log with entries := fullLog 3 } }.tick 0).accessWake 0x49).log.entries = fullLog 3 := by
      rw [hlog, State.tick_log]
    refine ⟨2, { run with log := { run.log with entries := fullLog 3 } }, _,
      through_host (by decide +kernel) (by decide) (by decide +kernel) (by decide +kernel), by decide +kernel, ?_, ?_⟩
    · rw [he]; simp [fullLog]
    · intro x hx
      rw [he] at hx
      rw [fullLog_cls hx]
      decide

/-! ### States and operands that meet the hypotheses of the statements -/

/-- The hypotheses of each clause of TimebaseCommandsComplete are met. -/
theorem meets_TimebaseCommandsComplete :
  (∃ (t : Angle) (ph : Phase) (w : CrossingInput) (s : State), (((s.tick t).timebase = 1 ∨ (s.tick t).timebase = 2)) ∧ ((s.tick t).phaseError (phaseNo ph)).natAbs ≤ 0x0800 ∧ periodOk w.ival (((s.tick t).phase (phaseNo ph)).misses + 1) = true) ∧
  (∃ (t : Angle) (ph : Phase) (s : State), (s.tick t).timebase ≠ 0 ∧ (s.tick t).timebase ≠ 3) ∧
  (∃ (cap : Nat) (vigil : Nat) (busy : BitVec 25) (s : State), s.timebase ≠ 0 ∧ s.lcYield = none ∧ s.boot.due = none) ∧
  (∃ (t : Angle) (p : Path) (s : State), ∃ a, (s.tick t).through p 0x04 0x040 false = some a ∧ True) ∧
  (∃ (t : Angle) (p : Path) (s : State), ∃ a, (s.tick t).through p 0x04 0x0A8 false = some a ∧ True) ∧
  (∃ (t : Angle) (p : Path) (page : BitVec 8) (off : BitVec 12) (s : State), ∃ a, (s.tick t).through p page.toNat off.toNat false = some a ∧ off.toNat % 4 = 0 ∧ 0x040 ≤ off.toNat) :=
  ⟨⟨0, .l1, { ival := 160000000, cap := 0, tOut := 0 }, { run with now := 100 * 65536 }, by decide +kernel⟩,
  ⟨0, .l1, run, by decide +kernel⟩,
  ⟨0, 0, 0, run, by decide +kernel⟩,
  ⟨0, .pcie, run, witSome (by decide +kernel)⟩,
  ⟨0, .pcie, run, witSome (by decide +kernel)⟩,
  ⟨0, .pcie, 4, 0x44, run, witSome (by decide +kernel)⟩⟩

/-- The hypotheses of each clause of CivilTimeCommandsComplete are met. -/
theorem meets_CivilTimeCommandsComplete :
  (∃ (t : Angle) (p : Path) (v : Word) (s : State), ∃ a, (s.tick t).through p 0x04 0x084 true = some a ∧ v.toNat.testBit 0 = true ∧ zonesOrdered a.stagedZones = true) ∧
  (∃ (t : Angle) (id : Nat) (i : Instant) (tai : Int) (s : State), (s.tick t).sweep.instants.find id = some i ∧ i.pin = none ∧ (s.tick t).instantTai i = some tai ∧ (s.tick t).mapped = true ∧ (s.tick t).tickOf tai ≤ (s.tick t).now + 8 * 65536) ∧
  (∃ (t : Angle) (p : Path) (n : Fin 16) (v : Word) (s : State), ∃ a, (s.tick t).through p 0x04 (0x104 + 0x10 * n.val) true = some a ∧ True) ∧
  (∃ (t : Angle) (n : Fin 16) (s : State), (s.tick t).markDue n.val = true) :=
  ⟨⟨0, .pcie, 1, run, witSome (by decide +kernel)⟩,
  ⟨0, 7, { owner := .boundary 3, civil := 2 }, 2, { run.setFld Reg.SWEEP_CIVSTAT 1 0 1 with sweep := { startCap := 16000000000, zones := [{ eff := 0, taiUtc := 0, localUtc := 0 }], instants := [(7, { owner := .boundary 3, civil := 2 })] } }, by decide +kernel⟩,
  ⟨0, .pcie, 3, 1, run, witSome (by decide +kernel)⟩,
  ⟨0, 3, { run with sweep := { marks := [(3, 6553700)], armed := [(3, false)] } }, by decide +kernel⟩⟩

/-- The hypotheses of each clause of SlalomCommandsComplete are met. -/
theorem meets_SlalomCommandsComplete :
  (∃ (t : Angle) (p : Path) (v : Word) (img : List Byte) (s : State), ∃ a, (s.tick t).through p 0x05 0x0D8 true = some a ∧ a.flag Reg.SLALOM_RESP_STAT 31 = false ∧ v.toNat.testBit 0 = true ∧ a.flag Reg.SLALOM_STATUS 31 = false ∧ opSuits (a.store (a.reg Reg.SLALOM_REQ_HANDLE) img).stagedRequest.cls (a.store (a.reg Reg.SLALOM_REQ_HANDLE) img).stagedRequest.op = true ∧ (a.store (a.reg Reg.SLALOM_REQ_HANDLE) img).stagedRequest.op ≠ 0x02) ∧
  (∃ (t : Angle) (p : Path) (v : Word) (o : Obligation) (s : State), ∃ a, (s.tick t).through p 0x05 0x0F0 true = some a ∧ a.obl v.toNat = some o ∧ o.host = true) ∧
  (∃ (t : Angle) (p : Path) (v : Word) (s : State), ∃ a, (s.tick t).through p 0x05 0x048 true = some a ∧ v.toNat.testBit 31 = true) ∧
  (∃ (t : Angle) (s : State), (s.tick t).flag Reg.SLALOM_STATUS 31 = true ∧ (s.tick t).slalom.heldPlan = none ∧ (s.tick t).slalom.heldRegion = none ∧ (s.tick t).slalom.held = none) ∧
  (∃ (t : Angle) (id : Nat) (o : Obligation) (s : State), (s.tick t).obl id = some o ∧ o.deadline ≤ (s.tick t).now ∧ (s.tick t).boot.done.contains 9 = true) ∧
  (∃ (t : Angle) (c : CoverItem) (s : State), (s.tick t).field.cover = [c] ∧ c.fwd = none ∧ c.cycle + max 2 ((s.tick t).fld Reg.SLALOM_CFG 15 8) ≤ (s.tick t).cycle) :=
  ⟨⟨0, .pcie, 1, [0x11], run.setReg Reg.SLALOM_REQ_CTL (2 * 2 ^ 24 + 0x100), witSome (by decide +kernel)⟩,
  ⟨0, .pcie, 0x100005, { cls := 1, deadline := 0, host := true }, { run with slalom := { calendar := [(5, { cls := 1, deadline := 0, host := true })] } }, witSome (by decide +kernel)⟩,
  ⟨0, .pcie, 0x80000000, run, witSome (by decide +kernel)⟩,
  ⟨0, run.setFlag Reg.SLALOM_STATUS 31 true, by decide +kernel⟩,
  ⟨0, 0x100005, { cls := 2, deadline := 9 }, { run with slalom := { calendar := [(5, { cls := 2, deadline := 9 })] } }, by decide +kernel⟩,
  ⟨0, { cycle := 90, cls := 2, node := 1, leaf := 0, octets := [], time := 0 }, { run with field := { cover := [{ cycle := 90, cls := 2, node := 1, leaf := 0, octets := [], time := 0 }] } }, by decide +kernel⟩⟩

/-- The hypotheses of each clause of SupplyAndBoundaryCommandsComplete are met. -/
theorem meets_SupplyAndBoundaryCommandsComplete :
  (∃ (t : Angle) (v : BitVec 16) (vin1 : BitVec 16) (vin2 : BitVec 16) (s : State), (s.tick t).calm = true) ∧
  (∃ (t : Angle) (prog : BitVec 6) (id : Nat) (pin : Nat) (i : Instant) (s : State), (s.tick t).serves = true ∧ (s.tick t).pfStop = false ∧ (id, i) ∈ (s.tick t).sweep.instants ∧ i.owner = .boundary prog.toNat ∧ i.pin = some pin ∧ pin ≤ (s.tick t).now + 131072) ∧
  (∃ (t : Angle) (key : Nat) (s : State), (s.tick t).slalom.waiting = [key] ∧ (s.tick t).takes (recordCost 0x06) = true ∧ (s.tick t).nextDue = none ∧ (s.tick t).slalom.reserved.contains key = false) ∧
  (∃ (t : Angle) (p : Path) (v : Word) (s : State), ∃ a, (s.tick t).through p 0x0E 0x040 true = some a ∧ a.locked 0x0E = false ∧ bits 1 0 v.toNat ≠ a.fld Reg.LINEC_BANDCFG 1 0 ∧ ((a.nv.lc = 3 → bits 1 0 v.toNat = 0 ∨ bits 1 0 v.toNat = a.nv.planProv)) ∧ a.linesDisabled = true ∧ a.modeBusy = false ∧ a.flag Reg.SLALOM_STATUS 31 = false) :=
  ⟨⟨0, 20000, 23000, 0, run, by decide +kernel⟩,
  ⟨0, 3, 7, 6600000, { owner := .boundary 3, civil := 2, pin := some 6600000 }, { run with sweep := { instants := [(7, { owner := .boundary 3, civil := 2, pin := some 6600000 })] } }, by decide +kernel⟩,
  ⟨0, 3, { run.setFld Reg.SLALOM_E_USABLE 15 0 2050 with slalom := { waiting := [3] } }, by decide +kernel⟩,
  ⟨0, .pcie, 0, (run.setFld Reg.LINEC_BANDCFG 1 0 1).setFld Reg.SYS_LANE_EN 5 0 0, witSome (by decide +kernel)⟩⟩

/-- The hypotheses of each clause of LineMediumCommandsComplete are met. -/
theorem meets_LineMediumCommandsComplete :
  (∃ (t : Angle) (lane : Fin 6) (w : Work) (x : Exchange) (s : State) (a : State), (s.tick t).cycle % 2 = 0 ∧ (s.tick t).lineReady lane = true ∧ (s.tick t).startsHere lane = true ∧ (s.tick t).exchange lane = none ∧ ((s.tick t).prepareRoute lane w).openExchange lane w (fun s => s.lineExchange lane) = (some x, a) ∧ (a.node x.node).state = 3 ∧ (a.node x.node).medium = 1 ∧ (a.node x.node).lane = lane.val ∧ a.rolesSet (a.node x.node).route = true ∧ a.sends lane x.first x.last = false ∧ a.awaits lane x.first x.last = false ∧ a.lineClear lane x.first x.last = true ∧ a.beforeTakeback x.last = true ∧ a.sisterClash lane x.first x.txLast x.rxFirst x.last = false ∧ (x.isCmd = false ∨ ((a.node x.node).session = true ∧ ∃ c, (a.drawCounter (nodeKey x.node)).1 = .value c))) ∧
  (∃ (t : Angle) (lane : Fin 6) (start : Angle) (rx : LineRx) (h : LineRx) (y : LineRx) (e : List Bool) (s : State) (b : State) (a : State), (s.tick t).lineHears lane rx.ago start.toNat = true ∧ (s.tick t).inWindow lane start.toNat = true ∧ rx.found = true ∧ (s.tick t).decodeHeader lane rx = (h, e, b) ∧ headerFault lane h.header.toNat = .none ∧ b.decodeFrame lane h e = (y, a) ∧ crc16 y.payload = y.check.toNat ∧ y.payload.length = bits 28 20 y.header.toNat ∧ findCollapse a.collN (y.syms.map (fun q => a.collapsed y.snr q.2)) 0 ≠ .early) ∧
  (∃ (t : Angle) (ph : Phase) (c : Nat) (s : State), (s.tick t).field.coolSince.find (phaseNo ph) = some c ∧ c + 3000 ≤ (s.tick t).cycle) ∧
  (∃ (t : Angle) (lane : Fin 6) (c : Nat) (key : Nat) (s : State) (a : State) (k : State), (s.tick t).cycle % (s.tick t).lineBcn = 0 ∧ (s.tick t).lineReady lane = true ∧ (s.tick t).startsHere lane = true ∧ (s.tick t).drawGroup 1 lane = (.value c, a) ∧ a.groupSecretNow (lineGroupKey lane) = (key, k)) ∧
  (∃ (t : Angle) (lane : Fin 6) (id : Nat) (s : State), (s.tick t).lineReady lane = true ∧ (s.tick t).startsHere lane = true ∧ (s.tick t).cycle = (s.tick t).searchStart lane (s.tick t).cycle ∧ (s.tick t).searchNode lane = some id) :=
  ⟨⟨0, 0, .obligation 0x100005, lineOpened.1.getD exch, lineWork, lineOpened.2, by refine ⟨?_, ?_, ?_, ?_, ?_, ?_, ?_, ?_, ?_, ?_, ?_, ?_, ?_, ?_, ?_⟩ <;> first | decide +kernel | exact Prod.ext (by decide +kernel) rfl | rfl | exact .inl (by decide +kernel)⟩,
  ⟨0, 0, 1024, lineRx, lineHeader.1, lineDecoded.1, lineHeader.2.1, line, lineHeader.2.2, lineDecoded.2, by refine ⟨?_, ?_, ?_, ?_, ?_, ?_, ?_, ?_, ?_⟩ <;> first | decide +kernel | exact Prod.ext (by decide +kernel) rfl | rfl | exact .inl (by decide +kernel)⟩,
  ⟨0, .l1, 100, { at' line 4000 with field := { coolSince := [(1, 100)] } }, by decide +kernel⟩,
  ⟨0, 0, 0, ((drawn lineBeacon 1 0).groupSecretNow (lineGroupKey 0)).1, lineBeacon, drawn lineBeacon 1 0, ((drawn lineBeacon 1 0).groupSecretNow (lineGroupKey 0)).2, by refine ⟨?_, ?_, ?_, ?_, ?_⟩ <;> first | decide +kernel | exact Prod.ext (by decide +kernel) rfl | rfl | exact .inl (by decide +kernel)⟩,
  ⟨0, 0, 5, withNode (at' line 1572) 5 { state := 4, medium := 1, lane := 0 }, by decide +kernel⟩⟩

/-- The hypotheses of each clause of LineNetworkCommandsComplete are met. -/
theorem meets_LineNetworkCommandsComplete :
  (∃ (t : Angle) (j : JoinRequest) (id : Nat) (ver : Nat) (challenge : Nat) (cycle : Nat) (n : Node) (s : State) (k : State) (a : State), (s.tick t).hearsJoin j.medium j.lane = true ∧ (j.medium = 1 ∨ j.pan = (s.tick t).fld Reg.AIRM_PANCFG 15 0) ∧ (s.tick t).findSerial j.serial = some (id, n) ∧ n.state ≠ 2 ∧ n.state ≠ 5 ∧ n.ignoreUntil ≤ (s.tick t).cycle ∧ (s.tick t).hashRuns = true ∧ (if j.medium = 1 then (s.tick t).lineReady j.lane else (s.tick t).airReady j.lane) = true ∧ (s.tick t).joinVersion j = some ver ∧ (s.tick t).drawChallenge = (challenge, k) ∧ k.sendJacc j id ((s.tick t).joinLane j) ver challenge (n.rdvNext.getD n.rdv) = (some cycle, a)) ∧
  (∃ (t : Angle) (node : BitVec 13) (resp : BitVec 128) (nonce : BitVec 64) (x : JoinAttempt) (s : State), ((s.tick t).node node.toNat).join = some x ∧ (s.tick t).hearsJoin x.medium x.lane = true ∧ (s.tick t).hashRuns = true ∧ (s.tick t).sessRoom 1 = true ∧ (s.tick t).secretOpen ((s.tick t).node node.toNat).keyslot = true ∧ resp.toNat = (s.tick t).proof ((s.tick t).node node.toNat).keyslot ((s.tick t).node node.toNat).serial x.challenge) ∧
  (∃ (t : Angle) (node : BitVec 13) (x : JoinAttempt) (s : State), ((s.tick t).node node.toNat).join = some x ∧ x.cycle + 2 * (s.tick t).bcn x.medium ≤ (s.tick t).cycle) ∧
  (∃ (t : Angle) (r : Fin 16) (node : BitVec 13) (seq : BitVec 8) (records : List Byte) (scheds : List (Nat × StreamSched)) (x : Exchange) (s : State), ((s.tick t).setStreams node.toNat scheds).takesFrames = true ∧ ((s.tick t).setStreams node.toNat scheds).answers r node.toNat seq.toNat false = some x) ∧
  (∃ (t : Angle) (r : Fin 16) (node : BitVec 13) (seq : BitVec 8) (records : List Byte) (x : Exchange) (s : State), (s.tick t).takesFrames = true ∧ (s.tick t).answers r node.toNat seq.toNat true = some x) ∧
  (∃ (t : Angle) (lane : Fin 6) (failed : BitVec 13) (x : Exchange) (h : Nat × Nat) (s : State), (s.tick t).exchange lane = some x ∧ (routeHops moduleEnd x.route x.node).find? (fun h => h.2 = failed.toNat) = some h ∧ h.1 ≠ moduleEnd ∧ ((s.tick t).node h.1).ver ≠ 1) ∧
  (∃ (t : Angle) (lane : Fin 6) (failed : BitVec 13) (s : State), (∀ x, (s.tick t).exchange lane = some x → ∀ h, (routeHops moduleEnd x.route x.node).find? (fun h => h.2 = failed.toNat) = some h → h.1 = moduleEnd ∨ ((s.tick t).node h.1).ver = 1)) ∧
  (∃ (t : Angle) (r : Fin 16) (x : Exchange) (s : State), (s.tick t).exchange r = some x ∧ (s.tick t).dueBy r x ≤ (s.tick t).now) ∧
  (∃ (t : Angle) (node : BitVec 13) (s : State), ((s.tick t).node node.toNat).rpt = true ∧ (s.tick t).fan node.toNat = 0 ∧ ((s.tick t).node node.toNat).lastUsed + (s.tick t).fld Reg.LINEM_RPTCFG 31 16 ≤ (s.tick t).cycle) :=
  ⟨⟨0, joining, 5, 2, (joinState.tick 0).drawChallenge.1, joinSent.1.getD 0, { state := 1, serial := 77 }, joinState, (joinState.tick 0).drawChallenge.2, joinSent.2, by refine ⟨?_, ?_, ?_, ?_, ?_, ?_, ?_, ?_, ?_, ?_, ?_⟩ <;> first | decide +kernel | exact Prod.ext (by decide +kernel) rfl | rfl | exact .inl (by decide +kernel)⟩,
  ⟨0, 5, BitVec.ofNat 128 (keyed.proof 9 77 3), 7, { cycle := 90, ver := 1, lane := 0, challenge := 3 }, keyed, by decide +kernel, by decide +kernel, by decide +kernel, by decide +kernel, by decide +kernel, proof_fits (by decide +kernel) (by decide +kernel) (by decide +kernel)⟩,
  ⟨0, 5, { cycle := 90, ver := 1, lane := 0, challenge := 3 }, withNode (at' line 9000) 5 { state := 2, join := some { cycle := 90, ver := 1, lane := 0, challenge := 3 } }, by decide +kernel⟩,
  ⟨0, 0, 5, 9, [], [], exch, withExch (withNode line 5 { state := 3, medium := 1, lane := 0 }) 0 exch, by decide +kernel⟩,
  ⟨0, 0, 5, 9, [], { exch with isCmd := true }, withExch (withNode line 5 { state := 3, medium := 1, lane := 0 }) 0 { exch with isCmd := true }, by decide +kernel⟩,
  ⟨0, 0, 5, { exch with route := [6] }, (6, 5), withExch (withNode (withNode line 5 { state := 3, medium := 1, lane := 0, route := [6] }) 6 { state := 3, medium := 1, lane := 0, ver := 2 }) 0 { exch with route := [6] }, by decide +kernel⟩,
  ⟨0, 0, 7, line, by decide +kernel⟩,
  ⟨0, 0, exch, withExch (withNode (at' line 104) 5 { state := 3, medium := 1, lane := 0 }) 0 exch, by decide +kernel⟩,
  ⟨0, 5, withNode (at' line 100000) 5 { state := 3, rpt := true }, by decide +kernel⟩⟩

/-- The hypotheses of each clause of LineSettingsComplete are met. -/
theorem meets_LineSettingsComplete :
  (∃ (t : Angle) (rx : Option PilotRx) (s : State), (s.tick t).pilotOn = true ∧ (s.tick t).plan ≠ 0 ∧ (s.tick t).pairState = 1 ∧ (s.tick t).cycle % 8 ≠ 0) ∧
  (∃ (t : Angle) (rx : Option PilotRx) (s : State), (s.tick t).pilotOn = true ∧ (s.tick t).plan ≠ 0 ∧ (s.tick t).pairState = 1 ∧ (s.tick t).cycle % 8 = 0) ∧
  (∃ (t : Angle) (p : Path) (reg : Fin 4) (v : Word) (s : State), ∃ a, (s.tick t).through p 0x0E (0x040 + 4 * reg.val) true = some a ∧ ∃ b, a.plainWrite 0x0E (0x040 + 4 * reg.val) v = .done b ∧ reg.val ≠ 0 ∧ (reg.val = a.pilotPhase → a.pilotClash reg.val (bits 15 0 v.toNat) = false)) ∧
  (∃ (t : Angle) (p : Path) (v : Word) (ph : Nat) (s : State), ∃ a, (s.tick t).through p 0x0F 0x050 true = some a ∧ ∃ b, a.plainWrite 0x0F 0x050 v = .done b ∧ ph = (if bits 17 16 v.toNat = 0 then 3 else bits 17 16 v.toNat) ∧ (a.locked 0x0F = true ∨ a.pilotClash ph (a.fld (Reg.LINEC_FSA_P1 + 4 * (ph - 1)) 15 0) = false)) ∧
  (∃ (t : Angle) (p : Path) (v : Word) (s : State), ∃ a, (s.tick t).through p 0x0F 0x044 true = some a ∧ ∃ b, a.plainWrite 0x0F 0x044 v = .done b ∧ ((b.lineBcn = a.lineBcn ∧ b.lineJoinN = a.lineJoinN ∧ b.levelMax = a.levelMax) ∨ (a.linesDisabled = true ∧ b.searchFits = true))) ∧
  (∃ (t : Angle) (p : Path) (v : Word) (s : State), ∃ a, (s.tick t).through p 0x0E 0x05C true = some a ∧ ∃ b, a.plainWrite 0x0E 0x05C v = .done b ∧ b.searchFits = true) ∧
  (∃ (t : Angle) (p : Path) (v : Word) (s : State), ∃ a, (s.tick t).through p 0x13 0x044 true = some a ∧ ∃ b, a.plainWrite 0x13 0x044 v = .done b ∧ ((b.airBcn = a.airBcn ∧ b.airJoinN = a.airJoinN) ∨ a.airsDisabled = true)) ∧
  (∃ (t : Angle) (p : Path) (v : Word) (s : State), ∃ a, (s.tick t).through p 0x0F 0x08C true = some a ∧ (a.node (a.fld Reg.LINEM_NODE_SEL 12 0)).state = 0 ∧ a.findSerial (a.node (a.fld Reg.LINEM_NODE_SEL 12 0)).serial = none) ∧
  (∃ (t : Angle) (p : Path) (v : Word) (s : State), ∃ a, (s.tick t).through p 0x0F 0x08C true = some a ∧ a.targeted (a.fld Reg.LINEM_NODE_SEL 12 0) = false ∧ (a.node (a.fld Reg.LINEM_NODE_SEL 12 0)).state ≠ 0 ∧ (a.node (a.fld Reg.LINEM_NODE_SEL 12 0)).state ≠ 5) ∧
  (∃ (t : Angle) (p : Path) (v : Word) (s : State), ∃ a, (s.tick t).through p 0x0F 0x08C true = some a ∧ ((a.node (a.fld Reg.LINEM_NODE_SEL 12 0)).state = 1 ∨ (a.node (a.fld Reg.LINEM_NODE_SEL 12 0)).state = 5)) ∧
  (∃ (t : Angle) (p : Path) (v : Word) (s : State), ∃ a, (s.tick t).through p 0x0F 0x08C true = some a ∧ (a.node (a.fld Reg.LINEM_NODE_SEL 12 0)).state = 4) :=
  ⟨⟨0, none, at' (line.setFld Reg.PAIRS_STAT 31 29 1) 101, by decide +kernel⟩,
  ⟨0, some { corr := 128, rot := 0, fail := false }, at' (line.setFld Reg.PAIRS_STAT 31 29 1) 104, by decide +kernel⟩,
  ⟨0, .pcie, 1, 0x400, line, witDone (by decide +kernel)⟩,
  ⟨0, .pcie, 0x20000, 2, line.setReg 0x0F040 0x80000000, witDone (by decide +kernel)⟩,
  ⟨0, .pcie, 0x1000800, line.setFld Reg.SYS_LANE_EN 5 0 0, witDone (by decide +kernel)⟩,
  ⟨0, .pcie, 0x20, line, witDone (by decide +kernel)⟩,
  ⟨0, .pcie, 0x1000800, air.setFld Reg.SYS_LANE_EN 9 8 0, witDone (by decide +kernel)⟩,
  ⟨0, .pcie, 9, withNode line 0 { serial := 77 }, witSome (by decide +kernel)⟩,
  ⟨0, .pcie, 1, withNode line 0 { state := 3, medium := 1, lane := 0 }, witSome (by decide +kernel)⟩,
  ⟨0, .pcie, 1, withNode line 0 { state := 5 }, witSome (by decide +kernel)⟩,
  ⟨0, .pcie, 1, withNode line 0 { state := 4, medium := 1, lane := 0 }, witSome (by decide +kernel)⟩⟩

/-- The hypotheses of each clause of AirSettingsComplete are met. -/
theorem meets_AirSettingsComplete :
  (∃ (t : Angle) (p : Path) (v : Word) (s : State), ∃ a, (s.tick t).through p 0x12 0x040 true = some a ∧ a.locked 0x12 = false ∧ bits 1 0 v.toNat ≠ a.fld Reg.AIRC_REGCFG 1 0 ∧ ((a.nv.lc = 3 → bits 1 0 v.toNat = 0 ∨ bits 1 0 v.toNat = a.nv.regionProv)) ∧ a.airsDisabled = true ∧ a.modeBusy = false ∧ a.flag Reg.SLALOM_STATUS 31 = false) ∧
  (∃ (t : Angle) (p : Path) (lane : Fin 2) (v : Word) (s : State), ∃ a, (s.tick t).through p (0x10 + lane) 0x044 true = some a ∧ (subBandOf (a.airRate lane) (v.toNat % 256)).isSome = true ∧ 1000 ≤ ((channelKhz 1 (a.airRate lane) (v.toNat % 256) : Int) - channelKhz 1 (a.airRate (1 - lane)) (a.fld (Reg.AIR_CHAN (1 - lane)) 7 0)).natAbs ∧ a.laneEnabled (0x10 + lane) = false) ∧
  (∃ (t : Angle) (p : Path) (reg : Fin 6) (v : Word) (s : State), ∃ a, (s.tick t).through p 0x12 (if reg.val = 0 then 0x048 else 0x04C + 4 * reg.val) true = some a ∧ ∃ b, a.plainWrite 0x12 (if reg.val = 0 then 0x048 else 0x04C + 4 * reg.val) v = .done b ∧ b.hopSound (b.airRate 0) = true ∧ b.hopSound (b.airRate 1) = true) ∧
  (∃ (t : Angle) (s : State), (s.tick t).region = 2 ∧ (s.tick t).cycle % (s.tick t).hopCyc = 0) ∧
  (∃ (t : Angle) (lane : Fin 2) (s : State), (s.tick t).airReady lane = true ∧ (s.tick t).cycle % (s.tick t).airSearchInt = (s.tick t).airSearchInt / 2) :=
  ⟨⟨0, .pcie, 0, air.setFld Reg.SYS_LANE_EN 9 8 0, witSome (by decide +kernel)⟩,
  ⟨0, .pcie, 0, 4, air.setFld Reg.SYS_LANE_EN 9 8 0, witSome (by decide +kernel)⟩,
  ⟨0, .pcie, 0, 0x00250008, air, witDone (by decide +kernel)⟩,
  ⟨0, at' (run.setFld Reg.AIRC_REGCFG 1 0 2) 160, by decide +kernel⟩,
  ⟨0, 0, at' air 1500, by decide +kernel⟩⟩

/-- The hypotheses of each clause of AirMediumCommandsComplete are met. -/
theorem meets_AirMediumCommandsComplete :
  (∃ (t : Angle) (lane : Fin 2) (rx : AirRx) (id : BitVec 13) (s : State), (s.tick t).region ≠ 0 ∧ (s.tick t).laneEnabled (0x10 + lane) = true ∧ airUnsupported rx = false ∧ rx.fcsOk = true ∧ kapUnsupported rx = false ∧ (leAt rx.kap 0 1 / 16 ≠ 5 ∧ leAt rx.kap 0 1 / 16 ≠ 0xA ∧ leAt rx.kap 0 1 / 16 ≠ 7 ∧ leAt rx.kap 0 1 / 16 ≠ 8) ∧ rx.short = some id ∧ 6 ≤ rx.level ∧ rx.pan = (s.tick t).fld Reg.AIRM_PANCFG 15 0 ∧ rx.micOk = true ∧ (((s.tick t).node id.toNat).session = true ∨ ((s.tick t).node id.toNat).oldKeyUntil.isSome = true) ∧ ((s.tick t).node id.toNat).medium = 2 ∧ counterOk ((s.tick t).node id.toNat) rx = true ∧ (s.tick t).leaseRuns ((s.tick t).node id.toNat) = true ∧ (s.tick t).estimateOk ((s.tick t).node id.toNat) rx = true ∧ (s.tick t).takesFrames = true) ∧
  (∃ (t : Angle) (lane : Fin 2) (key : Nat) (key2 : Nat) (c : Nat) (start : Nat) (start2 : Nat) (sec : AirSec) (s : State) (b : State) (k : State), (s.tick t).beaconDue lane = true ∧ (s.tick t).airReady lane = true ∧ (s.tick t).airStart ((s.tick t).cycle * 65536) ((s.tick t).thirdsTicks ((s.tick t).airtime lane 47)) = start ∧ (s.tick t).budgetKey lane (start / 65536) = some key ∧ (s.tick t).permitted key ((s.tick t).secondAt start) ((s.tick t).airCharge lane 47) = true ∧ ((s.tick t).noteBeacon lane).drawGroup 2 lane = (.value c, b) ∧ b.groupSec lane 2 c = (sec, k) ∧ k.airReady lane = true ∧ k.airStart (k.cycle * 65536) (k.thirdsTicks (k.airtime lane 47)) = start2 ∧ k.budgetKey lane (start2 / 65536) = some key2 ∧ k.permitted key2 (k.secondAt start2) (k.airCharge lane 47) = true) ∧
  (∃ (t : Angle) (lane : Fin 2) (node : BitVec 13) (w : Work) (x : Exchange) (key : Nat) (c : Nat) (start : Nat) (s : State) (a : State), ((s.tick t).node node.toNat).state = 3 ∧ ((s.tick t).node node.toNat).session = true ∧ ((s.tick t).node node.toNat).medium = 2 ∧ ((s.tick t).node node.toNat).lane = lane.val ∧ (s.tick t).atRendezvous lane ((s.tick t).node node.toNat) = true ∧ (s.tick t).airReady lane = true ∧ (s.tick t).airSearching lane = false ∧ (s.tick t).exchange (8 + lane) = none ∧ (s.tick t).guardNs ((s.tick t).node node.toNat) ≤ (s.tick t).guardMaxNs ∧ (s.tick t).openExchange (8 + lane) w (fun s => s.airExch lane) = (some x, a) ∧ x.node = node.toNat ∧ a.beforeTakeback x.last = true ∧ a.airReady lane = true ∧ a.airStart x.start (a.thirdsTicks (a.airtime lane (39 + x.records.length))) = start ∧ a.budgetKey lane (start / 65536) = some key ∧ a.permitted key (a.secondAt start) (a.airCharge lane (39 + x.records.length)) = true ∧ (a.drawCounter (nodeKey x.node)).1 = .value c) ∧
  (∃ (t : Angle) (lane : Fin 2) (node : BitVec 13) (pan : BitVec 16) (counter : BitVec 32) (off : Nat) (s : State), (s.tick t).airReady lane = true ∧ pan.toNat = (s.tick t).fld Reg.AIRM_PANCFG 15 0 ∧ ((s.tick t).airSearching lane = true ∨ ((s.tick t).node node.toNat).rekey = none) ∧ ((s.tick t).node node.toNat).medium = 2 ∧ 2 ≤ ((s.tick t).node node.toNat).ver ∧ ((s.tick t).node node.toNat).session = true ∧ (((s.tick t).node node.toNat).state = 3 ∨ ((s.tick t).node node.toNat).state = 4) ∧ (s.tick t).leaseRuns ((s.tick t).node node.toNat) = true ∧ newer ((s.tick t).node node.toNat).fcnt counter.toNat = true ∧ off ≤ (s.tick t).nsTicksUp ((s.tick t).guardNs ((s.tick t).node node.toNat))) ∧
  (∃ (t : Angle) (lane : Fin 2) (source : BitVec 64) (pan : BitVec 16) (key : Nat) (c : Nat) (sec : AirSec) (s : State) (b : State) (k : State), (s.tick t).airReady lane = true ∧ (s.tick t).seekOk source.toNat pan.toNat = true ∧ ((s.tick t).airSearching lane = true ∨ ((s.tick t).region = 1 ∧ (s.tick t).exchange (8 + lane) = none)) ∧ (s.tick t).drawGroup 2 lane = (.value c, b) ∧ b.groupSec lane 2 c = (sec, k) ∧ k.airReady lane = true ∧ k.budgetKey lane 0 = some key ∧ k.permitted key (k.secondAt (k.now + k.thirdsTicks 3000)) (k.airCharge lane 47) = true) ∧
  (∃ (t : Angle) (node : BitVec 13) (s : State), ((s.tick t).node node.toNat).medium = 2 ∧ ((s.tick t).node node.toNat).leaseEnd.isSome = true ∧ (s.tick t).leaseRuns ((s.tick t).node node.toNat) = false) ∧
  (∃ (t : Angle) (node : BitVec 13) (c : Nat) (s : State), ((s.tick t).node node.toNat).rekey = some c ∧ c + 2 * (s.tick t).airBcn ≤ (s.tick t).cycle) ∧
  (∃ (t : Angle) (node : BitVec 13) (c : Nat) (s : State), ((s.tick t).node node.toNat).rekey = none ∧ ((s.tick t).node node.toNat).oldKeyUntil = some c ∧ c ≤ (s.tick t).cycle) :=
  ⟨⟨0, 0, { rssi := -280, fec := false, shortFcs := false, fcsOk := true, version := 2, macType := 1, short := some 5, ext := 0, pan := 0, level := 6, keyIdx := 1, counter := 7, micOk := true, macSeq := 1, start := 6553600, kap := [0x24, 0, 0, 0x64, 0, 0] }, 5, airOn, by decide +kernel⟩,
  ⟨0, 0, 4, 4, 0, 16777216, 16777216, ((drawn (airBeacon.noteBeacon 0) 2 0).groupSec 0 2 0).1, airBeacon, drawn (airBeacon.noteBeacon 0) 2 0, ((drawn (airBeacon.noteBeacon 0) 2 0).groupSec 0 2 0).2, by refine ⟨?_, ?_, ?_, ?_, ?_, ?_, ?_, ?_, ?_, ?_, ?_⟩ <;> first | decide +kernel | exact Prod.ext (by decide +kernel) rfl | rfl | exact .inl (by decide +kernel)⟩,
  ⟨0, 0, 5, .obligation 0x100005, airOpened.1.getD exch, 4, 0, airOn.now, airOn, airOpened.2, by refine ⟨?_, ?_, ?_, ?_, ?_, ?_, ?_, ?_, ?_, ?_, ?_, ?_, ?_, ?_, ?_, ?_, ?_⟩ <;> first | decide +kernel | exact Prod.ext (by decide +kernel) rfl | rfl | exact .inl (by decide +kernel)⟩,
  ⟨0, 0, 5, 0, 7, 0, airOn, by decide +kernel⟩,
  ⟨0, 0, 99, 0, 4, 0, ((drawn airSeek 2 0).groupSec 0 2 0).1, airSeek, drawn airSeek 2 0, ((drawn airSeek 2 0).groupSec 0 2 0).2, by refine ⟨?_, ?_, ?_, ?_, ?_, ?_, ?_, ?_⟩ <;> first | decide +kernel | exact Prod.ext (by decide +kernel) rfl | rfl | exact .inl (by decide +kernel)⟩,
  ⟨0, 5, withNode air 5 { airNode with leaseEnd := some 0 }, by decide +kernel⟩,
  ⟨0, 5, 100, withNode (at' air 100000) 5 { airNode with rekey := some 100 }, by decide +kernel⟩,
  ⟨0, 5, 90, withNode (at' air 100) 5 { airNode with oldKeyUntil := some 90 }, by decide +kernel⟩⟩

/-- The hypotheses of each clause of LoopSourceCommandsComplete are met. -/
theorem meets_LoopSourceCommandsComplete :
  (∃ (t : Angle) (p : Path) (n : Fin 4) (v : Word) (s : State), ∃ a, (s.tick t).through p (0x14 + n) 0x040 true = some a ∧ ∃ b, a.plainWrite (0x14 + n) 0x040 v = .done b ∧ b.maySource n = true ∧ (b.loopState n = 0 ∨ b.loopState n = 6)) ∧
  (∃ (t : Angle) (p : Path) (n : Fin 4) (v : Word) (s : State), ∃ a, (s.tick t).through p (0x14 + n) 0x040 true = some a ∧ ∃ b, a.plainWrite (0x14 + n) 0x040 v = .done b ∧ b.srcEn n = false ∧ b.loopState n ≠ 5) ∧
  (∃ (t : Angle) (n : Fin 4) (mv : Nat) (s : State), (s.tick t).loopState n = 1 ∧ (s.tick t).maySource n = true ∧ (s.tick t).field.loopSince.getD n 0 + 8000000 ≤ (s.tick t).uptime) ∧
  (∃ (t : Angle) (n : Fin 4) (s : State), (s.tick t).loopState n = 4 ∧ (s.tick t).maySource n = true ∧ ((s.tick t).field.tripAt.getD n []).getLastD 0 + 250 ≤ (s.tick t).cycle) ∧
  (∃ (t : Angle) (p : Path) (n : Fin 4) (v : Word) (s : State), ∃ a, (s.tick t).through p (0x14 + n) 0x050 true = some a ∧ v.toNat.testBit 0 = true ∧ a.loopState n = 5 ∧ a.maySource n = true) ∧
  (∃ (t : Angle) (s : State), (s.tick t).dwells = false) :=
  ⟨⟨0, .pcie, 0, 1, run, witDone (by decide +kernel)⟩,
  ⟨0, .pcie, 0, 0, loop 3, witDone (by decide +kernel)⟩,
  ⟨0, 0, 100, aged (loop 1), by decide +kernel⟩,
  ⟨0, 0, { at' (loop 4) 400 with field := { tripAt := [(0, [100])] } }, by decide +kernel⟩,
  ⟨0, .pcie, 0, 1, loop 5, witSome (by decide +kernel)⟩,
  ⟨0, loop 2, by decide +kernel⟩⟩

/-- The hypotheses of each clause of LoopMediumCommandsComplete are met. -/
theorem meets_LoopMediumCommandsComplete :
  (∃ (t : Angle) (n : Fin 4) (s : State), (s.tick t).loopReady n = true ∧ (s.tick t).field.syncAt.find n ≠ some (s.tick t).cycle ∧ (((s.tick t).angle : Int) - (s.tick t).fld (Reg.LOOP_KLLCFG n) 31 16).natAbs ≤ 1) ∧
  (∃ (t : Angle) (n : Fin 4) (w : Work) (x : Exchange) (s : State) (a : State), (s.tick t).loopReady n = true ∧ (s.tick t).exchange (0x0C + n) = none ∧ (s.tick t).openExchange (0x0C + n) w (fun s => s.loopExch n) = (some x, a) ∧ (a.node x.node).state = 3 ∧ (a.node x.node).medium = 3 ∧ (a.node x.node).lane = n.val ∧ a.beforeTakeback x.last = true) ∧
  (∃ (t : Angle) (n : Fin 4) (octets : List Byte) (check : BitVec 16) (id : Nat) (s : State), (s.tick t).laneEnabled (0x14 + n) = true ∧ crc16 octets = check.toNat ∧ 3 ≤ octets.length ∧ (leAt octets 0 1 / 16 = 2 ∨ leAt octets 0 1 / 16 = 4) ∧ leAt octets 0 1 / 4 % 4 = 1 ∧ leAt octets 0 1 % 2 = 0 ∧ leAt octets 1 1 ≤ 7 ∧ (s.tick t).loopNode n (leAt octets 1 1) = some id ∧ ((s.tick t).node id).medium = 3 ∧ (s.tick t).takesFrames = true) ∧
  (∃ (t : Angle) (n : Fin 4) (m : Fin 8) (id : Nat) (s : State), (s.tick t).loopReady n = true ∧ (s.tick t).identDue n m = true ∧ (s.tick t).loopNode n m = some id ∧ ((s.tick t).node id).state ≠ 2 ∧ ¬(((s.tick t).node id).state = 3 ∧ ((s.tick t).node id).medium = 3 ∧ ((s.tick t).node id).lane = n.val ∧ ((s.tick t).node id).addr = m.val)) ∧
  (∃ (t : Angle) (n : Fin 4) (m : Fin 8) (serial : Nat) (range : Nat) (latency : Nat) (resp : Nat) (challenge : Nat) (id : Nat) (scheds : List (Nat × StreamSched)) (s : State), (s.tick t).loopNode n m = some id ∧ (s.tick t).field.idents.find (n.val * 8 + m.val) = some challenge ∧ (s.tick t).takesFrames = true ∧ (s.tick t).hashRuns = true ∧ ((s.tick t).node id).serial = serial ∧ (((s.tick t).node id).state = 1 ∨ ((s.tick t).node id).state = 3 ∨ ((s.tick t).node id).state = 4) ∧ range % 4 ≤ 1 ∧ 1 ≤ range / 4 % 4 ∧ (s.tick t).secretOpen ((s.tick t).node id).keyslot = true ∧ resp = (s.tick t).proof ((s.tick t).node id).keyslot serial challenge) :=
  ⟨⟨0, 0, (loop 3).setFld (Reg.LOOP_KLLCFG 0) 31 16 0x1000, by decide +kernel⟩,
  ⟨0, 0, .obligation 0x100005, (loopOn 3).loopExch 0 5 (some 0x100005) false [] 1, { loopOn 3 with slalom := { calendar := [(5, { cls := 0, deadline := 20000000, node := 5, field := true })] } }, { loopOn 3 with slalom := { calendar := [(5, { cls := 0, deadline := 20000000, node := 5, field := true })] } }, by decide +kernel⟩,
  ⟨0, 0, [0x24, 2, 0], 61688, 5, loopOn 3, by decide +kernel⟩,
  ⟨0, 0, 2, 5, loopOn 1, by decide +kernel⟩,
  ⟨0, 0, 2, 77, 5, 100, loopKeyed.proof 9 77 3, 3, 5, [], loopKeyed, ⟨by decide +kernel, by decide +kernel, by decide +kernel, by decide +kernel, by decide +kernel, by decide +kernel, by decide +kernel, by decide +kernel, by decide +kernel, proof_eq (by decide +kernel) (by decide +kernel) (by decide +kernel)⟩⟩⟩

/-- The hypotheses of each clause of LiftQueueCommandsComplete are met. -/
theorem meets_LiftQueueCommandsComplete :
  (∃ (t : Angle) (feed : Bool) (o : LiftOffer) (s : State), (s.tick t).lift.offers.find? (fun o => o.feed == feed) = some o ∧ (s.tick t).queueSrc o.queue = b2n feed ∧ (s.tick t).pageOff (queuePage o.queue) = false) ∧
  (∃ (t : Angle) (q : Fin 32) (pk : LiftPacket) (rest : List LiftPacket) (s : State), ((s.tick t).queue q).waiting = pk :: rest ∧ (s.tick t).queueOn q = true ∧ ((s.tick t).queue q).opened = none ∧ 1 + headerWords pk.header ≤ ((s.tick t).queue q).space) ∧
  (∃ (t : Angle) (q : Fin 32) (w : BitVec 128) (s : State), (s.tick t).pageOff (queuePage q) = false ∧ (s.tick t).queueSrc q = 2 ∧ (s.tick t).canOpen q { header := w.toNat } = true) ∧
  (∃ (t : Angle) (q : Fin 32) (i : Fin 2048) (w : BitVec 128) (o : LiftPacket) (s : State), 0 < i.val ∧ (s.tick t).pageOff (queuePage q) = false ∧ (s.tick t).queueOn q = true ∧ (s.tick t).queueSrc q = 2 ∧ ((s.tick t).queue q).waiting = [] ∧ ((s.tick t).queue q).opened = some o ∧ o.words.length = i.val - 1 ∧ i.val < headerWords o.header) ∧
  (∃ (t : Angle) (p : Path) (g : Fin 4) (i : Fin 8) (v : Word) (s : State), ∃ a, (s.tick t).through p (0x18 + g) 0x018 true = some a ∧ v.toNat.testBit i = true ∧ (a.fld (queueReg Reg.LIFT_Q_WMCFG (8 * g + i)) 9 0 = 0 ∨ (a.queue (8 * g + i)).level ≤ min 511 (a.fld (queueReg Reg.LIFT_Q_WMCFG (8 * g + i)) 9 0))) ∧
  (∃ (t : Angle) (q : Fin 32) (word : Nat) (tag : Nat) (s : State), (s.tick t).pageOff (queuePage q) = false ∧ (s.tick t).laneServes ((s.tick t).readingLane q) 1 = true ∧ (s.tick t).laneTakes ((s.tick t).readingLane q) = true ∧ (s.tick t).peekWord q = (word, tag) ∧ bit 15 tag = false ∧ bit 12 tag = false ∧ bit 14 tag = true ∧ ((∀ m, m < 16 → (s.tick t).stagedOn m ≤ 4096))) ∧
  (∃ (t : Angle) (p : Path) (q : Fin 32) (v : Word) (s : State), ∃ a, (s.tick t).through p (queuePage q) (0x100 + 0x40 * (q % 8)) true = some a ∧ True) ∧
  (∃ (t : Angle) (p : Path) (g : Fin 4) (s : State), ∃ a, (s.tick t).through p (0x18 + g) 0x044 false = some a ∧ True) ∧
  (∃ (t : Angle) (p : Path) (q : Fin 32) (v : Word) (s : State), ∃ a, (s.tick t).through p (queuePage q) (0x120 + 0x40 * (q % 8)) true = some a ∧ v.toNat.testBit 0 = true ∧ (a.queue q).flushAt = none ∧ (a.queue q).opened = none) ∧
  (∃ (t : Angle) (q : Fin 32) (c : Nat) (o : LiftPacket) (s : State), ((s.tick t).queue q).flushAt = some c ∧ ((s.tick t).queue q).opened = some o ∧ c + 2 * 65536 ≤ (s.tick t).now) :=
  ⟨⟨0, false, { queue := 3, feed := false, packet := { header := 5 } }, { lift 0 {} with lift := { offers := [{ queue := 3, feed := false, packet := { header := 5 } }] } }, by decide +kernel⟩,
  ⟨0, 3, { header := 5 }, [], lift 0 { waiting := [{ header := 5 }] }, by decide +kernel⟩,
  ⟨0, 3, 5, lift 2 {}, by decide +kernel⟩,
  ⟨0, 3, 1, 5, { header := 8 * 2 ^ 80 }, lift 2 { opened := some { header := 8 * 2 ^ 80 }, w := 1 }, by decide +kernel⟩,
  ⟨0, .pcie, 0, 3, 8, lift 0 {}, witSome (by decide +kernel)⟩,
  ⟨0, 3, 5, 0x4010, { flow.setReg (queueReg Reg.LIFT_Q_QCFG 3) 0x80000000 with lift := { queues := [(3, { cells := [(0, (5, 0x4010))], w := 1, p := 1 })] } }, by decide +kernel⟩,
  ⟨0, .pcie, 3, 0x80000002, run, witSome (by decide +kernel)⟩,
  ⟨0, .pcie, 0, (lift 0 { cells := [(0, (5, 0x4010))], w := 1, p := 1 }).setReg (Reg.LIFT_PEEK_SEL 0) 3, witSome (by decide +kernel)⟩,
  ⟨0, .pcie, 3, 1, lift 0 { cells := [(0, (5, 0x4010))], w := 1, p := 1 }, witSome (by decide +kernel)⟩,
  ⟨0, 3, 100, { header := 5 }, lift 0 { flushAt := some 100, opened := some { header := 5 }, w := 1 }, by decide +kernel⟩⟩

/-- The hypotheses of each clause of FlowLaneCommandsComplete are met. -/
theorem meets_FlowLaneCommandsComplete :
  (∃ (t : Angle) (p : Path) (lane : Fin 16) (v : Word) (s : State), ∃ a, (s.tick t).through p (0x20 + lane) 0x040 true = some a ∧ a.laneMode lane ≠ 1 ∧ bits 1 0 v.toNat % 3 ≠ 1 ∧ a.stagedOn lane = 0) ∧
  (∃ (t : Angle) (p : Path) (lane : Fin 16) (v : Word) (s : State), ∃ a, (s.tick t).through p (0x20 + lane) 0x040 true = some a ∧ a.calm = true ∧ a.laneMode lane ≠ 1 ∧ bits 1 0 v.toNat % 3 = 1 ∧ a.stagedOn lane = 0) ∧
  (∃ (t : Angle) (lane : Fin 16) (s : State), (s.tick t).calm = true) ∧
  (∃ (t : Angle) (ch : BitVec 20) (pt : StagedPoint) (e : DescEntry) (s : State), (s.tick t).descs true ch.toNat = [] ∧ ((s.tick t).chan false ch.toNat).staged = [pt] ∧ ((s.tick t).chan false ch.toNat).prev = none ∧ (s.tick t).descAt false ch.toNat pt.t = some e ∧ (s.tick t).laneServes ((s.tick t).homeOf false ch.toNat 0 e) 1 = true ∧ (s.tick t).ready e ((s.tick t).chan false ch.toNat) pt.t = true ∧ ((s.tick t).commits ((s.tick t).chan false ch.toNat) pt.t = false ∨ (s.tick t).chargedBy (((s.tick t).setChan false ch.toNat { (s.tick t).chan false ch.toNat with staged := [] }).evaluate false ((s.tick t).homeOf false ch.toNat 0 e) ch.toNat e pt) = 0 ∨ (s.tick t).takes ((s.tick t).chargedBy (((s.tick t).setChan false ch.toNat { (s.tick t).chan false ch.toNat with staged := [] }).evaluate false ((s.tick t).homeOf false ch.toNat 0 e) ch.toNat e pt)) = true)) ∧
  (∃ (t : Angle) (p : Path) (lane : Fin 16) (v : Word) (n : Nat) (s : State), ∃ a, (s.tick t).through p (0x20 + lane) 0x054 true = some a ∧ a.calm = true ∧ (a.laneRec lane).ending = false ∧ (SMap.keys (a.laneRec lane).ring).find? (fun n => n % 65536 == v.toNat % 65536) = some n) ∧
  (∃ (t : Angle) (p : Path) (lane : Fin 16) (n : Nat) (x : RingSlot) (s : State), ∃ a, (s.tick t).through p (0x20 + lane) 0x078 false = some a ∧ a.slotOf lane none = some (n, x)) ∧
  (∃ (t : Angle) (p : Path) (lane : Fin 16) (i : Fin 256) (n : Nat) (x : RingSlot) (s : State), (s.tick t).slotOf lane (some i.val) = some (n, x)) ∧
  (∃ (t : Angle) (p : Path) (lane : Fin 16) (v : Word) (s : State), ∃ a, (s.tick t).through p (0x20 + lane) 0x084 true = some a ∧ ((∀ c, (a.laneRec lane).lastClose = some c → c < a.reg (Reg.FCA_CLOSE_LO lane) + 2 ^ 32 * v.toNat)) ∧ (a.laneRec lane).closes.length < 64) ∧
  (∃ (t : Angle) (p : Path) (lane : Fin 16) (v : Word) (s : State), ∃ a, (s.tick t).through p (0x20 + lane) 0x08C true = some a ∧ v.toNat.testBit 0 = true ∧ a.laneMode lane = 2 ∧ a.flag (Reg.FCA_LCFG lane) 4 = true) ∧
  (∃ (t : Angle) (p : Path) (lane : Fin 16) (v : Word) (s : State), ∃ a, (s.tick t).through p (0x20 + lane) 0x08C true = some a ∧ (a.laneMode lane ≠ 2 ∨ a.flag (Reg.FCA_LCFG lane) 4 = false)) :=
  ⟨⟨0, .pcie, 0, 2, run.setFld (Reg.FCA_LCFG 0) 1 0 0, witSome (by decide +kernel)⟩,
  ⟨0, .pcie, 0, 1, run.setFld (Reg.FCA_LCFG 0) 1 0 0, witSome (by decide +kernel)⟩,
  ⟨0, 0, flow, by decide +kernel⟩,
  ⟨0, 0, { t := 6553600, code := 10, sseq := 1 }, { eff := 0, raw := desc }, { flow with fca := { live := [(0, [{ eff := 0, raw := desc }])], chans := [(0, { staged := [{ t := 6553600, code := 10, sseq := 1 }] })] } }, by decide +kernel⟩,
  ⟨0, .pcie, 0, 5, 5, withLane flow 0 ring, witSome (by decide +kernel)⟩,
  ⟨0, .pcie, 0, 5, { words := [1, 2, 3, 4, 5, 6, 7, 8] }, withLane flow 0 ring, witSome (by decide +kernel)⟩,
  ⟨0, .pcie, 0, 6, 6, { words := [9] }, withLane flow 0 ring, by decide +kernel⟩,
  ⟨0, .pcie, 0, 1, withLane flow 0 { lastClose := some 100 }, witSome (by decide +kernel)⟩,
  ⟨0, .pcie, 0, 1, rederiving, witSome (by decide +kernel)⟩,
  ⟨0, .pcie, 0, 1, flow, witSome (by decide +kernel)⟩⟩

/-- The hypotheses of each clause of DescriptorCommandsComplete are met. -/
theorem meets_DescriptorCommandsComplete :
  (∃ (t : Angle) (p : Path) (v : Word) (s : State), ∃ a, (s.tick t).through p 0x1C 0x048 true = some a ∧ a.flag Reg.FCAC_DW_STAT 31 = false ∧ v.toNat.testBit 5 = false ∧ a.checkDesc false a.stagedDesc = 0) ∧
  (∃ (t : Angle) (p : Path) (v : Word) (i : Fin 16) (e : DescEntry) (s : State), ∃ a, (s.tick t).through p 0x1C 0x048 true = some a ∧ a.flag Reg.FCAC_DW_STAT 31 = false ∧ a.descAt (v.toNat.testBit 5) (a.fld Reg.FCAC_DW_CH 19 0) a.now = some e) ∧
  (∃ (t : Angle) (p : Path) (v : Word) (s : State), ∃ a, (s.tick t).through p 0x1C 0x048 true = some a ∧ a.flag Reg.FCAC_DW_STAT 31 = false ∧ v.toNat.testBit 5 = false ∧ ((∀ x, (a.chan false (a.fld Reg.FCAC_DW_CH 19 0)).prev = some x → x.t < a.reg64 Reg.FCAC_DW_D8 (Reg.FCAC_DW_D8 + 4)))) ∧
  (∃ (t : Angle) (p : Path) (v : Word) (s : State), ∃ a, (s.tick t).through p 0x1C 0x05C true = some a ∧ a.fca.fixed.contains (a.fld Reg.FCAC_PB_IDX 19 0) = false) :=
  ⟨⟨0, .pcie, 0, descStaged, witSome (by decide +kernel)⟩,
  ⟨0, .pcie, 0, 0, { eff := 0, raw := desc }, { flow with fca := { live := [(0, [{ eff := 0, raw := desc }])] } }, witSome (by decide +kernel)⟩,
  ⟨0, .pcie, 0, { flow with fca := { live := [(0, [{ eff := 0, raw := desc }])] } }, witSome (by decide +kernel)⟩,
  ⟨0, .pcie, 0x3FF00000, run, witSome (by decide +kernel)⟩⟩

/-- The hypotheses of each clause of BalanceCommandsComplete are met. -/
theorem meets_BalanceCommandsComplete :
  (∃ (t : Angle) (p : Path) (img : List Byte) (s : State), ∃ a, ((s.tick t).store ((s.tick t).reg Reg.BALG_GIMG_OFS) img).through p 0x31 0x050 true = some a ∧ a.advanceWindows.checkGraph (a.advanceWindows.load (a.advanceWindows.reg Reg.BALG_GIMG_OFS) (a.advanceWindows.reg Reg.BALG_GIMG_LEN)) (a.advanceWindows.reg Reg.BALG_GIMG_LEN) (a.advanceWindows.reg64 Reg.BALG_GEFF_LO Reg.BALG_GEFF_HI) = none) ∧
  (∃ (t : Angle) (p : Path) (g : PendingGraph) (s : State), ∃ a, (s.tick t).through p 0x31 0x050 true = some a ∧ a.advanceWindows.balance.pending = some g ∧ g.begun = false) ∧
  (∃ (t : Angle) (p : Path) (v : Word) (s : State), ∃ a, (s.tick t).through p 0x31 0x06C true = some a ∧ slotInRange (a.fld Reg.BALG_ZP_SLOT 4 0) (a.reg Reg.BALG_ZP_LO + 2 ^ 32 * v.toNat) = true) ∧
  (∃ (t : Angle) (p : Path) (v : Word) (s : State), ∃ a, (s.tick t).through p 0x31 0x078 true = some a ∧ negative (a.staged64 (bankKey (a.fld Reg.BALG_IC_SEL 3 0) Reg.BALG_IC_LO) v) = false) ∧
  (∃ (t : Angle) (p : Path) (j : Fin 4) (v : Word) (s : State), ∃ a, (s.tick t).through p 0x31 (0x084 + 8 * j) true = some a ∧ True) ∧
  (∃ (t : Angle) (p : Path) (v : Word) (s : State), ∃ a, (s.tick t).through p 0x31 0x0A8 true = some a ∧ F.zero.le (F.ofBits (a.staged64 (bankKey (a.fld Reg.BALG_CG_SEL 7 0) Reg.BALG_CG_LO) v)) = true ∧ (F.ofBits (a.staged64 (bankKey (a.fld Reg.BALG_CG_SEL 7 0) Reg.BALG_CG_LO) v)).le (F.ofNat 1) = true ∧ a.fld Reg.BALG_CG_SEL 7 0 ≠ 0) ∧
  (∃ (t : Angle) (zone : BitVec 12) (z : Zone) (w : Window) (s : State), (s.tick t).advanceWindows.dueWindow zone.toNat = some (false, z, w) ∧ (s.tick t).advanceWindows.flag Reg.BAL_CFG 0 = true ∧ (s.tick t).advanceWindows.skipsWindow w = false) ∧
  (∃ (t : Angle) (p : Path) (v : Word) (z : Zone) (s : State), ∃ a, (s.tick t).through p 0x30 0x100 true = some a ∧ v.toNat.testBit 0 = true ∧ a.advanceWindows.balance.zones.find (a.advanceWindows.fld Reg.BAL_ZSEL 11 0) = some z) :=
  ⟨⟨0, .pcie, graphImage, graphReady, witSome (by decide +kernel)⟩,
  ⟨0, .pcie, { gen := 1, eff := 90000000, zones := [], drops := [] }, { flow with balance := { pending := some { gen := 1, eff := 90000000, zones := [], drops := [] } } }, witSome (by decide +kernel)⟩,
  ⟨0, .pcie, 0, run.setReg Reg.BALG_ZP_SLOT 14, witSome (by decide +kernel)⟩,
  ⟨0, .pcie, 0x40000000, run, witSome (by decide +kernel)⟩,
  ⟨0, .pcie, 2, 0x40000000, run, witSome (by decide +kernel)⟩,
  ⟨0, .pcie, 0x3FE00000, run.setReg Reg.BALG_CG_SEL 1, witSome (by decide +kernel)⟩,
  ⟨0, 3, zone3, window, withZone (flow.setFlag Reg.BAL_CFG 0 true), by decide +kernel⟩,
  ⟨0, .pcie, 1, zone3, (withZone flow).setReg Reg.BAL_ZSEL 3, witSome (by decide +kernel)⟩⟩

/-- The hypotheses of each clause of BillingCommandsComplete are met. -/
theorem meets_BillingCommandsComplete :
  (∃ (t : Angle) (p : Path) (s : State), ∃ a, (s.tick t).through p 0x32 0x04C true = some a ∧ bit 31 (a.reg Reg.BILL_CT_W0) = true ∧ a.channelCheck (a.fld Reg.BILL_CT_CH 19 0) (a.reg Reg.BILL_CT_W0) (a.reg Reg.BILL_CT_W1) = 0) ∧
  (∃ (t : Angle) (p : Path) (c : BillChan) (s : State), ∃ a, (s.tick t).through p 0x32 0x04C true = some a ∧ a.billChan (a.fld Reg.BILL_CT_CH 19 0) = some c) ∧
  (∃ (t : Angle) (p : Path) (c : BillChan) (s : State), ∃ a, (s.tick t).through p 0x32 0x04C true = some a ∧ a.billChan (a.fld Reg.BILL_CT_CH 19 0) = some c ∧ c.valid = true) ∧
  (∃ (t : Angle) (x : Nat × Nat × Instant) (l : List (Nat × Nat × Instant)) (s : State), (s.tick t).dueInstants ownsInterval = x :: l ∧ (s.tick t).serves = true ∧ (s.tick t).pfStop = false) ∧
  (∃ (t : Angle) (p : Path) (img : List Byte) (s : State), ∃ a, ((s.tick t).store ((s.tick t).reg Reg.TARIF_PIMG_OFS) img).through p 0x33 0x048 true = some a ∧ a.programCheck (a.load (a.reg Reg.TARIF_PIMG_OFS) (a.reg Reg.TARIF_PIMG_LEN)) (a.reg Reg.TARIF_PIMG_LEN) = 0) ∧
  (∃ (t : Angle) (p : Path) (v : Word) (s : State), ∃ a, (s.tick t).through p 0x33 0x048 true = some a ∧ (a.prog (bits 5 0 v.toNat)).pending.isSome = true) ∧
  (∃ (t : Angle) (p : Path) (v : Word) (img : Image) (s : State), ∃ a, (s.tick t).through p 0x33 0x048 true = some a ∧ (a.prog (bits 5 0 v.toNat)).image = some img ∧ img.periodKind = 0) ∧
  (∃ (t : Angle) (b : BoundaryDue) (s : State), (s.tick t).nextDue = some b ∧ (s.tick t).serves = true ∧ (s.tick t).pfStop = false ∧ ((s.tick t).slalom.reserved.contains b.key = true ∨ (s.tick t).takes (recordCost 0x06) = true)) :=
  ⟨⟨0, .pcie, run.setReg Reg.BILL_CT_W0 0x80000010, witSome (by decide +kernel)⟩,
  ⟨0, .pcie, { w0 := 0x10, w1 := 0 }, chan { w0 := 0x10, w1 := 0 }, witSome (by decide +kernel)⟩,
  ⟨0, .pcie, { w0 := 0x10, w1 := 0 }, chan { w0 := 0x10, w1 := 0 }, witSome (by decide +kernel)⟩,
  ⟨0, (6553600, 7, { owner := .interval 1, civil := 2, pin := some 6553600 }), [], { run with sweep := { instants := [(7, { owner := .interval 1, civil := 2, pin := some 6553600 })] } }, by decide +kernel⟩,
  ⟨0, .pcie, program, programReady, witSome (by decide +kernel)⟩,
  ⟨0, .pcie, 3, withProgram { pending := some program }, witSome (by decide +kernel)⟩,
  ⟨0, .pcie, 3, program, withProgram { image := some program }, witSome (by decide +kernel)⟩,
  ⟨0, { prog := 3, at' := 6553600, insts := [(7, { owner := .boundary 3, civil := 2, pin := some 6553600 })] }, { flow with sweep := { instants := [(7, { owner := .boundary 3, civil := 2, pin := some 6553600 })] } }, ⟨by decide +kernel, by decide +kernel, by decide +kernel, by decide +kernel⟩⟩⟩

/-- The hypotheses of each clause of CreditCommandsComplete are met. -/
theorem meets_CreditCommandsComplete :
  (∃ (t : Angle) (p : Path) (v : Word) (s : State), ∃ a, (s.tick t).through p 0x34 0x090 true = some a ∧ True) ∧
  (∃ (t : Angle) (p : Path) (v : Word) (s : State), ∃ a, (s.tick t).through p 0x34 0x06C true = some a ∧ bit 31 (a.acCfg a.acSel) = true) ∧
  (∃ (t : Angle) (p : Path) (limit : Fin 3) (v : Word) (s : State), ∃ a, (s.tick t).through p 0x34 (0x054 + 8 * limit) true = some a ∧ True) ∧
  (∃ (t : Angle) (p : Path) (v : Word) (s : State), ∃ a, (s.tick t).through p 0x34 0x0A4 true = some a ∧ (bit 31 (v.toNat &&& 0xF00FFFFF) = false ∨ a.memberFits a.acSel (a.fld Reg.CRED_MB_SEL 4 0) (v.toNat &&& 0xF00FFFFF) = true)) :=
  ⟨⟨0, .pcie, 0, run, witSome (by decide +kernel)⟩,
  ⟨0, .pcie, 0, (run.setReg (bankKey 0 Reg.CRED_AC_CFG) 0x80000000).setReg (bankKey 0 Reg.CRED_TOPUP_LO) 500, witSome (by decide +kernel)⟩,
  ⟨0, .pcie, 1, 0, run, witSome (by decide +kernel)⟩,
  ⟨0, .pcie, 0x10, run, witSome (by decide +kernel)⟩⟩

/-- The hypotheses of each clause of OutputAndTamperCommandsComplete are met. -/
theorem meets_OutputAndTamperCommandsComplete :
  (∃ (t : Angle) (p : Path) (k : Fin 4) (v : Word) (s : State), ∃ a, (s.tick t).through p 0x34 (0x0C0 + 0x10 * k) true = some a ∧ ∃ b, a.plainWrite 0x34 (0x0C0 + 0x10 * k) v = .done b ∧ (a.pairState = 0 ∨ a.pairState = 1) ∧ a.field.gapUntil ≤ a.now ∧ a.pairs.stopped = false ∧ a.interlock.pulse = none) ∧
  (∃ (t : Angle) (p : Path) (k : Fin 4) (v : Word) (c : DriveCmd) (s : State), ∃ a, (s.tick t).through p 0x34 (0x0C0 + 0x10 * k) true = some a ∧ ∃ b, a.plainWrite 0x34 (0x0C0 + 0x10 * k) v = .done b ∧ (a.pairState = 0 ∨ a.pairState = 1) ∧ a.interlock.pulse = some c) ∧
  (∃ (t : Angle) (p : Path) (k : Fin 4) (v : Word) (s : State), ∃ a, (s.tick t).through p 0x34 (0x0C0 + 0x10 * k) true = some a ∧ ∃ b, a.plainWrite 0x34 (0x0C0 + 0x10 * k) v = .done b ∧ (a.pairState = 0 ∨ a.pairState = 1) ∧ a.field.gapUntil ≤ a.now ∧ a.pairs.stopped = false ∧ a.interlock.pulse = none) ∧
  (∃ (t : Angle) (k : Fin 4) (short : Bool) (c : DriveCmd) (s : State), (s.tick t).interlock.pulse = some c ∧ c.output = k ∧ (s.tick t).pulseOver k short = true) ∧
  (∃ (t : Angle) (k : Fin 4) (c : DriveCmd) (f : Nat) (s : State), ((s.tick t).output k).cmd = some c ∧ ((s.tick t).output k).since = some f ∧ f + max 1 ((s.tick t).fld (Reg.CRED_IL_CTL k) 31 16) ≤ (s.tick t).cycle ∧ (((s.tick t).output k).second = true ∨ c.cancelled = true)) ∧
  (∃ (t : Angle) (k : Fin 4) (c : DriveCmd) (f : Nat) (s : State), ((s.tick t).output k).cmd = some c ∧ ((s.tick t).output k).since = some f ∧ f + max 1 ((s.tick t).fld (Reg.CRED_IL_CTL k) 31 16) ≤ (s.tick t).cycle ∧ ((s.tick t).output k).second = false ∧ c.cancelled = false ∧ (s.tick t).interlock.pulse = none ∧ c.output = k) ∧
  (∃ (t : Angle) (p : Path) (v : Word) (vigil : BitVec 48) (i : Fin 3) (s : State), ∃ a, (s.tick t).through p 0x35 0x040 true = some a ∧ v.toNat.testBit (4 + i) = true) ∧
  (∃ (t : Angle) (p : Path) (v : Word) (vigil : BitVec 48) (s : State), ∃ a, (s.tick t).through p 0x35 0x05C true = some a ∧ v.toNat.testBit 0 = true) :=
  ⟨⟨0, .pcie, 2, 0, run, witDone (by decide +kernel)⟩,
  ⟨0, .pcie, 2, 1, { output := 2, on := true }, pulse, witDone (by decide +kernel)⟩,
  ⟨0, .pcie, 2, 0, run, witDone (by decide +kernel)⟩,
  ⟨0, 2, true, { output := 2, on := true }, aged pulse, by decide +kernel⟩,
  ⟨0, 2, { output := 2, on := true }, 50, waits true, by decide +kernel⟩,
  ⟨0, 2, { output := 2, on := true }, 50, waits false, by decide +kernel⟩,
  ⟨0, .pcie, 0x20, 99, 1, run.setReg Reg.TAMP_TP_STAT 0x20, witSome (by decide +kernel)⟩,
  ⟨0, .pcie, 1, 99, run, witSome (by decide +kernel)⟩⟩

/-- The hypotheses of each clause of LedgerCommandsComplete are met. -/
theorem meets_LedgerCommandsComplete :
  (∃ (t : Angle) (s : State), (s.tick t).storeRuns = true ∧ (s.tick t).openWork = true ∧ (s.tick t).groupFits 0 = true ∧ (s.tick t).led.openSince + max 1 ((s.tick t).fld Reg.LEDG_CFG 11 8) ≤ (s.tick t).cycle) ∧
  (∃ (t : Angle) (p : Path) (v : Word) (s : State), ∃ a, (s.tick t).through p 0x38 0x0A0 true = some a ∧ v.toNat.testBit 0 = true ∧ a.storeRuns = true ∧ a.openWork = true ∧ a.groupFits 0 = true) ∧
  (∃ (t : Angle) (g : CommitGroup) (gs : List CommitGroup) (s : State), (s.tick t).led.groups = g :: gs ∧ 1 < g.stripes.length ∧ (s.tick t).led.stalled = false) ∧
  (∃ (t : Angle) (supplied : Bool) (g : CommitGroup) (gs : List CommitGroup) (s : State), (s.tick t).calm = true ∧ (s.tick t).led.groups = g :: gs ∧ g.stripes.length = 1 ∧ (s.tick t).led.stalled = false ∧ bit 0 g.flags = false) ∧
  (∃ (t : Angle) (s : State), (s.tick t).storeRuns = true ∧ (s.tick t).pfStop = false ∧ (s.tick t).led.ckptOpen = false ∧ (s.tick t).led.ckptAt + clampNat 500 15000 ((s.tick t).fld Reg.LEDG_CKPTCFG 15 0) ≤ (s.tick t).cycle ∧ (s.tick t).startCheckpoint.groupFits 2 = true) ∧
  (∃ (t : Angle) (p : Path) (v : Word) (s : State), ∃ a, (s.tick t).through p 0x38 0x074 true = some a ∧ a.arch ≤ a.latched .pcie Reg.LEDG_ARCH_LO + 2 ^ 32 * v.toNat ∧ a.latched .pcie Reg.LEDG_ARCH_LO + 2 ^ 32 * v.toNat ≤ a.committed) ∧
  (∃ (t : Angle) (p : Path) (v : Word) (reads : List (BitVec 19 × StripeRead)) (s : State), ∃ a, (s.tick t).through p 0x38 0x0C0 true = some a ∧ v.toNat.testBit 0 = true ∧ ((a.readStripes reads).led.recs.head?.map (·.1)).getD (a.readStripes reads).led.nextRsn ≤ (a.readStripes reads).reg64 Reg.LEDG_RD_RSN_LO Reg.LEDG_RD_RSN_HI ∧ ((a.readStripes reads).led.recs.find ((a.readStripes reads).reg64 Reg.LEDG_RD_RSN_LO Reg.LEDG_RD_RSN_HI)).isSome = true) ∧
  (∃ (t : Angle) (p : Path) (v : Word) (reads : List (BitVec 19 × StripeRead)) (s : State), ∃ a, (s.tick t).through p 0x38 0x0C0 true = some a ∧ v.toNat.testBit 0 = true ∧ (a.readStripes reads).reg64 Reg.LEDG_RD_RSN_LO Reg.LEDG_RD_RSN_HI < ((a.readStripes reads).led.recs.head?.map (·.1)).getD (a.readStripes reads).led.nextRsn) :=
  ⟨⟨0, store, by decide +kernel⟩,
  ⟨0, .pcie, 1, store, witSome (by decide +kernel)⟩,
  ⟨0, group [256, 257], [], withGroup [256, 257], by decide +kernel⟩,
  ⟨0, true, group [256], [], withGroup [256], by decide +kernel⟩,
  ⟨0, store, by decide +kernel⟩,
  ⟨0, .pcie, 0, (flow.latchAt .pcie Reg.LEDG_ARCH_LO 5).setReg Reg.LEDG_RSN_LO 10, witSome (by decide +kernel)⟩,
  ⟨0, .pcie, 1, [], store.setReg Reg.LEDG_RD_RSN_LO 1, witSome (by decide +kernel)⟩,
  ⟨0, .pcie, 1, [], store, witSome (by decide +kernel)⟩⟩

/-- The hypotheses of each clause of StoreMediaCommandsComplete are met. -/
theorem meets_StoreMediaCommandsComplete :
  (∃ (t : Angle) (die : Fin 8) (g : CommitGroup) (gs : List CommitGroup) (stripe : Nat) (rest : List Nat) (s : State), (s.tick t).led.groups = g :: gs ∧ g.stripes = stripe :: rest ∧ (s.tick t).led.stalled = false) ∧
  (∃ (t : Angle) (die : Fin 8) (g : CommitGroup) (gs : List CommitGroup) (stripe : Nat) (rest : List Nat) (s : State), (s.tick t).led.groups = g :: gs ∧ g.stripes = stripe :: rest ∧ (s.tick t).led.stalled = false ∧ ((s.tick t).die die).state = 0) ∧
  (∃ (t : Angle) (sb : BitVec 11) (die : Fin 8) (dead : Bool) (s : State), (s.tick t).erasing sb.toNat = true ∧ (∀ x ∈ (s.tick t).led.retire, x.1 ≠ sb.toNat)) ∧
  (∃ (t : Angle) (s : State), (s.tick t).boot.kind = none ∧ (s.tick t).boot.hold ≠ 1 ∧ (s.tick t).boot.hold ≠ 2 ∧ (s.tick t).storeRuns = true ∧ (s.tick t).pfStop = false) ∧
  (∃ (t : Angle) (reads : List (BitVec 19 × StripeRead)) (n : Nat) (s : State), (s.tick t).storeRuns = true ∧ (s.tick t).pfStop = false ∧ (s.tick t).hot = false ∧ (s.tick t).pickCollect = some n) ∧
  (∃ (t : Angle) (reads : List (BitVec 19 × StripeRead)) (n : Nat) (rest : List Nat) (s : State), (s.tick t).storeRuns = true ∧ (s.tick t).pfStop = false ∧ (s.tick t).led.rebuild = n :: rest ∧ (s.tick t).releasing n = false ∧ ((s.tick t).sb n).phase = 2) ∧
  (∃ (t : Angle) (reads : List (BitVec 19 × StripeRead)) (n : Nat) (rest : List Nat) (s : State), (s.tick t).storeRuns = true ∧ (s.tick t).pfStop = false ∧ (s.tick t).led.rebuild = n :: rest ∧ ((s.tick t).releasing n = true ∨ ((s.tick t).sb n).phase ≠ 2)) ∧
  (∃ (t : Angle) (r : StripeRead) (stripe : Nat) (other : Nat) (s : State), (s.tick t).flag Reg.GROOM_CFG 0 = true ∧ (s.tick t).storeRuns = true ∧ (s.tick t).pfStop = false ∧ (s.tick t).hot = false ∧ (s.tick t).dataStripes.find? (fun n => !((s.tick t).led.groomed.contains n)) = some stripe ∧ other ∈ (s.tick t).dataStripes ∧ (s.tick t).led.groomed.contains other = false ∧ other ≠ stripe) ∧
  (∃ (t : Angle) (r : StripeRead) (stripe : Nat) (s : State), (s.tick t).flag Reg.GROOM_CFG 0 = true ∧ (s.tick t).storeRuns = true ∧ (s.tick t).pfStop = false ∧ (s.tick t).hot = false ∧ (s.tick t).dataStripes.find? (fun n => !((s.tick t).led.groomed.contains n)) = some stripe ∧ (∀ other ∈ (s.tick t).dataStripes, other ≠ stripe → (s.tick t).led.groomed.contains other = true)) ∧
  (∃ (t : Angle) (s : State), (s.tick t).reg Reg.GROOM_PASS_POS ≠ 0 ∧ (s.tick t).led.passLate = false ∧ (s.tick t).led.passUp + (s.tick t).passPeriod ≤ (s.tick t).uptime) :=
  ⟨⟨0, 3, group [256], [], 256, [], withGroup [256], by decide +kernel⟩,
  ⟨0, 3, group [256], [], 256, [], withGroup [256], by decide +kernel⟩,
  ⟨0, 1, 3, false, withSb flow 1 { phase := 3 }, by decide +kernel⟩,
  ⟨0, flow, by decide +kernel⟩,
  ⟨0, [], 1, refreshing, by decide +kernel⟩,
  ⟨0, [(256, .corrected 1 4)], 1, [], rebuilding 2, by decide +kernel⟩,
  ⟨0, [], 1, [], rebuilding 0, by decide +kernel⟩,
  ⟨0, .corrected 1 4, 256, 512, grooming [(5, 256 * 8), (6, 512 * 8)], by decide +kernel⟩,
  ⟨0, .rebuilt, 256, grooming [(5, 256 * 8)], by decide +kernel⟩,
  ⟨0, aged (groom 1), by decide +kernel⟩⟩

/-- The hypotheses of each clause of MerkleCommandsComplete are met. -/
theorem meets_MerkleCommandsComplete :
  (∃ (t : Angle) (s : State), (s.tick t).serves = true ∧ (s.tick t).pfStop = false ∧ (s.tick t).batchDue = true) ∧
  (∃ (t : Angle) (iters : BitVec 10) (b : Batch) (rest : List Batch) (s : State), (s.tick t).merk.closed = b :: rest ∧ (s.tick t).serves = true ∧ (s.tick t).pfStop = false ∧ (s.tick t).engineState 3 < 2 ∧ (s.tick t).pqcRuns = true ∧ (s.tick t).hashRuns = true ∧ (s.tick t).slotOpen 1 = true ∧ (s.tick t).takes 516 = true) ∧
  (∃ (t : Angle) (p : Path) (v : Word) (x : Nat × Batch) (s : State), ∃ a, (s.tick t).through p 0x45 0x0A8 true = some a ∧ v.toNat.testBit 0 = true ∧ a.merk.signed.find? (fun (x : Nat × Batch) => x.2.recs.contains (a.reg64 Reg.MERK_PRF_RSN_LO Reg.MERK_PRF_RSN_HI)) = some x ∧ ((∀ n, n ∈ x.2.recs → (a.heldRecord n).isSome = true))) ∧
  (∃ (t : Angle) (p : Path) (v : Word) (s : State), ∃ a, (s.tick t).through p 0x45 0x0A8 true = some a ∧ v.toNat.testBit 0 = true ∧ a.merk.signed.find? (fun (x : Nat × Batch) => x.2.recs.contains (a.reg64 Reg.MERK_PRF_RSN_LO Reg.MERK_PRF_RSN_HI)) = none ∧ a.merk.closed.any (fun b => b.recs.contains (a.reg64 Reg.MERK_PRF_RSN_LO Reg.MERK_PRF_RSN_HI)) = false ∧ a.openRecs.any (fun x => x.1 == a.reg64 Reg.MERK_PRF_RSN_LO Reg.MERK_PRF_RSN_HI) = false) :=
  ⟨⟨0, { store with merk := { segs := [(1, [], 0), (2, [], 0), (3, [], 0), (4, [], 0), (5, [], 0)] } }, by decide +kernel⟩,
  ⟨0, 4, batch, [], { flow with merk := { closed := [batch] }, nv := { flow.nv with slots := [(1, { attr := 0x4480 })] } }, by decide +kernel⟩,
  ⟨0, .pcie, 1, (4, batch), { store.setReg Reg.MERK_PRF_RSN_LO 1 with merk := { signed := [(4, batch)] } }, witSome (by decide +kernel)⟩,
  ⟨0, .pcie, 1, store.setReg Reg.MERK_PRF_RSN_LO 1000, witSome (by decide +kernel)⟩⟩

/-- The hypotheses of each clause of EthernetAndPtpCommandsComplete are met. -/
theorem meets_EthernetAndPtpCommandsComplete :
  (∃ (t : Angle) (port : Fin 2) (frame : List Byte) (mac : Nat) (s : State), (s.tick t).ethUp port = true) ∧
  (∃ (t : Angle) (port : Fin 2) (frame : List Byte) (mac : Nat) (s : State), (s.tick t).ethUp port = true ∧ (s.tick t).rxFull = false ∧ ((s.tick t).bump (Reg.ETH_RX_OK port)).frameKind port frame = .other) ∧
  (∃ (t : Angle) (m : PtpRx) (s : State), (s.tick t).flag Reg.PTP_CFG 0 = true ∧ (s.tick t).ethUp m.port.val = true ∧ (s.tick t).ptpTakes m = true ∧ m.port.val + 1 = (s.tick t).ptpPort) ∧
  (∃ (t : Angle) (s : State), (s.tick t).flag Reg.PTP_CFG 0 = true) ∧
  (∃ (t : Angle) (p : Path) (v : Word) (slots : List (BitVec 8 × List Byte)) (stamps : List Nat) (s : State), ∃ a, ((s.tick t).fillSlots slots).through p 0x53 0x058 true = some a ∧ True) ∧
  (∃ (t : Angle) (p : Path) (v : Word) (s : State), ∃ a, (s.tick t).through p 0x06 0x074 true = some a ∧ v.toNat.testBit 0 = true) ∧
  (∃ (t : Angle) (p : Path) (n : Fin 4) (v : Word) (s : State), ∃ a, (s.tick t).through p 0x06 (0x108 + 0x20 * n) true = some a ∧ ∃ b, a.plainWrite 0x06 (0x108 + 0x20 * n) v = .done b ∧ True) ∧
  (∃ (t : Angle) (n : Fin 4) (g : Trigger) (c : Nat) (s : State), (s.tick t).ptp.trigs.find n = some g ∧ g.pin = some c ∧ c ≤ (s.tick t).now ∧ (s.tick t).flag (Reg.PTP_TRIG_CTL n) 0 = true ∧ (s.tick t).calm = true) ∧
  (∃ (t : Angle) (n : Fin 3) (src : Fin 8) (falling : Bool) (cap : Nat) (s : State), (s.tick t).flag (Reg.PTP_CAP_CTL n) 0 = true ∧ (s.tick t).fld (Reg.PTP_CAP_CTL n) 7 4 = src ∧ (s.tick t).flag (Reg.PTP_CAP_CTL n) 1 = falling) :=
  ⟨⟨0, 0, [1, 2], 0, eth, by decide +kernel⟩,
  ⟨0, 0, [1, 2], 0, eth.setReg Reg.PCIE_HRX_RD 9, by decide +kernel⟩,
  ⟨0, { port := 0, domain := 0, transport := 0, msg := .pdelayReq, state := 2 }, eth, by decide +kernel⟩,
  ⟨0, eth, by decide +kernel⟩,
  ⟨0, .pcie, 0, [], [], eth, witSome (by decide +kernel)⟩,
  ⟨0, .pcie, 1, eth, witSome (by decide +kernel)⟩,
  ⟨0, .pcie, 1, 1, eth, witDone (by decide +kernel)⟩,
  ⟨0, 1, { tai := 0, pin := some 100 }, 100, { eth.setFlag (Reg.PTP_TRIG_CTL 1) 0 true with ptp := { trigs := [(1, { tai := 0, pin := some 100 })] } }, by decide +kernel⟩,
  ⟨0, 1, 0, false, 8000000, eth.setFlag (Reg.PTP_CAP_CTL 1) 0 true, by decide +kernel⟩⟩

/-- The hypotheses of each clause of EndpointAndServiceCommandsComplete are met. -/
theorem meets_EndpointAndServiceCommandsComplete :
  (∃ (t : Angle) (id : Nat) (o : Obligation) (s : State), (s.tick t).obl id = some o ∧ o.cls = 2 ∧ ((s.tick t).fld Reg.PCIE_RPT_WR 11 0 + 1) % 4096 ≠ (s.tick t).fld Reg.PCIE_RPT_RD 11 0 ∧ (s.tick t).pageOff 0x53 = false) ∧
  (∃ (t : Angle) (p : Path) (v : Word) (s : State), ∃ a, (s.tick t).through p 0x53 0x054 true = some a ∧ True) ∧
  (∃ (t : Angle) (gen : Fin 4) (width : Fin 3) (s : State), (s.tick t).flag Reg.PCIE_STAT 31 = false ∧ (s.tick t).pageOff 0x53 = false) ∧
  (∃ (t : Angle) (x : SvcRx) (page : BitVec 8) (off : BitVec 12) (s : State), (s.tick t).dom 24 ≠ 4 ∧ x.addr.toNat = (s.tick t).fld Reg.SVC_CFG 6 0 ∧ x.pointer = some (page, off) ∧ x.words = [] ∧ x.reads = 0) ∧
  (∃ (t : Angle) (addr : BitVec 7) (s : State), (s.tick t).dom 24 ≠ 4 ∧ addr.toNat = (s.tick t).fld Reg.SVC_CFG 6 0) ∧
  (∃ (t : Angle) (p : Path) (v : Word) (s : State), ∃ a, (s.tick t).through p 0x54 0x064 true = some a ∧ a.hashRuns = true ∧ a.secretOpen 4 = true ∧ ((a.reg Reg.SVC_RESP0 * 2 ^ 32 + a.reg Reg.SVC_RESP1) * 2 ^ 32 + a.reg Reg.SVC_RESP2) * 2 ^ 32 + v.toNat = a.svcProof) ∧
  (∃ (t : Angle) (s : State), (s.tick t).flag Reg.SVC_STAT 0 = true ∧ (s.tick t).svcLast + (s.tick t).fld Reg.SVC_UNLOCK 15 0 ≤ (s.tick t).cycle) :=
  ⟨⟨0, 0x100005, { cls := 2, deadline := 9 }, { run with slalom := { calendar := [(5, { cls := 2, deadline := 9 })] } }, by decide +kernel⟩,
  ⟨0, .pcie, 3, run, witSome (by decide +kernel)⟩,
  ⟨0, 2, 1, run, by decide +kernel⟩,
  ⟨0, { addr := 0x2C, pointer := some (4, 0x40), words := [], reads := 0, naks := 0 }, 4, 0x40, run, by decide +kernel⟩,
  ⟨0, 0x2C, run, by decide +kernel⟩,
  ⟨0, .pcie, BitVec.ofNat 32 kfp.svcProof, svcAsked, svcAsked_meets⟩,
  ⟨0, at' (run.setFlag Reg.SVC_STAT 0 true) 100000, by decide +kernel⟩⟩

/-- The hypotheses of each clause of KfpHandshakeCommandsComplete are met. -/
theorem meets_KfpHandshakeCommandsComplete :
  (∃ (t : Angle) (peer : BitVec 9) (e : Peer) (s : State), (s.tick t).peer peer.toNat = some e ∧ e.initiate = true ∧ (s.tick t).kfpRuns = true ∧ (s.tick t).kfpServes peer.toNat = true ∧ ((∀ x, x ∈ (s.tick t).sessions → x.2.peer ≠ peer.toNat))) ∧
  (∃ (t : Angle) (msg : List Byte) (p : Nat) (q : Nat) (e : Peer) (rest : List (Nat × Peer)) (s : State), msg.length = 4211 ∧ ((∀ x, x ∈ (s.tick t).sessions → x.2.peer ≠ p ∧ x.2.hello ≠ msg)) ∧ (s.tick t).peersOf ((msg.drop 1619).take 2592) = (q, e) :: rest ∧ ((q, e) :: rest).find? (fun x => x.2.role == leAt msg 2 1) = some (p, e) ∧ max (s.tick t).kfpMin (leAt msg 1 1) ≤ min (s.tick t).kfpMax (leAt msg 0 1) ∧ (s.tick t).kfpRuns = true ∧ (s.tick t).kfpServes p = true ∧ ((s.tick t).sessions.filter (fun x => sameKind x.2.peer p && !x.2.initiator)).length < sessionLimit p ∧ (s.tick t).sessRoom 2 = true) ∧
  (∃ (t : Angle) (sid : Nat) (msg : List Byte) (x : Session) (e : Peer) (s : State), (s.tick t).sessions.find sid = some x ∧ x.isOpen = false ∧ x.initiator = true ∧ x.sent.1 = 1 ∧ 8837 ≤ msg.length ∧ (s.tick t).peer x.peer = some e ∧ (s.tick t).kfpMin ≤ leAt msg 0 1 ∧ leAt msg 0 1 ≤ (s.tick t).kfpMax ∧ Config.sha3 ((msg.drop 1618).take 2592) = e.hash ∧ leAt msg 1 1 = e.role ∧ (s.tick t).sessRoom 2 = true) ∧
  (∃ (t : Angle) (sid : Nat) (sig : List Byte) (x : Session) (s : State), (s.tick t).sessions.find sid = some x ∧ x.isOpen = false ∧ x.initiator = false) ∧
  (∃ (t : Angle) (sid : Nat) (reason : BitVec 8) (x : Session) (s : State), (s.tick t).sessions.find sid = some x ∧ x.isOpen = false) ∧
  (∃ (t : Angle) (r : KfpRx) (x : Session) (s : State), (s.tick t).takesRecord r x = true) ∧
  (∃ (t : Angle) (sid : Nat) (x : Session) (s : State), (s.tick t).sessions.find sid = some x ∧ (s.tick t).sealedRoot = false ∧ (x.unacked.any (fun w => decide ((s.tick t).retxMax ≤ w.retx)) = true ∨ (x.isOpen = false ∧ (s.tick t).retxMax ≤ x.retx) ∨ x.lastRx + (s.tick t).deadCyc ≤ (s.tick t).cycle)) ∧
  (∃ (t : Angle) (sid : Nat) (x : Session) (s : State), (s.tick t).sessions.find sid = some x ∧ x.old = true ∧ x.oldAt + 16000000000 ≤ (s.tick t).uptime) ∧
  (∃ (t : Angle) (p : Path) (v : Word) (s : State), ∃ a, (s.tick t).through p 0x52 0x084 true = some a ∧ ∃ b, a.plainWrite 0x52 0x084 v = .done b ∧ a.fld Reg.FEED_PEER_SEL 8 0 ≠ 0 ∧ a.fld Reg.FEED_PEER_SEL 8 0 ≤ 291) :=
  ⟨⟨0, 256, hub, kfp, by decide +kernel⟩,
  ⟨0, helloMsg, 256, 256, calling, [], called, ⟨by decide +kernel, by decide +kernel, called_peers, called_role, by decide +kernel, by decide +kernel, by decide +kernel, by decide +kernel, by decide +kernel⟩⟩,
  ⟨0, 1, answerMsg, { peer := 256, version := 3, initiator := true, sent := (1, []) }, answering, answered, ⟨by decide +kernel, by decide +kernel, by decide +kernel, by decide +kernel, by decide +kernel, rfl, by decide +kernel, by decide +kernel, rfl, by decide +kernel, by decide +kernel⟩⟩,
  ⟨0, 1, [], { peer := 256, version := 3 }, withSess { peer := 256, version := 3 }, by decide +kernel⟩,
  ⟨0, 1, 2, { peer := 256, version := 3 }, withSess { peer := 256, version := 3 }, by decide +kernel⟩,
  ⟨0, rx [], sess 256, withSess (sess 256), by decide +kernel⟩,
  ⟨0, 1, sess 256, at' (withSess (sess 256)) 100000, by decide +kernel⟩,
  ⟨0, 1, { sess 256 with old := true }, { withSess { sess 256 with old := true } with sweep := { uptime := 20000000000 } }, by decide +kernel⟩,
  ⟨0, .pcie, 0x80000000, kfp.setReg Reg.FEED_PEER_SEL 257, witDone (by decide +kernel)⟩⟩

/-- The hypotheses of each clause of KfpRecordCommandsComplete are met. -/
theorem meets_KfpRecordCommandsComplete :
  (∃ (t : Angle) (r : KfpRx) (x : Session) (s : State), (s.tick t).takesRecord r x = true ∧ beAt r.body 0 8 < ((s.tick t).txKey (sessKey r.sid)).next ∧ beAt r.body 0 8 ≠ 2 ^ 64 - 1) ∧
  (∃ (t : Angle) (r : KfpRx) (x : Session) (s : State), (s.tick t).takesRecord r x = true) ∧
  (∃ (t : Angle) (r : KfpRx) (x : Session) (s : State), (s.tick t).takesRecord r x = true ∧ (s.tick t).nv.epoch < beAt r.body 0 4) ∧
  (∃ (t : Angle) (r : KfpRx) (x : Session) (rsn : Nat) (cls : Nat) (payload : List Byte) (s : State), (s.tick t).takesRecord r x = true ∧ r.more = false ∧ x.part = none ∧ (s.tick t).fromLeaf x = true ∧ fwdFrames (r.body.length + 1) r.body = [(rsn, cls, payload)] ∧ ((s.tick t).leaf x.peer).acked < rsn ∧ cls ∈ [1, 2, 3, 5, 7] ∧ validRecord cls payload = true) ∧
  (∃ (t : Angle) (r : KfpRx) (x : Session) (s : State), (s.tick t).takesRecord r x = true ∧ r.more = false ∧ x.part = none ∧ (s.tick t).fromLeaf x = true ∧ 20 + 4 * min 64 (beAt r.body 8 2) ≤ r.body.length) ∧
  (∃ (t : Angle) (r : KfpRx) (x : Session) (s : State), (s.tick t).takesRecord r x = true ∧ r.more = false ∧ x.part = none ∧ (s.tick t).fromLeaf x = true ∧ (s.tick t).readOnly = false ∧ 256 + 4 * min 4032 (leAt r.body 28 4) ≤ r.body.length) ∧
  (∃ (t : Angle) (r : KfpRx) (x : Session) (s : State), (s.tick t).takesRecord r x = true ∧ r.more = false ∧ x.part = none ∧ r.body.length = 12 ∧ beAt r.body 0 1 = 1) ∧
  (∃ (t : Angle) (r : KfpRx) (x : Session) (s : State), (s.tick t).takesRecord r x = true) ∧
  (∃ (t : Angle) (r : KfpRx) (x : Session) (s : State), (s.tick t).takesRecord r x = true) ∧
  (∃ (t : Angle) (sid : Nat) (seq : Nat) (x : Session) (w : TxRecord) (s : State), (s.tick t).sessions.find sid = some x ∧ (s.tick t).kfpServes x.peer = true ∧ x.isOpen = true ∧ x.unacked.find? (fun u => u.seq == seq) = some w ∧ w.retx < (s.tick t).retxMax ∧ ¬((s.tick t).staleStop = true ∧ stoppedType w.ftype = true) ∧ w.sentAt + (s.tick t).rto w.retx ≤ (s.tick t).uptime) ∧
  (∃ (t : Angle) (sid : Nat) (n : Nat) (x : Session) (s : State), (s.tick t).sessions.find sid = some x ∧ x.lastTx + (s.tick t).kaCyc ≤ (s.tick t).cycle ∧ (s.tick t).sendsAs sid x n = true) ∧
  (∃ (t : Angle) (sid : Nat) (m : Nat) (n : Nat) (x : Session) (s : State), (s.tick t).sessions.find sid = some x ∧ (s.tick t).forwards x = true ∧ n = min 64 ((s.tick t).cycle - x.perAt) ∧ 0 < n ∧ (s.tick t).forwardFits x.peer ((s.tick t).perBody x.perAt n) = true ∧ (s.tick t).sendsAs sid x m = true) :=
  ⟨⟨0, rx (zeros 8), { sess 256 with unacked := [{ seq := 0, ftype := 0x20, body := [] }] }, (withSess { sess 256 with unacked := [{ seq := 0, ftype := 0x20, body := [] }] }).setTxKey (sessKey 1) { next := 1, blocks := 1 }, by decide +kernel⟩,
  ⟨0, rx [], sess 260, withSess (sess 260), by decide +kernel⟩,
  ⟨0, rx [0, 0, 0, 9], sess 256, withSess (sess 256), by decide +kernel⟩,
  ⟨0, rx fwdEvent, sess 7, 9, 5, fwdEvent.drop 12, hubOf 7, by decide +kernel⟩,
  ⟨0, rx (zeros 24), sess 7, { withSess (sess 7) with nv := { kfp.nv with role := 2 } }, by decide +kernel⟩,
  ⟨0, rx (zeros 256), sess 7, hubOf 7, by decide +kernel⟩,
  ⟨0, rx [1, 4, 0, 0x40, 0, 0, 0, 0, 0, 0, 0, 0], sess 260, withSess (sess 260), by decide +kernel⟩,
  ⟨0, rx [], sess 260, withSess (sess 260), by decide +kernel⟩,
  ⟨0, rx [], sess 260, withSess (sess 260), by decide +kernel⟩,
  ⟨0, 1, 3, { sess 256 with unacked := [{ seq := 3, ftype := 0x20, body := [] }] }, { seq := 3, ftype := 0x20, body := [] }, aged (withSess { sess 256 with unacked := [{ seq := 3, ftype := 0x20, body := [] }] }), by decide +kernel⟩,
  ⟨0, 1, 0, sess 256, at' (withSess (sess 256)) 5000, by decide +kernel⟩,
  ⟨0, 1, 0, 10, { sess 256 with perAt := 90 }, at' (withSess { sess 256 with perAt := 90 }) 100, by decide +kernel⟩⟩

/-- The hypotheses of each clause of PairLinkCommandsComplete are met. -/
theorem meets_PairLinkCommandsComplete :
  (∃ (t : Angle) (h : PairHello) (s : State), ((s.tick t).pairState = 3 ∨ (s.tick t).pairState = 4 ∨ ((s.tick t).pairState = 0 ∧ (s.tick t).pairs.seeking = true) ∨ (((s.tick t).pairState = 1 ∨ (s.tick t).pairState = 2) ∧ (s.tick t).syncState ≠ 2)) ∧ (s.tick t).linkWorks = true ∧ (s.tick t).pairable = true ∧ h.authentic = true ∧ ((s.tick t).setFlag Reg.PAIRS_STAT 23 true).pairRefusal h = 0) ∧
  (∃ (t : Angle) (s : State), (s.tick t).syncState = 1 ∧ ((s.tick t).pairState = 1 ∨ (s.tick t).pairState = 2)) ∧
  (∃ (t : Angle) (m : MirrorItem) (s : State), (s.tick t).pairState = 2 ∧ (s.tick t).syncState ≠ 0 ∧ (s.tick t).linkWorks = true ∧ (s.tick t).readOnly = false ∧ (s.tick t).pairs.waiting = [] ∧ (s.tick t).takesItem m = true) ∧
  (∃ (t : Angle) (rsn : Nat) (s : State), (s.tick t).pairState = 1 ∧ (s.tick t).syncState ≠ 0 ∧ (s.tick t).linkWorks = true) ∧
  (∃ (t : Angle) (s : State), (s.tick t).pairState = 1 ∧ (s.tick t).pairs.ackAt + 3 ≤ (s.tick t).cycle) ∧
  (∃ (t : Angle) (s : State), ((s.tick t).pairState = 1 ∨ (s.tick t).pairState = 3) ∧ (s.tick t).angle % 0x8000 = 0 ∧ (s.tick t).linkWorks = true ∧ (s.tick t).pairs.seen = true) ∧
  (∃ (t : Angle) (h : Heartbeat) (s : State), ((s.tick t).pairState = 1 ∨ (s.tick t).pairState = 3) ∧ (s.tick t).linkWorks = true ∧ h.authentic = true ∧ h.pairId.toNat = (s.tick t).pairId ∧ ((h.time : Int) - (s.tick t).now).natAbs ≤ 0x0400) :=
  ⟨⟨0, hello, withPairs (pair 0 0) { seeking := true }, by decide +kernel⟩,
  ⟨0, pair 2 1, by decide +kernel⟩,
  ⟨0, .record 40 2 0 0 [1, 2], pair 2 2, by decide +kernel⟩,
  ⟨0, 5, pair 1 1, by decide +kernel⟩,
  ⟨0, pair 1 2, by decide +kernel⟩,
  ⟨0, withPairs ({ pair 1 2 with now := 6553600 }) { seen := true }, by decide +kernel⟩,
  ⟨0, { version := 1, state := 2, flags := 0, epoch := 3, time := 6557696, rsn := 0, units := 0, h := 0, pairId := 2 ^ 96, authentic := true }, pair 1 2, by decide +kernel⟩⟩

/-- The hypotheses of each clause of PairSwitchCommandsComplete are met. -/
theorem meets_PairSwitchCommandsComplete :
  (∃ (t : Angle) (p : Path) (s : State), ∃ a, (s.tick t).through p 0x4C 0x080 true = some a ∧ a.pfStop = false ∧ a.pairState = 0 ∧ a.pairable = true) ∧
  (∃ (t : Angle) (p : Path) (s : State), ∃ a, (s.tick t).through p 0x4C 0x080 true = some a ∧ a.pfStop = false ∧ a.pairState ≠ 0 ∧ a.pairState ≠ 3 ∧ (¬(a.pairState = 1 ∧ (a.syncState = 1 ∨ a.syncState = 2)))) ∧
  (∃ (t : Angle) (p : Path) (s : State), ∃ a, (s.tick t).through p 0x4C 0x080 true = some a ∧ a.pfStop = false ∧ a.mayYield = true) ∧
  (∃ (t : Angle) (p : Path) (s : State), ∃ a, (s.tick t).through p 0x4C 0x080 true = some a ∧ a.pfStop = false ∧ a.pairState = 1 ∧ a.syncState = 2 ∧ a.fld Reg.PAIRS_TWIN_UNITS 15 0 < a.unitsLost ∧ a.pairs.failing = false) ∧
  (∃ (t : Angle) (p : Path) (s : State), ∃ a, (s.tick t).through p 0x4C 0x080 true = some a ∧ a.pfStop = false ∧ a.calm = true ∧ a.pairState = 2 ∧ a.syncState ≠ 2 ∧ a.silent = true) ∧
  (∃ (t : Angle) (s : State), (s.tick t).pairState = 2 ∧ max 3000 ((s.tick t).fld Reg.PAIRS_HOLD 15 0) ≤ (s.tick t).pairs.healthy ∧ (s.tick t).pairs.takeback = none) ∧
  (∃ (t : Angle) (h : Nat) (code : Nat) (s : State), (s.tick t).pairs.takeback = some (h, code, false) ∧ h ≤ (s.tick t).cycle ∧ (s.tick t).pairs.stopped = false) ∧
  (∃ (t : Angle) (h : Nat) (code : Nat) (s : State), (s.tick t).pairs.takeback = some (h, code, true) ∧ h * 65536 + 0x8000 ≤ (s.tick t).now ∧ (s.tick t).calm = true ∧ (s.tick t).pairState = 2 ∧ (s.tick t).flag Reg.PAIRS_STAT 22 = false) ∧
  (∃ (t : Angle) (s : State), (s.tick t).field.gapUntil ≠ 0 ∧ (s.tick t).field.gapUntil ≤ (s.tick t).now) :=
  ⟨⟨0, .pcie, pair 0 0, witSome (by decide +kernel)⟩,
  ⟨0, .pcie, pair 2 0, witSome (by decide +kernel)⟩,
  ⟨0, .pcie, (pair 1 2).setReg Reg.PAIRS_STAT 0x30080000, witSome (by decide +kernel)⟩,
  ⟨0, .pcie, withGood, witSome (by decide +kernel)⟩,
  ⟨0, .pcie, (pair 2 0).setFld Reg.LINEM_PILOTSTAT 31 16 2, witSome (by decide +kernel)⟩,
  ⟨0, withPairs (pair 2 2) { healthy := 90000 }, by decide +kernel⟩,
  ⟨0, 90, 4, withPairs (pair 1 2) { takeback := some (90, 4, false) }, by decide +kernel⟩,
  ⟨0, 90, 4, withPairs (pair 2 2) { takeback := some (90, 4, true) }, by decide +kernel⟩,
  ⟨0, { pair 1 2 with field := { gapUntil := 100 } }, by decide +kernel⟩⟩

/-- The hypotheses of each clause of KeeperCommandsComplete are met. -/
theorem meets_KeeperCommandsComplete :
  (∃ (t : Angle) (p : Path) (img : List Byte) (s : State), ∃ a, ((s.tick t).store (s.reg Reg.KEEP_LC_OFS) img).through p 0x40 0x05C true = some a ∧ (p = .pcie ∨ p = .svc) ∧ a.pfStop = false ∧ a.lcWait = none ∧ a.field.gapUntil ≤ a.now ∧ a.nv.next = none ∧ a.handingOver = false) ∧
  (∃ (t : Angle) (p : Path) (img : List Byte) (s : State), ∃ a, ((s.tick t).store (s.reg Reg.KEEP_LC_OFS) img).through p 0x40 0x05C true = some a ∧ (p = .pcie ∨ p = .svc) ∧ a.pfStop = false ∧ a.lcWait = none ∧ a.field.gapUntil ≤ a.now ∧ a.nv.next = none ∧ a.handingOver = false ∧ a.provisionCode (a.load (a.reg Reg.KEEP_LC_OFS) 7395) = 0) ∧
  (∃ (t : Angle) (p : Path) (s : State), ∃ a, (s.tick t).through p 0x40 0x0A0 true = some a ∧ a.pfStop = false ∧ a.nv.half = none ∧ a.createCode 1 = 0) ∧
  (∃ (t : Angle) (p : Path) (marked : Bool) (s : State), ∃ a, (s.tick t).through p 0x40 0x0A0 true = some a ∧ a.pfStop = false ∧ a.nv.half = none ∧ a.createCode 1 = 0) ∧
  (∃ (t : Angle) (p : Path) (img : List Byte) (s : State), ∃ a, ((s.tick t).store (s.reg Reg.KEEP_KC_OFS) img).through p 0x40 0x0A0 true = some a ∧ a.pfStop = false ∧ a.nv.half = none ∧ a.createCode 2 = 0 ∧ a.slotOpen (a.fld Reg.KEEP_KC_SLOT 15 8) = true ∧ attrType (a.slot (a.fld Reg.KEEP_KC_SLOT 15 8)).attr = 3 ∧ attrDest (a.slot (a.fld Reg.KEEP_KC_SLOT 15 8)).attr = 15 ∧ attrUse (a.slot (a.fld Reg.KEEP_KC_SLOT 15 8)).attr 1 = true ∧ (a.load (a.reg Reg.KEEP_KC_OFS) (a.reg Reg.KEEP_KC_LEN % 2 ^ 23)).take 16 = a.blobHead) ∧
  (∃ (t : Angle) (p : Path) (img : List Byte) (s : State), ∃ a, ((s.tick t).store (s.reg Reg.KEEP_KC_OFS) img).through p 0x40 0x0A0 true = some a ∧ a.pfStop = false ∧ a.nv.half = none ∧ a.createCode 3 = 0 ∧ a.slotOpen 2 = true ∧ (a.load (a.reg Reg.KEEP_KC_OFS) (a.reg Reg.KEEP_KC_LEN % 2 ^ 23)).take 16 = a.blobHead) ∧
  (∃ (t : Angle) (p : Path) (img : List Byte) (form : Nat) (s : State), ∃ a, ((s.tick t).store (s.reg Reg.KEEP_KC_OFS) img).through p 0x40 0x0A0 true = some a ∧ a.pfStop = false ∧ a.nv.half = none ∧ a.createCode 4 = 0 ∧ a.slotOpen (a.fld Reg.KEEP_KC_SLOT 15 8) = true ∧ (attrDest (a.slot (a.fld Reg.KEEP_KC_SLOT 15 8)).attr = 15 → attrUse (a.slot (a.fld Reg.KEEP_KC_SLOT 15 8)).attr 0 = true) ∧ deriveForm (attrType (a.slot (a.fld Reg.KEEP_KC_SLOT 15 8)).attr) (if attrDest (a.slot (a.fld Reg.KEEP_KC_SLOT 15 8)).attr = 15 then 2 else attrDest (a.slot (a.fld Reg.KEEP_KC_SLOT 15 8)).attr) (attrType (a.fld Reg.KEEP_KC_ATTR 31 16)) (attrDest (a.fld Reg.KEEP_KC_ATTR 31 16)) (a.reg Reg.KEEP_KC_LEN) = some form) ∧
  (∃ (t : Angle) (p : Path) (s : State), ∃ a, (s.tick t).through p 0x40 0x0A0 true = some a ∧ a.pfStop = false ∧ a.nv.half = none ∧ a.nv.next = none ∧ a.handingOver = false ∧ (a.fld Reg.KEEP_KC_SLOT 7 0 < 5 ∨ 7 < a.fld Reg.KEEP_KC_SLOT 7 0) ∧ a.slotSealed (a.fld Reg.KEEP_KC_SLOT 7 0) = false) ∧
  (∃ (t : Angle) (p : Path) (marked : Bool) (s : State), ∃ a, (s.tick t).through p 0x40 0x0A0 true = some a ∧ a.pfStop = false ∧ a.nv.half = none ∧ a.nv.next = none ∧ a.handingOver = false ∧ (a.fld Reg.KEEP_KC_SLOT 7 0 < 5 ∨ 7 < a.fld Reg.KEEP_KC_SLOT 7 0) ∧ a.slotSealed (a.fld Reg.KEEP_KC_SLOT 7 0) = false) ∧
  (∃ (t : Angle) (p : Path) (s : State), ∃ a, (s.tick t).through p 0x40 0x0C8 false = some a ∧ True) ∧
  (∃ (t : Angle) (key : Nat) (acked : Bool) (s : State), ((s.tick t).txKey key).asked = true) :=
  ⟨⟨0, .pcie, [1, 2, 3], kfp, witSome (by decide +kernel)⟩,
  ⟨0, .pcie, token, factory, witSome (by decide +kernel)⟩,
  ⟨0, .pcie, keys 0 0x4080 0, witSome (by decide +kernel)⟩,
  ⟨0, .pcie, true, keys 0 0x4080 0, witSome (by decide +kernel)⟩,
  ⟨0, .pcie, [0, 0, 0x80, 0x40, 9], keys 0x37C8 0x4080 40, witSome (by decide +kernel)⟩,
  ⟨0, .pcie, [0, 0, 0x80, 0x40, 9], keys 0x37C8 0x4080 40, witSome (by decide +kernel)⟩,
  ⟨0, .pcie, [1], 1, keys 0x4480 0x4080 8, witSome (by decide +kernel)⟩,
  ⟨0, .pcie, keys 0 0 0, witSome (by decide +kernel)⟩,
  ⟨0, .pcie, false, keys 0 0 0, witSome (by decide +kernel)⟩,
  ⟨0, .pcie, keys 0 0 0, witSome (by decide +kernel)⟩,
  ⟨0, 5, true, run.setTxKey 5 { asked := true }, by decide +kernel⟩⟩

/-- The hypotheses of each clause of CryptoEngineCommandsComplete are met. -/
theorem meets_CryptoEngineCommandsComplete :
  (∃ (t : Angle) (p : Path) (e : Fin 4) (v : Word) (imgs : List (BitVec 23 × List Byte)) (s : State), ∃ a, (imgs.foldl (fun (s : State) i => s.store i.1.toNat i.2) (s.tick t)).through p (enginePage e) 0x048 true = some a ∧ ringDist (a.jrRd e) (bits 8 0 v.toNat) ≤ a.ringSize e) ∧
  (∃ (t : Angle) (e : Fin 4) (s : State), ((s.tick t).engine e).running ≠ []) ∧
  (∃ (t : Angle) (e : Fin 4) (iters : BitVec 10) (fault : Bool) (x : CryptoJob) (rest : List CryptoJob) (s : State), ((s.tick t).engine e).running = x :: rest ∧ (s.tick t).engineState e < 2 ∧ (s.tick t).resLost (0x20 + e) = false ∧ Job.op ((s.tick t).jobAt e x.idx) ≠ 2) ∧
  (∃ (t : Angle) (p : Path) (e : Fin 4) (v : Word) (s : State), ∃ a, (s.tick t).through p (enginePage e) 0x054 true = some a ∧ ringDist (a.engine e).acked (bits 8 0 v.toNat) ≤ ringDist (a.engine e).acked (a.jrDone e)) ∧
  (∃ (t : Angle) (s : State), (s.tick t).crypto.rngBad = none) ∧
  (∃ (t : Angle) (c : Nat) (s : State), (s.tick t).crypto.rngBad = some c ∧ c + 8000000 ≤ (s.tick t).uptime) ∧
  (∃ (t : Angle) (s : State), (s.tick t).crypto.rngBad ≠ none) ∧
  (∃ (t : Angle) (sensors : BitVec 5) (s : State), sensors ≠ 0) ∧
  (∃ (t : Angle) (s : State), (s.tick t).crypto.alarmAt ≠ none) :=
  ⟨⟨0, .pcie, 0, 1, [], flow, witSome (by decide +kernel)⟩,
  ⟨0, 0, engines, by decide +kernel⟩,
  ⟨0, 0, 1, false, { idx := 0 }, [], engines, by decide +kernel⟩,
  ⟨0, .pcie, 0, 0, engines, witSome (by decide +kernel)⟩,
  ⟨0, engines, by decide +kernel⟩,
  ⟨0x2000, 0, { engines with crypto := { engines.crypto with rngBad := some 0 } }, by decide +kernel⟩,
  ⟨0, { engines with crypto := { engines.crypto with rngBad := some 0 } }, by decide +kernel⟩,
  ⟨0, 4, engines, by decide +kernel⟩,
  ⟨0, { engines with crypto := { engines.crypto with alarmAt := some 0 } }, by decide +kernel⟩⟩

/-- The hypotheses of each clause of DomainCommandsComplete are met. -/
theorem meets_DomainCommandsComplete :
  (∃ (t : Angle) (p : Path) (s : State), ∃ a, (s.tick t).through p 0x02 0x068 true = some a ∧ mayOff (a.fld Reg.PWR_DOM_SEL 4 0) = true ∧ domainAbsent a.fac.variant (a.fld Reg.PWR_DOM_SEL 4 0) = false ∧ a.dom (a.fld Reg.PWR_DOM_SEL 4 0) ≠ 4) ∧
  (∃ (t : Angle) (p : Path) (s : State), ∃ a, (s.tick t).through p 0x02 0x068 true = some a ∧ mayOff (a.fld Reg.PWR_DOM_SEL 4 0) = true ∧ domainAbsent a.fac.variant (a.fld Reg.PWR_DOM_SEL 4 0) = false ∧ a.dom (a.fld Reg.PWR_DOM_SEL 4 0) = 3) ∧
  (∃ (t : Angle) (d : BitVec 5) (refusers : List (BitVec 8)) (timer : Nat) (s : State), (s.tick t).idleTimer d.toNat = some timer ∧ mayDoze d.toNat = true ∧ (s.tick t).dom d.toNat = 0 ∧ timer ≤ (s.tick t).fld (domKey d.toNat) 15 0 ∧ domainAbsent s.fac.variant d.toNat = false ∧ (s.tick t).firstRefuser d.toNat refusers = none) ∧
  (∃ (t : Angle) (d : BitVec 5) (refusers : List (BitVec 8)) (abort : Option (BitVec 8)) (timer : Nat) (id : Nat) (s : State), (s.tick t).idleTimer d.toNat = some timer ∧ mayDoze d.toNat = true ∧ (s.tick t).dom d.toNat = 0 ∧ timer ≤ (s.tick t).fld (domKey d.toNat) 15 0 ∧ domainAbsent s.fac.variant d.toNat = false ∧ (s.tick t).firstRefuser d.toNat refusers = some id) ∧
  (∃ (t : Angle) (d : BitVec 5) (refusers : List (BitVec 8)) (abort : Option (BitVec 8)) (s : State), mayRetain d.toNat = true ∧ (s.tick t).dom d.toNat = 1 ∧ (∀ p ∈ domainPages d.toNat, (s.tick t).flag (p * 0x1000 + 0x024) 31 = true) ∧ (s.tick t).keepsFrontEnd d.toNat = false ∧ (∀ p ∈ domainPages d.toNat, max 1 ((s.tick t).fld (p * 0x1000 + 0x024) 23 16) ≤ (s.tick t).idleRetain.getD d.toNat 0) ∧ (s.tick t).firstRefuser d.toNat refusers = none) ∧
  (∃ (t : Angle) (d : BitVec 5) (s : State), ((s.tick t).dom d.toNat = 1 ∨ (s.tick t).dom d.toNat = 2 ∨ (s.tick t).dom d.toNat = 5 ∨ (s.tick t).dom d.toNat = 6)) ∧
  (∃ (t : Angle) (src : Fin 6) (lane : Fin 6) (frame : List Byte) (d : Nat) (s : State), src.val ≠ 1 ∧ src.val ≠ 2 ∧ (src.val = 3 → (s.tick t).wakeMatch frame = true) ∧ d < 25 ∧ (s.tick t).wakeEnabled d (24 + src.val) = true ∧ ((s.tick t).dom d = 1 ∨ (s.tick t).dom d = 2)) ∧
  (∃ (t : Angle) (lane : Fin 6) (frame : List Byte) (d : Nat) (s : State), ((s.tick t).dom (11 + lane.val / 2) = 0 ∨ (s.tick t).dom (11 + lane.val / 2) = 1) ∧ d < 25 ∧ (s.tick t).wakeEnabled d 25 = true ∧ ((s.tick t).dom d = 1 ∨ (s.tick t).dom d = 2)) ∧
  (∃ (t : Angle) (lane : Fin 6) (frame : List Byte) (d : Nat) (s : State), ((s.tick t).dom (14 + lane.val % 2) = 0 ∨ (s.tick t).dom (14 + lane.val % 2) = 1) ∧ d < 25 ∧ (s.tick t).wakeEnabled d 26 = true ∧ ((s.tick t).dom d = 1 ∨ (s.tick t).dom d = 2)) ∧
  (∃ (t : Angle) (p : Path) (page : BitVec 8) (off : BitVec 12) (write : Bool) (s : State), ((s.tick t).dom (pageDomain page.toNat) = 1 ∨ (s.tick t).dom (pageDomain page.toNat) = 2 ∨ (s.tick t).dom (pageDomain page.toNat) = 6)) ∧
  (∃ (t : Angle) (d : BitVec 5) (s : State), d.toNat < 25 ∧ ((s.tick t).dom d.toNat = 2 ∨ (s.tick t).dom d.toNat = 3 ∨ (s.tick t).dom d.toNat = 5)) ∧
  (∃ (t : Angle) (d : BitVec 5) (s : State), d.toNat < 25 ∧ (s.tick t).dom d.toNat = 6 ∧ 1 ≤ (s.tick t).fld (domKey d.toNat) 28 27 ∧ domainAbsent s.fac.variant d.toNat = false) ∧
  (∃ (t : Angle) (cd : Fin 14) (s : State), cd.val ≠ 11) :=
  ⟨⟨0, .pcie, dom16 0 0, witSome (by decide +kernel)⟩,
  ⟨0, .pcie, dom16 3 0, witSome (by decide +kernel)⟩,
  ⟨0, 16, [], 5, dom16 0 5, by decide +kernel⟩,
  ⟨0, 16, [7, 3], none, 5, 3, dom16 0 5, by decide +kernel⟩,
  ⟨0, 16, [], some 5, { dom16 1 0x80000000 with idleRetain := [(16, 3)] }, by decide +kernel⟩,
  ⟨0, 16, dom16 2 0, by decide +kernel⟩,
  ⟨0, 0, 0, [], 16, dom16 2 0x01000000, by decide +kernel⟩,
  ⟨0, 0, [], 16, dom16 2 0x02000000, by decide +kernel⟩,
  ⟨0, 0, [], 16, dom16 2 0x04000000, by decide +kernel⟩,
  ⟨0, .pcie, 0x14, 0x40, false, dom16 2 0, by decide +kernel⟩,
  ⟨0, 16, dom16 2 0, by decide +kernel⟩,
  ⟨0, 16, (dom16 6 0).setFld (domKey 16) 28 27 1, by decide +kernel⟩,
  ⟨0, 3, run, by decide +kernel⟩⟩

/-- The hypotheses of each clause of SupplyAndThermalCommandsComplete are met. -/
theorem meets_SupplyAndThermalCommandsComplete :
  (∃ (t : Angle) (cause : Fin 3) (s : State), (s.tick t).warns cause = true ∧ (s.tick t).fld Reg.PWR_PWRSTAT 31 29 = 0 ∧ (s.tick t).boot.hold ≠ 1 ∧ (s.tick t).boot.hold ≠ 2 ∧ (s.tick t).boot.kind = none ∧ (s.tick t).boot.done.contains 10 = false) ∧
  (∃ (t : Angle) (cause : Fin 3) (s : State), (s.tick t).warns cause = true ∧ (s.tick t).fld Reg.PWR_PWRSTAT 31 29 = 0 ∧ (s.tick t).boot.hold ≠ 1 ∧ (s.tick t).boot.hold ≠ 2 ∧ (s.tick t).boot.kind = none ∧ (s.tick t).boot.done.contains 10 = true ∧ (s.tick t).storeRuns = true ∧ ((((s.tick t).setFld Reg.PWR_PWRSTAT 31 29 (cause.val + 1)).raise 0x02 0).shed.stopWriting).storeRuns = true ∧ ((((s.tick t).setFld Reg.PWR_PWRSTAT 31 29 (cause.val + 1)).raise 0x02 0).shed.stopWriting).shutdownOpen.groupFits 1 = true) ∧
  (∃ (t : Angle) (cause : Fin 3) (k : Nat × Nat) (s : State), (s.tick t).warns cause = true ∧ (s.tick t).fld Reg.PWR_PWRSTAT 31 29 = 0 ∧ (s.tick t).boot.hold ≠ 1 ∧ (s.tick t).boot.hold ≠ 2 ∧ (s.tick t).boot.kind = some k) ∧
  (∃ (t : Angle) (s : State), (s.tick t).fld Reg.LEDG_STAT 31 29 = 2 ∧ (s.tick t).boot.hold = 0 ∧ (s.tick t).boot.kind = none) ∧
  (∃ (t : Angle) (s : State), (s.tick t).fld Reg.LEDG_STAT 31 29 = 2 ∧ (s.tick t).boot.hold = 0 ∧ (s.tick t).boot.kind = none) ∧
  (∃ (t : Angle) (vigilLost : Bool) (l1 : Bool) (s : State), (s.tick t).boot.hold = 1) ∧
  (∃ (t : Angle) (base : BitVec 8) (s : State), (s.tick t).boot.hold = 2 ∧ base.toNat ≤ 130) ∧
  (∃ (t : Angle) (base : BitVec 8) (die : BitVec 8) (bank : BitVec 8) (s : State), ((s.tick t).fld Reg.THERM_TSTAT 1 0 ≤ 1 ∨ 2 ≤ (s.tick t).thermalLevel base.toNat die.toNat ((s.tick t).critHeld base.toNat die.toNat))) :=
  ⟨⟨0, 0, starting [1, 3, 7], by decide +kernel⟩,
  ⟨0, 0, runSmall, by decide +kernel⟩,
  ⟨0, 0, (2, 1), { flow with boot := { flow.boot with kind := some (2, 1) } }, by decide +kernel⟩,
  ⟨0, flow.setFld Reg.LEDG_STAT 31 29 2, by decide +kernel⟩,
  ⟨0, flow.setFld Reg.LEDG_STAT 31 29 2, by decide +kernel⟩,
  ⟨0, false, true, { flow with boot := { hold := 1 } }, by decide +kernel⟩,
  ⟨0, 100, { flow with boot := { hold := 2 } }, by decide +kernel⟩,
  ⟨0, 100, 120, 90, flow, by decide +kernel⟩⟩

/-- The hypotheses of each clause of ResetCommandsComplete are met. -/
theorem meets_ResetCommandsComplete :
  (∃ (t : Angle) (p : Path) (v : Word) (s : State), ∃ a, (s.tick t).through p 0x00 0x068 true = some a ∧ v = 0x53595354) ∧
  (∃ (t : Angle) (s : State), (s.tick t).boot.kind = none ∧ (s.tick t).boot.hold ≠ 1 ∧ (s.tick t).boot.hold ≠ 2 ∧ (s.tick t).storeRuns = false) ∧
  (∃ (t : Angle) (s : State), (s.tick t).boot.kind = none ∧ (s.tick t).boot.hold ≠ 1 ∧ (s.tick t).boot.hold ≠ 2 ∧ (s.tick t).storeRuns = true ∧ (s.tick t).pfStop = false) ∧
  (∃ (t : Angle) (s : State), (s.tick t).pfStop = false ∧ (s.tick t).boot.kind = none ∧ (s.tick t).boot.hold ≠ 1 ∧ (s.tick t).boot.hold ≠ 2 ∧ (s.tick t).storeRuns = false) ∧
  (∃ (t : Angle) (s : State), (s.tick t).pfStop = false ∧ (s.tick t).boot.kind = none ∧ (s.tick t).boot.hold ≠ 1 ∧ (s.tick t).boot.hold ≠ 2 ∧ (s.tick t).storeRuns = true) ∧
  (∃ (t : Angle) (p : Path) (page : BitVec 8) (s : State), ∃ a, (s.tick t).through p page.toNat 0x00C true = some a ∧ True) :=
  ⟨⟨0, .pcie, 0x53595354, flow, witSome (by decide +kernel)⟩,
  ⟨0, (starting [1, 3]).setFld Reg.LEDG_STAT 31 29 0, by decide +kernel⟩,
  ⟨0, flow, by decide +kernel⟩,
  ⟨0, (starting [1, 3]).setFld Reg.LEDG_STAT 31 29 0, by decide +kernel⟩,
  ⟨0, flow, by decide +kernel⟩,
  ⟨0, .pcie, 0x14, dom16 0 5, witSome (by decide +kernel)⟩⟩

/-- The hypotheses of each clause of StartupCommandsComplete are met. -/
theorem meets_StartupCommandsComplete :
  (∃ (t : Angle) (s : State), (s.tick t).stepReady 1 = true ∧ ((s.tick t).reg Reg.SYS_RSTCAUSE = 0 ∨ (s.tick t).fld Reg.SYS_RSTCAUSE 2 0 = 1)) ∧
  (∃ (t : Angle) (card : Option CardRx) (n : Nat) (s : State), (s.tick t).stepReady 2 = true ∧ (s.tick t).roleSlot 2 = none ∧ (s.tick t).roleSlot 1 = some n ∧ (s.tick t).bootsImage ((s.tick t).image n).cart = true) ∧
  (∃ (t : Angle) (s : State), (s.tick t).stepReady 3 = true) ∧
  (∃ (t : Angle) (intact : Bool) (n : LcNext) (s : State), (s.tick t).stepReady 4 = true ∧ (s.tick t).nv.next = some n ∧ (intact = true ∨ (n.target ≠ 2 ∧ n.target ≠ 3))) ∧
  (∃ (t : Angle) (intact : Bool) (s : State), (s.tick t).stepReady 4 = true ∧ (s.tick t).nv.next = none) ∧
  (∃ (t : Angle) (ms : Nat) (tests : List BlockTest) (queues : List (Fin 32)) (s : State), (s.tick t).stepReady 5 = true ∧ (s.tick t).flag Reg.BIST_SCANCTL 0 = false) ∧
  (∃ (t : Angle) (ms : Nat) (tests : List BlockTest) (queues : List (Fin 32)) (s : State), (s.tick t).stepReady 5 = true ∧ (s.tick t).flag Reg.BIST_SCANCTL 0 = true) ∧
  (∃ (t : Angle) (c : BitVec 16) (v : BitVec 16) (s : State), (s.tick t).stepReady 6 = true) ∧
  (∃ (t : Angle) (readable : Bool) (stop : Option (BitVec 64)) (reads : List (BitVec 19 × StripeRead)) (s : State), (s.tick t).stepReady 7 = true ∧ (readable = false ∨ (s.tick t).led.formatted = false) ∧ (s.tick t).nv.lc ≠ 1 ∧ (s.tick t).nv.lc ≠ 5) ∧
  (∃ (t : Angle) (readable : Bool) (stop : Option (BitVec 64)) (reads : List (BitVec 19 × StripeRead)) (s : State), (s.tick t).stepReady 7 = true ∧ ((readable = true ∧ (s.tick t).led.formatted = true) ∨ (s.tick t).nv.lc = 1 ∨ (s.tick t).nv.lc = 5)) ∧
  (∃ (t : Angle) (link : Bool) (s : State), (s.tick t).stepReady 8 = true ∧ (s.tick t).pairable = true) ∧
  (∃ (t : Angle) (link : Bool) (s : State), (s.tick t).stepReady 8 = true ∧ (s.tick t).pairable = false) ∧
  (∃ (t : Angle) (s : State), (s.tick t).stepReady 9 = true) ∧
  (∃ (t : Angle) (ms : Nat) (s : State), (s.tick t).stepReady 10 = true) ∧
  (∃ (t : Angle) (s : State), (s.tick t).pairState = 4 ∧ (s.tick t).boot.pairAt + 100 ≤ (s.tick t).cycle ∧ (s.tick t).boot.done.contains 8 = false) :=
  ⟨⟨0, powered, by decide +kernel⟩,
  ⟨0, none, 0, { starting [1] with upd := { images := [(0, { role := 1 })] } }, by decide +kernel⟩,
  ⟨0, starting [1], by decide +kernel⟩,
  ⟨0, true, { target := 2 }, { starting [1, 2] with nv := { flow.nv with lc := 1, next := some { target := 2 } } }, by decide +kernel⟩,
  ⟨0, false, starting [1, 2], by decide +kernel⟩,
  ⟨0, 400, [], [], starting [1, 2, 4], by decide +kernel⟩,
  ⟨0, 400, [], [], (starting [1, 2, 4]).setFlag Reg.BIST_SCANCTL 0 true, by decide +kernel⟩,
  ⟨0, 2000, 3000, starting [1], by decide +kernel⟩,
  ⟨0, false, none, [], starting [6, 5, 4, 3, 2, 1], by decide +kernel⟩,
  ⟨0, true, none, [], starting [6, 5, 4, 3, 2, 1], by decide +kernel⟩,
  ⟨0, true, { pair 0 0 with boot := { done := [5] } }, by decide +kernel⟩,
  ⟨0, true, starting [5], by decide +kernel⟩,
  ⟨0, starting [7, 8], by decide +kernel⟩,
  ⟨0, 1500, starting [3, 6, 9], by decide +kernel⟩,
  ⟨0, { at' (pair 4 0) 5000 with boot := { done := [5], pairAt := 100 } }, by decide +kernel⟩⟩

/-- The hypotheses of each clause of SelfTestCommandsComplete are met. -/
theorem meets_SelfTestCommandsComplete :
  (∃ (t : Angle) (blk : BitVec 6) (sig : BitVec 64) (s : State), (s.tick t).slicesRun = true ∧ (s.tick t).testable blk.toNat = true ∧ ((s.tick t).sliceStands blk.toNat = true ∨ (s.tick t).repeatRuns blk.toNat = true) ∧ (s.tick t).slicePos blk.toNat + 1 < blockSlices blk.toNat) ∧
  (∃ (t : Angle) (blk : BitVec 6) (sig : BitVec 64) (s : State), (s.tick t).slicesRun = true ∧ (s.tick t).testable blk.toNat = true ∧ ((s.tick t).sliceStands blk.toNat = true ∨ (s.tick t).repeatRuns blk.toNat = true) ∧ blockSlices blk.toNat ≤ (s.tick t).slicePos blk.toNat + 1) ∧
  (∃ (t : Angle) (blk : BitVec 6) (sig : BitVec 64) (queues : List (Fin 32)) (s : State), (s.tick t).slicesRun = true ∧ (s.tick t).testable blk.toNat = true ∧ ((s.tick t).sliceStands blk.toNat = true ∨ (s.tick t).repeatRuns blk.toNat = true) ∧ (∀ n c, (s.tick t).boot.again = some (blk.toNat, n, c) → n ≠ (s.tick t).slicePos blk.toNat)) ∧
  (∃ (t : Angle) (blk : BitVec 6) (sig : BitVec 64) (queues : List (Fin 32)) (c : Nat) (s : State), (s.tick t).slicesRun = true ∧ (s.tick t).testable blk.toNat = true ∧ ((s.tick t).sliceStands blk.toNat = true ∨ (s.tick t).repeatRuns blk.toNat = true) ∧ (s.tick t).boot.again = some (blk.toNat, (s.tick t).slicePos blk.toNat, c) ∧ blockModule blk.toNat = false) ∧
  (∃ (t : Angle) (blk : BitVec 6) (sig : BitVec 64) (queues : List (Fin 32)) (c : Nat) (s : State), (s.tick t).slicesRun = true ∧ (s.tick t).testable blk.toNat = true ∧ ((s.tick t).sliceStands blk.toNat = true ∨ (s.tick t).repeatRuns blk.toNat = true) ∧ (s.tick t).boot.again = some (blk.toNat, (s.tick t).slicePos blk.toNat, c) ∧ blockModule blk.toNat = true ∧ (s.tick t).boot.kind = none ∧ (s.tick t).storeRuns = true) ∧
  (∃ (t : Angle) (blk : BitVec 6) (sig : BitVec 64) (id : Nat) (o : Obligation) (s : State), (s.tick t).slicesRun = true ∧ (s.tick t).testable blk.toNat = true ∧ (s.tick t).boot.slice = some (blk.toNat, id) ∧ (s.tick t).obl id = some o ∧ o.cls = 3 ∧ ((s.tick t).flag Reg.SLALOM_STATUS 31 = true → (s.tick t).revokeReason (sliceRes blk.toNat) ≠ 0x1F)) ∧
  (∃ (t : Angle) (blk : BitVec 6) (sig : BitVec 64) (finish : SliceEnd) (s : State), (s.tick t).slicesRun = true ∧ (s.tick t).testable blk.toNat = true ∧ ((finish = .cut ∧ (s.tick t).sliceStands blk.toNat = true) ∨ ((finish = .cut ∨ finish = .revoked) ∧ (s.tick t).sliceStands blk.toNat = false ∧ (s.tick t).repeatRuns blk.toNat = true))) ∧
  (∃ (t : Angle) (blk : BitVec 6) (s : State), (s.tick t).testable blk.toNat = true) ∧
  (∃ (t : Angle) (p : Path) (v : Word) (s : State), ∃ a, (s.tick t).through p 0x48 0x044 true = some a ∧ v.toNat.testBit 0 = true ∧ (a.nv.lc = 1 ∨ a.nv.lc = 4 ∨ a.nv.lc = 5) ∧ a.boot.done.contains 1 = true ∧ a.boot.done.contains 4 = false) :=
  ⟨⟨0, 0, 0, sliced 0 3, by decide +kernel⟩,
  ⟨0, 0, 0, sliced 0 54, by decide +kernel⟩,
  ⟨0, 0, 0, [], sliced 0 3, by decide +kernel, by decide +kernel, by decide +kernel, fun _ _ h => nomatch h⟩,
  ⟨0, 0, 0, [], 99, bist 3 (some (0, 3, 99)), by decide +kernel⟩,
  ⟨0, 4, 0, [], 99, bist 3 (some (4, 0, 99)), by decide +kernel⟩,
  ⟨0, 0, 0, 0x100005, ((sliced 0 3).obl 0x100005).getD { cls := 0, deadline := 0 }, sliced 0 3, by refine ⟨?_, ?_, ?_, ?_, ?_, ?_⟩ <;> first | decide +kernel | exact Prod.ext (by decide +kernel) rfl | rfl | exact .inl (by decide +kernel)⟩,
  ⟨0, 0, 0, .cut, sliced 0 3, by decide +kernel⟩,
  ⟨0, 0, bist 3 none, by decide +kernel⟩,
  ⟨0, .pcie, 1, { starting [1] with nv := { flow.nv with lc := 1 } }, witSome (by decide +kernel)⟩⟩

/-- The hypotheses of each clause of LogbookCommandsComplete are met. -/
theorem meets_LogbookCommandsComplete :
  (∃ (t : Angle) (p : Path) (v : Word) (s : State), ∃ a, (s.tick t).through p 0x49 0x068 true = some a ∧ ∃ b, a.plainWrite 0x49 0x068 v = .done b ∧ instrumentKnown (a.fld Reg.LOGB_I_SEL 7 0) = true) ∧
  (∃ (t : Angle) (p : Path) (s : State), ∃ a, (s.tick t).through p 0x49 0x06C true = some a ∧ instrumentKnown (a.fld Reg.LOGB_I_SEL 7 0) = true) ∧
  (∃ (t : Angle) (p : Path) (s : State), ∃ a, (s.tick t).through p 0x49 0x06C true = some a ∧ instrumentKnown (a.fld Reg.LOGB_I_SEL 7 0) = true) ∧
  (∃ (t : Angle) (p : Path) (s : State), ∃ a, (s.tick t).through p 0x49 0x06C true = some a ∧ instrumentKnown (a.fld Reg.LOGB_I_SEL 7 0) = true) ∧
  (∃ (t : Angle) (p : Path) (s : State), ∃ a, (s.tick t).through p 0x49 0x00C true = some a ∧ True) ∧
  (∃ (t : Angle) (p : Path) (s : State), ∃ a, (s.tick t).through p 0x49 0x00C true = some a ∧ True) ∧
  (∃ (t : Angle) (s : State), (s.tick t).frozen = true ∧ (s.tick t).log.frozenAt + max 50 ((s.tick t).fld Reg.LOGB_CFG 23 8) ≤ (s.tick t).cycle) ∧
  (∃ (t : Angle) (p : Path) (rec' : Nat) (word : Nat) (s : State), ∃ a, (s.tick t).through p 0x49 0x054 false = some a ∧ a.log.cursors.find (pathIdx p) = some (0, rec', word)) ∧
  (∃ (t : Angle) (p : Path) (rec' : Nat) (word : Nat) (s : State), ∃ a, (s.tick t).through p 0x49 0x054 false = some a ∧ a.log.cursors.find (pathIdx p) = some (1, rec', word)) ∧
  (∃ (t : Angle) (p : Path) (v : Word) (s : State), ∃ a, (s.tick t).through p 0x49 0x074 true = some a ∧ a.frozen = false) ∧
  (∃ (t : Angle) (p : Path) (v : Word) (i : Nat) (s : State), ∃ a, (s.tick t).through p 0x49 0x080 true = some a ∧ a.frozen = false ∧ logSlot a.log.entries (v.toNat % 4) = some i) ∧
  (∃ (t : Angle) (p : Path) (v : Word) (s : State), ∃ a, (s.tick t).through p 0x49 0x080 true = some a ∧ a.frozen = true ∧ a.log.hold.length < 64) ∧
  (∃ (t : Angle) (p : Path) (v : Word) (s : State), ∃ a, (s.tick t).through p 0x49 0x0B4 true = some a ∧ v = 0x4C47434C ∧ (a.nv.lc = 1 ∨ a.nv.lc = 4 ∨ a.nv.lc = 5)) :=
  ⟨⟨0, .pcie, 7, book, witDone (by decide +kernel)⟩,
  ⟨0, .pcie, book, witSome (by decide +kernel)⟩,
  ⟨0, .pcie, book, witSome (by decide +kernel)⟩,
  ⟨0, .pcie, book, witSome (by decide +kernel)⟩,
  ⟨0, .pcie, book, witSome (by decide +kernel)⟩,
  ⟨0, .pcie, book.setFlag Reg.LOGB_STAT 31 true, witSome (by decide +kernel)⟩,
  ⟨0, at' (book.setFlag Reg.LOGB_STAT 31 true) 10000000, by decide +kernel⟩,
  ⟨0, .pcie, 255, 47, bookAt 0 255 47, witSome (by decide +kernel)⟩,
  ⟨0, .pcie, 5, 2, bookAt 1 5 2, witSome (by decide +kernel)⟩,
  ⟨0, .pcie, 7, book, witSome (by decide +kernel)⟩,
  ⟨0, .pcie, 2, 0, book.setReg Reg.LOGB_NOTE_D0 9, witSome (by decide +kernel)⟩,
  ⟨0, .pcie, 2, book.setFlag Reg.LOGB_STAT 31 true, witSome (by decide +kernel)⟩,
  ⟨0, .pcie, 0x4C47434C, { book with nv := { book.nv with lc := 4 } }, witSome (by decide +kernel)⟩⟩

/-- The hypotheses of each clause of UpdateStageCommandsComplete are met. -/
theorem meets_UpdateStageCommandsComplete :
  (∃ (t : Angle) (p : Path) (s : State), ∃ a, (s.tick t).through p 0x4A 0x058 true = some a ∧ a.stageBusy = false ∧ a.flag Reg.UPD_SRC 8 = true) ∧
  (∃ (t : Angle) (p : Path) (f : List Byte × List Byte) (s : State), ∃ a, (s.tick t).through p 0x4A 0x058 true = some a ∧ a.stageBusy = false ∧ a.flag Reg.UPD_SRC 8 = false ∧ a.flag Reg.SDC_STAT 0 = true ∧ a.upd.files[a.fld Reg.UPD_SRC 3 0]? = some f) ∧
  (∃ (t : Angle) (p : Path) (img : List Byte) (s : State), ∃ a, ((s.tick t).store (s.reg Reg.UPD_HCHUNK_OFS) img).through p 0x4A 0x058 true = some a ∧ a.stage = 1 ∧ a.upd.fromCard = false ∧ a.reg Reg.UPD_HCHUNK_LEN ≤ 0x800000) ∧
  (∃ (t : Angle) (p : Path) (s : State), ∃ a, (s.tick t).through p 0x4A 0x058 true = some a ∧ a.stage = 1 ∧ a.upd.fromCard = false) ∧
  (∃ (t : Angle) (crc : BitVec 8) (timeouts : BitVec 8) (s : State), (s.tick t).stage = 1 ∧ (s.tick t).upd.fromCard = true) ∧
  (∃ (t : Angle) (s : State), (s.tick t).stage = 2) ∧
  (∃ (t : Angle) (p : Path) (s : State), ∃ a, (s.tick t).through p 0x4A 0x058 true = some a ∧ (a.stage = 1 ∨ a.stage = 3)) ∧
  (∃ (t : Angle) (p : Path) (v : Word) (card : Option CardRx) (s : State), ∃ a, (s.tick t).through p 0x55 0x074 true = some a ∧ v.toNat.testBit 0 = true) ∧
  (∃ (t : Angle) (init : Bool) (crc : BitVec 8) (timeouts : BitVec 8) (s : State), (s.tick t).flag Reg.SDC_STAT 31 = true) :=
  ⟨⟨0, .pcie, (stage 0).setFlag Reg.UPD_SRC 8 true, witSome (by decide +kernel)⟩,
  ⟨0, .pcie, ([], [1, 2]), { (stage 0).setFlag Reg.SDC_STAT 0 true with upd := { (stage 0).upd with files := [([], [1, 2])] } }, witSome (by decide +kernel)⟩,
  ⟨0, .pcie, [1, 2, 3], (stage 1).setReg Reg.UPD_HCHUNK_LEN 3, witSome (by decide +kernel)⟩,
  ⟨0, .pcie, stage 1, witSome (by decide +kernel)⟩,
  ⟨0, 0, 0, { stage 1 with upd := { (stage 1).upd with fromCard := true } }, by decide +kernel⟩,
  ⟨0, stage 2, by decide +kernel⟩,
  ⟨0, .pcie, stage 3, witSome (by decide +kernel)⟩,
  ⟨0, .pcie, 1, some { kind := 1, mode := 0, ok := true, files := [] }, run.setFlag Reg.SDC_STAT 31 true, witSome (by decide +kernel)⟩,
  ⟨0, true, 0, 0, run.setFlag Reg.SDC_STAT 31 true, by decide +kernel⟩⟩

/-- The hypotheses of each clause of HandoverCommandsComplete are met. -/
theorem meets_HandoverCommandsComplete :
  (∃ (t : Angle) (p : Path) (n : Nat) (s : State), ∃ a, (s.tick t).through p 0x4A 0x058 true = some a ∧ a.roleSlot 4 = some n ∧ a.stage = 3 ∧ a.handingOver = false ∧ a.coresCarry = true) ∧
  (∃ (t : Angle) (h : Handover) (s : State), (s.tick t).upd.hover = some h ∧ h.w = none ∧ (s.tick t).cycle ≤ h.since + (s.tick t).hoverMax) ∧
  (∃ (t : Angle) (h : Handover) (w : Nat) (s : State), (s.tick t).upd.hover = some h ∧ h.w = some w ∧ w ≤ (s.tick t).cycle ∧ h.rsn = none ∧ h.back = false) ∧
  (∃ (t : Angle) (h : Handover) (w : Nat) (s : State), (s.tick t).upd.hover = some h ∧ h.w = some w ∧ w ≤ (s.tick t).cycle ∧ h.rsn = none ∧ h.back = true) ∧
  (∃ (t : Angle) (h : Handover) (s : State), (s.tick t).upd.hover = some h ∧ h.w = none ∧ h.rsn = none ∧ h.since + (s.tick t).hoverMax ≤ (s.tick t).cycle) ∧
  (∃ (t : Angle) (p : Path) (s : State), ∃ a, (s.tick t).through p 0x4A 0x058 true = some a ∧ a.stage = 5 ∧ a.handingOver = false ∧ a.upd.confirm = none ∧ a.confCyc ≤ a.fld Reg.UPD_HEALTHY 15 0 ∧ a.readOnly = false) ∧
  (∃ (t : Angle) (w : Nat) (n : Nat) (s : State), (s.tick t).upd.trial = some w ∧ w + (s.tick t).trialCyc ≤ (s.tick t).cycle ∧ (s.tick t).upd.confirm = none ∧ (s.tick t).handingOver = false ∧ (s.tick t).roleSlot 1 = some n) ∧
  (∃ (t : Angle) (w : Nat) (s : State), (s.tick t).upd.trial = some w ∧ w + (s.tick t).trialCyc ≤ (s.tick t).cycle ∧ (s.tick t).upd.confirm = none ∧ (s.tick t).handingOver = false ∧ (s.tick t).roleSlot 1 = none) ∧
  (∃ (t : Angle) (p : Path) (n : Nat) (s : State), ∃ a, (s.tick t).through p 0x4A 0x058 true = some a ∧ a.handingOver = false ∧ a.stage = 5 ∧ a.upd.confirm = none ∧ a.roleSlot 1 = some n) ∧
  (∃ (t : Angle) (p : Path) (n : Nat) (s : State), ∃ a, (s.tick t).through p 0x4A 0x058 true = some a ∧ a.handingOver = false ∧ (a.stage = 0 ∨ a.stage = 3) ∧ a.roleSlot 3 = some n ∧ a.nv.minLevel ≤ cartLevel (a.image n).cart ∧ a.coresCarry = true) ∧
  (∃ (t : Angle) (p : Path) (v : Word) (s : State), ∃ a, (s.tick t).through p 0x4A 0x0A4 true = some a ∧ (a.node (a.fld Reg.UPD_GRP_NODE 12 0)).state ≠ 0) ∧
  (∃ (t : Angle) (r : Fin 10) (id : Nat) (c : Nat) (key : Nat × State) (o : Obligation) (s : State) (a : State), (s.tick t).obl id = some o ∧ o.op = 0x20 ∧ 2 ≤ o.frames.getD r 0 ∧ (s.tick t).exchange r = none ∧ r.val ≤ 5 ∧ (s.tick t).lineReady r = true ∧ (s.tick t).startsHere r = true ∧ (s.tick t).sends r (s.tick t).cycle (s.tick t).cycle = false ∧ (s.tick t).awaits r (s.tick t).cycle (s.tick t).cycle = false ∧ (s.tick t).expects (sisterOf r) (s.tick t).cycle ((s.tick t).cycle + (s.tick t).bulkFrameWork r / 65536 - 1) = false ∧ (s.tick t).lineClear r (s.tick t).cycle ((s.tick t).cycle + (s.tick t).bulkFrameWork r / 65536 - 1) = true ∧ (s.tick t).drawGroup 1 r = (.value c, a) ∧ a.groupSecretNow (lineGroupKey r) = key ∧ key.2.obl id = some o) ∧
  (∃ (t : Angle) (r : Fin 10) (id : Nat) (c : Nat) (sec : AirSec) (body : List Byte) (o : Obligation) (s : State) (a : State) (k : State), (s.tick t).obl id = some o ∧ o.op = 0x20 ∧ 2 ≤ o.frames.getD r 0 ∧ (s.tick t).exchange r = none ∧ 8 ≤ r.val ∧ (s.tick t).airSearching (r - 8) = false ∧ (s.tick t).drawGroup 2 (r - 8) = (.value c, a) ∧ a.groupSec (r - 8) 6 c = (sec, k) ∧ k.obl id = some o ∧ body = Sys2Proof.Machine.bulkSegment ((s.tick t).upd.nodes.getD (leAt o.records 0 1) []) o.records 128 (clampNat 1 4 (leAt o.records 1 1) * leAt o.records 6 2 - o.frames.getD r 0) ∧ (k.sendAir (r - 8) (0x8000 + o.node) 0xC (39 + body.length) k.now 3 false none (some sec) body).1 = true) :=
  ⟨⟨0, .pcie, 1, stage 3, witSome (by decide +kernel)⟩,
  ⟨0, { since := 99, slot := 1 }, handing { since := 99, slot := 1 }, by decide +kernel⟩,
  ⟨0, { since := 99, slot := 1, w := some 100 }, 100, handing { since := 99, slot := 1, w := some 100 }, by decide +kernel⟩,
  ⟨0, { since := 99, slot := 1, back := true, w := some 100 }, 100, handing { since := 99, slot := 1, back := true, w := some 100 }, by decide +kernel⟩,
  ⟨0, { since := 0, slot := 1 }, at' (handing { since := 0, slot := 1 }) 10000, by decide +kernel⟩,
  ⟨0, .pcie, (stage 5).setFld Reg.UPD_HEALTHY 15 0 3000, witSome (by decide +kernel)⟩,
  ⟨0, 0, 0, at' (trialOf (stage 5)) 1000000, by decide +kernel⟩,
  ⟨0, 0, { at' (stage 5) 1000000 with upd := { images := [], trial := some 0 } }, by decide +kernel⟩,
  ⟨0, .pcie, 0, trialOf (stage 5), witSome (by decide +kernel)⟩,
  ⟨0, .pcie, 2, stage 0, witSome (by decide +kernel)⟩,
  ⟨0, .pcie, 0x80000003, withNode (run.setFld Reg.UPD_GRP_NODE 12 0 5) 5 { state := 1 }, witSome (by decide +kernel)⟩,
  ⟨0, 0, 0x100005, 0, (drawn bulkLine 1 0).groupSecretNow (lineGroupKey 0), bulk 0, bulkLine, drawn bulkLine 1 0, by refine ⟨?_, ?_, ?_, ?_, ?_, ?_, ?_, ?_, ?_, ?_, ?_, ?_, ?_, ?_⟩ <;> first | decide +kernel | exact Prod.ext (by decide +kernel) rfl | rfl | exact .inl (by decide +kernel)⟩,
  ⟨0, 8, 0x100005, 0, ((drawn bulkAir 2 0).groupSec 0 6 0).1, bulkBody, bulk 8, bulkAir, drawn bulkAir 2 0, ((drawn bulkAir 2 0).groupSec 0 6 0).2, by refine ⟨?_, ?_, ?_, ?_, ?_, ?_, ?_, ?_, ?_, ?_, ?_⟩ <;> first | decide +kernel | exact Prod.ext (by decide +kernel) rfl | rfl | exact .inl (by decide +kernel)⟩⟩

/-- The hypotheses of each clause of RegisterBusCommandsComplete are met. -/
theorem meets_RegisterBusCommandsComplete :
  (∃ (t : Angle) (p : Path) (v : Word) (s : State), ∃ a, (s.tick t).through p 0x00 0x0C4 true = some a ∧ (a.nv.lc = 1 ∨ a.nv.lc = 2) ∧ a.modeBusy = false ∧ (a.fac.variant ≠ .h ∨ (bits 17 16 v.toNat ≠ 1 ∧ bits 17 16 v.toNat ≠ 3))) ∧
  (∃ (t : Angle) (p : Path) (page : BitVec 8) (v : Word) (s : State), ∃ a, (s.tick t).through p page.toNat 0x008 true = some a ∧ a.flag (page.toNat * 0x1000 + 0x008) 31 = false ∧ bits 15 0 v.toNat = 0x0100) ∧
  (∃ (t : Angle) (p : Path) (page : BitVec 8) (v : Word) (s : State), ∃ a, (s.tick t).through p page.toNat 0x014 true = some a ∧ True) ∧
  (∃ (t : Angle) (p : Path) (page : BitVec 8) (v : Word) (i : Nat) (s : State), ∃ a, (s.tick t).through p page.toNat 0x018 true = some a ∧ (page.toNat < 0x18 ∨ 0x1B < page.toNat) ∧ ((page.toNat = 0x06 → a.ptp.tsq = [])) ∧ ((page.toNat = 0x53 → a.fld Reg.PCIE_RPT_WR 11 0 = a.fld Reg.PCIE_RPT_RD 11 0)) ∧ v.toNat.testBit i = true) ∧
  (∃ (t : Angle) (p : Path) (page : BitVec 8) (v : Word) (s : State), ∃ a, (s.tick t).through p page.toNat 0x01C true = some a ∧ True) ∧
  (∃ (t : Angle) (p : Path) (page : BitVec 8) (v : Word) (i : Nat) (s : State), ∃ a, (s.tick t).through p page.toNat 0x020 true = some a ∧ True) ∧
  (∃ (t : Angle) (p : Path) (hi : Bool) (v : Word) (i : Nat) (s : State), ∃ a, (s.tick t).through p 0x03 (0x050 + 4 * b2n hi) true = some a ∧ i < 32 ∧ v.toNat.testBit i = true ∧ a.lineActive.contains (32 * b2n hi + i) = true ∧ a.msixMasked.contains (32 * b2n hi + i) = false) ∧
  (∃ (t : Angle) (p : Path) (page : BitVec 8) (v : Word) (s : State), ∃ a, (s.tick t).through p page.toNat 0x028 true = some a ∧ v.toNat.testBit 31 = true) ∧
  (∃ (t : Angle) (p : Path) (page : BitVec 8) (q : Fin 8) (v : Word) (off : Nat) (counters : List Nat) (s : State), ∃ a, (s.tick t).through p page.toNat off true = some a ∧ counterClear page.toNat q = some (off, counters) ∧ v.toNat.testBit 0 = true) ∧
  (∃ (t : Angle) (p : Path) (page : BitVec 8) (off : BitVec 12) (v : Word) (r : RegSpec) (s : State), ∃ a, (s.tick t).through p page.toNat off.toNat true = some a ∧ 0x040 ≤ off.toNat ∧ off.toNat % 4 = 0 ∧ findSpec page.toNat off.toNat = some r ∧ r.rw ≠ 0 ∧ effWrite p page.toNat off.toNat v a = a.plainWrite page.toNat off.toNat v) ∧
  (∃ (t : Angle) (p : Path) (page : BitVec 8) (off : BitVec 12) (whole : Bool) (v : Word) (s : State), (whole = false ∨ off.toNat % 4 ≠ 0)) ∧
  (∃ (t : Angle) (sb : BitVec 11) (s : State), (s.tick t).erasing sb.toNat = true ∧ (s.tick t).led.stalled = false) :=
  ⟨⟨0, .pcie, 0x20000, factory, witSome (by decide +kernel)⟩,
  ⟨0, .pcie, 0x20, 0x80000100, flow, witSome (by decide +kernel)⟩,
  ⟨0, .pcie, 0x20, 1, flow, witSome (by decide +kernel)⟩,
  ⟨0, .pcie, 0x20, 1, 0, flow.setReg (evRaw 0x20) 1, witSome (by decide +kernel)⟩,
  ⟨0, .pcie, 0x20, 1, flow, witSome (by decide +kernel)⟩,
  ⟨0, .pcie, 0x20, 1, 0, flow.setReg (evEn 0x20) 3, witSome (by decide +kernel)⟩,
  ⟨0, .pcie, true, 1, 0, { flow with lineActive := [32] }, witSome (by decide +kernel)⟩,
  ⟨0, .pcie, 0x20, 0x80000000, flow.setFld 0x20028 31 31 1, witSome (by decide +kernel)⟩,
  ⟨0, .pcie, 0x20, 0, 1, 0x0C0, [0xA0, 0xA4, 0xA8, 0xAC, 0xB0, 0xB4, 0xB8], flow.setReg 0x200A0 9, witSome (by decide +kernel)⟩,
  ⟨0, .pcie, 0x49, 0x078, 5, { off := 120, reset := 0, rw := 4294967295, rwl := 0, w1c := 0, w1s := 0, clamps := [] }, flow, ⟨_, through_host (by decide +kernel) (by decide) (by decide +kernel) (by decide +kernel), by decide, by decide, by decide +kernel, by decide, effWrite_note _ _⟩⟩,
  ⟨0, .pcie, 0x20, 0x041, true, 5, flow, by decide +kernel⟩,
  ⟨0, 1, withSb flow 1 { phase := 3 }, by decide +kernel⟩⟩

/-- The hypotheses of each clause of ImageCommandsStoreOnlyTheirImage are met. -/
theorem meets_ImageCommandsStoreOnlyTheirImage :
  (∃ (t : Angle) (p : Path) (img : List Byte) (s : State), ∃ u, exec (.lcSubmit t p img) s = .next u) ∧
  (∃ (t : Angle) (p : Path) (img : List Byte) (s : State), ∃ u, exec (.lcProvision t p img) s = .next u) ∧
  (∃ (t : Angle) (p : Path) (img : List Byte) (cut : Option Bool) (s : State), ∃ u, exec (.keyImport t p img cut) s = .next u) ∧
  (∃ (t : Angle) (p : Path) (img : List Byte) (cut : Option Bool) (s : State), ∃ u, exec (.keyImportKem t p img cut) s = .next u) ∧
  (∃ (t : Angle) (p : Path) (img : List Byte) (cut : Option Bool) (s : State), ∃ u, exec (.keyDerive t p img cut) s = .next u) ∧
  (∃ (t : Angle) (p : Path) (img : List Byte) (s : State), ∃ u, exec (.programCommit t p img) s = .next u) ∧
  (∃ (t : Angle) (p : Path) (img : List Byte) (s : State), ∃ u, exec (.graphCommit t p img) s = .next u) ∧
  (∃ (t : Angle) (p : Path) (img : List Byte) (s : State), ∃ u, exec (.updChunk t p img) s = .next u) ∧
  (∃ (t : Angle) (p : Path) (v : Word) (img : List Byte) (s : State), ∃ u, exec (.reqGo t p v img) s = .next u) ∧
  (∃ (t : Angle) (p : Path) (v : Word) (slots : List (BitVec 8 × List Byte)) (stamps : List Nat) (x : Nat) (s : State), (∃ u, exec (.hostTx t p v slots stamps) s = .next u) ∧ ∀ y ∈ slots, x < txSlot y.1.toNat ∨ txSlot y.1.toNat + 2048 ≤ x) ∧
  (∃ (t : Angle) (p : Path) (v : Word) (reads : List (BitVec 19 × StripeRead)) (s : State), ∃ u, exec (.ledgerRead t p v reads) s = .next u) :=
  ⟨⟨0, .pcie, [1, 2, 3], kfp, witNext (by decide +kernel)⟩,
  ⟨0, .pcie, token, factory, witNext (by decide +kernel)⟩,
  ⟨0, .pcie, [0, 0, 0x80, 0x40, 9], none, keys 0x37C8 0x4080 40, witNext (by decide +kernel)⟩,
  ⟨0, .pcie, [0, 0, 0x80, 0x40, 9], none, keys 0x37C8 0x4080 40, witNext (by decide +kernel)⟩,
  ⟨0, .pcie, [1], none, keys 0x4480 0x4080 8, witNext (by decide +kernel)⟩,
  ⟨0, .pcie, program, programReady, witNext (by decide +kernel)⟩,
  ⟨0, .pcie, graphImage, graphReady, witNext (by decide +kernel)⟩,
  ⟨0, .pcie, [1, 2, 3], (stage 1).setReg Reg.UPD_HCHUNK_LEN 3, witNext (by decide +kernel)⟩,
  ⟨0, .pcie, 1, [0x11], run.setReg Reg.SLALOM_REQ_CTL (2 * 2 ^ 24 + 0x100), witNext (by decide +kernel)⟩,
  ⟨0, .pcie, 1, [(3, [1, 2])], [], 5, eth, witNext (by decide +kernel), by decide +kernel⟩,
  ⟨0, .pcie, 1, [], store.setReg Reg.LEDG_RD_RSN_LO 1, witNext (by decide +kernel)⟩⟩

/-- The hypotheses of each clause of FieldCommandsFrame are met. -/
theorem meets_FieldCommandsFrame :
  (∃ (t : Angle) (p : Path) (s : State), (∃ a, (s.tick t).through p 0x04 0x040 false = some a ∧ True) ∧ ∃ u, exec (.sweepNowRead t p) s = .next u) ∧
  (∃ (t : Angle) (p : Path) (s : State), (∃ a, (s.tick t).through p 0x04 0x0A8 false = some a ∧ True) ∧ ∃ u, exec (.precDataRead t p) s = .next u) ∧
  (∃ (t : Angle) (id : Nat) (s : State), ∃ u, exec (.instantPin t id) s = .next u) ∧
  (∃ (t : Angle) (s : State), ∃ u, exec (.schedShort t) s = .next u) ∧
  (∃ (t : Angle) (p : Path) (v : Word) (s : State), (∃ a, (s.tick t).through p 0x05 0x048 true = some a ∧ True) ∧ ∃ u, exec (.hwmClr t p v) s = .next u) ∧
  (∃ (t : Angle) (s : State), ∃ u, exec (.supplyPhaseMove t) s = .next u) ∧
  (∃ (t : Angle) (node : BitVec 13) (s : State), ∃ u, exec (.joinTimeout t node) s = .next u) ∧
  (∃ (t : Angle) (node : BitVec 13) (s : State), ∃ u, exec (.repeaterDemote t node) s = .next u) ∧
  (∃ (t : Angle) (p : Path) (v : Word) (s : State), (∃ a, (s.tick t).through p 0x0F 0x08C true = some a ∧ True) ∧ ∃ u, exec (.nodeProvision t p v) s = .next u) ∧
  (∃ (t : Angle) (p : Path) (v : Word) (s : State), (∃ a, (s.tick t).through p 0x0F 0x08C true = some a ∧ True) ∧ ∃ u, exec (.nodeBar t p v) s = .next u) ∧
  (∃ (t : Angle) (p : Path) (v : Word) (s : State), (∃ a, (s.tick t).through p 0x0F 0x08C true = some a ∧ True) ∧ ∃ u, exec (.nodeRelease t p v) s = .next u) ∧
  (∃ (t : Angle) (p : Path) (v : Word) (s : State), (∃ a, (s.tick t).through p 0x0F 0x08C true = some a ∧ True) ∧ ∃ u, exec (.forceSearch t p v) s = .next u) ∧
  (∃ (t : Angle) (s : State), ∃ u, exec (.hopSlotStart t) s = .next u) ∧
  (∃ (t : Angle) (lane : Fin 2) (s : State), ∃ u, exec (.airSearchWindow t lane) s = .next u) ∧
  (∃ (t : Angle) (n : Fin 4) (s : State), ∃ u, exec (.loopSync t n) s = .next u) ∧
  (∃ (t : Angle) (s : State), ∃ u, exec (.loopDwellEnd t) s = .next u) ∧
  (∃ (t : Angle) (n : Fin 4) (s : State), ∃ u, exec (.loopTripRetry t n) s = .next u) ∧
  (∃ (t : Angle) (p : Path) (n : Fin 4) (v : Word) (s : State), (∃ a, (s.tick t).through p (0x14 + n.val) 0x050 true = some a ∧ True) ∧ ∃ u, exec (.loopRestore t p n v) s = .next u) ∧
  (∃ (t : Angle) (n : Fin 4) (m : Fin 8) (s : State), ∃ u, exec (.ident t n m) s = .next u) :=
  ⟨⟨0, .pcie, run, witSome (by decide +kernel), witNext (by decide +kernel)⟩,
  ⟨0, .pcie, run, witSome (by decide +kernel), witNext (by decide +kernel)⟩,
  ⟨0, 7, { run.setFld Reg.SWEEP_CIVSTAT 1 0 1 with sweep := { startCap := 16000000000, zones := [{ eff := 0, taiUtc := 0, localUtc := 0 }], instants := [(7, { owner := .boundary 3, civil := 2 })] } }, witNext (by decide +kernel)⟩,
  ⟨0, run, witNext (by decide +kernel)⟩,
  ⟨0, .pcie, 0x80000000, run, witSome (by decide +kernel), witNext (by decide +kernel)⟩,
  ⟨0, run, witNext (by decide +kernel)⟩,
  ⟨0, 5, withNode (at' line 9000) 5 { state := 2, join := some { cycle := 90, ver := 1, lane := 0, challenge := 3 } }, witNext (by decide +kernel)⟩,
  ⟨0, 5, withNode (at' line 100000) 5 { state := 3, rpt := true }, witNext (by decide +kernel)⟩,
  ⟨0, .pcie, 9, withNode line 0 { serial := 77 }, witSome (by decide +kernel), witNext (by decide +kernel)⟩,
  ⟨0, .pcie, 1, withNode line 0 { state := 3, medium := 1, lane := 0 }, witSome (by decide +kernel), witNext (by decide +kernel)⟩,
  ⟨0, .pcie, 1, withNode line 0 { state := 5 }, witSome (by decide +kernel), witNext (by decide +kernel)⟩,
  ⟨0, .pcie, 1, withNode line 0 { state := 4, medium := 1, lane := 0 }, witSome (by decide +kernel), witNext (by decide +kernel)⟩,
  ⟨0, at' (run.setFld Reg.AIRC_REGCFG 1 0 2) 160, witNext (by decide +kernel)⟩,
  ⟨0, 0, at' air 1500, witNext (by decide +kernel)⟩,
  ⟨0, 0, loop 3, witNext (by decide +kernel)⟩,
  ⟨0, loop 2, witNext (by decide +kernel)⟩,
  ⟨0, 0, { at' (loop 4) 400 with field := { tripAt := [(0, [100])] } }, witNext (by decide +kernel)⟩,
  ⟨0, .pcie, 0, 1, loop 5, witSome (by decide +kernel), witNext (by decide +kernel)⟩,
  ⟨0, 0, 2, loopOn 1, witNext (by decide +kernel)⟩⟩

/-- The hypotheses of each clause of MeterCommandsFrame are met. -/
theorem meets_MeterCommandsFrame :
  (∃ (t : Angle) (p : Path) (q : Fin 32) (v : Word) (s : State), (∃ a, (s.tick t).through p (queuePage q.val) (0x120 + 0x40 * (q % 8)) true = some a ∧ True) ∧ ∃ u, exec (.flush t p q v) s = .next u) ∧
  (∃ (t : Angle) (p : Path) (g : Fin 4) (v : Word) (s : State), (∃ a, (s.tick t).through p (0x18 + g.val) 0x018 true = some a ∧ True) ∧ ∃ u, exec (.wmCauseClear t p g v) s = .next u) ∧
  (∃ (t : Angle) (p : Path) (q : Fin 32) (v : Word) (s : State), (∃ a, (s.tick t).through p (queuePage q.val) (0x100 + 0x40 * (q % 8)) true = some a ∧ True) ∧ ∃ u, exec (.liftLaneWrite t p q v) s = .next u) ∧
  (∃ (t : Angle) (p : Path) (g : Fin 4) (s : State), (∃ a, (s.tick t).through p (0x18 + g.val) 0x044 false = some a ∧ True) ∧ ∃ u, exec (.peekRead t p g) s = .next u) ∧
  (∃ (t : Angle) (p : Path) (lane : Fin 16) (v : Word) (s : State), (∃ a, (s.tick t).through p (0x20 + lane.val) 0x084 true = some a ∧ True) ∧ ∃ u, exec (.closePush t p lane v) s = .next u) ∧
  (∃ (t : Angle) (p : Path) (v : Word) (s : State), (∃ a, (s.tick t).through p 0x1C 0x05C true = some a ∧ True) ∧ ∃ u, exec (.pbSlotCommit t p v) s = .next u) ∧
  (∃ (t : Angle) (p : Path) (lane : Fin 16) (v : Word) (s : State), (∃ a, (s.tick t).through p (0x20 + lane.val) 0x08C true = some a ∧ True) ∧ ∃ u, exec (.closeEnd t p lane v) s = .next u) ∧
  (∃ (t : Angle) (p : Path) (v : Word) (s : State), (∃ a, (s.tick t).through p 0x30 0x100 true = some a ∧ True) ∧ ∃ u, exec (.zoneRestart t p v) s = .next u) ∧
  (∃ (t : Angle) (p : Path) (v : Word) (s : State), (∃ a, (s.tick t).through p 0x34 0x090 true = some a ∧ True) ∧ ∃ u, exec (.priceCommit t p v) s = .next u) ∧
  (∃ (t : Angle) (p : Path) (v : Word) (s : State), (∃ a, (s.tick t).through p 0x34 0x0A4 true = some a ∧ True) ∧ ∃ u, exec (.memberCommit t p v) s = .next u) ∧
  (∃ (t : Angle) (input : Fin 3) (opened : Bool) (vigil : BitVec 48) (s : State), ∃ u, exec (.tamperInput t input opened vigil) s = .next u) :=
  ⟨⟨0, .pcie, 3, 1, lift 0 { cells := [(0, (5, 0x4010))], w := 1, p := 1 }, witSome (by decide +kernel), witNext (by decide +kernel)⟩,
  ⟨0, .pcie, 0, 8, lift 0 {}, witSome (by decide +kernel), witNext (by decide +kernel)⟩,
  ⟨0, .pcie, 3, 0x80000002, run, witSome (by decide +kernel), witNext (by decide +kernel)⟩,
  ⟨0, .pcie, 0, (lift 0 { cells := [(0, (5, 0x4010))], w := 1, p := 1 }).setReg (Reg.LIFT_PEEK_SEL 0) 3, witSome (by decide +kernel), witNext (by decide +kernel)⟩,
  ⟨0, .pcie, 0, 1, withLane flow 0 { lastClose := some 100 }, witSome (by decide +kernel), witNext (by decide +kernel)⟩,
  ⟨0, .pcie, 0x3FF00000, run, witSome (by decide +kernel), witNext (by decide +kernel)⟩,
  ⟨0, .pcie, 0, 1, withLane flow 0 { closes := [200] }, witSome (by decide +kernel), witNext (by decide +kernel)⟩,
  ⟨0, .pcie, 1, (withZone flow).setReg Reg.BAL_ZSEL 3, witSome (by decide +kernel), witNext (by decide +kernel)⟩,
  ⟨0, .pcie, 0, run, witSome (by decide +kernel), witNext (by decide +kernel)⟩,
  ⟨0, .pcie, 0x10, run, witSome (by decide +kernel), witNext (by decide +kernel)⟩,
  ⟨0, 1, true, 99, run, witNext (by decide +kernel)⟩⟩

theorem corrected_one : ∀ x ∈ [((256 : BitVec 19), StripeRead.corrected 1 4)], ∃ n w, x.2 = .corrected n w :=
  fun _ h => ⟨1, 4, congrArg Prod.snd (List.mem_singleton.mp h)⟩

/-- The hypotheses of each clause of StoreCommandsFrame are met. -/
theorem meets_StoreCommandsFrame :
  (∃ (t : Angle) (s : State), ∃ u, exec (.stripeProgrammed t) s = .next u) ∧
  (∃ (t : Angle) (s : State), ∃ u, exec (.groupClose t) s = .next u) ∧
  (∃ (t : Angle) (p : Path) (v : Word) (s : State), (∃ a, (s.tick t).through p 0x38 0x0A0 true = some a ∧ True) ∧ ∃ u, exec (.ledgSync t p v) s = .next u) ∧
  (∃ (t : Angle) (reads : List (BitVec 19 × StripeRead)) (s : State), (∀ x ∈ reads, ∃ n w, x.2 = .corrected n w) ∧ ∃ u, exec (.gcStep t reads) s = .next u) ∧
  (∃ (t : Angle) (reads : List (BitVec 19 × StripeRead)) (s : State), (∀ x ∈ reads, ∃ n w, x.2 = .corrected n w) ∧ ∃ u, exec (.rebuildStep t reads) s = .next u) ∧
  (∃ (t : Angle) (die : Fin 8) (gc : Bool) (s : State), ∃ u, exec (.programFail t die gc false) s = .next u) ∧
  (∃ (t : Angle) (s : State), ∃ u, exec (.groomLate t) s = .next u) ∧
  (∃ (t : Angle) (s : State), ∃ u, exec (.batchClose t) s = .next u) ∧
  (∃ (t : Angle) (key : Nat) (acked : Bool) (s : State), ∃ u, exec (.reservationWritten t key acked) s = .next u) ∧
  (∃ (t : Angle) (p : Path) (s : State), (∃ a, (s.tick t).through p 0x40 0x0C8 false = some a ∧ True) ∧ ∃ u, exec (.pubRead t p) s = .next u) ∧
  (∃ (t : Angle) (e : Fin 4) (s : State), ∃ u, exec (.jobSegmentEnd t e) s = .next u) ∧
  (∃ (t : Angle) (p : Path) (e : Fin 4) (v : Word) (s : State), (∃ a, (s.tick t).through p (enginePage e.val) 0x054 true = some a ∧ True) ∧ ∃ u, exec (.jrAck t p e v) s = .next u) ∧
  (∃ (t : Angle) (s : State), ∃ u, exec (.rngFail t) s = .next u) ∧
  (∃ (t : Angle) (s : State), ∃ u, exec (.takebackRequest t) s = .next u) ∧
  (∃ (t : Angle) (rsn : Nat) (s : State), ∃ u, exec (.mirrorAck t rsn) s = .next u) ∧
  (∃ (t : Angle) (s : State), ∃ u, exec (.supervisorRelease t) s = .next u) ∧
  (∃ (t : Angle) (s : State), ∃ u, exec (.handoverReady t) s = .next u) ∧
  (∃ (t : Angle) (blk : BitVec 6) (s : State), ∃ u, exec (.bistPassLate t blk) s = .next u) :=
  ⟨⟨0, withGroup [256, 257], witNext (by decide +kernel)⟩,
  ⟨0, store, witNext (by decide +kernel)⟩,
  ⟨0, .pcie, 1, store, witSome (by decide +kernel), witNext (by decide +kernel)⟩,
  ⟨0, [(256, .corrected 1 4)], refreshing, corrected_one, witNext (by decide +kernel)⟩,
  ⟨0, [(256, .corrected 1 4)], rebuilding 2, corrected_one, witNext (by decide +kernel)⟩,
  ⟨0, 3, true, flow, witNext (by decide +kernel)⟩,
  ⟨0, flow, witNext (by decide +kernel)⟩,
  ⟨0, { store with merk := { segs := [(1, [], 0), (2, [], 0), (3, [], 0), (4, [], 0), (5, [], 0)] } }, witNext (by decide +kernel)⟩,
  ⟨0, 5, true, run.setTxKey 5 { asked := true }, witNext (by decide +kernel)⟩,
  ⟨0, .pcie, keys 0 0 0, witSome (by decide +kernel), witNext (by decide +kernel)⟩,
  ⟨0, 0, engines, witNext (by decide +kernel)⟩,
  ⟨0, .pcie, 0, 0, engines, witSome (by decide +kernel), witNext (by decide +kernel)⟩,
  ⟨0, engines, witNext (by decide +kernel)⟩,
  ⟨0, withPairs (pair 2 2) { healthy := 90000 }, witNext (by decide +kernel)⟩,
  ⟨0, 5, pair 1 1, witNext (by decide +kernel)⟩,
  ⟨0, pair 1 2, witNext (by decide +kernel)⟩,
  ⟨0, handing { since := 99, slot := 1 }, witNext (by decide +kernel)⟩,
  ⟨0, 0, bist 3 none, witNext (by decide +kernel)⟩⟩

/-- The hypotheses of each clause of BusCommandsFrame are met. -/
theorem meets_BusCommandsFrame :
  (∃ (t : Angle) (sid : Nat) (s : State), ∃ u, exec (.keepalive t sid) s = .next u) ∧
  (∃ (t : Angle) (sid : Nat) (seq : Nat) (s : State), ∃ u, exec (.kfpRetransmit t sid seq) s = .next u) ∧
  (∃ (t : Angle) (s : State), ∃ u, exec (.endpointReset t) s = .next u) ∧
  (∃ (t : Angle) (gen : Fin 4) (width : Fin 3) (s : State), ∃ u, exec (.pcieLinkUp t gen width) s = .next u) ∧
  (∃ (t : Angle) (src : Fin 8) (falling : Bool) (cap : Nat) (s : State), ∃ u, exec (.captureEvent t src falling cap) s = .next u) ∧
  (∃ (t : Angle) (s : State), ∃ u, exec (.ptpAnnounceTimeout t) s = .next u) ∧
  (∃ (t : Angle) (p : Path) (v : Word) (s : State), (∃ a, (s.tick t).through p 0x06 0x074 true = some a ∧ True) ∧ ∃ u, exec (.tsqPop t p v) s = .next u) ∧
  (∃ (t : Angle) (s : State), ∃ u, exec (.svcUnlockExpiry t) s = .next u) ∧
  (∃ (t : Angle) (port : Fin 2) (bad : Bool) (frame : List Byte) (mac : Nat) (s : State), ∃ u, exec (.ethFrameReceived t port bad frame mac) s = .next u) ∧
  (∃ (t : Angle) (port : Fin 2) (bad : Bool) (frame : List Byte) (mac : Nat) (x : Nat) (s : State), (∃ u, exec (.ethFrameReceived t port bad frame mac) s = .next u) ∧ (x < rxSlot ((s.tick t).fld Reg.PCIE_HRX_WR 7 0) ∨ rxSlot ((s.tick t).fld Reg.PCIE_HRX_WR 7 0) + 20 + min 2028 frame.length ≤ x)) ∧
  (∃ (t : Angle) (p : Path) (v : Word) (s : State), (∃ a, (s.tick t).through p 0x00 0x068 true = some a ∧ True) ∧ ∃ u, exec (.sysReset t p v) s = .next u) ∧
  (∃ (t : Angle) (p : Path) (v : Word) (s : State), (∃ a, (s.tick t).through p 0x48 0x044 true = some a ∧ True) ∧ ∃ u, exec (.scanRequest t p v) s = .next u) ∧
  (∃ (t : Angle) (p : Path) (v : Word) (s : State), (∃ a, (s.tick t).through p 0x00 0x0C4 true = some a ∧ True) ∧ ∃ u, exec (.roleNextWrite t p v) s = .next u) ∧
  (∃ (t : Angle) (p : Path) (page : BitVec 8) (v : Word) (s : State), (∃ a, (s.tick t).through p page.toNat 0x008 true = some a ∧ True) ∧ ∃ u, exec (.ifselWrite t p page v) s = .next u) ∧
  (∃ (t : Angle) (p : Path) (page : BitVec 8) (v : Word) (s : State), (∃ a, (s.tick t).through p page.toNat 0x014 true = some a ∧ True) ∧ ∃ u, exec (.evRawWrite t p page v) s = .next u) ∧
  (∃ (t : Angle) (p : Path) (page : BitVec 8) (v : Word) (s : State), (∃ a, (s.tick t).through p page.toNat 0x01C true = some a ∧ True) ∧ ∃ u, exec (.evEnSet t p page v) s = .next u) ∧
  (∃ (t : Angle) (p : Path) (page : BitVec 8) (v : Word) (s : State), (∃ a, (s.tick t).through p page.toNat 0x020 true = some a ∧ True) ∧ ∃ u, exec (.evEnClr t p page v) s = .next u) ∧
  (∃ (t : Angle) (p : Path) (page : BitVec 8) (v : Word) (s : State), (∃ a, (s.tick t).through p page.toNat 0x028 true = some a ∧ True) ∧ ∃ u, exec (.errcapClear t p page v) s = .next u) ∧
  (∃ (t : Angle) (p : Path) (s : State), (∃ a, (s.tick t).through p 0x49 0x00C true = some a ∧ True) ∧ ∃ u, exec (.logbookFreeze t p) s = .next u) ∧
  (∃ (t : Angle) (p : Path) (v : Word) (s : State), (∃ a, (s.tick t).through p 0x49 0x0B4 true = some a ∧ True) ∧ ∃ u, exec (.clrAll t p v) s = .next u) ∧
  (∃ (t : Angle) (p : Path) (s : State), (∃ a, (s.tick t).through p 0x49 0x06C true = some a ∧ True) ∧ ∃ u, exec (.instrumentClearBins t p) s = .next u) ∧
  (∃ (t : Angle) (p : Path) (s : State), (∃ a, (s.tick t).through p 0x49 0x06C true = some a ∧ True) ∧ ∃ u, exec (.instrumentClearExtremes t p) s = .next u) ∧
  (∃ (t : Angle) (p : Path) (s : State), (∃ a, (s.tick t).through p 0x49 0x06C true = some a ∧ True) ∧ ∃ u, exec (.instrumentClearBoth t p) s = .next u) ∧
  (∃ (t : Angle) (p : Path) (v : Word) (s : State), (∃ a, (s.tick t).through p 0x49 0x074 true = some a ∧ True) ∧ ∃ u, exec (.hostSample t p v) s = .next u) ∧
  (∃ (t : Angle) (p : Path) (s : State), (∃ a, (s.tick t).through p 0x49 0x054 false = some a ∧ True) ∧ ∃ u, exec (.cursorRead t p) s = .next u) :=
  ⟨⟨0, 1, at' (withSess (sess 256)) 5000, witNext (by decide +kernel)⟩,
  ⟨0, 1, 3, withSess { sess 256 with unacked := [{ seq := 3, ftype := 0x20, body := [] }] }, witNext (by decide +kernel)⟩,
  ⟨0, run, witNext (by decide +kernel)⟩,
  ⟨0, 2, 1, run, witNext (by decide +kernel)⟩,
  ⟨0, 1, false, 8000000, eth.setFlag (Reg.PTP_CAP_CTL 1) 0 true, witNext (by decide +kernel)⟩,
  ⟨0, eth, witNext (by decide +kernel)⟩,
  ⟨0, .pcie, 1, eth, witSome (by decide +kernel), witNext (by decide +kernel)⟩,
  ⟨0, at' (run.setFlag Reg.SVC_STAT 0 true) 100000, witNext (by decide +kernel)⟩,
  ⟨0, 0, false, [1, 2], 0, eth, witNext (by decide +kernel)⟩,
  ⟨0, 1, false, zeros 60, 0, 5, eth, witNext (by decide +kernel), by decide +kernel⟩,
  ⟨0, .pcie, 0x53595354, flow, witSome (by decide +kernel), witNext (by decide +kernel)⟩,
  ⟨0, .pcie, 1, { starting [1] with nv := { flow.nv with lc := 1 } }, witSome (by decide +kernel), witNext (by decide +kernel)⟩,
  ⟨0, .pcie, 0x20000, factory, witSome (by decide +kernel), witNext (by decide +kernel)⟩,
  ⟨0, .pcie, 0x20, 0x80000100, flow, witSome (by decide +kernel), witNext (by decide +kernel)⟩,
  ⟨0, .pcie, 0x20, 1, flow, witSome (by decide +kernel), witNext (by decide +kernel)⟩,
  ⟨0, .pcie, 0x20, 1, flow, witSome (by decide +kernel), witNext (by decide +kernel)⟩,
  ⟨0, .pcie, 0x20, 1, flow.setReg (evEn 0x20) 3, witSome (by decide +kernel), witNext (by decide +kernel)⟩,
  ⟨0, .pcie, 0x20, 0x80000000, flow.setFld 0x20028 31 31 1, witSome (by decide +kernel), witNext (by decide +kernel)⟩,
  ⟨0, .pcie, book, witSome (by decide +kernel), witNext (by decide +kernel)⟩,
  ⟨0, .pcie, 0x4C47434C, { book with nv := { book.nv with lc := 4 } }, witSome (by decide +kernel), witNext (by decide +kernel)⟩,
  ⟨0, .pcie, book, witSome (by decide +kernel), witNext (by decide +kernel)⟩,
  ⟨0, .pcie, book, witSome (by decide +kernel), witNext (by decide +kernel)⟩,
  ⟨0, .pcie, book, witSome (by decide +kernel), witNext (by decide +kernel)⟩,
  ⟨0, .pcie, 7, book, witSome (by decide +kernel), witNext (by decide +kernel)⟩,
  ⟨0, .pcie, bookAt 0 255 47, witSome (by decide +kernel), witNext (by decide +kernel)⟩⟩

/-! ### Statements about the whole block, the register bus, event lines, counters and the Logbook -/

/-- Whether an outcome is a next state that a test accepts. -/
def answersWith (P : State → Bool) (o : Host.Outcome State Fault Refusal) : Bool := match o with
  | .next u => P u
  | _ => false

/-- A command that answers a next state which a test accepts. -/
theorem witNextOf {P : State → Prop} [DecidablePred P] {o : Host.Outcome State Fault Refusal}
    (h : answersWith (fun u => decide (P u)) o = true) : ∃ u, o = .next u ∧ P u := by
  cases o with
  | next u => exact ⟨u, rfl, by simpa [answersWith] using h⟩
  | fault f => cases h
  | refused r => cases h

/-- A block with a command in its queue and an octet in its window. -/
def waiting : State := { run with pending := [.schedShort 0], mem := [(16, 7)] }

/-- A queue with a command in front, and an empty one. -/
theorem meets_StepRunsFrontCommand :
    (∃ (c : Instr) (rest : List Instr) (s : State), s.pending = c :: rest) ∧ ∃ s : State, s.pending = [] :=
  ⟨⟨.schedShort 0, [], waiting, rfl⟩, run, rfl⟩

/-- A step from a window in its canonical form. -/
theorem meets_MemoryStaysCanonical : ∃ s u : State, memWf s.mem = true ∧ step s = .next u := by
  obtain ⟨u, h⟩ := witNext (o := step waiting) (by decide +kernel)
  exact ⟨waiting, u, by decide +kernel, h⟩

/-- A step, and a command that moves the cycle count. -/
theorem meets_SweepTimeNeverDecreases : (∃ s u : State, step s = .next u) ∧
    ∃ (c : Instr) (s u : State), exec c s = .next u ∧ u.cycle ≠ s.cycle := by
  obtain ⟨u, h⟩ := witNext (o := step waiting) (by decide +kernel)
  obtain ⟨w, g, c⟩ := witNextOf (P := fun w => w.cycle ≠ run.cycle) (o := exec (.cycleStart 0 0 0) run) (by decide +kernel)
  exact ⟨⟨waiting, u, h⟩, _, run, w, g, c⟩

/-- A start-up step that changes the life-cycle state. -/
theorem meets_LifeCycleChangesOnlyAtStep4 : ∃ (c : Instr) (s u : State), exec c s = .next u ∧ u.nv.lc ≠ s.nv.lc := by
  obtain ⟨w, g, c⟩ := witNextOf (P := fun w => w.nv.lc ≠ (starting [1, 2, 3]).nv.lc)
    (o := exec (.startupStep 0 (.keeper false)) (starting [1, 2, 3])) (by decide +kernel)
  exact ⟨_, _, w, g, c⟩

/-- A command with a next state. -/
theorem meets_FactoryValuesSurvive : ∃ (c : Instr) (s u : State), exec c s = .next u := by
  obtain ⟨u, h⟩ := witNext (o := exec (.schedShort 0) run) (by decide +kernel)
  exact ⟨_, _, u, h⟩

/-- A command that stores nothing. -/
theorem meets_CommandsThatStoreNothingKeepMemory :
    ∃ (c : Instr) (s u : State), storesMemory c = false ∧ exec c s = .next u := by
  obtain ⟨u, h⟩ := witNext (o := exec (.schedShort 0) waiting) (by decide +kernel)
  exact ⟨_, _, u, by decide, h⟩

/-- Reads of NOW_LO and NOW_HI. -/
theorem meets_SweepTimeIsReadConsistently :
    (∃ (t : Angle) (p : Path) (s a : State), (s.tick t).through p 0x04 0x040 false = some a) ∧
      ∃ (t : Angle) (p : Path) (s a : State), (s.tick t).through p 0x04 0x044 false = some a := by
  obtain ⟨a, h, -⟩ := witSome (P := fun _ => True) (x := (run.tick 0).through .pcie 0x04 0x040 false) (by decide +kernel)
  obtain ⟨b, g, -⟩ := witSome (P := fun _ => True) (x := (run.tick 0).through .svc 0x04 0x044 false) (by decide +kernel)
  exact ⟨⟨0, .pcie, run, a, h⟩, 0, .svc, run, b, g⟩

/-- Reads on one path beside another. -/
theorem meets_PathsKeepTheirLatches : ∃ (t : Angle) (p q : Path) (k : Nat) (s u w x : State), q ≠ p ∧ k < 2 ^ 20 ∧
    exec (.latchingRead t p 0x04 0x040 true) s = .next u ∧ exec (.sweepNowRead t p) s = .next w ∧ exec (.precDataRead t p) s = .next x := by
  obtain ⟨u, h⟩ := witNext (o := exec (.latchingRead 0 .pcie 0x04 0x040 true) run) (by decide +kernel)
  obtain ⟨w, g⟩ := witNext (o := exec (.sweepNowRead 0 .pcie) run) (by decide +kernel)
  obtain ⟨x, f⟩ := witNext (o := exec (.precDataRead 0 .pcie) run) (by decide +kernel)
  exact ⟨0, .pcie, .svc, 0x04044, run, u, w, x, by decide, by decide, h, g, f⟩

/-- Accesses to a page whose domain is OFF, at 0x040, at the last aligned offset and in the header. -/
theorem meets_AccessToOffDomain : ∃ (p : Path) (page : BitVec 8) (s : State), (p = .pcie ∨ p = .svc) ∧ pageKind page.toNat ≠ none ∧
    s.pageOff page.toNat = true ∧ (∀ off ∈ [(0x040 : BitVec 12), 0xFFC], 0x040 ≤ off.toNat ∧ off.toNat % 4 = 0) ∧
    ((0x03C : BitVec 12).toNat < 0x040 ∧ (0x03C : BitVec 12).toNat % 4 = 0) ∧ s.flag 0x00028 31 = false :=
  ⟨.pcie, 0x14, dom16 3 0, by decide +kernel⟩

/-- A write that is not 32 bits wide, and accesses that are not aligned. -/
theorem meets_WidthErrorsAreCaptured : ((false : Bool) = false ∨ (0x040 : BitVec 12).toNat % 4 ≠ 0) ∧
    ((true : Bool) = false ∨ (0x041 : BitVec 12).toNat % 4 ≠ 0) ∧ (0xFFF : BitVec 12).toNat % 4 ≠ 0 ∧ run.flag 0x00028 31 = false := by
  decide +kernel

/-- An access that its gate lets through. -/
theorem meets_GateChangesOnlyPowerState : ∃ (p : Path) (page off : Nat) (write : Bool) (s a : State), s.through p page off write = some a := by
  obtain ⟨a, h, -⟩ := witSome (P := fun _ => True) (x := run.through .svc 0x04 0x040 false) (by decide +kernel)
  exact ⟨.svc, 0x04, 0x040, false, run, a, h⟩

/-- Header writes of a page, and one of its lines. -/
theorem meets_LinesFollowTheirCauses : ∃ (page : BitVec 8) (n : Nat) (s : State), n ∈ pageLines page.toNat ∧
    ∀ off ∈ [0x014, 0x018, 0x01C, 0x020], ((s.tick 0).through .pcie page.toNat off true).isSome = true :=
  ⟨0x20, (pageLines 0x20).head?.getD 0, run, by decide +kernel⟩

/-- A counter drawn from a reserved block, and a key whose block is not reserved. -/
theorem meets_DrawnCountersAreReserved :
    (∃ (key c : Nat) (s u : State), s.drawCounter key = (.value c, u)) ∧
      (∃ (k : TxKey) (opened last c : Nat), (drawKey k opened last).1 = .value c) ∧
      ∃ (k : TxKey) (opened last : Nat), (drawKey k opened last).1 = .wait := by
  refine ⟨⟨nodeKey 5, 4095, (run.setTxKey (nodeKey 5) { next := 4095, blocks := 1 }),
      ((run.setTxKey (nodeKey 5) { next := 4095, blocks := 1 }).drawCounter (nodeKey 5)).2, by decide +kernel⟩, ?_, ?_⟩
  · exact ⟨{ next := 4095, blocks := 1 }, 1, 2 ^ 32 - 1, 4095, by decide +kernel⟩
  · exact ⟨{ next := 4096, blocks := 1 }, 1, 2 ^ 32 - 1, by decide +kernel⟩

/-! ### Ill-formed commands, one for each check -/

/-- Line lanes are 0 to 5, and air lanes 0 and 1; a serial has 64 bits. -/
theorem test_join_refused :
    (Instr.jreq 0 { medium := 1, lane := 6, serial := 7, range := 3, caps := 0, nonce := 0, via := [] }).wellFormed = false ∧
    (Instr.jreq 0 { medium := 2, lane := 2, serial := 7, range := 3, caps := 0, nonce := 0, via := [] }).wellFormed = false ∧
    (Instr.jreq 0 { medium := 1, lane := 5, serial := 2 ^ 64, range := 3, caps := 0, nonce := 0, via := [] }).wellFormed = false ∧
    (Instr.jreq 0 { medium := 1, lane := 5, serial := 7, range := 256, caps := 0, nonce := 0, via := [] }).wellFormed = false ∧
    (Instr.jreq 0 { medium := 1, lane := 5, serial := 7, range := 3, caps := 0, nonce := 0, via := [] }).wellFormed = true := by decide

/-- The longest valid LEN of a line frame is 400 (R61). -/
theorem test_line_payload_refused :
    (LineRx.wellFormed { header := 0, snr := 0, syms := [], payload := zeros 401, check := 0, micOk := true }) = false ∧
    (LineRx.wellFormed { header := 0, snr := 0, syms := [(List.replicate 561 0, 0)], payload := [], check := 0, micOk := true }) = false ∧
    (LineRx.wellFormed { header := 0, snr := 0, syms := [], payload := zeros 400, check := 0, micOk := true }) = true := by decide +kernel

/-- A correlation is at most 256, a rotation at most 15 (R91, R93). -/
theorem test_pilot_refused :
    PilotRx.wellFormed { corr := 257, rot := 0, fail := false } = false ∧ PilotRx.wellFormed { corr := 256, rot := 16, fail := false } = false ∧
    PilotRx.wellFormed { corr := 256, rot := 15, fail := true } = true := by decide

/-- An extended address has 64 bits. -/
theorem test_air_address_refused :
    AirRx.wellFormed {
      rssi := 0, fec := false, shortFcs := false, fcsOk := true, version := 2, macType := 1, short := none, ext := 2 ^ 64, pan := 0
      level := 6, keyIdx := 1, counter := 0, micOk := true, macSeq := 0, start := 0, kap := [] } = false := by decide

/-! ### Figures of the spec's worked examples -/

/-- Payload symbols of the frames of the LINE0 example: 6 and 7 at D8PSK, 27 and 47 at ×4 (example of Table 3.5). -/
theorem test_frame_symbols : frameSymbols 1 0 8 = 6 ∧ frameSymbols 1 0 24 = 7 ∧ frameSymbols 1 3 8 = 27 ∧ frameSymbols 1 3 24 = 47 := by
  decide

/-- Airtimes of the AIR0 example at 50 kbit/s with PRE 8, in thirds of a µs, and charges in ms (example of Table 5.8). -/
theorem test_airtimes : run.airtime 0 39 = 3 * 8160 ∧ run.airCharge 0 39 = 9 ∧ run.airtime 0 106 = 3 * 18880 ∧
    run.airtime 0 47 = 3 * 9440 ∧ run.airCharge 0 47 = 10 := by decide +kernel

/-- The headroom of the supply-sag example is 2,048,000 units (example of Table 2.6). -/
theorem test_headroom : (run.setFld Reg.SLALOM_E_USABLE 15 0 2050).headroom = 2048000 := by decide +kernel

/-- The restart count of the 45-second outage (example of R27). -/
theorem test_restart : ({ run with sweep := { run.sweep with shutdown := some (412905311, 160012800 * 8) } }.restart 1474560 0).count =
    412907562 := by decide +kernel

/-- The pilot window of the L3 example, from 0x1D71 to 0x3F3B, and to 0x6105 in the extended cycles (example of R92). -/
theorem test_pilot_window : line.pilotWindow 1 = (0x1D71, 0x3F3B) ∧ line.pilotWindow 8 = (0x1D71, 0x6105) := by decide +kernel

/-- The audit path of leaf 812 of 1,000 has 10 hashes and begins with leaf 813 (Table 14.8). -/
theorem test_audit_path :
    (auditPath 13 812 ((List.range 1000).map (BitVec.ofNat 512))).length = 10 ∧
      (auditPath 13 812 ((List.range 1000).map (BitVec.ofNat 512))).head? = some 813 := by decide +kernel

/-- The frequency sample of the Logbook example, 499,873, falls into bin 15 (Table 20.5). -/
theorem test_logbook_bin : ((run.sample 0x11 (-13)).instrument 0x11).bins.find 15 = some 1 := by decide +kernel

/-- Bounds of a binary64 value by decimal fractions. -/
def between (a : F) (lo hi k : Nat) : Bool := (F.dec lo k).le a && a.le (F.dec hi k)

/-- The density of the AR-03 point, 9.2257 kg/m³ (Table 9.10). -/
theorem test_air_density : between (airDensity (F.dec 801325 0) (F.dec 30315 2) (F.dec 2 1)) 922565 922575 5 = true := by decide +kernel

/-- The parameter block and the descriptor of the ST-12 example. -/
def st12 : Block :=
  [(1, (F.dec 125 3).bits.toNat), (20, (F.dec 175 7).bits.toNat), (26, (F.dec 15 2).bits.toNat), (27, (F.dec 25 2).bits.toNat),
    (28, (F.dec 166 7).bits.toNat), (29, (F.dec 166 7).bits.toNat), (30, (F.dec 13 1).bits.toNat)]

/-- The mass flow of the ST-12 point at the density of the example, 2.07809 kg/s (Table 9.9). -/
theorem test_orifice : between (primaryFlow (0xC10 + 2 ^ 20 + 2 ^ 24 + 2 ^ 32) st12 (F.dec 2886125 3) (F.dec 1258000 0) (F.dec 51315 2)
    (F.dec 56021 4)).value 207808 207810 5 = true := by decide +kernel

/-- Region 1 at 3 MPa and 300 K and region 2 at 0.0035 MPa and 300 K give the enthalpies of the release's verification tables. -/
theorem test_enthalpies : between (region1 (F.dec 3000000 0) (F.dec 300 0)).h 115331272 115331274 6 = true ∧
    between (region2 (F.dec 3500 0) (F.dec 300 0)).h 254991144 254991146 5 = true := by decide +kernel

/-- 0.1 + 0.2, exp 1, ln 2 and the root of 2 in binary64, rounded to nearest even (R145, R146). -/
theorem test_binary64 : ((F.dec 1 1).add (F.dec 2 1)).bits = 0x3FD3333333333334#64 ∧ (F.exp (F.ofNat 1)).bits = 0x4005BF0A8B145769#64 ∧
    (F.ln (F.ofNat 2)).bits = 0x3FE62E42FEFA39EF#64 ∧ (F.sqrt (F.ofNat 2)).bits = 0x3FF6A09E667F3BCD#64 := by decide +kernel
end Sys2Proof.Tests
end

section
/-!
PROOFS. The queue of commands (log 1), and the width of registers and of accesses (R13): what the register file holds and what a capture
records come first.
-/

namespace Sys2Proof.Machine

/-! ### Every register holds 32 bits (R13) -/

theorem foldl_or_lt {α : Type} (f : α → Nat) (l : List α) (h : ∀ r ∈ l, f r < 2 ^ 32) (m : Nat) (hm : m < 2 ^ 32) (c : α → Prop)
    [DecidablePred c] : l.foldl (fun m r => if c r then m ||| f r else m) m < 2 ^ 32 := by
  induction l generalizing m with
  | nil => exact hm
  | cons r l ih =>
    refine ih (fun x hx => h x (List.mem_cons_of_mem _ hx)) _ ?_
    dsimp only
    split
    · exact Nat.or_lt_two_pow hm (h r List.mem_cons_self)
    · exact hm

/-- Table 23.7 routes bits 0 to 31 alone. -/
theorem eventRoutes_bits_lt : ∀ r ∈ eventRoutes, (2 ^ (r.2.2.1 + 1) - 1) - (2 ^ r.2.1 - 1) < 2 ^ 32 := by decide +kernel

theorem routeMask_lt (page line : Nat) : routeMask page line < 2 ^ 32 :=
  foldl_or_lt _ _ eventRoutes_bits_lt 0 (by decide) _

theorem causeMask_lt (page : Nat) : causeMask page < 2 ^ 32 :=
  foldl_or_lt _ _ eventRoutes_bits_lt 0 (by decide) _

theorem pageKind_lt {p k : Nat} (h : pageKind p = some k) : p < 0x59 := by
  by_contra hp
  have none : pageKind p = none := by
    unfold pageKind
    repeat rw [if_neg (by omega)]
  rw [none] at h
  exact absurd h (by simp)

/-- The register tables give every register a reset value of 32 bits. -/
theorem pageSpecs_reset_lt : ∀ p < 0x59, ∀ r ∈ pageSpecs p, r.reset < 2 ^ 32 := by decide +kernel

theorem findSpec_reset_lt {p off : Nat} {r : RegSpec} (h : findSpec p off = some r) : r.reset < 2 ^ 32 := by
  have mem : r ∈ pageSpecs p := List.mem_of_find?_eq_some h
  cases hk : pageKind p with
  | none => rw [pageSpecs, hk] at mem; exact absurd mem List.not_mem_nil
  | some k => exact pageSpecs_reset_lt p (pageKind_lt hk) r mem

theorem ofSigned_lt (w : Nat) (i : Int) : ofSigned w i < 2 ^ w := by
  have pos : (0 : Int) < 2 ^ w := by positivity
  have low := Int.emod_nonneg i pos.ne'
  have high := Int.emod_lt_of_pos i pos
  unfold ofSigned
  zify
  omega

theorem instrumentReset_width_lt (i : Nat) : (instrumentReset i).2 < 2 ^ 32 := by
  unfold instrumentReset
  repeat' refine iteInduction (motive := fun x : Int × Nat => x.2 < 2 ^ 32) (fun _ => ?_) (fun _ => ?_)
  all_goals decide

theorem refIdReset_lt (i : Nat) : refIdReset.getD i 0 < 2 ^ 32 := by
  rw [List.getD_eq_getElem?_getD]
  cases h : refIdReset[i]? with
  | none => decide
  | some x =>
    have all : ∀ x ∈ refIdReset, x < 2 ^ 32 := by decide
    exact all x (List.mem_of_getElem? h)

theorem regReset_lt (k : Nat) : regReset k < 2 ^ 32 := by
  unfold regReset
  dsimp only
  split_ifs
  exacts [by decide, by decide, Nat.or_lt_two_pow (routeMask_lt _ _) (routeMask_lt _ _), by decide, by decide, by decide, by decide,
    by decide, by decide, ofSigned_lt 32 _, instrumentReset_width_lt _, by decide, refIdReset_lt _, by
      split
      · exact findSpec_reset_lt ‹_›
      · decide]

theorem State.reg_lt (s : State) (k : Nat) : s.reg k < 2 ^ 32 := by
  unfold State.reg
  split
  · exact BitVec.isLt _
  · exact regReset_lt k

@[simp] theorem State.tick_reg (s : State) (t : Angle) (k : Nat) : (s.tick t).reg k = s.reg k := by simp [State.reg]
@[simp] theorem State.tick_flag (s : State) (t : Angle) (k i : Nat) : (s.tick t).flag k i = s.flag k i := by simp [State.flag]

/-! ### What a capture records (R423) -/

/-- The word that a capture writes (Table 23.5). -/
def captureWord (p : Path) (page cause : Nat) : Nat := 0x80000000 + pathCode p * 2 ^ 28 + cause * 2 ^ 16 + page * 2 ^ 8

/-- A capture word has VALID set, and stays inside 32 bits. -/
theorem captureWord_bounds (p : Path) {page cause : Nat} (hp : page < 0x100) (hc : cause < 0x1000) :
    2 ^ 31 ≤ captureWord p page cause ∧ captureWord p page cause < 2 ^ 32 := by
  have path : pathCode p ≤ 2 := by cases p <;> simp [pathCode]
  unfold captureWord
  omega

theorem captureWord_valid (p : Path) {page cause : Nat} (hp : page < 0x100) (hc : cause < 0x1000) :
    bit 31 (captureWord p page cause) = true := by
  obtain ⟨low, high⟩ := captureWord_bounds p hp hc
  rw [bit, Nat.testBit_eq_decide_div_mod_eq, decide_eq_true_eq]
  omega

/-- A header whose VALID is clear takes the capture. -/
theorem State.captureHeader_taken {s : State} {page : Nat} (h : s.flag (page * 0x1000 + 0x028) 31 = false) (cap addr : Nat) :
    (s.captureHeader page cap addr).reg (page * 0x1000 + 0x028) = cap % 2 ^ 32 := by
  unfold State.captureHeader
  dsimp only
  rw [if_neg (by simp [h]), State.reg_setReg_other _ _ _ _ (by omega), State.reg_setReg]

theorem State.flag_setFlag_other (s : State) (k i j : Nat) (b : Bool) (hj : j < 32) (h : j ≠ i) :
    (s.setFlag k i b).flag k j = s.flag k j := by
  simp only [State.flag, State.setFlag, State.setFld, State.reg_setReg, bit, Nat.testBit_mod_two_pow, hj, decide_true, Bool.true_and]
  rw [testBit_setBits _ _ _ _ _ (Nat.le_refl i), if_neg (by omega)]

/-- After a capture the header has VALID set. -/
theorem State.captureHeader_valid (s : State) (page cap addr : Nat) (h : bit 31 cap = true) :
    (s.captureHeader page cap addr).flag (page * 0x1000 + 0x028) 31 = true := by
  by_cases hv : s.flag (page * 0x1000 + 0x028) 31
  · unfold State.captureHeader
    dsimp only
    rw [if_pos hv, State.flag_setFlag_other _ _ _ _ _ (by omega) (by omega), hv]
  · rw [State.flag, State.captureHeader_taken (by simpa using hv)]
    rw [bit, Nat.testBit_mod_two_pow]
    simpa [bit] using h

/-- The headers of the pages other than SYS stand apart from that of SYS. -/
theorem State.captureHeads_sys (s : State) (page cap addr : Nat) :
    ∃ u : State, s.captureHeads page cap addr = u.captureHeader 0 cap addr ∧ u.reg 0x00028 = s.reg 0x00028 := by
  unfold State.captureHeads
  split
  · rename_i h
    have hp : page ≠ 0 := by simp_all
    exact ⟨_, rfl, State.captureHeader_reg _ _ _ _ _ (by omega) (by omega)⟩
  · exact ⟨_, rfl, rfl⟩

theorem State.captureRing_reg (s : State) (cap addr k : Nat) (h : k ≠ Reg.SYS_ERR_OVF) : (s.captureRing cap addr).reg k = s.reg k := by
  have put : ∀ (u : State) (e : SMap ErrEntry), State.reg { u with errRing := e } k = u.reg k := fun _ _ => rfl
  unfold State.captureRing
  rw [put]
  split
  · exact State.reg_bump_other _ _ _ _ h
  · rfl

/-- Beside the error ring and the causes of SYS, a capture is that of its two headers. -/
theorem State.capture_heads_reg (s : State) (p : Path) (page off cause k : Nat) (h : stillKey k = true)
    (hk : k ∉ [Reg.SYS_ERR_WR, Reg.SYS_ERR_OVF, evRaw 0]) :
    (s.capture p page off cause).reg k = (s.captureHeads page (captureWord p page cause) (pathPeer p * 2 ^ 23 + off)).reg k := by
  simp only [List.mem_cons, List.not_mem_nil, or_false, not_or] at hk
  obtain ⟨wr, ovf, raw⟩ := hk
  rw [State.capture_parts, State.raise_still _ _ _ _ h raw, State.reg_setFld_other _ _ _ _ _ _ wr, State.captureRing_reg _ _ _ _ ovf]
  rfl

/-- ERRCAP of SYS takes the capture word where it is free. -/
theorem State.capture_sysWord {s : State} (h : s.flag 0x00028 31 = false) (p : Path) (page off cause : Nat) :
    (s.capture p page off cause).reg 0x00028 = captureWord p page cause % 2 ^ 32 := by
  rw [State.capture_heads_reg _ _ _ _ _ _ (by decide) (by decide)]
  obtain ⟨u, heads, same⟩ := s.captureHeads_sys page (captureWord p page cause) (pathPeer p * 2 ^ 23 + off)
  rw [heads]
  exact State.captureHeader_taken (page := 0) (by rw [← h]; simp only [State.flag, Nat.zero_mul, Nat.zero_add, same]) _ _

/-- After a capture ERRCAP of SYS has VALID set. -/
theorem State.capture_sysValid (s : State) (p : Path) {page cause : Nat} (off : Nat) (hp : page < 0x100) (hc : cause < 0x1000) :
    (s.capture p page off cause).flag 0x00028 31 = true := by
  rw [State.flag, State.capture_heads_reg _ _ _ _ _ _ (by decide) (by decide)]
  obtain ⟨u, heads, -⟩ := s.captureHeads_sys page (captureWord p page cause) (pathPeer p * 2 ^ 23 + off)
  rw [heads]
  exact State.captureHeader_valid u 0 _ _ (captureWord_valid p hp hc)

theorem Signals.errRing {s u : State} (h : Signals s u) : u.errRing = s.errRing := (congrArg State.errRing h).trans rfl

/-- A capture enters the error ring at ERR_WR. -/
theorem State.capture_ring (s : State) (p : Path) (page off cause : Nat) :
    ∃ e, (s.capture p page off cause).errRing.find (s.fld Reg.SYS_ERR_WR 4 0) = some e := by
  have heads : ∀ cap addr, (s.captureHeads page cap addr).fld Reg.SYS_ERR_WR 4 0 = s.fld Reg.SYS_ERR_WR 4 0 := by
    intro cap addr
    refine State.fld_eq_of_reg ?_ _ _
    unfold State.captureHeads
    rw [State.captureHeader_reg _ _ _ _ _ (by decide) (by decide)]
    split
    · exact State.captureHeader_reg _ _ _ _ _ (by change 0x80 ≠ _; omega) (by change 0x80 ≠ _; omega)
    · rfl
  rw [State.capture_parts, (State.raise_signals _ _ _).errRing, State.setFld_errRing, State.captureRing, heads]
  exact ⟨_, SMap.find_put_same _ _ _⟩

/-! ### The queue, and accesses that are not 32 bits wide and aligned -/

/-- Settles O1: `step` takes the queue apart, and each of its two forms is one clause. -/
theorem stepRunsFrontCommand : Obligations.StepRunsFrontCommand := by
  refine ⟨fun c rest s h => ?_, fun s h => ?_⟩
  · simp only [step, h]
  · simp only [step, h]

/-- A write that is not 32 bits wide and aligned is its capture with the cause "width" (R13). -/
theorem exec_registerWrite_width (t : Angle) (p : Path) (page : BitVec 8) (off : BitVec 12) (whole : Bool) (v : Word) (s : State)
    (h : whole = false ∨ off.toNat % 4 ≠ 0) :
    exec (.registerWrite t p page off whole v) s = .next ((s.tick t).capture p page.toNat off.toNat 0x01) := by
  cases whole with
  | false => rfl
  | true =>
    have hoff : off.toNat % 4 ≠ 0 := h.resolve_left (by decide)
    change Host.Outcome.next ((s.tick t).writeAny p page.toNat off.toNat v) = _
    rw [State.writeAny, if_pos hoff]

/-- A read that is not 32 bits wide and aligned answers 0 after its capture with the cause "width" (R13). -/
theorem exec_latchingRead_width (t : Angle) (p : Path) (page : BitVec 8) (off : BitVec 12) (whole : Bool) (s : State)
    (h : whole = false ∨ off.toNat % 4 ≠ 0) :
    exec (.latchingRead t p page off whole) s = .next (answer p ((s.tick t).capture p page.toNat off.toNat 0x01, 0)) := by
  cases whole with
  | false => rfl
  | true =>
    have hoff : off.toNat % 4 ≠ 0 := h.resolve_left (by decide)
    change Host.Outcome.next (answer p ((s.tick t).readAny p page.toNat off.toNat)) = _
    rw [State.readAny, if_pos hoff]

/-- What a capture with the cause "width" leaves in ERRCAP of SYS, where it was free. -/
theorem State.capture_width_word {s : State} (h : s.flag 0x00028 31 = false) (p : Path) (page : BitVec 8) (off : Nat) :
    (s.capture p page.toNat off 0x01).reg 0x00028 = 0x80010000 + pathCode p * 2 ^ 28 + page.toNat * 2 ^ 8 := by
  rw [State.capture_sysWord h, Nat.mod_eq_of_lt (captureWord_bounds p page.isLt (by decide)).2, captureWord]
  omega

/-- Settles O13: the register file holds words, and an access of another width or alignment is its capture and nothing else. -/
theorem widthErrorsAreCaptured : Obligations.WidthErrorsAreCaptured := by
  refine ⟨State.reg_lt, fun t p page off whole v s h => ?_, fun t p page off whole s h => ?_⟩
  · refine ⟨_, exec_registerWrite_width t p page off whole v s h, fun free => ?_, fun k still out => ?_⟩
    · exact State.capture_width_word (by rwa [State.tick_flag]) p page off.toNat
    · rw [State.capture_reg _ _ _ _ _ _ still out, State.tick_reg]
  · refine ⟨_, exec_latchingRead_width t p page off whole s h, ⟨_, answer_out _ _⟩, fun free => ?_, fun k still out => ?_⟩
    · rw [answer_reg]
      exact State.capture_width_word (by rwa [State.tick_flag]) p page off.toNat
    · rw [answer_reg, State.capture_reg _ _ _ _ _ _ still out, State.tick_reg]

end Sys2Proof.Machine
end

section
/-!
PROOFS. The commands of the register bus (R410, R421 to R426) complete with their effect: one lemma for each command, and O60 from them.
-/

namespace Sys2Proof.Machine

/-! ### What the finish of an accepted write leaves -/

theorem State.finish_done_nv (p : Path) (page off : Nat) (s : State) : (State.finish p page off (.done s)).nv = s.nv :=
  (congrArg State.nv (State.finish_done p page off s)).trans rfl

theorem State.finish_done_out (p : Path) (page off : Nat) (s : State) : (State.finish p page off (.done s)).out = s.out :=
  (congrArg State.out (State.finish_done p page off s)).trans rfl

/-! ### ROLE_NEXT, IFSEL and a capture's clearing (R410, R421, R423) -/

theorem effRoleNext_accepted {v : Word} {a : State} (lc : a.nv.lc = 1 ∨ a.nv.lc = 2) (busy : a.modeBusy = false)
    (hub : a.fac.variant ≠ .h ∨ (bits 17 16 v.toNat ≠ 1 ∧ bits 17 16 v.toNat ≠ 3)) :
    effRoleNext v a = .done { a with nv := { a.nv with roleNext := bits 17 16 v.toNat } } := by
  unfold effRoleNext
  dsimp only
  rw [if_neg (by omega), if_neg (by simp [busy]), if_neg (by tauto)]

/-- The word of an accepted IFSEL: interface version 1.0, and the lock as written. -/
theorem ifselWord_fields (lock : Bool) :
    bits 15 0 ((b2n lock * 2 ^ 31 + 0x0100) % 2 ^ 32) = 0x0100 ∧ bit 31 ((b2n lock * 2 ^ 31 + 0x0100) % 2 ^ 32) = lock := by
  cases lock <;> decide

theorem effIfsel_accepted {page : Nat} {v : Word} {a : State} (free : a.flag (page * 0x1000 + 0x008) 31 = false)
    (ver : bits 15 0 v.toNat = 0x0100) :
    effIfsel page v a = .done (a.setReg (page * 0x1000 + 0x008) (b2n (bit 31 v.toNat) * 2 ^ 31 + 0x0100)) := by
  unfold effIfsel
  dsimp only
  rw [if_neg (by simp [free]), ver, if_pos rfl]

theorem effErrcap_clears {page : Nat} {v : Word} (a : State) (h : v.toNat.testBit 31 = true) :
    effErrcap page v a = .done (a.setFld (page * 0x1000 + 0x028) 31 30 0) := if_pos h

/-! ### Causes and enables (R424) -/

/-- Of a page's EV_RAW, only that of Keeper moves with event lines. -/
theorem stillKey_evRaw {page : Nat} (h : page < 0x100) : stillKey (evRaw page) = true ∨ page = 0x40 := by
  simp only [stillKey, evRaw, Reg.EVT_MSG_CNT, Reg.KEEP_RSV_WAIT, Reg.KEEP_KEY_STOP, Bool.and_eq_true, bne_iff_ne, ne_eq]
  omega

theorem stillKey_evEn (page : Nat) : stillKey (evEn page) = true := by
  simp only [stillKey, evRaw, evEn, Reg.EVT_MSG_CNT, Reg.KEEP_RSV_WAIT, Reg.KEEP_KEY_STOP, Bool.and_eq_true, bne_iff_ne, ne_eq]
  omega

theorem State.raiseMask_sets (s : State) (page : BitVec 8) (v : Word) :
    (s.raiseMask page.toNat v.toNat).reg (evRaw page.toNat) = s.reg (evRaw page.toNat) ||| (v.toNat &&& causeMask page.toNat) := by
  rw [State.raiseMask_raw _ _ _ (stillKey_evRaw page.isLt), Nat.mod_eq_of_lt]
  exact Nat.or_lt_two_pow (s.reg_lt _) (Nat.and_lt_two_pow _ (causeMask_lt _))

theorem testBit_beyond_word {w i : Nat} (hw : w < 2 ^ 32) (hi : 32 ≤ i) : w.testBit i = false :=
  Nat.testBit_lt_two_pow (Nat.lt_of_lt_of_le hw (Nat.pow_le_pow_right (by decide) hi))

/-- The mask that clears the causes of a word has 0 in each bit that the word sets. -/
theorem testBit_clearMask (v : Word) {i : Nat} (h : v.toNat.testBit i = true) :
    (0xFFFFFFFF - (v.toNat &&& 0xFFFFFFFF)).testBit i = false := by
  have low : v.toNat &&& 0xFFFFFFFF = v.toNat := by
    rw [show (0xFFFFFFFF : Nat) = 2 ^ 32 - 1 from rfl, Nat.and_two_pow_sub_one_eq_mod, Nat.mod_eq_of_lt v.isLt]
  rw [low, show 0xFFFFFFFF - v.toNat = 2 ^ 32 - (v.toNat + 1) by omega, Nat.testBit_two_pow_sub_succ v.isLt, h]
  simp

theorem State.clearCauses_clears (s : State) (page : BitVec 8) (v : Word) {i : Nat} (h : v.toNat.testBit i = true) :
    (s.clearCauses page.toNat v.toNat).flag (evRaw page.toNat) i = false := by
  rw [State.flag, State.clearCauses_raw _ _ _ (stillKey_evRaw page.isLt), bit, Nat.testBit_mod_two_pow, Nat.testBit_and,
    testBit_clearMask v h]
  simp

/-- The fields of registers that event lines leave as they are stand when causes are cleared. -/
theorem State.clearCauses_fld (s : State) (page mask k hi lo : Nat) (h : stillKey k = true) (r : k ≠ evRaw page) :
    (s.clearCauses page mask).fld k hi lo = s.fld k hi lo := by
  refine State.fld_eq_of_reg ?_ hi lo
  rw [State.clearCauses, State.updateLines_still _ _ _ h, State.reg_setReg_other _ _ _ _ r]

theorem State.clearCauses_ptp (s : State) (page mask : Nat) : (s.clearCauses page mask).ptp = s.ptp :=
  (congrArg State.ptp (State.clearCauses_signals s page mask)).trans rfl

/-- Outside Lift, a write of EV_PEND clears the causes and sets none of them again while no timestamp and no report waits. -/
theorem effEvPend_raw {page : Nat} {v : Word} {a : State} (lift : page < 0x18 ∨ 0x1B < page) (ts : page = 0x06 → a.ptp.tsq = [])
    (db : page = 0x53 → a.fld Reg.PCIE_RPT_WR 11 0 = a.fld Reg.PCIE_RPT_RD 11 0) :
    ∃ w, effEvPend page v a = .done w ∧ w.reg (evRaw page) = (a.clearCauses page v.toNat).reg (evRaw page) := by
  unfold effEvPend
  rw [if_neg (by omega)]
  dsimp only
  refine ⟨_, rfl, ?_⟩
  split_ifs with isPtp isPcie isLedger
  · rw [State.holdTs, State.clearCauses_ptp, ts isPtp.1]
    rfl
  · obtain ⟨rfl, -⟩ := isPcie
    rw [State.holdDb, State.clearCauses_fld _ _ _ _ _ _ (by decide) (by decide),
      State.clearCauses_fld _ _ _ _ _ _ (by decide) (by decide), if_pos (db rfl)]
  · obtain ⟨rfl, -⟩ := isLedger
    rw [State.setReg64, State.reg_setReg_other _ _ _ _ (by decide), State.reg_setReg_other _ _ _ _ (by decide),
      State.reg_setReg_other _ _ _ _ (by decide)]
  · rfl

/-- The enables of a page after a write of EV_EN_SET or EV_EN_CLR. -/
theorem State.setEnables_reg (s : State) (page : BitVec 8) (w : Nat) :
    ((s.setReg (evEn page.toNat) w).updateLines page.toNat).reg (evEn page.toNat) = w % 2 ^ 32 := by
  rw [State.updateLines_still _ _ _ (stillKey_evEn _), State.reg_setReg]

/-- A bit of the enables after the bits of a word are cleared. -/
theorem testBit_clearEnables {w : Nat} (v : Word) (i : Nat) (hw : w < 2 ^ 32) :
    ((w &&& (0xFFFFFFFF ^^^ v.toNat)) % 2 ^ 32).testBit i = (w.testBit i && !v.toNat.testBit i) := by
  rw [Nat.testBit_mod_two_pow, Nat.testBit_and, Nat.testBit_xor, show (0xFFFFFFFF : Nat) = 2 ^ 32 - 1 from rfl, Nat.testBit_two_pow_sub_one]
  by_cases hi : i < 32
  · simp [hi]
  · rw [testBit_beyond_word hw (Nat.le_of_not_lt hi)]
    simp

/-! ### RESEND (R426) -/

/-- What RESEND does for one line of its half. -/
def State.resendLine (v : Word) (s : State) (n : Nat) : State :=
  if bit (n % 32) v.toNat && s.lineActive.contains n then s.msiFor n else s

theorem effResend_fold (hi : Bool) (v : Word) (s : State) :
    effResend hi v s = .done (((List.range 32).map (fun i => 32 * b2n hi + i)).foldl (State.resendLine v) s) := rfl

theorem State.resendLine_lines (v : Word) (s : State) (n : Nat) :
    (s.resendLine v n).lineActive = s.lineActive ∧ (s.resendLine v n).msixMasked = s.msixMasked := by
  unfold State.resendLine State.msiFor
  split_ifs <;> exact ⟨rfl, rfl⟩

theorem State.resendLine_out (v : Word) (s : State) (n : Nat) {o : Output} (h : o ∈ s.out) : o ∈ (s.resendLine v n).out := by
  unfold State.resendLine State.msiFor
  split_ifs
  · exact h
  · exact h
  · exact List.mem_cons_of_mem _ h
  · exact h

theorem State.resend_keeps_out (v : Word) (l : List Nat) (s : State) {o : Output} (h : o ∈ s.out) :
    o ∈ (l.foldl (State.resendLine v) s).out := by
  induction l generalizing s with
  | nil => exact h
  | cons n l ih => exact ih _ (s.resendLine_out v n h)

/-- An active, unmasked line whose bit is written sends its message. -/
theorem State.resend_sends {v : Word} {n : Nat} (written : bit (n % 32) v.toNat = true) {l : List Nat} (mem : n ∈ l) {s : State}
    (active : s.lineActive.contains n = true) (unmasked : s.msixMasked.contains n = false) :
    .msix n ∈ (l.foldl (State.resendLine v) s).out := by
  induction l generalizing s with
  | nil => exact absurd mem List.not_mem_nil
  | cons m l ih =>
    rw [List.foldl_cons]
    rcases List.mem_cons.mp mem with rfl | mem
    · have sent : s.resendLine v n = (s.bump (bankKey n Reg.EVT_MSG_CNT)).send (.msix n) := by
        rw [State.resendLine, if_pos (by rw [written, active]; rfl), State.msiFor, if_neg (by rw [unmasked]; decide)]
      exact State.resend_keeps_out v l _ (sent ▸ List.mem_cons_self)
    · obtain ⟨lines, masks⟩ := s.resendLine_lines v m
      exact ih mem (lines ▸ active) (masks ▸ unmasked)

/-! ### Counter clears (R422) -/

theorem foldl_clear_keeps_zero (base : Nat) (l : List Nat) (s : State) {k : Nat} (h : s.reg k = 0) :
    (l.foldl (fun (s : State) off => s.setReg (base + off) 0) s).reg k = 0 := by
  induction l generalizing s with
  | nil => exact h
  | cons o l ih =>
    refine ih _ ?_
    by_cases e : k = base + o
    · rw [e, State.reg_setReg, Nat.zero_mod]
    · rw [State.reg_setReg_other _ _ _ _ e, h]

theorem foldl_clear_reg (base : Nat) {l : List Nat} {o : Nat} (mem : o ∈ l) (s : State) :
    (l.foldl (fun (s : State) off => s.setReg (base + off) 0) s).reg (base + o) = 0 := by
  induction l generalizing s with
  | nil => exact absurd mem List.not_mem_nil
  | cons m l ih =>
    rw [List.foldl_cons]
    rcases List.mem_cons.mp mem with rfl | mem
    · exact foldl_clear_keeps_zero base l _ (by rw [State.reg_setReg, Nat.zero_mod])
    · exact ih mem _

theorem effCounterClear_clears {page : Nat} {counters : List Nat} {v : Word} (a : State) (h : v.toNat.testBit 0 = true) :
    effCounterClear page counters v a = .done (counters.foldl (fun (s : State) off => s.setReg (page * 0x1000 + off) 0) a) := if_pos h

/-- The counters that a page's CNT_CLR clears stand above its header. -/
theorem counterClear_above_header :
    ∀ page < 0x100, ∀ q < 8, ∀ x ∈ counterClear page q, ∀ o ∈ x.2, 0x040 ≤ o := by decide +kernel

/-! ### Plain registers (R422) -/

/-- A window register stands behind its selector or at its own key. -/
theorem State.windowKey_cases (s : State) (page off : Nat) :
    s.windowKey page off = page * 0x1000 + off ∨ ∃ sel, s.windowKey page off = bankKey sel (page * 0x1000 + off) := by
  unfold State.windowKey
  dsimp only
  repeat'
    refine iteInduction (motive := fun k => k = page * 0x1000 + off ∨ ∃ sel, k = bankKey sel (page * 0x1000 + off))
      (fun _ => .inr ⟨_, rfl⟩) (fun _ => ?_)
  exact .inl rfl

/-- No register at 0x040 or above stands at its page's SEQ. -/
theorem State.windowKey_ne_seq (s : State) {page off : Nat} (ho : 0x040 ≤ off) :
    s.windowKey page off ≠ page * 0x1000 + 0x030 := by
  rcases s.windowKey_cases page off with h | ⟨sel, h⟩
  · rw [h]; omega
  · rw [h, bankKey]; omega

theorem State.enterRecord_regs (s : State) (r : LedgerRecord) : (s.enterRecord r).2.regs = s.regs := by
  unfold State.enterRecord
  dsimp only
  (repeat' split) <;> rfl

/-- A record of a class that is not charged moves no register. -/
theorem State.append_regs_uncharged (s : State) {cls : Nat} (h : chargedClass cls = false) (payload : List Byte) (obl : Option Nat)
    (leaf : Nat) : (s.append cls payload obl leaf).2.regs = s.regs := by
  unfold State.append
  split
  · rfl
  · simp only [h, Bool.false_eq_true, if_false]
    split
    · rw [State.send_regs, State.enterRecord_regs]
    · rw [State.enterRecord_regs]

theorem State.journalConfig_reg (s : State) (k j : Nat) : (s.journalConfig k).reg j = s.reg j := by
  have regs : (s.journalConfig k).regs = s.regs := State.append_regs_uncharged s (by decide) _ _ _
  simp only [State.reg, regs]

/-- A plain write of a register with RW fields is accepted and stores the word that its field types leave. -/
theorem State.plainWrite_stores {s : State} {page off : Nat} {v : Word} {r : RegSpec} (spec : findSpec page off = some r)
    (writable : r.rw ≠ 0) :
    ∃ u, s.plainWrite page off v = .done u ∧
      u.reg (s.windowKey page off) = plainWord r (s.locked page) (s.reg (s.windowKey page off)) v.toNat % 2 ^ 32 := by
  unfold State.plainWrite
  rw [spec]
  dsimp only
  rw [if_neg (by tauto), if_neg (by tauto)]
  split
  · exact ⟨_, rfl, State.reg_setReg _ _ _⟩
  · exact ⟨_, rfl, by rw [State.journalConfig_reg, State.reg_setReg]⟩

/-! ### The end of an erase (R241) -/

theorem Signals.led {s u : State} (h : Signals s u) : u.led = s.led := (congrArg State.led h).trans rfl

theorem State.raise_led (s : State) (page i : Nat) : (s.raise page i).led = s.led := (State.raise_signals s page i).led

theorem State.alert_led (s : State) (page : Nat) : (s.alert page).led = s.led := (State.alert_signals s page).led

theorem State.spaceAfter_led (was s : State) (a : Nat) : (was.spaceAfter s a).led = s.led := by
  unfold State.spaceAfter
  dsimp only
  split_ifs <;> simp [State.raise_led]

theorem State.checkSpace_led (was s : State) : (was.checkSpace s).led = s.led := by
  rw [State.checkSpace, State.spaceAfter_led, State.spaceAfter_led]

theorem State.recomputeOn_led (s : State) (reason : Nat) (rs : List Nat) : (s.recomputeOn reason rs).led = s.led := by
  unfold State.recomputeOn
  dsimp only
  rw [State.setFlag_led]

theorem State.loseRes_led (s : State) (r reason : Nat) : (s.loseRes r reason).led = s.led := by
  rw [State.loseRes, State.recomputeOn_led]

/-- A new size of the raw ring leaves the superblocks and the waiting stripe as they are (R238). -/
theorem State.resizeRing_sbs (s : State) : s.resizeRing.led.sbs = s.led.sbs ∧ s.resizeRing.led.stalled = s.led.stalled := by
  unfold State.resizeRing
  dsimp only
  split_ifs
  · exact ⟨rfl, rfl⟩
  · rw [State.alert_led, State.loseRes_led, State.setFld_led, State.raise_led, State.checkSpace_led]
    exact ⟨rfl, rfl⟩
  · rw [State.raise_led, State.checkSpace_led]
    exact ⟨rfl, rfl⟩

/-- What the loss of a die does to a superblock: an open one closes (R253). -/
def closeWith (on : List Nat) (x : Nat × Superblock) : Nat × Superblock :=
  if on.contains x.1 ∧ x.2.phase = 1 then (x.1, { x.2 with phase := 2 }) else x

theorem closeWith_key (on : List Nat) (x : Nat × Superblock) : (closeWith on x).1 = x.1 := by
  unfold closeWith
  split <;> rfl

/-- A superblock that closes keeps its erase count, and is not listed for erase unless it was. -/
theorem closeWith_erased (on : List Nat) (x : Nat × Superblock) :
    (closeWith on x).2.erases = x.2.erases ∧ (x.2.phase ≠ 3 → (closeWith on x).2.phase ≠ 3) := by
  unfold closeWith
  split
  · exact ⟨rfl, fun _ => (by decide : (2 : Nat) ≠ 3)⟩
  · exact ⟨rfl, id⟩

/-- A lost die closes superblocks, and leaves the waiting stripe as it is (R253). -/
theorem State.loseDie_sbs (s : State) (d : Nat) :
    (∃ on, (s.loseDie d).led.sbs = s.led.sbs.map (closeWith on)) ∧ (s.loseDie d).led.stalled = s.led.stalled := by
  unfold State.loseDie
  split
  · have same : closeWith [] = id := funext fun x => if_neg (by simp)
    exact ⟨⟨[], by rw [same, List.map_id]⟩, rfl⟩
  · dsimp only
    rw [State.recomputeOn_led, (State.resizeRing_sbs _).1, (State.resizeRing_sbs _).2, State.raise_led, State.setReg_led]
    exact ⟨⟨_, rfl⟩, rfl⟩

theorem SMap.find_map_of_keys {α : Type} (m : SMap α) (g : Nat × α → Nat × α) (keys : ∀ x, (g x).1 = x.1) (i : Nat) :
    SMap.find (m.map g) i = (m.find i).map (fun v => (g (i, v)).2) := by
  induction m with
  | nil => rfl
  | cons x m ih =>
    obtain ⟨k, v⟩ := x
    have head : g (k, v) = (k, (g (k, v)).2) := Prod.ext (keys _) rfl
    rw [List.map_cons, head, SMap.find, SMap.find, ih]
    split
    · rename_i e
      subst e
      rfl
    · rfl

/-- A superblock has been erased `e` times and is not listed for erase, and no stripe waits for a free superblock. -/
def State.Erased (s : State) (n e : Nat) : Prop := (s.sb n).erases = e ∧ (s.sb n).phase ≠ 3 ∧ s.led.stalled = false

theorem State.Erased.of_led {s u : State} {n e : Nat} (h : s.Erased n e) (sbs : u.led.sbs = s.led.sbs)
    (stalled : u.led.stalled = s.led.stalled) : u.Erased n e := by
  simpa only [State.Erased, State.sb, sbs, stalled] using h

theorem State.sb_setSb (s : State) (n : Nat) (x : Superblock) : (s.setSb n x).sb n = x := by
  simp only [State.sb, State.setSb, SMap.getD, SMap.find_put_same, Option.getD_some]

theorem State.setSb_erased {s : State} (calm : s.led.stalled = false) (n : Nat) {x : Superblock} (h : x.phase ≠ 3) :
    (s.setSb n x).Erased n x.erases := by
  rw [State.Erased, State.sb_setSb]
  exact ⟨rfl, h, calm⟩

theorem State.Erased.loseDie {s : State} {n e : Nat} (h : s.Erased n e) (d : Nat) : (s.loseDie d).Erased n e := by
  obtain ⟨erases, phase, calm⟩ := h
  obtain ⟨⟨on, sbs⟩, stalled⟩ := s.loseDie_sbs d
  rw [State.sb, SMap.getD] at erases phase
  rw [State.Erased, State.sb, SMap.getD, sbs, SMap.find_map_of_keys _ _ (closeWith_key on), stalled]
  cases hv : s.led.sbs.find n with
  | none =>
    rw [hv] at erases phase
    exact ⟨erases, phase, calm⟩
  | some v =>
    rw [hv] at erases phase
    obtain ⟨count, closed⟩ := closeWith_erased on (n, v)
    exact ⟨count.trans erases, closed phase, calm⟩

/-- A superblock that dissolves keeps its erase count (R251). -/
theorem State.Erased.dissolve {s : State} {n e : Nat} (h : s.Erased n e) (total : Nat) :
    (({ s with led := { s.led with sbTotal := total } } : State).setSb n { s.sb n with phase := 4 }).resizeRing.Erased n e := by
  obtain ⟨erases, -, calm⟩ := h
  have dissolved : (({ s with led := { s.led with sbTotal := total } } : State).setSb n { s.sb n with phase := 4 }).Erased n e := by
    rw [State.Erased, State.sb_setSb]
    exact ⟨erases, (by decide : (4 : Nat) ≠ 3), calm⟩
  exact dissolved.of_led (State.resizeRing_sbs _).1 (State.resizeRing_sbs _).2

/-- A retired block leaves its superblock's erase count, and dissolves it where the die has no spare (R251). -/
theorem State.Erased.retireBlock {s : State} {n e : Nat} (h : s.Erased n e) (d : Nat) : (s.retireBlock n d).Erased n e := by
  unfold State.retireBlock
  dsimp only
  have counted : (State.raise { s with led := { s.led with
      dies := s.led.dies.put d { s.die d with retired := (s.die d).retired + 1 } } } 0x39 0).Erased n e :=
    h.of_led (by rw [State.raise_led]) (by rw [State.raise_led])
  split_ifs
  · exact counted.loseDie d
  · exact (counted.dissolve _).loseDie d
  · exact counted
  · exact counted.dissolve _

theorem State.Erased.retireBlocks {n e : Nat} (l : List Nat) {s : State} (h : s.Erased n e) :
    (l.foldl (fun (s : State) d => s.retireBlock n d) s).Erased n e := by
  induction l generalizing s with
  | nil => exact h
  | cons d l ih => exact ih (h.retireBlock d)

/-- A superblock that becomes free has its new erase count, where no stripe waits for one. -/
theorem State.freeSb_erased {s : State} (calm : s.led.stalled = false) (n e : Nat) (dies : List Nat) : (s.freeSb n e dies).Erased n e := by
  have settle : ∀ u : State, u.Erased n e → (if u.led.stalled then u.rewriteStripe else u).Erased n e := by
    intro u h
    rwa [if_neg (by rw [h.2.2]; decide)]
  unfold State.freeSb
  dsimp only
  refine settle _ (State.Erased.retireBlocks _ ?_)
  exact (State.setSb_erased calm n (x := { dies := s.diesInService, erases := e }) (by decide : (0 : Nat) ≠ 3)).of_led rfl rfl

/-! ### The commands -/

/-- Settles O60: each command's clause from the lemma about its effect. -/
theorem registerBusCommandsComplete : Obligations.RegisterBusCommandsComplete := by
  refine ⟨fun t p v s a thr lc busy hub => ?roleNext, fun t p page v s a thr free ver => ?ifsel, fun t p page v s a thr => ?evRaw,
    fun t p page v i s a thr lift ts db hv => ?evPend, fun t p page v s a thr => ?evEnSet, fun t p page v i s a thr => ?evEnClr,
    fun t p hi v i s a thr hi' hv active masked => ?resend, fun t p page v s a thr hv => ?errcap,
    fun t p page q v off counters s a clr thr hv => ?counter, fun t p page off v r s a low al thr spec writable eff => ?plain,
    fun t p page off whole v s h => ?width, fun t sb s erasing calm => ?erase⟩
  case roleNext =>
    refine ⟨(s.tick t).hostWrite p 0x00 0x0C4 (effRoleNext v), rfl, ?_⟩
    rw [State.hostWrite_through thr, effRoleNext_accepted lc busy hub, State.finish_done_nv]
  case ifsel =>
    refine ⟨(s.tick t).hostWrite p page.toNat 0x008 (effIfsel page.toNat v), rfl, ?_⟩
    have word : State.reg ((s.tick t).hostWrite p page.toNat 0x008 (effIfsel page.toNat v)) (page.toNat * 0x1000 + 0x008) =
        (b2n (bit 31 v.toNat) * 2 ^ 31 + 0x0100) % 2 ^ 32 := by
      rw [State.hostWrite_through thr, effIfsel_accepted free ver, State.finish_done_reg _ _ _ _ _ (by omega), State.reg_setReg]
    rw [State.fld, State.flag, word]
    exact ifselWord_fields _
  case evRaw =>
    refine ⟨(s.tick t).hostWrite p page.toNat 0x014 (effEvRaw page.toNat v), rfl, ?_⟩
    rw [State.hostWrite_through thr, effEvRaw, State.finish_done_reg _ _ _ _ _ (by simp [evRaw]), State.raiseMask_sets]
  case evPend =>
    refine ⟨(s.tick t).hostWrite p page.toNat 0x018 (effEvPend page.toNat v), rfl, ?_⟩
    obtain ⟨w, done, raw⟩ := effEvPend_raw (v := v) lift ts db
    rw [State.hostWrite_through thr, done, State.flag, State.finish_done_reg _ _ _ _ _ (by simp [evRaw]), raw]
    exact a.clearCauses_clears page v hv
  case evEnSet =>
    refine ⟨(s.tick t).hostWrite p page.toNat 0x01C (effEvEnSet page.toNat v), rfl, ?_⟩
    rw [State.hostWrite_through thr, effEvEnSet, State.finish_done_reg _ _ _ _ _ (by simp [evEn]), State.setEnables_reg, Nat.mod_eq_of_lt]
    exact Nat.or_lt_two_pow (a.reg_lt _) (Nat.and_lt_two_pow _ (causeMask_lt _))
  case evEnClr =>
    refine ⟨(s.tick t).hostWrite p page.toNat 0x020 (effEvEnClr page.toNat v), rfl, ?_⟩
    rw [State.hostWrite_through thr, effEvEnClr, State.flag, State.finish_done_reg _ _ _ _ _ (by simp [evEn]), State.setEnables_reg]
    exact testBit_clearEnables v i (a.reg_lt _)
  case resend =>
    refine ⟨(s.tick t).hostWrite p 0x03 (0x050 + 4 * b2n hi) (effResend hi v), rfl, ?_⟩
    rw [State.hostWrite_through thr, effResend_fold, State.finish_done_out]
    have line : (32 * b2n hi + i) % 32 = i := by omega
    exact State.resend_sends (by rw [line]; exact hv) (List.mem_map.mpr ⟨i, List.mem_range.mpr hi', rfl⟩) active masked
  case errcap =>
    refine ⟨(s.tick t).hostWrite p page.toNat 0x028 (effErrcap page.toNat v), rfl, ?_⟩
    rw [State.hostWrite_through thr, effErrcap_clears a hv, State.fld_eq_of_reg (State.finish_done_reg _ _ _ _ _ (by omega)),
      State.fld_setFld _ _ _ _ _ (by decide) (by decide), Nat.zero_mod]
  case counter =>
    have run : execCounterClear t p page q v s = .next ((s.tick t).hostWrite p page.toNat off (effCounterClear page.toNat counters v)) := by
      simp only [execCounterClear, clr]
    refine ⟨_, run, fun o ho => ?_⟩
    have above := counterClear_above_header _ page.isLt _ q.isLt _ clr o ho
    rw [State.hostWrite_through thr, effCounterClear_clears a hv, State.finish_done_reg _ _ _ _ _ (by omega)]
    exact foldl_clear_reg _ ho a
  case plain =>
    refine ⟨(s.tick t).writeAny p page.toNat off.toNat v, rfl, ?_⟩
    obtain ⟨u, done, word⟩ := State.plainWrite_stores (s := a) (v := v) spec writable
    rw [State.writeAny, if_neg (by omega), State.hostWrite_through thr, eff, done,
      State.finish_done_reg _ _ _ _ _ (a.windowKey_ne_seq low), word]
  case width =>
    refine ⟨_, exec_registerWrite_width t p page off whole v s h, ?_, State.capture_ring _ _ _ _ _⟩
    exact State.capture_sysValid _ p _ page.isLt (by decide)
  case erase =>
    have run : execEraseComplete t sb s = .next ((s.tick t).eraseSb sb.toNat) := by
      simp only [execEraseComplete, erasing, if_true]
    obtain ⟨erases, phase, -⟩ := State.freeSb_erased (s := (s.tick t).bump Reg.NAND_SB_ERASED) calm sb.toNat
      (((s.tick t).sb sb.toNat).erases + 1) []
    exact ⟨_, run, erases, phase⟩

end Sys2Proof.Machine
end

section
/-!
PROOFS. Sweep time over a step (R15). What each command answers comes first, one lemma per command: a next state that has the sweep time of the
command's angle and the queue, the factory values and the life-cycle state of the state before. The cycle start, a crossing, a pairing HELLO and the
steps of the start-up stand outside of it.
-/

namespace Sys2Proof.Machine

/-! ### What a command answers (R15, R365) -/

/-- A command answers a next state in which sweep time, the queue, the factory values and the life-cycle state are those of a state. -/
def AnswersAt (s : State) (o : Outcome) : Prop := ∃ u, o = .next u ∧ Stored s u

/-- A command that takes effect at an angle of the current cycle (R15) answers a next state with the sweep time of that angle, and leaves the
queue, the factory values and the life-cycle state as they are. -/
def Answers (s : State) (o : Outcome) : Prop := ∃ t, AnswersAt (s.tick t) o

@[simp] theorem answersAt_next (s u : State) :
    AnswersAt s (.next u) ↔ u.now = s.now ∧ u.pending = s.pending ∧ u.fac = s.fac ∧ u.nv.lc = s.nv.lc := by
  simp [AnswersAt, Stored]

theorem Kept.stored {s u : State} (h : Kept s u) : Stored s u := by
  obtain ⟨now, -, rest⟩ := h
  exact ⟨now, rest⟩

theorem Stored.answersAt {s u : State} (h : Stored s u) : AnswersAt s (.next u) := ⟨u, rfl, h⟩

@[simp] theorem answer_kept (p : Path) (r : State × Nat) : Kept r.1 (answer p r) := by
  simp [Kept, answer]

theorem Stored.ite {s a b : State} {c : Prop} [Decidable c] (ha : Stored s a) (hb : Stored s b) : Stored s (if c then a else b) := by
  split
  · exact ha
  · exact hb

theorem AnswersAt.ite {s a b : State} {c : Prop} [Decidable c] (ha : AnswersAt s (.next a)) (hb : AnswersAt s (.next b)) :
    AnswersAt s (.next (if c then a else b)) := by
  split
  · exact ha
  · exact hb

theorem AnswersAt.either {s : State} {o o' : Outcome} {c : Prop} [Decidable c] (h : AnswersAt s o) (h' : AnswersAt s o') :
    AnswersAt s (if c then o else o') := by
  split
  · exact h
  · exact h'

theorem AnswersAt.trans {s a u : State} (ha : AnswersAt s (.next a)) (hu : Kept a u) : AnswersAt s (.next u) := by
  obtain ⟨now, -, pending, fac, lc⟩ := hu
  rw [answersAt_next] at ha ⊢
  rwa [now, pending, fac, lc]

@[simp] theorem State.decodeHeader_kept (s : State) (l rx) : Kept s (s.decodeHeader l rx).2.2 := by
  simp [Kept, State.decodeHeader]

/-- A KFP record that needs no more is taken. -/
theorem State.kfpAccept_done {s u : State} {r : KfpRx} {again : State → State} {acked : Bool}
    (h : s.kfpAccept r again acked = .done u) (ha : ∀ s, Kept s (again s)) : Kept s u := by
  simpa [h] using s.kfpAccept_kept r again acked ha

/-- A fresh KFP record is taken for its session. -/
theorem State.kfpAccept_fresh {s u : State} {x : Session} {r : KfpRx} {again : State → State} {acked : Bool}
    (h : s.kfpAccept r again acked = .fresh x u) (ha : ∀ s, Kept s (again s)) : Kept s u := by
  simpa [h] using s.kfpAccept_kept r again acked ha

theorem State.assemble_kept_of_eq {s u : State} {r : KfpRx} {ftype : Nat} {x : Session} {body : Option (List Byte)}
    (h : s.assemble r ftype x = (body, u)) : Kept s u := by
  simpa [h] using s.assemble_kept r ftype x

/-- The host's held request is tested at the end of a recomputation (R48). -/
theorem AnswersAt.testHeldHost {s d : State} (hd : AnswersAt s (.next d)) :
    AnswersAt s (.next (match d.slalom.held with
      | some q => { d with slalom := { d.slalom with held := none } }.testRequest q
      | none => d)) := by
  split
  next q _ => exact AnswersAt.trans (by simpa using hd) (State.testRequest_kept _ q)
  next => exact hd

/-- The end of a recomputation: the requests that it has held, unless it starts again (R48). -/
theorem AnswersAt.testHeld {s c : State} (hc : AnswersAt s (.next c)) :
    AnswersAt s (.next (if c.flag Reg.SLALOM_STATUS 31 then c
      else
        have s := c.testHeldOwn
        match s.slalom.held with
        | some q => { s with slalom := { s.slalom with held := none } }.testRequest q
        | none => s)) :=
  .ite hc (.testHeldHost (hc.trans (State.testHeldOwn_kept c)))

/-- The answer to a power-fail warning (R342, R345, R361). -/
theorem AnswersAt.answerWarning {s a : State} {cause : Fin 3} (ha : AnswersAt s (.next a)) :
    AnswersAt s (if a.boot.kind.isSome then .next { a.shed with boot := { a.shed.boot with kind := none } }
      else if a.boot.done.contains 10 && a.storeRuns then .next a.shed.beginShutdown
      else if cause.val = 2 then .next { a.enterVigil with boot := { a.boot with hold := 2 } }
      else .next a.enterVigil) :=
  .either (ha.trans (by simp [Kept])) <| .either (ha.trans (by simp [Kept])) <| .either (ha.trans (by simp [Kept])) (ha.trans (by simp [Kept]))

/-! ### What a command answers: the sweep and its reads -/

@[simp] theorem execCrossingMiss_answers (t phase s) : Answers s (execCrossingMiss t phase s) := ⟨t, by simp [execCrossingMiss]⟩
@[simp] theorem execMarkAtHiWrite_answers (t p n v s) : Answers s (execMarkAtHiWrite t p n v s) := ⟨t, by simp [execMarkAtHiWrite]⟩
@[simp] theorem execSweepNowRead_answers (t p s) : Answers s (execSweepNowRead t p s) := ⟨t, by simp [execSweepNowRead]⟩
@[simp] theorem execPrecDataRead_answers (t p s) : Answers s (execPrecDataRead t p s) := ⟨t, by simp [execPrecDataRead]⟩

/-! ### What a command answers: obligations and the calendar -/

@[simp] theorem execHwmClr_answers (t p v s) : Answers s (execHwmClr t p v s) := ⟨t, by simp [execHwmClr]⟩
@[simp] theorem execObligationDeadline_answers (t id s) : Answers s (execObligationDeadline t id s) := ⟨t, by
  unfold execObligationDeadline
  dsimp only
  (repeat' split) <;> simp⟩

/-! ### What a command answers: the outputs -/

@[simp] theorem execPulseEnd_answers (t k short s) : Answers s (execPulseEnd t k short s) := ⟨t, by simp [execPulseEnd]⟩
@[simp] theorem execFeedbackWaitExpiry_answers (t k s) : Answers s (execFeedbackWaitExpiry t k s) := ⟨t, by
  unfold execFeedbackWaitExpiry
  dsimp only
  (repeat' split) <;> simp⟩
@[simp] theorem execFeedbackChange_answers (t k level s) : Answers s (execFeedbackChange t k level s) := ⟨t, by simp [execFeedbackChange]⟩
@[simp] theorem execInterlockOn_answers (t p k v s) : Answers s (execInterlockOn t p k v s) := ⟨t, by simp [execInterlockOn]⟩
@[simp] theorem execInterlockOff_answers (t p k v s) : Answers s (execInterlockOff t p k v s) := ⟨t, by simp [execInterlockOff]⟩
@[simp] theorem execReqGo_answers (t p v img s) : Answers s (execReqGo t p v img s) := ⟨t, by simp [execReqGo]⟩
@[simp] theorem execCancel_answers (t p v s) : Answers s (execCancel t p v s) := ⟨t, by simp [execCancel]⟩
@[simp] theorem execRecomputeEnd_answers (t s) : Answers s (execRecomputeEnd t s) := ⟨t, by
  unfold execRecomputeEnd
  exact .ite (by simp) (.testHeld (by simp))⟩

/-! ### What a command answers: routes to the field nodes -/

@[simp] theorem execExchangeMiss_answers (t r s) : Answers s (execExchangeMiss t r s) := ⟨t, by
  unfold execExchangeMiss
  dsimp only
  (repeat' split) <;> simp⟩
@[simp] theorem execRfail_answers (t lane failed s) : Answers s (execRfail t lane failed s) := ⟨t, by
  unfold execRfail
  dsimp only
  (repeat' split) <;> simp⟩

/-! ### What a command answers: the line channel -/

@[simp] theorem execPlanWrite_answers (t p v s) : Answers s (execPlanWrite t p v s) := ⟨t, by simp [execPlanWrite]⟩
@[simp] theorem execDriverTemperature_answers (t phase temp clipLower clipUpper s) : Answers s (execDriverTemperature t phase temp clipLower clipUpper s) :=
    ⟨t, by simp [execDriverTemperature]⟩
@[simp] theorem execPhaseResume_answers (t phase s) : Answers s (execPhaseResume t phase s) := ⟨t, by
  unfold execPhaseResume
  dsimp only
  (repeat' split) <;> simp⟩
@[simp] theorem execExchangeStart_answers (t lane w s) : Answers s (execExchangeStart t lane w s) := ⟨t, by
  unfold execExchangeStart
  dsimp only
  (repeat' split) <;> simp⟩
@[simp] theorem execLineFrameReceived_answers (t lane start rx s) : Answers s (execLineFrameReceived t lane start rx s) := ⟨t, by
  unfold execLineFrameReceived
  dsimp only
  (repeat' split) <;> simp⟩
@[simp] theorem execBeacon_answers (t lane s) : Answers s (execBeacon t lane s) := ⟨t, by
  unfold execBeacon
  dsimp only
  (repeat' split) <;> simp⟩
@[simp] theorem execRepeaterDemote_answers (t node s) : Answers s (execRepeaterDemote t node s) := ⟨t, by simp [execRepeaterDemote]⟩
@[simp] theorem execSearchWindow_answers (t lane s) : Answers s (execSearchWindow t lane s) := ⟨t, by
  unfold execSearchWindow
  dsimp only
  (repeat' split) <;> simp⟩
@[simp] theorem execPilotConfigWrite_answers (t p reg v s) : Answers s (execPilotConfigWrite t p reg v s) := ⟨t, by simp [execPilotConfigWrite]⟩
@[simp] theorem execBeaconConfigWrite_answers (t p reg v s) : Answers s (execBeaconConfigWrite t p reg v s) := ⟨t, by simp [execBeaconConfigWrite]⟩
@[simp] theorem execNodeProvision_answers (t p v s) : Answers s (execNodeProvision t p v s) := ⟨t, by simp [execNodeProvision]⟩
@[simp] theorem execNodeBar_answers (t p v s) : Answers s (execNodeBar t p v s) := ⟨t, by simp [execNodeBar]⟩
@[simp] theorem execNodeRelease_answers (t p v s) : Answers s (execNodeRelease t p v s) := ⟨t, by simp [execNodeRelease]⟩
@[simp] theorem execForceSearch_answers (t p v s) : Answers s (execForceSearch t p v s) := ⟨t, by simp [execForceSearch]⟩

/-! ### What a command answers: the air channel -/

@[simp] theorem execRegionWrite_answers (t p v s) : Answers s (execRegionWrite t p v s) := ⟨t, by simp [execRegionWrite]⟩
@[simp] theorem execChanWrite_answers (t p lane v s) : Answers s (execChanWrite t p lane v s) := ⟨t, by simp [execChanWrite]⟩
@[simp] theorem execHopConfigWrite_answers (t p reg v s) : Answers s (execHopConfigWrite t p reg v s) := ⟨t, by simp [execHopConfigWrite]⟩
@[simp] theorem execHopSlotStart_answers (t s) : Answers s (execHopSlotStart t s) := ⟨t, by simp [execHopSlotStart]⟩
@[simp] theorem execAirBeacon_answers (t lane s) : Answers s (execAirBeacon t lane s) := ⟨t, by
  unfold execAirBeacon
  dsimp only
  (repeat' split) <;> simp⟩
@[simp] theorem execRendezvous_answers (t lane node w s) : Answers s (execRendezvous t lane node w s) := ⟨t, by
  unfold execRendezvous
  dsimp only
  (repeat' split) <;> simp⟩
@[simp] theorem execRejoin_answers (t lane node pan counter micOk off s) : Answers s (execRejoin t lane node pan counter micOk off s) := ⟨t, by
  unfold execRejoin
  dsimp only
  (repeat' split) <;> simp⟩
@[simp] theorem execSeek_answers (t lane source pan s) : Answers s (execSeek t lane source pan s) := ⟨t, by
  unfold execSeek
  dsimp only
  (repeat' split) <;> simp⟩
@[simp] theorem execAirSearchWindow_answers (t lane s) : Answers s (execAirSearchWindow t lane s) := ⟨t, by simp [execAirSearchWindow]⟩
@[simp] theorem execLeaseExpiry_answers (t node s) : Answers s (execLeaseExpiry t node s) := ⟨t, by simp [execLeaseExpiry]⟩
@[simp] theorem execRekeyTimeout_answers (t node s) : Answers s (execRekeyTimeout t node s) := ⟨t, by
  unfold execRekeyTimeout
  dsimp only
  (repeat' split) <;> simp⟩
@[simp] theorem execBudgetBinExpiry_answers (t s) : Answers s (execBudgetBinExpiry t s) := ⟨t, by simp [execBudgetBinExpiry]⟩

/-! ### What a command answers: nodes that join -/

@[simp] theorem execJreq_answers (t j s) : Answers s (execJreq t j s) := ⟨t, by simp [execJreq]⟩
@[simp] theorem execJconf_answers (t node resp nonce s) : Answers s (execJconf t node resp nonce s) := ⟨t, by
  unfold execJconf
  dsimp only
  (repeat' split) <;> simp⟩
@[simp] theorem execJoinTimeout_answers (t node s) : Answers s (execJoinTimeout t node s) := ⟨t, by
  unfold execJoinTimeout
  dsimp only
  (repeat' split) <;> simp⟩

/-! ### What a command answers: field loops -/

@[simp] theorem execLoopSrcEn_answers (t p n v s) : Answers s (execLoopSrcEn t p n v s) := ⟨t, by simp [execLoopSrcEn]⟩
@[simp] theorem execLoopSenseEnd_answers (t n mv s) : Answers s (execLoopSenseEnd t n mv s) := ⟨t, by simp [execLoopSenseEnd]⟩
@[simp] theorem execLoopMeasure_answers (t n mv ma10 kohm s) : Answers s (execLoopMeasure t n mv ma10 kohm s) := ⟨t, by simp [execLoopMeasure]⟩
@[simp] theorem execLoopTripRetry_answers (t n s) : Answers s (execLoopTripRetry t n s) := ⟨t, by simp [execLoopTripRetry]⟩
@[simp] theorem execLoopRestore_answers (t p n v s) : Answers s (execLoopRestore t p n v s) := ⟨t, by simp [execLoopRestore]⟩
@[simp] theorem execLoopDwellEnd_answers (t s) : Answers s (execLoopDwellEnd t s) := ⟨t, by simp [execLoopDwellEnd]⟩
@[simp] theorem execLoopSync_answers (t n s) : Answers s (execLoopSync t n s) := ⟨t, by simp [execLoopSync]⟩
@[simp] theorem execLoopExchangeStart_answers (t n w s) : Answers s (execLoopExchangeStart t n w s) := ⟨t, by
  unfold execLoopExchangeStart
  dsimp only
  (repeat' split) <;> simp⟩
@[simp] theorem execIdent_answers (t n m s) : Answers s (execIdent t n m s) := ⟨t, by simp [execIdent]⟩

/-! ### What a command answers: the lift channel -/

@[simp] theorem execHostIntakeWord_answers (t q index w s) : Answers s (execHostIntakeWord t q index w s) := ⟨t, by
  unfold execHostIntakeWord
  dsimp only
  (repeat' split) <;> simp⟩
@[simp] theorem execPacketOffer_answers (t feed s) : Answers s (execPacketOffer t feed s) := ⟨t, by
  unfold execPacketOffer
  dsimp only
  (repeat' split) <;> simp⟩
@[simp] theorem execPacketResume_answers (t q s) : Answers s (execPacketResume t q s) := ⟨t, by simp [execPacketResume]⟩
@[simp] theorem execWmCauseClear_answers (t p g v s) : Answers s (execWmCauseClear t p g v s) := ⟨t, by simp [execWmCauseClear]⟩
@[simp] theorem execLiftLaneWrite_answers (t p q v s) : Answers s (execLiftLaneWrite t p q v s) := ⟨t, by simp [execLiftLaneWrite]⟩
@[simp] theorem execPeekRead_answers (t p g s) : Answers s (execPeekRead t p g s) := ⟨t, by simp [execPeekRead]⟩
@[simp] theorem execFlush_answers (t p q v s) : Answers s (execFlush t p q v s) := ⟨t, by simp [execFlush]⟩
@[simp] theorem execFlushTimeout_answers (t q s) : Answers s (execFlushTimeout t q s) := ⟨t, by
  unfold execFlushTimeout
  dsimp only
  (repeat' split) <;> simp⟩

/-! ### What a command answers: civil time -/

@[simp] theorem execInstantPin_answers (t id s) : Answers s (execInstantPin t id s) := ⟨t, by
  unfold execInstantPin
  dsimp only
  (repeat' split) <;> simp⟩
@[simp] theorem execSchedShort_answers (t s) : Answers s (execSchedShort t s) := ⟨t, by simp [execSchedShort]⟩

/-! ### What a command answers: flow points -/

@[simp] theorem execLiftWordRead_answers (t q s) : Answers s (execLiftWordRead t q s) := ⟨t, by
  unfold execLiftWordRead
  dsimp only
  (repeat' split) <;> simp⟩
@[simp] theorem execFlowPointWaitExpiry_answers (t ch s) : Answers s (execFlowPointWaitExpiry t ch s) := ⟨t, by simp [execFlowPointWaitExpiry]⟩

/-! ### What a command answers: the flow channels -/

@[simp] theorem execLaneModeWrite_answers (t p lane v s) : Answers s (execLaneModeWrite t p lane v s) := ⟨t, by simp [execLaneModeWrite]⟩
@[simp] theorem execFcaLaneLost_answers (t lane s) : Answers s (execFcaLaneLost t lane s) := ⟨t, by simp [execFcaLaneLost]⟩
@[simp] theorem execDescCommit_answers (t p v s) : Answers s (execDescCommit t p v s) := ⟨t, by simp [execDescCommit]⟩
@[simp] theorem execDescRead_answers (t p v s) : Answers s (execDescRead t p v s) := ⟨t, by simp [execDescRead]⟩
@[simp] theorem execDescRetire_answers (t p v s) : Answers s (execDescRetire t p v s) := ⟨t, by simp [execDescRetire]⟩
@[simp] theorem execPbSlotCommit_answers (t p v s) : Answers s (execPbSlotCommit t p v s) := ⟨t, by simp [execPbSlotCommit]⟩
@[simp] theorem execTkAck_answers (t p lane v s) : Answers s (execTkAck t p lane v s) := ⟨t, by simp [execTkAck]⟩
@[simp] theorem execResultRead_answers (t p lane place s) : Answers s (execResultRead t p lane place s) := ⟨t, by
  unfold execResultRead
  dsimp only
  split <;> simp⟩
@[simp] theorem execClosePush_answers (t p lane v s) : Answers s (execClosePush t p lane v s) := ⟨t, by simp [execClosePush]⟩
@[simp] theorem execCloseEnd_answers (t p lane v s) : Answers s (execCloseEnd t p lane v s) := ⟨t, by simp [execCloseEnd]⟩

/-! ### What a command answers: the balance -/

@[simp] theorem execGraphCommit_answers (t p img s) : Answers s (execGraphCommit t p img s) := ⟨t, by simp [execGraphCommit]⟩
@[simp] theorem execGraphDrop_answers (t p s) : Answers s (execGraphDrop t p s) := ⟨t, by simp [execGraphDrop]⟩
@[simp] theorem execZoneParamCommit_answers (t p v s) : Answers s (execZoneParamCommit t p v s) := ⟨t, by simp [execZoneParamCommit]⟩
@[simp] theorem execBalanceParamCommit_answers (t p which v s) : Answers s (execBalanceParamCommit t p which v s) :=
    ⟨t, by simp [execBalanceParamCommit]⟩
@[simp] theorem execZoneRestart_answers (t p v s) : Answers s (execZoneRestart t p v s) := ⟨t, by simp [execZoneRestart]⟩
@[simp] theorem execWindowEvaluate_answers (t zone s) : Answers s (execWindowEvaluate t zone s) := ⟨t, by simp [execWindowEvaluate]⟩

/-! ### What a command answers: tariffs and accounts -/

@[simp] theorem execChannelTableWrite_answers (t p s) : Answers s (execChannelTableWrite t p s) := ⟨t, by simp [execChannelTableWrite]⟩
@[simp] theorem execChannelTableRead_answers (t p s) : Answers s (execChannelTableRead t p s) := ⟨t, by simp [execChannelTableRead]⟩
@[simp] theorem execChannelTableInvalidate_answers (t p s) : Answers s (execChannelTableInvalidate t p s) := ⟨t, by simp [execChannelTableInvalidate]⟩
@[simp] theorem execIntervalClose_answers (t s) : Answers s (execIntervalClose t s) := ⟨t, by
  unfold execIntervalClose
  dsimp only
  (repeat' split) <;> simp⟩
@[simp] theorem execProgramCommit_answers (t p img s) : Answers s (execProgramCommit t p img s) := ⟨t, by simp [execProgramCommit]⟩
@[simp] theorem execProgramWithdraw_answers (t p v s) : Answers s (execProgramWithdraw t p v s) := ⟨t, by simp [execProgramWithdraw]⟩
@[simp] theorem execPeriodCloseCmd_answers (t p v s) : Answers s (execPeriodCloseCmd t p v s) := ⟨t, by simp [execPeriodCloseCmd]⟩
@[simp] theorem execBoundaryPrebuild_answers (t prog s) : Answers s (execBoundaryPrebuild t prog s) := ⟨t, by
  unfold execBoundaryPrebuild
  dsimp only
  (repeat' split) <;> simp⟩
@[simp] theorem execBoundaryProcess_answers (t s) : Answers s (execBoundaryProcess t s) := ⟨t, by
  unfold execBoundaryProcess
  dsimp only
  (repeat' split) <;> simp⟩
@[simp] theorem execBoundaryReservation_answers (t s) : Answers s (execBoundaryReservation t s) := ⟨t, by
  unfold execBoundaryReservation
  dsimp only
  (repeat' split) <;> simp⟩

/-! ### What a command answers: credit -/

@[simp] theorem execPriceCommit_answers (t p v s) : Answers s (execPriceCommit t p v s) := ⟨t, by simp [execPriceCommit]⟩
@[simp] theorem execTopup_answers (t p v s) : Answers s (execTopup t p v s) := ⟨t, by simp [execTopup]⟩
@[simp] theorem execAccountLimitCommit_answers (t p limit v s) : Answers s (execAccountLimitCommit t p limit v s) :=
    ⟨t, by simp [execAccountLimitCommit]⟩
@[simp] theorem execMemberCommit_answers (t p v s) : Answers s (execMemberCommit t p v s) := ⟨t, by simp [execMemberCommit]⟩

/-! ### What a command answers: the ledger -/

@[simp] theorem execGroupClose_answers (t s) : Answers s (execGroupClose t s) := ⟨t, by
  unfold execGroupClose
  dsimp only
  (repeat' split) <;> simp⟩
@[simp] theorem execLedgSync_answers (t p v s) : Answers s (execLedgSync t p v s) := ⟨t, by simp [execLedgSync]⟩
@[simp] theorem execStripeProgrammed_answers (t s) : Answers s (execStripeProgrammed t s) := ⟨t, by
  unfold execStripeProgrammed
  dsimp only
  (repeat' split) <;> simp⟩
@[simp] theorem execArchiveCommit_answers (t p v s) : Answers s (execArchiveCommit t p v s) := ⟨t, by simp [execArchiveCommit]⟩
@[simp] theorem execLedgerRead_answers (t p v reads s) : Answers s (execLedgerRead t p v reads s) := ⟨t, by simp [execLedgerRead]⟩
@[simp] theorem execGcStep_answers (t reads s) : Answers s (execGcStep t reads s) := ⟨t, by
  unfold execGcStep
  dsimp only
  (repeat' split) <;> simp⟩
@[simp] theorem execRebuildStep_answers (t reads s) : Answers s (execRebuildStep t reads s) := ⟨t, by
  unfold execRebuildStep
  dsimp only
  (repeat' split) <;> simp⟩
@[simp] theorem execEraseComplete_answers (t sb s) : Answers s (execEraseComplete t sb s) := ⟨t, by simp [execEraseComplete]⟩
@[simp] theorem execEraseFail_answers (t sb die dead s) : Answers s (execEraseFail t sb die dead s) := ⟨t, by simp [execEraseFail]⟩
@[simp] theorem execProgramFail_answers (t die gc dead s) : Answers s (execProgramFail t die gc dead s) := ⟨t, by
  unfold execProgramFail
  dsimp only
  (repeat' split) <;> simp⟩
@[simp] theorem execGroomStep_answers (t r s) : Answers s (execGroomStep t r s) := ⟨t, by
  unfold execGroomStep
  dsimp only
  (repeat' split) <;> simp⟩
@[simp] theorem execGroomLate_answers (t s) : Answers s (execGroomLate t s) := ⟨t, by simp [execGroomLate]⟩

/-! ### What a command answers: accepted records and grooming -/

@[simp] theorem execCoverWaitExpiry_answers (t s) : Answers s (execCoverWaitExpiry t s) := ⟨t, by simp [execCoverWaitExpiry]⟩

/-! ### What a command answers: received frames -/

@[simp] theorem execDataResponse_answers (t r node seq records scheds s) : Answers s (execDataResponse t r node seq records scheds s) := ⟨t, by
  unfold execDataResponse
  dsimp only
  (repeat' split) <;> simp⟩
@[simp] theorem execCackResponse_answers (t r node seq records s) : Answers s (execCackResponse t r node seq records s) := ⟨t, by
  unfold execCackResponse
  dsimp only
  (repeat' split) <;> simp⟩
@[simp] theorem execAirFrameReceived_answers (t lane rx s) : Answers s (execAirFrameReceived t lane rx s) := ⟨t, by
  unfold execAirFrameReceived
  dsimp only
  refine Stored.answersAt (.ite ⟨rfl, rfl, rfl, rfl⟩ (.ite (by simp [Stored]) (.ite (by simp [Stored]) ?_)))
  generalize hw : ((s.tick t).pushLevel (8 + lane.val) (Reg.AIR_RSSI lane.val) rx.rssi).sample (6 + lane.val) rx.rssi = w
  have h : Stored (s.tick t) w := by simp [← hw, Stored]
  (repeat' refine Stored.ite ?_ ?_) <;> (repeat' split) <;> simp [Stored, h]⟩
@[simp] theorem execLoopFrameReceived_answers (t n octets check s) : Answers s (execLoopFrameReceived t n octets check s) := ⟨t, by
  unfold execLoopFrameReceived
  dsimp only
  (repeat' split) <;> simp⟩
@[simp] theorem execIdrsp_answers (t n m serial range latency resp scheds s) : Answers s (execIdrsp t n m serial range latency resp scheds s) :=
    ⟨t, by
  unfold execIdrsp
  dsimp only
  (repeat' split) <;> simp⟩

/-! ### What a command answers: the life cycle -/

@[simp] theorem execLcSubmit_answers (t p img s) : Answers s (execLcSubmit t p img s) := ⟨t, by simp [execLcSubmit]⟩
@[simp] theorem execLcProvision_answers (t p img s) : Answers s (execLcProvision t p img s) := ⟨t, by simp [execLcProvision]⟩
@[simp] theorem execKeyGenerate_answers (t p cut s) : Answers s (execKeyGenerate t p cut s) := ⟨t, by simp [execKeyGenerate]⟩
@[simp] theorem execKeyImport_answers (t p img cut s) : Answers s (execKeyImport t p img cut s) := ⟨t, by simp [execKeyImport]⟩
@[simp] theorem execKeyImportKem_answers (t p img cut s) : Answers s (execKeyImportKem t p img cut s) := ⟨t, by simp [execKeyImportKem]⟩
@[simp] theorem execKeyDerive_answers (t p img cut s) : Answers s (execKeyDerive t p img cut s) := ⟨t, by simp [execKeyDerive]⟩
@[simp] theorem execKeyZeroize_answers (t p cut s) : Answers s (execKeyZeroize t p cut s) := ⟨t, by simp [execKeyZeroize]⟩
@[simp] theorem execPubRead_answers (t p s) : Answers s (execPubRead t p s) := ⟨t, by simp [execPubRead]⟩
@[simp] theorem execReservationWritten_answers (t key acked s) : Answers s (execReservationWritten t key acked s) :=
    ⟨t, by simp [execReservationWritten]⟩

/-! ### What a command answers: keys and jobs -/

@[simp] theorem execJobSubmit_answers (t p e v imgs s) : Answers s (execJobSubmit t p e v imgs s) := ⟨t, by simp [execJobSubmit]⟩
@[simp] theorem execJrAck_answers (t p e v s) : Answers s (execJrAck t p e v s) := ⟨t, by simp [execJrAck]⟩
@[simp] theorem execJobComplete_answers (t e iters fault s) : Answers s (execJobComplete t e iters fault s) := ⟨t, by
  unfold execJobComplete
  dsimp only
  (repeat' split) <;> simp⟩
@[simp] theorem execJobSegmentEnd_answers (t e s) : Answers s (execJobSegmentEnd t e s) := ⟨t, by simp [execJobSegmentEnd]⟩
@[simp] theorem execRngFail_answers (t s) : Answers s (execRngFail t s) := ⟨t, by simp [execRngFail]⟩
@[simp] theorem execRngTimeout_answers (t s) : Answers s (execRngTimeout t s) := ⟨t, by
  unfold execRngTimeout
  dsimp only
  (repeat' split) <;> simp⟩
@[simp] theorem execRngRecovery_answers (t s) : Answers s (execRngRecovery t s) := ⟨t, by simp [execRngRecovery]⟩
@[simp] theorem execCryptoAlarm_answers (t sensors s) : Answers s (execCryptoAlarm t sensors s) := ⟨t, by
  unfold execCryptoAlarm
  dsimp only
  (repeat' split) <;> simp⟩
@[simp] theorem execAlarmClear_answers (t s) : Answers s (execAlarmClear t s) := ⟨t, by
  unfold execAlarmClear
  dsimp only
  (repeat' split) <;> simp⟩

/-! ### What a command answers: segments and proofs -/

@[simp] theorem execBatchClose_answers (t s) : Answers s (execBatchClose t s) := ⟨t, by simp [execBatchClose]⟩
@[simp] theorem execBatchSigned_answers (t ok iters s) : Answers s (execBatchSigned t ok iters s) := ⟨t, by
  unfold execBatchSigned
  dsimp only
  (repeat' split) <;> simp⟩
@[simp] theorem execProof_answers (t p v s) : Answers s (execProof t p v s) := ⟨t, by simp [execProof]⟩

/-! ### What a command answers: updates -/

@[simp] theorem execUpdStage_answers (t p s) : Answers s (execUpdStage t p s) := ⟨t, by simp [execUpdStage]⟩
@[simp] theorem execUpdChunk_answers (t p img s) : Answers s (execUpdChunk t p img s) := ⟨t, by simp [execUpdChunk]⟩
@[simp] theorem execUpdEnd_answers (t p s) : Answers s (execUpdEnd t p s) := ⟨t, by simp [execUpdEnd]⟩
@[simp] theorem execUpdActivate_answers (t p s) : Answers s (execUpdActivate t p s) := ⟨t, by simp [execUpdActivate]⟩
@[simp] theorem execUpdConfirm_answers (t p s) : Answers s (execUpdConfirm t p s) := ⟨t, by simp [execUpdConfirm]⟩
@[simp] theorem execUpdRollback_answers (t p s) : Answers s (execUpdRollback t p s) := ⟨t, by simp [execUpdRollback]⟩
@[simp] theorem execUpdDiscard_answers (t p s) : Answers s (execUpdDiscard t p s) := ⟨t, by simp [execUpdDiscard]⟩
@[simp] theorem execDownloadEnd_answers (t crc timeouts s) : Answers s (execDownloadEnd t crc timeouts s) := ⟨t, by simp [execDownloadEnd]⟩
@[simp] theorem execVerifyComplete_answers (t s) : Answers s (execVerifyComplete t s) := ⟨t, by simp [execVerifyComplete]⟩
@[simp] theorem execHandoverReady_answers (t s) : Answers s (execHandoverReady t s) := ⟨t, by
  unfold execHandoverReady
  dsimp only
  (repeat' split) <;> simp⟩
@[simp] theorem execHandoverSwitch_answers (t s) : Answers s (execHandoverSwitch t s) := ⟨t, by
  unfold execHandoverSwitch
  dsimp only
  (repeat' split) <;> simp⟩
@[simp] theorem execHandoverAbort_answers (t s) : Answers s (execHandoverAbort t s) := ⟨t, by
  unfold execHandoverAbort
  dsimp only
  (repeat' split) <;> simp⟩
@[simp] theorem execTrialExpiry_answers (t s) : Answers s (execTrialExpiry t s) := ⟨t, by
  unfold execTrialExpiry
  dsimp only
  (repeat' split) <;> simp⟩
@[simp] theorem execCardChange_answers (t card s) : Answers s (execCardChange t card s) := ⟨t, by simp [execCardChange]⟩
@[simp] theorem execCardRescan_answers (t p v card s) : Answers s (execCardRescan t p v card s) := ⟨t, by simp [execCardRescan]⟩
@[simp] theorem execCardError_answers (t init crc timeouts s) : Answers s (execCardError t init crc timeouts s) := ⟨t, by simp [execCardError]⟩
@[simp] theorem execGroupJoin_answers (t p v s) : Answers s (execGroupJoin t p v s) := ⟨t, by simp [execGroupJoin]⟩
@[simp] theorem execBulkSegment_answers (t r id s) : Answers s (execBulkSegment t r id s) := ⟨t, by
  unfold execBulkSegment
  dsimp only
  (repeat' split) <;> simp⟩

/-! ### What a command answers: the pair -/

@[simp] theorem execPilotWindow_answers (t rx s) : Answers s (execPilotWindow t rx s) := ⟨t, by simp [execPilotWindow]⟩
@[simp] theorem execHeartbeatSend_answers (t s) : Answers s (execHeartbeatSend t s) := ⟨t, by simp [execHeartbeatSend]⟩
@[simp] theorem execHeartbeatReceived_answers (t h s) : Answers s (execHeartbeatReceived t h s) := ⟨t, by simp [execHeartbeatReceived]⟩
@[simp] theorem execTakebackRequest_answers (t s) : Answers s (execTakebackRequest t s) := ⟨t, by simp [execTakebackRequest]⟩
@[simp] theorem execTakebackStop_answers (t s) : Answers s (execTakebackStop t s) := ⟨t, by
  unfold execTakebackStop
  dsimp only
  (repeat' split) <;> simp⟩
@[simp] theorem execTakebackSwitch_answers (t s) : Answers s (execTakebackSwitch t s) := ⟨t, by
  unfold execTakebackSwitch
  dsimp only
  (repeat' split) <;> simp⟩
@[simp] theorem execSwitchoverGapEnd_answers (t s) : Answers s (execSwitchoverGapEnd t s) := ⟨t, by
  unfold execSwitchoverGapEnd
  dsimp only
  (repeat' split) <;> simp⟩
@[simp] theorem execFenceInput_answers (t drives s) : Answers s (execFenceInput t drives s) := ⟨t, by simp [execFenceInput]⟩
@[simp] theorem execSupervisorRelease_answers (t s) : Answers s (execSupervisorRelease t s) := ⟨t, by simp [execSupervisorRelease]⟩
@[simp] theorem execPairsPair_answers (t p s) : Answers s (execPairsPair t p s) := ⟨t, by simp [execPairsPair]⟩
@[simp] theorem execPairsUnpair_answers (t p s) : Answers s (execPairsUnpair t p s) := ⟨t, by simp [execPairsUnpair]⟩
@[simp] theorem execPairsSwitch_answers (t p s) : Answers s (execPairsSwitch t p s) := ⟨t, by simp [execPairsSwitch]⟩
@[simp] theorem execPairsYield_answers (t p s) : Answers s (execPairsYield t p s) := ⟨t, by simp [execPairsYield]⟩
@[simp] theorem execPairsForce_answers (t p s) : Answers s (execPairsForce t p s) := ⟨t, by simp [execPairsForce]⟩
@[simp] theorem execSyncComplete_answers (t s) : Answers s (execSyncComplete t s) := ⟨t, by simp [execSyncComplete]⟩
@[simp] theorem execMirrorItem_answers (t m s) : Answers s (execMirrorItem t m s) := ⟨t, by simp [execMirrorItem]⟩
@[simp] theorem execMirrorAck_answers (t rsn s) : Answers s (execMirrorAck t rsn s) := ⟨t, by simp [execMirrorAck]⟩
@[simp] theorem execMirrorAckTimeout_answers (t s) : Answers s (execMirrorAckTimeout t s) := ⟨t, by simp [execMirrorAckTimeout]⟩

/-! ### What a command answers: feeder messages -/

@[simp] theorem execHandshakeStart_answers (t peer s) : Answers s (execHandshakeStart t peer s) := ⟨t, by
  unfold execHandshakeStart
  dsimp only
  (repeat' split) <;> simp⟩
@[simp] theorem execHelloI_answers (t msg s) : Answers s (execHelloI t msg s) := ⟨t, by
  unfold execHelloI
  dsimp only
  (repeat' split) <;> simp⟩
@[simp] theorem execHelloR_answers (t sid msg s) : Answers s (execHelloR t sid msg s) := ⟨t, by
  unfold execHelloR
  dsimp only
  (repeat' split) <;> simp⟩
@[simp] theorem execFinI_answers (t sid sig s) : Answers s (execFinI t sid sig s) := ⟨t, by
  unfold execFinI
  dsimp only
  (repeat' split) <;> simp⟩
@[simp] theorem execRefuse_answers (t sid _reason s) : Answers s (execRefuse t sid _reason s) := ⟨t, by
  unfold execRefuse
  dsimp only
  (repeat' split) <;> simp⟩
@[simp] theorem execKfpAck_answers (t r s) : Answers s (execKfpAck t r s) := ⟨t, by
  unfold execKfpAck
  dsimp only
  split
  · exact (State.kfpAccept_done ‹_› (by simp [Kept])).stored.answersAt
  · refine ((State.kfpAccept_fresh ‹_› (by simp [Kept])).trans ?_).stored.answersAt
    (repeat' split) <;> simp [Kept]⟩
@[simp] theorem execPing_answers (t r s) : Answers s (execPing t r s) :=
  ⟨t, (State.kfpTake_kept _ _ _ _ (fun _ _ _ => by simp [Kept])).stored.answersAt⟩
@[simp] theorem execKfpClose_answers (t r s) : Answers s (execKfpClose t r s) := ⟨t, by
  unfold execKfpClose
  dsimp only
  split
  · exact (State.kfpAccept_done ‹_› (by simp [Kept])).stored.answersAt
  · exact ((State.kfpAccept_fresh ‹_› (by simp [Kept])).trans (by simp [Kept])).stored.answersAt⟩
@[simp] theorem execStale_answers (t r s) : Answers s (execStale t r s) := ⟨t, by
  unfold execStale
  dsimp only
  split
  · exact (State.kfpAccept_done ‹_› (by simp [Kept])).stored.answersAt
  · exact ((State.kfpAccept_fresh ‹_› (by simp [Kept])).trans (by simp [Kept])).stored.answersAt⟩
@[simp] theorem execFwd_answers (t r s) : Answers s (execFwd t r s) := ⟨t, by
  unfold execFwd
  dsimp only
  split
  · exact (State.kfpAccept_done ‹_› (by simp [Kept])).stored.answersAt
  · refine ((State.kfpAccept_fresh ‹_› (by simp [Kept])).trans ?_).stored.answersAt
    split
    · exact (State.assemble_kept_of_eq ‹_›).trans (by simp [Kept])
    · refine (State.assemble_kept_of_eq ‹_›).trans ?_
      simp [Kept]⟩
@[simp] theorem execPer_answers (t r s) : Answers s (execPer t r s) :=
  ⟨t, (State.kfpTake_kept _ _ _ _ (fun _ _ _ => by simp [Kept])).stored.answersAt⟩
@[simp] theorem execSeg_answers (t r s) : Answers s (execSeg t r s) :=
  ⟨t, (State.kfpTake_kept _ _ _ _ (fun _ _ _ => by simp [Kept])).stored.answersAt⟩
@[simp] theorem execRegrsp_answers (t r s) : Answers s (execRegrsp t r s) :=
  ⟨t, (State.kfpTake_kept _ _ _ _ (fun _ _ _ => by simp [Kept])).stored.answersAt⟩
@[simp] theorem execEvt_answers (t r s) : Answers s (execEvt t r s) :=
  ⟨t, (State.kfpTake_kept _ _ _ _ (fun _ _ _ => by simp [Kept])).stored.answersAt⟩
@[simp] theorem execKfpRetransmit_answers (t sid seq s) : Answers s (execKfpRetransmit t sid seq s) := ⟨t, by
  unfold execKfpRetransmit
  dsimp only
  (repeat' split) <;> simp⟩
@[simp] theorem execSessionDead_answers (t sid s) : Answers s (execSessionDead t sid s) := ⟨t, by
  unfold execSessionDead
  dsimp only
  (repeat' split) <;> simp⟩
@[simp] theorem execKeepalive_answers (t sid s) : Answers s (execKeepalive t sid s) := ⟨t, by
  unfold execKeepalive
  dsimp only
  (repeat' split) <;> simp⟩
@[simp] theorem execOldSessionClose_answers (t sid s) : Answers s (execOldSessionClose t sid s) := ⟨t, by
  unfold execOldSessionClose
  dsimp only
  (repeat' split) <;> simp⟩
@[simp] theorem execForwardSend_answers (t sid s) : Answers s (execForwardSend t sid s) := ⟨t, by
  unfold execForwardSend
  dsimp only
  (repeat' split) <;> simp⟩
@[simp] theorem execPeerEntryWrite_answers (t p v s) : Answers s (execPeerEntryWrite t p v s) := ⟨t, by simp [execPeerEntryWrite]⟩

/-! ### What a command answers: the feeder network -/

@[simp] theorem execEthFrameReceived_answers (t port bad frame mac s) : Answers s (execEthFrameReceived t port bad frame mac s) := ⟨t, by
  unfold execEthFrameReceived
  dsimp only
  (repeat' split) <;> simp⟩
@[simp] theorem execHostTx_answers (t p v slots stamps s) : Answers s (execHostTx t p v slots stamps s) := ⟨t, by simp [execHostTx]⟩
@[simp] theorem execEthLinkChange_answers (t port speed s) : Answers s (execEthLinkChange t port speed s) := ⟨t, by simp [execEthLinkChange]⟩
@[simp] theorem execTsqPop_answers (t p v s) : Answers s (execTsqPop t p v s) := ⟨t, by simp [execTsqPop]⟩
@[simp] theorem execPtpMessage_answers (t m s) : Answers s (execPtpMessage t m s) := ⟨t, by
  unfold execPtpMessage
  dsimp only
  (repeat' split) <;> simp⟩
@[simp] theorem execPtpAnnounceTimeout_answers (t s) : Answers s (execPtpAnnounceTimeout t s) := ⟨t, by simp [execPtpAnnounceTimeout]⟩
@[simp] theorem execTriggerArm_answers (t p n v s) : Answers s (execTriggerArm t p n v s) := ⟨t, by simp [execTriggerArm]⟩
@[simp] theorem execTriggerFire_answers (t n s) : Answers s (execTriggerFire t n s) := ⟨t, by
  unfold execTriggerFire
  dsimp only
  (repeat' split) <;> simp⟩
@[simp] theorem execCaptureEvent_answers (t src falling cap s) : Answers s (execCaptureEvent t src falling cap s) := ⟨t, by simp [execCaptureEvent]⟩
@[simp] theorem execMarkFired_answers (t n s) : Answers s (execMarkFired t n s) := ⟨t, by simp [execMarkFired]⟩
@[simp] theorem execZcommit_answers (t p v s) : Answers s (execZcommit t p v s) := ⟨t, by simp [execZcommit]⟩
@[simp] theorem execReportPost_answers (t id s) : Answers s (execReportPost t id s) := ⟨t, by
  unfold execReportPost
  dsimp only
  (repeat' split) <;> simp⟩
@[simp] theorem execReportRingAdvance_answers (t p v s) : Answers s (execReportRingAdvance t p v s) := ⟨t, by simp [execReportRingAdvance]⟩
@[simp] theorem execEndpointReset_answers (t s) : Answers s (execEndpointReset t s) := ⟨t, by simp [execEndpointReset]⟩
@[simp] theorem execPcieLinkUp_answers (t gen width s) : Answers s (execPcieLinkUp t gen width s) := ⟨t, by simp [execPcieLinkUp]⟩
@[simp] theorem execSvcUnlock_answers (t p v s) : Answers s (execSvcUnlock t p v s) := ⟨t, by simp [execSvcUnlock]⟩
@[simp] theorem execSvcUnlockExpiry_answers (t s) : Answers s (execSvcUnlockExpiry t s) := ⟨t, by simp [execSvcUnlockExpiry]⟩

/-! ### What a command answers: supply and power states -/

@[simp] theorem execSupplyMeasure_answers (t v vin1 vin2 s) : Answers s (execSupplyMeasure t v vin1 vin2 s) := ⟨t, by simp [execSupplyMeasure]⟩
@[simp] theorem execSupplyPhaseMove_answers (t s) : Answers s (execSupplyPhaseMove t s) := ⟨t, by simp [execSupplyPhaseMove]⟩
@[simp] theorem execDomainOff_answers (t p s) : Answers s (execDomainOff t p s) := ⟨t, by simp [execDomainOff]⟩
@[simp] theorem execDomainOn_answers (t p s) : Answers s (execDomainOn t p s) := ⟨t, by simp [execDomainOn]⟩
@[simp] theorem execDomainDoze_answers (t d refusers abort s) : Answers s (execDomainDoze t d refusers abort s) := ⟨t, by
  unfold execDomainDoze
  dsimp only
  (repeat' split) <;> simp⟩
@[simp] theorem execDomainRetain_answers (t d refusers abort s) : Answers s (execDomainRetain t d refusers abort s) := ⟨t, by
  unfold execDomainRetain
  dsimp only
  (repeat' split) <;> simp⟩
@[simp] theorem execPreWake_answers (t d s) : Answers s (execPreWake t d s) := ⟨t, by
  unfold execPreWake
  dsimp only
  (repeat' split) <;> simp⟩
@[simp] theorem execWakeSource_answers (t src lane frame s) : Answers s (execWakeSource t src lane frame s) := ⟨t, by
  unfold execWakeSource
  dsimp only
  (repeat' split) <;> simp⟩
@[simp] theorem execWakeAccessTimeout_answers (t p page off write s) : Answers s (execWakeAccessTimeout t p page off write s) := ⟨t, by
  unfold execWakeAccessTimeout
  dsimp only
  (repeat' split) <;> simp⟩
@[simp] theorem execWakeFail_answers (t d s) : Answers s (execWakeFail t d s) := ⟨t, by
  unfold execWakeFail
  dsimp only
  (repeat' split) <;> simp⟩
@[simp] theorem execClockFail_answers (t cd s) : Answers s (execClockFail t cd s) := ⟨t, by
  unfold execClockFail
  dsimp only
  (repeat' split) <;> simp⟩
@[simp] theorem execThermalLevel_answers (t base die bank s) : Answers s (execThermalLevel t base die bank s) := ⟨t, by simp [execThermalLevel]⟩
@[simp] theorem execPwrFailWarn_answers (t cause s) : Answers s (execPwrFailWarn t cause s) := ⟨t, by
  unfold execPwrFailWarn
  exact .either (by simp) (.answerWarning (by simp))⟩
@[simp] theorem execVigilEntry_answers (t s) : Answers s (execVigilEntry t s) := ⟨t, by simp [execVigilEntry]⟩

/-! ### What a command answers: tamper inputs -/

@[simp] theorem execTamperInput_answers (t input opened vigil s) : Answers s (execTamperInput t input opened vigil s) :=
    ⟨t, by simp [execTamperInput]⟩
@[simp] theorem execTamperLatchClear_answers (t p v vigil s) : Answers s (execTamperLatchClear t p v vigil s) := ⟨t, by simp [execTamperLatchClear]⟩
@[simp] theorem execTamperLogClear_answers (t p v vigil s) : Answers s (execTamperLogClear t p v vigil s) := ⟨t, by simp [execTamperLogClear]⟩

/-! ### What a command answers: the Logbook -/

@[simp] theorem execInstrumentConfig_answers (t p v s) : Answers s (execInstrumentConfig t p v s) := ⟨t, by simp [execInstrumentConfig]⟩
@[simp] theorem execInstrumentClearBins_answers (t p s) : Answers s (execInstrumentClearBins t p s) := ⟨t, by simp [execInstrumentClearBins]⟩
@[simp] theorem execInstrumentClearExtremes_answers (t p s) : Answers s (execInstrumentClearExtremes t p s) :=
    ⟨t, by simp [execInstrumentClearExtremes]⟩
@[simp] theorem execInstrumentClearBoth_answers (t p s) : Answers s (execInstrumentClearBoth t p s) := ⟨t, by simp [execInstrumentClearBoth]⟩
@[simp] theorem execLogbookFreeze_answers (t p s) : Answers s (execLogbookFreeze t p s) := ⟨t, by simp [execLogbookFreeze]⟩
@[simp] theorem execLogbookThaw_answers (t p s) : Answers s (execLogbookThaw t p s) := ⟨t, by simp [execLogbookThaw]⟩
@[simp] theorem execFreezeTimeout_answers (t s) : Answers s (execFreezeTimeout t s) := ⟨t, by simp [execFreezeTimeout]⟩
@[simp] theorem execCursorRead_answers (t p s) : Answers s (execCursorRead t p s) := ⟨t, by simp [execCursorRead]⟩
@[simp] theorem execHostSample_answers (t p v s) : Answers s (execHostSample t p v s) := ⟨t, by simp [execHostSample]⟩
@[simp] theorem execHostNote_answers (t p v s) : Answers s (execHostNote t p v s) := ⟨t, by simp [execHostNote]⟩
@[simp] theorem execClrAll_answers (t p v s) : Answers s (execClrAll t p v s) := ⟨t, by simp [execClrAll]⟩

/-! ### What a command answers: resets and the start-up -/

@[simp] theorem execSysReset_answers (t p v s) : Answers s (execSysReset t p v s) := ⟨t, by simp [execSysReset]⟩
@[simp] theorem execWatchdogReset_answers (t s) : Answers s (execWatchdogReset t s) := ⟨t, by simp [execWatchdogReset]⟩
@[simp] theorem execResetPin_answers (t s) : Answers s (execResetPin t s) := ⟨t, by simp [execResetPin]⟩
@[simp] theorem execMainsOn_answers (t vigilLost l1 s) : Answers s (execMainsOn t vigilLost l1 s) := ⟨t, by simp [execMainsOn]⟩
@[simp] theorem execSupplyReturn_answers (t s) : Answers s (execSupplyReturn t s) := ⟨t, by simp [execSupplyReturn]⟩
@[simp] theorem execThermalHoldEnd_answers (t base s) : Answers s (execThermalHoldEnd t base s) := ⟨t, by simp [execThermalHoldEnd]⟩
@[simp] theorem execBlockReset_answers (t p page s) : Answers s (execBlockReset t p page s) := ⟨t, by simp [execBlockReset]⟩
@[simp] theorem execPairingTimeout_answers (t s) : Answers s (execPairingTimeout t s) := ⟨t, by simp [execPairingTimeout]⟩

/-! ### What a command answers: commits and checkpoints -/

@[simp] theorem execCommitComplete_answers (t supplied s) : Answers s (execCommitComplete t supplied s) := ⟨t, by
  unfold execCommitComplete
  dsimp only
  (repeat' split) <;> simp⟩
@[simp] theorem execCheckpoint_answers (t s) : Answers s (execCheckpoint t s) := ⟨t, by simp [execCheckpoint]⟩
@[simp] theorem execDramError_answers (t e s) : Answers s (execDramError t e s) := ⟨t, by
  unfold execDramError
  dsimp only
  (repeat' split) <;> simp⟩

/-! ### What a command answers: self-test -/

@[simp] theorem execBistSlice_answers (t blk sig finish s) : Answers s (execBistSlice t blk sig finish s) := ⟨t, by
  unfold execBistSlice
  dsimp only
  (repeat' split) <;> simp⟩
@[simp] theorem execBistPassLate_answers (t blk s) : Answers s (execBistPassLate t blk s) := ⟨t, by simp [execBistPassLate]⟩
@[simp] theorem execScanRequest_answers (t p v s) : Answers s (execScanRequest t p v s) := ⟨t, by simp [execScanRequest]⟩

/-! ### What a command answers: reads -/

@[simp] theorem execLatchingRead_answers (t p page off whole s) : Answers s (execLatchingRead t p page off whole s) := ⟨t, by simp [execLatchingRead]⟩

/-! ### What a command answers: the host bus -/

@[simp] theorem execRoleNextWrite_answers (t p v s) : Answers s (execRoleNextWrite t p v s) := ⟨t, by simp [execRoleNextWrite]⟩
@[simp] theorem execIfselWrite_answers (t p page v s) : Answers s (execIfselWrite t p page v s) := ⟨t, by simp [execIfselWrite]⟩
@[simp] theorem execEvRawWrite_answers (t p page v s) : Answers s (execEvRawWrite t p page v s) := ⟨t, by simp [execEvRawWrite]⟩
@[simp] theorem execEvPendClear_answers (t p page v s) : Answers s (execEvPendClear t p page v s) := ⟨t, by simp [execEvPendClear]⟩
@[simp] theorem execEvEnSet_answers (t p page v s) : Answers s (execEvEnSet t p page v s) := ⟨t, by simp [execEvEnSet]⟩
@[simp] theorem execEvEnClr_answers (t p page v s) : Answers s (execEvEnClr t p page v s) := ⟨t, by simp [execEvEnClr]⟩
@[simp] theorem execResend_answers (t p hi v s) : Answers s (execResend t p hi v s) := ⟨t, by simp [execResend]⟩
@[simp] theorem execErrcapClear_answers (t p page v s) : Answers s (execErrcapClear t p page v s) := ⟨t, by simp [execErrcapClear]⟩
@[simp] theorem execCounterClear_answers (t p page q v s) : Answers s (execCounterClear t p page q v s) := ⟨t, by
  unfold execCounterClear
  dsimp only
  (repeat' split) <;> simp⟩
@[simp] theorem execRegisterWrite_answers (t p page off whole v s) : Answers s (execRegisterWrite t p page off whole v s) :=
    ⟨t, by simp [execRegisterWrite]⟩
@[simp] theorem execReg_answers (t r s) : Answers s (execReg t r s) := ⟨t, by
  unfold execReg
  split
  · exact (State.kfpAccept_done ‹_› (by simp [Kept])).stored.answersAt
  · have fresh := State.kfpAccept_fresh ‹_› (by simp [Kept])
    split
    · exact (fresh.trans ((State.assemble_kept_of_eq ‹_›).trans (by simp [Kept]))).stored.answersAt
    · have whole := fresh.trans (State.assemble_kept_of_eq ‹_›)
      simp [whole]⟩
@[simp] theorem execSvcTransaction_answers (t x s) : Answers s (execSvcTransaction t x s) := ⟨t, by
  unfold execSvcTransaction
  dsimp only
  (repeat' split) <;> simp⟩

/-! ### What a command answers: every command -/

/-- Every command but four answers so: the lemma of each is above. -/
theorem exec_answers (c : Instr) (s : State) : Answers s (exec c s) ∨
    (∃ cap vigil busy, c = .cycleStart cap vigil busy) ∨ (∃ t ph w, c = .crossingDetected t ph w) ∨ (∃ t h, c = .pairsHello t h) ∨
    (∃ t x, c = .startupStep t x) := by
  cases c <;> simp [exec]

/-! ### Sweep time (R15) -/

theorem State.tick_now (s : State) (t : Angle) :
    (s.tick t).now = if s.timebase = 0 then s.now else max s.now (s.cycle * 65536 + t.toNat) := by
  unfold State.tick
  split <;> rfl

theorem State.now_le_tick (s : State) (t : Angle) : s.now ≤ (s.tick t).now := by
  rw [State.tick_now]
  split <;> omega

/-- An angle is one of the current cycle, so the cycle count stays as it is. -/
@[simp] theorem State.tick_cycle (s : State) (t : Angle) : (s.tick t).cycle = s.cycle := by
  have ht := t.isLt
  unfold State.cycle
  rw [State.tick_now]
  split
  · rfl
  · simp only [State.cycle]
    omega

theorem State.now_lt_next_cycle (s : State) : s.now < (s.cycle + 1) * 65536 := by
  simp only [State.cycle]
  omega

theorem State.firstCrossing_now (s : State) (p : Nat) (w : CrossingInput) : s.now ≤ (s.firstCrossing p w).now := by
  simp [State.firstCrossing]

theorem State.sweepCycle_now (s : State) (cap vigil : Nat) : (s.sweepCycle cap vigil).now = (s.cycle + 1) * 65536 := by
  simp [State.sweepCycle]

theorem State.now_le_forwardAlign (s : State) (target : Nat) : s.now ≤ (s.forwardAlign target).now := by
  unfold State.forwardAlign
  split
  · exact le_rfl
  · simp

theorem State.le_pairUp_now {n : Nat} {s : State} (hn : n ≤ s.now) (h : PairHello) : n ≤ (s.pairUp h).now := by
  unfold State.pairUp
  dsimp only
  generalize hw : (if s.becomesActive h = true then _ else _ : State) = w
  have hw : w.now = s.now := by subst hw; split <;> simp
  simpa using hn.trans (hw ▸ w.now_le_forwardAlign h.cycle)

theorem execStartupStep_now (t : Angle) (x : StartStep) (s : State) : ∃ u, execStartupStep t x s = .next u ∧ u.now = (s.tick t).now := by
  refine ⟨_, rfl, ?_⟩
  split
  · rfl
  · cases x <;> simp

theorem execCycleStart_now (cap vigil : Nat) (busy : BitVec 25) (s : State) :
    ∃ u, execCycleStart cap vigil busy s = .next u ∧ u.now = if s.timebase = 0 then s.now else (s.cycle + 1) * 65536 := by
  unfold execCycleStart
  split
  · simp
  · simp [State.sweepCycle_now, State.cycle]

theorem execCrossingDetected_now (t : Angle) (phase : Phase) (w : CrossingInput) (s : State) :
    ∃ u, execCrossingDetected t phase w s = .next u ∧ (s.tick t).now ≤ u.now := by
  refine ⟨_, rfl, ?_⟩
  (repeat' split) <;> simp [State.firstCrossing_now]

theorem execPairsHello_now (t : Angle) (h : PairHello) (s : State) :
    ∃ u, execPairsHello t h s = .next u ∧ (s.tick t).now ≤ u.now := by
  refine ⟨_, rfl, ?_⟩
  split
  · exact le_rfl
  · split
    · simp
    · by_cases refused : ((s.tick t).setFlag Reg.PAIRS_STAT 23 true).sendPairHello.pairRefusal h = 0
      · simp [refused, State.le_pairUp_now]
      · simp [refused]

/-- No command but the cycle start, a crossing and a pairing HELLO moves sweep time otherwise than to its angle. -/
theorem exec_now (c : Instr) (s u : State) (h : exec c s = .next u) : (∃ t, u.now = (s.tick t).now) ∨
    (∃ cap vigil busy, c = .cycleStart cap vigil busy) ∨ (∃ t ph w, c = .crossingDetected t ph w) ∨ (∃ t h, c = .pairsHello t h) := by
  obtain ⟨t, v, hv, now, -⟩ | special := exec_answers c s
  · cases hv.symm.trans h
    exact .inl ⟨t, now⟩
  · obtain cycle | crossing | hello | ⟨t, x, rfl⟩ := special
    · exact .inr (.inl cycle)
    · exact .inr (.inr (.inl crossing))
    · exact .inr (.inr (.inr hello))
    · obtain ⟨v, hv, now⟩ := execStartupStep_now t x s
      cases hv.symm.trans h
      exact .inl ⟨t, now⟩

theorem exec_now_le (c : Instr) (s u : State) (h : exec c s = .next u) : s.now ≤ u.now := by
  obtain ⟨t, now⟩ | ⟨cap, vigil, busy, rfl⟩ | ⟨t, ph, w, rfl⟩ | ⟨t, hello, rfl⟩ := exec_now c s u h
  · exact now ▸ s.now_le_tick t
  · obtain ⟨v, hv, now⟩ := execCycleStart_now cap vigil busy s
    cases hv.symm.trans h
    have := s.now_lt_next_cycle
    split at now <;> omega
  · obtain ⟨v, hv, now⟩ := execCrossingDetected_now t ph w s
    cases hv.symm.trans h
    exact (s.now_le_tick t).trans now
  · obtain ⟨v, hv, now⟩ := execPairsHello_now t hello s
    cases hv.symm.trans h
    exact (s.now_le_tick t).trans now

/-- Settles O5: every command but three takes effect at an angle of the current cycle, and those three move sweep time forward. -/
theorem sweepTimeNeverDecreases : Obligations.SweepTimeNeverDecreases := by
  unfold Obligations.SweepTimeNeverDecreases
  refine ⟨fun s u h => ?_, fun c s u h moved => ?_⟩
  · unfold step at h
    split at h
    next =>
      cases h
      exact le_rfl
    next c rest _ => exact exec_now_le c { s with pending := rest } u h
  · obtain ⟨t, now⟩ | special := exec_now c s u h
    · have same : u.cycle = s.cycle := by rw [← s.tick_cycle t, State.cycle, now, State.cycle]
      exact absurd same moved
    · exact special

end Sys2Proof.Machine
end

section
/-!
PROOFS. Crossings, the cycle start and the latching reads of the sweep page (R17, R22, R23, R25, R26, R276, R442): what a gate leaves of the latches
and what the Logbook leaves of the sweep come first.
-/

namespace Sys2Proof.Machine

/-! ### What a path has latched (R276) -/

theorem State.latched_latchAt_same (s : State) (p : Path) (k v : Nat) : (s.latchAt p k v).latched p k = v % 2 ^ 32 := by
  simp [State.latched, SMap.find_put_same]

theorem State.latched_latchAt_other (s : State) (p : Path) (k j v : Nat) (h : j ≠ k) :
    (s.latchAt p k v).latched p j = s.latched p j := by
  have keys : pathIdx p * 2 ^ 20 + j ≠ pathIdx p * 2 ^ 20 + k := by omega
  simp only [State.latched, State.latchAt_latch, SMap.find_put_other _ _ _ _ keys]

theorem State.latched_of_latch {s u : State} (h : u.latch = s.latch) (p : Path) (k : Nat) : u.latched p k = s.latched p k := by
  simp only [State.latched, h]

@[simp] theorem State.refusal_latch (s : State) (id dom : Nat) (abort : Bool) : (s.refusal id dom abort).latch = s.latch := by
  rw [State.refusal_regsOnly]

@[simp] theorem State.setDom_latch (s : State) (d v : Nat) : (s.setDom d v).latch = s.latch := by
  rw [State.setDom_regsOnly]
@[simp] theorem State.touch_latch (s : State) (d : Nat) : (s.touch d).latch = s.latch := by
  simp [State.touch]

@[simp] theorem State.wake_latch (s : State) (d : Nat) : (s.wake d).latch = s.latch := by
  unfold State.wake
  split
  · simp
  · rfl

@[simp] theorem State.accessWake_latch (s : State) (page : Nat) : (s.accessWake page).latch = s.latch := by
  unfold State.accessWake
  extract_lets d
  split
  · simp
  · split
    · simp
    · simp

/-- An access that passes its gate changes no latch on its way. -/
theorem State.through_latch {s a : State} {p : Path} {page off : Nat} {write : Bool} (h : s.through p page off write = some a) :
    a.latch = s.latch := by
  have passed := State.through_gate h
  unfold State.gate at passed
  dsimp only at passed
  (repeat' split at passed) <;> cases passed <;> simp

theorem answer_latched (r : State × Nat) (p q : Path) (k : Nat) : (answer q r).latched p k = r.1.latched p k := rfl

/-! ### What leaves the sweep as it is -/

@[simp] theorem ite_sweep (c : Prop) [Decidable c] (a b : State) : (if c then a else b).sweep = if c then a.sweep else b.sweep := by
  split <;> rfl

theorem Signals.sweep {s u : State} (h : Signals s u) : u.sweep = s.sweep := (congrArg State.sweep h).trans rfl

@[simp] theorem State.raise_sweep (s : State) (page i : Nat) : (s.raise page i).sweep = s.sweep := (State.raise_signals s page i).sweep

@[simp] theorem State.append_sweep (s : State) (cls : Nat) (payload : List Byte) (obl : Option Nat) (leaf : Nat) :
    (s.append cls payload obl leaf).2.sweep = s.sweep := by
  simp [State.append, State.setUnc, State.enterRecord]

@[simp] theorem State.sysdata_sweep (s : State) (subtype : Nat) (body : List Byte) : (s.sysdata subtype body).sweep = s.sweep := by
  simp [State.sysdata, State.appendSysdata]

@[simp] theorem State.logStore_sweep (s : State) (e : LogEntry) : (s.logStore e).sweep = s.sweep := by
  unfold State.logStore
  (repeat' split) <;> simp

@[simp] theorem State.logHold_sweep (s : State) (e : LogEntry) : (s.logHold e).sweep = s.sweep := by
  simp [State.logHold]

@[simp] theorem State.logEntry_sweep (s : State) (cls page code data : Nat) : (s.logEntry cls page code data).sweep = s.sweep := by
  simp [State.logEntry]

/-! ### The records of the phases (R19, R22, R23) -/

@[simp] theorem State.setPhase_phases (s : State) (p : Nat) (r : PhaseRec) :
    (s.setPhase p r).sweep.phases = s.sweep.phases.put p r := rfl

theorem State.phase_setPhase_same (s : State) (p : Nat) (r : PhaseRec) : (s.setPhase p r).phase p = r := by
  simp [State.phase, SMap.getD, SMap.find_put_same]

theorem State.phase_setPhase_other (s : State) (p q : Nat) (r : PhaseRec) (h : q ≠ p) : (s.setPhase p r).phase q = s.phase q := by
  simp [State.phase, SMap.getD, SMap.find_put_other _ _ _ _ h]

theorem State.phase_of_phases {s u : State} (h : u.sweep.phases = s.sweep.phases) (p : Nat) : u.phase p = s.phase p := by
  simp only [State.phase, h]

@[simp] theorem State.setTimebase_sweep (s : State) (v : Nat) : (s.setTimebase v).sweep = s.sweep := by
  simp [State.setTimebase]

@[simp] theorem State.present_sweep (s : State) : s.present.sweep = s.sweep := by
  simp [State.present]

@[simp] theorem State.trackMove_sweep (s : State) (p : Nat) : (s.trackMove p).sweep = s.sweep := by
  simp [State.trackMove]

@[simp] theorem State.fixNominal_phases (s : State) : s.fixNominal.sweep.phases = s.sweep.phases := by
  unfold State.fixNominal
  split <;> rfl

@[simp] theorem State.lockCount_phases (s : State) (p : Nat) (e : Int) : (s.lockCount p e).sweep.phases = s.sweep.phases := by
  unfold State.lockCount
  split
  · rfl
  · simp [apply_ite Sweep.phases]

/-- An accepted crossing is the record of its phase, and the earlier one stands before it. -/
theorem State.acceptCrossing_phases (s : State) (p : Nat) :
    (s.acceptCrossing p).sweep.phases = s.sweep.phases.put p { s.phase p with
      ref := true, accepted := some (s.crossingCycle p, s.phaseError p), before := (s.phase p).accepted, misses := 0 } := by
  simp [State.acceptCrossing, apply_ite Sweep.phases]

theorem State.acceptCrossing_phase (s : State) (p : Nat) : (s.acceptCrossing p).phase p = { s.phase p with
    ref := true, accepted := some (s.crossingCycle p, s.phaseError p), before := (s.phase p).accepted, misses := 0 } := by
  simp [State.phase, State.acceptCrossing_phases, SMap.getD, SMap.find_put_same]

@[simp] theorem State.amendEnd_phases (s : State) (c : Nat) : (s.amendEnd c).sweep.phases = s.sweep.phases := by
  unfold State.amendEnd
  extract_lets +onlyGivenNames running leaf
  split
  · rfl
  · split
    · rfl
    · simp

/-- HOLDOVER ends the references of the phases and leaves their misses as they are. -/
theorem State.enterHoldover_misses (s : State) (p : Nat) : (s.enterHoldover.phase p).misses = (s.phase p).misses := by
  have clear : ∀ (s : State) (q : Nat), ((s.setPhase q { s.phase q with ref := false }).phase p).misses = (s.phase p).misses := by
    intro s q
    by_cases h : p = q
    · rw [h, State.phase_setPhase_same]
    · rw [State.phase_setPhase_other _ _ _ _ h]
  unfold State.enterHoldover
  extract_lets clr a b
  have kept : (b.logEntry 1 0x04 0x0005 (b.cycle % 2 ^ 32)).phase p = a.phase p :=
    State.phase_of_phases (by simp [b]) p
  rw [kept]
  simp only [a, clr, clear]

/-- HOLDOVER at the third miss on every phase leaves the misses of a phase as they are. -/
theorem State.thirdMiss_misses {s : State} {p n : Nat} (h : (s.phase p).misses = n) :
    ((if 3 ≤ (s.phase 1).misses ∧ 3 ≤ (s.phase 2).misses ∧ 3 ≤ (s.phase 3).misses then s.enterHoldover else s).phase p).misses = n := by
  split
  · rw [State.enterHoldover_misses, h]
  · exact h

theorem execCrossingMiss_misses (t : Angle) (ph : Phase) (s : State) (runs : (s.tick t).timebase ≠ 0) (holds : (s.tick t).timebase ≠ 3) :
    ∃ u, execCrossingMiss t ph s = .next u ∧ (u.phase (phaseNo ph)).misses = ((s.tick t).phase (phaseNo ph)).misses + 1 := by
  refine ⟨_, rfl, ?_⟩
  rw [if_neg (by tauto)]
  extract_lets +onlyGivenNames old a
  have counted : (a.phase (phaseNo ph)).misses = ((s.tick t).phase (phaseNo ph)).misses + 1 := by
    simp [a, old, State.phase_setPhase_same]
  clear_value a
  refine State.thirdMiss_misses ?_
  split
  · rw [← counted]
    exact congrArg PhaseRec.misses (State.phase_of_phases (by simp [apply_ite Sweep.phases]) _)
  · exact counted

/-! ### What the reads of the sweep page answer and latch (R17, R26, R276) -/

theorem State.readNowLo_latched (s : State) (p : Path) : (s.readNowLo p).1.latched p Reg.SWEEP_NOW_HI = s.now / 2 ^ 32 % 2 ^ 32 :=
  State.latched_latchAt_same _ _ _ _

theorem State.readPrecData_cursor (s : State) (p : Path) : (s.readPrecData p).1.precCursor p = (s.precCursor p + 1) % 2 ^ 48 := by
  have lo : (s.readPrecData p).1.latched p Reg.SWEEP_PREC_CUR_LO = (s.precCursor p + 1) % 2 ^ 32 := by
    rw [State.readPrecData, State.latched_latchAt_other _ _ _ _ _ (by decide), State.latched_latchAt_same, Nat.mod_mod]
  have hi : (s.readPrecData p).1.latched p Reg.SWEEP_PREC_CUR_HI = (s.precCursor p + 1) / 2 ^ 32 % 65536 := by
    rw [State.readPrecData, State.latched_latchAt_same]
    omega
  rw [State.precCursor, lo, hi]
  omega

theorem execSweepNowRead_answer {s a : State} {t : Angle} {p : Path} (through : (s.tick t).through p 0x04 0x040 false = some a) :
    ∃ u, execSweepNowRead t p s = .next u ∧ u.out = .word p (BitVec.ofNat 32 a.now) :: a.out ∧
      u.latched p Reg.SWEEP_NOW_HI = a.now / 2 ^ 32 % 2 ^ 32 := by
  refine ⟨_, rfl, ?_, ?_⟩
  · rw [State.hostRead_through through, answer_out]
    have low : BitVec.ofNat 32 (a.now % 2 ^ 32) = BitVec.ofNat 32 a.now := BitVec.eq_of_toNat_eq (by simp)
    simp only [State.readNowLo, State.latchAt_out, low]
  · rw [State.hostRead_through through, answer_latched, State.readNowLo_latched]

theorem execPrecDataRead_answer {s a : State} {t : Angle} {p : Path} (through : (s.tick t).through p 0x04 0x0A8 false = some a) :
    ∃ u, execPrecDataRead t p s = .next u ∧ u.out = .word p (BitVec.ofNat 32 ((a.entry (a.precCursor p)).getD 0)) :: a.out ∧
      u.precCursor p = (a.precCursor p + 1) % 2 ^ 48 := by
  refine ⟨_, rfl, ?_, ?_⟩
  · rw [State.hostRead_through through, answer_out]
    simp [State.readPrecData]
  · rw [State.hostRead_through through, State.precCursor, answer_latched, answer_latched, ← State.precCursor, State.readPrecData_cursor]

/-- A whole read of a register above the common header answers what the register's read answers (R276). -/
theorem execLatchingRead_register {s a : State} {t : Angle} {p : Path} {page : BitVec 8} {off : BitVec 12} (aligned : off.toNat % 4 = 0)
    (register : 0x040 ≤ off.toNat) (through : (s.tick t).through p page.toNat off.toNat false = some a) :
    execLatchingRead t p page off true s = .next (answer p (a.readReg p page.toNat off.toNat)) := by
  simp only [execLatchingRead, if_true, State.readAny, State.hostRead_through through]
  rw [if_neg (by omega), if_neg (by omega)]

/-- Settles O10: the latch of a path is the one of R276, and the gate changes none. -/
theorem sweepTimeIsReadConsistently : Obligations.SweepTimeIsReadConsistently := by
  unfold Obligations.SweepTimeIsReadConsistently
  refine ⟨fun t p s a through => execSweepNowRead_answer through, fun t p s a through => ?_⟩
  have kept : a.latched p Reg.SWEEP_NOW_HI = s.latched p Reg.SWEEP_NOW_HI :=
    State.latched_of_latch (by rw [State.through_latch through, State.tick_latch]) p _
  have read : a.readReg p (0x04 : BitVec 8).toNat (0x044 : BitVec 12).toNat = (a, a.latched p Reg.SWEEP_NOW_HI) := by
    simp [State.readReg, State.readSweep]
  have run := execLatchingRead_register (page := 0x04) (off := 0x044) (by decide) (by decide) through
  refine ⟨_, run, ?_, kept, ?_⟩
  · exact (answer_out p _).trans (by rw [read])
  · exact (answer_latched _ p p _).trans (by rw [read, kept])

/-- Settles O23, the cursor being the path's own (log 96). -/
theorem timebaseCommandsComplete : Obligations.TimebaseCommandsComplete := by
  unfold Obligations.TimebaseCommandsComplete
  refine ⟨?crossing, ?miss, ?cycle, ?nowLo, ?precData, ?register⟩
  case crossing =>
    intro t ph w s state near period
    have accept : execCrossingDetected t ph w s = .next ((s.tick t).acceptCrossing (phaseNo ph)) := by
      simp only [execCrossingDetected]
      rw [if_neg (by omega), if_neg (by omega), if_pos ⟨near, period⟩]
    refine ⟨_, accept, ?_, ?_⟩ <;> rw [State.acceptCrossing_phase]
  case miss =>
    intro t ph s runs holds
    exact execCrossingMiss_misses t ph s runs holds
  case cycle =>
    intro cap vigil busy s runs _ _
    obtain ⟨u, run, now⟩ := execCycleStart_now cap vigil busy s
    exact ⟨u, run, by rw [now, if_neg runs]⟩
  case nowLo =>
    intro t p s a through
    exact execSweepNowRead_answer through
  case precData =>
    intro t p s a through
    exact execPrecDataRead_answer through
  case register =>
    intro t p page off s a aligned register through
    exact ⟨_, execLatchingRead_register aligned register through, answer_out _ _⟩

end Sys2Proof.Machine
end

section
/-!
PROOFS. Civil time (R30, R32, R34 to R36) and the reset state (R15, R425): flags, the schedule in force and the marks come first.
-/

namespace Sys2Proof.Machine

/-! ### Flags and sorted lists -/

theorem State.flag_of_reg {s u : State} {k : Nat} (h : u.reg k = s.reg k) (i : Nat) : u.flag k i = s.flag k i := by
  simp only [State.flag, h]

@[simp] theorem State.flag_setFlag_same (s : State) (k i : Nat) (b : Bool) (h : i < 32) : (s.setFlag k i b).flag k i = b := by
  simp only [State.flag, State.setFlag, State.setFld, State.reg_setReg, bit, Nat.testBit_mod_two_pow, h, decide_true, Bool.true_and]
  rw [testBit_setBits _ _ _ _ _ (Nat.le_refl i), if_pos ⟨le_rfl, le_rfl⟩, Nat.sub_self]
  cases b <;> rfl

theorem State.flag_setFld_below (s : State) (k hi lo v i : Nat) (l : lo ≤ hi) (h : i < lo) (w : i < 32) :
    (s.setFld k hi lo v).flag k i = s.flag k i := by
  simp only [State.flag, State.setFld, State.reg_setReg, bit, Nat.testBit_mod_two_pow, w, decide_true, Bool.true_and]
  rw [testBit_setBits _ _ _ _ _ l, if_neg (by omega)]

theorem mem_insertBy {α : Type} (le : α → α → Bool) (x y : α) (l : List α) : y ∈ insertBy le x l ↔ y = x ∨ y ∈ l := by
  induction l with
  | nil => simp [insertBy]
  | cons z l ih =>
    unfold insertBy
    split
    · simp
    · simp only [List.mem_cons, ih]
      tauto

theorem mem_sortBy {α : Type} (le : α → α → Bool) (y : α) (l : List α) : y ∈ sortBy le l ↔ y ∈ l := by
  induction l with
  | nil => rfl
  | cons x l ih =>
    rw [List.mem_cons, ← ih]
    exact mem_insertBy le x y _

/-! ### The zone schedule in force (R30) -/

/-- The zone schedule in force, and ZVALID with it, are as before. -/
abbrev SameRules (s u : State) : Prop := u.sweep.zones = s.sweep.zones ∧ u.sweep.zvalid = s.sweep.zvalid

@[simp] theorem ite_zones (c : Prop) [Decidable c] (a b : Sweep) : (if c then a else b).zones = if c then a.zones else b.zones := by
  split <;> rfl
@[simp] theorem ite_zvalid (c : Prop) [Decidable c] (a b : Sweep) : (if c then a else b).zvalid = if c then a.zvalid else b.zvalid := by
  split <;> rfl

@[simp] theorem foldl_zones {α : Type} (f : State → α → State) (h : ∀ s a, (f s a).sweep.zones = s.sweep.zones) (s : State) (l : List α) :
    (l.foldl f s).sweep.zones = s.sweep.zones := foldl_proj (fun x => x.sweep.zones) f h s l
@[simp] theorem foldl_zvalid {α : Type} (f : State → α → State) (h : ∀ s a, (f s a).sweep.zvalid = s.sweep.zvalid) (s : State) (l : List α) :
    (l.foldl f s).sweep.zvalid = s.sweep.zvalid := foldl_proj (fun x => x.sweep.zvalid) f h s l

@[simp] theorem State.requestNew_rules (s : State) (i : Instant) : SameRules s (s.requestNew i) := by
  simp [SameRules, State.requestNew, State.requestInstant]

@[simp] theorem State.requestMinute_rules (s : State) (acts : SMap (Option Minute)) (m : Minute) : SameRules s (s.requestMinute acts m) := by
  simp [SameRules, State.requestMinute]

@[simp] theorem State.compile_rules (s : State) : SameRules s s.compile := by
  simp [SameRules, State.compile, State.compileTo]

@[simp] theorem State.recompile_rules (s : State) (owners : InstantOwner → Bool) : SameRules s (s.recompile owners) := by
  simp [SameRules, State.recompile]

theorem SameRules.foldl {α : Type} (f : State → α → State) (h : ∀ s a, SameRules s (f s a)) (s : State) (l : List α) :
    SameRules s (l.foldl f s) :=
  ⟨foldl_zones f (fun s a => (h s a).1) s l, foldl_zvalid f (fun s a => (h s a).2) s l⟩

@[simp] theorem State.pinPast_rules (s : State) : SameRules s s.pinPast := by
  unfold State.pinPast
  dsimp only
  split
  · exact SameRules.foldl _ (fun s a => by split <;> simp [SameRules, State.pinAt]) _ _
  · simp [SameRules]

@[simp] theorem State.checkSched_sweep (s : State) : s.checkSched.sweep = s.sweep := by
  simp [State.checkSched]

@[simp] theorem State.showZone_sweep (s : State) : s.showZone.sweep = s.sweep := by
  simp [State.showZone]

@[simp] theorem State.civilStep_sweep (s : State) (ms : Int) : (s.civilStep ms).sweep = s.sweep := by
  simp [State.civilStep]

@[simp] theorem State.journal_sweep (s : State) (cls : Nat) (payload : List Byte) : (s.journal cls payload).sweep = s.sweep := by
  simp [State.journal]

@[simp] theorem State.stepBilling_rules (s : State) (ms before : Int) : SameRules s (s.stepBilling ms before) := by
  simp [SameRules, State.stepBilling]

theorem State.finish_sweep (p : Path) (page off : Nat) (r : WriteResult) : (State.finish p page off r).sweep = r.state.sweep :=
  (State.finish_signals p page off r).sweep

/-- A commit puts the staged schedule and ZVALID into effect together (R30). -/
theorem effZcommit_rules {v : Word} {s : State} (go : bit 0 v.toNat = true) (ordered : zonesOrdered s.stagedZones = true) :
    (effZcommit v s).state.sweep.zones = s.stagedZones ∧
      (effZcommit v s).state.sweep.zvalid = s.reg Reg.SWEEP_ZVALID_LO + 2 ^ 32 * s.fld Reg.SWEEP_ZVALID_HI 15 0 := by
  simp [effZcommit, go, ordered]

/-! ### Marks (R35, R36) -/

/-- The status registers of the marks stand apart from what events and captures move. -/
theorem markStat_still (n : Fin 16) : stillKey (Reg.SWEEP_MARK_STAT n) = true := by
  revert n
  decide

theorem State.raise_markStat (s : State) (page i : Nat) (n : Fin 16) (h : Reg.SWEEP_MARK_STAT n ≠ evRaw page) :
    (s.raise page i).flag (Reg.SWEEP_MARK_STAT n) 0 = s.flag (Reg.SWEEP_MARK_STAT n) 0 :=
  State.flag_of_reg (State.raise_still _ _ _ _ (markStat_still n) h) _

theorem State.reg_setReg64_other (s : State) (klo khi v j : Nat) (lo : j ≠ klo) (hi : j ≠ khi) : (s.setReg64 klo khi v).reg j = s.reg j := by
  rw [State.setReg64, State.reg_setReg_other _ _ _ _ hi, State.reg_setReg_other _ _ _ _ lo]

theorem markStat_ne_cause (n : Fin 16) : Reg.SWEEP_MARK_STAT n ≠ evRaw 0x04 := by
  revert n
  decide

/-- The registers that a capture input moves, beside those of its event line (R266). -/
def captureEventKeys (c : Nat) : List Nat := [Reg.PTP_CAP_CTL c, Reg.PTP_CAP_SEC_LO c, Reg.PTP_CAP_SEC_HI c, Reg.PTP_CAP_NS c, evRaw 0x06]

theorem markStat_not_captured (n : Fin 16) : Reg.SWEEP_MARK_STAT n ∉ captureEventKeys 3 := by
  revert n
  decide

theorem State.captureEvent_reg (s : State) (c time k : Nat) (h : stillKey k = true) (other : k ∉ captureEventKeys c) :
    (s.captureEvent c time).reg k = s.reg k := by
  simp only [captureEventKeys, List.mem_cons, List.not_mem_nil, or_false, not_or] at other
  obtain ⟨ctl, lo, hi, ns, raw⟩ := other
  unfold State.captureEvent
  extract_lets _ key a b
  split
  · rfl
  · rw [State.raise_still _ _ _ _ h raw, State.reg_setReg_other _ _ _ _ ns, State.reg_setReg64_other _ _ _ _ _ lo hi,
      State.reg_setFld_other _ _ _ _ _ _ ctl]

theorem markStat_ne {m n : Fin 16} (h : m ≠ n) : Reg.SWEEP_MARK_STAT n ≠ Reg.SWEEP_MARK_STAT m := by
  have := Fin.val_ne_of_ne h
  simp only [Reg.SWEEP_MARK_STAT]
  omega

/-- LATE and MISSED leave FIRED of every mark as it is. -/
theorem State.markLate_fired (s : State) (m n : Fin 16) (v : Nat) :
    ((s.setFlag (Reg.SWEEP_MARK_STAT m) 1 true).setFld (Reg.SWEEP_MARK_STAT m) 15 8 v).flag (Reg.SWEEP_MARK_STAT n) 0 =
      s.flag (Reg.SWEEP_MARK_STAT n) 0 := by
  by_cases h : m = n
  · rw [h, State.flag_setFld_below _ _ _ _ _ _ (by omega) (by omega) (by omega), State.flag_setFlag_other _ _ _ _ _ (by omega) (by omega)]
  · refine State.flag_of_reg ?_ 0
    rw [State.reg_setFld_other _ _ _ _ _ _ (markStat_ne h), State.setFlag, State.reg_setFld_other _ _ _ _ _ _ (markStat_ne h)]

theorem State.fireMark_fired (s : State) (m n : Fin 16) (late : Bool) :
    (s.fireMark m late).flag (Reg.SWEEP_MARK_STAT n) 0 = (decide (m = n) || s.flag (Reg.SWEEP_MARK_STAT n) 0) := by
  unfold State.fireMark
  extract_lets +onlyGivenNames target rep step skipped a b
  have ha : a.flag (Reg.SWEEP_MARK_STAT n) 0 = (decide (m = n) || s.flag (Reg.SWEEP_MARK_STAT n) 0) := by
    by_cases h : m = n
    · simp [a, h]
    · simp only [h, decide_false, Bool.false_or]
      exact State.flag_of_reg (State.reg_setFld_other _ _ _ _ _ _ (markStat_ne h)) 0
  clear_value a
  have hb : b.flag (Reg.SWEEP_MARK_STAT n) 0 = a.flag (Reg.SWEEP_MARK_STAT n) 0 := by
    simp only [b]
    split
    · exact State.markLate_fired _ _ _ _
    · rfl
  clear_value b
  have raised : ∀ c : State, c.regs = b.regs →
      (if c.flag (Reg.SWEEP_MARK_CTL m) 1 then c.raise 0x04 3 else c).flag (Reg.SWEEP_MARK_STAT n) 0 =
        (decide (m = n) || s.flag (Reg.SWEEP_MARK_STAT n) 0) := by
    intro c regs
    have hc : c.flag (Reg.SWEEP_MARK_STAT n) 0 = b.flag (Reg.SWEEP_MARK_STAT n) 0 := State.flag_of_reg (by simp only [State.reg, regs]) 0
    rw [← ha, ← hb, ← hc]
    split
    · exact State.raise_markStat c 0x04 3 n (markStat_ne_cause n)
    · rfl
  exact raised _ (by split <;> rfl)

theorem State.fireDue_fired (s : State) (m n : Fin 16) :
    (s.fireDue m).flag (Reg.SWEEP_MARK_STAT n) 0 = (decide (m = n) || s.flag (Reg.SWEEP_MARK_STAT n) 0) := by
  unfold State.fireDue
  extract_lets a
  have fired : a.flag (Reg.SWEEP_MARK_STAT n) 0 = (decide (m = n) || s.flag (Reg.SWEEP_MARK_STAT n) 0) := State.fireMark_fired _ _ _ _
  split
  · rw [← fired]
    exact State.flag_of_reg (State.captureEvent_reg _ _ _ _ (markStat_still n) (markStat_not_captured n)) 0
  · exact fired

/-- A mark that fires among others ends FIRED. -/
theorem State.foldl_fireDue_fired (n : Fin 16) (l : List Nat) (marks : ∀ m ∈ l, m < 16) (s : State)
    (h : n.val ∈ l ∨ s.flag (Reg.SWEEP_MARK_STAT n) 0 = true) :
    (l.foldl (fun (s : State) m => s.fireDue m) s).flag (Reg.SWEEP_MARK_STAT n) 0 = true := by
  induction l generalizing s with
  | nil => simpa using h
  | cons m l ih =>
    have fired := s.fireDue_fired ⟨m, marks m List.mem_cons_self⟩ n
    refine ih (fun k hk => marks k (List.mem_cons_of_mem _ hk)) _ ?_
    rw [fired, Bool.or_eq_true, decide_eq_true_eq, Fin.ext_iff]
    obtain (first | rest) | before := h.imp_left List.mem_cons.mp
    · exact .inr (.inl first.symm)
    · exact .inl rest
    · exact .inr (.inr before)

theorem State.dueMarks_lt {s : State} {n m : Nat} (h : m ∈ s.dueMarks n) : m < 16 := by
  unfold State.dueMarks at h
  split at h
  · rw [mem_sortBy, List.mem_filter] at h
    exact List.mem_range.mp h.1
  · simp at h

theorem State.mem_dueMarks {s : State} {n : Nat} (h : s.markDue n = true) (lt : n < 16) : n ∈ s.dueMarks n := by
  rw [State.dueMarks, if_pos h, mem_sortBy, List.mem_filter]
  simp [lt]

@[simp] theorem State.journalConfig_sweep (s : State) (k : Nat) : (s.journalConfig k).sweep = s.sweep := by
  simp [State.journalConfig]

theorem effMarkAtHi_target (n : Nat) (v : Word) (s : State) :
    (effMarkAtHi n v s).state.sweep.marks.find n = some (s.reg (Reg.SWEEP_MARK_AT_LO n) + 2 ^ 32 * v.toNat) := by
  have low : (s.setReg (Reg.SWEEP_MARK_AT_HI n) v.toNat).reg (Reg.SWEEP_MARK_AT_LO n) = s.reg (Reg.SWEEP_MARK_AT_LO n) :=
    State.reg_setReg_other _ _ _ _ (by simp only [Reg.SWEEP_MARK_AT_LO, Reg.SWEEP_MARK_AT_HI]; omega)
  have high : v.toNat % 2 ^ 32 = v.toNat := Nat.mod_eq_of_lt v.isLt
  simp only [effMarkAtHi, WriteResult.state_done, State.journalConfig_sweep, State.armMark, State.setMark, SMap.find_put_same, State.reg64, low,
    State.reg_setReg, high]

/-! ### Instants and the length of the schedule (R32, R34) -/

theorem State.pinAt_pin (s : State) (id : Nat) (i : Instant) (tai : Int) :
    ((s.pinAt id i tai).sweep.instants.find id).bind (·.pin) = some (max (s.tickOf tai).toNat s.now) := by
  simp [State.pinAt, SMap.find_put_same]

theorem State.checkSched_short (s : State) : s.checkSched.flag Reg.SWEEP_CIVSTAT 2 = s.shortNow := by
  unfold State.checkSched
  extract_lets short was a
  have ha : a.flag Reg.SWEEP_CIVSTAT 2 = s.shortNow := State.flag_setFlag_same _ _ _ _ (by decide)
  split
  · rw [State.flag_of_reg (State.raise_still _ _ _ _ (by decide) (by decide)), ha]
  · exact ha

/-- Settles O24: each effect by the rule of its operation; SCHED_SHORT is that of log 96 while MAP_STATE is NONE. -/
theorem civilTimeCommandsComplete : Obligations.CivilTimeCommandsComplete := by
  unfold Obligations.CivilTimeCommandsComplete
  refine ⟨?commit, ?pin, ?short, ?target, ?fired⟩
  case commit =>
    intro t p v s a through go ordered
    refine ⟨_, rfl, ?_⟩
    rw [State.hostWrite_through through, State.finish_sweep]
    exact effZcommit_rules go ordered
  case pin =>
    intro t id i tai s requested unpinned at' mapped soon
    refine ⟨(s.tick t).pinAt id i tai, ?_, State.pinAt_pin _ _ _ _⟩
    show execInstantPin t id s = _
    simp only [execInstantPin, requested, unpinned, at']
    rw [if_pos ⟨mapped, soon⟩]
  case short =>
    intro t s
    exact ⟨_, rfl, State.checkSched_short _⟩
  case target =>
    intro t p n v s a through
    refine ⟨_, rfl, ?_⟩
    rw [State.hostWrite_through through, State.finish_sweep, effMarkAtHi_target]
  case fired =>
    intro t n s due
    exact ⟨_, rfl, State.foldl_fireDue_fired n _ (fun m => State.dueMarks_lt) _ (.inl (State.mem_dueMarks due n.isLt))⟩

/-! ### The reset state -/

/-- EV_RAW resets to 0 on every page. -/
theorem regReset_evRaw (page : Nat) : regReset (evRaw page) = 0 := by
  have base : (page * 0x1000 + 0x014) % 0x1000000 % 0x1000 = 0x014 := by omega
  simp [regReset, base]

/-- At reset no cause is pending, so no page holds a line. -/
theorem State.reset_lineOn (n : Nat) : State.reset.lineOn n = false := by
  have pend (page : Nat) : State.reset.pend page = 0 := by
    simp [State.pend, State.reset, State.reg, regReset_evRaw, SMap.find]
  simp [State.lineOn, State.linePages, pend]

/-- Settles O3; that the life cycle starts in FACTORY is log 6. -/
theorem resetMeetsInvariants : Obligations.ResetMeetsInvariants := by
  unfold Obligations.ResetMeetsInvariants
  exact ⟨rfl, rfl, rfl, rfl, fun n _ => ⟨rfl, State.reset_lineOn n⟩⟩

end Sys2Proof.Machine
end

section
/-!
PROOFS. What commands of the timebase and of the line, air and loop media leave as it is (R17, R84, R108, R121, R126): what a command may change
beside what event lines move comes first, then each command.
-/

namespace Sys2Proof.Machine

/-! ### Parts that a command may change beside what event lines move -/

/-- The second state differs from the first one only in its field media and in what event lines move. -/
def FieldOnly (s u : State) : Prop := Signals { s with field := u.field } u

theorem FieldOnly.trans {s u w : State} (a : FieldOnly s u) (b : FieldOnly u w) : FieldOnly s w := by
  unfold FieldOnly Signals at *
  rw [b, a]
  rfl

theorem Signals.field {s u : State} (h : Signals s u) : u.field = s.field := (congrArg State.field h).trans rfl

theorem Signals.fieldOnly {s u : State} (h : Signals s u) : FieldOnly s u := by
  have same : ({ s with field := u.field } : State) = s := by rw [h.field]
  exact same.symm ▸ h

theorem FieldOnly.refl (s : State) : FieldOnly s s := (Signals.refl s).fieldOnly

/-- What a write leaves is what its effect leaves, beside the error ring and what event lines move. -/
theorem Signals.finish {w : State} {r : WriteResult} (h : Signals w r.state) (p : Path) (page off : Nat) :
    Signals { w with errRing := (State.finish p page off r).errRing } (State.finish p page off r) :=
  (h.ring _).trans (State.finish_signals p page off r)

theorem State.finish_field (p : Path) (page off : Nat) (r : WriteResult) : (State.finish p page off r).field = r.state.field :=
  (State.finish_signals p page off r).field

theorem State.finish_led (p : Path) (page off : Nat) (r : WriteResult) : (State.finish p page off r).led = r.state.led :=
  (State.finish_signals p page off r).led

theorem State.enterRecord_ledger (s : State) (r : LedgerRecord) : (s.enterRecord r).2 = { s with led := (s.enterRecord r).2.led } := by
  unfold State.enterRecord
  dsimp only
  (repeat' split) <;> rfl

/-- A record that is appended changes the ledger, its charge and what is sent. -/
theorem State.append_signals (s : State) (cls : Nat) (payload : List Byte) (obl : Option Nat) (leaf : Nat) :
    Signals { s with led := (s.append cls payload obl leaf).2.led } (s.append cls payload obl leaf).2 := by
  unfold State.append
  split
  · rfl
  · extract_lets r a b c
    have ha : a = { s with led := a.led } := s.enterRecord_ledger _
    have hb : Signals a b := by
      simp only [b]
      split
      · exact (State.setReg_signals _ _ _).trans (State.setReg_signals _ _ _)
      · rfl
    have hc : Signals b c := by
      simp only [c]
      split <;> rfl
    have led : c.led = a.led := (hb.trans hc).led
    rw [led, ← ha]
    exact hb.trans hc

theorem State.persistNode_regs (s : State) (id : Nat) : (s.persistNode id).regs = s.regs :=
  State.append_regs_uncharged s (by decide) _ _ _

theorem State.persistNode_signals (s : State) (id : Nat) : Signals { s with led := (s.persistNode id).led } (s.persistNode id) :=
  State.append_signals _ _ _ _ _

/-- The record of a node, and its place in the ledger, are what a command of NODE_CTL may change. -/
def NodeOnly (s u : State) : Prop := Signals { s with field := u.field, led := u.led } u ∧ u.regs = s.regs

theorem State.setNode_nodeOnly (s : State) (id : Nat) (n : Node) : NodeOnly s (s.setNode id n) := ⟨rfl, rfl⟩

theorem State.setNode_persist_nodeOnly (s : State) (id : Nat) (n : Node) : NodeOnly s ((s.setNode id n).persistNode id) := by
  have h := State.persistNode_signals (s.setNode id n) id
  have field : ((s.setNode id n).persistNode id).field = (s.setNode id n).field := h.field
  refine ⟨?_, State.persistNode_regs _ _⟩
  rw [field]
  exact h

theorem effNodeCtl_nodeOnly (cmd : Nat) (v : Word) (s : State) : NodeOnly s (effNodeCtl cmd v s).state := by
  have same : NodeOnly s s := ⟨rfl, rfl⟩
  unfold effNodeCtl
  extract_lets id n
  split
  · split
    · exact same
    · split
      · exact same
      · exact s.setNode_persist_nodeOnly _ _
  · split
    · split
      · exact same
      · split
        · exact same
        · exact s.setNode_persist_nodeOnly _ _
    · split
      · split
        · exact s.setNode_persist_nodeOnly _ _
        · exact same
      · split
        · split
          · exact s.setNode_nodeOnly _ _
          · exact same
        · exact s.setNode_nodeOnly _ _

/-- A write of NODE_CTL changes the node's record, the ledger and what a write does to its page (Table 4.8). -/
theorem nodeCtl_frame {s a u : State} {t : Angle} {p : Path} (cmd : Nat) (v : Word) (through : (s.tick t).through p 0x0F 0x08C true = some a)
    (run : (s.tick t).hostWrite p 0x0F 0x08C (effNodeCtl cmd v) = u) :
    u = ({ a with errRing := u.errRing, field := u.field, led := u.led }).eventsOf u ∧
      ∀ k, stillKey k = true → k ∉ captureKeys 0x0F ++ [0x0F * 0x1000 + 0x030] → u.reg k = a.reg k := by
  rw [State.hostWrite_through through] at run
  obtain ⟨frame, regs⟩ := effNodeCtl_nodeOnly cmd v a
  subst run
  refine ⟨?_, fun k still other => ?_⟩
  · rw [State.finish_field, State.finish_led]
    exact frame.finish _ _ _
  · simp only [List.mem_append, List.mem_singleton, not_or] at other
    rw [State.finish_reg _ _ _ _ _ still other.1 other.2, State.reg, State.reg, regs]

/-! ### What the commands of the timebase and of the line, air and loop media change -/

theorem State.reg_of_regs {s u : State} (h : u.regs = s.regs) (k : Nat) : u.reg k = s.reg k := by
  simp only [State.reg, h]

theorem hostRead_latches {s a u : State} {p : Path} {page off : Nat} {read : State → State × Nat} (through : s.through p page off false = some a)
    (latches : (read a).1 = { a with latch := (read a).1.latch }) (run : answer p (s.hostRead p page off read) = u) :
    u = ({ a with latch := u.latch }).eventsOf u ∧ ∀ k, u.reg k = a.reg k := by
  rw [State.hostRead_through through] at run
  subst run
  refine ⟨?_, fun k => ?_⟩
  · rw [answer, latches]
    rfl
  · rw [answer_reg, latches]
    rfl

theorem readNowLo_latches (s : State) (p : Path) : (s.readNowLo p).1 = { s with latch := (s.readNowLo p).1.latch } := rfl
theorem readPrecData_latches (s : State) (p : Path) : (s.readPrecData p).1 = { s with latch := (s.readPrecData p).1.latch } := rfl

theorem execInstantPin_frame {t : Angle} {id : Nat} {s u : State} (run : execInstantPin t id s = .next u) :
    u = ({ s.tick t with sweep := u.sweep }).eventsOf u ∧ u.regs = s.regs := by
  unfold execInstantPin at run
  dsimp only at run
  (repeat' split at run) <;> cases run <;> exact ⟨rfl, State.tick_regs s t⟩

theorem checkSched_signals (s : State) : Signals s s.checkSched := by
  unfold State.checkSched
  extract_lets short was a
  have ha : Signals s a := State.setFlag_signals _ _ _ _
  split
  · exact ha.trans (State.raise_signals _ _ _)
  · exact ha

theorem checkSched_reg (s : State) (k : Nat) (still : stillKey k = true) (stat : k ≠ Reg.SWEEP_CIVSTAT) (raw : k ≠ evRaw 0x04) :
    s.checkSched.reg k = s.reg k := by
  unfold State.checkSched
  extract_lets short was a
  have ha : a.reg k = s.reg k := State.reg_setFld_other _ _ _ _ _ _ stat
  split
  · rw [State.raise_still _ _ _ _ still raw, ha]
  · exact ha

/-- The field media, some registers and what event lines move are all that a command may change. -/
def FieldWithin (keys : List Nat) (s u : State) : Prop := FieldOnly s u ∧ ∀ k, stillKey k = true → k ∉ keys → u.reg k = s.reg k

namespace FieldWithin
variable {keys : List Nat} {s u w : State}

theorem refl (s : State) : FieldWithin keys s s := ⟨.refl s, fun _ _ _ => rfl⟩

theorem trans (a : FieldWithin keys s u) (b : FieldWithin keys u w) : FieldWithin keys s w :=
  ⟨a.1.trans b.1, fun k still other => (b.2 k still other).trans (a.2 k still other)⟩

theorem ite {c : Prop} [Decidable c] (a : FieldWithin keys s u) (b : FieldWithin keys s w) : FieldWithin keys s (if c then u else w) := by
  split
  · exact a
  · exact b

theorem foldl {α : Type} (f : State → α → State) (l : List α) (h : ∀ s, ∀ a ∈ l, FieldWithin keys s (f s a)) (s : State) :
    FieldWithin keys s (l.foldl f s) := by
  induction l generalizing s with
  | nil => exact refl s
  | cons a l ih => exact (h s a List.mem_cons_self).trans (ih (fun s b hb => h s b (List.mem_cons_of_mem _ hb)) _)

theorem field (s : State) (f : Field) : FieldWithin keys s { s with field := f } := ⟨rfl, fun _ _ _ => rfl⟩

theorem setReg {k : Nat} (h : k ∈ keys) (s : State) (v : Nat) : FieldWithin keys s (s.setReg k v) :=
  ⟨(State.setReg_signals s k v).fieldOnly, fun _ _ other => State.reg_setReg_other _ _ _ _ (fun e => other (e ▸ h))⟩

theorem setFld {k : Nat} (h : k ∈ keys) (s : State) (hi lo v : Nat) : FieldWithin keys s (s.setFld k hi lo v) := setReg h s _

theorem bump {k : Nat} (h : k ∈ keys) (s : State) (n : Nat) : FieldWithin keys s (s.bump k n) := setReg h s _

theorem raise {page : Nat} (h : evRaw page ∈ keys) (s : State) (i : Nat) : FieldWithin keys s (s.raise page i) :=
  ⟨(State.raise_signals s page i).fieldOnly, fun _ still other => State.raise_still _ _ _ _ still (fun e => other (e ▸ h))⟩

theorem send (s : State) (o : Output) : FieldWithin keys s (s.send o) := ⟨(State.send_signals s o).fieldOnly, fun _ _ _ => rfl⟩

theorem setLoopState {n : Nat} (h : Reg.LOOP_SUPSTAT n ∈ keys) (s : State) (v : Nat) : FieldWithin keys s (s.setLoopState n v) :=
  (field s _).trans (setFld h _ _ _ _)

/-- What a command at an angle of the current cycle changes, against the state before it. -/
theorem of_tick {t : Angle} (h : FieldWithin keys (s.tick t) u) :
    u = ({ s.tick t with field := u.field }).eventsOf u ∧ ∀ k, stillKey k = true → k ∉ keys → u.reg k = s.reg k :=
  ⟨h.1, fun k still other => (h.2 k still other).trans (State.tick_reg s t k)⟩

/-- What a write changes whose effect stays within the field media and some registers. -/
theorem finish {r : WriteResult} (h : FieldWithin keys s r.state) (p : Path) (page off : Nat) :
    State.finish p page off r = ({ s with
      errRing := (State.finish p page off r).errRing
      field := (State.finish p page off r).field }).eventsOf (State.finish p page off r) ∧
    ∀ k, stillKey k = true → k ∉ captureKeys page ++ (page * 0x1000 + 0x030) :: keys → (State.finish p page off r).reg k = s.reg k := by
  refine ⟨?_, fun k still other => ?_⟩
  · rw [State.finish_field]
    exact Signals.finish h.1 p page off
  · simp only [List.mem_append, List.mem_cons, not_or] at other
    obtain ⟨capture, seq, key⟩ := other
    rw [State.finish_reg _ _ _ _ _ still capture seq, h.2 k still key]

end FieldWithin

theorem execJoinTimeout_within {t : Angle} {node : BitVec 13} {s u : State} (run : execJoinTimeout t node s = .next u) :
    FieldWithin [] (s.tick t) u := by
  cases run
  split
  · exact .refl _
  · exact .ite (.refl _) (.field _ _)

theorem execRepeaterDemote_within {t : Angle} {node : BitVec 13} {s u : State} (run : execRepeaterDemote t node s = .next u) :
    FieldWithin [evRaw 0x0F] (s.tick t) u := by
  cases run
  exact .ite (.refl _) (((FieldWithin.field _ _).trans (.field _ _)).trans (.raise (by decide) _ _))

theorem execHopSlotStart_within {t : Angle} {s u : State} (run : execHopSlotStart t s = .next u) :
    FieldWithin [Reg.AIR_STAT 0, Reg.AIR_STAT 1] (s.tick t) u := by
  cases run
  refine .ite (.refl _) ?_
  have first : FieldWithin [Reg.AIR_STAT 0, Reg.AIR_STAT 1] (s.tick t)
      (if (s.tick t).airSearching 0 then s.tick t else (s.tick t).setFld (Reg.AIR_STAT 0) 7 0
        ((s.tick t).hopChannel 0 ((s.tick t).cycle / (s.tick t).hopCyc))) := .ite (.refl _) (.setFld (by decide) _ _ _ _)
  exact .ite first (first.trans (.setFld (by decide) _ _ _ _))

theorem execAirSearchWindow_within {t : Angle} {lane : Fin 2} {s u : State} (run : execAirSearchWindow t lane s = .next u) :
    FieldWithin [Reg.AIR_STAT lane] (s.tick t) u := by
  cases run
  have stat : Reg.AIR_STAT lane.val ∈ [Reg.AIR_STAT lane] := List.mem_singleton.mpr rfl
  exact .ite (.refl _) (((FieldWithin.field _ _).trans (.setFld stat _ _ _ _)).trans (.setFld stat _ _ _ _))

theorem execLoopSync_within {t : Angle} {n : Fin 4} {s u : State} (run : execLoopSync t n s = .next u) :
    FieldWithin [Reg.LOOP_SYNC_TX n] (s.tick t) u := by
  cases run
  have sent : Reg.LOOP_SYNC_TX n.val ∈ [Reg.LOOP_SYNC_TX n] := List.mem_singleton.mpr rfl
  exact .ite (.refl _) (((FieldWithin.field _ _).trans (.bump sent _ _)).trans (.send _ _))

theorem execLoopDwellEnd_within {t : Angle} {s u : State} (run : execLoopDwellEnd t s = .next u) :
    FieldWithin [Reg.LOOP_SUPSTAT 0, Reg.LOOP_SUPSTAT 1, Reg.LOOP_SUPSTAT 2, Reg.LOOP_SUPSTAT 3] (s.tick t) u := by
  cases run
  refine .ite (.refl _) (.foldl _ _ (fun s n hn => .ite (.setLoopState ?_ _ _) (.refl _)) _)
  have lt := List.mem_range.mp hn
  interval_cases n <;> decide

theorem execLoopTripRetry_within {t : Angle} {n : Fin 4} {s u : State} (run : execLoopTripRetry t n s = .next u) :
    FieldWithin [Reg.LOOP_SUPSTAT n] (s.tick t) u := by
  cases run
  have stat : Reg.LOOP_SUPSTAT n.val ∈ [Reg.LOOP_SUPSTAT n] := List.mem_singleton.mpr rfl
  exact .ite (.refl _) (.ite (.setLoopState stat _ _) (.setLoopState stat _ _))

theorem effRestore_within (n : Nat) (v : Word) (s : State) : FieldWithin [Reg.LOOP_SUPSTAT n] s (effRestore n v s).state := by
  unfold effRestore
  split
  · exact .refl s
  · split
    · exact .refl s
    · exact .setLoopState (List.mem_singleton.mpr rfl) _ _

/-- An IDENT changes the loop's record and draws its challenge (R135). -/
theorem State.identOne_frame (s : State) (n m : Nat) :
    Signals { s with field := (s.identOne n m).field, fresh := (s.identOne n m).fresh } (s.identOne n m) ∧ (s.identOne n m).regs = s.regs := by
  unfold State.identOne
  split
  · exact ⟨rfl, rfl⟩
  · extract_lets
    split
    · exact ⟨rfl, rfl⟩
    · exact ⟨rfl, rfl⟩

/-- Settles O19: the clauses of a tick by what their operations stay within, those of a write by its effect and its finish. -/
theorem fieldCommandsFrame : Obligations.FieldCommandsFrame := by
  unfold Obligations.FieldCommandsFrame
  refine ⟨?nowLo, ?precData, ?pin, ?short, ?hwm, ?supply, ?join, ?demote, ?provision, ?bar, ?release, ?force, ?hop, ?search, ?sync, ?dwell,
    ?trip, ?restore, ?ident⟩
  case nowLo =>
    intro t p s a u through run
    exact hostRead_latches through (readNowLo_latches a p) (Host.Outcome.next.inj run)
  case precData =>
    intro t p s a u through run
    exact hostRead_latches through (readPrecData_latches a p) (Host.Outcome.next.inj run)
  case pin =>
    intro t id s u run
    obtain ⟨frame, regs⟩ := execInstantPin_frame run
    exact ⟨frame, fun k _ => State.reg_of_regs regs k⟩
  case short =>
    intro t s u run
    cases run
    refine ⟨checkSched_signals _, fun k still other => ?_⟩
    simp only [List.mem_cons, List.not_mem_nil, or_false, not_or] at other
    rw [checkSched_reg _ k still other.1 other.2, State.tick_reg]
  case hwm =>
    intro t p v s a u through run
    cases run
    rw [State.hostWrite_through through]
    have frame : Signals a (effHwmClr v a).state := by
      unfold effHwmClr
      split <;> rfl
    refine ⟨frame.finish _ _ _, fun k still other => ?_⟩
    simp only [List.mem_append, List.mem_cons, List.not_mem_nil, or_false, not_or] at other
    obtain ⟨capture, seq, mark⟩ := other
    rw [State.finish_reg _ _ _ _ _ still capture seq]
    unfold effHwmClr
    split
    · exact State.reg_setFld_other _ _ _ _ _ _ mark
    · rfl
  case supply =>
    intro t s u run
    cases run
    refine ⟨(State.setFld_signals _ _ _ _ _).trans (State.raise_signals _ _ _), fun k still other => ?_⟩
    simp only [List.mem_cons, List.not_mem_nil, or_false, not_or] at other
    rw [State.raise_still _ _ _ _ still other.2, State.reg_setFld_other _ _ _ _ _ _ other.1, State.tick_reg]
  case join =>
    intro t node s u run
    obtain ⟨frame, regs⟩ := (execJoinTimeout_within run).of_tick
    exact ⟨frame, fun k still => regs k still List.not_mem_nil⟩
  case demote =>
    intro t node s u run
    exact (execRepeaterDemote_within run).of_tick
  case provision =>
    intro t p v s a u through run
    exact nodeCtl_frame 1 v through (Host.Outcome.next.inj run)
  case bar =>
    intro t p v s a u through run
    exact nodeCtl_frame 2 v through (Host.Outcome.next.inj run)
  case release =>
    intro t p v s a u through run
    exact nodeCtl_frame 3 v through (Host.Outcome.next.inj run)
  case force =>
    intro t p v s a u through run
    exact nodeCtl_frame 4 v through (Host.Outcome.next.inj run)
  case hop =>
    intro t s u run
    exact (execHopSlotStart_within run).of_tick
  case search =>
    intro t lane s u run
    exact (execAirSearchWindow_within run).of_tick
  case sync =>
    intro t n s u run
    exact (execLoopSync_within run).of_tick
  case dwell =>
    intro t s u run
    exact (execLoopDwellEnd_within run).of_tick
  case trip =>
    intro t n s u run
    exact (execLoopTripRetry_within run).of_tick
  case restore =>
    intro t p n v s a u through run
    cases run
    rw [State.hostWrite_through through]
    exact (effRestore_within n.val v a).finish _ _ _
  case ident =>
    intro t n m s u run
    cases run
    split
    · obtain ⟨frame, regs⟩ := (s.tick t).identOne_frame n.val m.val
      exact ⟨frame, fun k _ => (State.reg_of_regs regs k).trans (State.tick_reg s t k)⟩
    · exact ⟨rfl, fun k _ => State.tick_reg s t k⟩

end Sys2Proof.Machine
end

section
/-!
PROOFS. The commands of Slalom (R38, R39, R41, R45, R48, R53) complete with their effect: what the end of an obligation and the admission of a
request leave of the calendar, of the held requests and of the response comes first.
-/

namespace Sys2Proof.Machine

/-! ### What the bookkeeping of the calendar leaves -/

/-- The registers that answer a host request, and STATUS, whose bit 31 is the recomputation's (Tables 2.9, 2.13). -/
def answerKeys : List Nat := [Reg.SLALOM_RESP_STAT, Reg.SLALOM_RESP_OBL, Reg.SLALOM_STATUS]

/-- The field media, the host request and the mode changes that a recomputation holds, the response and the recomputation are as before. -/
structure Spared (s u : State) : Prop where
  field : u.field = s.field
  held : u.slalom.held = s.slalom.held
  heldPlan : u.slalom.heldPlan = s.slalom.heldPlan
  heldRegion : u.slalom.heldRegion = s.slalom.heldRegion
  respStat : u.reg Reg.SLALOM_RESP_STAT = s.reg Reg.SLALOM_RESP_STAT
  respObl : u.reg Reg.SLALOM_RESP_OBL = s.reg Reg.SLALOM_RESP_OBL
  busy : u.flag Reg.SLALOM_STATUS 31 = s.flag Reg.SLALOM_STATUS 31

/-- So is the calendar: what happens is only noted, in counters, causes, the outcome ring and the Logbook. -/
structure Noted (s u : State) : Prop extends Spared s u where
  calendar : u.slalom.calendar = s.slalom.calendar

namespace Spared
variable {s u w : State}

theorem refl (s : State) : Spared s s := ⟨rfl, rfl, rfl, rfl, rfl, rfl, rfl⟩

theorem trans (a : Spared s u) (b : Spared u w) : Spared s w :=
  ⟨b.field.trans a.field, b.held.trans a.held, b.heldPlan.trans a.heldPlan, b.heldRegion.trans a.heldRegion, b.respStat.trans a.respStat,
    b.respObl.trans a.respObl, b.busy.trans a.busy⟩

theorem foldl {α : Type} (f : State → α → State) (h : ∀ s a, Spared s (f s a)) (s : State) (l : List α) : Spared s (l.foldl f s) := by
  induction l generalizing s with
  | nil => exact refl s
  | cons a l ih => exact (h s a).trans (ih _)

end Spared

theorem Signals.slalom {s u : State} (h : Signals s u) : u.slalom = s.slalom := (congrArg State.slalom h).trans rfl

theorem State.flag_setFld_above (s : State) (k hi lo v i : Nat) (l : lo ≤ hi) (h : hi < i) (w : i < 32) :
    (s.setFld k hi lo v).flag k i = s.flag k i := by
  simp only [State.flag, State.setFld, State.reg_setReg, bit, Nat.testBit_mod_two_pow, w, decide_true, Bool.true_and]
  rw [testBit_setBits _ _ _ _ _ l, if_neg (by omega)]

theorem stillKey_answerKeys : ∀ k ∈ answerKeys, stillKey k = true := by decide

theorem mem_answerKeys {k : Nat} : k ∈ answerKeys ↔ k = 0x50E0 ∨ k = 0x50E4 ∨ k = 0x5044 := by
  simp only [answerKeys, List.mem_cons, List.not_mem_nil, or_false]

/-- The pages above Slalom's, and every bank, hold no answer register. -/
theorem notMem_answerKeys_of_lt {k : Nat} (h : 0x5FFF < k) : k ∉ answerKeys := by
  rw [mem_answerKeys]
  omega

theorem evRaw_notMem_answerKeys (page : Nat) : evRaw page ∉ answerKeys := by
  rw [mem_answerKeys, evRaw]
  omega

theorem bankKey_notMem_answerKeys (sel k : Nat) : bankKey sel k ∉ answerKeys :=
  notMem_answerKeys_of_lt (by rw [bankKey]; omega)

/-- The counts of the classes are other registers than the answer's (Table 2.9). -/
theorem classCount_notMem_answerKeys : ∀ c ∈ List.range 5, Reg.SLALOM_CLS0 + 4 * c ∉ answerKeys := by decide

namespace Noted
variable {s u w : State}

theorem trans (a : Noted s u) (b : Noted u w) : Noted s w := ⟨a.toSpared.trans b.toSpared, b.calendar.trans a.calendar⟩

theorem refl (s : State) : Noted s s := ⟨.refl s, rfl⟩

theorem ite {c : Prop} [Decidable c] (a : Noted s u) (b : Noted s w) : Noted s (if c then u else w) := by
  split
  · exact a
  · exact b

theorem foldl {α : Type} (f : State → α → State) (l : List α) (h : ∀ s, ∀ a ∈ l, Noted s (f s a)) (s : State) :
    Noted s (l.foldl f s) := by
  induction l generalizing s with
  | nil => exact refl s
  | cons a l ih => exact (h s a List.mem_cons_self).trans (ih (fun s b hb => h s b (List.mem_cons_of_mem _ hb)) _)

theorem of_parts (slalom : u.slalom = s.slalom) (field : u.field = s.field) (regs : ∀ k ∈ answerKeys, u.reg k = s.reg k) : Noted s u where
  field := field
  held := congrArg Slalom.held slalom
  heldPlan := congrArg Slalom.heldPlan slalom
  heldRegion := congrArg Slalom.heldRegion slalom
  respStat := regs _ (by decide)
  respObl := regs _ (by decide)
  busy := State.flag_of_reg (regs _ (by decide)) 31
  calendar := congrArg Slalom.calendar slalom

theorem setReg {k : Nat} (h : k ∉ answerKeys) (s : State) (v : Nat) : Noted s (s.setReg k v) :=
  of_parts rfl rfl fun _ mem => State.reg_setReg_other _ _ _ _ (fun e => h (e ▸ mem))

theorem setFld {k : Nat} (h : k ∉ answerKeys) (s : State) (hi lo v : Nat) : Noted s (s.setFld k hi lo v) := setReg h s _

theorem bump {k : Nat} (h : k ∉ answerKeys) (s : State) (n : Nat) : Noted s (s.bump k n) := setReg h s _

/-- CAL_USED stands below the flag of the recomputation. -/
theorem calUsed (s : State) (v : Nat) : Noted s (s.setFld Reg.SLALOM_STATUS 20 0 v) where
  field := rfl
  held := rfl
  heldPlan := rfl
  heldRegion := rfl
  respStat := State.reg_setFld_other _ _ _ _ _ _ (by decide)
  respObl := State.reg_setFld_other _ _ _ _ _ _ (by decide)
  busy := State.flag_setFld_above _ _ _ _ _ _ (by decide) (by decide) (by decide)
  calendar := rfl

theorem raise (s : State) (page i : Nat) : Noted s (s.raise page i) :=
  of_parts (State.raise_signals s page i).slalom (State.raise_signals s page i).field fun k mem =>
    State.raise_still _ _ _ _ (stillKey_answerKeys k mem) (fun e => evRaw_notMem_answerKeys page (e ▸ mem))

theorem log (s : State) (l : Logbook) : Noted s { s with log := l } := of_parts rfl rfl fun _ _ => rfl

theorem ring (s : State) (r : SMap OutcomeEntry) : Noted s { s with slalom := { s.slalom with ring := r } } :=
  ⟨⟨rfl, rfl, rfl, rfl, rfl, rfl, rfl⟩, rfl⟩

theorem late (s : State) (l : List LateCommit) : Noted s { s with slalom := { s.slalom with late := l } } :=
  ⟨⟨rfl, rfl, rfl, rfl, rfl, rfl, rfl⟩, rfl⟩

theorem boot (s : State) (b : Boot) : Noted s { s with boot := b } := of_parts rfl rfl fun _ _ => rfl

/-! ### The Logbook and the outcome ring (R54, R388) -/

theorem sysdata (s : State) (subtype : Nat) (body : List Byte) : Noted s (s.sysdata subtype body) := by
  have frame := s.append_signals 0x29 (leBytes 2 subtype ++ leBytes 2 1 ++ leBytes 4 body.length ++ leBytes 8 s.now ++ body) none 0
  exact of_parts frame.slalom frame.field fun k _ => State.reg_of_regs (State.append_regs_uncharged _ (by decide) _ _ _) k

/-- An entry that the Logbook has no room for is counted by its class, and raises its cause (R388). -/
theorem logDrop (s : State) (cls : Nat) : Noted s ((s.bump (Reg.LOGB_DROP0 + 4 * cls)).raise 0x49 1) :=
  have above : Reg.LOGB_DROP0 + 4 * cls ∉ answerKeys := notMem_answerKeys_of_lt (Nat.lt_of_lt_of_le (by decide) (Nat.le_add_right _ _))
  (bump above s 1).trans (raise _ _ _)

theorem logStore (s : State) (e : LogEntry) : Noted s (s.logStore e) := by
  unfold State.logStore
  split
  · extract_lets e src a b c
    have hb : Noted s b := ((log s _).trans (setReg (by decide) a _)).trans (setFld (by decide) _ _ _ _)
    have hc : Noted s c := hb.trans (.ite (sysdata _ _ _) (refl _))
    exact hc.trans (.ite (raise _ _ _) (refl _))
  · exact logDrop s _

theorem logHold (s : State) (e : LogEntry) : Noted s (s.logHold e) := by
  have put : ∀ q : List LogEntry, Noted s (({ s with log := { s.log with hold := q } } : State).setFld Reg.LOGB_STAT 22 16 q.length) :=
    fun q => (log s _).trans (setFld (by decide) _ _ _ _)
  exact .ite (put _) (.ite (put _) (logDrop s _))

theorem logEntry (s : State) (cls page code data : Nat) : Noted s (s.logEntry cls page code data) := .ite (logHold s _) (logStore s _)

theorem sample (s : State) (i : Nat) (v : Int) : Noted s (s.sample i v) := .ite (refl s) (.ite (bump (by decide) s 1) (log s _))

theorem ringPut (s : State) (e : OutcomeEntry) : Noted s (s.ringPut e) := by
  unfold State.ringPut
  extract_lets wr full src a b c d
  have hb : Noted s b := (ring s (s.slalom.ring.put wr e)).trans (setFld (by decide) a _ _ _)
  have hc : Noted b c := bump (by decide) b 1
  have hd : Noted c d := .ite (setFld (by decide) c _ _ _) (refl c)
  exact .ite (((hb.trans hc).trans hd).trans (raise d _ _)) hb

theorem endSlice (s : State) (id : Nat) (revoked : Bool) : Noted s (s.endSlice id revoked) := by
  unfold State.endSlice
  extract_lets src a
  have ha : Noted s a := boot s _
  exact .ite ((ha.trans (bump (by decide) a 1)).trans (bump (by decide) _ 1)) ha

/-! ### The calendar (R39, R53) -/

theorem calCounts (s : State) : Noted s s.calCounts := by
  unfold State.calCounts
  extract_lets n a b
  have ha : Noted s a := calUsed s n
  have hb : Noted a b := .ite (setFld (by decide) a _ _ _) (refl a)
  exact (ha.trans hb).trans (foldl _ _ (fun s c mem => setFld (classCount_notMem_answerKeys c mem) s _ _ _) b)

end Noted

theorem State.setCalendar_spared (s : State) (c : SMap Obligation) : Spared s (s.setCalendar c) :=
  have same : Spared s { s with slalom := { s.slalom with calendar := c } } := ⟨rfl, rfl, rfl, rfl, rfl, rfl, rfl⟩
  same.trans (Noted.calCounts _).toSpared

theorem State.setCalendar_calendar (s : State) (c : SMap Obligation) : (s.setCalendar c).slalom.calendar = c :=
  (Noted.calCounts _).calendar

/-- Beside what is noted of it, the end of an obligation takes it out of the calendar. -/
theorem State.endObl_noted {s : State} {idx : Nat} {o : Obligation} (h : s.slalom.calendar.find idx = some o) (outcome reason : Nat) :
    Noted (s.setCalendar (s.slalom.calendar.del idx)) (s.endObl idx outcome reason) := by
  unfold State.endObl
  split
  · rename_i missing
    exact absurd (h.symm.trans missing) (by simp)
  · extract_lets id word closed ringed counted sampled src kept logged sliced
    have h1 : Noted closed ringed := .ite (.ringPut _ _) (.refl _)
    have h2 : Noted ringed counted := .ite (.bump (bankKey_notMem_answerKeys _ _) _ _) (.refl _)
    have h3 : Noted counted sampled := .ite (.sample _ _ _) (.refl _)
    have h4 : Noted sampled kept := .ite (.late _ _) (.refl _)
    have h5 : Noted kept logged := .ite ((Noted.logEntry _ _ _ _ _).trans (.raise _ _ _)) (.refl _)
    have h6 : Noted logged sliced := .ite (.endSlice _ _ _) (.refl _)
    have noted : Noted closed sliced := ((((h1.trans h2).trans h3).trans h4).trans h5).trans h6
    exact noted.trans (.ite (.raise _ _ _) (.refl _))

theorem State.endObl_calendar (s : State) (idx outcome reason : Nat) : (s.endObl idx outcome reason).slalom.calendar.find idx = none := by
  cases h : s.slalom.calendar.find idx with
  | none => simp only [State.endObl, h]
  | some o => rw [(State.endObl_noted h outcome reason).calendar, State.setCalendar_calendar, SMap.find_del_same]

theorem State.endObl_spared (s : State) (idx outcome reason : Nat) : Spared s (s.endObl idx outcome reason) := by
  cases h : s.slalom.calendar.find idx with
  | none => simpa only [State.endObl, h] using Spared.refl s
  | some o => exact (s.setCalendar_spared _).trans (State.endObl_noted h outcome reason).toSpared

theorem State.endId_spared (s : State) (id : Option Nat) (outcome reason : Nat) : Spared s (s.endId id outcome reason) := by
  unfold State.endId
  split
  · split
    · exact s.endObl_spared _ _ _
    · exact .refl s
  · exact .refl s

/-! ### Admissions and revocations (R41, R43, R49) -/

theorem State.revokeAll_spared (s : State) (reason : Nat) (l : List Nat) : Spared s (s.revokeAll reason l) := by
  induction l generalizing s with
  | nil => exact .refl s
  | cons i l ih => exact (s.endObl_spared i 1 reason).trans (ih _)

theorem State.revokeLoop_spared (s : State) (fuel : Nat) : Spared s (s.revokeLoop fuel) := by
  induction fuel generalizing s with
  | zero => exact .refl s
  | succ fuel ih =>
    unfold State.revokeLoop
    split
    · exact .refl s
    · split
      · exact .refl s
      · exact (s.endObl_spared _ _ _).trans (ih _)

theorem State.insertObl_spared (s : State) (q : Obligation) : Spared s (s.insertObl q).2 := by
  unfold State.insertObl
  extract_lets n idx g gen o src a
  have ha : Spared s a := ⟨rfl, rfl, rfl, rfl, rfl, rfl, rfl⟩
  exact ha.trans (a.setCalendar_spared _)

/-- An admitted request enters the calendar of the state itself, or after the revocations that its preemption makes (R41, R43). -/
theorem State.admission_admitted {s u : State} {q : Obligation} {id : Nat} (h : s.admission q = .admitted id u) :
    ∃ vs, u = ((s.revokeAll 0x19 vs).insertObl q).2 := by
  unfold State.admission at h
  iterate 6
    split at h
    · cases h
  split at h
  · cases h
    exact ⟨[], rfl⟩
  · split at h
    · split at h
      · cases h
        exact ⟨_, rfl⟩
      · cases h
    · cases h

theorem State.admission_spared {s u : State} {q : Obligation} {id : Nat} (h : s.admission q = .admitted id u) : Spared s u := by
  obtain ⟨vs, rfl⟩ := State.admission_admitted h
  exact (s.revokeAll_spared _ _).trans (State.insertObl_spared _ _)

theorem State.testOwn_spared (s : State) (q : Obligation) : Spared s (s.testOwn q).2 := by
  unfold State.testOwn
  split
  · rename_i h
    exact State.admission_spared h
  · exact .refl s

theorem State.testHeldOwn_spared (s : State) : Spared s s.testHeldOwn := by
  have taken : Spared s { s with slalom := { s.slalom with heldOwn := [] } } := ⟨rfl, rfl, rfl, rfl, rfl, rfl, rfl⟩
  exact taken.trans (.foldl _ State.testOwn_spared _ _)

/-! ### The response to a request (R41) -/

theorem State.respond_stat (s : State) (result reason id efd : Nat) :
    (s.respond result reason id efd).reg Reg.SLALOM_RESP_STAT = (result * 2 ^ 28 + reason * 2 ^ 8) % 2 ^ 32 := by
  rw [State.respond, (Noted.raise _ _ _).respStat, State.setReg64, State.reg_setReg_other _ _ _ _ (by decide),
    State.reg_setReg_other _ _ _ _ (by decide), State.reg_setReg_other _ _ _ _ (by decide), State.reg_setReg]

theorem State.respond_obl (s : State) (result reason id efd : Nat) :
    (s.respond result reason id efd).reg Reg.SLALOM_RESP_OBL = id % 2 ^ 32 := by
  rw [State.respond, (Noted.raise _ _ _).respObl, State.setReg64, State.reg_setReg_other _ _ _ _ (by decide),
    State.reg_setReg_other _ _ _ _ (by decide), State.reg_setReg]

theorem State.startBulk_spared (s : State) (id : Nat) (q : Obligation) : Spared s (s.startBulk id q) := by
  unfold State.startBulk
  split
  · exact s.endId_spared _ _ _
  · exact .refl s

/-- An admitted request that drives no output answers its ID, even where it is complete at once (R37, R41). -/
theorem State.testRequest_admitted {s u : State} {q : Obligation} {id : Nat} (h : s.admission q = .admitted id u) (op : q.op ≠ 0x02) :
    (s.testRequest q).reg Reg.SLALOM_RESP_STAT = 2 ^ 28 ∧ (s.testRequest q).reg Reg.SLALOM_RESP_OBL = id % 2 ^ 32 := by
  have tested : s.testRequest q = (u.respond 1 0 id 0).startBulk id q := by
    simp only [State.testRequest, h, State.startInterlock, if_neg op]
  have bulk := (u.respond 1 0 id 0).startBulk_spared id q
  rw [tested, bulk.respStat, bulk.respObl, State.respond_stat, State.respond_obl]
  exact ⟨rfl, rfl⟩

theorem State.testRequest_refused {s : State} {q : Obligation} {reason efd : Nat} (h : s.admission q = .refused reason efd) :
    (s.testRequest q).reg Reg.SLALOM_RESP_STAT = (2 ^ 29 + reason * 2 ^ 8) % 2 ^ 32 := by
  simp only [State.testRequest, h]
  exact State.respond_stat s 2 reason 0 efd

/-- A write of REQ_GO outside a recomputation, with no test running, tests the request as it stands staged (R41, R44, R52). -/
theorem effReqGo_tests {v : Word} {img : List Byte} {a b : State} (idle : a.flag Reg.SLALOM_RESP_STAT 31 = false)
    (go : v.toNat.testBit 0 = true) (calm : a.flag Reg.SLALOM_STATUS 31 = false) (stored : b = a.store (a.reg Reg.SLALOM_REQ_HANDLE) img)
    (suits : opSuits b.stagedRequest.cls b.stagedRequest.op = true) : effReqGo v img a = .done (b.testRequest b.stagedRequest) := by
  have still : b.flag Reg.SLALOM_STATUS 31 = false := by
    rw [← calm, stored]
    exact State.flag_of_reg (State.reg_of_regs (State.store_regs _ _ _) _) 31
  unfold effReqGo
  rw [if_neg (by simp [idle]), if_neg (by simp [go]), ← stored]
  dsimp only
  rw [if_neg (by simp [suits]), if_neg (by simp [still])]

theorem execReqGo_answer {s a b : State} {t : Angle} {p : Path} {v : Word} {img : List Byte}
    (through : (s.tick t).through p 0x05 0x0D8 true = some a) (done : effReqGo v img a = .done b) :
    ∃ u, execReqGo t p v img s = .next u ∧ u.reg Reg.SLALOM_RESP_STAT = b.reg Reg.SLALOM_RESP_STAT ∧
      u.reg Reg.SLALOM_RESP_OBL = b.reg Reg.SLALOM_RESP_OBL := by
  refine ⟨_, rfl, ?_⟩
  rw [State.hostWrite_through through, done]
  exact ⟨State.finish_done_reg _ _ _ _ _ (by decide), State.finish_done_reg _ _ _ _ _ (by decide)⟩

/-! ### The end of a recomputation (R48) -/

/-- Where no change of a mode waits, none runs (R416). -/
theorem State.heldModes_none {s : State} (plan : s.slalom.heldPlan = none) (region : s.slalom.heldRegion = none) : s.heldModes = s := by
  have same : ∀ x : Slalom, x.heldPlan = none → x.heldRegion = none → { x with heldPlan := none, heldRegion := none } = x := by
    rintro x noPlan noRegion
    cases x
    simp_all
  simp only [State.heldModes, plan, region, same]

theorem Spared.triggers {s u : State} (h : Spared s u) (l : SMap Nat) : Spared s { u with slalom := { u.slalom with triggers := l } } :=
  h.trans ⟨rfl, rfl, rfl, rfl, rfl, rfl, rfl⟩

/-- With no host request and no change of a mode held, neither the flag nor a request is left when the revocations have ended. -/
theorem State.heldModes_ended {s b : State} (hb : Spared s b) (plan : s.slalom.heldPlan = none) (region : s.slalom.heldRegion = none)
    (held : s.slalom.held = none) :
    ((b.setFlag Reg.SLALOM_STATUS 31 false).raise 0x05 1).heldModes.flag Reg.SLALOM_STATUS 31 = false ∧
      ((b.setFlag Reg.SLALOM_STATUS 31 false).raise 0x05 1).heldModes.slalom.held = none := by
  have same : ((b.setFlag Reg.SLALOM_STATUS 31 false).raise 0x05 1).slalom = b.slalom :=
    (State.raise_signals _ _ _).slalom.trans (State.setFlag_slalom _ _ _ _)
  rw [State.heldModes_none (by rw [same, hb.heldPlan, plan]) (by rw [same, hb.heldRegion, region]), (Noted.raise _ _ _).busy,
    State.flag_setFlag_same _ _ _ _ (by decide), same, hb.held, held]
  exact ⟨rfl, rfl⟩

/-- The tests of the firmware's requests neither set the flag nor hold a host request. -/
theorem State.testHeldOwn_ended {c : State} (ended : c.flag Reg.SLALOM_STATUS 31 = false ∧ c.slalom.held = none) :
    c.testHeldOwn.flag Reg.SLALOM_STATUS 31 = false ∧ c.testHeldOwn.slalom.held = none :=
  have tested := c.testHeldOwn_spared
  ⟨tested.busy.trans ended.1, tested.held.trans ended.2⟩

/-- A recomputation that holds no host request and no change of a mode ends with its flag clear. -/
theorem execRecomputeEnd_flag {s : State} {t : Angle} (runs : (s.tick t).flag Reg.SLALOM_STATUS 31 = true)
    (plan : (s.tick t).slalom.heldPlan = none) (region : (s.tick t).slalom.heldRegion = none) (held : (s.tick t).slalom.held = none) :
    ∃ u, execRecomputeEnd t s = .next u ∧ u.flag Reg.SLALOM_STATUS 31 = false := by
  refine ⟨_, rfl, ?_⟩
  rw [if_neg (by simp [runs])]
  have revoked := (s.tick t).revokeLoop_spared ((s.tick t).slalom.calendar.length + 1)
  have ended := State.heldModes_ended (revoked.triggers []) plan region held
  refine iteInduction (motive := fun u : State => u.flag Reg.SLALOM_STATUS 31 = false) (fun _ => ended.1) (fun _ => ?_)
  have tested := State.testHeldOwn_ended ended
  generalize State.testHeldOwn _ = d at tested ⊢
  simp only [tested]

/-! ### Obligations that leave the calendar (R38, R39, R53) -/

theorem State.raiseAlert_slalom (s : State) (page i : Nat) : (s.raiseAlert page i).slalom = s.slalom :=
  (State.alert_signals _ _).slalom.trans (State.raise_signals _ _ _).slalom

/-- An obligation that is open at its deadline, start-up having reached its step 9, leaves the calendar, with event 0 or without. -/
theorem execObligationDeadline_calendar {s : State} {t : Angle} {id : Nat} {o : Obligation} (live : (s.tick t).obl id = some o)
    (due : o.deadline ≤ (s.tick t).now) (started : (s.tick t).boot.done.contains 9 = true) :
    ∃ u, execObligationDeadline t id s = .next u ∧ u.slalom.calendar.find (id % 2 ^ 20) = none := by
  refine ⟨_, rfl, ?_⟩
  simp only [live]
  rw [if_neg (by simp only [started]; simpa using due)]
  refine iteInduction (motive := fun u : State => u.slalom.calendar.find (id % 2 ^ 20) = none) (fun _ => ?_) (fun _ => ?_)
  · exact State.endObl_calendar _ _ _ _
  · rw [State.raiseAlert_slalom]
    exact State.endObl_calendar _ _ _ _

theorem State.detach_calendar (s : State) (id : Nat) (o : Obligation) : (s.detach id o).slalom.calendar = s.slalom.calendar := rfl

theorem State.finish_done_slalom (p : Path) (page off : Nat) (s : State) : (State.finish p page off (.done s)).slalom = s.slalom :=
  (congrArg State.slalom (State.finish_done p page off s)).trans rfl

theorem execCancel_calendar {s a : State} {t : Angle} {p : Path} {v : Word} {o : Obligation}
    (through : (s.tick t).through p 0x05 0x0F0 true = some a) (live : a.obl v.toNat = some o) (host : o.host = true) :
    ∃ u, execCancel t p v s = .next u ∧ u.slalom.calendar.find (v.toNat % 2 ^ 20) = none := by
  have done : effCancel v a = .done ((a.endObl (v.toNat % 2 ^ 20) 4 0).detach v.toNat o) := by
    simp only [effCancel, live, host, if_true]
  refine ⟨_, rfl, ?_⟩
  rw [State.hostWrite_through through, done, State.finish_done_slalom, State.detach_calendar, State.endObl_calendar]

/-! ### Readings that waited too long for cover (R45) -/

/-- A reading of the module's own field that is discarded takes no other one with it. -/
theorem State.dropItem_field (s : State) {c : CoverItem} (own : c.fwd = none) : (s.dropItem c).field = s.field := by
  have counted : Noted s (s.bump Reg.SLALOM_COVER_DROP) := .bump (by decide) s 1
  simp only [State.dropItem, own]
  rw [(Spared.foldl _ (fun s id => s.endId_spared (some id) 1 0x14) _ _).field, counted.field]

theorem State.expireCover_empty {s : State} (h : s.field.cover = []) (fuel : Nat) : s.expireCover fuel = s := by
  cases fuel with
  | zero => rfl
  | succ fuel => simp only [State.expireCover, h]

theorem execCoverWaitExpiry_drops {s : State} {t : Angle} {c : CoverItem} (waits : (s.tick t).field.cover = [c]) (own : c.fwd = none)
    (late : c.cycle + max 2 ((s.tick t).fld Reg.SLALOM_CFG 15 8) ≤ (s.tick t).cycle) :
    ∃ u, execCoverWaitExpiry t s = .next u ∧ u.field.cover = [] := by
  have gone : (((s.tick t).setCover []).dropItem c).field.cover = [] := by
    rw [State.dropItem_field _ own]
    rfl
  refine ⟨_, rfl, ?_⟩
  simp only [waits, State.expireCover]
  rw [if_neg (by omega), State.expireCover_empty gone, gone]

/-! ### The commands -/

theorem execHwmClr_mark {s a : State} {t : Angle} {p : Path} {v : Word} (through : (s.tick t).through p 0x05 0x048 true = some a)
    (clear : v.toNat.testBit 31 = true) :
    ∃ u, execHwmClr t p v s = .next u ∧ u.fld Reg.SLALOM_CAL_HWM 20 0 = a.fld Reg.SLALOM_STATUS 20 0 := by
  have done : effHwmClr v a = .done (a.setFld Reg.SLALOM_CAL_HWM 20 0 (a.fld Reg.SLALOM_STATUS 20 0)) := if_pos clear
  refine ⟨_, rfl, ?_⟩
  rw [State.hostWrite_through through, done, State.fld_eq_of_reg (State.finish_done_reg _ _ _ _ _ (by decide)),
    State.fld_setFld _ _ _ _ _ (by decide) (by decide)]
  exact Nat.mod_mod _ _

/-- Settles O25: each clause from the lemma about its command. -/
theorem slalomCommandsComplete : Obligations.SlalomCommandsComplete := by
  unfold Obligations.SlalomCommandsComplete
  refine ⟨?reqGo, ?cancel, ?hwmClr, ?recomputeEnd, ?deadline, ?coverWait⟩
  case reqGo =>
    intro t p v img s a b through idle go calm stored suits op
    obtain ⟨u, run, stat, obl⟩ := execReqGo_answer (p := p) through (effReqGo_tests idle go calm stored suits)
    refine ⟨u, run, ?_⟩
    rw [stat, obl]
    cases h : b.admission b.stagedRequest with
    | admitted id w => exact State.testRequest_admitted h op
    | refused reason efd => exact State.testRequest_refused h
  case cancel =>
    intro t p v o s a through live host
    exact execCancel_calendar through live host
  case hwmClr =>
    intro t p v s a through clear
    exact execHwmClr_mark through clear
  case recomputeEnd =>
    intro t s runs plan region held
    exact execRecomputeEnd_flag runs plan region held
  case deadline =>
    intro t id o s live due started
    exact execObligationDeadline_calendar live due started
  case coverWait =>
    intro t c s waits own late
    exact execCoverWaitExpiry_drops waits own late

end Sys2Proof.Machine
end

section
/-!
PROOFS. The commands of the line medium (R55, R58, R61, R72, R76, R81, R88) complete with their effect: what their operations leave of the
registers that show it, of the exchanges and of what the module has sent comes first.
-/

namespace Sys2Proof.Machine

/-! ### The registers that show frames and drivers -/

/-- FR_OK of each line lane, STEPCFG, PHTEMP and PHFOLD (Tables 3.8 and 3.11). -/
def lineKeys : List Nat :=
  [Reg.LINE_FR_OK 0, Reg.LINE_FR_OK 1, Reg.LINE_FR_OK 2, Reg.LINE_FR_OK 3, Reg.LINE_FR_OK 4, Reg.LINE_FR_OK 5, Reg.LINEC_STEPCFG,
    Reg.LINEC_PHTEMP, Reg.LINEC_PHFOLD]

/-- The count of valid frames of each lane, the collapse settings, and the temperatures and states of the drivers are as before. -/
def LineShown (s u : State) : Prop := ∀ k ∈ lineKeys, u.reg k = s.reg k

theorem mem_lineKeys {k : Nat} : k ∈ lineKeys ↔
    k = 0x8050 ∨ k = 0x9050 ∨ k = 0xA050 ∨ k = 0xB050 ∨ k = 0xC050 ∨ k = 0xD050 ∨ k = 0xE054 ∨ k = 0xE060 ∨ k = 0xE064 := by
  simp only [lineKeys, List.mem_cons, List.not_mem_nil, or_false]

theorem frOk_mem_lineKeys (lane : Fin 6) : Reg.LINE_FR_OK lane ∈ lineKeys := by
  rw [mem_lineKeys, Reg.LINE_FR_OK]
  omega

theorem stillKey_lineKeys : ∀ k ∈ lineKeys, stillKey k = true := by decide

/-- A line lane's page holds FR_OK alone of them. -/
theorem notMem_lineKeys_of_page {lane off : Nat} (h : lane < 6) (low : off < 0x1000) (other : off ≠ 0x50) :
    0x8000 + off + 0x1000 * lane ∉ lineKeys := by
  rw [mem_lineKeys]
  omega

theorem notMem_lineKeys_of_lt {k : Nat} (h : 0xEFFF < k) : k ∉ lineKeys := by
  rw [mem_lineKeys]
  omega

theorem evRaw_notMem_lineKeys (page : Nat) : evRaw page ∉ lineKeys := by
  rw [mem_lineKeys, evRaw]
  omega

theorem lineStat_notMem_lineKeys (lane : Nat) : Reg.LINE_STAT lane ∉ lineKeys := by
  rw [mem_lineKeys, Reg.LINE_STAT]
  omega

theorem loopAddrStat_notMem_lineKeys (loop addr : Nat) : Reg.LOOP_ADDR_STAT loop addr ∉ lineKeys :=
  notMem_lineKeys_of_lt (by rw [Reg.LOOP_ADDR_STAT]; omega)

namespace LineShown
variable {s u w : State}

theorem refl (s : State) : LineShown s s := fun _ _ => rfl

theorem trans (a : LineShown s u) (b : LineShown u w) : LineShown s w := fun k mem => (b k mem).trans (a k mem)

theorem ite {c : Prop} [Decidable c] (a : LineShown s u) (b : LineShown s w) : LineShown s (if c then u else w) := by
  split
  · exact a
  · exact b

theorem foldl {α : Type} (f : State → α → State) (h : ∀ s a, LineShown s (f s a)) (s : State) (l : List α) :
    LineShown s (l.foldl f s) := fun k mem => foldl_reg k f (fun s a => h s a k mem) s l

theorem of_regs (h : u.regs = s.regs) : LineShown s u := fun k _ => State.reg_of_regs h k

theorem setReg {k : Nat} (h : k ∉ lineKeys) (s : State) (v : Nat) : LineShown s (s.setReg k v) :=
  fun _ mem => State.reg_setReg_other _ _ _ _ (fun e => h (e ▸ mem))

theorem setFld {k : Nat} (h : k ∉ lineKeys) (s : State) (hi lo v : Nat) : LineShown s (s.setFld k hi lo v) := setReg h s _

theorem bump {k : Nat} (h : k ∉ lineKeys) (s : State) (n : Nat) : LineShown s (s.bump k n) := setReg h s _

theorem raise (s : State) (page i : Nat) : LineShown s (s.raise page i) :=
  fun k mem => State.raise_still _ _ _ _ (stillKey_lineKeys k mem) (fun e => evRaw_notMem_lineKeys page (e ▸ mem))

/-! ### What shows the state of a lane (R56, R71, R72) -/

theorem setLineState (s : State) (lane v : Nat) : LineShown s (s.setLineState lane v) := setFld (lineStat_notMem_lineKeys lane) s _ _ _

theorem showSending (s : State) (lane : Nat) : LineShown s (s.showSending lane) :=
  .ite (.ite (setLineState s _ _) (refl s)) (.ite (setLineState s _ _) (refl s))

theorem setDerate (s : State) (lane : Nat) (both : Bool) : LineShown s (s.setDerate lane both) :=
  .ite (refl s) ((setFld (lineStat_notMem_lineKeys lane) s _ _ _).trans (raise _ _ _))

theorem refreshPhase (s : State) (phase : Nat) : LineShown s (s.refreshPhase phase) :=
  (((showSending s _).trans (showSending _ _)).trans (setDerate _ _ _)).trans (setDerate _ _ _)

theorem recomputeOn (s : State) (reason : Nat) (rs : List Nat) : LineShown s (s.recomputeOn reason rs) :=
  have marked : LineShown s (s.setFlag Reg.SLALOM_STATUS 31 true) := setFld (by decide) s _ _ _
  marked.trans (.of_regs (by simp only [State.recomputeOn]))

theorem loseRes (s : State) (r reason : Nat) : LineShown s (s.loseRes r reason) :=
  have lost : LineShown s { s with slalom := { s.slalom with lost := s.slalom.lost.put r reason } } := .of_regs rfl
  lost.trans (recomputeOn _ _ _)

theorem regainRes (s : State) (r : Nat) : LineShown s (s.regainRes r) :=
  have back : LineShown s { s with slalom := { s.slalom with lost := s.slalom.lost.del r } } := .of_regs rfl
  back.trans (recomputeOn _ _ _)

theorem loseLine (s : State) (lane : Nat) : LineShown s (s.loseLine lane) :=
  ((setLineState s _ _).trans (raise _ _ _)).trans (loseRes _ _ _)

/-! ### The receiver of a lane (R65, R66, R70, R79, R87) -/

theorem sample (s : State) (i : Nat) (v : Int) : LineShown s (s.sample i v) :=
  .ite (refl s) (.ite (bump (by decide) s 1) (.of_regs rfl))

theorem pushLevel {key : Nat} (h : key ∉ lineKeys) (s : State) (r : Nat) (v : Int) : LineShown s (s.pushLevel r key v) := by
  have free : ∀ (u : State) (a : Int) (b : Nat), LineShown u (u.divFree a b).2 := fun u a b => .of_regs (by
    unfold State.divFree
    split <;> rfl)
  have put : LineShown s { s with field := { s.field with levels := s.field.levels.put r ((v :: s.field.levels.getD r []).take 64) } } :=
    .of_regs rfl
  exact (put.trans (free _ _ _)).trans (setReg h _ _)

theorem blank (s : State) {lane : Nat} (h : lane < 6) (groups : List (List Int)) : LineShown s (s.blank lane groups).2 := by
  have counts : Reg.LINE_BLANK_SAMP lane ∉ lineKeys := notMem_lineKeys_of_page (off := 0x64) h (by decide) (by decide)
  unfold State.blank
  dsimp only
  split
  · exact refl s
  · exact .trans (.of_regs rfl) (bump counts _ _)

theorem erase (s : State) {lane : Nat} (h : lane < 6) (counts : List Nat) : LineShown s (s.erase lane counts).2 :=
  have erased : Reg.LINE_SYM_ERASED lane ∉ lineKeys := notMem_lineKeys_of_page (off := 0x68) h (by decide) (by decide)
  bump erased s _

theorem decodeHeader (s : State) {lane : Nat} (h : lane < 6) (rx : LineRx) : LineShown s (s.decodeHeader lane rx).2.2 :=
  (blank s h _).trans (erase _ h _)

theorem decodeFrame (s : State) {lane : Nat} (h : lane < 6) (rx : LineRx) (e : List Bool) : LineShown s (s.decodeFrame lane rx e).2 :=
  (blank s h _).trans (erase _ h _)

theorem setLinkGood (s : State) (near far : Nat) (last : Bool) (n : Nat) : LineShown s (s.setLinkGood near far last n) :=
  .ite (.of_regs rfl) (.of_regs rfl)

theorem setLinkMode (s : State) (lane near far : Nat) (last : Bool) (m : Nat) : LineShown s (s.setLinkMode lane near far last m) := by
  unfold State.setLinkMode
  split
  · exact refl s
  · extract_lets src a
    have put : LineShown s a := .ite (.of_regs rfl) (.of_regs rfl)
    exact (put.trans (setLinkGood _ _ _ _ _)).trans (raise _ _ _)

theorem stepLink (s : State) (lane near far : Nat) (last : Bool) (snr : Option Int) : LineShown s (s.stepLink lane near far last snr) :=
  .ite (setLinkGood s _ _ _ _) (.ite ((setLinkGood s _ _ _ _).trans (setLinkMode _ _ _ _ _ _)) (setLinkGood s _ _ _ _))

theorem stepUp (s : State) (lane : Nat) (x : Exchange) (snr : Int) : LineShown s (s.stepUp lane x snr) :=
  .foldl _ (fun s _ => stepLink s _ _ _ _ _) s _

theorem loopAddrStat (s : State) (id : Nat) : LineShown s (s.loopAddrStat id) :=
  .ite (setReg (loopAddrStat_notMem_lineKeys _ _) s _) (refl s)

theorem heardFrom (s : State) (id : Nat) : LineShown s (s.heardFrom id) :=
  have heard : LineShown s (s.modNode id (fun n => { n with miss := 0, heard := s.now })) := .of_regs rfl
  heard.trans (loopAddrStat _ _)

theorem reportLink (s : State) (a b : Nat) (snr : Int) : LineShown s (s.reportLink a b snr) := .of_regs rfl

theorem acceptKlp (s : State) (lane : Nat) (rx : LineRx) (x : Option Exchange) : LineShown s (s.acceptKlp lane rx x) := by
  have bad : LineShown s (s.bump Reg.LINEM_HDR_ERR) := bump (by decide) s 1
  unfold State.acceptKlp
  extract_lets h first n a back b
  have ha : LineShown s a := .ite (.of_regs rfl) (refl s)
  have found : LineShown a ((a.modNode h.node (fun n => { n with state := 3, routeAbs := false, good := 0 })).setLinkMode lane moduleEnd
      h.node true (a.startMode lane)) := .trans (.of_regs rfl) (setLinkMode _ _ _ _ _ _)
  have hb : LineShown s b := ha.trans (.ite found (refl a))
  have heard : LineShown b (if h.ftype = 8 then b else b.heardFrom h.node) := .ite (refl b) (heardFrom b _)
  exact .ite (.ite bad (refl s)) (.ite bad (.ite (bump (by decide) s 1) (.ite (refl s) (.ite (reportLink s _ _ _)
    ((hb.trans heard).trans (reportLink _ _ _ _))))))

end LineShown

/-! ### A frame that passes every check (R61, R67, R78) -/

theorem State.bump_counts (s : State) (k n : Nat) : (s.bump k n).reg k = satAdd 32 (s.reg k) n := by
  have top : satAdd 32 (s.reg k) n ≤ 2 ^ 32 - 1 := Nat.min_le_right _ _
  rw [State.bump, State.reg_setReg, Nat.mod_eq_of_lt (by omega)]

/-- STEPCFG alone says which symbols are low and how many of them are a collapse (Table 3.11). -/
theorem LineShown.collapse {s u : State} (h : LineShown s u) (rx : LineRx) :
    findCollapse u.collN (rx.syms.map (fun y => u.collapsed rx.snr y.2)) 0 =
      findCollapse s.collN (rx.syms.map (fun y => s.collapsed rx.snr y.2)) 0 := by
  have cfg : ∀ hi lo, u.fld Reg.LINEC_STEPCFG hi lo = s.fld Reg.LINEC_STEPCFG hi lo := State.fld_eq_of_reg (h _ (by decide))
  simp only [State.collN, State.collapsed, cfg]

/-- A frame whose symbols do not collapse early and whose check and length agree counts in FR_OK. -/
theorem State.takeLineFrame_counts {s : State} (lane : Fin 6) {rx : LineRx} (check : crc16 rx.payload = rx.check.toNat)
    (length : rx.payload.length = bits 28 20 rx.header.toNat)
    (whole : findCollapse s.collN (rx.syms.map (fun q => s.collapsed rx.snr q.2)) 0 ≠ .early) :
    (s.takeLineFrame lane rx).reg (Reg.LINE_FR_OK lane) = satAdd 32 (s.reg (Reg.LINE_FR_OK lane)) 1 := by
  have ok := frOk_mem_lineKeys lane
  have snr : Reg.LINE_SNR lane ∉ lineKeys := notMem_lineKeys_of_page (off := 0x4C) lane.isLt (by decide) (by decide)
  unfold State.takeLineFrame
  extract_lets h a b c x mark failed counted stepped
  have hb : LineShown s b := (((LineShown.setLineState s _ _).trans (.pushLevel snr _ _ _)).trans (.sample _ _ _)).trans
    (.setFld (lineStat_notMem_lineKeys _) _ _ _ _)
  have hc : c ≠ .early := by rwa [← hb.collapse] at whole
  have hs : LineShown counted stepped := by
    clear_value x
    cases x with
    | some y => exact .stepUp counted _ y _
    | none => exact .refl counted
  rw [if_neg hc, if_neg (by simp [check, length, h]), LineShown.acceptKlp _ _ _ _ _ ok, hs _ ok, LineShown.raise _ _ _ _ ok,
    State.bump_counts, hb _ ok]

/-- A frame that the lane hears in its window, with a valid header, is taken with its payload decoded. -/
theorem execLineFrameReceived_takes {t start : Angle} {lane : Fin 6} {rx h y : LineRx} {e : List Bool} {s b a : State}
    (hears : (s.tick t).lineHears lane rx.ago start.toNat = true) (window : (s.tick t).inWindow lane start.toNat = true)
    (found : rx.found = true) (head : (s.tick t).decodeHeader lane rx = (h, e, b)) (valid : headerFault lane h.header.toNat = .none)
    (frame : b.decodeFrame lane h e = (y, a)) :
    execLineFrameReceived t lane start rx s = .next (a.takeLineFrame lane y) ∧ LineShown (s.tick t) a := by
  have hb := LineShown.decodeHeader (s.tick t) lane.isLt rx
  have ha := LineShown.decodeFrame b lane.isLt h e
  rw [head] at hb
  rw [frame] at ha
  refine ⟨?_, hb.trans ha⟩
  unfold execLineFrameReceived
  simp only [hears, window, found, head, valid, frame, Bool.not_true, Bool.false_eq_true, or_self, if_false]

/-! ### The driver of a phase (R72) -/

theorem LineShown.flag {s u : State} (h : LineShown s u) (i : Nat) : u.flag Reg.LINEC_PHFOLD i = s.flag Reg.LINEC_PHFOLD i :=
  State.flag_of_reg (h _ (by decide)) i

theorem phaseNo_bounds (ph : Phase) : 1 ≤ phaseNo ph ∧ phaseNo ph ≤ 3 := by cases ph <;> decide

/-- Marking a driver in PHFOLD leaves its temperature. -/
theorem State.markFold_temp (s : State) (i : Nat) (b : Bool) :
    (s.setFlag Reg.LINEC_PHFOLD i b).reg Reg.LINEC_PHTEMP = s.reg Reg.LINEC_PHTEMP :=
  State.reg_setFld_other _ _ _ _ _ _ (by decide)

theorem State.foldPhase_temp (s : State) (p : Nat) : (s.foldPhase p).reg Reg.LINEC_PHTEMP = s.reg Reg.LINEC_PHTEMP := by
  unfold State.foldPhase
  split
  · rfl
  · rw [LineShown.refreshPhase _ _ _ (by decide), LineShown.raise _ _ _ _ (by decide), State.markFold_temp]

/-- What a stopped driver brings about, beside its mark in PHFOLD. -/
theorem LineShown.stop (s : State) (a b : Nat) : LineShown s (((s.raise 0x0E 2).loseLine a).loseLine b) :=
  ((raise s _ _).trans (loseLine _ _)).trans (loseLine _ _)

theorem State.stopPhase_temp (s : State) (p : Nat) : (s.stopPhase p).reg Reg.LINEC_PHTEMP = s.reg Reg.LINEC_PHTEMP := by
  unfold State.stopPhase
  split
  · rfl
  · rw [LineShown.stop _ _ _ _ (by decide), State.markFold_temp]

theorem State.stopPhase_stops (s : State) {p : Nat} (h : p ≤ 3) : (s.stopPhase p).flag Reg.LINEC_PHFOLD (3 + p) = true := by
  unfold State.stopPhase
  split
  · assumption
  · rw [(LineShown.stop _ _ _).flag, State.flag_setFlag_same _ _ _ _ (by omega)]

theorem execDriverTemperature_shows (t : Angle) (ph : Phase) (temp : BitVec 8) (clipLower clipUpper : Nat) (s : State) :
    ∃ u, execDriverTemperature t ph temp clipLower clipUpper s = .next u ∧
      u.fld Reg.LINEC_PHTEMP (8 * phaseNo ph - 1) (8 * (phaseNo ph - 1)) = temp.toNat ∧
      (180 < temp.toNat → u.flag Reg.LINEC_PHFOLD (3 + phaseNo ph) = true) := by
  obtain ⟨low, high⟩ := phaseNo_bounds ph
  unfold execDriverTemperature
  extract_lets a p b v c cool src d folded
  have shown : c.fld Reg.LINEC_PHTEMP (8 * p - 1) (8 * (p - 1)) = temp.toNat := by
    have octet : 8 * p - 1 - 8 * (p - 1) + 1 = 8 := by omega
    rw [State.fld_setFld _ _ _ _ _ (by omega) (by omega), octet, Nat.mod_eq_of_lt temp.isLt]
  have kept : folded.reg Reg.LINEC_PHTEMP = c.reg Reg.LINEC_PHTEMP := by
    unfold folded
    split
    · exact State.foldPhase_temp d p
    · rfl
  refine ⟨_, rfl, ?_, fun hot => ?_⟩
  · rw [State.fld_eq_of_reg _, shown]
    split
    · rw [State.stopPhase_temp, kept]
    · exact kept
  · rw [if_pos hot]
    exact State.stopPhase_stops _ high

/-- What follows the end of a fold and of a stop, beside their marks in PHFOLD. -/
theorem LineShown.resume (s : State) (a b : Nat) :
    LineShown s (((((s.raise 0x0E 2).setLineState a 1).setLineState b 1).regainRes a).regainRes b) :=
  (((((raise s _ _).trans (setLineState _ _ _)).trans (setLineState _ _ _)).trans (regainRes _ _)).trans (regainRes _ _))

theorem execPhaseResume_clears {t : Angle} {ph : Phase} {since : Nat} {s : State}
    (cool : (s.tick t).field.coolSince.find (phaseNo ph) = some since) (long : since + 3000 ≤ (s.tick t).cycle) :
    ∃ u, execPhaseResume t ph s = .next u ∧ u.flag Reg.LINEC_PHFOLD (phaseNo ph - 1) = false ∧
      u.flag Reg.LINEC_PHFOLD (3 + phaseNo ph) = false := by
  obtain ⟨low, high⟩ := phaseNo_bounds ph
  unfold execPhaseResume
  extract_lets a p lower stopped folded b c
  rw [cool]
  dsimp only
  rw [if_neg (Nat.not_lt.mpr long)]
  have marks : b.flag Reg.LINEC_PHFOLD (p - 1) = false ∧ b.flag Reg.LINEC_PHFOLD (3 + p) = false := by
    refine ⟨State.flag_setFlag_same _ _ _ _ (by omega), ?_⟩
    rw [State.flag_setFlag_other _ _ _ _ _ (by omega) (by omega), State.flag_setFlag_same _ _ _ _ (by omega)]
  have hc : LineShown b c := .ite ((LineShown.raise _ _ _).trans (.refreshPhase _ _)) (.refl _)
  have resumed := hc.trans (.ite (c := stopped = true) (LineShown.resume c lower (lower + 1)) (.refl c))
  exact ⟨_, rfl, (resumed.flag _).trans marks.1, (resumed.flag _).trans marks.2⟩

/-! ### The exchange on a lane (R76, R88) -/

theorem State.showSending_signals (s : State) (lane : Nat) : Signals s (s.showSending lane) := by
  unfold State.showSending
  dsimp only
  split_ifs
  · exact State.setFld_signals _ _ _ _ _
  · exact .refl s
  · exact State.setFld_signals _ _ _ _ _
  · exact .refl s

theorem State.setDerate_signals (s : State) (lane : Nat) (both : Bool) : Signals s (s.setDerate lane both) := by
  unfold State.setDerate
  dsimp only
  split
  · exact .refl s
  · exact (State.setFld_signals _ _ _ _ _).trans (State.raise_signals _ _ _)

theorem State.refreshPhase_signals (s : State) (phase : Nat) : Signals s (s.refreshPhase phase) :=
  (((State.showSending_signals s _).trans (State.showSending_signals _ _)).trans (State.setDerate_signals _ _ _)).trans
    (State.setDerate_signals _ _ _)

theorem State.shareLevel_signals (s : State) (lane a b : Nat) : Signals s (s.shareLevel lane a b) :=
  .foldl _ (fun s _ => (State.send_signals s _).trans (State.send_signals _ _)) s _

/-- Of the field media, a frame that leaves marks its lane as sending and nothing else. -/
theorem State.sendLine_field (s : State) (lane node ftype mode : Nat) (long : Bool) (cycle : Nat) (octets : List Byte) :
    ∃ spans, (s.sendLine lane node ftype mode long cycle octets).field = { s.field with txSpans := spans } := by
  unfold State.sendLine
  extract_lets pre n a b
  have hb : Signals a b := (State.setFld_signals a _ _ _ _).trans (State.refreshPhase_signals _ _)
  have leaves := ((hb.trans (State.send_signals b (.lineSignal lane (b.laneTick lane cycle) (b.attenuation lane false)
    (lineSymbols b.plan mode lane pre octets)))).trans (State.shareLevel_signals _ lane (b.laneTick lane cycle)
      (b.sendStop lane n cycle))).trans (State.send_signals _ (.line lane node ftype mode octets))
  exact ⟨_, leaves.field⟩

theorem State.sendLine_exchange (s : State) (lane node ftype mode : Nat) (long : Bool) (cycle : Nat) (octets : List Byte) (r : Nat) :
    (s.sendLine lane node ftype mode long cycle octets).exchange r = s.exchange r := by
  obtain ⟨spans, field⟩ := s.sendLine_field lane node ftype mode long cycle octets
  simp only [State.exchange, field]

theorem State.sendLine_node (s : State) (lane node ftype mode : Nat) (long : Bool) (cycle : Nat) (octets : List Byte) (id : Nat) :
    (s.sendLine lane node ftype mode long cycle octets).node id = s.node id := by
  obtain ⟨spans, field⟩ := s.sendLine_field lane node ftype mode long cycle octets
  simp only [State.node, field]

theorem State.setExchange_exchange (s : State) (r : Nat) (x : Exchange) : (s.setExchange r x).exchange r = some x :=
  SMap.find_put_same _ _ _

theorem State.modNode_exchange (s : State) (id : Nat) (f : Node → Node) (r : Nat) : (s.modNode id f).exchange r = s.exchange r := rfl

theorem State.useRoute_exchange (s : State) (rpts : List Nat) (r : Nat) : (s.useRoute rpts).exchange r = s.exchange r :=
  foldl_proj (fun u => u.exchange r) _ (fun u n => u.modNode_exchange n _ r) s rpts

theorem State.placeAttempt_field (s : State) (id r w : Nat) : (s.placeAttempt id r w).field = s.field := by
  unfold State.placeAttempt
  split
  · rfl
  · dsimp only
    split
    · split <;> rfl
    · split <;> rfl

theorem State.beginExchange_exchange (s : State) (r : Nat) (x : Exchange) : (s.beginExchange r x).exchange r = some x := by
  unfold State.beginExchange
  extract_lets a b src c
  have ha : a.exchange r = some x := s.setExchange_exchange r x
  have hb : b.exchange r = some x := by
    unfold b
    split
    · exact ha
    · exact ha
  have hc : c.exchange r = some x := by
    unfold c
    split
    · exact hb
    · exact hb
  split
  · rwa [State.exchange, State.placeAttempt_field]
  · exact hc

theorem Signals.exchange {s u : State} (h : Signals s u) (r : Nat) : u.exchange r = s.exchange r := by
  rw [State.exchange, State.exchange, h.field]

theorem State.startRekey_exchange (s : State) (id r : Nat) : (s.startRekey id).exchange r = s.exchange r := by
  unfold State.startRekey
  dsimp only
  split_ifs
  · exact ((State.bump_signals s _ _).trans (State.raise_signals _ _ _)).exchange r
  · rfl
  · rfl

theorem State.markForced_exchange (s : State) (key r : Nat) : (s.markForced key).exchange r = s.exchange r := by
  unfold State.markForced
  split
  · rfl
  · exact (((State.bump_signals s _ _).trans (State.raise_signals _ _ _)).trans (State.setTxKey_signals _ _ _)).exchange r

theorem State.counterDrawn_exchange (s : State) (id c r : Nat) : (s.counterDrawn id c).exchange r = s.exchange r := by
  unfold State.counterDrawn
  split_ifs
  · rfl
  · exact State.startRekey_exchange s id r
  · rfl
  · rw [State.startRekey_exchange, State.markForced_exchange]

theorem State.leaveSent_exchange (s : State) (x : Exchange) (r : Nat) : (s.leaveSent x).exchange r = s.exchange r := by
  unfold State.leaveSent
  split <;> rfl

/-- The frame of an exchange that can leave opens it: a POLL, or a CMD under a session key that gives a counter. -/
theorem State.sendLineFrame_exchange {s : State} (lane : Nat) {x : Exchange} (goes : x.isCmd = false ∨
    ((s.node x.node).session = true ∧ ∃ c, (s.drawCounter (nodeKey x.node)).1 = .value c)) :
    (s.sendLineFrame lane x).2.exchange lane = some x := by
  unfold State.sendLineFrame
  extract_lets n header mode go
  have opens : ∀ (u : State) (bytes : List Byte), (go u bytes).exchange lane = some x := fun u bytes => by
    unfold go
    rw [State.sendLine_exchange, State.useRoute_exchange, State.modNode_exchange, State.beginExchange_exchange]
  by_cases poll : x.isCmd = false
  · rw [if_pos (by simp [poll])]
    exact opens _ _
  · obtain ⟨session, c, drawn⟩ := goes.resolve_left poll
    rw [if_neg (by simpa using poll), if_neg (by simp [n, session])]
    dsimp only
    rw [drawn]
    dsimp only
    rw [State.leaveSent_exchange, State.counterDrawn_exchange, opens]

/-- What a lane must meet for an exchange to start on it in this cycle (R76). -/
structure LaneFree (s : State) (lane : Nat) : Prop where
  even : s.cycle % 2 = 0
  ready : s.lineReady lane = true
  here : s.startsHere lane = true
  idle : s.exchange lane = none

/-- What an exchange must meet in the state in which it would start: an ACTIVE node of the lane, repeaters in their roles, and cycles that
are clear on both lanes of the phase (R76, R77, R85). -/
structure MayStart (a : State) (lane : Nat) (x : Exchange) : Prop where
  active : (a.node x.node).state = 3
  medium : (a.node x.node).medium = 1
  onLane : (a.node x.node).lane = lane
  roles : a.rolesSet (a.node x.node).route = true
  silent : a.sends lane x.first x.last = false
  unawaited : a.awaits lane x.first x.last = false
  clear : a.lineClear lane x.first x.last = true
  takeback : a.beforeTakeback x.last = true
  sister : a.sisterClash lane x.first x.txLast x.rxFirst x.last = false

theorem execExchangeStart_sends {t : Angle} {lane : Fin 6} {w : Work} {x : Exchange} {s a : State} (free : LaneFree (s.tick t) lane)
    (opened : ((s.tick t).prepareRoute lane w).openExchange lane w (fun s => s.lineExchange lane) = (some x, a))
    (may : MayStart a lane x) : execExchangeStart t lane w s = .next (a.sendLineFrame lane x).2 := by
  unfold execExchangeStart
  dsimp only
  rw [if_neg (by simp only [free.even, free.ready, free.here, free.idle, ne_eq, not_true, Bool.not_true, Bool.false_eq_true,
    Option.isSome_none, or_self, not_false_eq_true]), opened]
  dsimp only
  rw [if_neg (by simp [may.active, may.medium, may.onLane, may.roles, may.silent, may.unawaited, may.clear, may.takeback]),
    if_neg (by simp [may.sister])]

/-! ### A search window (R88) -/

theorem State.node_of_nodes {s u : State} (h : u.field.nodes = s.field.nodes) (id : Nat) : u.node id = s.node id := by
  rw [State.node, State.node, h]

theorem State.node_setNode_same (s : State) (id : Nat) (n : Node) : (s.setNode id n).node id = n := by
  simp only [State.node, State.setNode, SMap.getD, SMap.find_put_same, Option.getD_some]

theorem execSearchWindow_polls {t : Angle} {lane : Fin 6} {id : Nat} {s : State} (ready : (s.tick t).lineReady lane = true)
    (here : (s.tick t).startsHere lane = true) (due : (s.tick t).cycle = (s.tick t).searchStart lane (s.tick t).cycle)
    (next : (s.tick t).searchNode lane = some id) :
    ∃ u, execSearchWindow t lane s = .next u ∧ (u.exchange lane).map (fun x => (x.node, x.search)) = some (id, true) ∧
      (u.node id).forced = false := by
  unfold execSearchWindow
  extract_lets a l txEnd
  rw [if_neg (by simp only [a, l, ready, here, ← due, ne_eq, not_true, Bool.not_true, Bool.false_eq_true, or_self,
    not_false_eq_true]), next]
  dsimp -zeta only
  extract_lets n seq x b src c
  have polled : c.exchange l = some x := State.setExchange_exchange _ _ _
  have nodes : c.field.nodes = (a.setNode id { n with seq := seq, forced := false }).field.nodes := rfl
  refine ⟨_, rfl, ?_, ?_⟩
  · rw [State.sendLine_exchange, polled, Option.map_some]
  · rw [State.sendLine_node, State.node_of_nodes nodes, State.node_setNode_same]

/-! ### What has left stays listed as sent (R55, R84) -/

/-- Whatever the module had sent before is listed still: what follows may send more, and takes nothing back. -/
def StillSent (s u : State) : Prop := s.out ⊆ u.out

namespace StillSent
variable {s u w : State}

theorem of_out (h : u.out = s.out) : StillSent s u := fun _ mem => h ▸ mem

theorem refl (s : State) : StillSent s s := of_out rfl

theorem trans (a : StillSent s u) (b : StillSent u w) : StillSent s w := List.Subset.trans a b

theorem congr_left (b : StillSent u w) (h : u.out = s.out) : StillSent s w := (of_out h).trans b

theorem ite {c : Prop} [Decidable c] (a : StillSent s u) (b : StillSent s w) : StillSent s (if c then u else w) := by
  split
  · exact a
  · exact b

theorem foldl {α : Type} (f : State → α → State) (h : ∀ s a, StillSent s (f s a)) (s : State) (l : List α) :
    StillSent s (l.foldl f s) := by
  induction l generalizing s with
  | nil => exact refl s
  | cons a l ih => exact (h s a).trans (ih _)

theorem send (s : State) (o : Output) : StillSent s (s.send o) := List.subset_cons_self _ _

/-! ### Event lines and their pushes (R426) -/

theorem msiFor (s : State) (n : Nat) : StillSent s (s.msiFor n) :=
  .ite (.of_out rfl) ((send _ _).congr_left rfl)

theorem showLine (s : State) (n : Nat) : StillSent s (s.showLine n) :=
  .ite ((msiFor _ n).congr_left rfl) (.ite (.of_out rfl) (refl s))

theorem updateDoorbell (s0 s : State) : StillSent s (s0.updateDoorbell s) := .ite (refl s) (send s _)

theorem raiseKeep (s : State) (i : Nat) : StillSent s (s.raiseKeep i) :=
  ((showLine _ 41).trans (updateDoorbell s _)).congr_left rfl

theorem sendDatagram (s : State) (peer : Nat) (octets : List Byte) : StillSent s (s.sendDatagram peer octets) := by
  unfold State.sendDatagram
  dsimp only
  split
  · exact .ite (refl s) (send s _)
  · exact send s _

theorem sendSecured (s : State) (sid ftype : Nat) (body : List Byte) : StillSent s (s.sendSecured sid ftype body) := by
  unfold State.sendSecured
  split
  · exact refl s
  · split
    · exact refl s
    · extract_lets k d a
      split
      · extract_lets x
        exact ((sendDatagram _ _ _).trans (send _ _)).congr_left rfl
      · exact (raiseKeep _ 5).congr_left rfl
      · exact (raiseKeep _ 3).congr_left rfl

theorem updateLine (s : State) (n : Nat) : StillSent s (s.updateLine n) := by
  have push : ∀ u : State, StillSent u (u.pushEvt n) := fun u => .foldl _ (fun u _ => .foldl _ (fun u _ => sendSecured u _ _ _) u _) u _
  exact .ite ((showLine s n).trans (push _)) (showLine s n)

theorem raise (s : State) (page i : Nat) : StillSent s (s.raise page i) :=
  ((foldl _ updateLine _ (pageLines page)).trans (updateDoorbell _ _)).congr_left rfl

/-! ### Routes (R84, R85) -/

theorem setNode (s : State) (id : Nat) (n : Node) : StillSent s (s.setNode id n) := .of_out rfl

theorem useRoute (s : State) (rpts : List Nat) : StillSent s (s.useRoute rpts) := .foldl _ (fun s _ => setNode s _ _) s _

theorem startHops (s : State) (lane id : Nat) (rpts : List Nat) : StillSent s (s.startHops lane id rpts) := by
  refine foldl _ (fun s h => ?_) s _
  exact .ite (refl s) (.of_out rfl)

theorem promote (rpts : List Nat) (s : State) (level : Nat) : StillSent s (s.promote rpts level) := by
  induction rpts generalizing s level with
  | nil => exact refl s
  | cons r rpts ih =>
    unfold State.promote
    extract_lets n waits least a b
    have told : StillSent a b := .ite (refl a) (.of_out rfl)
    exact ((setNode s r _).trans told).trans (ih b _)

theorem setRoute (s : State) (id : Nat) (r : Route) : StillSent s (s.setRoute id r) :=
  ((((useRoute s _).trans (useRoute _ _)).trans (startHops _ _ _ _)).trans (setNode _ _ _)).trans (promote _ _ _)

theorem reassess (s : State) (id : Nat) : StillSent s (s.reassess id) := by
  unfold State.reassess
  extract_lets n
  split
  · exact refl s
  · split
    · exact refl s
    · exact .ite ((setRoute s _ _).trans (raise _ _ _)) (setNode s _ _)

theorem reassessLane (s : State) (lane : Nat) : StillSent s (s.reassessLane lane) := by
  refine foldl _ (fun s p => ?_) s _
  exact reassess s p.1

end StillSent

theorem State.sendLine_out (s : State) (lane node ftype mode : Nat) (long : Bool) (cycle : Nat) (octets : List Byte) :
    Output.line lane node ftype mode octets ∈ (s.sendLine lane node ftype mode long cycle octets).out := List.mem_cons_self

/-- A beacon that is due on a lane that is ready leaves, where its group key gives a counter. -/
theorem execBeacon_sends {t : Angle} {lane : Fin 6} {c key : Nat} {s a k : State} (due : (s.tick t).cycle % (s.tick t).lineBcn = 0)
    (ready : (s.tick t).lineReady lane = true) (here : (s.tick t).startsHere lane = true)
    (drawn : (s.tick t).drawGroup 1 lane = (.value c, a)) (secret : a.groupSecretNow (lineGroupKey lane) = (key, k)) :
    ∃ u, execBeacon t lane s = .next u ∧ Output.line lane 0xFFFF 0 3 (klpSecured key 0xFFFF lane c
      (klpHeader 0 1 true false 0xFFFF 0 (s.tick t).cycle 0 []) ((s.tick t).beaconPayload lane)) ∈ u.out := by
  refine ⟨_, rfl, ?_⟩
  rw [if_neg (by simp only [due, ready, here, ne_eq, not_true, Bool.not_true, Bool.false_eq_true, or_self, not_false_eq_true]), drawn]
  dsimp only
  rw [secret]
  exact StillSent.reassessLane _ _ (State.sendLine_out _ _ _ _ _ _ _ _)

/-! ### The commands -/

/-- Settles O27: each clause from the lemma about its command. -/
theorem lineMediumCommandsComplete : Obligations.LineMediumCommandsComplete := by
  unfold Obligations.LineMediumCommandsComplete
  refine ⟨?start, ?received, ?temperature, ?resume, ?beacon, ?search⟩
  case start =>
    intro t lane w x s a even ready here idle opened active medium onLane roles silent unawaited clear takeback sister goes
    exact ⟨_, execExchangeStart_sends ⟨even, ready, here, idle⟩ opened
      ⟨active, medium, onLane, roles, silent, unawaited, clear, takeback, sister⟩, State.sendLineFrame_exchange lane goes⟩
  case received =>
    intro t lane start rx h y e s b a hears window found head valid frame check length whole
    obtain ⟨run, shown⟩ := execLineFrameReceived_takes hears window found head valid frame
    refine ⟨_, run, ?_⟩
    rw [State.takeLineFrame_counts lane check length whole, shown _ (frOk_mem_lineKeys lane)]
  case temperature =>
    intro t ph temp clipLower clipUpper s
    exact execDriverTemperature_shows t ph temp clipLower clipUpper s
  case resume =>
    intro t ph since s cool long
    exact execPhaseResume_clears cool long
  case beacon =>
    intro t lane c key s a k due ready here drawn secret
    exact execBeacon_sends due ready here drawn secret
  case search =>
    intro t lane id s ready here due next
    exact execSearchWindow_polls ready here due next

end Sys2Proof.Machine
end

section
/-!
PROOFS. The line's settings (R81, R82, R88, R92, R93, R108, Table 4.8) complete with their effect: what a pilot window leaves of the twin's state and
of the pilot's, and what each setting's effect is where its rule allows it, come first.
-/

namespace Sys2Proof.Machine

/-! ### A pilot window (R91, R93, R334) -/

/-- What a pilot window finds of the twin's pilot: strong enough, and with the rotation of the pair (R93). -/
def State.pilotSeen (s : State) (rx : Option PilotRx) : Bool :=
  match rx with
  | some x => decide (s.fld Reg.LINEM_PILOTCFG 15 8 ≤ x.corr) && rotMatch x.rot s.pairRot
  | none => false

/-- The pilot's result and the pairing state are shown as before. -/
structure PilotShown (s u : State) : Prop where
  seen : u.flag Reg.LINEM_PILOTSTAT 0 = s.flag Reg.LINEM_PILOTSTAT 0
  pairState : u.pairState = s.pairState

namespace PilotShown
variable {s u w : State}

theorem refl (s : State) : PilotShown s s := ⟨rfl, rfl⟩

theorem trans (a : PilotShown s u) (b : PilotShown u w) : PilotShown s w := ⟨b.seen.trans a.seen, b.pairState.trans a.pairState⟩

theorem ite {c : Prop} [Decidable c] (a : PilotShown s u) (b : PilotShown s w) : PilotShown s (if c then u else w) := by
  split
  · exact a
  · exact b

theorem of_regs (h : u.regs = s.regs) : PilotShown s u :=
  ⟨State.flag_of_reg (State.reg_of_regs h _) _, State.fld_eq_of_reg (State.reg_of_regs h _) _ _⟩

theorem withPairs (s : State) (p : Pairs) : PilotShown s { s with pairs := p } := of_regs rfl

theorem raise (s : State) (page i : Nat) (stat : Reg.LINEM_PILOTSTAT ≠ evRaw page := by decide)
    (pairs : Reg.PAIRS_STAT ≠ evRaw page := by decide) : PilotShown s (s.raise page i) :=
  ⟨State.flag_of_reg (State.raise_still _ _ _ _ (by decide) stat) _, State.fld_eq_of_reg (State.raise_still _ _ _ _ (by decide) pairs) _ _⟩

/-- Bits 31:29 of STAT hold the pairing state alone (Table 16.7). -/
theorem setPairs (s : State) {i : Nat} (b : Bool) (h : i < 29) : PilotShown s (s.setFlag Reg.PAIRS_STAT i b) :=
  ⟨State.flag_of_reg (State.reg_setFld_other _ _ _ _ _ _ (by decide)) _,
    State.fld_setFld_other _ _ _ _ _ _ _ le_rfl (by decide) (by decide) (.inl h)⟩

/-- Beside its bit 0, PILOTSTAT shows what else a window has found (Table 4.11). -/
theorem setPilot (s : State) {i : Nat} (b : Bool) (h : 0 ≠ i) : PilotShown s (s.setFlag Reg.LINEM_PILOTSTAT i b) :=
  ⟨State.flag_setFlag_other _ _ _ _ _ (by decide) h, State.fld_eq_of_reg (State.reg_setFld_other _ _ _ _ _ _ (by decide)) _ _⟩

theorem cancelTakeback (s : State) : PilotShown s s.cancelTakeback := by
  unfold State.cancelTakeback
  split
  · exact refl s
  · dsimp only
    split
    · exact refl s
    · refine .trans ?_ (raise _ 0x4C 4)
      exact (withPairs s _).trans (setPairs _ false (by decide))

theorem setFault (s : State) {i : Nat} (b : Bool) (h : i < 29) : PilotShown s (s.setFault i b) :=
  have marked := (setPairs s b h).trans (raise _ 0x4C 0)
  ite (c := s.flag Reg.PAIRS_STAT i = b) (refl s) (ite (c := b = true) (marked.trans (cancelTakeback _)) marked)

theorem showPilotFault (s : State) : PilotShown s s.showPilotFault := by
  unfold State.showPilotFault
  exact ite (setFault s _ (by decide)) (refl s)

theorem twinFails (s : State) (b : Bool) : PilotShown s (s.twinFails b) :=
  have marked := setPairs s (i := 18) b (by decide)
  ite (marked.trans (cancelTakeback _)) marked

end PilotShown

/-- A window's result shows whether the pilot was seen, and leaves the pairing state. -/
theorem State.pilotResult_shows (s : State) (rx : Option PilotRx) :
    (s.pilotResult rx).flag Reg.LINEM_PILOTSTAT 0 = s.pilotSeen rx ∧ (s.pilotResult rx).pairState = s.pairState := by
  unfold State.pilotResult
  extract_lets seen fail k run seenRun old fault src a b c d
  have shown : (((a.setFld k 31 16 run).setFlag k 0 seen).flag k 0 = s.pilotSeen rx) ∧
      ((a.setFld k 31 16 run).setFlag k 0 seen).pairState = s.pairState :=
    ⟨State.flag_setFlag_same _ _ _ _ (by decide), State.fld_eq_of_reg
      ((State.reg_setFld_other _ _ _ _ _ _ (by decide)).trans (State.reg_setFld_other _ _ _ _ _ _ (by decide))) _ _⟩
  have hb : PilotShown ((a.setFld k 31 16 run).setFlag k 0 seen) b := .setPilot _ _ (by decide)
  have missed : PilotShown b (b.bump Reg.LINEM_PILOT_MISS) :=
    ⟨State.flag_of_reg (State.reg_bump_other _ _ _ _ (by decide)) _, State.fld_eq_of_reg (State.reg_bump_other _ _ _ _ (by decide)) _ _⟩
  have hc : PilotShown b c := .ite (.setPilot _ _ (by decide)) missed
  have hd : PilotShown c d := .ite (.raise _ _ _) (.refl _)
  have after := ((hb.trans hc).trans hd).trans (.ite (c := fail = true) (.raise _ 0x0F 14) (.refl d))
  exact ⟨after.seen.trans shown.1, after.pairState.trans shown.2⟩

/-- Only a STANDBY twin evaluates the takeover condition (R334). -/
theorem State.evaluateTakeover_active {s : State} (h : s.pairState = 1) : s.evaluateTakeover = s :=
  if_pos (by rw [h]; decide)

/-- What a pilot symbol sent leaves: all but what has left. -/
theorem State.sendPilot_shows (s : State) (rot at' : Nat) (fail : Bool) (rx : Option PilotRx) :
    (s.sendPilot rot at' fail).pilotSeen rx = s.pilotSeen rx ∧ (s.sendPilot rot at' fail).pairState = s.pairState := ⟨rfl, rfl⟩

theorem execPilotWindow_sends {t : Angle} {rx : Option PilotRx} {s : State} (on : (s.tick t).pilotOn = true) (plan : (s.tick t).plan ≠ 0)
    (active : (s.tick t).pairState = 1) (off : (s.tick t).cycle % 8 ≠ 0) :
    ∃ u, execPilotWindow t rx s = .next u ∧
      (if (s.tick t).flag Reg.LINEC_PHFOLD (3 + (s.tick t).pilotPhase) then u.out = (s.tick t).out
        else u.out.head? = some (.pilot (s.tick t).pilotPhase (s.tick t).pairs.failing)) := by
  unfold execPilotWindow
  generalize s.tick t = a at on plan active off ⊢
  extract_lets b eighth act start sent
  refine ⟨sent, ?_, ?_⟩
  · rw [if_neg (by simp [b, on, plan]), if_pos (by simp [b, act, eighth, active, off])]
  · unfold sent
    cases stopped : a.flag Reg.LINEC_PHFOLD (3 + a.pilotPhase) with
    | true =>
      rw [if_pos rfl, if_neg (by simp)]
    | false =>
      rw [if_neg (by decide), if_pos (by simp [b, act, active])]
      rfl

/-- In every eighth cycle the ACTIVE twin takes the result of its window, and does not take over. -/
theorem execPilotWindow_listens {t : Angle} {rx : Option PilotRx} {s : State} (on : (s.tick t).pilotOn = true) (plan : (s.tick t).plan ≠ 0)
    (active : (s.tick t).pairState = 1) (eighth : (s.tick t).cycle % 8 = 0) :
    ∃ u, execPilotWindow t rx s = .next u ∧ u.flag Reg.LINEM_PILOTSTAT 0 = (s.tick t).pilotSeen rx := by
  unfold execPilotWindow
  generalize s.tick t = a at on plan active eighth ⊢
  extract_lets b at8 act start sent shown seen failed src taken
  refine ⟨_, rfl, ?_⟩
  have hsent : sent.pilotSeen rx = a.pilotSeen rx ∧ sent.pairState = a.pairState := by
    unfold sent
    split
    · exact a.sendPilot_shows _ _ _ rx
    · exact ⟨rfl, rfl⟩
  obtain ⟨found, pairs⟩ := sent.pilotResult_shows rx
  have hshown : PilotShown (sent.pilotResult rx) shown := .showPilotFault _
  have htaken : PilotShown shown taken := .ite ((PilotShown.twinFails shown _).trans (.withPairs _ _)) (.refl shown)
  have after := hshown.trans htaken
  have still : taken.pairState = 1 := by rw [after.pairState, pairs, hsent.2, active]
  rw [if_neg (by simp [b, on, plan]), if_neg (by simp [b, at8, eighth]), State.evaluateTakeover_active still, after.seen, found, hsent.1]

/-! ### The settings of the pilot and of the beacons (R81, R88, R92, R108) -/

/-- A frame start angle that keeps its phase's first symbol out of the pilot window is written as any register. -/
theorem effPilotConfig_angle {reg : Nat} {v : Word} {a : State} (angle : reg ≠ 0)
    (clear : reg = a.pilotPhase → a.pilotClash reg (bits 15 0 v.toNat) = false) :
    effPilotConfig reg v a = a.plainWrite 0x0E (0x040 + 4 * reg) v := by
  unfold effPilotConfig
  rw [if_neg angle, if_neg]
  rintro ⟨phase, clash⟩
  exact absurd clash (by rw [clear phase]; decide)

/-- PILOTCFG is written as any register where it is locked, or where its phase's first symbol stays out of the window. -/
theorem effPilotConfig_config {v : Word} {a : State} {ph : Nat} (phase : ph = (if bits 17 16 v.toNat = 0 then 3 else bits 17 16 v.toNat))
    (clear : a.locked 0x0F = true ∨ a.pilotClash ph (a.fld (Reg.LINEC_FSA_P1 + 4 * (ph - 1)) 15 0) = false) :
    effPilotConfig 0 v a = a.plainWrite 0x0F 0x050 v := by
  unfold effPilotConfig
  rw [if_pos rfl]
  dsimp only
  rw [← phase, if_neg]
  rcases clear with locked | clear
  · simp [locked]
  · simp [clear]

theorem State.recomputeOn_reg (s : State) (reason : Nat) (rs : List Nat) {k : Nat} (h : k ≠ Reg.SLALOM_STATUS) :
    (s.recomputeOn reason rs).reg k = s.reg k := by
  have regs : (s.recomputeOn reason rs).regs = (s.setFlag Reg.SLALOM_STATUS 31 true).regs := by simp only [State.recomputeOn]
  rw [State.reg_of_regs regs, State.setFlag, State.reg_setFld_other _ _ _ _ _ _ h]

theorem State.recomputeOn_trigger (s : State) (reason : Nat) (rs : List Nat) : (s.recomputeOn reason rs).slalom.trigger = reason := rfl

/-- An accepted beacon setting stands as it was written, and recomputes where it changes the beacons. -/
structure SettingTaken (changes : Prop) (key : Nat) (b : State) (r : WriteResult) : Prop where
  accepted : ∃ w, r = .done w ∧ w.reg key = b.reg key ∧ (changes → w.slalom.trigger = 0x10)

theorem SettingTaken.same {changes : Prop} (b : State) (key : Nat) (h : ¬ changes) : SettingTaken changes key b (.done b) :=
  ⟨b, rfl, rfl, fun c => absurd c h⟩

theorem SettingTaken.recomputes {changes : Prop} (b : State) {key : Nat} (rs : List Nat) (h : key ≠ Reg.SLALOM_STATUS) :
    SettingTaken changes key b (.done (b.recomputeOn 0x10 rs)) :=
  ⟨_, rfl, b.recomputeOn_reg _ _ h, fun _ => b.recomputeOn_trigger _ _⟩

theorem effBeaconConfig_line {v : Word} {a b : State} (written : a.plainWrite 0x0F 0x044 v = .done b)
    (allowed : (b.lineBcn = a.lineBcn ∧ b.lineJoinN = a.lineJoinN ∧ b.levelMax = a.levelMax) ∨
      (a.linesDisabled = true ∧ b.searchFits = true)) :
    SettingTaken (¬(b.lineBcn = a.lineBcn ∧ b.lineJoinN = a.lineJoinN ∧ b.levelMax = a.levelMax)) Reg.LINEM_BCNCFG b
      (effBeaconConfig 0 v a) := by
  unfold effBeaconConfig
  rw [if_pos rfl, written]
  dsimp only
  by_cases same : b.lineBcn = a.lineBcn ∧ b.lineJoinN = a.lineJoinN ∧ b.levelMax = a.levelMax
  · rw [if_pos same]
    exact .same b _ (not_not_intro same)
  · obtain ⟨disabled, fits⟩ := allowed.resolve_left same
    rw [if_neg same, if_neg (by simp [disabled]), if_pos fits]
    exact .recomputes b _ (by decide)

theorem effBeaconConfig_air {v : Word} {a b : State} (written : a.plainWrite 0x13 0x044 v = .done b)
    (allowed : (b.airBcn = a.airBcn ∧ b.airJoinN = a.airJoinN) ∨ a.airsDisabled = true) :
    SettingTaken (¬(b.airBcn = a.airBcn ∧ b.airJoinN = a.airJoinN)) Reg.AIRM_BCNCFG b (effBeaconConfig 2 v a) := by
  unfold effBeaconConfig
  rw [if_neg (by decide), if_neg (by decide), written]
  dsimp only
  by_cases same : b.airBcn = a.airBcn ∧ b.airJoinN = a.airJoinN
  · rw [if_pos same]
    exact .same b _ (not_not_intro same)
  · rw [if_neg same, if_neg (by simp [allowed.resolve_left same])]
    exact .recomputes b _ (by decide)

theorem effBeaconConfig_preamble {v : Word} {a b : State} (written : a.plainWrite 0x0E 0x05C v = .done b) (fits : b.searchFits = true) :
    effBeaconConfig 1 v a = .done b := by
  unfold effBeaconConfig
  rw [if_neg (by decide), if_pos rfl, written]
  exact if_pos fits

/-- A setting that its effect takes stands so after the write's finish. -/
theorem SettingTaken.finish {changes : Prop} {key : Nat} {b : State} {r : WriteResult} (h : SettingTaken changes key b r) (p : Path)
    {page off : Nat} (seq : key ≠ page * 0x1000 + 0x030) :
    (State.finish p page off r).reg key = b.reg key ∧ (changes → (State.finish p page off r).slalom.trigger = 0x10) := by
  obtain ⟨w, rfl, word, trigger⟩ := h.accepted
  rw [State.finish_done_reg _ _ _ _ _ seq, State.finish_done_slalom]
  exact ⟨word, trigger⟩

/-! ### The node table (Table 4.8) -/

/-- Persisting a node's record leaves every node. -/
theorem State.persistNode_field (s : State) (id : Nat) : (s.persistNode id).field = s.field := (s.persistNode_signals id).field

theorem State.node_of_field {s u : State} (h : u.field = s.field) (id : Nat) : u.node id = s.node id :=
  State.node_of_nodes (congrArg Field.nodes h) id

theorem State.setNode_persist_node (s : State) (id : Nat) (n : Node) : ((s.setNode id n).persistNode id).node id = n := by
  rw [State.node_of_field (State.persistNode_field _ _), State.node_setNode_same]

/-- The selected record of a NODE_CTL command with the KEYSLOT that it writes. -/
def State.selectedNode (a : State) (v : Word) : Node := { a.node (a.fld Reg.LINEM_NODE_SEL 12 0) with keyslot := v.toNat % 256 }

/-- After a write of NODE_CTL that is accepted, the nodes are those of its effect. -/
theorem nodeCtl_node {t : Angle} {p : Path} {v : Word} {s a b : State} {cmd : Nat} (through : (s.tick t).through p 0x0F 0x08C true = some a)
    (done : effNodeCtl cmd v a = .done b) (id : Nat) : ((s.tick t).hostWrite p 0x0F 0x08C (effNodeCtl cmd v)).node id = b.node id := by
  rw [State.hostWrite_through through, done]
  exact State.node_of_field (State.finish_field p 0x0F 0x08C (.done b)) id

theorem effNodeCtl_provision {v : Word} {a : State} (free : (a.node (a.fld Reg.LINEM_NODE_SEL 12 0)).state = 0)
    (unknown : a.findSerial (a.node (a.fld Reg.LINEM_NODE_SEL 12 0)).serial = none) :
    effNodeCtl 1 v a = .done ((a.setNode (a.fld Reg.LINEM_NODE_SEL 12 0) { a.selectedNode v with state := 1 }).persistNode
      (a.fld Reg.LINEM_NODE_SEL 12 0)) := by
  unfold effNodeCtl
  dsimp only
  rw [if_pos rfl, if_neg (by simp [free]), unknown]
  rfl

theorem effNodeCtl_bar {v : Word} {a : State} (idle : a.targeted (a.fld Reg.LINEM_NODE_SEL 12 0) = false)
    (held : (a.node (a.fld Reg.LINEM_NODE_SEL 12 0)).state ≠ 0) (unbarred : (a.node (a.fld Reg.LINEM_NODE_SEL 12 0)).state ≠ 5) :
    effNodeCtl 2 v a = .done ((a.setNode (a.fld Reg.LINEM_NODE_SEL 12 0) { a.selectedNode v with
      state := 5, medium := 0, lane := 7, session := false, join := none }).persistNode (a.fld Reg.LINEM_NODE_SEL 12 0)) := by
  unfold effNodeCtl
  dsimp only
  rw [if_neg (by decide), if_pos rfl, if_neg (by simp [idle]), if_neg (by simp [held, unbarred])]
  rfl

theorem effNodeCtl_release {v : Word} {a : State}
    (may : (a.node (a.fld Reg.LINEM_NODE_SEL 12 0)).state = 1 ∨ (a.node (a.fld Reg.LINEM_NODE_SEL 12 0)).state = 5) :
    effNodeCtl 3 v a = .done ((a.setNode (a.fld Reg.LINEM_NODE_SEL 12 0) {}).persistNode (a.fld Reg.LINEM_NODE_SEL 12 0)) := by
  unfold effNodeCtl
  dsimp only
  rw [if_neg (by decide), if_neg (by decide), if_pos rfl, if_pos may]

theorem effNodeCtl_search {v : Word} {a : State} (absent : (a.node (a.fld Reg.LINEM_NODE_SEL 12 0)).state = 4) :
    effNodeCtl 4 v a = .done (a.setNode (a.fld Reg.LINEM_NODE_SEL 12 0) { a.selectedNode v with forced := true }) := by
  unfold effNodeCtl
  dsimp only
  rw [if_neg (by decide), if_neg (by decide), if_neg (by decide), if_pos rfl, if_pos absent]
  rfl

/-! ### The commands -/

/-- Settles O29: each clause from the lemma about its effect. -/
theorem lineSettingsComplete : Obligations.LineSettingsComplete := by
  unfold Obligations.LineSettingsComplete
  refine ⟨?sends, ?listens, ?angle, ?config, ?lineBeacon, ?preamble, ?airBeacon, ?provision, ?bar, ?release, ?search⟩
  case sends =>
    intro t rx s on plan active off
    exact execPilotWindow_sends on plan active off
  case listens =>
    intro t rx s on plan active eighth
    exact execPilotWindow_listens on plan active eighth
  case angle =>
    intro t p reg v s a b angle through clear written
    refine ⟨(s.tick t).hostWrite p 0x0E (0x040 + 4 * reg.val) (effPilotConfig reg.val v), congrArg Host.Outcome.next (if_neg angle), ?_⟩
    rw [State.hostWrite_through through, effPilotConfig_angle angle clear, written, State.finish_done_reg _ _ _ _ _ (by
      simp only [Reg.LINEC_FSA_P1]
      omega)]
  case config =>
    intro t p v ph s a b through phase clear written
    refine ⟨(s.tick t).hostWrite p 0x0F 0x050 (effPilotConfig 0 v), rfl, ?_⟩
    rw [State.hostWrite_through through, effPilotConfig_config phase clear, written, State.finish_done_reg _ _ _ _ _ (by decide)]
  case lineBeacon =>
    intro t p v s a b through written allowed
    refine ⟨(s.tick t).hostWrite p 0x0F 0x044 (effBeaconConfig 0 v), rfl, ?_⟩
    rw [State.hostWrite_through through]
    exact (effBeaconConfig_line written allowed).finish p (by decide)
  case preamble =>
    intro t p v s a b through written fits
    refine ⟨(s.tick t).hostWrite p 0x0E 0x05C (effBeaconConfig 1 v), rfl, ?_⟩
    rw [State.hostWrite_through through, effBeaconConfig_preamble written fits, State.finish_done_reg _ _ _ _ _ (by decide)]
  case airBeacon =>
    intro t p v s a b through written allowed
    refine ⟨(s.tick t).hostWrite p 0x13 0x044 (effBeaconConfig 2 v), rfl, ?_⟩
    rw [State.hostWrite_through through]
    exact (effBeaconConfig_air written allowed).finish p (by decide)
  case provision =>
    intro t p v s a through free unknown
    refine ⟨_, rfl, ?_⟩
    rw [nodeCtl_node through (effNodeCtl_provision free unknown), State.setNode_persist_node]
    exact ⟨rfl, rfl⟩
  case bar =>
    intro t p v s a through idle held unbarred
    refine ⟨_, rfl, ?_⟩
    rw [nodeCtl_node through (effNodeCtl_bar idle held unbarred), State.setNode_persist_node]
  case release =>
    intro t p v s a through may
    refine ⟨_, rfl, ?_⟩
    rw [nodeCtl_node through (effNodeCtl_release may), State.setNode_persist_node]
  case search =>
    intro t p v s a through absent
    refine ⟨_, rfl, ?_⟩
    rw [nodeCtl_node through (effNodeCtl_search absent), State.node_setNode_same]

end Sys2Proof.Machine
end

section
/-!
PROOFS. Joins, responses, misses and repeaters (R37, R80, R82, R83, R85 to R87, R90) complete with their effect: what routes, obligations, firmware
commands and keys leave of the nodes and of the open exchanges comes first.
-/

namespace Sys2Proof.Machine

/-! ### What obligations, keys and firmware commands leave of the field media -/

theorem State.request_field (s : State) (q : Obligation) : (s.request q).2.field = s.field := by
  unfold State.request
  split
  · rfl
  · exact (s.testOwn_spared q).field

theorem State.groupSecret_field (s : State) (key gen : Nat) : (s.groupSecret key gen).2.field = s.field := by
  unfold State.groupSecret
  split <;> rfl

theorem State.sendGkey_field (s : State) (id key gen cycle : Nat) : (s.sendGkey id key gen cycle).field = s.field :=
  (State.request_field _ _).trans (s.groupSecret_field key gen)

theorem State.turnGroup_field (s : State) (key : Nat) : (s.turnGroup key).field = s.field := by
  unfold State.turnGroup
  split
  · split <;> rfl
  · rfl

theorem State.sendGroupKeys_field (s : State) (id medium lane : Nat) : (s.sendGroupKeys id medium lane).field = s.field := by
  have current : ∀ gen cycle, ((s.turnGroup (groupKey medium lane)).sendGkey id (groupKey medium lane) gen cycle).field = s.field :=
    fun _ _ => (State.sendGkey_field _ _ _ _ _).trans (s.turnGroup_field _)
  unfold State.sendGroupKeys
  dsimp only
  split
  · rw [State.sendGkey_field, current]
  · exact current _ _

theorem State.recomputeOn_field (s : State) (reason : Nat) (rs : List Nat) : (s.recomputeOn reason rs).field = s.field := by
  unfold State.recomputeOn
  dsimp only
  rw [State.setFlag_field]

theorem State.moveWork_field (s : State) (id : Nat) : (s.moveWork id).field = s.field :=
  (State.recomputeOn_field _ _ _).trans (s.setCalendar_spared _).field

theorem State.raise_field (s : State) (page i : Nat) : (s.raise page i).field = s.field := (s.raise_signals page i).field

theorem State.joinCause_field (s : State) (medium lane b : Nat) : (s.joinCause medium lane b).field = s.field := by
  unfold State.joinCause
  split <;> exact State.raise_field _ _ _

theorem State.modId_field (s : State) (id : Nat) (f : Obligation → Obligation) : (s.modId id f).field = s.field := by
  unfold State.modId
  split <;> rfl

theorem State.releaseWork_field (s : State) (node : Nat) : (s.releaseWork node).field = s.field := (s.setCalendar_spared _).field

theorem State.settleShare_field (s : State) (r : Nat) (waiting : List (Nat × Obligation)) : (s.settleShare r waiting).field = s.field := by
  refine (Spared.foldl _ (fun s p => ?_) s waiting).field
  split
  · exact .refl s
  · exact s.endId_spared _ _ _

theorem State.drawRetry_field (s : State) (id r : Nat) (t : Retry) : (s.drawRetry id r t).field = s.field := by
  unfold State.drawRetry
  split
  · rfl
  · split
    · rfl
    · split
      · exact (s.endId_spared _ _ _).field
      · exact State.settleShare_field _ _ _
    · exact (s.endId_spared _ _ _).field

theorem State.countRetry_field (s : State) (r : Nat) : (s.countRetry r).field = s.field := by
  unfold State.countRetry
  split <;> rfl

theorem State.loopAddrStat_field (s : State) (id : Nat) : (s.loopAddrStat id).field = s.field := by
  unfold State.loopAddrStat
  dsimp only
  split
  · exact State.setReg_field _ _ _
  · rfl

theorem State.absentCause_field (s : State) (n : Node) : (s.absentCause n).field = s.field := by
  unfold State.absentCause
  split
  · exact State.raise_field _ _ _
  · split <;> exact State.raise_field _ _ _

theorem State.settleObl_field (s : State) (id : Nat) : (s.settleObl id).field = s.field := by
  unfold State.settleObl
  split
  · rfl
  · split
    · exact (s.endId_spared _ _ _).field
    · rfl

theorem State.journalEvent_field (s : State) (type low : Nat) (body : List Byte) : (s.journalEvent type low body).field = s.field :=
  (s.append_signals 0x05 _ none 0).field

/-! ### What a change of routes leaves (R67, R70, R84, R85) -/

theorem State.node_setNode (s : State) (id : Nat) (n : Node) (j : Nat) : (s.setNode id n).node j = if j = id then n else s.node j := by
  split
  · rename_i h
    rw [h, State.node_setNode_same]
  · rename_i h
    simp only [State.node, State.setNode, SMap.getD, SMap.find_put_other _ _ _ _ h]

/-- The open exchanges, and each node's state and session, are as before. -/
structure Rerouted (s u : State) : Prop where
  exch : u.field.exch = s.field.exch
  standing : ∀ id, (u.node id).state = (s.node id).state ∧ (u.node id).session = (s.node id).session ∧ (u.node id).key = (s.node id).key

namespace Rerouted
variable {s u w : State}

theorem refl (s : State) : Rerouted s s := ⟨rfl, fun _ => ⟨rfl, rfl, rfl⟩⟩

theorem trans (a : Rerouted s u) (b : Rerouted u w) : Rerouted s w where
  exch := b.exch.trans a.exch
  standing := fun id => by
    obtain ⟨state, session, key⟩ := a.standing id
    rw [← state, ← session, ← key]
    exact b.standing id

theorem ite {c : Prop} [Decidable c] (a : Rerouted s u) (b : Rerouted s w) : Rerouted s (if c then u else w) := by
  split
  · exact a
  · exact b

theorem foldl {α : Type} (f : State → α → State) (h : ∀ s a, Rerouted s (f s a)) (s : State) (l : List α) : Rerouted s (l.foldl f s) := by
  induction l generalizing s with
  | nil => exact refl s
  | cons a l ih => exact (h s a).trans (ih _)

theorem of_parts (nodes : u.field.nodes = s.field.nodes) (exch : u.field.exch = s.field.exch) : Rerouted s u where
  exch := exch
  standing := fun id => by rw [State.node_of_nodes nodes]; exact ⟨rfl, rfl, rfl⟩

theorem of_field (h : u.field = s.field) : Rerouted s u := of_parts (congrArg Field.nodes h) (congrArg Field.exch h)

/-- A node's record may change in all but its state and its session. -/
theorem setNode (s : State) (id : Nat) (n : Node) (h : n.state = (s.node id).state ∧ n.session = (s.node id).session ∧
    n.key = (s.node id).key := by exact ⟨rfl, rfl, rfl⟩) : Rerouted s (s.setNode id n) where
  exch := rfl
  standing := fun j => by
    rw [State.node_setNode]
    split
    · rename_i e
      rw [e]
      exact h
    · exact ⟨rfl, rfl, rfl⟩

theorem raise (s : State) (page i : Nat) : Rerouted s (s.raise page i) := of_field (State.raise_field s page i)

theorem useRoute (s : State) (rpts : List Nat) : Rerouted s (s.useRoute rpts) :=
  foldl _ (fun s _ => setNode s _ _) s rpts

theorem startHops (s : State) (lane id : Nat) (rpts : List Nat) : Rerouted s (s.startHops lane id rpts) := by
  refine foldl _ (fun s h => ?_) s _
  exact ite (refl s) (of_parts rfl rfl)

theorem promote (rpts : List Nat) (s : State) (level : Nat) : Rerouted s (s.promote rpts level) := by
  induction rpts generalizing s level with
  | nil => exact refl s
  | cons r rpts ih =>
    unfold State.promote
    extract_lets n waits least a b
    have told : Rerouted a b := ite (refl a) (of_parts rfl rfl)
    exact ((setNode s r _).trans told).trans (ih b _)

theorem setRoute (s : State) (id : Nat) (r : Route) : Rerouted s (s.setRoute id r) :=
  ((((useRoute s _).trans (useRoute _ _)).trans (startHops _ _ _ _)).trans (setNode _ _ _)).trans (promote _ _ _)

theorem setLinkGood (s : State) (near far : Nat) (last : Bool) (n : Nat) : Rerouted s (s.setLinkGood near far last n) :=
  ite (setNode s _ _) (of_parts rfl rfl)

theorem setLinkMode (s : State) (lane near far : Nat) (last : Bool) (m : Nat) : Rerouted s (s.setLinkMode lane near far last m) := by
  unfold State.setLinkMode
  split
  · exact refl s
  · extract_lets src a
    have put : Rerouted s a := ite (setNode s _ _) (of_parts rfl rfl)
    exact (put.trans (setLinkGood _ _ _ _ _)).trans (raise _ _ _)

theorem reassess (s : State) (id : Nat) : Rerouted s (s.reassess id) := by
  unfold State.reassess
  extract_lets n
  split
  · exact refl s
  · split
    · exact refl s
    · exact ite ((setRoute s _ _).trans (raise _ _ _)) (setNode s _ _)

theorem reassessLane (s : State) (lane : Nat) : Rerouted s (s.reassessLane lane) := by
  refine foldl _ (fun s p => ?_) s _
  exact reassess s p.1

theorem exchange (h : Rerouted s u) (r : Nat) : u.exchange r = s.exchange r := congrArg (SMap.find · r) h.exch

end Rerouted

/-! ### What a failed exchange leaves of the open ones (R68, R87, R90) -/

/-- The open exchanges are as before. -/
def SameExchanges (s u : State) : Prop := u.field.exch = s.field.exch

namespace SameExchanges
variable {s u w : State}

theorem refl (s : State) : SameExchanges s s := rfl

theorem trans (a : SameExchanges s u) (b : SameExchanges u w) : SameExchanges s w := Eq.trans b a

theorem ite {c : Prop} [Decidable c] (a : SameExchanges s u) (b : SameExchanges s w) : SameExchanges s (if c then u else w) := by
  split
  · exact a
  · exact b

theorem foldl {α : Type} (f : State → α → State) (h : ∀ s a, SameExchanges s (f s a)) (s : State) (l : List α) :
    SameExchanges s (l.foldl f s) := foldl_proj (fun u => u.field.exch) f h s l

theorem of_field (h : u.field = s.field) : SameExchanges s u := congrArg Field.exch h

theorem setNode (s : State) (id : Nat) (n : Node) : SameExchanges s (s.setNode id n) := rfl

theorem setAbsent (s : State) (id : Nat) (route : Bool) : SameExchanges s (s.setAbsent id route) := by
  unfold State.setAbsent
  dsimp only
  split
  · exact refl s
  · exact (((setNode s id _).trans (of_field (State.loopAddrStat_field _ _))).trans (of_field (State.releaseWork_field _ _))).trans
      (of_field (State.absentCause_field _ _))

theorem markAbsent (s : State) (id : Nat) : SameExchanges s (s.markAbsent id) := by
  unfold State.markAbsent
  extract_lets n a b
  have ha : SameExchanges s a := setAbsent s id false
  have hb : SameExchanges a b := (Rerouted.reassessLane a _).exch
  refine ite ha ((ha.trans hb).trans (foldl _ (fun s p => ?_) b _))
  exact ite (setAbsent s p.1 true) (refl s)

theorem miss (s : State) (id : Nat) : SameExchanges s (s.miss id) :=
  have counted := (setNode s id _).trans (of_field (State.loopAddrStat_field _ id))
  ite (counted.trans (markAbsent _ id)) counted

theorem scheduleRetry (s : State) (r : Nat) (x : Exchange) : SameExchanges s (s.scheduleRetry r x) := by
  have again : ∀ l : List FirmwareCmd, SameExchanges s (State.countRetry { s with field := { s.field with firmware := l } } r) := fun l =>
    SameExchanges.trans (u := { s with field := { s.field with firmware := l } }) rfl (of_field (State.countRetry_field _ r))
  unfold State.scheduleRetry
  refine ite (refl s) (ite (ite (refl s) (again _)) ?_)
  split
  · exact refl s
  · exact ite (of_field (s.endId_spared _ _ _).field)
      ((of_field (s.drawRetry_field _ r _)).trans (of_field (State.countRetry_field _ r)))

end SameExchanges

theorem SameExchanges.exchange {s u : State} (h : SameExchanges s u) (r : Nat) : u.exchange r = s.exchange r := congrArg (SMap.find · r) h

theorem State.endExchange_exchange (s : State) (r : Nat) : (s.endExchange r).exchange r = none := SMap.find_del_same _ _

/-- A failed exchange is over: none is open on its resource, whatever the miss and the retry come to. -/
theorem State.failExchange_ends (s : State) (r blame near far : Nat) : (s.failExchange r blame near far).exchange r = none := by
  unfold State.failExchange
  split
  · assumption
  · rename_i x runs
    extract_lets a b m c d e
    have hb : SameExchanges (s.endExchange r) b := by
      unfold b
      split
      · exact .of_field (State.modId_field _ _ _)
      · exact .refl _
    have hd : SameExchanges b d := .ite ((Rerouted.setLinkGood b _ _ _ _).trans (.setLinkMode _ _ _ _ _ _)).exch (.refl b)
    have after : SameExchanges b (if x.search then b else (d.miss blame).scheduleRetry r x) :=
      .ite (.refl b) ((hd.trans (.miss d blame)).trans (.scheduleRetry _ r x))
    rw [(hb.trans after).exchange, State.endExchange_exchange]

theorem execExchangeMiss_ends {t : Angle} {r : Fin 16} {x : Exchange} {s : State} (runs : (s.tick t).exchange r = some x)
    (late : (s.tick t).dueBy r x ≤ (s.tick t).now) : ∃ u, execExchangeMiss t r s = .next u ∧ u.exchange r = none := by
  refine ⟨_, rfl, ?_⟩
  rw [runs]
  dsimp only
  rw [if_neg (Nat.not_lt.mpr late)]
  exact State.failExchange_ends _ _ _ _ _

theorem execRfail_ends {t : Angle} {lane : Fin 6} {failed : BitVec 13} {x : Exchange} {h : Nat × Nat} {s : State}
    (runs : (s.tick t).exchange lane = some x) (hop : (routeHops moduleEnd x.route x.node).find? (fun h => h.2 = failed.toNat) = some h)
    (sent : h.1 ≠ moduleEnd) (klp2 : ((s.tick t).node h.1).ver ≠ 1) :
    ∃ u, execRfail t lane failed s = .next u ∧ u.exchange lane = none := by
  have counted : ((s.tick t).bump Reg.LINEM_RFAIL_RX).exchange lane = some x := runs
  have still : ((s.tick t).bump Reg.LINEM_RFAIL_RX).node h.1 = (s.tick t).node h.1 := rfl
  unfold execRfail
  dsimp only
  rw [counted]
  dsimp only
  rw [hop]
  dsimp only
  rw [still, if_neg (not_or.mpr ⟨sent, klp2⟩)]
  exact ⟨_, rfl, ((Rerouted.reassessLane _ _).exchange _).trans (State.failExchange_ends _ _ _ _ _)⟩

/-- An RFAIL that names no hop behind a KLP 2 repeater of the open exchange is counted, and nothing else (log 99). -/
theorem execRfail_counts {t : Angle} {lane : Fin 6} {failed : BitVec 13} {s : State}
    (other : ∀ x, (s.tick t).exchange lane = some x → ∀ h, (routeHops moduleEnd x.route x.node).find? (fun h => h.2 = failed.toNat) = some h →
      h.1 = moduleEnd ∨ ((s.tick t).node h.1).ver = 1) :
    execRfail t lane failed s = .next ((s.tick t).bump Reg.LINEM_RFAIL_RX) := by
  unfold execRfail
  extract_lets a
  have same : ∀ r, a.exchange r = (s.tick t).exchange r := fun _ => rfl
  split
  · rfl
  · rename_i x runs
    split
    · rfl
    · rename_i h hop
      have counts : h.1 = moduleEnd ∨ (a.node h.1).ver = 1 := other x ((same _).symm.trans runs) h hop
      rw [if_pos counts]

/-! ### A join (R82, R83, R105) -/

/-- The record that an answered join request leaves (R82). -/
def State.joinAnswer (s : State) (j : JoinRequest) (cycle ver challenge : Nat) (rdv : Nat × Nat × Nat) : JoinAttempt where
  cycle := cycle
  ver := ver
  lane := s.joinLane j
  challenge := challenge
  medium := j.medium
  route := j.via
  rdv := rdv
  canRepeat := j.caps % 2 == 1
  sleeps := j.caps / 2 % 2 == 1

/-- A join request of a record that is heeded may be answered: its lane hears it, and HASH and its lane can work (R82, R105). -/
structure JoinHeeded (s : State) (j : JoinRequest) (id : Nat) (n : Node) : Prop where
  hears : s.hearsJoin j.medium j.lane = true
  pan : j.medium = 1 ∨ j.pan = s.fld Reg.AIRM_PANCFG 15 0
  found : s.findSerial j.serial = some (id, n)
  joining : n.state ≠ 2
  barred : n.state ≠ 5
  heeded : n.ignoreUntil ≤ s.cycle
  hash : s.hashRuns = true
  ready : (if j.medium = 1 then s.lineReady j.lane else s.airReady j.lane) = true

/-- A join request that is answered leaves its attempt with the record, which is JOINING if it was PROVISIONED. -/
theorem State.joinRequest_answered {s k a : State} {j : JoinRequest} {id ver challenge cycle : Nat} {n : Node}
    (h : JoinHeeded s j id n) (version : s.joinVersion j = some ver) (drawn : s.drawChallenge = (challenge, k))
    (sent : k.sendJacc j id (s.joinLane j) ver challenge (n.rdvNext.getD n.rdv) = (some cycle, a)) :
    s.joinRequest j = a.modNode id (fun m => { m with
      state := (if m.state = 1 then 2 else m.state)
      join := some (s.joinAnswer j cycle ver challenge (n.rdvNext.getD n.rdv)) }) := by
  have heard : ¬(!(s.hearsJoin j.medium j.lane) ∨ (j.medium ≠ 1 ∧ j.pan ≠ s.fld Reg.AIRM_PANCFG 15 0)) := by
    rintro (deaf | ⟨air, pan⟩)
    · exact absurd h.hears (by simpa using deaf)
    · exact h.pan.elim air pan
  have may : ¬(n.state = 2 ∨ s.cycle < n.ignoreUntil ∨
      !(s.hashRuns && (if j.medium = 1 then s.lineReady j.lane else s.airReady j.lane))) := by
    rw [h.hash, h.ready]
    exact not_or.mpr ⟨h.joining, not_or.mpr ⟨Nat.not_lt.mpr h.heeded, by decide⟩⟩
  unfold State.joinRequest
  dsimp only
  rw [if_neg heard, h.found]
  dsimp only
  rw [if_neg h.barred, if_neg may, version]
  dsimp only
  rw [drawn]
  dsimp only
  rw [sent]
  rfl

/-- A node that has joined is ACTIVE under the new session key, whatever its route and its group keys come to (R82). -/
theorem State.completeJoin_active (s : State) (id : Nat) (x : JoinAttempt) (key : Nat) :
    ((s.completeJoin id x key).node id).state = 3 ∧ ((s.completeJoin id x key).node id).session = true ∧
      ((s.completeJoin id x key).node id).key = key := by
  unfold State.completeJoin
  extract_lets n moved again used joined routed kept counted keyed
  have hr : Rerouted joined routed := .ite ((Rerouted.setLinkMode joined _ _ _ _ _).trans (.setRoute _ _ _)) (.refl joined)
  have hk : kept.field = routed.field := State.persistNode_field (routed.newKey _) _
  have hc : counted.field = kept.field := (State.joinCause_field _ _ _ _).trans (State.bump_field _ _ _)
  have hg : keyed.field = counted.field := State.sendGroupKeys_field _ _ _ _
  have hm : Rerouted keyed (if moved then keyed.moveWork id else keyed) := .ite (.of_field (State.moveWork_field _ _)) (.refl keyed)
  obtain ⟨state, session, same⟩ := ((hr.trans (.of_field (hg.trans (hc.trans hk)))).trans hm).standing id
  have record : joined.node id = _ := State.node_setNode_same _ _ _
  rw [state, session, same, record]
  exact ⟨rfl, rfl, rfl⟩

theorem State.sessMark_field (s : State) : s.sessMark.field = s.field := State.setReg_field _ _ _

/-- A JCONF whose proof is valid completes its join. -/
theorem execJconf_joins {t : Angle} {node : BitVec 13} {resp : BitVec 128} {nonce : BitVec 64} {x : JoinAttempt} {s : State}
    (waits : ((s.tick t).node node.toNat).join = some x) (hears : (s.tick t).hearsJoin x.medium x.lane = true)
    (hash : (s.tick t).hashRuns = true) (room : (s.tick t).sessRoom 1 = true)
    (secret : (s.tick t).secretOpen ((s.tick t).node node.toNat).keyslot = true)
    (proof : resp.toNat = (s.tick t).proof ((s.tick t).node node.toNat).keyslot ((s.tick t).node node.toNat).serial x.challenge) :
    execJconf t node resp nonce s = .next ((s.tick t).completeJoin node.toNat x ((s.tick t).sessionKey x.medium
      ((s.tick t).node node.toNat).keyslot ((s.tick t).node node.toNat).serial x.challenge nonce.toNat)).sessMark := by
  unfold execJconf
  dsimp only
  rw [waits]
  dsimp only
  rw [if_neg (by simp [hears, hash]), if_neg (by simp [room]), if_pos (by simp [secret, proof])]

theorem execJoinTimeout_ends {t : Angle} {node : BitVec 13} {x : JoinAttempt} {s : State}
    (waits : ((s.tick t).node node.toNat).join = some x) (late : x.cycle + 2 * (s.tick t).bcn x.medium ≤ (s.tick t).cycle) :
    ∃ u, execJoinTimeout t node s = .next u ∧ (u.node node.toNat).join = none := by
  refine ⟨_, rfl, ?_⟩
  rw [waits]
  dsimp only
  rw [if_neg (Nat.not_lt.mpr late), State.node_setNode_same]

/-! ### Responses (R37, R80) -/

/-- Settling an acknowledgement leaves the SEQ that is noted. -/
theorem State.settleAck_rspSeq (s : State) (id : Nat) : ((s.settleAck id).node id).rspSeq = (s.node id).rspSeq := by
  unfold State.settleAck
  rw [State.node_setNode_same]

/-- A DATA is noted under its SEQ; one that holds an unknown record is neither noted nor acknowledged (R80, Table 4.3). -/
theorem State.takeData_notes (s : State) (r node seq : Nat) (x : Exchange) (records : List Byte) :
    if (splitRecords false (decide (r ≤ 5)) (records.length + 1) records).2
    then ((s.takeData r node seq x records).node node).rspSeq = none ∧ ((s.takeData r node seq x records).node node).ackDue = false
    else ((s.takeData r node seq x records).node node).rspSeq = some seq := by
  unfold State.takeData
  extract_lets a b rs c d e f
  have he : (e.node node).rspSeq = some seq := by
    unfold e
    rw [State.settleAck_rspSeq, State.modNode, State.node_setNode_same]
  have noted : ∀ u : State, u.node node = f.node node →
      if rs.2 then (u.node node).rspSeq = none ∧ (u.node node).ackDue = false else (u.node node).rspSeq = some seq := by
    intro u same
    cases unknown : rs.2 with
    | true =>
      have hf : f = e.modNode node (fun n => { n with ackDue := false, rspSeq := none }) := by simp only [f, unknown, if_true]
      rw [if_pos rfl, same, hf, State.modNode, State.node_setNode_same]
      exact ⟨rfl, rfl⟩
    | false =>
      have hf : f = e := by simp only [f, unknown, Bool.false_eq_true, if_false]
      rw [if_neg (by decide), same, hf, he]
  refine noted _ ?_
  split
  · exact State.node_of_field ((State.settleObl_field _ _).trans (State.modId_field _ _ _)) _
  · rfl

theorem State.takeVstat_field (s : State) (node : Nat) (o : List Byte) : (s.takeVstat node o).field = s.field := by
  unfold State.takeVstat
  extract_lets st
  split
  · split
    · exact (s.endObl_spared _ _ _).field
    · split
      · exact State.bump_field _ _ _
      · rfl
  · rw [State.raise_field, State.journalEvent_field]

/-- What an acknowledged command changes at the module leaves the SEQ that is noted. -/
theorem State.commandDone_rspSeq (s : State) (node : Nat) (records : List Byte) :
    ((s.commandDone node records).node node).rspSeq = (s.node node).rspSeq := by
  have put : ∀ (u : State) (n : Node), u.field = (s.setNode node n).field → n.rspSeq = (s.node node).rspSeq →
      (u.node node).rspSeq = (s.node node).rspSeq := fun u n field seq => by
    rw [State.node_of_field field, State.node_setNode_same, seq]
  unfold State.commandDone
  extract_lets n tag
  split_ifs
  · exact put _ _ (State.raise_field _ _ _) rfl
  · exact put _ _ rfl rfl
  · exact put _ _ (State.raise_field _ _ _) rfl
  · exact put _ _ rfl rfl
  · exact put _ _ rfl rfl
  · rfl

/-- A CACK is noted under its SEQ, whatever its records and its obligation come to. -/
theorem State.takeCack_notes (s : State) (r node seq : Nat) (x : Exchange) (records : List Byte) :
    ((s.takeCack r node seq x records).node node).rspSeq = some seq := by
  unfold State.takeCack
  extract_lets a b c rs d e
  have hb : (b.node node).rspSeq = some seq := by
    unfold b
    rw [State.settleAck_rspSeq, State.modNode, State.node_setNode_same]
  have hc : (c.node node).rspSeq = some seq := (State.commandDone_rspSeq b node x.records).trans hb
  have hd : d.field = c.field := by
    refine foldl_proj State.field _ (fun u o => ?_) c rs.1
    split_ifs
    · exact State.takeVstat_field u node o
    · rfl
    · exact State.bump_field _ _ _
  have he : e.field = d.field := by
    unfold e
    split
    · exact State.bump_field _ _ _
    · rfl
  have ended : ∀ u : State, u.field = e.field → (u.node node).rspSeq = some seq := fun u field => by
    rw [State.node_of_field (field.trans (he.trans hd)), hc]
  split
  · split
    · exact ended _ (State.bump_field _ _ _)
    · exact ended _ rfl
  · split
    · exact ended _ (State.modId_field _ _ _)
    · split
      · exact ended _ (e.endId_spared _ _ _).field
      · dsimp only
        split
        · exact ended _ (e.endId_spared _ _ _).field
        · exact ended _ (State.modId_field _ _ _)

/-! ### A repeater that no route uses (R85) -/

theorem execRepeaterDemote_demotes {t : Angle} {node : BitVec 13} {s : State} (repeats : ((s.tick t).node node.toNat).rpt = true)
    (unused : (s.tick t).fan node.toNat = 0)
    (idle : ((s.tick t).node node.toNat).lastUsed + (s.tick t).fld Reg.LINEM_RPTCFG 31 16 ≤ (s.tick t).cycle) :
    ∃ u, execRepeaterDemote t node s = .next u ∧ (u.node node.toNat).rpt = false ∧
      { node := node.toNat, records := leBytes 1 0x51 ++ leBytes 1 0 ++ leBytes 1 ((s.tick t).node node.toNat).level } ∈
        u.field.firmware := by
  unfold execRepeaterDemote
  extract_lets a n
  rw [if_neg (by
    rintro (fixed | used | recent)
    · exact absurd repeats (by simpa using fixed)
    · exact used unused
    · exact absurd idle (Nat.not_le.mpr recent))]
  refine ⟨_, rfl, ?_, ?_⟩
  · have nodes : ((a.setNode node.toNat { n with rpt := false }).firmwareSend node.toNat
        (leBytes 1 0x51 ++ leBytes 1 0 ++ leBytes 1 n.level)).field.nodes = (a.setNode node.toNat { n with rpt := false }).field.nodes := rfl
    rw [State.node_of_field (State.raise_field _ _ _), State.node_of_nodes nodes, State.node_setNode_same]
  · rw [State.raise_field]
    exact List.mem_append_right _ List.mem_cons_self

/-! ### The commands -/

/-- Settles O28, each clause from the lemma about its command; what an RFAIL must name to end an exchange is log 99. -/
theorem lineNetworkCommandsComplete : Obligations.LineNetworkCommandsComplete := by
  unfold Obligations.LineNetworkCommandsComplete
  refine ⟨?jreq, ?jconf, ?timeout, ?data, ?cack, ?rfail, ?counted, ?miss, ?demote⟩
  case jreq =>
    intro t j id ver challenge cycle n s k a hears pan found joining barred heeded hash ready version drawn sent
    refine ⟨_, congrArg Host.Outcome.next (State.joinRequest_answered ⟨hears, pan, found, joining, barred, heeded, hash, ready⟩
      version drawn sent), ?_⟩
    rw [State.modNode, State.node_setNode_same]
    exact ⟨rfl, rfl⟩
  case jconf =>
    intro t node resp nonce x s waits hears hash room secret proof
    refine ⟨_, execJconf_joins waits hears hash room secret proof, ?_⟩
    rw [State.node_of_field (State.sessMark_field _)]
    exact State.completeJoin_active _ _ _ _
  case timeout =>
    intro t node x s waits late
    exact execJoinTimeout_ends waits late
  case data =>
    intro t r node seq records scheds x s takes answers
    refine ⟨((s.tick t).setStreams node.toNat scheds).takeData r.val node.toNat seq.toNat x records, ?_, State.takeData_notes _ _ _ _ _ _⟩
    show execDataResponse t r node seq records scheds s = _
    unfold execDataResponse
    dsimp only
    rw [if_neg (by simp [takes]), answers]
  case cack =>
    intro t r node seq records x s takes answers
    refine ⟨(s.tick t).takeCack r.val node.toNat seq.toNat x records, ?_, State.takeCack_notes _ _ _ _ _ _⟩
    show execCackResponse t r node seq records s = _
    unfold execCackResponse
    dsimp only
    rw [if_neg (by simp [takes]), answers]
  case rfail =>
    intro t lane failed x h s runs hop sent klp2
    exact execRfail_ends runs hop sent klp2
  case counted =>
    intro t lane failed s other
    exact ⟨_, execRfail_counts other, rfl, State.bump_counts _ _ _⟩
  case miss =>
    intro t r x s runs late
    exact execExchangeMiss_ends runs late
  case demote =>
    intro t node s repeats unused idle
    exact execRepeaterDemote_demotes repeats unused idle

end Sys2Proof.Machine
end

section
/-!
PROOFS. The air channel's settings (R96, Table 5.9): a lane whose CFG_LOCK is set keeps its CHAN.
-/

namespace Sys2Proof.Machine

/-- A write of a register whose fields are all RWL is ignored while its page is locked (Table 0.4). -/
theorem State.plainWrite_locked {s : State} {page off : Nat} {r : RegSpec} (spec : findSpec page off = some r)
    (rwl : r.rw = 0 ∧ r.w1c = 0 ∧ r.w1s = 0) (locked : s.locked page = true) (v : Word) : s.plainWrite page off v = .ignored s := by
  obtain ⟨rw0, w1c, w1s⟩ := rwl
  unfold State.plainWrite
  rw [spec]
  dsimp only
  split
  · rfl
  · rw [if_pos ⟨rw0, w1c, w1s, locked⟩]

/-- CHAN is RWL: with CFG_LOCK set, a write of a usable channel is ignored also while the lane is disabled (Table 5.9). -/
theorem effChan_locked {lane : Fin 2} {v : Word} {a : State} (usable : (subBandOf (a.airRate lane) (v.toNat % 256)).isSome = true)
    (apart : 1000 ≤ ((channelKhz 1 (a.airRate lane) (v.toNat % 256) : Int) -
      channelKhz 1 (a.airRate (1 - lane)) (a.fld (Reg.AIR_CHAN (1 - lane)) 7 0)).natAbs)
    (disabled : a.laneEnabled (0x10 + lane) = false) (locked : a.locked (0x10 + lane) = true) : effChan lane v a = .ignored a := by
  have spec : findSpec (0x10 + lane) 0x044 = some ⟨0x044, 0x20, 0x0, 0xFF, 0x0, 0x0, []⟩ := by
    fin_cases lane <;> rfl
  unfold effChan
  dsimp only
  rw [if_neg (by
    rintro (unusable | close | enabled)
    · simp [Option.isNone_iff_eq_none.mp unusable] at usable
    · omega
    · simp [disabled] at enabled), State.plainWrite_locked spec ⟨rfl, rfl, rfl⟩ locked]
  rfl

/-- Such a write leaves the state in which its gate has let it through. -/
theorem exec_chanWrite_locked {t : Angle} {p : Path} {lane : Fin 2} {v : Word} {s a : State}
    (through : (s.tick t).through p (0x10 + lane) 0x044 true = some a)
    (usable : (subBandOf (a.airRate lane) (v.toNat % 256)).isSome = true)
    (apart : 1000 ≤ ((channelKhz 1 (a.airRate lane) (v.toNat % 256) : Int) -
      channelKhz 1 (a.airRate (1 - lane)) (a.fld (Reg.AIR_CHAN (1 - lane)) 7 0)).natAbs)
    (disabled : a.laneEnabled (0x10 + lane) = false) (locked : a.locked (0x10 + lane) = true) :
    exec (.chanWrite t p lane v) s = .next a := by
  show Host.Outcome.next ((s.tick t).hostWrite p (0x10 + lane) 0x044 (effChan lane v)) = _
  rw [State.hostWrite_through through, effChan_locked usable apart disabled locked, State.finish_ignored]

/-- The module after reset, once its host has written RFCFG of AIR0 with its reset value and CFG_LOCK. -/
def lockedAir : State := State.reset.hostWrite .pcie 0x10 0x040 (effRfcfg 0 0x800E0008)

theorem lockedAir_through : ((lockedAir.tick 0).through .pcie 0x10 0x044 true).isSome = true := by decide +kernel

/-- Where the gate lets a write of AIR0.CHAN through, every condition of R96 for channel 4 is met, and CHAN is 32. -/
theorem lockedAir_gate : ∀ a ∈ (lockedAir.tick 0).through .pcie 0x10 0x044 true,
    (subBandOf (a.airRate 0) 4).isSome = true ∧
      1000 ≤ ((channelKhz 1 (a.airRate 0) 4 : Int) - channelKhz 1 (a.airRate 1) (a.fld (Reg.AIR_CHAN 1) 7 0)).natAbs ∧
      a.laneEnabled 0x10 = false ∧ a.locked 0x10 = true ∧ a.fld (Reg.AIR_CHAN 0) 7 0 = 32 := by
  decide +kernel

/-- Refutes O30: its clause for AIRn.CHAN says nothing of CFG_LOCK, which locks that register (Table 5.9). Where the
host has set CFG_LOCK of AIR0 after reset, a write of channel 4 to the disabled lane passes the gate and meets R96, and CHAN stays 32. -/
theorem not_airSettingsComplete : ¬ Obligations.AirSettingsComplete := by
  unfold Obligations.AirSettingsComplete
  rintro ⟨-, chan, -⟩
  obtain ⟨a, through⟩ := Option.isSome_iff_exists.mp lockedAir_through
  obtain ⟨usable, apart, disabled, locked, before⟩ := lockedAir_gate a through
  obtain ⟨u, run, written⟩ := chan 0 .pcie 0 4 lockedAir a through usable apart disabled
  rw [exec_chanWrite_locked (lane := 0) (v := 4) through usable apart disabled locked] at run
  obtain rfl := Host.Outcome.next.inj run
  exact absurd (before.symm.trans written) (by decide)

end Sys2Proof.Machine
end

section
/-!
PROOFS. Frames, beacons, rendezvous and leases of the air channel (R103, R104, R106 to R109, R112) complete with their effect: what a
frame that leaves and the duty budgets leave of the field media, and what the checks of a frame from a node rest on, come first.
-/

namespace Sys2Proof.Machine

/-! ### What the duty budgets leave of the field media (R114 to R116) -/

/-- Of the field media, the low mark of a selection moves its latch alone. -/
theorem State.checkLow_field (s : State) (key : Nat) : ∃ low, (s.checkLow key).field = { s.field with low := low } := by
  unfold State.checkLow
  extract_lets above src a b
  have hb : b.field = a.field := by
    unfold b
    split <;> rfl
  split
  · exact ⟨_, (State.raise_field _ _ _).trans hb⟩
  · split
    · exact ⟨_, rfl⟩
    · exact ⟨s.field.low, rfl⟩

theorem State.checkShort_field (s : State) : s.checkShort.field = s.field := by
  unfold State.checkShort
  split
  · rfl
  · rw [State.recomputeOn_field]
    split
    · rfl
    · exact State.raise_field _ _ _

/-- Of the field media, a charge moves bins and low marks alone. -/
theorem State.chargeBudget_field (s : State) (key sec ms : Nat) :
    ∃ bins low, (s.chargeBudget key sec ms).field = { s.field with bins := bins, low := low } := by
  unfold State.chargeBudget
  extract_lets src a k b
  have hb : b.field = a.field := by
    unfold b
    split <;> rfl
  obtain ⟨low, field⟩ := b.checkLow_field key
  exact ⟨_, low, by rw [State.checkShort_field, field, hb]⟩

/-! ### A frame that leaves on an air lane (R98, R114, R116) -/

/-- Of the field media, a frame moves bins and low marks alone, whether it leaves or is held back. -/
theorem State.sendAir_field (s : State) (lane node ftype n time ver : Nat) (ack : Bool) (seq : Option Nat) (sec : Option AirSec)
    (body : List Byte) :
    ∃ bins low, (s.sendAir lane node ftype n time ver ack seq sec body).2.field = { s.field with bins := bins, low := low } := by
  have same : ∃ bins low, s.field = { s.field with bins := bins, low := low } := ⟨s.field.bins, s.field.low, rfl⟩
  unfold State.sendAir
  extract_lets start c kap
  split
  · exact same
  · rename_i key budget
    split
    · exact same
    · split
      · extract_lets a b d h
        have shown : Signals (s.chargeBudget key (s.secondAt start) (s.airCharge lane n)) d :=
          (((State.bump_signals _ _ _).trans (State.setFld_signals a _ _ _ _)).trans (State.setFld_signals _ _ _ _ _)).trans
            (State.setFld_signals b _ _ _ _)
        have sent : Signals d _ := (State.send_signals d (.airFrame lane start h (securedKap h sec kap))).trans
          (State.send_signals _ (.air lane node ftype (d.airChannel lane c) d.extAddress kap))
        obtain ⟨bins, low, field⟩ := s.chargeBudget_field key (s.secondAt start) (s.airCharge lane n)
        exact ⟨bins, low, (shown.trans sent).field.trans field⟩
      · obtain ⟨bins, low, field⟩ := same
        exact ⟨bins, low, (State.raise_field _ _ _).trans field⟩

theorem State.sendAir_node (s : State) (lane node ftype n time ver : Nat) (ack : Bool) (seq : Option Nat) (sec : Option AirSec)
    (body : List Byte) (id : Nat) : (s.sendAir lane node ftype n time ver ack seq sec body).2.node id = s.node id := by
  obtain ⟨bins, low, field⟩ := s.sendAir_field lane node ftype n time ver ack seq sec body
  simp only [State.node, field]

/-- A frame of n octets that starts at a sweep time may leave on a lane: the lane is ready, and the selection that the channel of a cycle
is charged to has room for it. -/
structure MayLeave (s : State) (lane n start cycle key : Nat) : Prop where
  ready : s.airReady lane = true
  budget : s.budgetKey lane cycle = some key
  permitted : s.permitted key (s.secondAt start) (s.airCharge lane n) = true

theorem State.send_extAddress (s : State) (o : Output) : (s.send o).extAddress = s.extAddress := rfl

/-- A frame that may leave is sent, as the last thing that the module lists. -/
theorem State.sendAir_sends {s : State} {lane n start cycle key ftype time : Nat} (may : MayLeave s lane n start cycle key)
    (planned : (if ftype = 0xB then time else s.airStart time (s.thirdsTicks (s.airtime lane n))) = start)
    (charged : (if ftype = 0xB then 0 else start / 65536) = cycle)
    (node ver : Nat) (ack : Bool) (seq : Option Nat) (sec : Option AirSec) (body : List Byte) :
    (s.sendAir lane node ftype n time ver ack seq sec body).1 = true ∧
      ∃ ch kap, (s.sendAir lane node ftype n time ver ack seq sec body).2.out.head? =
        some (.air lane node ftype ch (s.sendAir lane node ftype n time ver ack seq sec body).2.extAddress kap) := by
  unfold State.sendAir
  extract_lets begins c kap
  have hb : begins = start := planned
  have hc : c = cycle := (by unfold c; rw [hb]; exact charged)
  clear_value begins c
  subst hb hc
  rw [may.budget]
  dsimp -zeta only
  rw [if_neg (by simp [may.ready]), if_pos may.permitted]
  extract_lets a b d h
  refine ⟨rfl, d.airChannel lane c, kap, ?_⟩
  rw [State.send_out, List.head?_cons, State.send_extAddress, State.send_extAddress]

/-! ### Frame counters (R104, R300, R302) -/

/-- A draw that gives a counter changes the transmit key alone. -/
theorem State.drawCounter_value {s : State} {key c : Nat} (h : (s.drawCounter key).1 = .value c) :
    ∃ k, (s.drawCounter key).2 = s.setTxKey key k := by
  cases drawn : (drawKey (s.txKey key) (s.openBlocks (s.txKey key)) (2 ^ 32 - 1)).1 with
  | value n =>
    simp only [State.drawCounter, drawn]
    exact ⟨_, rfl⟩
  | wait => simp only [State.drawCounter, drawn, reduceCtorEq] at h
  | stop => simp only [State.drawCounter, drawn, reduceCtorEq] at h

theorem State.drawCounter_field (s : State) (key : Nat) : (s.drawCounter key).2.field = s.field := by
  unfold State.drawCounter
  dsimp only
  split
  · rfl
  · exact (State.raiseKeep_signals _ _).field
  · exact (State.raiseKeep_signals _ _).field

theorem State.sessFull_field (s : State) : s.sessFull.field = s.field := State.raise_field _ _ _

/-- A rekey that starts changes of its node's record the rekey alone. -/
theorem State.startRekey_node (s : State) (id : Nat) :
    ∃ rekey key fcnt, (s.startRekey id).node id = { s.node id with rekey := rekey, nextKey := key, fcntNext := fcnt } := by
  have same : ∃ rekey key fcnt, s.node id = { s.node id with rekey := rekey, nextKey := key, fcntNext := fcnt } := ⟨_, _, _, rfl⟩
  unfold State.startRekey
  dsimp only
  split_ifs
  · rw [State.node_of_field s.sessFull_field]
    exact same
  · exact ⟨_, _, _, State.node_setNode_same _ _ _⟩
  · exact same

theorem State.markForced_field (s : State) (key : Nat) : (s.markForced key).field = s.field := by
  unfold State.markForced
  split
  · rfl
  · exact State.raise_field _ _ _

/-- A counter drawn for a node changes of its record the rekey alone, where it starts one. -/
theorem State.counterDrawn_node (s : State) (id c : Nat) :
    ∃ rekey key fcnt, (s.counterDrawn id c).node id = { s.node id with rekey := rekey, nextKey := key, fcntNext := fcnt } := by
  have same : ∃ rekey key fcnt, s.node id = { s.node id with rekey := rekey, nextKey := key, fcntNext := fcnt } := ⟨_, _, _, rfl⟩
  unfold State.counterDrawn
  split_ifs
  · exact same
  · exact s.startRekey_node id
  · exact same
  · obtain ⟨rekey, key, fcnt, node⟩ := (s.markForced (nodeKey id)).startRekey_node id
    exact ⟨rekey, key, fcnt, by rw [node, State.node_of_field (s.markForced_field _)]⟩

/-! ### A frame from a node (R99 to R103, R106, R110) -/

/-- The registers that the checks of a secured frame read: FREQ, TIMECFG and the state of the pairing. -/
def frameKeys : List Nat := [Reg.SWEEP_FREQ, Reg.AIRM_TIMECFG, Reg.PAIRS_STAT]

/-- What the checks of a secured frame rest on is as before: the nodes, sweep time and the registers that they read. -/
structure FrameBasis (s u : State) : Prop where
  nodes : u.field.nodes = s.field.nodes
  now : u.now = s.now
  sweep : u.sweep = s.sweep
  regs : ∀ k ∈ frameKeys, u.reg k = s.reg k

theorem mem_frameKeys {k : Nat} : k ∈ frameKeys ↔ k = 0x4054 ∨ k = 0x1304C ∨ k = 0x4C060 := by
  simp only [frameKeys, List.mem_cons, List.not_mem_nil, or_false]

theorem stillKey_frameKeys : ∀ k ∈ frameKeys, stillKey k = true := by decide

theorem evRaw_notMem_frameKeys (page : Nat) : evRaw page ∉ frameKeys := by
  rw [mem_frameKeys, evRaw]
  omega

/-- No register of an air lane's page is among them. -/
theorem notMem_frameKeys_of_lane (lane : Fin 2) {off : Nat} (low : off < 0x1000) : 0x10000 + off + 0x1000 * lane ∉ frameKeys := by
  rw [mem_frameKeys]
  omega

theorem Signals.now {s u : State} (h : Signals s u) : u.now = s.now := (congrArg State.now h).trans rfl

namespace FrameBasis
variable {s u w : State}

theorem refl (s : State) : FrameBasis s s := ⟨rfl, rfl, rfl, fun _ _ => rfl⟩

theorem trans (a : FrameBasis s u) (b : FrameBasis u w) : FrameBasis s w :=
  ⟨b.nodes.trans a.nodes, b.now.trans a.now, b.sweep.trans a.sweep, fun k mem => (b.regs k mem).trans (a.regs k mem)⟩

theorem setReg {k : Nat} (h : k ∉ frameKeys) (s : State) (v : Nat) : FrameBasis s (s.setReg k v) :=
  ⟨rfl, rfl, rfl, fun _ mem => State.reg_setReg_other _ _ _ _ (fun e => h (e ▸ mem))⟩

theorem bump {k : Nat} (h : k ∉ frameKeys) (s : State) (n : Nat) : FrameBasis s (s.bump k n) := setReg h s _

theorem raise (s : State) (page i : Nat) : FrameBasis s (s.raise page i) where
  nodes := congrArg Field.nodes (State.raise_field s page i)
  now := (s.raise_signals page i).now
  sweep := (s.raise_signals page i).sweep
  regs := fun k mem => State.raise_still _ _ _ _ (stillKey_frameKeys k mem) (fun e => evRaw_notMem_frameKeys page (e ▸ mem))

theorem divFree (s : State) (a : Int) (b : Nat) : FrameBasis s (s.divFree a b).2 := by
  unfold State.divFree
  split
  · exact refl s
  · exact ⟨rfl, rfl, rfl, fun _ _ => rfl⟩

theorem pushLevel {key : Nat} (h : key ∉ frameKeys) (s : State) (r : Nat) (v : Int) : FrameBasis s (s.pushLevel r key v) := by
  unfold State.pushLevel
  extract_lets l src a m
  have ha : FrameBasis s a := ⟨rfl, rfl, rfl, fun _ _ => rfl⟩
  exact (ha.trans (divFree a _ _)).trans (setReg h _ _)

theorem sample (s : State) (i : Nat) (v : Int) : FrameBasis s (s.sample i v) := by
  unfold State.sample
  split
  · exact refl s
  · split
    · exact bump (by decide) s 1
    · exact ⟨rfl, rfl, rfl, fun _ _ => rfl⟩

theorem node (h : FrameBasis s u) (id : Nat) : u.node id = s.node id := State.node_of_nodes h.nodes id

theorem pairState (h : FrameBasis s u) : u.pairState = s.pairState := State.fld_eq_of_reg (h.regs _ (by decide)) _ _

theorem takesFrames (h : FrameBasis s u) : u.takesFrames = s.takesFrames := by
  rw [State.takesFrames, State.takesFrames, h.pairState]

theorem uptime (h : FrameBasis s u) : u.uptime = s.uptime := by
  simp only [State.uptime, State.angle, h.sweep, h.now]

theorem leaseRuns (h : FrameBasis s u) (n : Node) : u.leaseRuns n = s.leaseRuns n := by
  have clock : u.leaseClock = s.leaseClock := by simp only [State.leaseClock, h.pairState, h.uptime]
  rw [State.leaseRuns, State.leaseRuns, clock]

theorem estimateOk (h : FrameBasis s u) (n : Node) (rx : AirRx) : u.estimateOk n rx = s.estimateOk n rx := by
  have guard : u.fld Reg.AIRM_TIMECFG 31 16 = s.fld Reg.AIRM_TIMECFG 31 16 := State.fld_eq_of_reg (h.regs _ (by decide)) _ _
  have freq : u.fld Reg.SWEEP_FREQ 23 0 = s.fld Reg.SWEEP_FREQ 23 0 := State.fld_eq_of_reg (h.regs _ (by decide)) _ _
  have guardNs : u.guardNs n = s.guardNs n := by simp only [State.guardNs, h.uptime, guard]
  have ticks : u.nsTicksUp (s.guardNs n) = s.nsTicksUp (s.guardNs n) := by simp only [State.nsTicksUp, State.freqWord, freq]
  rw [State.estimateOk, State.estimateOk, guardNs, ticks]

end FrameBasis

/-- A frame from a field node that the lane receives, of a type that is secured (R95, R99, Table 5.5). -/
structure AirHeard (s : State) (lane : Nat) (rx : AirRx) : Prop where
  region : s.region ≠ 0
  enabled : s.laneEnabled (0x10 + lane) = true
  pan : rx.pan = s.fld Reg.AIRM_PANCFG 15 0
  phy : airUnsupported rx = false
  fcs : rx.fcsOk = true
  kap : kapUnsupported rx = false
  ftype : leAt rx.kap 0 1 / 16 ≠ 5 ∧ leAt rx.kap 0 1 / 16 ≠ 0xA ∧ leAt rx.kap 0 1 / 16 ≠ 7 ∧ leAt rx.kap 0 1 / 16 ≠ 8

/-- A secured frame of a node passes every check of its key, its counter, its lease and its estimate of sweep time (R103, R106, R110). -/
structure AirSecured (s : State) (n : Node) (rx : AirRx) : Prop where
  level : 6 ≤ rx.level
  mic : rx.micOk = true
  key : n.session = true ∨ n.oldKeyUntil.isSome = true
  medium : n.medium = 2
  counter : counterOk n rx = true
  lease : s.leaseRuns n = true
  estimate : s.estimateOk n rx = true

theorem AirSecured.of_basis {s u : State} {n : Node} {rx : AirRx} (h : AirSecured s n rx) (b : FrameBasis s u) : AirSecured u n rx :=
  { h with lease := (b.leaseRuns n).trans h.lease, estimate := (b.estimateOk n rx).trans h.estimate }

/-- Such a frame is not one that R103 discards. -/
theorem AirSecured.accepted {s : State} {n : Node} {rx : AirRx} (h : AirSecured s n rx) :
    ¬(rx.level < 6 ∨ !rx.micOk ∨ (!n.session ∧ n.oldKeyUntil.isNone) ∨ n.medium ≠ 2 ∨ !(counterOk n rx)) := by
  rintro (low | mic | ⟨closed, ended⟩ | medium | counter)
  · exact absurd low (Nat.not_lt.mpr h.level)
  · simp [h.mic] at mic
  · rcases h.key with session | old
    · simp [session] at closed
    · simp [Option.isNone_iff_eq_none.mp ended] at old
  · exact medium h.medium
  · simp [h.counter] at counter

/-- A secured frame that passes every check is noted with its node, once its level and its count are (R103). -/
theorem execAirFrameReceived_hears {t : Angle} {lane : Fin 2} {rx : AirRx} {id : BitVec 13} {s : State}
    (heard : AirHeard (s.tick t) lane rx) (short : rx.short = some id)
    (secured : AirSecured (s.tick t) ((s.tick t).node id.toNat) rx) (takes : (s.tick t).takesFrames = true) :
    ∃ b, FrameBasis (s.tick t) b ∧ execAirFrameReceived t lane rx s = .next (b.heardAir lane id.toNat rx) := by
  have rssi : Reg.AIR_RSSI lane ∉ frameKeys := notMem_frameKeys_of_lane lane (off := 0x4C) (by decide)
  have count : Reg.AIR_FR_OK lane ∉ frameKeys := notMem_frameKeys_of_lane lane (off := 0x50) (by decide)
  have level := (FrameBasis.pushLevel rssi (s.tick t) (8 + lane) rx.rssi).trans (.sample _ (6 + lane) rx.rssi)
  obtain ⟨join, search, rejoin, seek⟩ := heard.ftype
  unfold execAirFrameReceived
  dsimp only
  rw [if_neg (by simp [heard.region, heard.enabled, heard.pan]), if_neg (by simp [heard.phy]), if_neg (by simp [heard.fcs]),
    if_neg (by simp [heard.kap]), if_neg seek, if_neg (by simp [join, search]), if_neg rejoin, short]
  dsimp only
  generalize ((s.tick t).pushLevel _ _ _).sample _ _ = b at level ⊢
  have counted := (level.trans (.bump count b 1)).trans (.raise _ (0x10 + lane) 0)
  have passes := secured.of_basis level
  rw [← level.node] at passes
  rw [if_neg passes.accepted, if_neg (by simp [passes.lease]), if_neg (by simp [passes.estimate]), if_pos (counted.takesFrames.trans takes)]
  exact ⟨_, counted, rfl⟩

/-- A node that is heard has no misses, is heard at this time, and its counter is the last one of the frame's key. -/
theorem State.heardAir_node (s : State) (lane id : Nat) (rx : AirRx) :
    ((s.heardAir lane id rx).node id).miss = 0 ∧ ((s.heardAir lane id rx).node id).heard = s.now ∧
      (if rx.keyIdx = (s.node id).keyIdx then ((s.heardAir lane id rx).node id).fcnt = some rx.counter
        else ((s.heardAir lane id rx).node id).fcntNext = some rx.counter) := by
  unfold State.heardAir
  dsimp only
  rw [State.node_setNode_same]
  refine ⟨rfl, rfl, ?_⟩
  split
  · rename_i current
    simp [current]
  · rename_i next
    simp [next]

/-! ### Beacons and SYNC (R98, R108, R112) -/

theorem execAirBeacon_sends {t : Angle} {lane : Fin 2} {key key2 c start start2 : Nat} {sec : AirSec} {s b k : State}
    (due : (s.tick t).beaconDue lane = true)
    (may : MayLeave (s.tick t) lane 47 start (start / 65536) key)
    (planned : (s.tick t).airStart ((s.tick t).cycle * 65536) ((s.tick t).thirdsTicks ((s.tick t).airtime lane 47)) = start)
    (drawn : ((s.tick t).noteBeacon lane).drawGroup 2 lane = (.value c, b)) (secured : b.groupSec lane 2 c = (sec, k))
    (leaves : MayLeave k lane 47 start2 (start2 / 65536) key2)
    (again : k.airStart (k.cycle * 65536) (k.thirdsTicks (k.airtime lane 47)) = start2) :
    ∃ u, execAirBeacon t lane s = .next u ∧ ∃ ch kap, u.out.head? = some (.air lane 0xFFFF 0 ch u.extAddress kap) := by
  have room : ((s.tick t).noteBeacon lane).permitted key (((s.tick t).noteBeacon lane).secondAt start)
      (((s.tick t).noteBeacon lane).airCharge lane 47) = true := may.permitted
  refine ⟨_, rfl, ?_⟩
  rw [if_neg (by simp [due, may.ready]), planned, may.budget]
  dsimp only
  rw [if_neg (by simp [room]), drawn]
  dsimp only
  rw [secured]
  exact (State.sendAir_sends leaves ((if_neg (by decide)).trans again) (if_neg (by decide)) _ _ _ _ _ _).2

theorem execSeek_answers_sync {t : Angle} {lane : Fin 2} {source : BitVec 64} {pan : BitVec 16} {key c : Nat} {sec : AirSec} {s b k : State}
    (ready : (s.tick t).airReady lane = true) (valid : (s.tick t).seekOk source.toNat pan.toNat = true)
    (listens : (s.tick t).airSearching lane = true ∨ ((s.tick t).region = 1 ∧ (s.tick t).exchange (8 + lane) = none))
    (drawn : (s.tick t).drawGroup 2 lane = (.value c, b)) (secured : b.groupSec lane 2 c = (sec, k))
    (leaves : MayLeave k lane 47 (k.now + k.thirdsTicks 3000) 0 key) :
    ∃ u, execSeek t lane source pan s = .next u ∧ ∃ ch kap, u.out.head? = some (.air lane source.toNat 0xB ch u.extAddress kap) := by
  have hears : ((s.tick t).airSearching lane || ((s.tick t).region == 1 && ((s.tick t).exchange (8 + lane)).isNone)) = true := by
    rcases listens with window | ⟨eu, idle⟩
    · simp [window]
    · simp [eu, idle]
  refine ⟨_, rfl, ?_⟩
  rw [if_neg (by simp only [ready, valid, hears]; decide), drawn]
  dsimp only
  rw [secured]
  exact (State.sendAir_sends leaves rfl rfl _ _ _ _ _ _).2

/-! ### A rendezvous with work (R109) -/

/-- A counter that is drawn leaves what a frame needs to leave. -/
theorem MayLeave.setTxKey {s : State} {lane n start cycle key : Nat} (may : MayLeave s lane n start cycle key) (tx : Nat) (k : TxKey) :
    MayLeave (s.setTxKey tx k) lane n start cycle key := ⟨may.ready, may.budget, may.permitted⟩

/-- The module's frame of a rendezvous opens its exchange, where it may leave and its node's key gives a counter. -/
theorem State.sendRendezvous_exchange {s : State} {lane start key c : Nat} {x : Exchange}
    (may : MayLeave s lane (39 + x.records.length) start (start / 65536) key)
    (planned : s.airStart x.start (s.thirdsTicks (s.airtime lane (39 + x.records.length))) = start)
    (drawn : (s.drawCounter (nodeKey x.node)).1 = .value c) : (s.sendRendezvous lane x).exchange (8 + lane) = some x := by
  obtain ⟨k, after⟩ := State.drawCounter_value drawn
  have plain : (if x.isCmd then 3 else 1) ≠ 0xB := by split <;> decide
  have leaves := fun ver ack seq sec => (State.sendAir_sends (may.setTxKey (nodeKey x.node) k) ((if_neg plain).trans planned) (if_neg plain)
    x.node ver ack seq sec x.records).1
  unfold State.sendRendezvous
  dsimp only
  rw [planned, may.budget]
  dsimp only
  rw [if_neg (by simp [may.permitted]), drawn, after]
  dsimp only
  rw [if_neg (by simp [leaves]), State.leaveSent_exchange, State.counterDrawn_exchange, State.modNode_exchange,
    State.beginExchange_exchange]

/-- What a node must meet for its rendezvous to be served on a lane now (R109, R110, R112). -/
structure RendezvousDue (s : State) (lane id : Nat) : Prop where
  active : (s.node id).state = 3
  session : (s.node id).session = true
  medium : (s.node id).medium = 2
  onLane : (s.node id).lane = lane
  now : s.atRendezvous lane (s.node id) = true
  ready : s.airReady lane = true
  listening : s.airSearching lane = false
  idle : s.exchange (8 + lane) = none
  guard : s.guardNs (s.node id) ≤ s.guardMaxNs

theorem execRendezvous_sends {t : Angle} {lane : Fin 2} {node : BitVec 13} {w : Work} {x : Exchange} {s a : State}
    (due : RendezvousDue (s.tick t) lane node.toNat)
    (opened : (s.tick t).openExchange (8 + lane) w (fun s => s.airExch lane) = (some x, a)) (own : x.node = node.toNat)
    (takeback : a.beforeTakeback x.last = true) :
    execRendezvous t lane node (some w) s = .next (a.sendRendezvous lane x) := by
  unfold execRendezvous
  dsimp only
  rw [if_neg (by simp [due.active, due.session, due.medium, due.onLane, due.now, due.ready, due.listening, due.idle]),
    if_neg (Nat.not_lt.mpr due.guard), opened]
  dsimp only
  rw [if_pos ⟨own, takeback⟩]

/-! ### A node that returns under its session (R107) -/

/-- What a rejoin rests on: the session of a KAP 2 or 3 node whose lease runs, a new counter, and an estimate inside the guard. -/
structure RejoinValid (s : State) (n : Node) (counter off : Nat) : Prop where
  medium : n.medium = 2
  version : 2 ≤ n.ver
  session : n.session = true
  joined : n.state = 3 ∨ n.state = 4
  lease : s.leaseRuns n = true
  counter : newer n.fcnt counter = true
  guard : off ≤ s.nsTicksUp (s.guardNs n)

/-- A node has returned: it is ACTIVE on a lane, under the counter of its frame. -/
structure Rejoined (n : Node) (lane counter : Nat) : Prop where
  active : n.state = 3
  counter : n.fcnt = some counter
  onLane : n.lane = lane

/-- What answers a rejoin leaves the node as it is but for a rekey that starts. -/
theorem State.sendRjacc_node (s : State) (lane id c ftype n time ver : Nat) (sec : Option AirSec) (body : List Byte) :
    ∃ rekey key fcnt, (((s.drawCounter (nodeKey id)).2.sendAir lane id ftype n time ver false none sec body).2.counterDrawn id c).node id =
      { s.node id with rekey := rekey, nextKey := key, fcntNext := fcnt } := by
  obtain ⟨rekey, key, fcnt, node⟩ :=
    ((s.drawCounter (nodeKey id)).2.sendAir lane id ftype n time ver false none sec body).2.counterDrawn_node id c
  exact ⟨rekey, key, fcnt, by rw [node, State.sendAir_node, State.node_of_field (s.drawCounter_field _)]⟩

theorem execRejoin_rejoins {t : Angle} {lane : Fin 2} {node : BitVec 13} {pan : BitVec 16} {counter : BitVec 32} {off : Nat} {s : State}
    (ready : (s.tick t).airReady lane = true) (own : pan.toNat = (s.tick t).fld Reg.AIRM_PANCFG 15 0)
    (settled : (s.tick t).airSearching lane = true ∨ ((s.tick t).node node.toNat).rekey = none)
    (valid : RejoinValid (s.tick t) ((s.tick t).node node.toNat) counter.toNat off) :
    ∃ u, execRejoin t lane node pan counter true off s = .next u ∧ Rejoined (u.node node.toNat) lane counter.toNat := by
  have standing : ¬(((s.tick t).node node.toNat).state ≠ 3 ∧ ((s.tick t).node node.toNat).state ≠ 4) := fun h => valid.joined.elim h.1 h.2
  unfold execRejoin
  extract_lets a id n b c d e
  rw [if_neg (by simp [a, ready, own]), if_neg (by
    simp only [n, id, a, valid.medium, valid.session, valid.lease, standing, Nat.not_lt.mpr valid.version]
    decide), if_neg (by simp [n, id, a, valid.counter]), if_neg (Nat.not_lt.mpr valid.guard)]
  have hd : Rejoined (d.node id) lane counter.toNat := by
    rw [State.node_of_field (State.raise_field _ _ _), State.node_of_field (State.bump_field _ _ _), State.node_setNode_same]
    exact ⟨rfl, rfl, rfl⟩
  have he : Rejoined (e.2.node id) lane counter.toNat := by
    rw [State.node_of_field (d.drawCounter_field _)]
    exact hd
  have searching : d.airSearching lane = a.airSearching lane := by
    have counted : Signals a b := (State.bump_signals a _ _).trans (State.raise_signals _ _ _)
    have rejoins : Signals c d := (State.bump_signals c _ _).trans (State.raise_signals _ _ _)
    have heard : b.field.airSearch = a.field.airSearch := congrArg Field.airSearch counted.field
    have windows : d.field.airSearch = a.field.airSearch := (congrArg Field.airSearch rejoins.field).trans heard
    have cycle : d.cycle = a.cycle := congrArg (· / 65536) (rejoins.now.trans counted.now)
    rw [State.airSearching, State.airSearching, windows, cycle]
  refine ⟨_, rfl, ?_⟩
  split
  · exact hd
  · rename_i listening
    have unkeyed : n.rekey = none := settled.resolve_left (by rw [← searching]; exact listening)
    split
    · rename_i x drawn
      obtain ⟨rekey, key, fcnt, answered⟩ := d.sendRjacc_node lane id x 9 47 (e.2.airHoldEnd lane) n.ver (some ⟨6, n.keyIdx, x, n.key⟩)
        (e.2.rdvOctets n.rdv)
      rw [answered]
      exact ⟨hd.active, hd.counter, hd.onLane⟩
    · rw [if_neg (by simp [unkeyed])]
      exact he
    · exact he

/-! ### Leases, and the end of a rekey (R104, R106) -/

theorem execLeaseExpiry_ends {t : Angle} {node : BitVec 13} {s : State} (medium : ((s.tick t).node node.toNat).medium = 2)
    (leased : ((s.tick t).node node.toNat).leaseEnd.isSome = true) (ended : (s.tick t).leaseRuns ((s.tick t).node node.toNat) = false) :
    ∃ u, execLeaseExpiry t node s = .next u ∧ (u.node node.toNat).state = 1 ∧ (u.node node.toNat).session = false := by
  have lease : ¬((s.tick t).node node.toNat).leaseEnd.isNone := by simp [← Option.not_isSome, leased]
  refine ⟨_, rfl, ?_⟩
  rw [if_neg (by simp only [medium, lease, ended]; decide), State.expireLease]
  rw [State.node_of_field (State.raise_field _ _ _), State.node_of_field (State.releaseWork_field _ _), State.node_setNode_same]
  exact ⟨rfl, rfl⟩

/-- A node that is marked ABSENT keeps its record but for its state and how it became so. -/
theorem State.setAbsent_node (s : State) (id : Nat) (route : Bool) :
    ∃ state routeAbs, (s.setAbsent id route).node id = { s.node id with state := state, routeAbs := routeAbs } := by
  unfold State.setAbsent
  dsimp only
  split
  · exact ⟨_, _, rfl⟩
  · refine ⟨4, route, ?_⟩
    rw [State.node_of_field (State.absentCause_field _ _), State.node_of_field (State.releaseWork_field _ _),
      State.node_of_field (State.loopAddrStat_field _ _), State.node_setNode_same]

/-- A failed rekey ends it, and the time of the old key. -/
theorem State.failRekey_node (s : State) (id : Nat) :
    ((s.failRekey id).node id).rekey = none ∧ ((s.failRekey id).node id).oldKeyUntil = none := by
  unfold State.failRekey
  extract_lets n a
  have ha : a.node id = { n with rekey := none, nextKey := 0, fcntNext := none, oldKeyUntil := none } := State.node_setNode_same _ _ _
  have counted : ∀ u : State, u.field = a.field → ((u.setAbsent id false).node id).rekey = none ∧
      ((u.setAbsent id false).node id).oldKeyUntil = none := fun u field => by
    obtain ⟨state, routeAbs, node⟩ := u.setAbsent_node id false
    rw [node, State.node_of_field field, ha]
    exact ⟨rfl, rfl⟩
  split
  · exact counted _ (State.raise_field _ _ _)
  · exact counted _ rfl

theorem execRekeyTimeout_fails {t : Angle} {node : BitVec 13} {c : Nat} {s : State} (runs : ((s.tick t).node node.toNat).rekey = some c)
    (late : c + 2 * (s.tick t).airBcn ≤ (s.tick t).cycle) :
    ∃ u, execRekeyTimeout t node s = .next u ∧ (u.node node.toNat).rekey = none := by
  refine ⟨_, rfl, ?_⟩
  rw [runs]
  dsimp only
  rw [if_neg (Nat.not_lt.mpr late)]
  exact (State.failRekey_node _ _).1

theorem execRekeyTimeout_ends_old {t : Angle} {node : BitVec 13} {c : Nat} {s : State} (idle : ((s.tick t).node node.toNat).rekey = none)
    (old : ((s.tick t).node node.toNat).oldKeyUntil = some c) (late : c ≤ (s.tick t).cycle) :
    ∃ u, execRekeyTimeout t node s = .next u ∧ (u.node node.toNat).oldKeyUntil = none := by
  refine ⟨_, rfl, ?_⟩
  rw [idle, old]
  dsimp only
  rw [if_neg (Nat.not_lt.mpr late)]
  split
  · rw [State.node_setNode_same]
  · exact (State.failRekey_node _ _).2

/-! ### The commands -/

/-- Settles O31, each clause from the lemma about its command. -/
theorem airMediumCommandsComplete : Obligations.AirMediumCommandsComplete := by
  unfold Obligations.AirMediumCommandsComplete
  refine ⟨?received, ?beacon, ?rendezvous, ?rejoin, ?seek, ?lease, ?rekey, ?oldKey⟩
  case received =>
    intro t lane rx id s region enabled phy fcs kap ftype short level pan mic key medium counter lease estimate takes
    obtain ⟨b, basis, run⟩ := execAirFrameReceived_hears ⟨region, enabled, pan, phy, fcs, kap, ftype⟩ short
      ⟨level, mic, key, medium, counter, lease, estimate⟩ takes
    have heard := b.heardAir_node lane id.toNat rx
    rw [basis.node, basis.now] at heard
    exact ⟨_, run, heard⟩
  case beacon =>
    intro t lane key key2 c start start2 sec s b k due ready planned budget permitted drawn secured again replanned budget2 permitted2
    exact execAirBeacon_sends due ⟨ready, budget, permitted⟩ planned drawn secured ⟨again, budget2, permitted2⟩ replanned
  case rendezvous =>
    intro t lane node w x key c start s a active session medium onLane now ready listening idle guard opened own takeback readyThen planned
      budget permitted drawn
    exact ⟨_, execRendezvous_sends ⟨active, session, medium, onLane, now, ready, listening, idle, guard⟩ opened own takeback,
      State.sendRendezvous_exchange ⟨readyThen, budget, permitted⟩ planned drawn⟩
  case rejoin =>
    intro t lane node pan counter off s ready own settled medium version session joined lease fresh guard
    obtain ⟨u, run, active, count, onLane⟩ := execRejoin_rejoins ready own settled
      ⟨medium, version, session, joined, lease, fresh, guard⟩
    exact ⟨u, run, active, count, onLane⟩
  case seek =>
    intro t lane source pan key c sec s b k ready valid listens drawn secured again budget permitted
    exact execSeek_answers_sync ready valid listens drawn secured ⟨again, budget, permitted⟩
  case lease =>
    intro t node s medium leased ended
    exact execLeaseExpiry_ends medium leased ended
  case rekey =>
    intro t node c s runs late
    exact execRekeyTimeout_fails runs late
  case oldKey =>
    intro t node c s idle old late
    exact execRekeyTimeout_ends_old idle old late

end Sys2Proof.Machine
end

section
/-!
PROOFS. The sources of the field loops (R125): a port that has found a foreign voltage ends no other sensing period in the same cycle.
-/

namespace Sys2Proof.Machine

/-- A port senses once in a cycle while another source is present: a sensing period that ends after a conflict of the same cycle changes
nothing (R125). -/
theorem execLoopSenseEnd_after_conflict {t : Angle} {n : Fin 4} {s : State}
    (conflict : (s.tick t).field.conflictAt.find n = some (s.tick t).cycle) (mv : Nat) : execLoopSenseEnd t n mv s = .next (s.tick t) :=
  congrArg Host.Outcome.next (if_pos (.inr (.inr conflict)))

/-- A SOLO module in the field with its timebase locked, at angle 0 of a cycle, when loop 0 has just begun to sense. -/
def sensingLoop : State :=
  ((({ State.reset with nv := { State.reset.nv with lc := 3, role := 1 } } : State).setFld Reg.SWEEP_LOCKSTAT 2 0 2).setFlag
    (Reg.LOOP_SUPCFG 0) 0 true).setLoopState 0 1

/-- The same module at angle 0x1000, 1.25 ms later, when the sensing period ends at 2.5 V. -/
def conflictedLoop : State :=
  match execLoopSenseEnd 0x1000 0 2500 sensingLoop with
  | .next u => u
  | _ => sensingLoop

/-- At angle 0x2000 of that cycle the port has sensed for another 1.25 ms, and the conflict is one of this cycle. -/
theorem conflictedLoop_senses :
    (conflictedLoop.tick 0x2000).loopState 0 = 1 ∧ (conflictedLoop.tick 0x2000).maySource 0 = true ∧
      (conflictedLoop.tick 0x2000).field.loopSince.getD 0 0 + 8000000 ≤ (conflictedLoop.tick 0x2000).uptime ∧
      (conflictedLoop.tick 0x2000).field.conflictAt.find 0 = some (conflictedLoop.tick 0x2000).cycle := by
  decide +kernel

/-- Refutes O32: its clause for the end of a sensing period asks that every period below 2.0 V switches the port ON, and does not leave out
the rest of a cycle in which the port has found a foreign voltage: R125 lets it sense again in the next cycle. A period that begins
after such a conflict and ends at 0.3 V in the same cycle leaves the port in SENSE. -/
theorem not_loopSourceCommandsComplete : ¬ Obligations.LoopSourceCommandsComplete := by
  unfold Obligations.LoopSourceCommandsComplete
  rintro ⟨-, -, senseEnd, -⟩
  obtain ⟨senses, may, long, conflict⟩ := conflictedLoop_senses
  obtain ⟨u, run, state, -⟩ := senseEnd 0x2000 0 300 conflictedLoop senses may long
  have still : exec (.loopSenseEnd 0x2000 0 300) conflictedLoop = .next (conflictedLoop.tick 0x2000) :=
    execLoopSenseEnd_after_conflict conflict 300
  obtain rfl := Host.Outcome.next.inj (still.symm.trans run)
  exact absurd (senses.symm.trans state) (by decide)

end Sys2Proof.Machine
end

section
/-!
PROOFS. SYNC, exchanges, frames and attachments on the field loops (R129 to R133, R135) complete with their effect: what a frame that is
counted leaves of the loop's addresses, and what an attachment makes of its node, come before the commands.
-/

namespace Sys2Proof.Machine

/-! ### SYNC and exchanges (R132, R133) -/

theorem execLoopSync_sends {t : Angle} {n : Fin 4} {s : State} (ready : (s.tick t).loopReady n = true)
    (first : (s.tick t).field.syncAt.find n ≠ some (s.tick t).cycle)
    (due : (((s.tick t).angle : Int) - (s.tick t).fld (Reg.LOOP_KLLCFG n) 31 16).natAbs ≤ 1) :
    ∃ u, execLoopSync t n s = .next u ∧ ∃ octets, u.out.head? = some (.loop n 0xFF 0 octets) := by
  refine ⟨_, congrArg Host.Outcome.next (if_neg ?_), _, rfl⟩
  rintro (off | sent | early)
  · simp [ready] at off
  · exact first sent
  · exact absurd early (Nat.not_lt.mpr due)

/-- What an exchange that has been opened must meet for its frame to leave on a loop (R133, R339). -/
structure MayStartLoop (a : State) (n : Nat) (x : Exchange) : Prop where
  active : (a.node x.node).state = 3
  medium : (a.node x.node).medium = 3
  onLoop : (a.node x.node).lane = n
  takeback : a.beforeTakeback x.last = true

theorem execLoopExchangeStart_begins {t : Angle} {n : Fin 4} {w : Work} {x : Exchange} {s a : State}
    (ready : (s.tick t).loopReady n = true) (idle : (s.tick t).exchange (0x0C + n) = none)
    (opened : (s.tick t).openExchange (0x0C + n) w (fun s => s.loopExch n) = (some x, a)) (may : MayStartLoop a n x) :
    ∃ u, execLoopExchangeStart t n w s = .next u ∧ u.exchange (0x0C + n) = some x := by
  unfold execLoopExchangeStart
  dsimp only
  rw [if_neg (by simp [ready, idle]), opened]
  dsimp only
  rw [if_neg (by simp [may.active, may.medium, may.onLoop, may.takeback])]
  exact ⟨_, rfl, a.beginExchange_exchange _ x⟩

/-! ### A frame from a node (R130, R131) -/

/-- A DATA or CACK frame of KLL 1 whose CRC and header are valid (R130, Table 6.5). -/
structure KllAnswer (octets : List Byte) (check : BitVec 16) : Prop where
  crc : crc16 octets = check.toNat
  header : 3 ≤ octets.length
  ftype : leAt octets 0 1 / 16 = 2 ∨ leAt octets 0 1 / 16 = 4
  version : leAt octets 0 1 / 4 % 4 = 1
  spare : leAt octets 0 1 % 2 = 0
  addr : leAt octets 1 1 ≤ 7

/-- Such a frame is not one that the header check discards. -/
theorem KllAnswer.accepted {octets : List Byte} {check : BitVec 16} (h : KllAnswer octets check) :
    ¬(octets.length < 3 ∨ !([2, 4, 6].contains (leAt octets 0 1 / 16)) ∨ leAt octets 0 1 / 4 % 4 ≠ 1 ∨ leAt octets 0 1 % 2 ≠ 0 ∨
      7 < leAt octets 1 1) := by
  rintro (short | ftype | version | spare | addr)
  · exact absurd short (Nat.not_lt.mpr h.header)
  · rcases h.ftype with data | cack
    · simp [data] at ftype
    · simp [cack] at ftype
  · exact version h.version
  · exact spare h.spare
  · exact absurd addr (Nat.not_lt.mpr h.addr)

/-- A frame of a loop that has passed its checks is counted, and its cause is raised. -/
def State.countLoopFrame (s : State) (n : Nat) : State := (s.bump (Reg.LOOP_FR_OK n)).raise (0x14 + n) 0

/-- What a frame rests on is as before its count: FR_OK is none of the registers that it reads. -/
theorem State.countLoopFrame_basis (s : State) (n : Nat) : FrameBasis s (s.countLoopFrame n) :=
  have count : Reg.LOOP_FR_OK n ∉ frameKeys := by
    rw [mem_frameKeys, Reg.LOOP_FR_OK]
    omega
  (FrameBasis.bump count s 1).trans (.raise _ _ _)

theorem State.loopNode_of_reg {s u : State} {n m : Nat} (h : u.reg (Reg.LOOP_ADDR_CFG n m) = s.reg (Reg.LOOP_ADDR_CFG n m)) :
    u.loopNode n m = s.loopNode n m := by
  rw [State.loopNode, State.loopNode, State.flag_of_reg h, State.fld_eq_of_reg h]

/-- The count of a frame leaves the loop's addresses as they are configured. -/
theorem State.countLoopFrame_loopNode (s : State) (n : Fin 4) {m : Nat} (addr : m ≤ 7) :
    (s.countLoopFrame n).loopNode n m = s.loopNode n m := by
  have still : stillKey (Reg.LOOP_ADDR_CFG n m) = true := by
    simp only [stillKey, evRaw, Reg.LOOP_ADDR_CFG, Reg.EVT_MSG_CNT, Reg.KEEP_RSV_WAIT, Reg.KEEP_KEY_STOP,
      Bool.and_eq_true, bne_iff_ne, ne_eq]
    omega
  have raw : Reg.LOOP_ADDR_CFG n m ≠ evRaw (0x14 + n) := by
    simp only [evRaw, Reg.LOOP_ADDR_CFG]
    omega
  have count : Reg.LOOP_ADDR_CFG n m ≠ Reg.LOOP_FR_OK n := by
    simp only [Reg.LOOP_ADDR_CFG, Reg.LOOP_FR_OK]
    omega
  apply State.loopNode_of_reg
  rw [State.countLoopFrame, State.raise_still _ _ _ _ still raw, State.reg_bump_other _ _ _ _ count]

theorem State.heardFrom_node (s : State) (id : Nat) : (s.heardFrom id).node id = { s.node id with miss := 0, heard := s.now } := by
  rw [State.heardFrom, State.node_of_field (State.loopAddrStat_field _ _), State.modNode, State.node_setNode_same]

/-- A valid DATA or CACK of an attached node is counted, and its node is heard (R87, R130). -/
theorem execLoopFrameReceived_hears {t : Angle} {n : Fin 4} {octets : List Byte} {check : BitVec 16} {id : Nat} {s : State}
    (enabled : (s.tick t).laneEnabled (0x14 + n) = true) (valid : KllAnswer octets check)
    (attached : (s.tick t).loopNode n (leAt octets 1 1) = some id) (medium : ((s.tick t).node id).medium = 3)
    (takes : (s.tick t).takesFrames = true) :
    execLoopFrameReceived t n octets check s = .next (((s.tick t).countLoopFrame n).heardFrom id) := by
  have basis := (s.tick t).countLoopFrame_basis n
  have node : ((s.tick t).countLoopFrame n).loopNode n (leAt octets 1 1) = some id :=
    ((s.tick t).countLoopFrame_loopNode n valid.addr).trans attached
  have answer : leAt octets 0 1 / 16 ≠ 6 := by
    rcases valid.ftype with data | cack <;> omega
  unfold execLoopFrameReceived
  dsimp only
  rw [if_neg (by simp [enabled]), if_neg (not_not.mpr valid.crc), if_neg valid.accepted, ← State.countLoopFrame, node]
  exact congrArg Host.Outcome.next
    (if_pos ⟨answer, (congrArg Node.medium (basis.node id)).trans medium, basis.takesFrames.trans takes⟩)

/-! ### IDENT and its answer (R135) -/

/-- An IDENT to an address whose node is neither JOINING nor ACTIVE there leaves a challenge and its cycle with the address. -/
theorem State.identOne_challenges {s : State} {n m id : Nat} (valid : s.loopNode n m = some id) (settled : (s.node id).state ≠ 2)
    (away : ¬((s.node id).state = 3 ∧ (s.node id).medium = 3 ∧ (s.node id).lane = n ∧ (s.node id).addr = m)) :
    (s.identOne n m).field.idents.find (n * 8 + m) = some s.drawChallenge.1 ∧
      (s.identOne n m).field.identAt.find (n * 8 + m) = some s.cycle := by
  unfold State.identOne
  rw [valid]
  dsimp only
  rw [if_neg (not_or.mpr ⟨settled, away⟩)]
  exact ⟨SMap.find_put_same _ _ _, SMap.find_put_same _ _ _⟩

theorem execIdent_sends {t : Angle} {n : Fin 4} {m : Fin 8} {s : State} (ready : (s.tick t).loopReady n = true)
    (due : (s.tick t).identDue n m = true) : execIdent t n m s = .next ((s.tick t).identOne n m) :=
  congrArg Host.Outcome.next (if_pos (by rw [ready, due]; rfl))

theorem State.firmwareCommand_field (s : State) (id : Nat) (records : List Byte) : (s.firmwareCommand id records).field = s.field :=
  State.request_field _ _

/-- A node is ACTIVE at an address of a loop. -/
structure Attached (x : Node) (l m : Nat) : Prop where
  active : x.state = 3
  medium : x.medium = 3
  onLoop : x.lane = l
  addr : x.addr = m

/-- A node that attaches is ACTIVE at its address, whatever is sent to it and whether its work moves with it. -/
theorem State.attach_attached (s : State) (l m id latency : Nat) (scheds : List (Nat × StreamSched)) :
    Attached ((s.attach l m id latency scheds).node id) l m := by
  unfold State.attach
  extract_lets n moved a b c d
  have ha : Attached (a.node id) l m := by
    rw [State.node_setNode_same]
    exact ⟨rfl, rfl, rfl, rfl⟩
  have hb : b.field = a.field :=
    (State.raise_field _ _ _).trans ((State.persistNode_field _ _).trans (State.loopAddrStat_field _ _))
  have hc : c.field.nodes = b.field.nodes := rfl
  have hd : d.field = c.field :=
    foldl_proj State.field _ (fun (s : State) x => s.firmwareCommand_field id (schedRecord x)) c scheds
  have told : Attached (d.node id) l m := by
    rw [State.node_of_field hd, State.node_of_nodes hc, State.node_of_field hb]
    exact ha
  split
  · rw [State.node_of_field (State.moveWork_field _ _)]
    exact told
  · exact told

/-- What an IDRSP must meet to be accepted (R135): its serial, the node's state, the range of versions and the proof. -/
structure IdentAnswered (s : State) (x : Node) (serial range resp challenge : Nat) : Prop where
  takes : s.takesFrames = true
  hash : s.hashRuns = true
  own : x.serial = serial
  known : x.state = 1 ∨ x.state = 3 ∨ x.state = 4
  least : range % 4 ≤ 1
  most : 1 ≤ range / 4 % 4
  secret : s.secretOpen x.keyslot = true
  proof : resp = s.proof x.keyslot serial challenge

theorem execIdrsp_attaches {t : Angle} {n : Fin 4} {m : Fin 8} {serial range resp challenge id : Nat} {s : State}
    (attached : (s.tick t).loopNode n m = some id) (asked : (s.tick t).field.idents.find (n.val * 8 + m.val) = some challenge)
    (answered : IdentAnswered (s.tick t) ((s.tick t).node id) serial range resp challenge) (latency : Nat)
    (scheds : List (Nat × StreamSched)) :
    ∃ u, execIdrsp t n m serial range latency resp scheds s = .next u ∧ Attached (u.node id) n m := by
  have known : ¬(((s.tick t).node id).state ≠ 1 ∧ ((s.tick t).node id).state ≠ 3 ∧ ((s.tick t).node id).state ≠ 4) := by
    have := answered.known
    omega
  have range : ¬(1 < range % 4 ∨ range / 4 % 4 < 1) := by
    have least := answered.least
    have most := answered.most
    omega
  unfold execIdrsp
  dsimp only
  rw [attached, asked]
  dsimp only
  rw [if_neg (by simp [answered.takes, answered.hash]), if_neg (not_not.mpr answered.own), if_neg known, if_neg range,
    if_neg (by simp [answered.secret, answered.proof, answered.own])]
  exact ⟨_, rfl, State.attach_attached _ _ _ _ _ _⟩

/-! ### The commands -/

/-- Settles O33, each clause from the lemma about its command. -/
theorem loopMediumCommandsComplete : Obligations.LoopMediumCommandsComplete := by
  unfold Obligations.LoopMediumCommandsComplete
  refine ⟨?sync, ?exchange, ?received, ?ident, ?answer⟩
  case sync =>
    intro t n s ready first due
    exact execLoopSync_sends ready first due
  case exchange =>
    intro t n w x s a ready idle opened active medium onLoop takeback
    exact execLoopExchangeStart_begins ready idle opened ⟨active, medium, onLoop, takeback⟩
  case received =>
    intro t n octets check id s enabled crc header ftype version spare addr attached medium takes
    refine ⟨_, execLoopFrameReceived_hears enabled ⟨crc, header, ftype, version, spare, addr⟩ attached medium takes, ?_⟩
    rw [State.heardFrom_node]
    exact ⟨rfl, ((s.tick t).countLoopFrame_basis n).now⟩
  case ident =>
    intro t n m id s ready due valid settled away
    obtain ⟨challenge, asked⟩ := State.identOne_challenges valid settled away
    exact ⟨_, execIdent_sends ready due, by rw [challenge]; rfl, asked⟩
  case answer =>
    intro t n m serial range latency resp challenge id scheds s attached asked takes hash own known least most secret proof
    obtain ⟨u, run, active, medium, onLoop, addr⟩ := execIdrsp_attaches attached asked
      ⟨takes, hash, own, known, least, most, secret, proof⟩ latency scheds
    exact ⟨u, run, active, medium, onLoop, addr⟩

end Sys2Proof.Machine
end

section
/-!
PROOFS. What commands of the queues, the flow computing array, the Balance Engine, credit and the tamper inputs leave as it is (R143, R146, R160,
R213, R224, R230): the parts that a command may change come first, then what the shared operations of these units stay within.
-/

namespace Sys2Proof.Machine

/-! ### The parts that a command may change -/

/-- The parts that a command may change beside what event lines move: `take s u` is `s` with these parts, and what event lines move, of
`u`. Taking them twice is taking the later ones. -/
structure Parts where
  take : State → State → State
  later : ∀ s u w, take (take s u) w = take s w
  events : ∀ s u, take s (s.eventsOf u) = s.eventsOf u

/-- The parts that a write may change: the error ring is always one of them. -/
structure WriteParts extends Parts where
  ring : ∀ s e u, take s (({ s with errRing := e } : State).eventsOf u) = ({ s with errRing := e } : State).eventsOf u

/-- The second state differs from the first one only in these parts, in some registers and in what event lines move. -/
def Parts.Within (f : Parts) (keys : List Nat) (s u : State) : Prop :=
  u = f.take s u ∧ ∀ k, stillKey k = true → k ∉ keys → u.reg k = s.reg k

namespace Parts.Within
variable {f : Parts} {keys : List Nat} {s u w : State}

theorem trans (a : f.Within keys s u) (b : f.Within keys u w) : f.Within keys s w := by
  refine ⟨?_, fun k still other => (b.2 k still other).trans (a.2 k still other)⟩
  calc w = f.take u w := b.1
    _ = f.take (f.take s u) w := by rw [← a.1]
    _ = f.take s w := f.later s u w

theorem of_signals (frame : Signals s u) (regs : ∀ k, stillKey k = true → k ∉ keys → u.reg k = s.reg k) : f.Within keys s u := by
  refine ⟨?_, regs⟩
  unfold Signals at frame
  rw [frame]
  exact (f.events s u).symm

theorem refl (s : State) : f.Within keys s s := of_signals (.refl s) fun _ _ _ => rfl

theorem ite {c : Prop} [Decidable c] (a : f.Within keys s u) (b : f.Within keys s w) : f.Within keys s (if c then u else w) := by
  split
  · exact a
  · exact b

theorem foldl {α : Type} (g : State → α → State) (l : List α) (h : ∀ s, ∀ a ∈ l, f.Within keys s (g s a)) (s : State) :
    f.Within keys s (l.foldl g s) := by
  induction l generalizing s with
  | nil => exact refl s
  | cons a l ih => exact (h s a List.mem_cons_self).trans (ih (fun s b mem => h s b (List.mem_cons_of_mem _ mem)) _)

theorem setReg {k : Nat} (h : k ∈ keys) (s : State) (v : Nat) : f.Within keys s (s.setReg k v) :=
  of_signals (State.setReg_signals s k v) fun _ _ other => State.reg_setReg_other _ _ _ _ (fun e => other (e ▸ h))

theorem setFld {k : Nat} (h : k ∈ keys) (s : State) (hi lo v : Nat) : f.Within keys s (s.setFld k hi lo v) := setReg h s _

theorem setFlag {k : Nat} (h : k ∈ keys) (s : State) (i : Nat) (b : Bool) : f.Within keys s (s.setFlag k i b) := setReg h s _

theorem bump {k : Nat} (h : k ∈ keys) (s : State) (n : Nat) : f.Within keys s (s.bump k n) := setReg h s _

theorem setReg64 {klo khi : Nat} (lo : klo ∈ keys) (hi : khi ∈ keys) (s : State) (v : Nat) : f.Within keys s (s.setReg64 klo khi v) :=
  (setReg lo s _).trans (setReg hi _ _)

theorem raise {page : Nat} (h : evRaw page ∈ keys) (s : State) (i : Nat) : f.Within keys s (s.raise page i) :=
  of_signals (State.raise_signals s page i) fun _ still other => State.raise_still _ _ _ _ still (fun e => other (e ▸ h))

theorem clearCauses {page : Nat} (h : evRaw page ∈ keys) (s : State) (mask : Nat) : f.Within keys s (s.clearCauses page mask) := by
  refine of_signals (State.clearCauses_signals s page mask) fun k still other => ?_
  have raw : k ≠ evRaw page := fun e => other (e ▸ h)
  rw [State.clearCauses, State.updateLines_still _ _ _ still, State.reg_setReg_other _ _ _ _ raw]

/-- What a command at an angle of the current cycle changes, against the state before it. -/
theorem of_tick {t : Angle} (h : f.Within keys (s.tick t) u) :
    u = f.take (s.tick t) u ∧ ∀ k, stillKey k = true → k ∉ keys → u.reg k = s.reg k :=
  ⟨h.1, fun k still other => (h.2 k still other).trans (State.tick_reg s t k)⟩

end Parts.Within

/-- The finish of a write may change the error ring, its page's SEQ and the registers of a capture beside what its effect changes. -/
theorem WriteParts.finish (f : WriteParts) {keys : List Nat} {s : State} {r : WriteResult} (h : f.Within keys s r.state) (p : Path)
    (page off : Nat) : f.Within (captureKeys page ++ (page * 0x1000 + 0x030) :: keys) s (State.finish p page off r) := by
  have effect : f.Within (captureKeys page ++ (page * 0x1000 + 0x030) :: keys) s r.state :=
    ⟨h.1, fun k still other => h.2 k still (fun mem => other (List.mem_append_right _ (List.mem_cons_of_mem _ mem)))⟩
  refine effect.trans ⟨?_, fun k still other => ?_⟩
  · have frame := State.finish_signals p page off r
    unfold Signals at frame
    rw [frame]
    exact (f.ring _ _ _).symm
  · simp only [List.mem_append, List.mem_cons, not_or] at other
    obtain ⟨capture, seq, -⟩ := other
    exact State.finish_reg _ _ _ _ _ still capture seq

/-- A write that passes its gate changes what its effect and its finish change. -/
theorem WriteParts.hostWrite (f : WriteParts) {keys : List Nat} {s a u : State} {p : Path} {page off : Nat} {eff : State → WriteResult}
    (through : s.through p page off true = some a) (effect : f.Within keys a (eff a).state)
    (run : s.hostWrite p page off eff = u) : f.Within (captureKeys page ++ (page * 0x1000 + 0x030) :: keys) a u := by
  subst run
  rw [State.hostWrite_through through]
  exact f.finish effect p page off

/-- A write may change no part but the error ring. -/
def ringParts : WriteParts where
  take s u := ({ s with errRing := u.errRing } : State).eventsOf u
  later _ _ _ := rfl
  events _ _ := rfl
  ring _ _ _ := rfl

/-- A write may change the Lift queues. -/
def liftParts : WriteParts where
  take s u := ({ s with errRing := u.errRing, lift := u.lift } : State).eventsOf u
  later _ _ _ := rfl
  events _ _ := rfl
  ring _ _ _ := rfl

/-- A write may change the ledger. -/
def ledgerParts : WriteParts where
  take s u := ({ s with errRing := u.errRing, led := u.led } : State).eventsOf u
  later _ _ _ := rfl
  events _ _ := rfl
  ring _ _ _ := rfl

/-- A write may change the flow computing array. -/
def fcaParts : WriteParts where
  take s u := ({ s with errRing := u.errRing, fca := u.fca } : State).eventsOf u
  later _ _ _ := rfl
  events _ _ := rfl
  ring _ _ _ := rfl

/-- A write may change the Balance Engine, and the pinned instants of its windows in the sweep. -/
def balanceParts : WriteParts where
  take s u := ({ s with errRing := u.errRing, balance := u.balance, sweep := u.sweep } : State).eventsOf u
  later _ _ _ := rfl
  events _ _ := rfl
  ring _ _ _ := rfl

/-- A write may change the accounts and the ledger. -/
def accountParts : WriteParts where
  take s u := ({ s with errRing := u.errRing, billing := u.billing, led := u.led } : State).eventsOf u
  later _ _ _ := rfl
  events _ _ := rfl
  ring _ _ _ := rfl

/-- A tamper input may change the tamper log and the ledger. -/
def tamperParts : Parts where
  take s u := ({ s with tamper := u.tamper, led := u.led } : State).eventsOf u
  later _ _ _ := rfl
  events _ _ := rfl

/-! ### Records of the ledger -/

theorem State.setUnc_reg (s : State) (v k : Nat) (unc : k ≠ Reg.SLALOM_E_UNC) (head : k ≠ Reg.SLALOM_E_HEAD) :
    (s.setUnc v).reg k = s.reg k := by
  rw [State.setUnc, State.reg_setReg_other _ _ _ _ head, State.reg_setReg_other _ _ _ _ unc]

/-- A record moves no registers but those of its charge (R45). -/
theorem State.append_reg (s : State) (cls : Nat) (payload : List Byte) (obl : Option Nat) (leaf k : Nat)
    (unc : k ≠ Reg.SLALOM_E_UNC) (head : k ≠ Reg.SLALOM_E_HEAD) : (s.append cls payload obl leaf).2.reg k = s.reg k := by
  unfold State.append
  split
  · rfl
  · extract_lets r a b c
    have entered : a.reg k = s.reg k := State.reg_of_regs (s.enterRecord_regs _) k
    have charged : b.reg k = a.reg k := by
      simp only [b]
      split
      · exact State.setUnc_reg _ _ _ unc head
      · rfl
    have sent : c.reg k = b.reg k := by
      simp only [c]
      split <;> rfl
    exact (sent.trans charged).trans entered

namespace Parts.Within
variable {f : Parts} {keys : List Nat}

/-- A record that is not charged changes no register. -/
theorem journal (led : ∀ s l u, f.take s (({ s with led := l } : State).eventsOf u) = ({ s with led := l } : State).eventsOf u) (s : State)
    {cls : Nat} (uncharged : chargedClass cls = false) (payload : List Byte) : f.Within keys s (s.journal cls payload) := by
  refine ⟨?_, fun k _ _ => State.reg_of_regs (State.append_regs_uncharged s uncharged payload none 0) k⟩
  have frame := s.append_signals cls payload none 0
  unfold Signals at frame
  rw [State.journal, frame]
  exact (led _ _ _).symm

/-- A record that is charged changes the registers of the charge. -/
theorem journalCharged (led : ∀ s l u, f.take s (({ s with led := l } : State).eventsOf u) = ({ s with led := l } : State).eventsOf u)
    (unc : Reg.SLALOM_E_UNC ∈ keys) (head : Reg.SLALOM_E_HEAD ∈ keys) (s : State) (cls : Nat) (payload : List Byte) :
    f.Within keys s (s.journal cls payload) := by
  refine ⟨?_, fun k _ other => s.append_reg cls payload none 0 k (fun e => other (e ▸ unc)) (fun e => other (e ▸ head))⟩
  have frame := s.append_signals cls payload none 0
  unfold Signals at frame
  rw [State.journal, frame]
  exact (led _ _ _).symm

end Parts.Within

/-! ### The queues (R140, R142, R143) -/

theorem State.setQueue_within (keys : List Nat) (s : State) (q : Nat) (x : LiftQueue) : liftParts.Within keys s (s.setQueue q x) :=
  ⟨rfl, fun _ _ _ => rfl⟩

/-- The registers that a flush moves. -/
def flushKeys (q : Nat) : List Nat := [queueReg Reg.LIFT_Q_FL_DISC q, evRaw (queuePage q)]

theorem State.flushed_within (s : State) (q : Nat) : liftParts.Within (flushKeys q) s (s.flushed q) := by
  have count : queueReg Reg.LIFT_Q_FL_DISC q ∈ flushKeys q := List.mem_cons_self
  have cause : evRaw (queuePage q) ∈ flushKeys q := List.mem_cons_of_mem _ List.mem_cons_self
  exact ((s.setQueue_within _ q _).trans (.bump count _ _)).trans (.raise cause _ _)

theorem effFlush_within (q : Nat) (v : Word) (s : State) : liftParts.Within (flushKeys q) s (effFlush q v s).state := by
  unfold effFlush
  extract_lets x
  split
  · exact .refl s
  · split
    · exact s.setQueue_within _ q _
    · exact s.flushed_within q

theorem effQcfg_within (q : Nat) (v : Word) (s : State) :
    ledgerParts.Within [queueReg Reg.LIFT_Q_QCFG q] s (effQcfg q v s).state :=
  .trans (.setReg List.mem_cons_self s _) (.journal (fun _ _ _ => rfl) _ (by decide) _)

/-- The registers of a queue's watermark. -/
def peakKeys (q : Nat) : List Nat := [queueReg Reg.LIFT_Q_WMPEAK q, queueReg Reg.LIFT_Q_WMAT_LO q, queueReg Reg.LIFT_Q_WMAT_HI q]

section
variable {f : Parts} {keys : List Nat} {q : Nat} (peak : peakKeys q ⊆ keys) (cause : evRaw (queuePage q) ∈ keys)
include peak cause

theorem State.watermark_within (s : State) (before : Nat) : f.Within keys s (s.watermark q before) := by
  have atPeak : queueReg Reg.LIFT_Q_WMPEAK q ∈ keys := peak (by simp [peakKeys])
  have atLo : queueReg Reg.LIFT_Q_WMAT_LO q ∈ keys := peak (by simp [peakKeys])
  have atHi : queueReg Reg.LIFT_Q_WMAT_HI q ∈ keys := peak (by simp [peakKeys])
  exact .ite (.refl s) (.ite (.setFld atPeak s _ _ _)
    (.ite (((Parts.Within.setReg64 atLo atHi s _).trans (.setFld atPeak _ _ _ _)).trans (.raise cause _ _)) (.refl s)))

theorem State.clearWatermark_within (s : State) : f.Within keys s (s.clearWatermark q) := by
  have atPeak : queueReg Reg.LIFT_Q_WMPEAK q ∈ keys := peak (by simp [peakKeys])
  have atLo : queueReg Reg.LIFT_Q_WMAT_LO q ∈ keys := peak (by simp [peakKeys])
  have atHi : queueReg Reg.LIFT_Q_WMAT_HI q ∈ keys := peak (by simp [peakKeys])
  exact ((Parts.Within.setFld atPeak s _ _ _).trans (.setReg64 atLo atHi _ _)).trans (State.watermark_within peak cause _ _)

end

/-- The registers that a clear of the WM causes of a page moves. -/
def pendKeys (g : Nat) : List Nat := evRaw (0x18 + g) :: (List.range 8).flatMap (fun i => peakKeys (8 * g + i))

/-- The queues of a page group stand on its page. -/
theorem queuePage_group {g i : Nat} (h : i < 8) : queuePage (8 * g + i) = 0x18 + g := by
  simp only [queuePage]
  omega

theorem effLiftPend_within (g : Nat) (v : Word) (s : State) : ringParts.Within (pendKeys g) s (effLiftPend g v s).state := by
  refine (Parts.Within.clearCauses List.mem_cons_self s _).trans (.foldl _ _ (fun s i mem => .ite ?_ (.refl s)) _)
  have peak : peakKeys (8 * g + i) ⊆ pendKeys g := fun k at' => List.mem_cons_of_mem _ (List.mem_flatMap.mpr ⟨i, mem, at'⟩)
  have cause : evRaw (queuePage (8 * g + i)) ∈ pendKeys g := by
    rw [queuePage_group (List.mem_range.mp mem)]
    exact List.mem_cons_self
  exact s.clearWatermark_within peak cause

/-! ### The read of PEEK_TAG (R140, R276) -/

theorem pathIdx_injective {p q : Path} (h : pathIdx p = pathIdx q) : p = q := by
  cases p with
  | pcie => cases q with
    | pcie => rfl
    | svc => exact absurd h (by decide)
    | kfp b j => simp only [pathIdx] at h; omega
  | svc => cases q with
    | pcie => exact absurd h (by decide)
    | svc => rfl
    | kfp b j => simp only [pathIdx] at h; omega
  | kfp a i => cases q with
    | pcie => simp only [pathIdx] at h; omega
    | svc => simp only [pathIdx] at h; omega
    | kfp b j =>
      simp only [pathIdx] at h
      have peer : a = b := by bv_omega
      have sess : i = j := by bv_omega
      rw [peer, sess]

/-- What a path has latched for a register stands when another path latches, or this one for another register. -/
theorem State.latched_latchAt_elsewhere (s : State) {p q : Path} {k j : Nat} (v : Nat) (hk : k < 2 ^ 20) (hj : j < 2 ^ 20)
    (h : q ≠ p ∨ j ≠ k) : (s.latchAt p k v).latched q j = s.latched q j := by
  have keys : pathIdx q * 2 ^ 20 + j ≠ pathIdx p * 2 ^ 20 + k := by
    intro e
    rcases h with path | register
    · exact path (pathIdx_injective (by omega))
    · exact register (by omega)
  simp only [State.latched, State.latchAt_latch, SMap.find_put_other _ _ _ _ keys]

/-- The words that PEEK latches: the cell at R, least significant word first (Table 7.4). -/
theorem State.readPeek_fst (p : Path) (g : Nat) (s : State) :
    (State.readPeek p g s).1 =
      (List.range 4).foldl (fun (s : State) i => s.latchAt p (Reg.LIFT_PEEK_D0 g + 4 * i)
        ((s.peekWord (8 * g + s.fld (Reg.LIFT_PEEK_SEL g) 2 0)).1 / 2 ^ (32 * i) % 2 ^ 32)) s := rfl

theorem State.readPeek_latched_elsewhere (p q : Path) (g : Fin 4) (s : State) {k : Nat} (hk : k < 2 ^ 20)
    (h : q ≠ p ∨ k ∉ [Reg.LIFT_PEEK_D0 g, Reg.LIFT_PEEK_D1 g, Reg.LIFT_PEEK_D2 g, Reg.LIFT_PEEK_D3 g]) :
    (State.readPeek p g s).1.latched q k = s.latched q k := by
  have apart : ∀ i ∈ List.range 4, q ≠ p ∨ k ≠ Reg.LIFT_PEEK_D0 g + 4 * i := by
    intro i mem
    refine h.imp_right fun other e => other ?_
    have := List.mem_range.mp mem
    simp only [List.mem_cons, List.not_mem_nil, or_false, Reg.LIFT_PEEK_D0, Reg.LIFT_PEEK_D1, Reg.LIFT_PEEK_D2, Reg.LIFT_PEEK_D3] at e ⊢
    omega
  have below : ∀ i ∈ List.range 4, Reg.LIFT_PEEK_D0 g + 4 * i < 2 ^ 20 := by
    intro i mem
    have := List.mem_range.mp mem
    simp only [Reg.LIFT_PEEK_D0]
    omega
  unfold State.readPeek
  extract_lets c
  dsimp only
  generalize List.range 4 = l at apart below
  generalize c.1 = w
  clear c
  induction l generalizing s with
  | nil => rfl
  | cons i l ih =>
    rw [List.foldl_cons, ih _ (fun j mem => apart j (List.mem_cons_of_mem _ mem)) (fun j mem => below j (List.mem_cons_of_mem _ mem))]
    exact s.latched_latchAt_elsewhere _ (below i List.mem_cons_self) hk (apart i List.mem_cons_self)

theorem State.readPeek_latches (p : Path) (g : Nat) (s : State) :
    (State.readPeek p g s).1 = { s with latch := (State.readPeek p g s).1.latch } := rfl

/-! ### The flow computing array (R167, R185, R186) -/

theorem State.setLaneRec_within (keys : List Nat) (s : State) (l : Nat) (x : LaneRec) : fcaParts.Within keys s (s.setLaneRec l x) :=
  ⟨rfl, fun _ _ _ => rfl⟩

theorem State.setChan_within (keys : List Nat) (s : State) (redo : Bool) (ch : Nat) (c : ChanState) :
    fcaParts.Within keys s (s.setChan redo ch c) := by
  cases redo <;> exact ⟨rfl, fun _ _ _ => rfl⟩

theorem effCloseHi_within (l : Nat) (v : Word) (s : State) : fcaParts.Within [] s (effCloseHi l v s).state := by
  unfold effCloseHi
  extract_lets b x
  rw [ite_state, ite_state]
  exact .ite (.refl s) (.ite (.refl s) (s.setLaneRec_within _ l _))

theorem effPbHi_within (v : Word) (s : State) : fcaParts.Within [Reg.FCAC_PB_HI] s (effPbHi v s).state := by
  unfold effPbHi
  extract_lets i slot value a b
  split
  · exact .refl s
  · exact (Parts.Within.setReg List.mem_cons_self s _).trans ⟨rfl, fun _ _ _ => rfl⟩

theorem State.ringResult_within (s : State) (l : Nat) (words : List Nat) (last : Nat) :
    fcaParts.Within [evRaw (0x20 + l)] s (s.ringResult l words last) :=
  (s.setLaneRec_within _ l _).trans (.ite (.raise List.mem_cons_self _ _) (.refl _))

theorem State.writeCloses_within (s : State) (l ch : Nat) (limit : Option Nat) (fuel : Nat) :
    fcaParts.Within [evRaw (0x20 + l)] s (s.writeCloses l ch limit fuel).2 := by
  induction fuel generalizing s with
  | zero => exact .refl s
  | succ fuel ih =>
    unfold State.writeCloses
    extract_lets x c first
    split
    · exact .refl s
    · rw [ite_snd, ite_snd]
      exact .ite (.refl s) (.ite (.refl s) ((((s.setChan_within _ true ch _).trans (State.ringResult_within _ l _ _)).trans
        (.raise List.mem_cons_self _ _)).trans (ih _)))

theorem State.dropCloses_within (keys : List Nat) (s : State) (l : Nat) : fcaParts.Within keys s (s.dropCloses l) :=
  s.setLaneRec_within keys l _

/-- What `closeAll` does for one channel of its lane, while the ring has room. -/
def State.closeIfRoom (l : Nat) (r : Bool × State) (ch : Nat) : Bool × State := if r.1 then r.2.writeCloses l ch none 65 else r

theorem State.closeIfRoom_foldl_within (l : Nat) (chs : List Nat) (r : Bool × State) :
    fcaParts.Within [evRaw (0x20 + l)] r.2 (chs.foldl (State.closeIfRoom l) r).2 := by
  induction chs generalizing r with
  | nil => exact .refl _
  | cons ch chs ih =>
    have one : fcaParts.Within [evRaw (0x20 + l)] r.2 (State.closeIfRoom l r ch).2 := by
      unfold State.closeIfRoom
      split
      · exact r.2.writeCloses_within l ch none 65
      · exact .refl _
    exact one.trans (ih _)

theorem State.closeAll_within (s : State) (l : Nat) : fcaParts.Within [evRaw (0x20 + l)] s (s.closeAll l) := by
  have closed := State.closeIfRoom_foldl_within l (s.laneChans true l) (true, s)
  refine closed.trans (Parts.Within.trans (State.dropCloses_within _ _ l) (.ite ?_ ?_))
  · exact State.setLaneRec_within _ _ l _
  · exact State.setLaneRec_within _ _ l _

theorem effCloseEnd_within (l : Nat) (v : Word) (s : State) : fcaParts.Within [evRaw (0x20 + l)] s (effCloseEnd l v s).state := by
  unfold effCloseEnd
  split
  · exact .refl s
  · split
    · exact s.closeAll_within l
    · exact .refl s

/-! ### The windows of the Balance Engine (R191, R193, R202) -/

/-- The registers that show the graph (Table 10.4). -/
def graphKeys : List Nat := [Reg.BAL_STAT, Reg.BALG_GSTAT]

theorem State.setBalance_within (keys : List Nat) (s : State) (b : Balance) : balanceParts.Within keys s { s with balance := b } :=
  ⟨rfl, fun _ _ _ => rfl⟩

theorem State.retireZone_within (keys : List Nat) (s : State) (id : Nat) (z : Zone) : balanceParts.Within keys s (s.retireZone id z) :=
  .ite (s.setBalance_within keys _) (s.setBalance_within keys _)

theorem State.setZone_within (keys : List Nat) (s : State) (id : Nat) (z : Zone) : balanceParts.Within keys s (s.setZone id z) :=
  s.setBalance_within keys _

theorem State.showGraph_within (s : State) : balanceParts.Within graphKeys s s.showGraph :=
  (Parts.Within.setReg (by decide) s _).trans (.setFlag (by decide) _ _ _)

theorem State.changedOver_within (s : State) (id : Nat) (p : PendingGraph) : balanceParts.Within graphKeys s (s.changedOver id p) :=
  (s.setBalance_within _ _).trans (State.showGraph_within _)

theorem State.changeTo_within (s : State) (id at' : Nat) (p : PendingGraph) : balanceParts.Within graphKeys s (s.changeTo id at' p) := by
  unfold State.changeTo
  split
  · exact .refl s
  next z _ =>
    refine .ite (.refl s) ?_
    split
    next d _ =>
      refine .ite ((s.setZone_within _ id _).trans (State.changedOver_within _ id p)) ?_
      exact ((s.retireZone_within _ id z).trans (State.setZone_within _ _ id _)).trans (State.changedOver_within _ id p)
    · exact .ite (((s.retireZone_within _ id z).trans (State.setBalance_within _ _ _)).trans (State.changedOver_within _ id p)) (.refl s)

theorem State.windowEnd_within (s : State) (id at' : Nat) : balanceParts.Within graphKeys s (s.windowEnd id at') := by
  unfold State.windowEnd
  split
  · exact .refl s
  next z _ =>
    refine .ite (.refl s) ((s.setZone_within _ id _).trans (.foldl _ _ (fun s p _ => s.changeTo_within id at' p) _))

theorem State.cycleWindows_within (s : State) (id fuel : Nat) : balanceParts.Within graphKeys s (s.cycleWindows id fuel) := by
  induction fuel generalizing s with
  | zero => exact .refl s
  | succ fuel ih =>
    unfold State.cycleWindows
    split
    · exact .refl s
    · exact .ite (.refl s) ((s.windowEnd_within id _).trans (ih _))

theorem State.openAt_within (s : State) (id at' : Nat) (p : PendingGraph) : balanceParts.Within graphKeys s (s.openAt id at' p) := by
  unfold State.openAt
  split
  · exact .refl s
  · refine .ite (.refl s) ?_
    split
    next q _ => exact .ite ((s.changedOver_within id p).trans (State.changedOver_within _ id q)) (s.changedOver_within id p)
    · exact (s.setZone_within _ id _).trans (State.changedOver_within _ id p)

theorem State.civilEnd_within (s : State) (at' : Nat) (i : Instant) : balanceParts.Within graphKeys s (s.civilEnd at' i) := by
  unfold State.civilEnd
  split
  next id _ => exact .ite (.refl s) (.ite (s.windowEnd_within id at') (.foldl _ _ (fun s p _ => s.openAt_within id at' p) s))
  · exact .refl s

theorem State.openPending_within (s : State) (p : PendingGraph) : balanceParts.Within graphKeys s (s.openPending p) :=
  .foldl _ _ (fun s z _ => .ite (.refl s) (s.openAt_within z.1 _ p)) s

theorem State.dropInstants_within (keys : List Nat) (s : State) (ids : List Nat) : balanceParts.Within keys s (s.dropInstants ids) :=
  ⟨rfl, fun _ _ _ => rfl⟩

theorem State.advanceWindows_within (s : State) : balanceParts.Within graphKeys s s.advanceWindows := by
  have civil : ∀ (s : State) (due : List (Nat × Nat × Instant)),
      balanceParts.Within graphKeys s (due.foldl (fun s x => s.civilEnd x.1 x.2.2) s) :=
    fun s _ => .foldl _ _ (fun s x _ => s.civilEnd_within x.1 x.2.2) s
  have opened : ∀ (s : State) (l : List PendingGraph), balanceParts.Within graphKeys s (l.foldl State.openPending s) :=
    fun s _ => .foldl _ _ (fun s p _ => s.openPending_within p) s
  unfold State.advanceWindows
  extract_lets due ended dropped begun
  exact (((civil s due).trans (ended.dropInstants_within _ _)).trans (opened dropped _)).trans
    (.foldl _ _ (fun s id _ => s.cycleWindows_within id _) begun)

theorem effZreset_within (v : Word) (s : State) : balanceParts.Within graphKeys s (effZreset v s).state := by
  unfold effZreset
  split
  · exact .refl s
  · extract_lets a id
    have windows : balanceParts.Within graphKeys s a := s.advanceWindows_within
    split
    · exact windows
    next z _ => exact (windows.trans (a.retireZone_within _ id z)).trans (State.setZone_within _ _ id _)

/-! ### Accounts (R222, R224) -/

theorem State.setAccount_within (keys : List Nat) (s : State) (n : Nat) (x : Account) : accountParts.Within keys s (s.setAccount n x) :=
  ⟨rfl, fun _ _ _ => rfl⟩

theorem effPrEffHi_within (v : Word) (s : State) :
    accountParts.Within [bankKey s.acSel Reg.CRED_PR_EFF_HI] s (effPrEffHi v s).state := by
  unfold effPrEffHi
  extract_lets n a eff table b
  have staged : accountParts.Within [bankKey n Reg.CRED_PR_EFF_HI] s a := .setReg List.mem_cons_self s _
  have journalled : accountParts.Within [bankKey n Reg.CRED_PR_EFF_HI] a b := .journal (fun _ _ _ => rfl) a (by decide) _
  exact (staged.trans journalled).trans (b.setAccount_within _ n _)

theorem effMbW_within (v : Word) (s : State) :
    accountParts.Within [bankKey (s.acSel * 32 + s.fld Reg.CRED_MB_SEL 4 0) Reg.CRED_MB_W] s (effMbW v s).state := by
  unfold effMbW
  extract_lets n idx w a
  split
  · exact .refl s
  · exact ((Parts.Within.setReg List.mem_cons_self s w).trans (a.setAccount_within _ n _)).trans
      (.journal (fun _ _ _ => rfl) _ (by decide) _)

/-! ### Tamper inputs (R230, R231) -/

/-- The registers that a tamper input moves: its own, those of its entry's place in the log, and those of its record's charge. -/
def tamperKeys : List Nat :=
  [Reg.TAMP_TP_STAT, Reg.TAMP_LOG_WR, Reg.TAMP_LOG_OVF, Reg.SLALOM_E_UNC, Reg.SLALOM_E_HEAD, evRaw 0x35]

theorem State.tamperEvent_within (s : State) (e : TamperEntry) : tamperParts.Within tamperKeys s (s.tamperEvent e) :=
  (Parts.Within.raise (by decide) s 0).trans (.journalCharged (fun _ _ _ => rfl) (by decide) (by decide) _ _ _)

theorem State.recordTamper_within (s : State) (source low vigil : Nat) :
    tamperParts.Within tamperKeys s (s.recordTamper source low vigil) := by
  unfold State.recordTamper
  extract_lets runs e wr counted logged placed
  have counts : tamperParts.Within tamperKeys s counted := .ite (.bump (by decide) s 1) (.refl s)
  have logs : tamperParts.Within tamperKeys counted logged := ⟨rfl, fun _ _ _ => rfl⟩
  have places : tamperParts.Within tamperKeys logged placed := .setFld (by decide) logged _ _ _
  exact ((counts.trans logs).trans places).trans (.ite (placed.tamperEvent_within e) (.refl placed))

theorem execTamperInput_within {t : Angle} {input : Fin 3} {opened : Bool} {vigil : BitVec 48} {s u : State}
    (run : execTamperInput t input opened vigil s = .next u) : tamperParts.Within tamperKeys (s.tick t) u := by
  obtain rfl := Host.Outcome.next.inj run
  exact ((Parts.Within.setFlag (by decide) (s.tick t) _ _).trans (.ite (.setFlag (by decide) _ _ _) (.refl _))).trans
    (State.recordTamper_within _ _ _ _)

/-! ### The commands -/

/-- Settles O20: the clause of a write by what its effect stays within and by its finish, that of a tamper input by what it stays
within, and that of PEEK by what it latches. -/
theorem meterCommandsFrame : Obligations.MeterCommandsFrame := by
  unfold Obligations.MeterCommandsFrame
  refine ⟨?flush, ?clear, ?lane, ?peek, ?push, ?slot, ?closeEnd, ?restart, ?price, ?member, ?tamper⟩
  case flush =>
    intro t p q v s a u through run
    exact liftParts.hostWrite through (effFlush_within q.val v a) (Host.Outcome.next.inj run)
  case clear =>
    intro t p g v s a u through run
    obtain rfl := Host.Outcome.next.inj run
    rw [State.hostWrite_through through]
    obtain ⟨frame, regs⟩ := effLiftPend_within g.val v a
    exact ⟨frame, fun k still other => regs k still (fun mem => other (List.mem_append_right _ mem))⟩
  case lane =>
    intro t p q v s a u through run
    exact ledgerParts.hostWrite through (effQcfg_within q.val v a) (Host.Outcome.next.inj run)
  case peek =>
    intro t p g s a u through run
    have run := Host.Outcome.next.inj run
    obtain ⟨frame, regs⟩ := hostRead_latches through (State.readPeek_latches p g a) run
    refine ⟨frame, regs, fun q k hk other => ?_⟩
    rw [← run, State.hostRead_through through, answer_latched]
    exact a.readPeek_latched_elsewhere p q g hk other
  case push =>
    intro t p lane v s a u through run
    exact fcaParts.hostWrite through (effCloseHi_within lane.val v a) (Host.Outcome.next.inj run)
  case slot =>
    intro t p v s a u through run
    exact fcaParts.hostWrite through (effPbHi_within v a) (Host.Outcome.next.inj run)
  case closeEnd =>
    intro t p lane v s a u through run
    exact fcaParts.hostWrite through (effCloseEnd_within lane.val v a) (Host.Outcome.next.inj run)
  case restart =>
    intro t p v s a u through run
    exact balanceParts.hostWrite through (effZreset_within v a) (Host.Outcome.next.inj run)
  case price =>
    intro t p v s a u through run
    exact accountParts.hostWrite through (effPrEffHi_within v a) (Host.Outcome.next.inj run)
  case member =>
    intro t p v s a u through run
    exact accountParts.hostWrite through (effMbW_within v a) (Host.Outcome.next.inj run)
  case tamper =>
    intro t input opened vigil s u run
    exact (execTamperInput_within run).of_tick

end Sys2Proof.Machine
end

section
/-!
PROOFS. Packets, words, flushes and the watermark of the Lift queues (R136, R139 to R143) complete with their effect: what the operations on a
queue leave of its producers, and what a clear of one queue's watermark leaves of another's, come before the commands.
-/

namespace Sys2Proof.Machine

/-! ### A queue and what leaves it as it is -/

theorem Signals.lift {s u : State} (h : Signals s u) : u.lift = s.lift := (congrArg State.lift h).trans rfl

theorem State.queue_of_lift {s u : State} (h : u.lift = s.lift) (q : Nat) : u.queue q = s.queue q := by
  rw [State.queue, State.queue, h]

@[simp] theorem State.queue_setQueue (s : State) (q : Nat) (x : LiftQueue) : (s.setQueue q x).queue q = x := by
  simp [State.queue, State.setQueue, SMap.getD, SMap.find_put_same]

theorem State.queueCause_lift (s : State) (q base : Nat) : (s.queueCause q base).lift = s.lift := (State.raise_signals s _ _).lift

theorem State.watermark_lift (s : State) (q before : Nat) : (s.watermark q before).lift = s.lift := by
  unfold State.watermark
  extract_lets mark level a
  split
  · rfl
  · split
    · rfl
    · split
      · exact State.queueCause_lift _ _ _
      · rfl

theorem State.finish_done_lift (p : Path) (page off : Nat) (s : State) : (State.finish p page off (.done s)).lift = s.lift :=
  (congrArg State.lift (State.finish_done p page off s)).trans rfl

/-! ### Pointers (R139, R142) -/

theorem State.publish_queue (s : State) (q : Nat) : (s.publish q).queue q = { s.queue q with p := (s.queue q).w } :=
  (State.queue_of_lift (State.watermark_lift _ q _) q).trans (s.queue_setQueue q _)

/-- A queue after a completed flush: empty, with no open packet and no flush that waits. -/
def LiftQueue.emptied (x : LiftQueue) : LiftQueue :=
  { x with p := x.w, r := x.w, k := x.w, opened := none, flushAt := none, taken := none }

theorem State.flushed_queue (s : State) (q : Nat) : (s.flushed q).queue q = (s.queue q).emptied :=
  (State.queue_of_lift (State.queueCause_lift _ q _) q).trans (s.queue_setQueue q _)

/-- The queue after an abort word: it is written and published, and ends the open packet (R141). -/
theorem State.abortPacket_queue (s : State) (q header : Nat) :
    (s.abortPacket q header).queue q =
      { (s.queue q).push header abortTag with opened := none, p := ((s.queue q).w + 1) % 1024 } := by
  have raised : ∀ u : State, ((u.bump (queueReg Reg.LIFT_Q_ABORTS q)).queueCause q 16).queue q = u.queue q := fun u =>
    State.queue_of_lift (State.queueCause_lift _ q _) q
  rw [State.abortPacket, State.publish_queue, raised, State.queue_setQueue]
  rfl

/-! ### Producers (R136, R139) -/

/-- The packets that their producers hold, offered or waiting, are as before. -/
structure SameProducers (q : Nat) (s u : State) : Prop where
  offers : u.lift.offers = s.lift.offers
  waiting : (u.queue q).waiting = (s.queue q).waiting

namespace SameProducers
variable {q : Nat} {s u w : State}

theorem trans (a : SameProducers q s u) (b : SameProducers q u w) : SameProducers q s w :=
  ⟨b.offers.trans a.offers, b.waiting.trans a.waiting⟩

theorem of_lift (h : u.lift = s.lift) : SameProducers q s u := ⟨congrArg Lift.offers h, by rw [State.queue_of_lift h]⟩

theorem refl (s : State) : SameProducers q s s := of_lift rfl

theorem setQueue {x : LiftQueue} (h : x.waiting = (s.queue q).waiting) : SameProducers q s (s.setQueue q x) :=
  ⟨rfl, by rw [State.queue_setQueue, h]⟩

/-- A queue is set, and what follows leaves the queues as they are. -/
theorem setQueue_then {x : LiftQueue} (h : x.waiting = (s.queue q).waiting) (after : u.lift = (s.setQueue q x).lift) :
    SameProducers q s u := (setQueue h).trans (of_lift after)

theorem publish (s : State) : SameProducers q s (s.publish q) :=
  setQueue_then (x := { s.queue q with p := (s.queue q).w }) rfl (State.watermark_lift _ q _)

theorem flushed (s : State) : SameProducers q s (s.flushed q) :=
  setQueue_then (x := (s.queue q).emptied) rfl (State.queueCause_lift _ q _)

theorem abortPacket (s : State) (header : Nat) : SameProducers q s (s.abortPacket q header) := by
  unfold State.abortPacket
  extract_lets src a
  have written : SameProducers q s a := setQueue rfl
  have raised : SameProducers q a ((a.bump (queueReg Reg.LIFT_Q_ABORTS q)).queueCause q 16) := of_lift (State.queueCause_lift _ q _)
  exact (written.trans raised).trans (publish _)

theorem endPacket (s : State) : SameProducers q s (s.endPacket q) := by
  unfold State.endPacket
  extract_lets x a
  split
  · exact flushed s
  · have closed : SameProducers q s a := setQueue rfl
    have counted : SameProducers q a (a.bump (queueReg Reg.LIFT_Q_PKT_IN q)) := of_lift rfl
    exact (closed.trans counted).trans (publish _)

theorem writeWords (s : State) (ws : List Nat) : SameProducers q s (s.writeWords q ws) := by
  induction ws generalizing s with
  | nil => exact refl s
  | cons w ws ih =>
    unfold State.writeWords
    extract_lets x
    split
    · exact refl s
    · extract_lets i src a
      have written : SameProducers q s a := setQueue rfl
      split
      · exact written.trans (endPacket a)
      · exact written.trans (ih a)

theorem openPacket (s : State) (pk : LiftPacket) : SameProducers q s (s.openPacket q pk) := by
  unfold State.openPacket
  extract_lets src a b
  have header : SameProducers q s a := setQueue rfl
  have words : SameProducers q a b := writeWords a _
  split
  · exact (header.trans words).trans (abortPacket b _)
  · exact header.trans words

end SameProducers

/-- A packet is offered to a queue: the offers of the producers stand, and a packet that cannot be opened waits last (R139). -/
theorem State.offerPacket_producers (s : State) (q : Nat) (pk : LiftPacket) :
    (s.offerPacket q pk).lift.offers = s.lift.offers ∧
      (s.canOpen q pk = false → ((s.offerPacket q pk).queue q).waiting = (s.queue q).waiting ++ [pk]) := by
  unfold State.offerPacket
  extract_lets x a
  split
  next space => exact ⟨(SameProducers.openPacket s pk).offers, fun full => absurd space (by simp [full])⟩
  · have held : ((a.bump (queueReg Reg.LIFT_Q_HOLD q)).queueCause q 24).lift = a.lift := State.queueCause_lift _ q _
    refine ⟨(congrArg Lift.offers held).trans rfl, fun _ => ?_⟩
    rw [State.queue_of_lift held, State.queue_setQueue]

theorem find?_and_of_find? {α : Type} {p q : α → Bool} {l : List α} {a : α} (h : l.find? p = some a) (hq : q a = true) :
    l.find? (fun x => p x && q x) = some a := by
  induction l with
  | nil => exact absurd h (by simp)
  | cons b l ih =>
    rw [List.find?_cons] at h ⊢
    cases hb : p b with
    | true =>
      rw [hb] at h
      obtain rfl := Option.some.inj h
      simp [hq]
    | false =>
      rw [hb] at h
      simpa using ih h

/-- The oldest offer of a producer, where its queue takes that producer's packets and is not off, is the one that is offered (R136). -/
theorem execPacketOffer_offers {t : Angle} {feed : Bool} {o : LiftOffer} {s : State}
    (oldest : (s.tick t).lift.offers.find? (fun o => o.feed == feed) = some o) (src : (s.tick t).queueSrc o.queue = b2n feed)
    (off : (s.tick t).pageOff (queuePage o.queue) = false) :
    execPacketOffer t feed s = .next (({ s.tick t with lift := { (s.tick t).lift with
      offers := (s.tick t).lift.offers.erase o } } : State).offerPacket o.queue o.packet) := by
  have found : (s.tick t).lift.offers.find? (fun o => o.feed == feed && (s.tick t).queueSrc o.queue == b2n feed &&
      !(s.tick t).pageOff (queuePage o.queue)) = some o :=
    find?_and_of_find? (find?_and_of_find? oldest (by simp [src])) (by simp [off])
  unfold execPacketOffer
  dsimp only
  rw [found]

/-- No packet begins to wait while those that wait are written (R139). -/
theorem State.resumePackets_waiting (s : State) (q fuel : Nat) :
    ((s.resumePackets q fuel).queue q).waiting.length ≤ (s.queue q).waiting.length := by
  induction fuel generalizing s with
  | zero => exact le_rfl
  | succ fuel ih =>
    unfold State.resumePackets
    extract_lets x
    split
    · exact le_rfl
    next pk rest waits =>
      split
      · have opened := (SameProducers.openPacket (q := q) (s.setQueue q { x with waiting := rest }) pk).waiting
        refine (ih _).trans ?_
        rw [opened, State.queue_setQueue, show (s.queue q).waiting = pk :: rest from waits]
        exact Nat.le_succ _
      · exact le_rfl

/-- The first packet that waits is written where it has space (R139). -/
theorem execPacketResume_writes {t : Angle} {q : Fin 32} {pk : LiftPacket} {rest : List LiftPacket} {s : State}
    (waits : ((s.tick t).queue q).waiting = pk :: rest) (on : (s.tick t).queueOn q = true)
    (idle : ((s.tick t).queue q).opened = none) (space : 1 + headerWords pk.header ≤ ((s.tick t).queue q).space) :
    ∃ u, execPacketResume t q s = .next u ∧ (u.queue q).waiting.length ≤ rest.length := by
  refine ⟨_, rfl, ?_⟩
  unfold State.resumePackets
  extract_lets x
  have opens : ((s.tick t).queueOn q && x.opened.isNone && decide (1 + headerWords pk.header ≤ x.space)) = true := by
    simp only [x, on, idle, Option.isNone_none, Bool.and_self, Bool.true_and, decide_eq_true_eq]
    exact space
  rw [show x.waiting = pk :: rest from waits]
  dsimp only
  rw [if_pos opens]
  refine (State.resumePackets_waiting _ q _).trans ?_
  rw [(SameProducers.openPacket _ pk).waiting, State.queue_setQueue]

/-! ### Words of the host (R141, R282) -/

/-- What a packet that can be opened finds: an enabled queue with no packet open or waiting (R139). -/
theorem State.canOpen_iff (s : State) (q : Nat) (pk : LiftPacket) :
    s.canOpen q pk = true ↔ s.queueOn q = true ∧ (s.queue q).opened = none ∧ (s.queue q).waiting = [] ∧
      1 + headerWords pk.header ≤ (s.queue q).space := by
  simp only [State.canOpen, Bool.and_eq_true, Option.isNone_iff_eq_none, List.isEmpty_iff, decide_eq_true_eq, and_assoc]

/-- A packet of which no data word has come is opened with its header word. -/
theorem State.openPacket_header (s : State) (q : Nat) {pk : LiftPacket} (words : pk.words = []) (last : pk.superseded = false) :
    s.openPacket q pk = s.setQueue q { (s.queue q).push pk.header headerTag with opened := some { header := pk.header } } := by
  unfold State.openPacket
  rw [words, last]
  rfl

theorem State.hostHeader_opens {s : State} {q w : Nat} (fromHost : s.queueSrc q = 2) (opens : s.canOpen q { header := w } = true) :
    s.hostHeader q w = (s.setQueue q { s.queue q with hostHeader := some w }).openPacket q { header := w, src := 2 } := by
  obtain ⟨on, idle, first, space⟩ := (s.canOpen_iff q _).mp opens
  unfold State.hostHeader
  extract_lets x a src b
  have on' : a.queueOn q = true := on
  have host' : a.queueSrc q = 2 := fromHost
  have same : b = a := by
    simp only [b, x, first, idle]
    rfl
  have opens' : a.canOpen q { header := w, src := 2 } = true := by
    rw [State.canOpen_iff, State.queue_setQueue]
    exact ⟨on, idle, first, space⟩
  rw [if_neg (by simp [on', host']), same, State.offerPacket, if_pos opens']

theorem State.writeWords_one {s : State} {q w : Nat} {o : LiftPacket} (opened : (s.queue q).opened = some o)
    (more : o.words.length + 1 ≠ headerWords o.header) :
    s.writeWords q [w] = s.setQueue q { (s.queue q).push w (dataTag o.header o.words.length) with
      opened := some { o with words := o.words ++ [w] } } := by
  unfold State.writeWords
  extract_lets x
  rw [show x.opened = some o from opened]
  dsimp only
  rw [if_neg more]
  rfl

theorem State.hostData_writes {s : State} {q i w : Nat} {o : LiftPacket} (on : s.queueOn q = true) (src : s.queueSrc q = 2)
    (first : (s.queue q).waiting = []) (opened : (s.queue q).opened = some o) (next : o.words.length = i) :
    s.hostData q i w = s.writeWords q [w] := by
  unfold State.hostData
  extract_lets x drop
  rw [if_neg (by simp [on, src]), show x.waiting = [] from first, show x.opened = some o from opened]
  exact if_neg (by simp [next])

/-! ### The watermark (R143) -/

/-- No page's EV_RAW is a register of a watermark. -/
theorem evRaw_notMem_peakKeys (page q : Nat) : evRaw page ∉ peakKeys q := by
  simp only [peakKeys, queueReg, Reg.LIFT_Q_WMPEAK, Reg.LIFT_Q_WMAT_LO, Reg.LIFT_Q_WMAT_HI, List.mem_cons, List.not_mem_nil, or_false, evRaw]
  omega

/-- The watermark of a queue is clear and stays so: LEVEL does not stand above the mark, and the queue's WM cause is not set. -/
structure BelowMark (s : State) (q : Nat) : Prop where
  level : s.fld (queueReg Reg.LIFT_Q_WMCFG q) 9 0 = 0 ∨ (s.queue q).level ≤ min 511 (s.fld (queueReg Reg.LIFT_Q_WMCFG q) 9 0)
  cause : s.flag (evRaw (queuePage q)) (q % 8) = false

theorem BelowMark.watermark {s : State} {q : Nat} (h : BelowMark s q) : s.watermark q 0 = s := by
  unfold State.watermark
  extract_lets mark level a
  rcases h.level with off | low
  · have zero : mark = 0 := by simp only [mark, off, Nat.min_zero]
    exact if_pos zero
  · have low : level ≤ mark := low
    split
    · rfl
    · rw [if_neg (by simp [h.cause]), if_neg (by omega)]

/-- A register that is none of a queue's watermark registers stands when they are cleared. -/
theorem State.clearPeak_reg (s : State) (q k : Nat) (h : k ∉ peakKeys q) :
    ((s.setFld (queueReg Reg.LIFT_Q_WMPEAK q) 9 0 0).setReg64 (queueReg Reg.LIFT_Q_WMAT_LO q) (queueReg Reg.LIFT_Q_WMAT_HI q) 0).reg k =
      s.reg k := by
  simp only [peakKeys, List.mem_cons, List.not_mem_nil, or_false, not_or] at h
  obtain ⟨peak, lo, hi⟩ := h
  rw [State.reg_setReg64_other _ _ _ _ _ lo hi, State.reg_setFld_other _ _ _ _ _ _ peak]

/-- The clear of a queue's watermark where LEVEL does not stand above the mark: PEAK is 0, and it stays so. -/
theorem BelowMark.clearWatermark {s : State} {q : Nat} (h : BelowMark s q) :
    BelowMark (s.clearWatermark q) q ∧ (s.clearWatermark q).fld (queueReg Reg.LIFT_Q_WMPEAK q) 9 0 = 0 := by
  unfold State.clearWatermark
  extract_lets a b
  have cfg : b.reg (queueReg Reg.LIFT_Q_WMCFG q) = s.reg (queueReg Reg.LIFT_Q_WMCFG q) :=
    s.clearPeak_reg q _ (by simp [peakKeys])
  have raw : b.reg (evRaw (queuePage q)) = s.reg (evRaw (queuePage q)) := s.clearPeak_reg q _ (evRaw_notMem_peakKeys _ q)
  have below : BelowMark b q := ⟨by rw [State.fld_eq_of_reg cfg]; exact h.level, by rw [State.flag_of_reg raw]; exact h.cause⟩
  rw [below.watermark]
  refine ⟨below, ?_⟩
  have peak : b.reg (queueReg Reg.LIFT_Q_WMPEAK q) = a.reg (queueReg Reg.LIFT_Q_WMPEAK q) :=
    State.reg_setReg64_other _ _ _ _ _ (by simp) (by simp)
  rw [State.fld_eq_of_reg peak, State.fld_setFld _ _ _ _ _ (by decide) (by decide)]
  rfl

/-- The raising of one cause of a page leaves the others as they are. -/
theorem State.raise_flag_other (s : State) {page i j : Nat} (hp : page < 0x100) (h : j ≠ i) :
    (s.raise page j).flag (evRaw page) i = s.flag (evRaw page) i := by
  have raised : s.reg (evRaw page) ||| (2 ^ j &&& causeMask page) < 2 ^ 32 :=
    Nat.or_lt_two_pow (s.reg_lt _) (Nat.and_lt_two_pow _ (causeMask_lt _))
  rw [State.flag, State.flag, State.raise, State.raiseMask_raw _ _ _ (stillKey_evRaw hp), Nat.mod_eq_of_lt raised, bit, bit,
    Nat.testBit_or, Nat.testBit_and, Nat.testBit_two_pow_of_ne h]
  simp

/-- Two queues of one page. -/
structure Neighbours (q r : Nat) : Prop where
  bound : q < 32
  page : queuePage r = queuePage q
  apart : r % 8 ≠ q % 8

namespace Neighbours
variable {q r : Nat} (near : Neighbours q r)
include near

/-- The settings and the peak of a queue are no registers that the clear of its neighbour's watermark moves. -/
theorem keeps (s : State) {k : Nat} (h : k = queueReg Reg.LIFT_Q_WMCFG q ∨ k = queueReg Reg.LIFT_Q_WMPEAK q) :
    (s.clearWatermark r).reg k = s.reg k := by
  have bound := near.bound
  have apart := near.apart
  have page : r / 8 = q / 8 := Nat.add_left_cancel near.page
  have within : ringParts.Within (evRaw (queuePage r) :: peakKeys r) s (s.clearWatermark r) :=
    s.clearWatermark_within (List.subset_cons_self _ _) List.mem_cons_self
  have place : k = 0x18110 + 0x1000 * (q / 8) + 0x40 * (q % 8) ∨ k = 0x18114 + 0x1000 * (q / 8) + 0x40 * (q % 8) := h
  refine within.2 k ?_ ?_
  · simp only [stillKey, evRaw, Reg.EVT_MSG_CNT, Reg.KEEP_RSV_WAIT, Reg.KEEP_KEY_STOP, Bool.and_eq_true, bne_iff_ne, ne_eq]
    omega
  · simp only [peakKeys, queueReg, queuePage, Reg.LIFT_Q_WMPEAK, Reg.LIFT_Q_WMAT_LO, Reg.LIFT_Q_WMAT_HI, List.mem_cons, List.not_mem_nil,
      or_false, evRaw]
    omega

theorem keepsCause (s : State) : (s.clearWatermark r).flag (evRaw (queuePage q)) (q % 8) = s.flag (evRaw (queuePage q)) (q % 8) := by
  have bound := near.bound
  have apart : ∀ {k}, k ∈ peakKeys r → evRaw (queuePage q) ≠ k := fun mem e => evRaw_notMem_peakKeys _ r (e ▸ mem)
  have peak : ∀ (u : State) (v : Nat), (u.setFld (queueReg Reg.LIFT_Q_WMPEAK r) 9 0 v).reg (evRaw (queuePage q)) =
      u.reg (evRaw (queuePage q)) := fun u v => State.reg_setFld_other _ _ _ _ _ _ (apart (by simp [peakKeys]))
  have instant : ∀ (u : State) (v : Nat), (u.setReg64 (queueReg Reg.LIFT_Q_WMAT_LO r) (queueReg Reg.LIFT_Q_WMAT_HI r) v).reg
      (evRaw (queuePage q)) = u.reg (evRaw (queuePage q)) := fun u v =>
    State.reg_setReg64_other _ _ _ _ _ (apart (by simp [peakKeys])) (apart (by simp [peakKeys]))
  have raised : ∀ u : State, (u.queueCause r 0).flag (evRaw (queuePage q)) (q % 8) = u.flag (evRaw (queuePage q)) (q % 8) := by
    intro u
    rw [State.queueCause, near.page]
    refine u.raise_flag_other (by simp only [queuePage]; omega) ?_
    rw [Nat.zero_add]
    exact near.apart
  unfold State.clearWatermark State.watermark
  extract_lets a b mark level c
  have cleared : b.reg (evRaw (queuePage q)) = s.reg (evRaw (queuePage q)) := (instant a 0).trans (peak s 0)
  split
  · exact State.flag_of_reg cleared _
  · split
    · exact State.flag_of_reg ((peak b _).trans cleared) _
    · split
      · exact (raised _).trans (State.flag_of_reg ((peak _ _).trans ((instant b _).trans cleared)) _)
      · exact State.flag_of_reg cleared _

theorem keepsBelow {s : State} (h : BelowMark s q) : BelowMark (s.clearWatermark r) q := by
  have cfg := State.fld_eq_of_reg (near.keeps s (.inl rfl)) 9 0
  have lift : (s.clearWatermark r).lift = s.lift := (State.watermark_lift _ r 0).trans rfl
  refine ⟨?_, (near.keepsCause s).trans h.cause⟩
  rw [cfg, State.queue_of_lift lift]
  exact h.level

end Neighbours

/-- What a write of EV_PEND does for one queue of the page, after the causes are cleared. -/
def State.clearWritten (g : Nat) (v : Word) (s : State) (i : Nat) : State := if bit i v.toNat then s.clearWatermark (8 * g + i) else s

theorem effLiftPend_fold (g : Nat) (v : Word) (s : State) :
    effLiftPend g v s = .done ((List.range 8).foldl (State.clearWritten g v) (s.clearCauses (0x18 + g) v.toNat)) := rfl

theorem State.clearWritten_below {g i j : Nat} (hg : g < 4) (hi : i < 8) (hj : j < 8) (v : Word) {s : State} (h : BelowMark s (8 * g + i)) :
    BelowMark (s.clearWritten g v j) (8 * g + i) ∧
      (s.fld (queueReg Reg.LIFT_Q_WMPEAK (8 * g + i)) 9 0 = 0 ∨ j = i ∧ bit i v.toNat = true →
        (s.clearWritten g v j).fld (queueReg Reg.LIFT_Q_WMPEAK (8 * g + i)) 9 0 = 0) := by
  unfold State.clearWritten
  split
  next written =>
    by_cases same : j = i
    · subst same
      exact ⟨h.clearWatermark.1, fun _ => h.clearWatermark.2⟩
    · have near : Neighbours (8 * g + i) (8 * g + j) :=
        ⟨by omega, by rw [queuePage_group hj, queuePage_group hi], by omega⟩
      refine ⟨near.keepsBelow h, fun peak => ?_⟩
      rw [State.fld_eq_of_reg (near.keeps s (.inr rfl))]
      exact peak.resolve_right fun e => same e.1
  next unwritten =>
    refine ⟨h, fun peak => peak.resolve_right ?_⟩
    rintro ⟨rfl, written⟩
    exact unwritten written

theorem State.clearWritten_foldl {g i : Nat} (hg : g < 4) (hi : i < 8) {v : Word} (written : bit i v.toNat = true) {l : List Nat}
    (hl : ∀ j ∈ l, j < 8) {s : State} (h : BelowMark s (8 * g + i))
    (peak : i ∈ l ∨ s.fld (queueReg Reg.LIFT_Q_WMPEAK (8 * g + i)) 9 0 = 0) :
    (l.foldl (State.clearWritten g v) s).fld (queueReg Reg.LIFT_Q_WMPEAK (8 * g + i)) 9 0 = 0 := by
  induction l generalizing s with
  | nil => exact peak.resolve_left List.not_mem_nil
  | cons j l ih =>
    obtain ⟨below, zero⟩ := State.clearWritten_below hg hi (hl j List.mem_cons_self) v h
    refine ih (fun k mem => hl k (List.mem_cons_of_mem _ mem)) below ?_
    rcases peak with mem | clear
    · rcases List.mem_cons.mp mem with rfl | mem
      · exact .inr (zero (.inr ⟨rfl, written⟩))
      · exact .inl mem
    · exact .inr (zero (.inl clear))

/-- A WM cause that is written clears PEAK where LEVEL does not stand above the mark (R143). -/
theorem effLiftPend_peak {g : Fin 4} {i : Fin 8} {v : Word} {a : State} (written : v.toNat.testBit i = true)
    (low : a.fld (queueReg Reg.LIFT_Q_WMCFG (8 * g + i)) 9 0 = 0 ∨
      (a.queue (8 * g + i)).level ≤ min 511 (a.fld (queueReg Reg.LIFT_Q_WMCFG (8 * g + i)) 9 0)) :
    (effLiftPend g v a).state.fld (queueReg Reg.LIFT_Q_WMPEAK (8 * g + i)) 9 0 = 0 := by
  have hg := g.isLt
  have hi := i.isLt
  have page : (BitVec.ofNat 8 (0x18 + g)).toNat = 0x18 + g.val := by
    rw [BitVec.toNat_ofNat]
    omega
  have cleared := a.clearCauses_clears (BitVec.ofNat 8 (0x18 + g)) v written
  rw [page] at cleared
  have cfg : (a.clearCauses (0x18 + g) v.toNat).fld (queueReg Reg.LIFT_Q_WMCFG (8 * g + i)) 9 0 =
      a.fld (queueReg Reg.LIFT_Q_WMCFG (8 * g + i)) 9 0 := by
    refine State.clearCauses_fld _ _ _ _ _ _ ?_ ?_
    · simp only [stillKey, queueReg, Reg.LIFT_Q_WMCFG, evRaw, Reg.EVT_MSG_CNT, Reg.KEEP_RSV_WAIT, Reg.KEEP_KEY_STOP, Bool.and_eq_true,
        bne_iff_ne, ne_eq]
      omega
    · simp only [queueReg, Reg.LIFT_Q_WMCFG, evRaw]
      omega
  have below : BelowMark (a.clearCauses (0x18 + g) v.toNat) (8 * g + i) := by
    refine ⟨?_, ?_⟩
    · rw [cfg, State.queue_of_lift (State.clearCauses_signals _ _ _).lift]
      exact low
    · rw [queuePage_group hi, show (8 * g.val + i.val) % 8 = i.val by omega]
      exact cleared
  rw [effLiftPend_fold]
  exact State.clearWritten_foldl hg hi written (fun j mem => List.mem_range.mp mem) below (.inl (List.mem_range.mpr hi))

/-! ### QCFG, PEEK and the read port (R140) -/

/-- QCFG after it is written: LANE and Q_EN are as written (Table 7.5). -/
theorem qcfgWord_fields (src : Nat) (v : Word) :
    bits 3 0 (setBits 9 8 src (v.toNat &&& 0x8000030F)) = bits 3 0 v.toNat ∧
      bit 31 (setBits 9 8 src (v.toNat &&& 0x8000030F)) = bit 31 v.toNat := by
  constructor
  · rw [bits_setBits_other _ _ _ _ _ _ (by decide) (by decide) (by decide)]
    apply Nat.eq_of_testBit_eq
    intro i
    rw [testBit_bits, testBit_bits, Nat.testBit_and]
    have mask : ∀ i < 4, Nat.testBit 0x8000030F i = true := by decide
    by_cases low : i < 4
    · simp [low, mask i low]
    · simp [low]
  · rw [bit, testBit_setBits _ _ _ _ _ (by decide), if_neg (by decide), Nat.testBit_and, show Nat.testBit 0x8000030F 31 = true by decide,
      Bool.and_true]
    rfl

theorem effQcfg_reg (q : Nat) (v : Word) (s : State) :
    ∃ u src, effQcfg q v s = .done u ∧
      u.reg (queueReg Reg.LIFT_Q_QCFG q) = setBits 9 8 src (v.toNat &&& 0x8000030F) % 2 ^ 32 := by
  unfold effQcfg
  extract_lets x k idle src
  refine ⟨_, src, rfl, ?_⟩
  rw [State.journalConfig_reg, State.reg_setReg]

theorem State.readPeek_out (p : Path) (g : Nat) (s : State) : (State.readPeek p g s).1.out = s.out := rfl

theorem State.readPeek_word (p : Path) (g : Nat) (s : State) :
    (State.readPeek p g s).1.latched p (Reg.LIFT_PEEK_D0 g) = (s.peekWord (8 * g + s.fld (Reg.LIFT_PEEK_SEL g) 2 0)).1 % 2 ^ 32 := by
  unfold State.readPeek
  extract_lets c
  change (((State.latchAt _ _ _ _).latchAt _ _ _).latchAt _ _ _).latched p (Reg.LIFT_PEEK_D0 g) = _
  rw [State.latched_latchAt_other _ _ _ _ _ (by simp), State.latched_latchAt_other _ _ _ _ _ (by simp),
    State.latched_latchAt_other _ _ _ _ _ (by simp)]
  refine (State.latched_latchAt_same _ _ _ _).trans ?_
  rw [Nat.mul_zero, Nat.pow_zero, Nat.div_one, Nat.mod_mod]

/-- What waits on a lane does not rest on the queues. -/
theorem State.stagedOn_setQueue (s : State) (q m : Nat) (x : LiftQueue) : (s.setQueue q x).stagedOn m = s.stagedOn m := rfl

/-- A word at R that is not the sign of an empty queue is read: R moves on (R140). -/
theorem State.readPort_reads {s : State} {q word tag : Nat} (cell : s.peekWord q = (word, tag)) (there : bit 15 tag = false) :
    ∃ x, s.readPort q = (s.setQueue q x, word, tag) ∧ x.r = ((s.queue q).r + 1) % 1024 := by
  unfold State.readPort
  extract_lets x c r lane
  have isCell : c = (word, tag) := cell
  rw [isCell, if_neg (by simp [there])]
  exact ⟨_, rfl, rfl⟩

/-- A header word is what the lane holds of its packet (R140). -/
theorem State.takeWord_header (s : State) (q l word : Nat) {tag : Nat} (there : bit 15 tag = false) (whole : bit 12 tag = false)
    (header : bit 14 tag = true) : s.takeWord q l word tag = s.setQueue q { s.queue q with taken := some (word, []) } := by
  unfold State.takeWord
  extract_lets x
  rw [if_neg (by simp [there]), if_neg (by simp [whole]), if_pos header]

/-- A LIVE lane that takes words reads a header word at R (R140, R171). -/
theorem execLiftWordRead_header {t : Angle} {q : Fin 32} {word tag : Nat} {s : State} (off : (s.tick t).pageOff (queuePage q) = false)
    (live : (s.tick t).laneServes ((s.tick t).readingLane q) 1 = true) (takes : (s.tick t).laneTakes ((s.tick t).readingLane q) = true)
    (cell : (s.tick t).peekWord q = (word, tag)) (there : bit 15 tag = false) (whole : bit 12 tag = false) (header : bit 14 tag = true)
    (fits : ∀ m, m < 16 → (s.tick t).stagedOn m ≤ 4096) :
    ∃ u, execLiftWordRead t q s = .next u ∧ (u.queue q).taken = some (word, []) ∧ (u.queue q).r = (((s.tick t).queue q).r + 1) % 1024 := by
  have mode : (s.tick t).laneMode ((s.tick t).readingLane q) = 1 := by
    simp only [State.laneServes, Bool.and_eq_true, beq_iff_eq] at live
    exact live.1.1
  obtain ⟨x, read, r⟩ := State.readPort_reads cell there
  unfold execLiftWordRead
  dsimp only
  rw [mode, if_neg (by simp [off, live, takes]), read, State.takeWord_header _ _ _ _ there whole header, State.queue_setQueue]
  dsimp only
  have room : (List.range 16).any (fun m => decide (4096 < (((s.tick t).setQueue q x).setQueue q { x with taken := some (word, []) }).stagedOn m)) =
      false := by
    rw [List.any_eq_false]
    intro m mem
    rw [State.stagedOn_setQueue, State.stagedOn_setQueue, decide_eq_true_eq]
    exact Nat.not_lt.mpr (fits m (List.mem_range.mp mem))
  rw [if_neg (by simp only [room]; decide)]
  refine ⟨_, rfl, ?_⟩
  rw [State.queue_setQueue]
  exact ⟨rfl, r⟩

/-! ### The flush (R142) -/

theorem effFlush_completes {q : Nat} {v : Word} {a : State} (written : v.toNat.testBit 0 = true) (first : (a.queue q).flushAt = none)
    (idle : (a.queue q).opened = none) : effFlush q v a = .done (a.flushed q) := by
  unfold effFlush
  extract_lets x
  rw [if_neg (by simp [bit, written, x, first]), if_neg (by simp [x, idle])]

theorem execFlushTimeout_cuts {t : Angle} {q : Fin 32} {c : Nat} {o : LiftPacket} {s : State}
    (asked : ((s.tick t).queue q).flushAt = some c) (opened : ((s.tick t).queue q).opened = some o) (late : c + 2 * 65536 ≤ (s.tick t).now) :
    execFlushTimeout t q s = .next (((s.tick t).flushed q).abortPacket q o.header) := by
  unfold execFlushTimeout
  dsimp only
  rw [asked, opened]
  exact if_pos late

/-! ### The commands -/

/-- Settles O34, each clause from the lemma about its command or its effect. -/
theorem liftQueueCommandsComplete : Obligations.LiftQueueCommandsComplete := by
  unfold Obligations.LiftQueueCommandsComplete
  refine ⟨?offer, ?resume, ?header, ?data, ?clear, ?word, ?lane, ?peek, ?flush, ?timeout⟩
  case offer =>
    intro t feed o s oldest src off
    exact ⟨_, execPacketOffer_offers oldest src off, State.offerPacket_producers _ o.queue o.packet⟩
  case resume =>
    intro t q pk rest s waits on idle space
    exact execPacketResume_writes waits on idle space
  case header =>
    intro t q w s off src opens
    have run : execHostIntakeWord t q 0 w s = .next ((s.tick t).hostHeader q w.toNat) := by
      unfold execHostIntakeWord
      dsimp only
      rw [if_neg (by simp [off])]
      rfl
    refine ⟨_, run, ?_⟩
    rw [State.hostHeader_opens src opens, State.openPacket_header _ _ rfl rfl, State.queue_setQueue, State.queue_setQueue]
    exact ⟨rfl, SMap.find_put_same _ _ _⟩
  case data =>
    intro t q i w o s pos off on src first opened next more
    have run : execHostIntakeWord t q i w s = .next ((s.tick t).hostData q (i.val - 1) w.toNat) := by
      unfold execHostIntakeWord
      dsimp only
      rw [if_neg (by simp [off]), if_neg (by omega)]
    refine ⟨_, run, ?_⟩
    rw [State.hostData_writes on src first opened next, State.writeWords_one opened (by omega), State.queue_setQueue]
  case clear =>
    intro t p g i v s a through written low
    refine ⟨_, rfl, ?_⟩
    rw [State.hostWrite_through through]
    exact effLiftPend_peak written low
  case word =>
    intro t q word tag s off live takes cell there whole header fits
    exact execLiftWordRead_header off live takes cell there whole header fits
  case lane =>
    intro t p q v s a through
    obtain ⟨u, src, accepted, word⟩ := effQcfg_reg q.val v a
    obtain ⟨lane, enable⟩ := qcfgWord_fields src v
    refine ⟨_, rfl, ?_⟩
    rw [State.hostWrite_through through, accepted]
    have reg : (State.finish p (queuePage q) (0x100 + 0x40 * (q % 8)) (.done u)).reg (queueReg Reg.LIFT_Q_QCFG q) =
        setBits 9 8 src (v.toNat &&& 0x8000030F) % 2 ^ 32 := by
      rw [State.finish_done_reg _ _ _ _ _ (by simp only [queuePage, queueReg, Reg.LIFT_Q_QCFG]; omega), word]
    rw [State.queueLane, State.queueEn, State.fld, State.flag, reg, bits_word _ _ _ (by decide) (by decide), bit, Nat.testBit_mod_two_pow]
    exact ⟨lane, enable⟩
  case peek =>
    intro t p g s a through
    refine ⟨_, rfl, ?_⟩
    rw [State.hostRead_through through, answer_out, answer_latched, State.readPeek_out]
    exact ⟨rfl, a.readPeek_word p g⟩
  case flush =>
    intro t p q v s a through written first idle
    refine ⟨_, rfl, ?_⟩
    rw [State.hostWrite_through through, effFlush_completes written first idle, State.queue_of_lift (State.finish_done_lift _ _ _ _),
      State.flushed_queue]
    exact ⟨rfl, rfl, rfl, rfl⟩
  case timeout =>
    intro t q c o s asked opened late
    refine ⟨_, execFlushTimeout_cuts asked opened late, ?_⟩
    rw [State.abortPacket_queue, State.flushed_queue]
    exact ⟨rfl, rfl, rfl, rfl⟩

end Sys2Proof.Machine
end

section
/-!
PROOFS. What billing, accounts, outputs, Slalom, the ledger and event lines leave of the flow computing array: all of it.
-/

namespace Sys2Proof.Machine

/-! ### What leaves the array as it is -/

/-- The lanes, channels, descriptors and blocks of the array are as before. -/
def SameFca (s u : State) : Prop := u.fca = s.fca

theorem Signals.sameFca {s u : State} (h : Signals s u) : SameFca s u := (congrArg State.fca h).trans rfl

namespace SameFca
variable {s u w : State}

theorem refl (s : State) : SameFca s s := rfl

theorem trans (a : SameFca s u) (b : SameFca u w) : SameFca s w := Eq.trans b a

theorem ite {c : Prop} [Decidable c] (a : SameFca s u) (b : SameFca s w) : SameFca s (if c then u else w) := by
  split
  · exact a
  · exact b

theorem foldl {α : Type} (f : State → α → State) (h : ∀ s a, SameFca s (f s a)) (s : State) (l : List α) : SameFca s (l.foldl f s) :=
  foldl_proj State.fca f h s l

theorem setFld (s : State) (k hi lo v : Nat) : SameFca s (s.setFld k hi lo v) := State.setFld_fca s k hi lo v

theorem raise (s : State) (page i : Nat) : SameFca s (s.raise page i) := (State.raise_signals s page i).sameFca

theorem append (s : State) (cls : Nat) (payload : List Byte) (obl : Option Nat) (leaf : Nat) :
    SameFca s (s.append cls payload obl leaf).2 := (s.append_signals cls payload obl leaf).sameFca

theorem journal (s : State) (cls : Nat) (payload : List Byte) : SameFca s (s.journal cls payload) := append s cls payload none 0

/-! ### The Logbook, the outcome ring and the calendar (R39, R53, R54, R388) -/

theorem logDrop (s : State) (cls : Nat) : SameFca s ((s.bump (Reg.LOGB_DROP0 + 4 * cls)).raise 0x49 1) := raise (s.bump _) _ _

theorem logStore (s : State) (e : LogEntry) : SameFca s (s.logStore e) := by
  unfold State.logStore
  split
  · extract_lets e src a b c
    have hc : SameFca b c := .ite (append _ _ _ _ _) (refl _)
    exact trans (u := b) rfl (hc.trans (.ite (raise _ _ _) (refl _)))
  · exact logDrop s _

theorem logHold (s : State) (e : LogEntry) : SameFca s (s.logHold e) := .ite rfl (.ite rfl (logDrop s _))

theorem logEntry (s : State) (cls page code data : Nat) : SameFca s (s.logEntry cls page code data) := .ite (logHold s _) (logStore s _)

theorem sample (s : State) (i : Nat) (v : Int) : SameFca s (s.sample i v) := .ite (refl s) (.ite rfl rfl)

theorem ringPut (s : State) (e : OutcomeEntry) : SameFca s (s.ringPut e) := by
  unfold State.ringPut
  extract_lets wr full src a b c d
  have hd : SameFca s d := .ite rfl rfl
  exact .ite (hd.trans (raise d _ _)) rfl

theorem endSlice (s : State) (id : Nat) (revoked : Bool) : SameFca s (s.endSlice id revoked) := .ite rfl rfl

theorem setCalendar (s : State) (c : SMap Obligation) : SameFca s (s.setCalendar c) := by
  unfold State.setCalendar State.calCounts
  extract_lets src n a b
  have ha : SameFca s a := rfl
  have hb : SameFca a b := .ite (setFld a _ _ _ _) (refl a)
  exact (ha.trans hb).trans (foldl _ (fun s _ => setFld s _ _ _ _) b _)

theorem endObl (s : State) (idx outcome reason : Nat) : SameFca s (s.endObl idx outcome reason) := by
  unfold State.endObl
  split
  · exact refl s
  · extract_lets id word closed ringed counted sampled src kept logged sliced
    have h1 : SameFca closed ringed := .ite (ringPut _ _) (refl _)
    have h2 : SameFca ringed counted := .ite rfl rfl
    have h3 : SameFca counted sampled := .ite (sample _ _ _) (refl _)
    have h4 : SameFca sampled kept := .ite rfl rfl
    have h5 : SameFca kept logged := .ite ((logEntry _ _ _ _ _).trans (raise _ _ _)) (refl _)
    have h6 : SameFca logged sliced := .ite (endSlice _ _ _) (refl _)
    have ended : SameFca s sliced := (setCalendar s _).trans (((((h1.trans h2).trans h3).trans h4).trans h5).trans h6)
    exact ended.trans (.ite (raise _ _ _) (refl _))

theorem revokeAll (s : State) (reason : Nat) (l : List Nat) : SameFca s (s.revokeAll reason l) := by
  induction l generalizing s with
  | nil => exact refl s
  | cons i l ih => exact (endObl s i 1 reason).trans (ih _)

theorem insertObl (s : State) (q : Obligation) : SameFca s (s.insertObl q).2 := by
  unfold State.insertObl
  extract_lets n idx g gen o src a
  exact trans (u := a) rfl (setCalendar a _)

theorem testOwn (s : State) (q : Obligation) : SameFca s (s.testOwn q).2 := by
  unfold State.testOwn
  split
  · rename_i h
    obtain ⟨vs, rfl⟩ := State.admission_admitted h
    exact (revokeAll s _ vs).trans (insertObl _ _)
  · exact refl s

theorem firmwareCommand (s : State) (id : Nat) (records : List Byte) : SameFca s (s.firmwareCommand id records) := by
  unfold State.firmwareCommand State.request
  dsimp only
  split
  · rfl
  · exact testOwn s _

theorem recomputeOn (s : State) (reason : Nat) (rs : List Nat) : SameFca s (s.recomputeOn reason rs) := by
  unfold State.recomputeOn SameFca
  dsimp only
  rw [State.setFlag_fca]

theorem loseRes (s : State) (r reason : Nat) : SameFca s (s.loseRes r reason) := by
  unfold State.loseRes
  exact trans (u := { s with slalom := { s.slalom with lost := s.slalom.lost.put r reason } }) rfl (recomputeOn _ _ _)

theorem regainRes (s : State) (r : Nat) : SameFca s (s.regainRes r) := by
  unfold State.regainRes
  exact trans (u := { s with slalom := { s.slalom with lost := s.slalom.lost.del r } }) rfl (recomputeOn _ _ _)

/-! ### Outputs and accounts (R223 to R226) -/

theorem modId (s : State) (id : Nat) (f : Obligation → Obligation) : SameFca s (s.modId id f) := by
  unfold State.modId
  split <;> rfl

theorem startPulse (s : State) (c : DriveCmd) : SameFca s (s.startPulse c) := by
  unfold State.startPulse
  extract_lets a o b
  have ha : SameFca s a := by
    simp only [a]
    split
    · exact modId s _ _
    · exact refl s
  have hb : SameFca a (b.setIlState c.output 3) := (setFld b _ _ _ _).trans rfl
  exact (ha.trans hb).trans rfl

theorem driveOutput (s : State) (c : DriveCmd) : SameFca s (s.driveOutput c) := by
  unfold State.driveOutput
  extract_lets o a
  refine .ite ?_ (refl s)
  have ha : SameFca s a := rfl
  refine ha.trans ?_
  split
  · exact startPulse a c
  · rfl

theorem driveAccount (s : State) (n : Nat) (on : Bool) : SameFca s (s.driveAccount n on) :=
  (foldl _ (fun s _ => .ite (driveOutput s _) (refl s)) s _).trans
    (foldl _ (fun s _ => .ite (firmwareCommand s _ _) (refl s)) _ _)

theorem setOutput (s : State) (k : Nat) (o : OutputRec) : SameFca s (s.setOutput k o) := rfl

theorem forgetHost (s : State) (n : Nat) : SameFca s (s.forgetHost n) := foldl _ (fun s _ => .ite (setOutput s _ _) (refl s)) s _

theorem accountState (s : State) (n : Nat) : SameFca s (s.accountState n) := by
  unfold State.accountState
  extract_lets b key old warn cut above inReg a1 a2 a3 c1
  have ha : SameFca s a2 := (setFld s _ _ _ _).trans (raise a1 _ _)
  have hd : SameFca a2 a3 := .ite (driveAccount _ _ _) (refl _)
  have hc : SameFca s c1 := .ite (raise _ _ _) (refl _)
  have hcut : SameFca c1 ((c1.setFld key 31 30 2).raise 0x34 1) := (setFld c1 _ _ _ _).trans (raise _ _ _)
  exact .ite (refl s) (.ite (.ite ((ha.trans hd).trans (forgetHost _ _)) (refl s))
    (.ite ((hc.trans hcut).trans ((driveAccount _ _ _).trans (forgetHost _ _)))
      (.ite hc (hc.trans ((setFld c1 _ _ _ _).trans (forgetHost _ _))))))

theorem charge (s : State) (n kind reg ch : Nat) (net : Bool) (at' : Nat) (growth price : Int) :
    SameFca s (s.charge n kind reg ch net at' growth price) := journal (s.setAccount n _) _ _

/-! ### Units that go to billing (R158, R208 to R212, R220, R221, R224) -/

theorem chargeLate (s : State) (ch reg t units : Nat) : SameFca s (s.chargeLate ch reg t units) := by
  unfold State.chargeLate
  extract_lets progOf hit progs a
  exact foldl _ (fun s n => foldl _ (fun s m => .ite (refl s) ((charge s _ _ _ _ _ _ _ _).trans (accountState _ _))) s _) s hit

theorem intervalRecord (s : State) (ch qual flags inum units : Nat) : SameFca s (s.intervalRecord ch qual flags inum units) :=
  journal s _ _

theorem adjust (s : State) (ch reg period units t : Nat) : SameFca s (s.adjust ch reg period units t) :=
  (journal s _ _).trans (raise _ _ _)

theorem placeClosed (s : State) (ch : Nat) (c : BillChan) (t units qual : Nat) : SameFca s (s.placeClosed ch c t units qual) :=
  .ite rfl (.ite (intervalRecord ((s.bump _ _).modBillChan _ _) _ _ _ _ _) rfl)

theorem placeDemand (s : State) (ch : Nat) (p : Program) (reg t units : Nat) : SameFca s (s.placeDemand ch p reg t units) := by
  refine .ite (.ite (refl s) (adjust s _ _ _ _ _)) ?_
  split <;> rfl

theorem placeUnits (s : State) (ch : Nat) (c : BillChan) (t units qual : Nat) : SameFca s (s.placeUnits ch c t units qual) := by
  unfold State.placeUnits
  extract_lets reg sat isOpen d a b e
  have hb : SameFca s b := .ite rfl (placeClosed a _ _ _ _ _)
  have he : SameFca b e := by
    simp only [e]
    split
    · exact refl b
    · exact placeDemand b _ _ _ _ _
  exact (hb.trans he).trans (.ite (refl e) (chargeLate e _ _ _ _))

theorem bill (s : State) (ch t units qual : Nat) : SameFca s (s.bill ch t units qual) := by
  unfold State.bill
  refine .ite (refl s) ?_
  split
  · rfl
  · exact .ite rfl (.ite rfl (placeUnits s _ _ _ _ _))

theorem lateIncrement (s : State) (ch t : Nat) : SameFca s (s.lateIncrement ch t) := .ite (raise (s.bump _) _ _) (refl s)

theorem substEvent (s : State) (ch t : Nat) (b : Block) (i : Nat) (v : InputVal) : SameFca s (s.substEvent ch t b i v) := by
  unfold State.substEvent
  split
  · exact journal s _ _
  · exact refl s

theorem writeIvs (l : List (Nat × Nat × Nat × Nat × Nat)) (s : State) : SameFca s (s.writeIvs l) := by
  induction l generalizing s with
  | nil => rfl
  | cons x l ih => exact .ite ((intervalRecord s _ _ _ _ _).trans (ih _)) rfl

theorem drainIvs (s : State) : SameFca s s.drainIvs := .ite (refl s) (writeIvs _ s)

/-! ### The queues of a lost lane (R140) -/

theorem laneLostQueue (s : State) (q lane : Nat) (lost : Nat → Bool) (live : List Nat) :
    SameFca s (s.laneLostQueue q lane lost live) := by
  unfold State.laneLostQueue
  extract_lets x a
  have ha : SameFca s a := by
    refine .ite (refl s) ?_
    split <;> rfl
  exact .ite (refl s) (ha.trans rfl)

theorem requeueLane (s : State) (l : Nat) : SameFca s (s.requeueLane l) := foldl _ (fun s _ => laneLostQueue s _ _ _ _) s _

/-- What the finish of a write leaves of the array. -/
theorem finish (p : Path) (page off : Nat) (r : WriteResult) : SameFca r.state (State.finish p page off r) :=
  (State.finish_signals p page off r).sameFca

end SameFca

end Sys2Proof.Machine
end

section
/-!
PROOFS. The commands of descriptors and parameter blocks (R166, R167) complete with their effect.
-/

namespace Sys2Proof.Machine

/-! ### The live table (R166) -/

/-- CMD of the written word of a descriptor command, beside the TABLE that the host gives. -/
theorem withCmd_fields (v : Word) {cmd : Nat} (h : cmd < 8) :
    bits 2 0 (withCmd 2 cmd v).toNat = cmd ∧ bit 5 (withCmd 2 cmd v).toNat = v.toNat.testBit 5 := by
  rw [withCmd, BitVec.toNat_ofNat]
  constructor
  · rw [bits_word _ _ _ (by decide) (by decide), bits_setBits_same _ _ _ _ (by decide)]
    exact Nat.mod_eq_of_lt h
  · rw [bit, Nat.testBit_mod_two_pow, testBit_setBits _ _ _ _ _ (by decide)]
    rfl

theorem SMap.getD_put_same {α : Type} (m : SMap α) (k : Nat) (v d : α) : (m.put k v).getD k d = v := by
  rw [SMap.getD, SMap.find_put_same, Option.getD_some]

/-- An entry joins the live table behind those of its channel. -/
theorem State.putDesc_live (s : State) (ch : Nat) (e : DescEntry) :
    (s.putDesc false ch e).fca.live.getD ch [] = s.fca.live.getD ch [] ++ [e] :=
  SMap.getD_put_same _ _ _ _

/-- An accepted descriptor stands in the live table for its channel. -/
theorem State.acceptDesc_live (s : State) (cold : Bool) (d : Desc) :
    ∃ e, e ∈ (s.acceptDesc false cold d).fca.live.getD d.ch [] ∧ e.eff = d.eff ∧ e.raw = d ∧ e.retire = false := by
  unfold State.acceptDesc
  extract_lets named new r
  refine ⟨{ eff := d.eff, raw := d, cold := cold, rsn := r.1, blocks := new }, ?_, rfl, rfl, rfl⟩
  have live : (r.2.installDesc false cold d r.1 new).fca.live.getD d.ch [] = r.2.fca.live.getD d.ch [] ++ [_] :=
    State.putDesc_live { r.2 with fca := { r.2.fca with fixed := r.2.fca.fixed ++ new } } d.ch _
  rw [live]
  exact List.mem_append_right _ List.mem_cons_self

theorem effDwCmd_commit {v : Word} {a : State} (idle : a.flag Reg.FCAC_DW_STAT 31 = false) (live : v.toNat.testBit 5 = false)
    (passes : a.checkDesc false a.stagedDesc = 0) :
    ∃ cold, effDwCmd (withCmd 2 1 v) a = .done (a.acceptDesc false cold a.stagedDesc) := by
  obtain ⟨cmd, table⟩ := withCmd_fields v (cmd := 1) (by decide)
  refine ⟨bit 4 (withCmd 2 1 v).toNat, ?_⟩
  unfold effDwCmd
  dsimp only
  rw [if_neg (by simp [idle]), if_pos cmd, table, live, if_pos passes]

/-- A fold of register writes at rising keys leaves each of its registers with the word written to it. -/
theorem foldl_setReg_reg (base : Nat) (f : Nat → Nat) (l : List Nat) (nodup : l.Nodup) {i : Nat} (mem : i ∈ l) (s : State) :
    (l.foldl (fun s i => s.setReg (base + 4 * i) (f i)) s).reg (base + 4 * i) = f i % 2 ^ 32 := by
  induction l generalizing s with
  | nil => exact absurd mem List.not_mem_nil
  | cons j l ih =>
    obtain ⟨fresh, nodup⟩ := List.nodup_cons.mp nodup
    rw [List.foldl_cons]
    by_cases later : i ∈ l
    · exact ih nodup later _
    · obtain rfl : i = j := (List.mem_cons.mp mem).resolve_right later
      have others : ∀ (l : List Nat) (s : State), i ∉ l →
          (l.foldl (fun s i => s.setReg (base + 4 * i) (f i)) s).reg (base + 4 * i) = s.reg (base + 4 * i) := by
        intro l
        induction l with
        | nil => exact fun _ _ => rfl
        | cons j l ih =>
          intro s h
          rw [List.mem_cons, not_or] at h
          rw [List.foldl_cons, ih _ h.2, State.reg_setReg_other _ _ _ _ (by omega)]
      rw [others l _ later, State.reg_setReg]

/-- The end of a descriptor command shows in DW_STAT and the cause DESC alone. -/
theorem State.endDesc_reg (s : State) (code : Nat) {k : Nat} (still : stillKey k = true) (raw : k ≠ evRaw 0x1C)
    (stat : k ≠ Reg.FCAC_DW_STAT) : (s.endDesc code).reg k = s.reg k := by
  rw [State.endDesc, State.raise_still _ _ _ _ still raw, State.reg_setReg_other _ _ _ _ stat]

theorem State.endDesc_stat (s : State) : (s.endDesc 0).reg Reg.FCAC_DW_STAT = 2 ^ 28 := by
  rw [State.endDesc, State.raise_still _ _ _ _ (by decide) (by decide), State.reg_setReg]
  rfl

/-- A READ shows the words of the descriptor in force. -/
theorem State.readDesc_shows {s : State} {redo : Bool} {e : DescEntry}
    (force : s.descAt redo (s.fld Reg.FCAC_DW_CH 19 0) s.now = some e) (i : Fin 16) :
    (s.readDesc redo).reg (Reg.FCAC_DW_D0 + 4 * i) = e.raw / 2 ^ (32 * i.val) % 2 ^ 32 ∧
      (s.readDesc redo).reg Reg.FCAC_DW_STAT = 2 ^ 28 := by
  have still : stillKey (Reg.FCAC_DW_D0 + 4 * i) = true := by
    simp only [stillKey, evRaw, Reg.FCAC_DW_D0, Reg.EVT_MSG_CNT, Reg.KEEP_RSV_WAIT, Reg.KEEP_KEY_STOP, Bool.and_eq_true, bne_iff_ne, ne_eq]
    omega
  have raw : Reg.FCAC_DW_D0 + 4 * i ≠ evRaw 0x1C := by
    simp only [evRaw, Reg.FCAC_DW_D0]
    omega
  have stat : Reg.FCAC_DW_D0 + 4 * i ≠ Reg.FCAC_DW_STAT := by
    simp only [Reg.FCAC_DW_D0, Reg.FCAC_DW_STAT]
    omega
  unfold State.readDesc
  dsimp only
  rw [force]
  refine ⟨?_, State.endDesc_stat _⟩
  rw [State.endDesc_reg _ _ still raw stat,
    foldl_setReg_reg _ (fun i => e.raw / 2 ^ (32 * i) % 2 ^ 32) _ List.nodup_range (List.mem_range.mpr i.isLt), Nat.mod_mod]

theorem effDwCmd_read {v : Word} {a : State} (idle : a.flag Reg.FCAC_DW_STAT 31 = false) :
    effDwCmd (withCmd 2 2 v) a = .done (a.readDesc (v.toNat.testBit 5)) := by
  obtain ⟨cmd, table⟩ := withCmd_fields v (cmd := 2) (by decide)
  unfold effDwCmd
  dsimp only
  rw [if_neg (by simp [idle]), cmd, table, if_neg (by decide), if_pos rfl]

theorem effDwCmd_retire {v : Word} {a : State} (idle : a.flag Reg.FCAC_DW_STAT 31 = false) (live : v.toNat.testBit 5 = false) :
    effDwCmd (withCmd 2 3 v) a = .done (a.retireDesc false) := by
  obtain ⟨cmd, table⟩ := withCmd_fields v (cmd := 3) (by decide)
  unfold effDwCmd
  dsimp only
  rw [if_neg (by simp [idle]), cmd, table, live, if_neg (by decide), if_neg (by decide), if_pos rfl]

/-- A RETIRE after the last point of its channel enters the end of that. -/
theorem State.retireDesc_live {s : State} (after : ∀ x, (s.chan false (s.fld Reg.FCAC_DW_CH 19 0)).prev = some x →
    x.t < s.reg64 Reg.FCAC_DW_D8 (Reg.FCAC_DW_D8 + 4)) :
    ∃ e, e ∈ (s.retireDesc false).fca.live.getD (s.fld Reg.FCAC_DW_CH 19 0) [] ∧
      e.eff = s.reg64 Reg.FCAC_DW_D8 (Reg.FCAC_DW_D8 + 4) ∧ e.retire = true := by
  unfold State.retireDesc
  extract_lets ch eff r
  have entered : { eff := eff, raw := 0, retire := true, rsn := r.1 } ∈ (r.2.putDesc false ch _).fca.live.getD ch [] :=
    r.2.putDesc_live ch _ ▸ List.mem_append_right _ List.mem_cons_self
  refine ⟨{ eff := eff, raw := 0, retire := true, rsn := r.1 }, ?_, rfl, rfl⟩
  split
  · rename_i p prev
    rw [if_neg (fun late => absurd (of_decide_eq_true late) (Nat.not_le.mpr (after p prev)))]
    exact entered
  · exact entered

/-! ### Parameter blocks (R167) -/

/-- A slot of a block that is set again holds the new value; a slot of 0 is not listed. -/
theorem slotInt_replace (b : Block) (slot value : Nat) :
    slotInt (if value = 0 then b.filter (fun x => x.1 != slot) else b.filter (fun x => x.1 != slot) ++ [(slot, value)]) slot = value := by
  have gone : List.lookup slot (b.filter (fun x => x.1 != slot)) = none := by
    rw [List.lookup_eq_none_iff]
    intro p mem
    exact bne_iff_ne.mpr (bne_iff_ne.mp (List.mem_filter.mp mem).2).symm
  unfold slotInt
  split
  · rename_i zero
    rw [gone, zero, Option.getD_none]
  · rw [List.lookup_append, gone]
    simp

theorem State.block_of_fca {s u : State} (h : SameFca s u) (i : Nat) : u.block i = s.block i := by
  rw [State.block, State.block, h]

/-- A slot write sets its slot of a block that no descriptor uses. -/
theorem effPbHi_sets {v : Word} {a : State} (unfixed : a.fca.fixed.contains (a.fld Reg.FCAC_PB_IDX 19 0) = false) :
    ∃ u, effPbHi v a = .done u ∧
      slotInt (u.block (a.fld Reg.FCAC_PB_IDX 19 0)) (a.fld Reg.FCAC_PB_SLOT 4 0) = a.reg Reg.FCAC_PB_LO + 2 ^ 32 * v.toNat := by
  unfold effPbHi
  extract_lets i slot value b old
  rw [if_neg (ne_true_of_eq_false unfixed)]
  refine ⟨_, rfl, ?_⟩
  have put : State.block { b with fca := { b.fca with blocks := b.fca.blocks.put i (if value = 0 then old else old ++ [(slot, value)]) } } i =
      if value = 0 then old else old ++ [(slot, value)] := SMap.getD_put_same _ _ _ _
  rw [put]
  exact slotInt_replace _ slot value

/-! ### The commands -/

/-- Settles O36: each clause from the lemma about its effect. -/
theorem descriptorCommandsComplete : Obligations.DescriptorCommandsComplete := by
  refine ⟨?commit, ?read, ?retire, ?slot⟩
  case commit =>
    intro t p v s a through idle live passes
    obtain ⟨cold, run⟩ := effDwCmd_commit idle live passes
    refine ⟨_, rfl, ?_⟩
    rw [State.hostWrite_through through, run, SameFca.finish]
    exact a.acceptDesc_live cold a.stagedDesc
  case read =>
    intro t p v i e s a through idle force
    obtain ⟨word, stat⟩ := State.readDesc_shows force i
    refine ⟨_, rfl, ?_⟩
    rw [State.hostWrite_through through, effDwCmd_read idle,
      State.finish_done_reg _ _ _ _ _ (by simp only [Reg.FCAC_DW_D0]; omega), State.finish_done_reg _ _ _ _ _ (by decide)]
    exact ⟨word, stat⟩
  case retire =>
    intro t p v s a through idle live after
    refine ⟨_, rfl, ?_⟩
    rw [State.hostWrite_through through, effDwCmd_retire idle live, SameFca.finish]
    exact State.retireDesc_live after
  case slot =>
    intro t p v s a through unfixed
    obtain ⟨u, run, sets⟩ := effPbHi_sets (v := v) unfixed
    refine ⟨_, rfl, ?_⟩
    rw [State.hostWrite_through through, run, State.block_of_fca (SameFca.finish _ _ _ _)]
    exact sets

end Sys2Proof.Machine
end

section
/-!
PROOFS. The commands of the lanes (R164, R165, R169, R185, R186) complete with their effect: what a lane pumps while no packet stands staged, and
what the evaluation of a point leaves of the tables, come before the commands.
-/

namespace Sys2Proof.Machine

/-! ### A lane's record and its mode -/

theorem State.laneRec_of_lanes {s u : State} (h : u.fca.lanes = s.fca.lanes) (l : Nat) : u.laneRec l = s.laneRec l := by
  rw [State.laneRec, State.laneRec, h]

theorem SameFca.laneRec {s u : State} (h : SameFca s u) (l : Nat) : u.laneRec l = s.laneRec l :=
  State.laneRec_of_lanes (congrArg Fca.lanes h) l

@[simp] theorem State.laneRec_setLaneRec (s : State) (l : Nat) (x : LaneRec) : (s.setLaneRec l x).laneRec l = x :=
  SMap.getD_put_same _ _ _ _

theorem State.laneMode_of_reg {s u : State} {l : Nat} (h : u.reg (Reg.FCA_LCFG l) = s.reg (Reg.FCA_LCFG l)) : u.laneMode l = s.laneMode l := by
  rw [State.laneMode, State.laneMode, State.fld_eq_of_reg h]

/-- The state after LCFG of a lane is written (R164, R367). -/
def State.modeWritten (s : State) (l : Nat) (v : Word) : State :=
  (s.setReg (Reg.FCA_LCFG l) (v.toNat &&& 0x13)).journalConfig (Reg.FCA_LCFG l)

theorem State.modeWritten_laneMode (s : State) (l : Nat) (v : Word) : (s.modeWritten l v).laneMode l = bits 1 0 v.toNat % 3 := by
  have field : bits 1 0 (v.toNat &&& 0x13) = bits 1 0 v.toNat := by
    apply Nat.eq_of_testBit_eq
    intro i
    rw [testBit_bits, testBit_bits, Nat.testBit_and]
    have mask : ∀ i < 2, Nat.testBit 0x13 i = true := by decide
    by_cases low : i < 2
    · simp [low, mask i low]
    · simp [low]
  rw [State.laneMode, State.fld, State.modeWritten, State.journalConfig_reg, State.reg_setReg, bits_word _ _ _ (by decide) (by decide), field]

theorem State.modeWritten_sameFca (s : State) (l : Nat) (v : Word) : SameFca s (s.modeWritten l v) :=
  SameFca.journal (s.setReg _ _) _ _

/-! ### Lanes on which nothing stands staged -/

/-- No packet stands staged on a channel of either table. -/
structure Unstaged (s : State) : Prop where
  live : ∀ x ∈ s.fca.chans, x.2.staged.isEmpty = true
  redo : ∀ x ∈ s.fca.redoChans, x.2.staged.isEmpty = true

theorem State.calm_unstaged {s : State} (h : s.calm = true) : Unstaged s := by
  simp only [State.calm, Bool.and_eq_true, List.all_eq_true] at h
  obtain ⟨⟨-, live⟩, redo⟩ := h
  exact ⟨live, redo⟩

theorem Unstaged.of_chans {s u : State} (h : Unstaged s) (live : u.fca.chans = s.fca.chans) (redo : u.fca.redoChans = s.fca.redoChans) :
    Unstaged u := ⟨live ▸ h.live, redo ▸ h.redo⟩

theorem SameFca.unstaged {s u : State} (h : SameFca s u) (unstaged : Unstaged s) : Unstaged u :=
  unstaged.of_chans (congrArg Fca.chans h) (congrArg Fca.redoChans h)

/-- While nothing stands staged, only the interval records that wait for headroom are left to write. -/
theorem Unstaged.pumpAll {s : State} (h : Unstaged s) : s.pumpAll = s.drainIvs := by
  have after := (SameFca.drainIvs s).unstaged h
  have live : s.drainIvs.fca.chans.filter (fun x => !x.2.staged.isEmpty) = [] :=
    List.filter_eq_nil_iff.mpr fun x mem => by simp [after.live x mem]
  have redo : s.drainIvs.fca.redoChans.filter (fun x => !x.2.staged.isEmpty) = [] :=
    List.filter_eq_nil_iff.mpr fun x mem => by simp [after.redo x mem]
  rw [State.pumpAll, live, List.foldl_nil, redo, List.foldl_nil]

theorem Unstaged.pumpAll_sameFca {s : State} (h : Unstaged s) : SameFca s s.pumpAll := h.pumpAll ▸ SameFca.drainIvs s

theorem State.writeIvs_reg (l : List (Nat × Nat × Nat × Nat × Nat)) (s : State) {k : Nat} (unc : k ≠ Reg.SLALOM_E_UNC)
    (head : k ≠ Reg.SLALOM_E_HEAD) : (s.writeIvs l).reg k = s.reg k := by
  induction l generalizing s with
  | nil => rfl
  | cons x l ih =>
    rw [State.writeIvs]
    split
    · exact (ih _).trans (State.append_reg _ _ _ _ _ _ unc head)
    · rfl

theorem State.drainIvs_reg (s : State) {k : Nat} (unc : k ≠ Reg.SLALOM_E_UNC) (head : k ≠ Reg.SLALOM_E_HEAD) :
    s.drainIvs.reg k = s.reg k := by
  rw [State.drainIvs]
  split
  · rfl
  · exact s.writeIvs_reg _ unc head

/-! ### LANE_MODE_WRITE (R164) -/

/-- The configuration of a lane is none of Slalom's registers, nor its page's SEQ. -/
theorem fcaLcfg_apart (l : Nat) : Reg.FCA_LCFG l ≠ Reg.SLALOM_STATUS ∧ Reg.FCA_LCFG l ≠ Reg.SLALOM_E_UNC ∧
    Reg.FCA_LCFG l ≠ Reg.SLALOM_E_HEAD ∧ Reg.FCA_LCFG l ≠ (0x20 + l) * 0x1000 + 0x030 := by
  simp only [Reg.FCA_LCFG, Reg.SLALOM_STATUS, Reg.SLALOM_E_UNC, Reg.SLALOM_E_HEAD]
  omega

theorem effLaneMode_outside {l : Nat} {v : Word} {a : State} (old : a.laneMode l ≠ 1) (new : bits 1 0 v.toNat % 3 ≠ 1)
    (empty : a.stagedOn l = 0) : effLaneMode l v a = .done (a.modeWritten l v) := by
  unfold effLaneMode
  extract_lets k was mode put
  by_cases same : mode = was
  · exact if_pos same
  · rw [if_neg same, if_neg (by omega), if_neg old, if_neg (fun h => new h.1)]
    rfl

theorem effLaneMode_enters {l : Nat} {v : Word} {a : State} (old : a.laneMode l ≠ 1) (new : bits 1 0 v.toNat % 3 = 1)
    (empty : a.stagedOn l = 0) : effLaneMode l v a = .done (if (a.laneRec l).lost = true then a.modeWritten l v else
      ((a.modeWritten l v).regainRes (0x10 + l)).pumpAll) := by
  unfold effLaneMode
  extract_lets k was mode put
  rw [if_neg (fun same => old (same.symm.trans new)), if_neg (by omega), if_neg old]
  cases lost : (a.laneRec l).lost with
  | true => exact if_neg (fun h => absurd h.2 (by decide))
  | false => exact if_pos ⟨new, rfl⟩

/-- A lane that enters LIVE has its written mode, and what Slalom then counts and writes leaves it so. -/
theorem State.enteredLive_laneMode {s : State} (h : Unstaged s) (l : Nat) (v : Word) :
    (((s.modeWritten l v).regainRes (0x10 + l)).pumpAll).laneMode l = bits 1 0 v.toNat % 3 := by
  obtain ⟨status, unc, head, -⟩ := fcaLcfg_apart l
  have regained : Unstaged ((s.modeWritten l v).regainRes (0x10 + l)) :=
    ((s.modeWritten_sameFca l v).trans (SameFca.regainRes _ _)).unstaged h
  rw [regained.pumpAll, ← s.modeWritten_laneMode l v]
  exact State.laneMode_of_reg ((State.drainIvs_reg _ unc head).trans (State.recomputeOn_reg _ _ _ status))

theorem State.finish_laneMode (p : Path) (off l : Nat) (s : State) : (State.finish p (0x20 + l) off (.done s)).laneMode l = s.laneMode l :=
  State.laneMode_of_reg (State.finish_done_reg _ _ _ _ _ (fcaLcfg_apart l).2.2.2)

/-! ### A lost lane (R165) -/

/-- A lane's descriptors move to another one; the lanes and the channels are as before. -/
theorem State.rehome_keeps (s : State) (l : Nat) : (s.rehome l).fca.lanes = s.fca.lanes ∧ (s.rehome l).fca.chans = s.fca.chans ∧
    (s.rehome l).fca.redoChans = s.fca.redoChans := by
  unfold State.rehome
  split
  · exact ⟨rfl, rfl, rfl⟩
  · extract_lets gone src a
    rw [SameFca.setCalendar a _]
    exact ⟨rfl, rfl, rfl⟩

theorem Unstaged.laneGone_lost {s : State} (h : Unstaged s) (l : Nat) : ((s.laneGone l).laneRec l).lost = true := by
  unfold State.laneGone
  split
  · assumption
  · extract_lets src a b
    obtain ⟨lanes, chans, redoChans⟩ := a.rehome_keeps l
    have told : SameFca (a.rehome l) ((b.loseRes (0x10 + l) 0x11).raise 0x1C 3) :=
      ((SameFca.requeueLane _ l).trans (SameFca.loseRes b _ _)).trans (SameFca.raise _ _ _)
    have moved : Unstaged (a.rehome l) := h.of_chans chans redoChans
    rw [(told.trans (told.unstaged moved).pumpAll_sameFca).laneRec, State.laneRec_of_lanes lanes,
      State.laneRec_setLaneRec]

theorem Unstaged.loseFcaLane_lost {s : State} (h : Unstaged s) (l : Nat) : ((s.loseFcaLane l).laneRec l).lost = true := by
  unfold State.loseFcaLane
  split
  · assumption
  · have counted : SameFca s ((s.bump (Reg.FCA_FAULTS l)).raise (0x20 + l) 4) := SameFca.raise (s.bump _) _ _
    exact (counted.unstaged h).laneGone_lost l

/-! ### The evaluation of a point (R154 to R158, R169) -/

/-- The states of the live channels and the descriptors of the re-derivation table are as before. -/
structure SameTables (s u : State) : Prop where
  chans : u.fca.chans = s.fca.chans
  redo : u.fca.redo = s.fca.redo

theorem SameFca.tables {s u : State} (h : SameFca s u) : SameTables s u := ⟨congrArg Fca.chans h, congrArg Fca.redo h⟩

namespace SameTables
variable {s u w : State}

theorem refl (s : State) : SameTables s s := ⟨rfl, rfl⟩

theorem trans (a : SameTables s u) (b : SameTables u w) : SameTables s w := ⟨b.chans.trans a.chans, b.redo.trans a.redo⟩

theorem ite {c : Prop} [Decidable c] (a : SameTables s u) (b : SameTables s w) : SameTables s (if c then u else w) := by
  split
  · exact a
  · exact b

theorem bump (s : State) (k n : Nat) : SameTables s (s.bump k n) := (State.bump_signals s k n).sameFca.tables

theorem raise (s : State) (page i : Nat) : SameTables s (s.raise page i) := (SameFca.raise s page i).tables

theorem keepEvent (s : State) (ch : Nat) (e : PointEvent) : SameTables s (s.keepEvent ch e) := ⟨rfl, rfl⟩

theorem carry (s : State) (ch at' : Nat) (before after q : Int) (qual : Nat) (has : Bool) (rho : F64) (inc : Bool) :
    SameTables s (s.carry ch at' before after q qual has rho inc) := by
  unfold State.carry
  extract_lets units a b
  have hb : SameFca a b := .ite (SameFca.lateIncrement a _ _) (SameFca.refl a)
  exact ((SameFca.bill s _ _ _ _).trans hb).tables.trans (keepEvent b _ _)

theorem ringResult (s : State) (l : Nat) (words : List Nat) (last : Nat) : SameTables s (s.ringResult l words last) := by
  unfold State.ringResult
  extract_lets x w a
  have ha : SameTables s a := ⟨rfl, rfl⟩
  exact .ite (ha.trans (raise a _ _)) ha

theorem deliver (s : State) (redo : Bool) (l : Nat) (d : Desc) (words : List Nat) (last : Nat) :
    SameTables s (s.deliver redo l d words last) :=
  .ite (.ite (refl s) (ringResult s _ _ _)) (.ite (refl s) (.ite ((bump s _ _).trans (raise _ _ _)) (ringResult s _ _ _)))

end SameTables

theorem enterDesc_staged (e : DescEntry) (c : ChanState) : (enterDesc e c).staged = c.staged := by
  unfold enterDesc
  split
  · rfl
  · extract_lets d
    simp only [d]
    split <;> rfl

/-- The evaluation of a point leaves its channel with the point as its last one and the staged samples as they were; what the point gives to
billing, to the Balance Engine and to the ring changes neither table. -/
theorem State.evaluate_live (s : State) (l ch : Nat) (e : DescEntry) (pt : StagedPoint) :
    ∃ c : ChanState, c.staged = (s.chan false ch).staged ∧ c.prev.map (·.t) = some pt.t ∧
      SameTables (s.setChan false ch c) (s.evaluate false l ch e pt) := by
  unfold State.evaluate
  extract_lets d shown c b x p t r hole span gap volinc opens inc nan has q qual flags a1 open1 a2 open2 rate rho after good c' a3 a4 a5 src a6 a7
    at' a8 a9
  refine ⟨a2.noteTotal ch (a2.onAxis d.leaf pt.t) c', enterDesc_staged e _, rfl, ?_⟩
  have h3 : SameTables (s.setChan false ch (a2.noteTotal ch (a2.onAxis d.leaf pt.t) c')) a3 := ⟨rfl, rfl⟩
  have h4 : SameTables a3 a4 := .ite (.bump a3 _ _) (.refl a3)
  have h5 : SameTables a4 a5 := .bump a4 _ _
  have h6 : SameTables a5 a6 := ⟨rfl, rfl⟩
  have h7 : SameTables a6 a7 := .ite (.refl a6) (.raise a6 _ _)
  have h8 : SameTables a7 a8 := .ite (.refl a7)
    ((SameFca.substEvent a7 _ _ _ _ _).trans ((SameFca.substEvent _ _ _ _ _ _).trans (SameFca.substEvent _ _ _ _ _ _))).tables
  have h9 : SameTables a8 a9 := .ite (.refl a8) (.ite (.carry a8 _ _ _ _ _ _ _ _ _) (.keepEvent a8 _ _))
  exact ((((((h3.trans h4).trans h5).trans h6).trans h7).trans h8).trans h9).trans (.ite (.refl a9) (.deliver a9 _ _ _ _ _))

/-! ### The points of a channel whose wait has ended (R169, R171) -/

theorem State.chan_setChan (s : State) (redo : Bool) (ch : Nat) (c : ChanState) : (s.setChan redo ch c).chan redo ch = c := by
  cases redo <;> exact SMap.getD_put_same _ _ _ _

theorem State.chan_live {s u : State} (h : u.fca.chans = s.fca.chans) (ch : Nat) : u.chan false ch = s.chan false ch := by
  simp only [State.chan, Bool.false_eq_true, if_false, h]

theorem State.descs_redo {s u : State} (h : u.fca.redo = s.fca.redo) (ch : Nat) : u.descs true ch = s.descs true ch :=
  congrArg (fun m => newestDesc (SMap.getD m ch [])) h

theorem State.pumpChan_empty {s : State} {redo : Bool} {ch : Nat} (h : (s.chan redo ch).staged = []) (reader fuel : Nat) :
    s.pumpChan redo reader ch fuel = s := by
  cases fuel with
  | zero => rfl
  | succ fuel =>
    unfold State.pumpChan
    dsimp only
    rw [h]

/-- A channel without a descriptor in the re-derivation table drops what is staged there, and touches no live channel. -/
theorem State.pumpChan_unmatched {s : State} {ch : Nat} (h : s.descs true ch = []) (reader fuel : Nat) :
    (s.pumpChan true reader ch fuel).fca.chans = s.fca.chans := by
  induction fuel generalizing s with
  | zero => rfl
  | succ fuel ih =>
    have unmatched : ∀ t, s.descAt true ch t = none := fun t => by rw [State.descAt, h]; rfl
    unfold State.pumpChan
    extract_lets c
    split
    · rfl
    · rename_i pt rest staged
      rw [unmatched]
      exact ih ((State.descs_redo rfl ch).trans h)

theorem State.pump_unmatched {s : State} {ch : Nat} (h : s.descs true ch = []) (reader : Nat) :
    (s.pump true reader ch).fca.chans = s.fca.chans :=
  State.pumpChan_unmatched (s := s.setChan true ch _) h reader _

/-- What the first point of a channel must meet to be evaluated now, by a descriptor and on a lane (R169, R184). -/
structure PointReady (s : State) (ch : Nat) (pt : StagedPoint) (e : DescEntry) : Prop where
  staged : (s.chan false ch).staged = [pt]
  first : (s.chan false ch).prev = none
  force : s.descAt false ch pt.t = some e
  lane : s.laneServes (s.homeOf false ch 0 e) 1 = true
  ready : s.ready e (s.chan false ch) pt.t = true

/-- The state in which a channel's only staged point has been evaluated on the lane of its descriptor. -/
def State.evaluated (s : State) (ch : Nat) (e : DescEntry) (pt : StagedPoint) : State :=
  (s.setChan false ch { s.chan false ch with staged := [] }).evaluate false (s.homeOf false ch 0 e) ch e pt

theorem State.evaluated_chan (s : State) (ch : Nat) (e : DescEntry) (pt : StagedPoint) :
    ((s.evaluated ch e pt).chan false ch).staged = [] ∧ ((s.evaluated ch e pt).chan false ch).prev.map (·.t) = some pt.t ∧
      (s.evaluated ch e pt).fca.redo = s.fca.redo := by
  obtain ⟨c, staged, prev, tables⟩ :=
    (s.setChan false ch { s.chan false ch with staged := [] }).evaluate_live (s.homeOf false ch 0 e) ch e pt
  rw [State.chan_setChan] at staged
  rw [State.evaluated, State.chan_live tables.chans, State.chan_setChan]
  exact ⟨staged, prev, tables.redo⟩

/-- A point that is ready, and whose records the headroom takes, is evaluated (R47, R171). -/
theorem PointReady.pump {s : State} {ch : Nat} {pt : StagedPoint} {e : DescEntry} (h : PointReady s ch pt e)
    (takes : s.commits (s.chan false ch) pt.t = false ∨ s.chargedBy (s.evaluated ch e pt) = 0 ∨
      s.takes (s.chargedBy (s.evaluated ch e pt)) = true) : s.pump false 0 ch = s.evaluated ch e pt := by
  have held : ¬(decide (0 < s.chargedBy (s.evaluated ch e pt)) && s.commits (s.chan false ch) pt.t &&
      !(s.takes (s.chargedBy (s.evaluated ch e pt)))) = true := by
    rcases takes with waits | free | fits
    · simp [waits]
    · simp [free]
    · simp [fits]
  rw [State.pump]
  dsimp only
  rw [if_neg Bool.false_ne_true, h.staged, List.length_singleton]
  unfold State.pumpChan
  dsimp only
  rw [h.staged]
  dsimp only
  rw [h.force]
  refine (if_neg ?old).trans ((if_neg ?waits).trans ((if_neg Bool.false_ne_true).trans ((if_neg held).trans ?_)))
  case old =>
    rw [h.first]
    exact Bool.false_ne_true
  case waits => simp [h.lane, h.ready]
  exact State.pumpChan_empty (s.evaluated_chan ch e pt).1 0 1

/-- After the live point is evaluated, a channel that no descriptor re-derives has it as its last one. -/
theorem execFlowPointWaitExpiry_evaluates {t : Angle} {ch : BitVec 20} {pt : StagedPoint} {e : DescEntry} {s : State}
    (h : PointReady (s.tick t) ch.toNat pt e) (redo : (s.tick t).descs true ch.toNat = [])
    (takes : (s.tick t).commits ((s.tick t).chan false ch.toNat) pt.t = false ∨
      (s.tick t).chargedBy ((s.tick t).evaluated ch.toNat e pt) = 0 ∨
      (s.tick t).takes ((s.tick t).chargedBy ((s.tick t).evaluated ch.toNat e pt)) = true) :
    ∃ u, execFlowPointWaitExpiry t ch s = .next u ∧ (u.chan false ch.toNat).staged = [] ∧
      (u.chan false ch.toNat).prev.map (·.t) = some pt.t := by
  obtain ⟨staged, prev, same⟩ := (s.tick t).evaluated_chan ch.toNat e pt
  refine ⟨_, rfl, ?_⟩
  rw [h.pump takes]
  split
  · exact ⟨staged, prev⟩
  · rw [State.chan_live (State.pump_unmatched ((State.descs_redo same _).trans redo) _)]
    exact ⟨staged, prev⟩

/-! ### The host ring (R185) -/

/-- A lane's ring after the slots up to a named one have retired, and the lane goes on with what waited for room. -/
def State.retired (s : State) (l n : Nat) : State :=
  (s.setLaneRec l { s.laneRec l with ring := (s.laneRec l).ring.filter (fun r => decide (n < r.1)), head := n + 1 }).pumpAll

theorem Unstaged.retired_laneRec {s : State} (h : Unstaged s) (l n : Nat) : (s.retired l n).laneRec l =
    { s.laneRec l with ring := (s.laneRec l).ring.filter (fun r => decide (n < r.1)), head := n + 1 } := by
  have acked : Unstaged (s.setLaneRec l { s.laneRec l with
    ring := (s.laneRec l).ring.filter (fun r => decide (n < r.1)), head := n + 1 }) := h.of_chans rfl rfl
  exact (acked.pumpAll_sameFca.laneRec l).trans (s.laneRec_setLaneRec l _)

/-- TK_ACK retires the slots up to the named one; while nothing stands staged and no CLOSE_END runs, nothing follows on the lane. -/
theorem effTkAck_retires {l n : Nat} {v : Word} {a : State} (calm : Unstaged a) (ends : (a.laneRec l).ending = false)
    (named : (SMap.keys (a.laneRec l).ring).find? (fun n => n % 65536 == v.toNat % 65536) = some n) :
    effTkAck l v a = .done (a.retired l n) := by
  have ended : ¬((a.retired l n).laneRec l).ending = true := by
    rw [calm.retired_laneRec]
    exact ne_true_of_eq_false ends
  unfold effTkAck
  dsimp only
  rw [named]
  exact congrArg WriteResult.done (if_neg ended)

/-- A read of a slot's word answers it; it changes no output. -/
theorem State.readSlot_answers {s : State} {l n : Nat} {place : Option Nat} {x : RingSlot} (h : s.slotOf l place = some (n, x)) :
    (s.readSlot l place 6).1.out = s.out ∧ (s.readSlot l place 6).2 = slotWord x 6 := by
  unfold State.readSlot
  rw [h]
  exact ⟨rfl, rfl⟩

/-! ### The close list (R186) -/

/-- A boundary after the last one pushed joins a list that has room for it. -/
theorem effCloseHi_pushes {l : Nat} {v : Word} {a : State}
    (later : ∀ c, (a.laneRec l).lastClose = some c → c < a.reg (Reg.FCA_CLOSE_LO l) + 2 ^ 32 * v.toNat)
    (room : (a.laneRec l).closes.length < 64) :
    ∃ u, effCloseHi l v a = .done u ∧
      (u.laneRec l).closes = (a.laneRec l).closes ++ [a.reg (Reg.FCA_CLOSE_LO l) + 2 ^ 32 * v.toNat] := by
  unfold effCloseHi
  extract_lets b x
  have pushed := congrArg LaneRec.closes (a.laneRec_setLaneRec l { x with closes := x.closes ++ [b], lastClose := some b })
  refine ⟨_, ?_, pushed⟩
  split
  · rename_i c last
    rw [if_neg (fun early => absurd (of_decide_eq_true early) (Nat.not_le.mpr (later c last))), if_neg (Nat.not_le.mpr room)]
  · exact (if_neg Bool.false_ne_true).trans (if_neg (Nat.not_le.mpr room))

/-- CLOSE_END leaves a list with nothing more to close, or goes on with it. -/
theorem State.closeAll_ends (s : State) (l : Nat) : ((s.closeAll l).laneRec l).closes = [] ∨ ((s.closeAll l).laneRec l).ending = true := by
  unfold State.closeAll
  extract_lets r a x
  split
  · exact .inl (congrArg LaneRec.closes (a.laneRec_setLaneRec l _))
  · exact .inr (congrArg LaneRec.ending (a.laneRec_setLaneRec l _))

theorem effCloseEnd_closes {l : Nat} {v : Word} {a : State} (written : v.toNat.testBit 0 = true) (mode : a.laneMode l = 2)
    (closes : a.flag (Reg.FCA_LCFG l) 4 = true) : effCloseEnd l v a = .done (a.closeAll l) := by
  rw [effCloseEnd, if_neg (by simp [bit, written]), if_pos ⟨mode, closes⟩]

theorem effCloseEnd_elsewhere {l : Nat} {a : State} (v : Word) (other : a.laneMode l ≠ 2 ∨ a.flag (Reg.FCA_LCFG l) 4 = false) :
    (effCloseEnd l v a).state = a := by
  have idle : ¬(a.laneMode l = 2 ∧ a.flag (Reg.FCA_LCFG l) 4 = true) := fun ⟨mode, closes⟩ =>
    other.elim (fun h => h mode) (fun h => Bool.false_ne_true (h.symm.trans closes))
  rw [effCloseEnd, if_neg idle]
  split <;> rfl

/-! ### The commands -/

/-- Settles O35: each clause from the lemma about its command or its effect. -/
theorem flowLaneCommandsComplete : Obligations.FlowLaneCommandsComplete := by
  refine ⟨?mode, ?enter, ?lost, ?point, ?ack, ?oldest, ?placed, ?push, ?ends, ?elsewhere⟩
  case mode =>
    intro t p lane v s a through old new empty
    refine ⟨_, rfl, ?_⟩
    rw [State.hostWrite_through through, effLaneMode_outside old new empty, State.finish_laneMode]
    exact a.modeWritten_laneMode lane v
  case enter =>
    intro t p lane v s a through calm old new empty
    refine ⟨_, rfl, ?_⟩
    rw [State.hostWrite_through through, effLaneMode_enters old new empty, State.finish_laneMode, ← new]
    split
    · exact a.modeWritten_laneMode lane v
    · exact State.enteredLive_laneMode (State.calm_unstaged calm) lane v
  case lost =>
    intro t lane s calm
    exact ⟨_, rfl, (State.calm_unstaged calm).loseFcaLane_lost lane⟩
  case point =>
    intro t ch pt e s b redo staged first force lane ready evaluated takes
    subst evaluated
    exact execFlowPointWaitExpiry_evaluates ⟨staged, first, force, lane, ready⟩ redo takes
  case ack =>
    intro t p lane v n s a through calm ends named
    have unstaged := State.calm_unstaged calm
    refine ⟨_, rfl, ?_⟩
    rw [State.hostWrite_through through, effTkAck_retires unstaged ends named, (SameFca.finish _ _ _ _).laneRec, WriteResult.state_done,
      unstaged.retired_laneRec]
    exact ⟨rfl, rfl⟩
  case oldest =>
    intro t p lane n x s a through slot
    obtain ⟨out, word⟩ := State.readSlot_answers slot
    refine ⟨_, rfl, ?_⟩
    rw [State.hostRead_through through, answer_out, out, word]
  case placed =>
    intro t p lane i n x s slot
    obtain ⟨out, word⟩ := State.readSlot_answers slot
    refine ⟨_, rfl, ?_⟩
    rw [answer_out, out, word]
  case push =>
    intro t p lane v s a through later room
    obtain ⟨u, run, pushed⟩ := effCloseHi_pushes later room
    refine ⟨_, rfl, ?_⟩
    rw [State.hostWrite_through through, run, (SameFca.finish _ _ _ _).laneRec]
    exact pushed
  case ends =>
    intro t p lane v s a through written mode closes
    refine ⟨_, rfl, ?_⟩
    rw [State.hostWrite_through through, effCloseEnd_closes written mode closes, (SameFca.finish _ _ _ _).laneRec]
    exact a.closeAll_ends lane
  case elsewhere =>
    intro t p lane v s a through other
    refine ⟨_, rfl, ?_⟩
    rw [State.hostWrite_through through, (SameFca.finish _ _ _ _).laneRec, effCloseEnd_elsewhere v other]

end Sys2Proof.Machine
end

section
/-!
PROOFS. Graphs, parameters, windows and restarts of the Balance Engine (R191, R192, R194, R195, R202) complete with their effect: what leaves
the engine as it is comes before the commands.
-/

namespace Sys2Proof.Machine

/-! ### What leaves the Balance Engine as it is -/

theorem Signals.balance {s u : State} (h : Signals s u) : u.balance = s.balance := (congrArg State.balance h).trans rfl

@[simp] theorem State.raise_balance (s : State) (page i : Nat) : (s.raise page i).balance = s.balance := (s.raise_signals page i).balance

@[simp] theorem State.journal_balance (s : State) (cls : Nat) (payload : List Byte) : (s.journal cls payload).balance = s.balance :=
  (s.append_signals cls payload none 0).balance

@[simp] theorem State.showGraph_balance (s : State) : s.showGraph.balance = s.balance := by
  rw [State.showGraph, State.setFlag_balance, State.setReg_balance]

/-- A write that passes its gate and is accepted leaves the engine as its effect does. -/
theorem State.hostWrite_done_balance {s a u : State} {p : Path} {page off : Nat} {eff : State → WriteResult}
    (through : s.through p page off true = some a) (done : eff a = .done u) : (s.hostWrite p page off eff).balance = u.balance := by
  rw [State.hostWrite_through through, done, State.finish_done]

@[simp] theorem ite_balance (c : Prop) [Decidable c] (a b : State) :
    (if c then a else b).balance = if c then a.balance else b.balance := by
  split <;> rfl

theorem foldl_balance {α : Type} (f : State → α → State) (h : ∀ s a, (f s a).balance = s.balance) (s : State) (l : List α) :
    (l.foldl f s).balance = s.balance := foldl_proj State.balance f h s l

theorem State.requestNew_balance (s : State) (i : Instant) : (s.requestNew i).balance = s.balance := by
  unfold State.requestNew
  split <;> rfl

/-- Instants are requested of the timebase alone (R193). -/
theorem State.requestMinute_balance (s : State) (acts : SMap (Option Minute)) (m : Minute) :
    (s.requestMinute acts m).balance = s.balance := by
  unfold State.requestMinute
  extract_lets a b
  have programs : a.balance = s.balance := foldl_balance _ (fun s p => by simp [State.requestNew_balance]) s _
  have lengths : b.balance = a.balance := foldl_balance _ (fun s l => by simp [State.requestNew_balance]) a _
  split
  · rfl
  · split
    · exact lengths.trans programs
    · exact (foldl_balance _ (fun s z => by simp [State.requestNew_balance]) b _).trans (lengths.trans programs)

theorem State.compile_balance (s : State) : s.compile.balance = s.balance := by
  unfold State.compile State.compileTo
  extract_lets now acts a
  have minutes : a.balance = s.balance := foldl_balance _ (fun s m => s.requestMinute_balance acts m) s _
  simp [minutes]

@[simp] theorem State.recompile_balance (s : State) (owners : InstantOwner → Bool) : (s.recompile owners).balance = s.balance :=
  State.compile_balance _

/-- The windows that end leave the module's place in its pair as it is. -/
theorem State.advanceWindows_serves (s : State) : s.advanceWindows.serves = s.serves := by
  have stat : s.advanceWindows.reg Reg.PAIRS_STAT = s.reg Reg.PAIRS_STAT := s.advanceWindows_within.2 _ (by decide) (by decide)
  rw [State.serves, State.serves, State.pairState, State.pairState, State.fld_eq_of_reg stat]

/-! ### Graphs (R191) -/

theorem State.takeGraph_pending (s : State) (eff : Nat) (image : GraphImage) :
    ∃ g, (s.takeGraph eff image).balance.pending = some g ∧ g.begun = false ∧ g.eff = eff ∧ g.gen = image.gen :=
  ⟨_, rfl, rfl, rfl, rfl⟩

/-- An image that passes the checks is taken, after its record. -/
theorem effGcmd_commits {a : State} {eff : Nat} {image : GraphImage}
    (staged : eff = a.advanceWindows.reg64 Reg.BALG_GEFF_LO Reg.BALG_GEFF_HI)
    (loaded : image = a.advanceWindows.load (a.advanceWindows.reg Reg.BALG_GIMG_OFS) (a.advanceWindows.reg Reg.BALG_GIMG_LEN))
    (passes : a.advanceWindows.checkGraph image (a.advanceWindows.reg Reg.BALG_GIMG_LEN) eff = none) :
    ∃ u b, effGcmd 1 a = .done u ∧ u.balance = (State.takeGraph b eff image).balance := by
  have commit : effGcmd 1 a = effGraphCommit a := rfl
  rw [commit, effGraphCommit]
  dsimp only
  rw [← staged, ← loaded, passes]
  exact ⟨_, a.advanceWindows.journal 0x24 (leBytes 8 eff ++ image), rfl, by simp⟩

/-- The pending graph that no zone has taken is gone, and GSTAT shows the accepted command. -/
theorem effGcmd_drops {a : State} {g : PendingGraph} (pending : a.advanceWindows.balance.pending = some g) (waits : g.begun = false) :
    ∃ u, effGcmd 2 a = .done u ∧ u.balance.pending = none ∧ u.fld Reg.BALG_GSTAT 29 28 = 1 := by
  have drop : effGcmd 2 a = effGraphDrop a := rfl
  rw [drop, effGraphDrop]
  dsimp only
  rw [pending]
  refine ⟨_, if_neg (ne_true_of_eq_false waits), by simp, ?_⟩
  rw [State.fld_eq_of_reg (State.raise_still _ _ _ _ (by decide) (by decide)),
    State.fld_setFld_other _ _ _ _ _ _ _ (by decide) (by decide) (by decide) (.inl (by decide)),
    State.fld_setFld _ _ _ _ _ (by decide) (by decide), Nat.mod_eq_of_lt (by decide)]

/-! ### Parameters (R192, R195) -/

@[simp] theorem State.balanceConfig_balance (s : State) (k i x : Nat) : (s.balanceConfig k i x).balance = s.balance.put k i x := by
  rw [State.balanceConfig]
  dsimp only
  rw [State.journal_balance]

/-- A binary64 value that takes its place by its word is found as it is. -/
theorem SMap.find_put_word (m : SMap F64) (i : Nat) (x : F64) : (m.put i (BitVec.ofNat 64 x.toNat)).find i = some x := by
  rw [SMap.find_put_same, BitVec.ofNat_toNat, BitVec.setWidth_eq]

theorem Balance.put_slot (b : Balance) (i x : Nat) : (b.put Reg.BALG_ZP_HI i x).slots.find i = some x := SMap.find_put_same _ _ _

theorem Balance.put_insulation (b : Balance) (i : Nat) (x : F64) : (b.put Reg.BALG_IC_HI i x.toNat).insulation.find i = some x :=
  SMap.find_put_word _ _ _

theorem Balance.put_ambient (b : Balance) (i : Nat) (x : F64) : (b.put Reg.BALG_TAMB0_HI i x.toNat).ambient.find i = some x :=
  SMap.find_put_word _ _ _

theorem Balance.put_corr (b : Balance) (i : Nat) (x : F64) : (b.put Reg.BALG_CG_HI i x.toNat).corr.find i = some x :=
  SMap.find_put_word _ _ _

theorem effZpHi_commits {v : Word} {a : State}
    (fits : slotInRange (a.fld Reg.BALG_ZP_SLOT 4 0) (a.reg Reg.BALG_ZP_LO + 2 ^ 32 * v.toNat) = true) :
    ∃ u b, effZpHi v a = .done u ∧ u.balance = Balance.put b Reg.BALG_ZP_HI (a.fld Reg.BALG_ZP_ZONE 11 0 * 32 + a.fld Reg.BALG_ZP_SLOT 4 0)
      (a.reg Reg.BALG_ZP_LO + 2 ^ 32 * v.toNat) := by
  rw [effZpHi]
  dsimp only
  rw [fits]
  exact ⟨_, _, if_neg (by decide), State.balanceConfig_balance _ _ _ _⟩

theorem effBalanceParam_insulation {v : Word} {a : State} {x : F64} (staged : x = a.staged64 (bankKey (a.fld Reg.BALG_IC_SEL 3 0) Reg.BALG_IC_LO) v)
    (nonneg : negative x = false) :
    ∃ u b, effBalanceParam .insulation v a = .done u ∧ u.balance = Balance.put b Reg.BALG_IC_HI (a.fld Reg.BALG_IC_SEL 3 0) x.toNat := by
  subst staged
  exact ⟨_, _, if_neg (ne_true_of_eq_false nonneg), State.balanceConfig_balance _ _ _ _⟩

theorem effBalanceParam_ambient (j : Fin 4) (v : Word) (a : State) :
    ∃ u b, effBalanceParam (.ambient j) v a = .done u ∧
      u.balance = Balance.put b Reg.BALG_TAMB0_HI j (a.staged64 (Reg.BALG_TAMB0_LO + 8 * j) v).toNat :=
  ⟨_, _, rfl, State.balanceConfig_balance _ _ _ _⟩

theorem effBalanceParam_correlation {v : Word} {a : State} {x : F64} (staged : x = a.staged64 (bankKey (a.fld Reg.BALG_CG_SEL 7 0) Reg.BALG_CG_LO) v)
    (low : F.zero.le (F.ofBits x) = true) (high : (F.ofBits x).le (F.ofNat 1) = true) (group : a.fld Reg.BALG_CG_SEL 7 0 ≠ 0) :
    ∃ u b, effBalanceParam .correlation v a = .done u ∧ u.balance = Balance.put b Reg.BALG_CG_HI (a.fld Reg.BALG_CG_SEL 7 0) x.toNat := by
  subst staged
  exact ⟨_, _, if_neg (by simp [low, high, group]), State.balanceConfig_balance _ _ _ _⟩

/-- An accepted parameter leaves the engine as its effect does, whichever register commits it. -/
theorem exec_balanceParamCommit {t : Angle} {p : Path} {which : BalanceParam} {v : Word} {s a u : State}
    (through : (s.tick t).through p 0x31 (balanceOff which) true = some a) (done : effBalanceParam which v a = .done u) :
    ∃ w, exec (.balanceParamCommit t p which v) s = .next w ∧ w.balance = u.balance :=
  ⟨_, rfl, State.hostWrite_done_balance through done⟩

/-! ### Windows and restarts (R194, R202) -/

/-- The first due window that has a record is evaluated. -/
theorem State.evaluateDue_evaluates {s : State} {id : Nat} {old : Bool} {z : Zone} {w : Window} (due : s.dueWindow id = some (old, z, w))
    (on : s.flag Reg.BAL_CFG 0 = true) (recorded : s.skipsWindow w = false) (fuel : Nat) :
    s.evaluateDue id (fuel + 1) = s.evaluateWindow id old z w := by
  rw [State.evaluateDue, due]
  exact if_neg (by simp [on, recorded])

theorem State.setZone_find (s : State) (id : Nat) (z : Zone) : (s.setZone id z).balance.zones.find id = some z := SMap.find_put_same _ _ _

/-- The evaluated window of a zone in force is the zone's last one, and the rest of its windows wait. -/
theorem State.evaluateWindow_zone (s : State) (id : Nat) (z : Zone) (w : Window) :
    ∃ y, (s.evaluateWindow id false z w).balance.zones.find id = some y ∧ y.evaluated = w.stop ∧ (s.serves = true → y.lastNum = w.num) ∧
      y.ended = z.ended.drop 1 := by
  unfold State.evaluateWindow
  extract_lets v counts r run body next recorded sampled cands alarmed a counted raised
  split
  next silent => exact ⟨_, State.setZone_find _ _ _, rfl, fun serves => by simp [serves] at silent, rfl⟩
  next => split <;> exact ⟨_, State.setZone_find _ _ _, rfl, fun _ => rfl, rfl⟩

theorem effZreset_restarts {v : Word} {z : Zone} {a : State} (written : v.toNat.testBit 0 = true)
    (stands : a.advanceWindows.balance.zones.find (a.advanceWindows.fld Reg.BAL_ZSEL 11 0) = some z) :
    ∃ u b, effZreset v a = .done u ∧ u = State.setZone b (a.advanceWindows.fld Reg.BAL_ZSEL 11 0)
      { z with ended := [], saves := z.plainSaves, run := freshRun z.defn.cfg (z.params.getD 17 0) } := by
  rw [effZreset, if_neg (by simp [bit, written])]
  dsimp only
  rw [stands]
  exact ⟨_, _, rfl, rfl⟩

/-! ### The commands -/

/-- Settles O37: each clause from the lemma about its effect, and that of a window from what its evaluation leaves of the zone. -/
theorem balanceCommandsComplete : Obligations.BalanceCommandsComplete := by
  refine ⟨?commit, ?drop, ?slot, ?insulation, ?ambient, ?correlation, ?window, ?restart⟩
  case commit =>
    intro t p img s a through passes
    obtain ⟨u, b, done, taken⟩ := effGcmd_commits rfl rfl passes
    refine ⟨_, rfl, ?_⟩
    rw [State.hostWrite_done_balance through done, taken]
    exact b.takeGraph_pending _ _
  case drop =>
    intro t p g s a through pending waits
    obtain ⟨u, done, gone, shown⟩ := effGcmd_drops pending waits
    refine ⟨_, rfl, ?_, ?_⟩
    · rw [State.hostWrite_done_balance through done, gone]
    · rw [State.hostWrite_through through, done, State.fld_eq_of_reg (State.finish_done_reg _ _ _ _ _ (by decide)), shown]
  case slot =>
    intro t p v s a through fits
    obtain ⟨u, b, done, put⟩ := effZpHi_commits fits
    refine ⟨_, rfl, ?_⟩
    rw [State.hostWrite_done_balance through done, put, b.put_slot]
  case insulation =>
    intro t p v s a through nonneg
    obtain ⟨u, b, done, put⟩ := effBalanceParam_insulation rfl nonneg
    obtain ⟨w, run, same⟩ := exec_balanceParamCommit (which := .insulation) through done
    refine ⟨w, run, ?_⟩
    rw [same, put, b.put_insulation]
  case ambient =>
    intro t p j v s a through
    obtain ⟨u, b, done, put⟩ := effBalanceParam_ambient j v a
    obtain ⟨w, run, same⟩ := exec_balanceParamCommit (which := (.ambient j)) through done
    refine ⟨w, run, ?_⟩
    rw [same, put, b.put_ambient]
  case correlation =>
    intro t p v s a through low high group
    obtain ⟨u, b, done, put⟩ := effBalanceParam_correlation rfl low high group
    obtain ⟨w, run, same⟩ := exec_balanceParamCommit (which := .correlation) through done
    refine ⟨w, run, ?_⟩
    rw [same, put, b.put_corr]
  case window =>
    intro t zone z w s due on recorded
    refine ⟨_, rfl, ?_⟩
    rw [State.evaluateDue_evaluates due on recorded, ← State.advanceWindows_serves]
    exact State.evaluateWindow_zone _ _ z w
  case restart =>
    intro t p v z s a through written stands
    obtain ⟨u, b, done, put⟩ := effZreset_restarts written stands
    refine ⟨_, rfl, ?_⟩
    rw [State.hostWrite_done_balance through done, put, b.setZone_find]

end Sys2Proof.Machine
end

section
/-!
PROOFS. The commands of billing (R208, R211, R213 to R215) complete with their effect: what accounts, outputs and the placing of units leave of
the tariff programs and of the timebase comes first.
-/

namespace Sys2Proof.Machine

/-! ### What outputs, obligations and records leave of billing and of the timebase -/

theorem Signals.billing {s u : State} (h : Signals s u) : u.billing = s.billing := (congrArg State.billing h).trans rfl

@[simp] theorem State.raise_billing (s : State) (page i : Nat) : (s.raise page i).billing = s.billing := (s.raise_signals page i).billing

@[simp] theorem State.append_billing (s : State) (cls : Nat) (payload : List Byte) (obl : Option Nat) (leaf : Nat) :
    (s.append cls payload obl leaf).2.billing = s.billing := (s.append_signals cls payload obl leaf).billing

@[simp] theorem State.journal_billing (s : State) (cls : Nat) (payload : List Byte) : (s.journal cls payload).billing = s.billing :=
  s.append_billing cls payload none 0

@[simp] theorem ite_billing (c : Prop) [Decidable c] (a b : State) :
    (if c then a else b).billing = if c then a.billing else b.billing := apply_ite ..

/-- The tables of billing and the timebase are as before. -/
abbrev SameBooks (s u : State) : Prop := u.billing = s.billing ∧ u.sweep = s.sweep

theorem SameBooks.foldl {α : Type} (f : State → α → State) (h : ∀ s a, SameBooks s (f s a)) (s : State) (l : List α) :
    SameBooks s (l.foldl f s) :=
  ⟨foldl_proj State.billing f (fun s a => (h s a).1) s l, foldl_proj State.sweep f (fun s a => (h s a).2) s l⟩

theorem SameBooks.trans {s u w : State} (a : SameBooks s u) (b : SameBooks u w) : SameBooks s w := ⟨b.1.trans a.1, b.2.trans a.2⟩

theorem SameBooks.ite {s u w : State} {c : Prop} [Decidable c] (a : SameBooks s u) (b : SameBooks s w) : SameBooks s (if c then u else w) := by
  split
  · exact a
  · exact b

theorem State.logStore_billing (s : State) (e : LogEntry) : (s.logStore e).billing = s.billing := by
  unfold State.logStore
  split <;> simp [State.sysdata, State.appendSysdata]

@[simp] theorem State.logEntry_billing (s : State) (cls page code data : Nat) : (s.logEntry cls page code data).billing = s.billing := by
  simp [State.logEntry, State.logHold, State.logStore_billing]

@[simp] theorem State.sample_books (s : State) (i : Nat) (v : Int) : SameBooks s (s.sample i v) := by
  simp [SameBooks, State.sample]

@[simp] theorem State.ringPut_books (s : State) (e : OutcomeEntry) : SameBooks s (s.ringPut e) := by
  simp [SameBooks, State.ringPut]

@[simp] theorem State.endSlice_books (s : State) (id : Nat) (revoked : Bool) : SameBooks s (s.endSlice id revoked) := by
  simp [SameBooks, State.endSlice]

@[simp] theorem State.setCalendar_books (s : State) (c : SMap Obligation) : SameBooks s (s.setCalendar c) := by
  unfold State.setCalendar State.calCounts
  exact SameBooks.trans (by simp [SameBooks]) (.foldl _ (fun s _ => by simp [SameBooks]) _ _)

@[simp] theorem State.endObl_books (s : State) (idx outcome reason : Nat) : SameBooks s (s.endObl idx outcome reason) := by
  unfold State.endObl
  split <;> simp [SameBooks]

theorem State.revokeAll_books (s : State) (reason : Nat) (l : List Nat) : SameBooks s (s.revokeAll reason l) := by
  induction l generalizing s with
  | nil => simp [SameBooks, State.revokeAll]
  | cons i l ih => exact (s.endObl_books i 1 reason).trans (ih _)

theorem State.testOwn_books (s : State) (q : Obligation) : SameBooks s (s.testOwn q).2 := by
  unfold State.testOwn
  split
  · rename_i h
    obtain ⟨vs, rfl⟩ := State.admission_admitted h
    exact (s.revokeAll_books 0x19 vs).trans (by simp [SameBooks, State.insertObl])
  · simp [SameBooks]

@[simp] theorem State.firmwareCommand_books (s : State) (id : Nat) (records : List Byte) : SameBooks s (s.firmwareCommand id records) := by
  unfold State.firmwareCommand State.request
  dsimp only
  split
  · simp [SameBooks]
  · exact s.testOwn_books _

@[simp] theorem State.startPulse_books (s : State) (c : DriveCmd) : SameBooks s (s.startPulse c) := by
  unfold State.startPulse
  split <;> simp [SameBooks, State.setIlState, State.setOutput, State.modId, State.modObl]

@[simp] theorem State.driveOutput_books (s : State) (c : DriveCmd) : SameBooks s (s.driveOutput c) := by
  refine SameBooks.ite ?_ (by simp [SameBooks])
  dsimp only
  split <;> simp [SameBooks, State.setOutput]

@[simp] theorem State.driveAccount_books (s : State) (n : Nat) (on : Bool) : SameBooks s (s.driveAccount n on) :=
  (SameBooks.foldl _ (fun s _ => .ite (s.driveOutput_books _) ⟨rfl, rfl⟩) s _).trans
    (.foldl _ (fun s _ => .ite (s.firmwareCommand_books _ _) ⟨rfl, rfl⟩) _ _)

@[simp] theorem State.forgetHost_books (s : State) (n : Nat) : SameBooks s (s.forgetHost n) :=
  .foldl _ (fun s _ => by simp [SameBooks, State.setOutput]) s _

/-- The state of an account is a register and what it drives: no balance and no boundary (R225). -/
@[simp] theorem State.accountState_books (s : State) (n : Nat) : SameBooks s (s.accountState n) := by
  simp [SameBooks, State.accountState]

/-! ### What charges and the placing of units leave of the programs and of the timebase (R208 to R212, R220 to R224) -/

/-- The tariff programs and the timebase are as before. -/
abbrev SameTariffs (s u : State) : Prop := u.billing.programs = s.billing.programs ∧ u.sweep = s.sweep

theorem SameTariffs.foldl {α : Type} (f : State → α → State) (h : ∀ s a, SameTariffs s (f s a)) (s : State) (l : List α) :
    SameTariffs s (l.foldl f s) :=
  ⟨foldl_proj (fun s => s.billing.programs) f (fun s a => (h s a).1) s l, foldl_proj State.sweep f (fun s a => (h s a).2) s l⟩

theorem SameTariffs.trans {s u w : State} (a : SameTariffs s u) (b : SameTariffs u w) : SameTariffs s w := ⟨b.1.trans a.1, b.2.trans a.2⟩

theorem SameTariffs.ite {s u w : State} {c : Prop} [Decidable c] (a : SameTariffs s u) (b : SameTariffs s w) :
    SameTariffs s (if c then u else w) := by
  split
  · exact a
  · exact b

theorem SameBooks.tariffs {s u : State} (h : SameBooks s u) : SameTariffs s u := ⟨congrArg Billing.programs h.1, h.2⟩

@[simp] theorem State.charge_tariffs (s : State) (n kind reg ch : Nat) (net : Bool) (at' : Nat) (growth price : Int) :
    SameTariffs s (s.charge n kind reg ch net at' growth price) := by
  simp [SameTariffs, State.charge, State.setAccount]

@[simp] theorem State.chargeLate_tariffs (s : State) (ch reg t units : Nat) : SameTariffs s (s.chargeLate ch reg t units) := by
  unfold State.chargeLate
  extract_lets progOf hit progs a
  have charged : SameTariffs s a := .foldl _ (fun s n => .foldl _ (fun s m => .ite ⟨rfl, rfl⟩
    ((s.charge_tariffs _ _ _ _ _ _ _ _).trans (State.accountState_books _ _).tariffs)) s _) s hit
  exact charged.trans ⟨rfl, rfl⟩

@[simp] theorem State.placeClosed_tariffs (s : State) (ch : Nat) (c : BillChan) (t units qual : Nat) :
    SameTariffs s (s.placeClosed ch c t units qual) := by
  unfold State.placeClosed
  dsimp only
  (repeat' split) <;> simp [SameTariffs, State.setBillChan, State.modBillChan, State.intervalRecord]

@[simp] theorem State.placeDemand_tariffs (s : State) (ch : Nat) (p : Program) (reg t units : Nat) :
    SameTariffs s (s.placeDemand ch p reg t units) := by
  unfold State.placeDemand
  (repeat' split) <;> simp [SameTariffs, State.adjust, State.journalEvent, State.modBillChan]

@[simp] theorem State.placeUnits_tariffs (s : State) (ch : Nat) (c : BillChan) (t units qual : Nat) :
    SameTariffs s (s.placeUnits ch c t units qual) := by
  unfold State.placeUnits
  dsimp only
  (repeat' split) <;> simp [SameTariffs, State.setBillChan]

@[simp] theorem State.bill_tariffs (s : State) (ch t units qual : Nat) : SameTariffs s (s.bill ch t units qual) := by
  unfold State.bill
  (repeat' split) <;> simp [SameTariffs]

@[simp] theorem State.releaseHeld_tariffs (s : State) : SameTariffs s s.releaseHeld :=
  SameTariffs.trans (u := { s with billing := { s.billing with held := [] } }) ⟨rfl, rfl⟩ (.foldl _ (fun s _ => s.bill_tariffs _ _ _ _) _ _)

theorem State.chargeAccount_tariffs (s : State) (n at' : Nat) (growth : Nat → Nat → Int) : SameTariffs s (s.chargeAccount n at' growth) := by
  unfold State.chargeAccount
  extract_lets a b c
  have charged : SameTariffs s a := .foldl _ (fun s r => .foldl _ (fun s m => .ite ⟨rfl, rfl⟩ (s.charge_tariffs _ _ _ _ _ _ _ _)) s _) s _
  have priced : SameTariffs a c := by
    simp only [c]
    split
    · exact .ite ⟨rfl, rfl⟩ ⟨rfl, rfl⟩
    · exact ⟨rfl, rfl⟩
  exact (charged.trans priced).trans (c.accountState_books n).tariffs

@[simp] theorem State.chargeProgram_tariffs (s : State) (n at' : Nat) : SameTariffs s (s.chargeProgram n at') := by
  unfold State.chargeProgram
  extract_lets growth a
  have charged : SameTariffs s a := .foldl _ (fun s _ => .ite (s.chargeAccount_tariffs _ _ _) ⟨rfl, rfl⟩) s _
  exact charged.trans ⟨rfl, rfl⟩

/-! ### The close of an interval (R181, R187, R211, R212) -/

@[simp] theorem State.writeIvs_tariffs (l : List (Nat × Nat × Nat × Nat × Nat)) (s : State) : SameTariffs s (s.writeIvs l) := by
  induction l generalizing s with
  | nil => exact ⟨rfl, rfl⟩
  | cons x l ih =>
    have written : ∀ c q f n u, SameTariffs s (s.intervalRecord c q f n u) := fun _ _ _ _ _ => by simp [SameTariffs, State.intervalRecord]
    exact .ite ((written _ _ _ _ _).trans (ih _)) ⟨rfl, rfl⟩

@[simp] theorem State.produceInterval_tariffs (s : State) (ch qual flags inum units : Nat) :
    SameTariffs s (s.produceInterval ch qual flags inum units) := by
  simp [SameTariffs, State.produceInterval, State.drainIvs]

@[simp] theorem State.closeRecord_tariffs (s : State) (ch num at' : Nat) : SameTariffs s (s.closeRecord ch num at') := by
  unfold State.closeRecord
  dsimp only
  split <;> simp [SameTariffs]

@[simp] theorem State.crossCheck_tariffs (s : State) (ch num : Nat) : SameTariffs s (s.crossCheck ch num) := by
  unfold State.crossCheck
  split
  · simp [SameTariffs, State.journalEvent]
  · exact ⟨rfl, rfl⟩

theorem State.closeInterval_tariffs (s : State) (ch at' : Nat) (late skipped : Bool) (c : BillChan) :
    SameTariffs s (s.closeInterval ch at' late skipped c) := by
  unfold State.closeInterval
  extract_lets reg flags a
  have recorded : SameTariffs s a :=
    (SameTariffs.ite ⟨rfl, rfl⟩ (s.produceInterval_tariffs _ _ _ _ _)).trans (State.closeRecord_tariffs _ _ _ _)
  have opened : ∀ d, SameTariffs a (a.setBillChan ch d) := fun _ => ⟨rfl, rfl⟩
  exact .ite ⟨rfl, rfl⟩ ((recorded.trans (opened _)).trans (State.crossCheck_tariffs _ _ _))

theorem State.closeChan_tariffs (s : State) (ch at' : Nat) (late skipped : Bool) : SameTariffs s (s.closeChan ch at' late skipped) := by
  unfold State.closeChan
  split
  · exact s.closeInterval_tariffs _ _ _ _ _
  · exact ⟨rfl, rfl⟩

@[simp] theorem State.netEnergy_tariffs (s : State) (ch : Nat) : SameTariffs s (s.netEnergy ch) := by
  unfold State.netEnergy
  (repeat' split) <;> simp [SameTariffs, State.modBillChan]

@[simp] theorem State.closeLength_tariffs (s : State) (l at' : Nat) (late skipped : Bool) :
    SameTariffs s (s.closeLength l at' late skipped) := by
  unfold State.closeLength
  extract_lets chans a
  have closed : SameTariffs s a := (SameTariffs.foldl _ (fun s x => s.closeChan_tariffs x.1 at' late skipped) s chans).trans
    (.foldl _ (fun s x => s.netEnergy_tariffs x.1) _ chans)
  exact closed.trans (.ite (by simp [SameTariffs]) ⟨rfl, rfl⟩)

theorem SMap.find_none_iff {α : Type} (m : SMap α) (k : Nat) : m.find k = none ↔ ∀ x ∈ m, x.1 ≠ k := by
  induction m with
  | nil => simp [SMap.find]
  | cons x m ih =>
    rw [SMap.find, List.forall_mem_cons, ← ih]
    split <;> simp_all [eq_comm]

/-- An instant that is dropped, or was gone before, is gone. -/
theorem State.dropInstants_gone (s : State) (ids : List Nat) {id : Nat} (h : id ∈ ids ∨ s.sweep.instants.find id = none) :
    (s.dropInstants ids).sweep.instants.find id = none := by
  rw [SMap.find_none_iff] at h ⊢
  intro x mem same
  obtain ⟨before, kept⟩ := List.mem_filter.mp mem
  rcases h with listed | gone
  · simp [same, listed] at kept
  · exact gone x before same

/-- What one step of a fold establishes and every step keeps holds after it. -/
theorem foldl_establishes {α β : Type} {P : β → Prop} {f : β → α → β} {a : α} {l : List α} (mem : a ∈ l)
    (keeps : ∀ s b, P s → P (f s b)) (establishes : ∀ s, P (f s a)) (s : β) : P (l.foldl f s) := by
  induction l generalizing s with
  | nil => exact absurd mem List.not_mem_nil
  | cons b l ih =>
    rcases List.mem_cons.mp mem with rfl | later
    · exact List.foldlRecOn l f (establishes s) fun s h b _ => keeps s b h
    · exact ih later _

theorem State.dueInstants_owner {s : State} {owners : InstantOwner → Bool} {x : Nat × Nat × Instant} (due : x ∈ s.dueInstants owners) :
    owners x.2.2.owner = true := by
  obtain ⟨y, -, h⟩ := List.mem_filterMap.mp ((mem_sortBy _ x _).mp due)
  split at h
  · split at h
    · rename_i owned
      cases h
      simp_all
    · cases h
  · cases h

/-- Interval boundaries that are due up to a sweep time are processed, and none of them is left (R215). -/
theorem State.closeDue_gone {s : State} {x : Nat × Nat × Instant} {limit : Nat} (due : x ∈ s.dueInstants ownsInterval)
    (reached : x.1 ≤ limit) : (s.closeDue limit).sweep.instants.find x.2.1 = none := by
  have owned := State.dueInstants_owner due
  have closed : ∀ (s : State) (l id at' : Nat) (late skipped : Bool), x.2.1 ∈ [id] ∨ s.sweep.instants.find x.2.1 = none →
      ((s.dropInstants [id]).closeLength l at' late skipped).releaseHeld.sweep.instants.find x.2.1 = none := fun s l id at' late skipped h => by
    rw [(State.releaseHeld_tariffs _).2, (State.closeLength_tariffs _ _ _ _ _).2]
    exact s.dropInstants_gone _ h
  unfold State.closeDue
  refine foldl_establishes (P := fun s : State => s.sweep.instants.find x.2.1 = none) (List.mem_filter.mpr ⟨due, by simp [reached]⟩)
    (fun s y gone => ?_) (fun s => ?_) s
  · dsimp only
    split
    · exact closed s _ _ _ _ _ (.inr gone)
    · exact gone
  · dsimp only
    split
    · exact closed s _ _ _ _ _ (.inl List.mem_cons_self)
    · rename_i other
      cases h : x.2.2.owner with
      | interval l => exact absurd h (other l)
      | boundary n => simp [h, ownsInterval] at owned
      | window z => simp [h, ownsInterval] at owned

theorem execIntervalClose_closes {t : Angle} {x : Nat × Nat × Instant} {l : List (Nat × Nat × Instant)} {s : State}
    (due : (s.tick t).dueInstants ownsInterval = x :: l) (serves : (s.tick t).serves = true) (runs : (s.tick t).pfStop = false) :
    exec (.intervalClose t) s = .next ((s.tick t).closeDue x.1) := by
  show execIntervalClose t s = _
  rw [execIntervalClose, due]
  exact if_pos (by simp [serves, runs])

/-! ### A program boundary (R46, R215, R216) -/

@[simp] theorem State.prog_setProg (s : State) (n : Nat) (p : Program) : (s.setProg n p).prog n = p := SMap.getD_put_same _ _ _ _

theorem State.prog_of_programs {s u : State} (h : u.billing.programs = s.billing.programs) (n : Nat) : u.prog n = s.prog n := by
  rw [State.prog, State.prog, h]

theorem State.reserveBoundary_reserves {s : State} {key : Nat} (h : s.slalom.reserved.contains key = true ∨ s.takes (recordCost 0x06) = true) :
    (s.reserveBoundary key).slalom.reserved.contains key = true := by
  unfold State.reserveBoundary
  split
  · assumption
  · rename_i free
    rw [if_pos (h.resolve_left free)]
    simp

/-- A processed boundary is the last one of its program: its charges and the units that waited for it leave the programs as they are. -/
theorem State.processBoundary_lastS (s : State) (b : BoundaryDue) : ((s.processBoundary b).prog b.prog).lastS = some b.at' := by
  unfold State.processBoundary
  extract_lets closed dropped p0 p kinds late skipped civil q0 closes chans due periods q flags tai body cut held slalom freed paid r
    record books owed charged ended counted
  have hfreed : SameTariffs cut freed := ⟨rfl, rfl⟩
  have hpaid : SameTariffs freed paid := .ite ⟨rfl, rfl⟩ ⟨rfl, rfl⟩
  have hrecord : SameTariffs paid r.2 := by simp [SameTariffs, r]
  have howed : SameTariffs r.2 owed := .ite ⟨rfl, rfl⟩ ⟨rfl, rfl⟩
  have hcharged : SameTariffs owed charged := by simp [SameTariffs, charged]
  have hended : SameTariffs charged ended := .ite (by simp [SameTariffs]) ⟨rfl, rfl⟩
  have hcounted : SameTariffs ended counted := .ite (by simp [SameTariffs]) ⟨rfl, rfl⟩
  have after := (((((hfreed.trans hpaid).trans hrecord).trans howed).trans hcharged).trans hended).trans hcounted
  rw [State.prog_of_programs (after.trans (State.releaseHeld_tariffs counted)).1, State.prog_setProg]

theorem execBoundaryProcess_processes {t : Angle} {b : BoundaryDue} {s : State} (due : (s.tick t).nextDue = some b)
    (serves : (s.tick t).serves = true) (runs : (s.tick t).pfStop = false)
    (paid : (s.tick t).slalom.reserved.contains b.key = true ∨ (s.tick t).takes (recordCost 0x06) = true) :
    exec (.boundaryProcess t) s = .next (((s.tick t).reserveBoundary b.key).processBoundary b) := by
  have processed : (s.tick t).processNext = ((s.tick t).reserveBoundary b.key).processBoundary b := by
    rw [State.processNext, due]
    exact if_pos (State.reserveBoundary_reserves paid)
  rw [← processed]
  exact if_pos (by simp [serves, runs])

/-! ### The boundaries that are requested again (R211, R214) -/

theorem State.requestNew_billing (s : State) (i : Instant) : (s.requestNew i).billing = s.billing := by
  unfold State.requestNew
  split <;> rfl

/-- Instants are requested of the timebase alone (R211, R214). -/
theorem State.requestMinute_billing (s : State) (acts : SMap (Option Minute)) (m : Minute) :
    (s.requestMinute acts m).billing = s.billing := by
  unfold State.requestMinute
  extract_lets a b
  have programs : a.billing = s.billing := foldl_proj State.billing _ (fun s p => by simp [State.requestNew_billing]) s _
  have lengths : b.billing = a.billing := foldl_proj State.billing _ (fun s l => by simp [State.requestNew_billing]) a _
  split
  · rfl
  · split
    · exact lengths.trans programs
    · exact (foldl_proj State.billing _ (fun s z => by simp [State.requestNew_billing]) b _).trans (lengths.trans programs)

/-- What is compiled again leaves the channel table and the programs as they are. -/
theorem State.recompile_tables (s : State) (owners : InstantOwner → Bool) :
    (s.recompile owners).billing.chans = s.billing.chans ∧ (s.recompile owners).billing.programs = s.billing.programs := by
  have compiled : ∀ u : State, u.compile.billing.chans = u.billing.chans ∧ u.compile.billing.programs = u.billing.programs := fun u => by
    unfold State.compile State.compileTo
    extract_lets from' acts a
    have minutes : a.billing = u.billing := foldl_proj State.billing _ (fun s m => s.requestMinute_billing acts m) u _
    split
    · split
      · exact ⟨rfl, rfl⟩
      · exact ⟨(congrArg Billing.chans minutes :), (congrArg Billing.programs minutes :)⟩
    · exact ⟨rfl, rfl⟩
  exact compiled _

theorem State.recompile_prog (s : State) (owners : InstantOwner → Bool) (n : Nat) : (s.recompile owners).prog n = s.prog n :=
  State.prog_of_programs (s.recompile_tables owners).2 n

theorem State.recompile_billChan (s : State) (owners : InstantOwner → Bool) (ch : Nat) : (s.recompile owners).billChan ch = s.billChan ch :=
  congrArg (SMap.find · ch) (s.recompile_tables owners).1

/-! ### The channel table (R208) -/

theorem State.billChan_of_billing {s u : State} (h : u.billing = s.billing) (ch : Nat) : u.billChan ch = s.billChan ch := by
  rw [State.billChan, State.billChan, h]

theorem State.prog_of_billing {s u : State} (h : u.billing = s.billing) (n : Nat) : u.prog n = s.prog n :=
  State.prog_of_programs (congrArg Billing.programs h) n

@[simp] theorem State.billChan_setBillChan (s : State) (ch : Nat) (c : BillChan) : (s.setBillChan ch c).billChan ch = some c :=
  SMap.find_put_same _ _ _

/-- A write that passes its gate and is accepted leaves billing as its effect does, and every register but its page's SEQ. -/
theorem State.hostWrite_done_books {s a u : State} {p : Path} {page off : Nat} {eff : State → WriteResult}
    (through : s.through p page off true = some a) (done : eff a = .done u) :
    (s.hostWrite p page off eff).billing = u.billing ∧ ∀ k, k ≠ page * 0x1000 + 0x030 → (s.hostWrite p page off eff).reg k = u.reg k := by
  rw [State.hostWrite_through through, done]
  exact ⟨by rw [State.finish_done], fun k other => State.finish_done_reg p page off k u other⟩

/-- A changed ILEN or PROG leaves the key of an entry and its validity as they are. -/
theorem State.applyW1_entry (s : State) (c : BillChan) (w1 : Nat) : (s.applyW1 c w1).w0 = c.w0 ∧ (s.applyW1 c w1).valid = c.valid := by
  unfold State.applyW1
  dsimp only
  split <;> exact ⟨rfl, rfl⟩

theorem State.writeChannel_stands (s : State) (ch w0 w1 : Nat) :
    ∃ c, (s.writeChannel ch w0 w1).billChan ch = some c ∧ c.w0 = w0 ∧ c.valid = true := by
  unfold State.writeChannel
  extract_lets fresh journalled ilenProg entered
  rw [State.recompile_billChan]
  simp only [entered]
  split
  · exact ⟨_, State.billChan_setBillChan _ _ _, rfl, rfl⟩
  · rename_i c _
    split
    · exact ⟨_, State.billChan_setBillChan _ _ _, State.applyW1_entry _ _ _⟩
    · rename_i invalid
      have valid : c.valid = true := by simpa using invalid
      split
      · exact ⟨_, State.billChan_setBillChan _ _ _, rfl, valid⟩
      · split
        · obtain ⟨key, still⟩ := State.applyW1_entry journalled { c with w0 := w0 } w1
          exact ⟨_, State.billChan_setBillChan _ _ _, key, still.trans valid⟩
        · exact ⟨_, State.billChan_setBillChan _ _ _, rfl, valid⟩

theorem effCtCmd_writes {a : State} (entered : bit 31 (a.reg Reg.BILL_CT_W0) = true)
    (passes : a.channelCheck (a.fld Reg.BILL_CT_CH 19 0) (a.reg Reg.BILL_CT_W0) (a.reg Reg.BILL_CT_W1) = 0) :
    ∃ u, effCtCmd 1 a = .done u ∧ u.reg Reg.BILL_CT_STAT = 2 ^ 28 ∧
      ∃ c, u.billChan (a.fld Reg.BILL_CT_CH 19 0) = some c ∧ c.w0 = a.reg Reg.BILL_CT_W0 ∧ c.valid = true := by
  have written : effCtCmd 1 a = .done ((a.writeChannel (a.fld Reg.BILL_CT_CH 19 0) (a.reg Reg.BILL_CT_W0) (a.reg Reg.BILL_CT_W1)).setReg
      Reg.BILL_CT_STAT (2 ^ 28)) := by
    rw [effCtCmd, if_pos (by decide), if_neg (by simp [entered])]
    simp [passes]
  exact ⟨_, written, State.reg_setReg _ _ _, State.writeChannel_stands _ _ _ _⟩

theorem effCtCmd_reads {a : State} {c : BillChan} (stands : a.billChan (a.fld Reg.BILL_CT_CH 19 0) = some c) :
    ∃ u, effCtCmd 2 a = .done u ∧ u.reg Reg.BILL_CT_W0 = setBit 31 c.valid c.w0 % 2 ^ 32 ∧
      u.reg Reg.BILL_CT_W1 = c.nextW1.getD c.w1 % 2 ^ 32 ∧ u.reg Reg.BILL_CT_STAT = 2 ^ 28 := by
  have read : effCtCmd 2 a = .done (((a.setReg Reg.BILL_CT_W0 (setBit 31 c.valid c.w0)).setReg Reg.BILL_CT_W1 (c.nextW1.getD c.w1)).setReg
      Reg.BILL_CT_STAT (2 ^ 28)) := by
    rw [effCtCmd, if_neg (by decide), if_pos (by decide)]
    dsimp only
    rw [stands]
    rfl
  refine ⟨_, read, ?_, ?_, State.reg_setReg _ _ _⟩
  · rw [State.reg_setReg_other _ _ _ _ (by decide), State.reg_setReg_other _ _ _ _ (by decide), State.reg_setReg]
  · rw [State.reg_setReg_other _ _ _ _ (by decide), State.reg_setReg]

theorem State.invalidateChannel_invalid {s : State} {ch : Nat} {c : BillChan} (stands : s.billChan ch = some c) (valid : c.valid = true) :
    (s.invalidateChannel ch).billChan ch = some { c with valid := false } := by
  rw [State.invalidateChannel, stands]
  dsimp only
  rw [if_pos valid, State.billChan_of_billing (State.journal_billing _ _ _), State.billChan_setBillChan]

/-! ### Tariff programs (R213, R214) -/

theorem State.progEnd_billing (s : State) (code : Nat) : (s.progEnd code).billing = s.billing := by
  rw [State.progEnd, State.raise_billing, State.setReg_billing]

theorem effProgramCommit_pends {a : State} {img : Image} (image : img = a.load (a.reg Reg.TARIF_PIMG_OFS) (a.reg Reg.TARIF_PIMG_LEN))
    (passes : a.programCheck img (a.reg Reg.TARIF_PIMG_LEN) = 0) :
    ∃ u, effPcmd 0x100 a = .done u ∧ (u.prog img.prog).pending = some img := by
  subst image
  have commits : effPcmd 0x100 a = effProgramCommit a := rfl
  refine ⟨_, commits.trans (if_neg (not_not.mpr passes)), ?_⟩
  rw [State.prog_of_billing (State.progEnd_billing _ _), State.recompile_prog, State.prog_setProg]

/-- CMD of the written word of a program command, beside the PROG that the host gives. -/
theorem programCmd_fields (v : Word) {cmd : Nat} (h : cmd < 8) :
    bits 10 8 (BitVec.ofNat 32 (setBits 10 8 cmd v.toNat)).toNat = cmd ∧
      bits 5 0 (BitVec.ofNat 32 (setBits 10 8 cmd v.toNat)).toNat = bits 5 0 v.toNat := by
  rw [BitVec.toNat_ofNat]
  constructor
  · rw [bits_word _ _ _ (by decide) (by decide), bits_setBits_same _ _ _ _ (by decide)]
    exact Nat.mod_eq_of_lt h
  · rw [bits_word _ _ _ (by decide) (by decide), bits_setBits_other _ _ _ _ _ _ (by decide) (by decide) (.inr (by decide))]

theorem effPcmd_withdraws {v : Word} {a : State} (pending : (a.prog (bits 5 0 v.toNat)).pending.isSome = true) :
    ∃ u, effPcmd (BitVec.ofNat 32 (setBits 10 8 2 v.toNat)) a = .done u ∧ (u.prog (bits 5 0 v.toNat)).pending = none := by
  obtain ⟨cmd, n⟩ := programCmd_fields v (cmd := 2) (by decide)
  have withdrawn : effPcmd (BitVec.ofNat 32 (setBits 10 8 2 v.toNat)) a = effProgramWithdraw (bits 5 0 v.toNat) a := by
    rw [effPcmd, cmd, n]
    rfl
  refine ⟨_, withdrawn.trans (if_neg (by simp [← Option.not_isSome, pending])), ?_⟩
  rw [State.prog_of_billing (State.progEnd_billing _ _), State.recompile_prog, State.prog_of_billing (State.journal_billing _ _ _),
    State.prog_setProg]

theorem effPcmd_closes {v : Word} {a : State} {img : Image} (inForce : (a.prog (bits 5 0 v.toNat)).image = some img)
    (byCommand : img.periodKind = 0) :
    ∃ u, effPcmd (BitVec.ofNat 32 (setBits 10 8 3 v.toNat)) a = .done u ∧
      (u.prog (bits 5 0 v.toNat)).closeFrom = some (a.now + 2 * 65536) := by
  obtain ⟨cmd, n⟩ := programCmd_fields v (cmd := 3) (by decide)
  have closed : effPcmd (BitVec.ofNat 32 (setBits 10 8 3 v.toNat)) a = effPeriodClose (bits 5 0 v.toNat) a := by
    rw [effPcmd, cmd, n]
    rfl
  rw [closed, effPeriodClose, inForce]
  refine ⟨_, if_neg (not_not.mpr byCommand), ?_⟩
  rw [State.prog_of_billing (State.progEnd_billing _ _), State.prog_of_billing (State.journal_billing _ _ _), State.prog_setProg]

/-! ### The commands -/

/-- Settles O38, each clause from the lemma about its command or its effect. -/
theorem billingCommandsComplete : Obligations.BillingCommandsComplete := by
  refine ⟨?write, ?read, ?invalidate, ?interval, ?commit, ?withdraw, ?close, ?boundary⟩
  case write =>
    intro t p s a through entered passes
    obtain ⟨u, done, stat, c, stands, fields⟩ := effCtCmd_writes entered passes
    obtain ⟨books, regs⟩ := State.hostWrite_done_books through done
    exact ⟨_, rfl, (regs _ (by decide)).trans stat, c, (State.billChan_of_billing books _).trans stands, fields⟩
  case read =>
    intro t p c s a through stands
    obtain ⟨u, done, w0, w1, stat⟩ := effCtCmd_reads stands
    obtain ⟨-, regs⟩ := State.hostWrite_done_books through done
    exact ⟨_, rfl, (regs _ (by decide)).trans w0, (regs _ (by decide)).trans w1, (regs _ (by decide)).trans stat⟩
  case invalidate =>
    intro t p c s a through stands valid
    obtain ⟨books, -⟩ := State.hostWrite_done_books (eff := effCtCmd 3) through rfl
    exact ⟨_, rfl, (State.billChan_of_billing books _).trans (State.invalidateChannel_invalid stands valid)⟩
  case interval =>
    intro t x l s due serves runs
    exact ⟨_, execIntervalClose_closes due serves runs, State.closeDue_gone (due ▸ List.mem_cons_self) le_rfl⟩
  case commit =>
    intro t p img s a through passes
    obtain ⟨u, done, pending⟩ := effProgramCommit_pends rfl passes
    obtain ⟨books, -⟩ := State.hostWrite_done_books through done
    refine ⟨_, rfl, ?_⟩
    rw [← pending]
    exact congrArg Program.pending (State.prog_of_billing books _)
  case withdraw =>
    intro t p v s a through pending
    obtain ⟨u, done, gone⟩ := effPcmd_withdraws pending
    obtain ⟨books, -⟩ := State.hostWrite_done_books through done
    exact ⟨_, rfl, (congrArg Program.pending (State.prog_of_billing books _)).trans gone⟩
  case close =>
    intro t p v img s a through inForce byCommand
    obtain ⟨u, done, asked⟩ := effPcmd_closes inForce byCommand
    obtain ⟨books, -⟩ := State.hostWrite_done_books through done
    exact ⟨_, rfl, (congrArg Program.closeFrom (State.prog_of_billing books _)).trans asked⟩
  case boundary =>
    intro t b s due serves runs paid
    exact ⟨_, execBoundaryProcess_processes due serves runs paid, State.processBoundary_lastS _ b⟩

end Sys2Proof.Machine
end

section
/-!
PROOFS. The commands of credit accounts (R222, R224, R225) complete with their effect.
-/

namespace Sys2Proof.Machine

theorem State.account_of_billing {s u : State} (h : u.billing = s.billing) (n : Nat) : u.account n = s.account n := by
  rw [State.account, State.account, h]

@[simp] theorem State.account_setAccount (s : State) (n : Nat) (x : Account) : (s.setAccount n x).account n = x :=
  SMap.getD_put_same _ _ _ _

theorem State.journalAccount_billing (s : State) (n k v : Nat) : (s.journalAccount n k v).billing = s.billing := s.journal_billing _ _

/-- The 64-bit value that the write of its high half commits. -/
theorem State.reg64_setReg_high (s : State) {klo khi : Nat} (h : klo ≠ khi) (v : Word) :
    (s.setReg khi v.toNat).reg64 klo khi = s.reg klo + 2 ^ 32 * v.toNat := by
  rw [State.reg64, State.reg_setReg_other _ _ _ _ h, State.reg_setReg, Nat.mod_eq_of_lt v.isLt]

theorem bankKey_inj {sel k j : Nat} : bankKey sel k = bankKey sel j ↔ k = j := Nat.add_right_cancel_iff

/-- A bank holds no SEQ of a page. -/
theorem bankKey_ne_seq (sel k : Nat) {page : Nat} (h : page < 0x100) : bankKey sel k ≠ page * 0x1000 + 0x030 := by
  rw [bankKey]
  omega

/-! ### Effects (R222, R224, R225) -/

theorem effPrEffHi_pends (v : Word) (a : State) :
    ∃ u table, effPrEffHi v a = .done u ∧
      (u.account a.acSel).pending = some (a.reg (bankKey a.acSel Reg.CRED_PR_EFF_LO) + 2 ^ 32 * v.toNat, table) := by
  unfold effPrEffHi
  extract_lets n staged eff table journalled account
  refine ⟨_, table, rfl, (congrArg Account.pending (State.account_setAccount _ _ _)).trans ?_⟩
  exact congrArg (fun eff => some (eff, table)) (State.reg64_setReg_high _ (mt bankKey_inj.mp (by decide)) v)

theorem effTopupHi_adds {v : Word} {a : State} (enabled : bit 31 (a.acCfg a.acSel) = true) :
    ∃ u, effTopupHi v a = .done u ∧ (u.account a.acSel).balance =
      satSigned 64 ((a.account a.acSel).balance + toSigned 64 (a.reg (bankKey a.acSel Reg.CRED_TOPUP_LO) + 2 ^ 32 * v.toNat)) := by
  refine ⟨_, if_neg (by simp [enabled]), ?_⟩
  rw [State.account_of_billing (State.accountState_books _ _).1, State.account_setAccount]

theorem effLimitHi_sets (i : Fin 3) (v : Word) (a : State) :
    ∃ u, effLimitHi i v a = .done u ∧ (u.account a.acSel).limits = (a.account a.acSel).limits.set i
      (toSigned 64 (a.reg (bankKey a.acSel (Reg.CRED_AC_WARN_LO + 8 * i)) + 2 ^ 32 * v.toNat)) := by
  have halves : Reg.CRED_AC_WARN_LO + 8 * i.val ≠ Reg.CRED_AC_WARN_HI + 8 * i.val := mt Nat.add_right_cancel (by decide)
  refine ⟨_, rfl, ?_⟩
  rw [State.account_of_billing (State.accountState_books _ _).1, State.account_of_billing (State.journalAccount_billing _ _ _ _),
    State.account_setAccount, State.reg64_setReg_high _ (mt bankKey_inj.mp halves)]
  rfl

theorem effMbW_enters {v : Word} {a : State} (fits : bit 31 (v.toNat &&& 0xF00FFFFF) = false ∨
    a.memberFits a.acSel (a.fld Reg.CRED_MB_SEL 4 0) (v.toNat &&& 0xF00FFFFF) = true) :
    ∃ u, effMbW v a = .done u ∧
      u.reg (bankKey (a.acSel * 32 + a.fld Reg.CRED_MB_SEL 4 0) Reg.CRED_MB_W) = v.toNat &&& 0xF00FFFFF := by
  refine ⟨_, if_neg (by rcases fits with free | fits <;> simp [*]), ?_⟩
  rw [State.journalAccount, State.journal, State.reg_of_regs (State.append_regs_uncharged _ (by decide) _ _ _)]
  exact (State.reg_setReg a _ _).trans (Nat.mod_eq_of_lt (Nat.lt_of_le_of_lt Nat.and_le_left v.isLt))

/-! ### The commands -/

/-- Settles O39, each clause from the lemma about its effect. -/
theorem creditCommandsComplete : Obligations.CreditCommandsComplete := by
  refine ⟨?price, ?topup, ?limit, ?member⟩
  case price =>
    intro t p v s a through
    obtain ⟨u, table, done, pending⟩ := effPrEffHi_pends v a
    obtain ⟨books, -⟩ := State.hostWrite_done_books through done
    exact ⟨_, rfl, table, (congrArg Account.pending (State.account_of_billing books _)).trans pending⟩
  case topup =>
    intro t p v s a through enabled
    obtain ⟨u, done, added⟩ := effTopupHi_adds enabled
    obtain ⟨books, -⟩ := State.hostWrite_done_books through done
    exact ⟨_, rfl, (congrArg Account.balance (State.account_of_billing books _)).trans added⟩
  case limit =>
    intro t p i v s a through
    obtain ⟨u, done, limits⟩ := effLimitHi_sets i v a
    obtain ⟨books, -⟩ := State.hostWrite_done_books through done
    exact ⟨_, rfl, (congrArg Account.limits (State.account_of_billing books _)).trans limits⟩
  case member =>
    intro t p v s a through fits
    obtain ⟨u, done, entry⟩ := effMbW_enters fits
    obtain ⟨-, regs⟩ := State.hostWrite_done_books through done
    exact ⟨_, rfl, (regs _ (bankKey_ne_seq _ _ (by decide))).trans entry⟩

end Sys2Proof.Machine
end
